-- ==== Sys2Proof/Word.lean ====
section
/-! DEFINITION. The word types of the model and their plainest arithmetic: bytes, general-register
words (R84), instruction words (R82), and the sparse tables every large piece of state is held in. -/

namespace Sys2Proof

/-- One byte, the smallest addressable unit (R1, R2). -/
abbrev Byte := BitVec 8

/-- A general register of a core: 64 bits, arithmetic wraps (R84). -/
abbrev GWord := BitVec 64

/-- A tile instruction word: 128 bits (R82). -/
abbrev IWord := BitVec 128

/-- A sparse table: key and value pairs in canonical form (keys strictly rising, no entry equal to
what an unlisted key reads as). What an unlisted key reads as is given at each use. -/
abbrev Tab (α : Type) := List (Nat × α)

end Sys2Proof
end

