-- ==== Sys2Proof/Machine/Bits.lean ====
section
/-! DEFINITION. Bit fields, sign extension, byte order (R2) and the read and write of sparse tables:
the helpers that every meaning uses. -/

namespace Sys2Proof.Machine

/-- Bits [hi:lo] of a number. -/
def bits (w hi lo : Nat) : Nat := (w >>> lo) % 2 ^ (hi + 1 - lo)

/-- Bit i of a number, as 0 or 1. -/
def bit (w i : Nat) : Nat := (w >>> i) % 2

/-- Bit i of a number, as a truth value. -/
def flag (w i : Nat) : Bool := (w >>> i) % 2 == 1

/-- The two's complement value of an n-bit number. -/
def sext (n w : Nat) : Int :=
  if w % 2 ^ n < 2 ^ (n - 1) then (w % 2 ^ n : Nat) else ((w % 2 ^ n : Nat) : Int) - (2 ^ n : Nat)

/-- The n-bit two's complement pattern of an integer. -/
def wrapInt (n : Nat) (i : Int) : Nat := (i % ((2 ^ n : Nat) : Int)).toNat

def ceilDiv (a b : Nat) : Nat := (a + b - 1) / b

/-- The least multiple of m that is at least a. -/
def ceilTo (m a : Nat) : Nat := ceilDiv a m * m

/-- Saturating addition at a greatest value. -/
def satAdd (top a b : Nat) : Nat := min top (a + b)

/-- The number a byte string spells, lowest byte first (R2). -/
def leNat : List Byte → Nat
  | [] => 0
  | b :: bs => b.toNat + 256 * leNat bs

/-- The n bytes of a number, lowest byte first (R2). -/
def natLE : Nat → Nat → List Byte
  | 0, _ => []
  | n + 1, v => BitVec.ofNat 8 v :: natLE n (v / 256)

/-- A list of codes as bytes. -/
def toBytes (l : List Nat) : List Byte := l.map (BitVec.ofNat 8)

/-- Codes of width w packed little-endian by bit, as one number (R22). -/
def packCodes (w : Nat) : List Nat → Nat
  | [] => 0
  | c :: cs => c % 2 ^ w + 2 ^ w * packCodes w cs

/-- n codes of width w taken from a packed number, element 0 first (R22). -/
def unpackCodes (w : Nat) : Nat → Nat → List Nat
  | 0, _ => []
  | n + 1, v => v % 2 ^ w :: unpackCodes w n (v / 2 ^ w)

/-- Consecutive pieces of length n of a list, at most k of them. -/
def chunks {α : Type} (n : Nat) : Nat → List α → List (List α)
  | 0, _ => []
  | k + 1, l => l.take n :: chunks n k (l.drop n)

/-- A list of n bytes: cut, or filled with zeros. -/
def padTo (n : Nat) (l : List Byte) : List Byte := (l ++ List.replicate n 0).take n

end Sys2Proof.Machine

namespace Sys2Proof.Tab
variable {α : Type}

/-- What key k reads as; `d` is what an unlisted key reads as. -/
def get (d : α) (t : Tab α) (k : Nat) : α :=
  match t with
  | [] => d
  | (j, v) :: r => if j = k then v else get d r k

/-- The entries, in canonical form, that make keys a, a+1, … read as the given values. -/
def entries [DecidableEq α] (d : α) : Nat → List α → Tab α
  | _, [] => []
  | a, v :: vs => if v = d then entries d (a + 1) vs else (a, v) :: entries d (a + 1) vs

/-- Write consecutive values from key a on; the canonical form is kept. -/
def write [DecidableEq α] (d : α) (t : Tab α) (a : Nat) (vs : List α) : Tab α :=
  t.filter (fun e => e.1 < a) ++ entries d a vs ++ t.filter (fun e => a + vs.length ≤ e.1)

/-- Write one key. -/
def set [DecidableEq α] (d : α) (t : Tab α) (k : Nat) (v : α) : Tab α := write d t k [v]

/-- Read n consecutive keys from a on. -/
def read (d : α) (t : Tab α) (a n : Nat) : List α :=
  let r := t.filter (fun e => a ≤ e.1 && e.1 < a + n)
  (List.range n).map fun i => get d r (a + i)

/-- Drop every listed key of a range, so that it reads as the default. -/
def clear (t : Tab α) (a n : Nat) : Tab α := t.filter fun e => !(a ≤ e.1 && e.1 < a + n)

/-- The listed keys of a range. -/
def keysIn (t : Tab α) (a n : Nat) : List Nat :=
  (t.filter fun e => a ≤ e.1 && e.1 < a + n).map (·.1)

/-- Keys strictly rise from a bound on and no entry equals the default. -/
def wfFrom [DecidableEq α] (d : α) : Nat → Tab α → Bool
  | _, [] => true
  | b, (k, v) :: r => decide (b ≤ k) && decide (v ≠ d) && wfFrom d (k + 1) r

/-- The canonical form. -/
def wf [DecidableEq α] (d : α) (t : Tab α) : Bool := wfFrom d 0 t

end Sys2Proof.Tab
end

