-- ==== Sys2Proof/Machine/Formats.lean ====
section
/-! DEFINITION. The narrow number formats (R20 to R37): element formats, block scales, decoding, the
quantiser and the rounding stream. -/

namespace Sys2Proof.Machine

/-- The element formats of R22 to R25. -/
inductive EFmt where
  | e4m3 | e5m2 | e3m2 | e2m3 | e2m1 | int8 | int4 | int2 | tern
  deriving DecidableEq, Repr

/-- The wider floating-point formats of R51. -/
inductive IFmt where
  | fp32 | bf16 | fp16
  deriving DecidableEq, Repr

/-- The rounding modes of R31. -/
inductive Rnd where
  | rne | rtz | sr
  deriving DecidableEq, Repr

/-- A decoded value: an exact rational, an infinity or a NaN (R20, R29). -/
inductive Num where
  | fin (q : Rat)
  | inf (neg : Bool)
  | nan
  deriving DecidableEq, Repr

/-- One row of the `FMT` table of R34. -/
structure FmtRow where
  fp   : Bool
  eb   : Nat
  mb   : Nat
  bias : Int
  emax : Int
  kmax : Nat
  umax : Int
  deriving DecidableEq, Repr

/-- The `FMT` table of R34. -/
def EFmt.row : EFmt → FmtRow
  | .e4m3 => ⟨true, 4, 3, 7, 8, 14, 5⟩
  | .e5m2 => ⟨true, 5, 2, 15, 15, 7, 13⟩
  | .e3m2 => ⟨true, 3, 2, 3, 4, 7, 2⟩
  | .e2m3 => ⟨true, 2, 3, 1, 2, 15, -1⟩
  | .e2m1 => ⟨true, 2, 1, 1, 2, 3, 1⟩
  | .int8 => ⟨false, 8, 0, 0, 6, 127, 0⟩
  | .int4 => ⟨false, 4, 0, 0, 2, 7, 0⟩
  | .int2 => ⟨false, 2, 0, 0, 0, 1, 0⟩
  | .tern => ⟨false, 0, 0, 0, 0, 1, 0⟩

/-- The element-format codes 0x0 to 0x8 of R86. -/
def EFmt.ofCode : Nat → Option EFmt
  | 0 => some .e4m3
  | 1 => some .e5m2
  | 2 => some .e3m2
  | 3 => some .e2m3
  | 4 => some .e2m1
  | 5 => some .int8
  | 6 => some .int4
  | 7 => some .int2
  | 8 => some .tern
  | _ => none

/-- Code width in bits (R22); a ternary trit is held apart, see `blockBytes`. -/
def EFmt.width : EFmt → Nat
  | .e4m3 | .e5m2 | .int8 => 8
  | .e3m2 | .e2m3 => 6
  | .e2m1 | .int4 => 4
  | .int2 => 2
  | .tern => 2

/-- Element bytes of one 32-element block (R22). -/
def EFmt.blockBytes : EFmt → Nat
  | .e4m3 | .e5m2 | .int8 => 32
  | .e3m2 | .e2m3 => 24
  | .e2m1 | .int4 => 16
  | .int2 => 8
  | .tern => 7

/-- The L of R38: elements are integer multiples of 2^-L. -/
def EFmt.L : EFmt → Int
  | .e4m3 => 9
  | .e5m2 => 16
  | .e3m2 => 4
  | .e2m3 => 3
  | .e2m1 => 1
  | _ => 0

/-- The slots per processing element, S of R63. -/
def EFmt.slots : EFmt → Nat
  | .e4m3 | .e5m2 | .int8 => 1
  | .e3m2 | .e2m3 | .e2m1 | .int4 => 2
  | .int2 | .tern => 4

/-- Products per processing element per cycle for a pair of formats, q of R39. -/
def EFmt.rate (a w : EFmt) : Nat :=
  let slow : EFmt → Bool := fun f => f == .e4m3 || f == .e5m2 || f == .int8
  let fast : EFmt → Bool := fun f => f == .int2 || f == .tern
  if slow a || slow w then 1 else if fast a && fast w then 4 else 2

/-- Powers of two with integer exponent, as a rational. -/
def pow2 (e : Int) : Rat :=
  if 0 ≤ e then ((2 ^ e.toNat : Nat) : Rat) else mkRat 1 (2 ^ (-e).toNat)

/-- R34 `scaled`: the pair (n / d) * 2^s. -/
def scaled (n d : Nat) (s : Int) : Nat × Nat :=
  if 0 ≤ s then (n <<< s.toNat, d) else (n, d <<< (-s).toNat)

/-- R34 `less`: a < b for pairs with positive denominators. -/
def less (a b : Nat × Nat) : Bool := decide (a.1 * b.2 < b.1 * a.2)

/-- R34 `floor_log2` of n / d for positive n and d. -/
def floorLog2 (n d : Nat) : Int :=
  let e : Int := (Nat.log2 n : Int) - (Nat.log2 d : Int)
  if 0 ≤ e then (if n < d <<< e.toNat then e - 1 else e)
  else if n <<< (-e).toNat < d then e - 1 else e

/-- Exponent width, mantissa width and bias of R51's `IEEE` table. -/
def IFmt.parms : IFmt → Nat × Nat × Nat
  | .fp32 => (8, 23, 127)
  | .bf16 => (8, 7, 127)
  | .fp16 => (5, 10, 15)

/-- Bytes of one value. -/
def IFmt.bytes : IFmt → Nat
  | .fp32 => 4
  | _ => 2

/-- The FORMAT codes of R111: 0 FP32, 1 BF16, 2 FP16. -/
def IFmt.ofCode : Nat → Option IFmt
  | 0 => some .fp32
  | 1 => some .bf16
  | 2 => some .fp16
  | _ => none

/-- The RND codes of R111 and R125: 0 RNE, 1 RTZ, 2 SR. -/
def Rnd.ofCode : Nat → Option Rnd
  | 0 => some .rne
  | 1 => some .rtz
  | 2 => some .sr
  | _ => none

/-- The canonical NaN of R53. -/
def IFmt.nanCode : IFmt → Nat
  | .fp32 => 0x7FC00000
  | .bf16 => 0x7FC0
  | .fp16 => 0x7E00

/-- The infinity code of R53. -/
def IFmt.infCode (f : IFmt) (neg : Bool) : Nat :=
  let (eb, mb, _) := f.parms
  (if neg then 1 <<< (eb + mb) else 0) + ((2 ^ eb - 1) <<< mb)

/-- Sign, mantissa m and exponent e of a finite IEEE code: (−1)^s × m × 2^e. -/
def ieeeMe (f : IFmt) (b : Nat) : Bool × Nat × Int :=
  let (eb, mb, bias) := f.parms
  let e := (b >>> mb) % 2 ^ eb
  let m := b % 2 ^ mb
  let s := flag b (eb + mb)
  if e = 0 then (s, m, 1 - (bias : Int) - mb) else (s, m + 2 ^ mb, (e : Int) - bias - mb)

/-- The value of an IEEE code (`fp32_decode` of R34 and its BF16 and FP16 forms). -/
def ieeeDecode (f : IFmt) (b : Nat) : Num :=
  let (eb, mb, _) := f.parms
  let e := (b >>> mb) % 2 ^ eb
  let m := b % 2 ^ mb
  let s := flag b (eb + mb)
  if e = 2 ^ eb - 1 then (if m = 0 then .inf s else .nan)
  else
    let (s, m, x) := ieeeMe f b
    let q := (m : Rat) * pow2 x
    .fin (if s then -q else q)

/-- R28: a tensor scale is positive, finite and normal. -/
def scaleOk (b : Nat) : Bool :=
  let e := bits b 30 23
  !flag b 31 && decide (0 < e) && decide (e < 255)

/-- The rational value of a finite FP32 code, 0 for any other. -/
def fp32Rat (b : Nat) : Rat :=
  match ieeeDecode .fp32 b with
  | .fin q => q
  | _ => 0

/-- Magnitude of a rational as a pair. -/
def magPair (q : Rat) : Nat × Nat := (q.num.natAbs, q.den)

/-! ### The rounding stream (R36) -/

def m64 : Nat := 0xFFFFFFFFFFFFFFFF
def gold : Nat := 0x9E3779B97F4A7C15

/-- R36 `mix64`. -/
def mix64 (z : Nat) : Nat :=
  let z := ((z ^^^ (z >>> 30)) * 0xBF58476D1CE4E5B9) % 2 ^ 64
  let z := ((z ^^^ (z >>> 27)) * 0x94D049BB133111EB) % 2 ^ 64
  z ^^^ (z >>> 31)

/-- The key of R36 and R37. -/
def streamKey (seed tid : Nat) : Nat :=
  mix64 ((seed % 2 ^ 64) ^^^ (((tid % 2 ^ 32) * gold) % 2 ^ 64))

/-- R36 `rounding_stream`. -/
def roundingStream (seed tid index : Nat) : Nat :=
  mix64 ((streamKey seed tid + ((index % 2 ^ 48) + 1) * gold) % 2 ^ 64)

/-- Where an element draws its stochastic bits: seed, tensor id and element index (R32). -/
structure Draw where
  mode  : Rnd
  seed  : Nat
  tid   : Nat
  index : Nat
  deriving DecidableEq, Repr

/-- Bits [15:0] of the stream, i places on. -/
def Draw.bits16 (w : Draw) (i : Nat) : Nat := roundingStream w.seed w.tid (w.index + i) % 2 ^ 16

/-! ### Encoding (R31 to R34) -/

/-- The rounding decision on k + rem / d (R31, R32). -/
def roundUp (mode : Rnd) (k rem d r : Nat) : Bool :=
  match mode with
  | .rne => decide (d < 2 * rem) || (decide (2 * rem = d) && k % 2 == 1)
  | .rtz => false
  | .sr => decide (0x10000 ≤ (rem <<< 16) / d + r)

/-- R34 `encode`: the element code of the magnitude n / d with a sign, and whether it saturated.
A ternary code is its digit under R25. -/
def encode (f : EFmt) (s : Bool) (n d : Nat) (mode : Rnd) (r : Nat) : Nat × Nat :=
  let p := f.row
  if n = 0 then (0, 0) else
  let u : Int := if p.fp then max (floorLog2 n d) (1 - p.bias) - p.mb else 0
  let (n2, d2) := scaled n d (-u)
  let k0 := n2 / d2
  let rem := n2 - k0 * d2
  let k1 := if roundUp mode k0 rem d2 r then k0 + 1 else k0
  let sat := less (scaled p.kmax 1 p.umax) (scaled k1 1 u)
  let (k, u) := if sat then (p.kmax, p.umax) else (k1, u)
  let c := if sat then 1 else 0
  if k = 0 then (0, c) else
  if p.fp then
    let (k, u) := if k = 2 ^ (p.mb + 1) then (2 ^ p.mb, u + 1) else (k, u)
    let (e, m) := if k < 2 ^ p.mb then (0, k) else ((u + p.mb + p.bias).toNat, k - 2 ^ p.mb)
    ((if s then 2 ^ (p.eb + p.mb) else 0) + e * 2 ^ p.mb + m, c)
  else if f = .tern then (if s then 2 else 1, c)
  else ((if s then 2 ^ p.eb - k else k) % 2 ^ p.eb, c)

/-- R34 `inf_code`. -/
def infElem (f : EFmt) (s : Bool) : Nat :=
  match f with
  | .e5m2 => (if s then 128 else 0) + 124
  | _ =>
    let (n, d) := scaled f.row.kmax 1 f.row.umax
    (encode f s n d .rtz 0).1

/-- The scale exponent X that R30 chooses for the largest of the given magnitudes. -/
def blockScale (f : EFmt) (mags : List Rat) : Int :=
  let amax := mags.foldl max 0
  if amax = 0 then -127 else
  let p := f.row
  let (n, d) := magPair amax
  let x := floorLog2 n d - p.emax
  let x := if less (scaled p.kmax 1 (p.umax + x)) (n, d) then x + 1 else x
  min (max x (-127)) 127

/-- An encoded block: its scale code, its 32 element codes, and the events it counts (R33). -/
structure Blk where
  scale : Nat
  codes : List Nat
  sat   : Nat
  nan   : Nat
  deriving DecidableEq, Repr

/-- The elements of a block encoded under a chosen exponent (R34, R52). -/
def encodeElems (f : EFmt) (x : Int) (w : Draw) : Nat → List Num → List Nat × Nat
  | _, [] => ([], 0)
  | i, v :: vs =>
    let (c, k) := match v with
      | .fin q =>
        let (n, d) := magPair q
        let (n, d) := scaled n d (-x)
        encode f (decide (q < 0)) n d w.mode (w.bits16 i)
      | .inf s => (infElem f s, 0)
      | .nan => (0, 0)
    let (cs, ks) := encodeElems f x w (i + 1) vs
    (c :: cs, k + ks)

/-- R34 and R52 once the exponent candidates are known: `vs` are the exact values before division
by 2^X, `cand` the magnitudes that choose the scale. -/
def encodeBlock (f : EFmt) (w : Draw) (cand : List Rat) (vs : List Num) : Blk :=
  let nans := vs.countP (fun v => v == .nan)
  let infs := vs.countP (fun v => match v with | .inf _ => true | _ => false)
  if 0 < nans then ⟨0xFF, List.replicate 32 0, infs, nans⟩ else
  let x := blockScale f cand
  let (cs, k) := encodeElems f x w 0 vs
  ⟨(x + 127).toNat, cs, infs + k, 0⟩

/-- The finite magnitudes of a list of values. -/
def finMags (vs : List Num) : List Rat :=
  vs.filterMap fun v => match v with
    | .fin q => if q = 0 then none else some |q|
    | _ => none

/-- A value divided by a positive scale. -/
def Num.div (v : Num) (t : Rat) : Num :=
  match v with
  | .fin q => .fin (q / t)
  | w => w

/-- R34 `quantise_block` of FP32 values under a tensor scale. -/
def quantiseBlock (f : EFmt) (tscale : Nat) (w : Draw) (v : List Nat) : Blk :=
  let vs := v.map fun b => (ieeeDecode .fp32 b).div (fp32Rat tscale)
  encodeBlock f w (finMags vs) vs

/-! ### Packing and decoding -/

/-- R25: 32 trit digits as 7 bytes. -/
def packTern (d : List Nat) : List Byte :=
  let g := fun i => d.getD i 0
  toBytes ((List.range 6).map (fun j =>
    g (5*j) + 3 * g (5*j+1) + 9 * g (5*j+2) + 27 * g (5*j+3) + 81 * g (5*j+4)) ++ [g 30 + 3 * g 31])

/-- The element bytes of a block (R22, R25). -/
def packBlock (f : EFmt) (codes : List Nat) : List Byte :=
  if f = .tern then packTern codes else natLE f.blockBytes (packCodes f.width codes)

/-- The trit digits of one ternary byte holding n elements, or none when it is invalid (R26). -/
def ternDigits (n v : Nat) : Option (List Nat) :=
  if v < 3 ^ n then some ((List.range n).map fun i => (v / 3 ^ i) % 3) else none

/-- R25, R26: the 32 digits of a ternary block and the number of invalid bytes. -/
def unpackTern (bs : List Byte) : List Nat × Nat :=
  let rec go : Nat → List Byte → List Nat × Nat
    | _, [] => ([], 0)
    | j, b :: r =>
      let n := if j < 6 then 5 else 2
      let (ds, k) := go (j + 1) r
      match ternDigits n b.toNat with
      | some d => (d ++ ds, k)
      | none => (List.replicate n 0 ++ ds, k + 1)
  go 0 (bs.take 7)

/-- The 32 codes of a block's element bytes, and the number of invalid ternary bytes. -/
def unpackBlock (f : EFmt) (bs : List Byte) : List Nat × Nat :=
  if f = .tern then unpackTern bs else (unpackCodes f.width 32 (leNat bs), 0)

/-- An element as the arrays hold it: the integer a with value a × 2^-L, an infinity or a NaN
(R29, R38). -/
inductive Elem where
  | fin (a : Int)
  | inf (neg : Bool)
  | nan
  deriving DecidableEq, Repr

/-- R23, R24, R25, R38: the fixed-point integer of an element code. -/
def decodeElem (f : EFmt) (c : Nat) : Elem :=
  match f with
  | .int8 => .fin (sext 8 c)
  | .int4 => .fin (sext 4 c)
  | .int2 => .fin (sext 2 c)
  | .tern => .fin (if c = 1 then 1 else if c = 2 then -1 else 0)
  | _ =>
    let p := f.row
    let s := flag c (p.eb + p.mb)
    let e := (c >>> p.mb) % 2 ^ p.eb
    let m := c % 2 ^ p.mb
    if f = .e4m3 ∧ e = 15 ∧ m = 7 then .nan
    else if f = .e5m2 ∧ e = 31 then (if m = 0 then .inf s else .nan)
    else
      let a : Nat := if e = 0 then m else (m + 2 ^ p.mb) * 2 ^ (e - 1)
      .fin (if s then -(a : Int) else a)

/-- A decoded block: the exponent X (R27), or none for the NaN scale 0xFF, and its elements. -/
structure DBlk where
  x     : Int
  L     : Int
  elems : List Elem
  deriving DecidableEq, Repr

/-- R27, R29: a block of element codes under its scale code. -/
def decodeBlock (f : EFmt) (scale : Nat) (codes : List Nat) : DBlk :=
  if scale = 0xFF then ⟨0, f.L, List.replicate 32 .nan⟩
  else ⟨(scale : Int) - 127, f.L, codes.map (decodeElem f)⟩

/-- R20 without the tensor scale: the values of a decoded block. -/
def DBlk.nums (b : DBlk) : List Num :=
  b.elems.map fun e => match e with
    | .fin a => .fin ((a : Rat) * pow2 (b.x - b.L))
    | .inf s => .inf s
    | .nan => .nan

/-- R147: absent means scale not 0xFF and every element zero. -/
def absentBlock (f : EFmt) (scale : Nat) (codes : List Nat) : Bool :=
  scale != 0xFF && codes.all (fun c => decodeElem f c == .fin 0)

end Sys2Proof.Machine
end

