-- ==== Sys2Proof/Machine/Exact.lean ====
section
/-! DEFINITION. Exact accumulation (R38 to R56): the long accumulator, the exact partial, the single
rounding, the residues and the 16-byte accumulator slot (R72, R73). -/

namespace Sys2Proof.Machine

/-- The modulus of every residue check (R54). -/
def resMod : Nat := 8191

/-- R54: the residue of m × 2^e. -/
def resOf (m e : Int) : Nat :=
  ((m % (resMod : Int)).toNat * 2 ^ ((e % 13).toNat)) % resMod

/-- A long accumulator (R41, R44, R45, R56): A as a signed 640-bit integer, the block count, the
three flags and the shadow residue. -/
structure Acc where
  a    : Int  := 0
  cnt  : Nat  := 0
  nan  : Bool := false
  pinf : Bool := false
  ninf : Bool := false
  res  : Nat  := 0
  deriving DecidableEq, Repr

/-- The accumulator at the start of an accumulation. -/
def Acc.zero : Acc := {}

/-- The saturated block count of R44. -/
def cntTop : Nat := 2 ^ 40 - 1

/-- R44: an accumulator whose count has saturated is range-lost. -/
def Acc.lost (c : Acc) : Bool := c.cnt == cntTop

/-- Two's complement addition modulo 2^640 (R41). DESIGN CHOICE, log entry 12. -/
def wrap640 (i : Int) : Int := sext 640 (wrapInt 640 i)

/-- R42, R43, R44, R56: one block sum S added at bit position p. -/
def Acc.addAt (c : Acc) (s : Int) (p : Nat) : Acc :=
  { c with a := wrap640 (c.a + s * ((2 ^ p : Nat) : Int)), cnt := satAdd cntTop c.cnt 1,
           res := (c.res + resOf s ((p : Int) - 300)) % resMod }

/-- R45: raise flags. -/
def Acc.flags (c : Acc) (n p m : Bool) : Acc :=
  { c with nan := c.nan || n, pinf := c.pinf || p, ninf := c.ninf || m }

/-- A term of an exact value q with 2^-300 granularity added into an accumulator (R49, R128). -/
def Acc.addRat (c : Acc) (q : Rat) : Acc := c.addAt (q * pow2 300).num 0

/-- A decoded term added under R45 and R49. -/
def Acc.addNum (c : Acc) (v : Num) : Acc :=
  match v with
  | .fin q => c.addRat q
  | .inf s => ({ c with cnt := satAdd cntTop c.cnt 1 }).flags false (!s) s
  | .nan => ({ c with cnt := satAdd cntTop c.cnt 1 }).flags true false false

/-- R40, R45: the block sum of two element lists and the flags it raises (nan, +inf, −inf). -/
def blockSum : List Elem → List Elem → Int × Bool × Bool × Bool
  | x :: xs, y :: ys =>
    let (s, n, p, m) := blockSum xs ys
    match x, y with
    | .nan, _ | _, .nan => (s, true, p, m)
    | .fin a, .fin b => (s + a * b, n, p, m)
    | .inf g, .fin b => if b = 0 then (s, true, p, m) else
        if (decide (b < 0)) != g then (s, n, p, true) else (s, n, true, m)
    | .fin a, .inf g => if a = 0 then (s, true, p, m) else
        if (decide (a < 0)) != g then (s, n, p, true) else (s, n, true, m)
    | .inf g, .inf h => if g != h then (s, n, p, true) else (s, n, true, m)
  | _, _ => (0, false, false, false)

/-- R42: the bit position of a block sum. -/
def sumPos (x w : DBlk) : Nat := (x.x + w.x - x.L - w.L + 300).toNat

/-- R40 to R45: a block pair added; `flip` inverts bit 0 of the block sum (CORE.RES_CTL). -/
def Acc.addPair (c : Acc) (x w : DBlk) (flip : Bool) : Acc :=
  let (s, n, p, m) := blockSum x.elems w.elems
  let s := if flip then (if s % 2 = 0 then s + 1 else s - 1) else s
  (c.addAt s (sumPos x w)).flags n p m

/-! ### Exact partials (R46 to R48) -/

/-- Segment i of A (R41). -/
def segment (a : Int) (i : Nat) : Nat := (wrapInt 640 a >>> (32 * i)) % 2 ^ 32

/-- The lowest non-zero segment, 20 when A is zero. -/
def lowSeg (a : Int) : Nat := ((List.range 20).find? fun i => segment a i != 0).getD 20

/-- R47: the number of segments of the normalised form. -/
def segCount (a : Int) : Nat :=
  if a = 0 then 0 else
  let v := a / ((2 ^ (32 * lowSeg a) : Nat) : Int)
  ((List.range 20).find? fun n =>
    decide (-((2 ^ (32 * n + 31) : Nat) : Int) ≤ v) && decide (v < ((2 ^ (32 * n + 31) : Nat) : Int))).elim 20 (· + 1)

/-- The index of the normalised form's first segment; 0 for zero. -/
def baseSeg (a : Int) : Nat := if a = 0 then 0 else lowSeg a

/-- R47: the header of a partial. -/
def partialHeader (low : Int) (segs : Nat) (c : Acc) : Nat :=
  wrapInt 16 low + segs * 2 ^ 16 + (if c.nan then 2 ^ 21 else 0) + (if c.pinf then 2 ^ 22 else 0) +
    (if c.ninf then 2 ^ 23 else 0) + c.cnt * 2 ^ 24

/-- R46, R47: the normalised exact partial of an accumulator. -/
def Acc.toPartial (c : Acc) : List Byte :=
  let n := segCount c.a
  let b := baseSeg c.a
  natLE 8 (partialHeader (-300 + 32 * (b : Int)) n c) ++
    natLE (4 * n) (wrapInt 640 c.a >>> (32 * b))

/-- R100: the 96-byte cell of an exact partial. -/
def Acc.toCell (c : Acc) : List Byte :=
  let p := c.toPartial
  p ++ List.replicate (96 - p.length) 0

/-- SEG_COUNT of a partial's header. -/
def partialSegs (bs : List Byte) : Nat := bits (leNat (bs.take 8)) 20 16

/-- R48: the conditions on a received partial. -/
def partialOk (bs : List Byte) : Bool :=
  let h := leNat (bs.take 8)
  let low := sext 16 (bits h 15 0) + 300
  let n := bits h 20 16
  decide (n ≤ 20) && decide (0 ≤ low) && decide (low % 32 = 0) && decide ((low / 32).toNat + n ≤ 20)

/-- The integer A that an accepted partial carries. -/
def partialVal (bs : List Byte) : Int :=
  let h := leNat (bs.take 8)
  let low := sext 16 (bits h 15 0) + 300
  let n := bits h 20 16
  if n = 0 then 0 else
  sext (32 * n) (leNat ((bs.drop 8).take (4 * n))) * ((2 ^ low.toNat : Nat) : Int)

/-- R43 to R45, R48, R56: merge an exact partial. -/
def Acc.merge (c : Acc) (bs : List Byte) : Acc :=
  let h := leNat (bs.take 8)
  let ok := partialOk bs
  let v := if ok then partialVal bs else 0
  { a := wrap640 (c.a + v), cnt := satAdd cntTop c.cnt (bits h 63 24),
    nan := c.nan || flag h 21 || !ok, pinf := c.pinf || flag h 22, ninf := c.ninf || flag h 23,
    res := (c.res + resOf v (-300)) % resMod }

/-- R54, R56: the shadow residue disagrees with the residue of A. -/
def Acc.mismatch (c : Acc) : Bool := c.res != resOf c.a (-300)

/-- R54: the residue of A computed from its segments and sign bit. -/
def resSegs (a : Int) : Nat :=
  let s := (List.range 20).foldl (fun t i => t + segment a i * 2 ^ (6 * i % 13)) 0
  (2 ^ 12 * (((s : Int) - 8 * (if a < 0 then 1 else 0)) % (resMod : Int)).toNat) % resMod

/-! ### The single rounding (R50 to R53) -/

/-- R51 `round_ieee` of the magnitude n / d; the second component counts a saturation. -/
def roundIeee (s : Bool) (n d : Nat) (f : IFmt) (mode : Rnd) (r : Nat) : Nat × Nat :=
  let (eb, mb, bias) := f.parms
  let top : Int := (2 ^ eb : Nat) - 2 - (bias : Int)
  if n = 0 then (0, 0) else
  let u : Int := max (floorLog2 n d) (1 - (bias : Int)) - mb
  let (n2, d2) := scaled n d (-u)
  let k0 := n2 / d2
  let rem := n2 - k0 * d2
  let k := if roundUp mode k0 rem d2 r then k0 + 1 else k0
  if k = 0 then (0, 0) else
  let (k, u) := if k = 2 ^ (mb + 1) then (2 ^ mb, u + 1) else (k, u)
  let sg := if s then 2 ^ (eb + mb) else 0
  if top < u + mb then
    if mode = .rtz then (sg + (2 ^ eb - 2) * 2 ^ mb + (2 ^ mb - 1), 1)
    else (sg + (2 ^ eb - 1) * 2 ^ mb, 1)
  else if k < 2 ^ mb then (sg + k, 0)
  else (sg + (u + mb + bias).toNat * 2 ^ mb + (k - 2 ^ mb), 0)

/-- `round_ieee` of an exact rational. -/
def roundRat (q : Rat) (f : IFmt) (mode : Rnd) (r : Nat) : Nat × Nat :=
  roundIeee (decide (q < 0)) q.num.natAbs q.den f mode r

/-- The FP32 code of an exact rational in RNE, counting nothing. -/
def toFp32 (q : Rat) : Nat := (roundRat q .fp32 .rne 0).1

/-- An output code with the saturations and NaNs it counts. -/
structure Cnted where
  code : Nat
  sat  : Nat
  nan  : Nat
  deriving DecidableEq, Repr

/-- R51, R53: an output rounded to an IEEE format. -/
def roundNum (v : Num) (f : IFmt) (mode : Rnd) (r : Nat) : Cnted :=
  match v with
  | .fin q => let (c, k) := roundRat q f mode r; ⟨c, k, 0⟩
  | .inf s => ⟨f.infCode s, 1, 0⟩
  | .nan => ⟨f.nanCode, 0, 1⟩

/-- R44, R45, R53: what an accumulator holds, as A × 2^-300. -/
def Acc.num (c : Acc) : Num :=
  if c.nan || (c.pinf && c.ninf) || c.lost then .nan
  else if c.pinf then .inf false
  else if c.ninf then .inf true
  else .fin ((c.a : Rat) * pow2 (-300))

/-- A finite value times a rational; the sign of an infinity follows the factor. -/
def Num.mulRat (v : Num) (t : Rat) : Num :=
  match v with
  | .fin q => .fin (q * t)
  | .inf s => .inf (if t < 0 then !s else s)
  | .nan => .nan

/-- R52: the FP32 candidates that choose an MX output's scale. -/
def mxCandidates (vs : List Num) : List Rat :=
  vs.filterMap fun v => match v with
    | .fin q =>
      if q = 0 then none else
      match ieeeDecode .fp32 (toFp32 q) with
      | .fin c => if c = 0 then none else some |c|
      | _ => none
    | _ => none

/-- R52 `round_mx_block`. -/
def roundMxBlock (f : EFmt) (w : Draw) (vs : List Num) : Blk := encodeBlock f w (mxCandidates vs) vs

/-! ### Accumulator slots (R71 to R73) -/

/-- R73: the three conditions under which an accumulator is written in window form. -/
def Acc.fits (c : Acc) : Bool :=
  !c.nan && !c.pinf && !c.ninf && decide (c.cnt ≤ 8191) && decide (segCount c.a ≤ 3)

/-- R72, R73: the window form. -/
def Acc.toWindow (c : Acc) : Nat :=
  let b := min (baseSeg c.a) 17
  (wrapInt 640 c.a >>> (32 * b)) % 2 ^ 96 + b * 2 ^ 96 + c.cnt * 2 ^ 101 + c.res * 2 ^ 114

/-- R72: the slot of a promoted accumulator in long slot `i`. -/
def longSlot (i : Nat) : Nat := 2 ^ 127 + i

/-- R72: the accumulator a slot in window form holds. -/
def ofWindow (w : Nat) : Acc :=
  { a := wrap640 (sext 96 (bits w 95 0) * ((2 ^ (32 * bits w 100 96) : Nat) : Int)),
    cnt := bits w 113 101, res := bits w 126 114 }

end Sys2Proof.Machine
end

