-- ==== Sys2Proof/Machine/Functions.lean ====
section
/-! DEFINITION. The functions of the vector unit and of the fused chains (R77 to R80, R127, R129,
R134, R141), with the constants their rules define. -/

namespace Sys2Proof.Machine

/-- R79 `EXP_T`: the nearest integers to 2^(62 + i/64). -/
def expT : List Nat :=
  [4611686018427387904, 4661903986662671290, 4712668792719003884, 4763986391269842979, 4815862801830788490, 4868304109465667592, 4921316465500308116, 4974906088244084429] ++
  [5029079263719320435, 5083842346398635251, 5139201759950318048, 5195163997991819502, 5251735624851448219, 5308923276338361494, 5366733660520940721, 5425173558513642752] ++
  [5484249825272419512, 5543969390398799154, 5604339258952723100, 5665366512274234280, 5727058308814112983, 5789421884973557729, 5852464555953009676, 5916193716610220111] ++
  [5980616842327661685, 6045741489889385141, 6111575298367424380, 6178125990017853852, 6245401371186603363, 6313409333225136570, 6382157853416100552, 6451654995909055045] ++
  [6521908912666391106, 6592927844419550153, 6664720121635655541, 6737294165494670078, 6810658488877194079, 6884821697363019841, 6959792490240559659, 7035579661527265796] ++
  [7112192101001162095, 7189638795243608238, 7267928828693418961, 7347071384712461870, 7427075746662858866, 7507951298995917514, 7589707528352920109, 7672354024677899536] ++
  [7755900482342532474, 7840356701283281883, 7925732588150922155, 8012038157472581778, 8099283532826439817, 8187478948029213993, 8276634748336579668, 8366761391656660532] ++
  [8457869449776733335, 8549969609603290562, 8643072674415606502, 8737189565132953757, 8832331321595618838, 8928509103859867100, 9025734193507008925, 9124017994966720698]

/-- R79 `LOG_T`: the nearest integers to log2(1 + i/64) × 2^62. -/
def logT : List Nat :=
  [0, 103153330606121625, 204731739545776358, 304782595603293869, 403351162126124447, 500480719981309593, 596212681665212875, 690586697319517456] ++
  [783640753332765648, 875411264141121919, 965933157783587320, 1055239955714717668, 1143363847331251474, 1230335759627285963, 1316185422355184002, 1400941429035756762] ++
  [1484631294131014398, 1567281506665531296, 1648917580557901400, 1729564101901571123, 1809244773414275253, 1887982456257138845, 1965799209408045220, 2042716326758930046] ++
  [2118754372093087486, 2193933212086227468, 2268272047463780046, 2341789442436693607, 2414503352528620721, 2486431150898841404, 2557589653257460679, 2627995141462265872] ++
  [2697663385880076776, 2766609666589412753, 2834848793495784858, 2902395125425853134, 2969262588262028797, 3035464692174811580, 3101014548006201223, 3165924882853879154] ++
  [3230208054902495130, 3293876067545289651, 3356940582836414350, 3419412934311659540, 3481304139212842424, 3542624910148834945, 3603385666224101885, 3663596543663664096] ++
  [3723267405961586381, 3782407853578403233, 3841027233211328250, 3899134646659635119, 3956738959306241175, 4013848808235260778, 4070472610004118119, 4126618568087710828] ++
  [4182294680011091174, 4237508744186174972, 4292268366467094717, 4346580966437978175, 4400453783446152532, 4453893882393043195, 4506908159294352029, 4559503346620458693]

/-- R79 C1, C2 and C3: nearest integers to ln 2, (ln 2)²/2 and (ln 2)³/6, times 2^62. -/
def expC1 : Nat := 3196577161300663915
def expC2 : Nat := 1107849223398934356
def expC3 : Nat := 255967521894832113

/-- R79 `LK`: nearest integers to 2^62 / (j ln 2), with 0 in place 0. -/
def logK : List Nat := [0, 6653256548922161246, 3326628274461080623, 2217752182974053749,
  1663314137230540311, 1330651309784432249]

/-- The functions of VFN (R79). -/
inductive VFun where
  | exp2 | log2 | rcp | rsqrt
  deriving DecidableEq, Repr

/-- Class of an FP32 code: infinite, NaN. -/
def isNan32 (b : Nat) : Bool := ieeeDecode .fp32 b == .nan

/-- R79 `exp2_fp32`; the second component counts a saturation. -/
def exp2Fp32 (b : Nat) : Nat × Nat :=
  match ieeeDecode .fp32 b with
  | .nan => (0x7FC00000, 0)
  | .inf s => (if s then 0 else 0x7F800000, 0)
  | .fin _ =>
    let (s, m, e) := ieeeMe .fp32 b
    let (n, d) := scaled m 1 (e + 32)
    let t : Int := if s then -(((n + d - 1) / d : Nat) : Int) else ((n / d : Nat) : Int)
    let k : Int := t / (2 ^ 32 : Nat)
    if 128 ≤ k then (0x7F800000, 1)
    else if k < -151 then (0, 0)
    else
      let f := (t % ((2 ^ 32 : Nat) : Int)).toNat
      let i := f >>> 26
      let r := f % 2 ^ 26
      let p := 2 ^ 62 + ((expC1 * r) >>> 32) + ((expC2 * r * r) >>> 64) + ((expC3 * r * r * r) >>> 96)
      let q := (expT.getD i 0 * p) >>> 62
      let (num, den) := scaled q 1 (k - 62)
      roundIeee false num den .fp32 .rne 0

/-- The series of R79 `log2_fp32`: terms j to 5 added with alternating signs. -/
def logSeries (z : Nat) : List Nat → Bool → Nat → Int
  | [], _, _ => 0
  | c :: cs, plus, zj =>
    let term : Int := ((c * zj) >>> 62 : Nat)
    (if plus then term else -term) + logSeries z cs (!plus) ((zj * z) >>> 62)

/-- R79 `log2_fp32`. -/
def log2Fp32 (b : Nat) : Nat × Nat :=
  match ieeeDecode .fp32 b with
  | .nan => (0x7FC00000, 0)
  | .inf s => (if s then 0x7FC00000 else 0x7F800000, 0)
  | .fin _ =>
    let (s, m, e) := ieeeMe .fp32 b
    if m = 0 then (0xFF800000, 0)
    else if s then (0x7FC00000, 0)
    else
      let k := Nat.log2 m
      let big := m <<< (62 - k)
      let ex : Int := e + k
      let i := (big >>> 56) % 64
      let c := 2 ^ 62 + (i <<< 56)
      let z := ((big - c) <<< 62) / c
      let l : Int := ex * ((2 ^ 62 : Nat) : Int) + (logT.getD i 0 : Nat) + logSeries z (logK.drop 1) true z
      if l = 0 then (0, 0) else roundIeee (decide (l < 0)) l.natAbs (2 ^ 62) .fp32 .rne 0

/-- R79 `rcp_fp32`. -/
def rcpFp32 (b : Nat) : Nat × Nat :=
  match ieeeDecode .fp32 b with
  | .nan => (0x7FC00000, 0)
  | .inf s => (if s then 0x80000000 else 0, 0)
  | .fin _ =>
    let (s, m, e) := ieeeMe .fp32 b
    if m = 0 then ((if s then 0x80000000 else 0) + 0x7F800000, 0)
    else
      let (n, d) := scaled 1 m (-e)
      let u := floorLog2 n d - 25
      let (n2, d2) := scaled n d (-u)
      let (num, den) := scaled (n2 / d2) 1 u
      roundIeee s num den .fp32 .rne 0

/-- Bits of the integer square root found from bit i downward. -/
def isqrtBits (a : Nat) : Nat → Nat → Nat
  | 0, r => r
  | i + 1, r =>
    let r' := r + 2 ^ i
    isqrtBits a i (if r' * r' ≤ a then r' else r)

/-- R79 `isqrt`, for arguments below 2^160. -/
def isqrt (a : Nat) : Nat := isqrtBits a 80 0

/-- R79 `rsqrt_fp32`. -/
def rsqrtFp32 (b : Nat) : Nat × Nat :=
  match ieeeDecode .fp32 b with
  | .nan => (0x7FC00000, 0)
  | .inf s => (if s then 0x7FC00000 else 0, 0)
  | .fin _ =>
    let (s, m, e) := ieeeMe .fp32 b
    if m = 0 then ((if s then 0x80000000 else 0) + 0x7F800000, 0)
    else if s then (0x7FC00000, 0)
    else
      let (m, e) := if e % 2 = 1 then (m * 2, e - 1) else (m, e)
      let y := isqrt (2 ^ 128 / m)
      let u := Nat.log2 y - 25
      let (num, den) := scaled (y >>> u) 1 ((u : Int) - 64 - e / 2)
      roundIeee false num den .fp32 .rne 0

/-- A function of VFN on an FP32 code. -/
def VFun.eval : VFun → Nat → Nat × Nat
  | .exp2 => exp2Fp32
  | .log2 => log2Fp32
  | .rcp => rcpFp32
  | .rsqrt => rsqrtFp32

/-! ### IEEE arithmetic on decoded values (R78) -/

def Num.neg : Num → Num
  | .fin q => .fin (-q)
  | .inf s => .inf (!s)
  | .nan => .nan

/-- The exact sum; infinities of opposite sign are invalid. -/
def Num.add : Num → Num → Num
  | .nan, _ | _, .nan => .nan
  | .inf s, .inf t => if s = t then .inf s else .nan
  | .inf s, _ => .inf s
  | _, .inf t => .inf t
  | .fin a, .fin b => .fin (a + b)

/-- The exact product; zero times infinity is invalid. Signs are those of the operands' codes. -/
def Num.mul : Num → Num → Num
  | .nan, _ | _, .nan => .nan
  | .inf s, .inf t => .inf (s != t)
  | .inf s, .fin b => if b = 0 then .nan else .inf (s != decide (b < 0))
  | .fin a, .inf t => if a = 0 then .nan else .inf (t != decide (a < 0))
  | .fin a, .fin b => .fin (a * b)

/-- a < b, false when either is NaN. -/
def Num.lt : Num → Num → Bool
  | .nan, _ | _, .nan => false
  | .inf s, .inf t => s && !t
  | .inf s, .fin _ => s
  | .fin _, .inf t => !t
  | .fin a, .fin b => decide (a < b)

/-- R78: a result rounded to a format, without counting; infinities pass. -/
def Num.code (v : Num) (f : IFmt) (mode : Rnd) (r : Nat) : Nat × Nat :=
  match v with
  | .fin q => roundRat q f mode r
  | .inf s => (f.infCode s, 0)
  | .nan => (f.nanCode, 0)

/-- R127 `fmul` and `fadd`. -/
def fmul (x y : Nat) : Nat := (((ieeeDecode .fp32 x).mul (ieeeDecode .fp32 y)).code .fp32 .rne 0).1
def fadd (x y : Nat) : Nat := (((ieeeDecode .fp32 x).add (ieeeDecode .fp32 y)).code .fp32 .rne 0).1

/-- R127 `sigmoid32`. -/
def sigmoid32 (z : Nat) : Nat :=
  let t := fmul (z ^^^ 0x80000000) 0x3FB8AA3B
  (rcpFp32 (fadd 0x3F800000 (exp2Fp32 t).1)).1

/-- R127 `silu32`. -/
def silu32 (z : Nat) : Nat := fmul z (sigmoid32 z)

/-- The FP32 code of a value in RNE, counting nothing. -/
def Num.fp32 (v : Num) : Nat := (v.code .fp32 .rne 0).1

/-! ### Row statistics (R129) -/

/-- R129 `norm_params`: μ exactly and r as FP32; none when a flag or range loss makes them NaN. The rule states no r for an
EPS that is NaN or infinite, nor where var + eps is negative: none there. DESIGN CHOICE, log entry 6. -/
def normParams (s1 s2 : Acc) (n : Nat) (t : Nat) (eps : Nat) (rms : Bool) : Option (Rat × Option Num) :=
  match s1.num, s2.num with
  | .fin a, .fin b =>
    let t := fp32Rat t
    let m : Rat := a / (n : Rat)
    let mu : Rat := if rms then 0 else t * m
    let var := t * t * (b / (n : Rat) - (if rms then 0 else m * m))
    some (mu, match ieeeDecode .fp32 eps with
      | .fin e => if var + e < 0 then none else some (ieeeDecode .fp32 (rsqrtFp32 (toFp32 (var + e))).1)
      | _ => none)
  | _, _ => none

/-! ### The attention chain (R133 to R142) -/

/-- R134 `thr`: the exact ceilings of log2 of the midpoints of 1.0 to 2.0, 24 fraction bits. -/
def pThr : Nat → List Nat
  | 1 => [5401058, 13545168]
  | 2 => [2850869, 7707984, 11751429, 15215100]
  | 3 => [1467383, 4159534, 6581995, 8783913, 10802115, 12664911, 14394533, 16008758]
  | _ => []

/-- R134: the integer part and the rounded 2^frac of a score. -/
def scoreIQ (mb : Nat) (b : Nat) : Int × Nat :=
  let (s, m, e) := ieeeMe .fp32 b
  let (n, d) := scaled m 1 (e + 24)
  let f24 : Int := if s then -(((n + d - 1) / d : Nat) : Int) else ((n / d : Nat) : Int)
  let f := (f24 % ((2 ^ 24 : Nat) : Int)).toNat
  (f24 / (2 ^ 24 : Nat), 2 ^ mb + (pThr mb).countP (fun t => t ≤ f))

/-- The largest of a non-empty list of integers. -/
def maxInt : List Int → Int
  | [] => 0
  | [x] => x
  | x :: xs => max x (maxInt xs)

/-- R134 `p_codes`: I_b and the 32 codes of a live block; a masked score is `none`. -/
def pCodes (f : EFmt) (scores : List (Option Nat)) : Int × List Nat :=
  let p := f.row
  let s := p.emax - 1
  let live := scores.map (·.map (scoreIQ p.mb))
  let ib := maxInt (live.filterMap (·.map (·.1)))
  (ib, live.map fun v => match v with
    | none => 0
    | some (i, q) =>
      let (n, d) := scaled q 1 (i - ib + s - p.mb)
      (encode f false n d .rne 0).1)

/-- R141 `trunc96`. -/
def trunc96 (a : Int) : Int :=
  let k := (Nat.log2 a.natAbs + 1) - 96
  let q : Int := ((a.natAbs >>> k) <<< k : Nat)
  if a < 0 then -q else q

/-- R141 `chain_value` as an exact rational. -/
def chainValue (num den : Int) (tv tq : Nat) : Rat :=
  ((trunc96 num : Int) : Rat) * fp32Rat tv / (((trunc96 den : Int) : Rat) * fp32Rat tq)

end Sys2Proof.Machine
end

