-- ==== Sys2Proof/Machine/Regs.lean ====
section
/-! DEFINITION. The register map of the control space (R3 to R9, R364, R365): one definition per field
that the spec's register tables give, with its page group, offset, lowest bit, width, access and reset
value, and the catalogue of them all. The tables of the chapters are followed field by field. -/

namespace Sys2Proof.Machine

/-- The access codes of R7. -/
inductive Access where
  | ro | rw | w1c | wo | rwl | rwx
  deriving DecidableEq, Repr

/-- One register field: page group (R364), byte offset in the page, lowest bit, width, access, reset. -/
structure Fld where
  page  : Nat
  off   : Nat
  lo    : Nat
  width : Nat
  acc   : Access
  reset : Nat
  deriving DecidableEq, Repr

/-- The field of an indexed register, `n` times `stride` bytes on. -/
def Fld.at (f : Fld) (stride n : Nat) : Fld := { f with off := f.off + stride * n }

/-- The key under which the field of a page instance is held. -/
def Fld.key (f : Fld) (inst : Nat) : Nat := ((f.page * 1024 + inst) * 4096 + f.off) * 64 + f.lo

/-- A row of the catalogue: a field, the stride of an indexed register and its count. -/
structure FldRow where
  fld    : Fld
  stride : Nat
  count  : Nat
  deriving DecidableEq, Repr

/-! CORE.ACC_STATUS, offset 0x180: R61 (03_exact_accumulation.md). -/
def R.CORE.ACC_STATUS.PASS_MISMATCH : Fld := ⟨2, 0x180, 0, 16, .ro, 0⟩
def R.CORE.ACC_STATUS.ACC_MISMATCH : Fld := ⟨2, 0x180, 16, 8, .ro, 0⟩
def R.CORE.ACC_STATUS.RANGE_LOST : Fld := ⟨2, 0x180, 24, 8, .ro, 0⟩

/-! CORE.RES_CTL, offset 0x580: R61 (03_exact_accumulation.md). -/
def R.CORE.RES_CTL.PASS_CHK_OFF : Fld := ⟨2, 0x580, 0, 1, .rwx, 0⟩
def R.CORE.RES_CTL.ACC_CHK_OFF : Fld := ⟨2, 0x580, 1, 1, .rwx, 0⟩
def R.CORE.RES_CTL.INJ_ARRAY : Fld := ⟨2, 0x580, 2, 2, .rwx, 0⟩
def R.CORE.RES_CTL.INJ_ARM : Fld := ⟨2, 0x580, 4, 1, .rwx, 0⟩

/-! CORE.LONG_PEAK01, offset 0x1A4: R81 (04_matrix_core.md). -/
def R.CORE.LONG_PEAK01.A0_PEAK : Fld := ⟨2, 0x1A4, 0, 10, .ro, 0⟩
def R.CORE.LONG_PEAK01.A1_PEAK : Fld := ⟨2, 0x1A4, 16, 10, .ro, 0⟩

/-! CORE.LONG_PEAK23, offset 0x1A8: R81 (04_matrix_core.md). -/
def R.CORE.LONG_PEAK23.A2_PEAK : Fld := ⟨2, 0x1A8, 0, 10, .ro, 0⟩
def R.CORE.LONG_PEAK23.A3_PEAK : Fld := ⟨2, 0x1A8, 16, 10, .ro, 0⟩

/-! CORE.ACC_EVENTS, offset 0x1AC: R81 (04_matrix_core.md). -/
def R.CORE.ACC_EVENTS.PROMOTIONS : Fld := ⟨2, 0x1AC, 0, 16, .ro, 0⟩
def R.CORE.ACC_EVENTS.CAP_FAULTS : Fld := ⟨2, 0x1AC, 16, 8, .ro, 0⟩

/-! CORE.ISSUE_CYC, offset 0x1B0: R81 (04_matrix_core.md). -/
def R.CORE.ISSUE_CYC.CYCLES : Fld := ⟨2, 0x1B0, 0, 64, .ro, 0⟩

/-! CORE.LOAD_WAIT_CYC, offset 0x1B8: R81 (04_matrix_core.md). -/
def R.CORE.LOAD_WAIT_CYC.CYCLES : Fld := ⟨2, 0x1B8, 0, 64, .ro, 0⟩

/-! CORE.SEQ_STATUS, offset 0x1C0: R118 (05_tile_instructions.md). -/
def R.CORE.SEQ_STATUS.PC : Fld := ⟨2, 0x1C0, 0, 14, .ro, 0⟩
def R.CORE.SEQ_STATUS.STATE : Fld := ⟨2, 0x1C0, 16, 3, .ro, 0⟩

/-! CORE.SEQ_FAULT, offset 0x1C4: R118 (05_tile_instructions.md). -/
def R.CORE.SEQ_FAULT.FAULT_PC : Fld := ⟨2, 0x1C4, 0, 14, .ro, 0⟩
def R.CORE.SEQ_FAULT.KIND : Fld := ⟨2, 0x1C4, 16, 4, .ro, 0⟩
def R.CORE.SEQ_FAULT.OPCODE : Fld := ⟨2, 0x1C4, 20, 8, .ro, 0⟩

/-! CORE.SEQ_CTL, offset 0x1C8: R118 (05_tile_instructions.md). -/
def R.CORE.SEQ_CTL.HAZ_CHK : Fld := ⟨2, 0x1C8, 0, 1, .rw, 0⟩
def R.CORE.SEQ_CTL.WAIT_LIMIT : Fld := ⟨2, 0x1C8, 1, 5, .rw, 24⟩

/-! CORE.CHK_EVENTS, offset 0x1CC: R118 (05_tile_instructions.md). -/
def R.CORE.CHK_EVENTS.CHK_FAIL : Fld := ⟨2, 0x1CC, 0, 16, .ro, 0⟩
def R.CORE.CHK_EVENTS.ORDER_DEP : Fld := ⟨2, 0x1CC, 16, 16, .ro, 0⟩

/-! CORE.INSTR_CNT, offset 0x1D0: R118 (05_tile_instructions.md). -/
def R.CORE.INSTR_CNT.COUNT : Fld := ⟨2, 0x1D0, 0, 64, .ro, 0⟩

/-! CORE.CHAIN_EVENTS, offset 0x1E0: R146 (06_fused_chains.md). -/
def R.CORE.CHAIN_EVENTS.RUN_DROPS : Fld := ⟨2, 0x1E0, 0, 16, .ro, 0⟩
def R.CORE.CHAIN_EVENTS.BOUND_DROPS : Fld := ⟨2, 0x1E0, 16, 16, .ro, 0⟩

/-! CORE.CHAIN_ROWS, offset 0x1E4: R146 (06_fused_chains.md). -/
def R.CORE.CHAIN_ROWS.ZERO_ROWS : Fld := ⟨2, 0x1E4, 0, 16, .ro, 0⟩
def R.CORE.CHAIN_ROWS.OVERRUNS : Fld := ⟨2, 0x1E4, 16, 16, .ro, 0⟩

/-! CORE.SPE_CTL, offset 0x1F0: R171 (07_sparsity_forecast.md). -/
def R.CORE.SPE_CTL.CMD_LA : Fld := ⟨2, 0x1F0, 0, 24, .rw, 0⟩
def R.CORE.SPE_CTL.NEXT : Fld := ⟨2, 0x1F0, 24, 4, .ro, 0⟩
def R.CORE.SPE_CTL.BUSY : Fld := ⟨2, 0x1F0, 28, 1, .ro, 0⟩

/-! CORE.SPARSE_DROPS, offset 0x1F4: R171 (07_sparsity_forecast.md). -/
def R.CORE.SPARSE_DROPS.OUT_OF_RANGE : Fld := ⟨2, 0x1F4, 0, 8, .ro, 0⟩
def R.CORE.SPARSE_DROPS.DUPLICATE : Fld := ⟨2, 0x1F4, 8, 8, .ro, 0⟩
def R.CORE.SPARSE_DROPS.EXCESS : Fld := ⟨2, 0x1F4, 16, 8, .ro, 0⟩
def R.CORE.SPARSE_DROPS.HDR_ERR : Fld := ⟨2, 0x1F4, 24, 8, .ro, 0⟩

/-! CORE.MATCH_STATS, offset 0x1F8: R171 (07_sparsity_forecast.md). -/
def R.CORE.MATCH_STATS.MISS_KBLK : Fld := ⟨2, 0x1F8, 0, 32, .ro, 0⟩
def R.CORE.MATCH_STATS.SKIP_PASSES : Fld := ⟨2, 0x1F8, 32, 32, .ro, 0⟩

/-! CORE.FORECAST_STATS, offset 0x200: R171 (07_sparsity_forecast.md). -/
def R.CORE.FORECAST_STATS.SKIPPED : Fld := ⟨2, 0x200, 0, 32, .ro, 0⟩
def R.CORE.FORECAST_STATS.MAKEUP : Fld := ⟨2, 0x200, 32, 16, .ro, 0⟩
def R.CORE.FORECAST_STATS.PROBABLE_MISS : Fld := ⟨2, 0x200, 48, 16, .ro, 0⟩

/-! TLY.TW_CTLn, offset 0x300 + 8 × n: R191 (08_precision_safeguards.md). -/
def R.TLY.TW_CTLn.EN : Fld := ⟨10, 0x300, 0, 1, .rw, 0⟩
def R.TLY.TW_CTLn.HOLD : Fld := ⟨10, 0x300, 1, 1, .rw, 0⟩
def R.TLY.TW_CTLn.KIND : Fld := ⟨10, 0x300, 2, 4, .rw, 0⟩
def R.TLY.TW_CTLn.ALL_SETS : Fld := ⟨10, 0x300, 6, 1, .rw, 0⟩
def R.TLY.TW_CTLn.CSET : Fld := ⟨10, 0x300, 8, 8, .rw, 0⟩

/-! TLY.TW_LIMITn, offset 0x304 + 8 × n: R191 (08_precision_safeguards.md). -/
def R.TLY.TW_LIMITn.LIMIT : Fld := ⟨10, 0x304, 0, 32, .rw, 0⟩

/-! TLY.TW_FIRED, offset 0x380: R191 (08_precision_safeguards.md). -/
def R.TLY.TW_FIRED.FIRED : Fld := ⟨10, 0x380, 0, 16, .w1c, 0⟩

/-! TLY.TW_FIRST, offset 0x384: R191 (08_precision_safeguards.md). -/
def R.TLY.TW_FIRST.INDEX : Fld := ⟨10, 0x384, 0, 4, .ro, 0⟩
def R.TLY.TW_FIRST.VALID : Fld := ⟨10, 0x384, 4, 1, .ro, 0⟩
def R.TLY.TW_FIRST.CSET : Fld := ⟨10, 0x384, 5, 8, .ro, 0⟩

/-! TLY.TW_FIRST_STEP, offset 0x388: R191 (08_precision_safeguards.md). -/
def R.TLY.TW_FIRST_STEP.STEP : Fld := ⟨10, 0x388, 0, 32, .ro, 0⟩

/-! DSL.ECC_STATUS, offset 0x040: R218 (09_memory.md). -/
def R.DSL.ECC_STATUS.CORRECTED : Fld := ⟨3, 0x040, 0, 16, .ro, 0⟩
def R.DSL.ECC_STATUS.UNCORRECTED : Fld := ⟨3, 0x040, 16, 8, .ro, 0⟩
def R.DSL.ECC_STATUS.POISON_READS : Fld := ⟨3, 0x040, 24, 8, .ro, 0⟩

/-! DSL.SCRUB, offset 0x044: R218 (09_memory.md). -/
def R.DSL.SCRUB.EN : Fld := ⟨3, 0x044, 0, 1, .rw, 1⟩
def R.DSL.SCRUB.INTERVAL : Fld := ⟨3, 0x044, 8, 8, .rw, 64⟩
def R.DSL.SCRUB.PASSES : Fld := ⟨3, 0x044, 16, 16, .ro, 0⟩

/-! DSL.SPARE_LINES, offset 0x048: R218 (09_memory.md). -/
def R.DSL.SPARE_LINES.USED : Fld := ⟨3, 0x048, 0, 11, .ro, 0⟩

/-! HBM.ECC_STATUS, offset 0x040: R218 (09_memory.md). -/
def R.HBM.ECC_STATUS.CORRECTED : Fld := ⟨4, 0x040, 0, 16, .ro, 0⟩
def R.HBM.ECC_STATUS.UNCORRECTED : Fld := ⟨4, 0x040, 16, 8, .ro, 0⟩
def R.HBM.ECC_STATUS.ODECC_REPORTS : Fld := ⟨4, 0x040, 24, 8, .ro, 0⟩

/-! HBM.RETIRE, offset 0x044: R218 (09_memory.md). -/
def R.HBM.RETIRE.RETIRED : Fld := ⟨4, 0x044, 0, 13, .ro, 0⟩
def R.HBM.RETIRE.FULL : Fld := ⟨4, 0x044, 13, 1, .ro, 0⟩
def R.HBM.RETIRE.SPPR_ROWS : Fld := ⟨4, 0x044, 16, 8, .ro, 0⟩

/-! HBM.RETRAIN_CTL, offset 0x048: R218 (09_memory.md). -/
def R.HBM.RETRAIN_CTL.CHANNEL : Fld := ⟨4, 0x048, 0, 5, .rw, 0⟩
def R.HBM.RETRAIN_CTL.START : Fld := ⟨4, 0x048, 5, 1, .wo, 0⟩
def R.HBM.RETRAIN_CTL.BUSY : Fld := ⟨4, 0x048, 6, 1, .ro, 0⟩
def R.HBM.RETRAIN_CTL.RETRAINS : Fld := ⟨4, 0x048, 16, 16, .ro, 0⟩

/-! PCH.PORT_STATUS0, offset 0x040: R218 (09_memory.md). -/
def R.PCH.PORT_STATUS0.WIDTH : Fld := ⟨7, 0x040, 0, 3, .ro, 0⟩
def R.PCH.PORT_STATUS0.RATE : Fld := ⟨7, 0x040, 3, 3, .ro, 0⟩
def R.PCH.PORT_STATUS0.CXL : Fld := ⟨7, 0x040, 6, 1, .ro, 0⟩
def R.PCH.PORT_STATUS0.T2 : Fld := ⟨7, 0x040, 7, 1, .ro, 0⟩
def R.PCH.PORT_STATUS0.CAP_GIB : Fld := ⟨7, 0x040, 8, 12, .ro, 0⟩

/-! PCH.PORT_STATUS1, offset 0x044: R218 (09_memory.md). -/
def R.PCH.PORT_STATUS1.WIDTH : Fld := ⟨7, 0x044, 0, 3, .ro, 0⟩
def R.PCH.PORT_STATUS1.RATE : Fld := ⟨7, 0x044, 3, 3, .ro, 0⟩
def R.PCH.PORT_STATUS1.CXL : Fld := ⟨7, 0x044, 6, 1, .ro, 0⟩
def R.PCH.PORT_STATUS1.T2 : Fld := ⟨7, 0x044, 7, 1, .ro, 0⟩
def R.PCH.PORT_STATUS1.CAP_GIB : Fld := ⟨7, 0x044, 8, 12, .ro, 0⟩

/-! PCH.T2_CTL, offset 0x048: R218 (09_memory.md). -/
def R.PCH.T2_CTL.WINDOW_GIB : Fld := ⟨7, 0x048, 0, 12, .ro, 0⟩
def R.PCH.T2_CTL.WAYS : Fld := ⟨7, 0x048, 12, 2, .ro, 0⟩

/-! PCH.T2_EVENTS, offset 0x04C: R218 (09_memory.md). -/
def R.PCH.T2_EVENTS.POISON_IN : Fld := ⟨7, 0x04C, 0, 12, .ro, 0⟩
def R.PCH.T2_EVENTS.LINK_DOWN_DROPS : Fld := ⟨7, 0x04C, 12, 12, .ro, 0⟩
def R.PCH.T2_EVENTS.INBOUND_REFUSED : Fld := ⟨7, 0x04C, 24, 8, .ro, 0⟩

/-! CL.FENCE_LOn, offset 0x100 + 8 × n: R218 (09_memory.md). -/
def R.CL.FENCE_LOn.FIRST : Fld := ⟨1, 0x100, 0, 24, .rw, 0⟩
def R.CL.FENCE_LOn.SPACE : Fld := ⟨1, 0x100, 24, 2, .rw, 0⟩
def R.CL.FENCE_LOn.READ_ONLY : Fld := ⟨1, 0x100, 30, 1, .rw, 0⟩
def R.CL.FENCE_LOn.VALID : Fld := ⟨1, 0x100, 31, 1, .rw, 0⟩

/-! CL.FENCE_HIn, offset 0x104 + 8 × n: R218 (09_memory.md). -/
def R.CL.FENCE_HIn.LAST : Fld := ⟨1, 0x104, 0, 24, .rw, 0⟩

/-! CL.FENCE_EVENTS, offset 0x140: R218 (09_memory.md). -/
def R.CL.FENCE_EVENTS.REFUSED_READ : Fld := ⟨1, 0x140, 0, 16, .ro, 0⟩
def R.CL.FENCE_EVENTS.REFUSED_WRITE : Fld := ⟨1, 0x140, 16, 16, .ro, 0⟩

/-! CL.JOB, offset 0x040: R238 (10_placement_admission.md). -/
def R.CL.JOB.ACTIVE : Fld := ⟨1, 0x040, 0, 1, .rw, 0⟩
def R.CL.JOB.JOB_ID : Fld := ⟨1, 0x040, 8, 8, .rw, 0⟩
def R.CL.JOB.LOGICAL : Fld := ⟨1, 0x040, 16, 5, .rw, 0⟩

/-! CL.LAUNCH_SEQ, offset 0x044: R238 (10_placement_admission.md). -/
def R.CL.LAUNCH_SEQ.SEQ : Fld := ⟨1, 0x044, 0, 32, .ro, 0⟩

/-! CL.TSIG, offset 0x048: R238 (10_placement_admission.md). -/
def R.CL.TSIG.TOKEN : Fld := ⟨1, 0x048, 0, 8, .wo, 0⟩
def R.CL.TSIG.SITE : Fld := ⟨1, 0x048, 8, 5, .wo, 0⟩
def R.CL.TSIG.KIND : Fld := ⟨1, 0x048, 13, 1, .wo, 0⟩
def R.CL.TSIG.MOVER : Fld := ⟨1, 0x048, 16, 3, .wo, 0⟩
def R.CL.TSIG.LIST : Fld := ⟨1, 0x048, 19, 4, .wo, 0⟩

/-! CL.LAUNCH_TIME, offset 0x050: R238 (10_placement_admission.md). -/
def R.CL.LAUNCH_TIME.T_L : Fld := ⟨1, 0x050, 0, 64, .ro, 0⟩

/-! CL.TOKEN_DROPS, offset 0x058: R238 (10_placement_admission.md). -/
def R.CL.TOKEN_DROPS.DROPS : Fld := ⟨1, 0x058, 0, 16, .ro, 0⟩

/-! CL.MOVER_LISTn, offset 0x060 + 4 × n: R238 (10_placement_admission.md). -/
def R.CL.MOVER_LISTn.VALID : Fld := ⟨1, 0x060, 0, 1, .rw, 0⟩
def R.CL.MOVER_LISTn.MOVER : Fld := ⟨1, 0x060, 1, 3, .rw, 0⟩
def R.CL.MOVER_LISTn.LIST : Fld := ⟨1, 0x060, 4, 4, .rw, 0⟩
def R.CL.MOVER_LISTn.BASE : Fld := ⟨1, 0x060, 8, 24, .rw, 0⟩

/-! CL.ROUTE_LOn, offset 0x200 + 8 × n: R238 (10_placement_admission.md). -/
def R.CL.ROUTE_LOn.VALID : Fld := ⟨1, 0x200, 0, 1, .rw, 0⟩
def R.CL.ROUTE_LOn.DIR : Fld := ⟨1, 0x200, 1, 1, .rw, 0⟩
def R.CL.ROUTE_LOn.SITE : Fld := ⟨1, 0x200, 2, 5, .rw, 0⟩
def R.CL.ROUTE_LOn.PEER_CLUSTER : Fld := ⟨1, 0x200, 7, 5, .rw, 0⟩
def R.CL.ROUTE_LOn.PEER_SITE : Fld := ⟨1, 0x200, 12, 5, .rw, 0⟩
def R.CL.ROUTE_LOn.PEER_ROUTE : Fld := ⟨1, 0x200, 17, 6, .rw, 0⟩
def R.CL.ROUTE_LOn.SHARE_m1 : Fld := ⟨1, 0x200, 23, 4, .rw, 0⟩

/-! CL.ROUTE_HIn, offset 0x204 + 8 × n: R238 (10_placement_admission.md). -/
def R.CL.ROUTE_HIn.BUF_m1 : Fld := ⟨1, 0x204, 0, 5, .rw, 0⟩
def R.CL.ROUTE_HIn.FILL : Fld := ⟨1, 0x204, 16, 16, .ro, 0⟩

/-! LCH.FABRIC_ID, offset 0x040: R270 (11_lenuf_fabric.md). -/
def R.LCH.FABRIC_ID.ID : Fld := ⟨5, 0x040, 0, 12, .rw, 0⟩
def R.LCH.FABRIC_ID.JOINED : Fld := ⟨5, 0x040, 12, 1, .rw, 0⟩
def R.LCH.FABRIC_ID.PAIR : Fld := ⟨5, 0x040, 13, 1, .rw, 0⟩

/-! LCH.REFUSED, offset 0x044: R270 (11_lenuf_fabric.md). -/
def R.LCH.REFUSED.CLOSED : Fld := ⟨5, 0x044, 0, 8, .ro, 0⟩
def R.LCH.REFUSED.STALE : Fld := ⟨5, 0x044, 8, 8, .ro, 0⟩
def R.LCH.REFUSED.BOUNDS : Fld := ⟨5, 0x044, 16, 8, .ro, 0⟩
def R.LCH.REFUSED.NO_BUFFER : Fld := ⟨5, 0x044, 24, 8, .ro, 0⟩

/-! LCH.LOCAL_ANSWERS, offset 0x048: R270 (11_lenuf_fabric.md). -/
def R.LCH.LOCAL_ANSWERS.TIMEOUT : Fld := ⟨5, 0x048, 0, 8, .ro, 0⟩
def R.LCH.LOCAL_ANSWERS.SUSPECT : Fld := ⟨5, 0x048, 8, 8, .ro, 0⟩
def R.LCH.LOCAL_ANSWERS.LINK_LOST : Fld := ⟨5, 0x048, 16, 8, .ro, 0⟩
def R.LCH.LOCAL_ANSWERS.NO_ROUTE : Fld := ⟨5, 0x048, 24, 8, .ro, 0⟩

/-! LCH.LIFETIME_DROPS, offset 0x04C: R270 (11_lenuf_fabric.md). -/
def R.LCH.LIFETIME_DROPS.DROPS : Fld := ⟨5, 0x04C, 0, 32, .ro, 0⟩

/-! LCH.PARTNER_SEL, offset 0x050: R270 (11_lenuf_fabric.md). -/
def R.LCH.PARTNER_SEL.ID : Fld := ⟨5, 0x050, 0, 12, .rw, 0⟩

/-! LCH.PARTNER_STATE, offset 0x054: R270 (11_lenuf_fabric.md). -/
def R.LCH.PARTNER_STATE.STATE : Fld := ⟨5, 0x054, 0, 2, .ro, 0⟩
def R.LCH.PARTNER_STATE.PORTS : Fld := ⟨5, 0x054, 2, 6, .ro, 0⟩
def R.LCH.PARTNER_STATE.UNANSWERED : Fld := ⟨5, 0x054, 8, 16, .ro, 0⟩

/-! LCH.PARTNER_NOTICES, offset 0x058: R270 (11_lenuf_fabric.md). -/
def R.LCH.PARTNER_NOTICES.NOTICES : Fld := ⟨5, 0x058, 0, 11, .ro, 0⟩

/-! LCH.LANDING_BUF, offset 0x05C: R270 (11_lenuf_fabric.md). -/
def R.LCH.LANDING_BUF.IN_USE : Fld := ⟨5, 0x05C, 0, 10, .ro, 0⟩
def R.LCH.LANDING_BUF.PEAK : Fld := ⟨5, 0x05C, 16, 10, .ro, 0⟩

/-! LPT.TRAIN_STATUS, offset 0x040: R270 (11_lenuf_fabric.md). -/
def R.LPT.TRAIN_STATUS.WIDTH : Fld := ⟨6, 0x040, 0, 2, .ro, 0⟩
def R.LPT.TRAIN_STATUS.LANES : Fld := ⟨6, 0x040, 2, 9, .ro, 0⟩
def R.LPT.TRAIN_STATUS.SPARE_USED : Fld := ⟨6, 0x040, 11, 1, .ro, 0⟩
def R.LPT.TRAIN_STATUS.FAR_SWITCH : Fld := ⟨6, 0x040, 12, 1, .ro, 0⟩
def R.LPT.TRAIN_STATUS.FAR_ID : Fld := ⟨6, 0x040, 13, 12, .ro, 0⟩

/-! LPT.LINK_EVENTS, offset 0x044: R270 (11_lenuf_fabric.md). -/
def R.LPT.LINK_EVENTS.REPLAYS : Fld := ⟨6, 0x044, 0, 16, .ro, 0⟩
def R.LPT.LINK_EVENTS.RETRAINS : Fld := ⟨6, 0x044, 16, 8, .ro, 0⟩
def R.LPT.LINK_EVENTS.LANE_FAILS : Fld := ⟨6, 0x044, 24, 8, .ro, 0⟩

/-! LPT.FEC_CORR, offset 0x048: R270 (11_lenuf_fabric.md). -/
def R.LPT.FEC_CORR.CORRECTED : Fld := ⟨6, 0x048, 0, 32, .ro, 0⟩

/-! LPT.FEC_UNCORR, offset 0x04C: R270 (11_lenuf_fabric.md). -/
def R.LPT.FEC_UNCORR.UNCORRECTED : Fld := ⟨6, 0x04C, 0, 32, .ro, 0⟩

/-! LPT.CLASS_WEIGHT, offset 0x050: R270 (11_lenuf_fabric.md). -/
def R.LPT.CLASS_WEIGHT.OPERAND_W : Fld := ⟨6, 0x050, 0, 5, .rw, 8⟩
def R.LPT.CLASS_WEIGHT.PARTIAL_W : Fld := ⟨6, 0x050, 5, 5, .rw, 6⟩
def R.LPT.CLASS_WEIGHT.BULK_W : Fld := ⟨6, 0x050, 10, 5, .rw, 2⟩

/-! LPT.RETRAIN_CTL, offset 0x054: R270 (11_lenuf_fabric.md). -/
def R.LPT.RETRAIN_CTL.START : Fld := ⟨6, 0x054, 0, 1, .wo, 0⟩
def R.LPT.RETRAIN_CTL.BUSY : Fld := ⟨6, 0x054, 1, 1, .ro, 0⟩
def R.LPT.RETRAIN_CTL.LANE_LIMIT : Fld := ⟨6, 0x054, 16, 16, .rw, 1024⟩

/-! LPT.EGRESS_CAP, offset 0x058: R270 (11_lenuf_fabric.md). -/
def R.LPT.EGRESS_CAP.CAP : Fld := ⟨6, 0x058, 0, 8, .rwl, 200⟩

/-! LWT.SEL, offset 0x040: R270 (11_lenuf_fabric.md). -/
def R.LWT.SEL.WINDOW : Fld := ⟨12, 0x040, 0, 10, .rw, 0⟩

/-! LWT.WIN_BASE, offset 0x048: R270 (11_lenuf_fabric.md). -/
def R.LWT.WIN_BASE.BASE : Fld := ⟨12, 0x048, 9, 43, .rw, 0⟩

/-! LWT.WIN_SIZE, offset 0x050: R270 (11_lenuf_fabric.md). -/
def R.LWT.WIN_SIZE.SIZE_m1 : Fld := ⟨12, 0x050, 0, 24, .rw, 0⟩

/-! LWT.WIN_CTL, offset 0x054: R270 (11_lenuf_fabric.md). -/
def R.LWT.WIN_CTL.STATE : Fld := ⟨12, 0x054, 0, 2, .ro, 0⟩
def R.LWT.WIN_CTL.GEN : Fld := ⟨12, 0x054, 2, 8, .ro, 0⟩
def R.LWT.WIN_CTL.JOB_TAG : Fld := ⟨12, 0x054, 16, 16, .rw, 0⟩

/-! LWT.WIN_NOTIFY, offset 0x058: R270 (11_lenuf_fabric.md). -/
def R.LWT.WIN_NOTIFY.VALID : Fld := ⟨12, 0x058, 0, 1, .rw, 0⟩
def R.LWT.WIN_NOTIFY.CLUSTER : Fld := ⟨12, 0x058, 1, 5, .rw, 0⟩
def R.LWT.WIN_NOTIFY.SITE : Fld := ⟨12, 0x058, 6, 5, .rw, 0⟩
def R.LWT.WIN_NOTIFY.TOKEN : Fld := ⟨12, 0x058, 11, 8, .rw, 0⟩

/-! LWT.CMD, offset 0x05C: R270 (11_lenuf_fabric.md). -/
def R.LWT.CMD.OPEN : Fld := ⟨12, 0x05C, 0, 1, .wo, 0⟩
def R.LWT.CMD.CLOSE : Fld := ⟨12, 0x05C, 1, 1, .wo, 0⟩
def R.LWT.CMD.BUSY : Fld := ⟨12, 0x05C, 2, 1, .ro, 0⟩
def R.LWT.CMD.RESULT : Fld := ⟨12, 0x05C, 3, 3, .ro, 0⟩

/-! LWT.DROPS, offset 0x060: R270 (11_lenuf_fabric.md). -/
def R.LWT.DROPS.CLOSED : Fld := ⟨12, 0x060, 0, 8, .ro, 0⟩
def R.LWT.DROPS.STALE : Fld := ⟨12, 0x060, 8, 8, .ro, 0⟩
def R.LWT.DROPS.BOUNDS : Fld := ⟨12, 0x060, 16, 8, .ro, 0⟩
def R.LWT.DROPS.NOT_PERMITTED : Fld := ⟨12, 0x060, 24, 8, .ro, 0⟩

/-! LWT.DROPS2, offset 0x064: R270 (11_lenuf_fabric.md). -/
def R.LWT.DROPS2.MALFORMED : Fld := ⟨12, 0x064, 0, 16, .ro, 0⟩
def R.LWT.DROPS2.MISROUTE : Fld := ⟨12, 0x064, 16, 16, .ro, 0⟩

/-! LWT.CL_TAGn, offset 0x100 + 4 × n: R270 (11_lenuf_fabric.md). -/
def R.LWT.CL_TAGn.JOB_TAG : Fld := ⟨12, 0x100, 0, 16, .rw, 0⟩

/-! MCG.SEL, offset 0x040: R270 (11_lenuf_fabric.md). -/
def R.MCG.SEL.GROUP : Fld := ⟨13, 0x040, 0, 8, .rw, 0⟩
def R.MCG.SEL.ENTRY : Fld := ⟨13, 0x040, 8, 6, .rw, 0⟩

/-! MCG.GROUP_CTL, offset 0x044: R270 (11_lenuf_fabric.md). -/
def R.MCG.GROUP_CTL.VALID : Fld := ⟨13, 0x044, 0, 1, .rw, 0⟩
def R.MCG.GROUP_CTL.COUNT_m1 : Fld := ⟨13, 0x044, 1, 6, .rw, 0⟩
def R.MCG.GROUP_CTL.REFUSED : Fld := ⟨13, 0x044, 7, 1, .ro, 0⟩

/-! MCG.ENTRY, offset 0x048: R270 (11_lenuf_fabric.md). -/
def R.MCG.ENTRY.DEV : Fld := ⟨13, 0x048, 0, 12, .rw, 0⟩
def R.MCG.ENTRY.WINDOW : Fld := ⟨13, 0x048, 12, 10, .rw, 0⟩
def R.MCG.ENTRY.GEN : Fld := ⟨13, 0x048, 22, 8, .rw, 0⟩
def R.MCG.ENTRY.VALID : Fld := ⟨13, 0x048, 30, 1, .rw, 0⟩

/-! MCG.RETRIES, offset 0x04C: R270 (11_lenuf_fabric.md). -/
def R.MCG.RETRIES.RETRIES : Fld := ⟨13, 0x04C, 0, 32, .ro, 0⟩

/-! TLY.MARK_CTL, offset 0x040: R292 (12_tally_replay.md). -/
def R.TLY.MARK_CTL.SOURCE : Fld := ⟨10, 0x040, 0, 2, .rw, 0⟩
def R.TLY.MARK_CTL.JOB_ID : Fld := ⟨10, 0x040, 2, 8, .rw, 0⟩
def R.TLY.MARK_CTL.CLUSTER : Fld := ⟨10, 0x040, 10, 5, .rw, 0⟩
def R.TLY.MARK_CTL.SITE : Fld := ⟨10, 0x040, 15, 5, .rw, 0⟩

/-! TLY.MARK_CMD, offset 0x044: R292 (12_tally_replay.md). -/
def R.TLY.MARK_CMD.MARK : Fld := ⟨10, 0x044, 0, 1, .wo, 0⟩
def R.TLY.MARK_CMD.HOLD_REQ : Fld := ⟨10, 0x044, 1, 1, .wo, 0⟩
def R.TLY.MARK_CMD.RELEASE : Fld := ⟨10, 0x044, 2, 1, .wo, 0⟩
def R.TLY.MARK_CMD.BUSY : Fld := ⟨10, 0x044, 3, 1, .ro, 0⟩

/-! TLY.STEP, offset 0x048: R292 (12_tally_replay.md). -/
def R.TLY.STEP.STEP : Fld := ⟨10, 0x048, 0, 32, .rw, 0⟩

/-! TLY.WRAP, offset 0x04C: R292 (12_tally_replay.md). -/
def R.TLY.WRAP.WRAP : Fld := ⟨10, 0x04C, 0, 16, .rw, 0⟩

/-! TLY.HOLD, offset 0x050: R292 (12_tally_replay.md). -/
def R.TLY.HOLD.HELD : Fld := ⟨10, 0x050, 0, 1, .ro, 0⟩
def R.TLY.HOLD.REQUESTED : Fld := ⟨10, 0x050, 1, 1, .ro, 0⟩
def R.TLY.HOLD.CAUSE_TRIPWIRE : Fld := ⟨10, 0x050, 2, 1, .w1c, 0⟩
def R.TLY.HOLD.CAUSE_FENCE : Fld := ⟨10, 0x050, 3, 1, .w1c, 0⟩
def R.TLY.HOLD.CAUSE_CONTROL : Fld := ⟨10, 0x050, 4, 1, .w1c, 0⟩
def R.TLY.HOLD.CAUSE_GATE : Fld := ⟨10, 0x050, 5, 1, .w1c, 0⟩
def R.TLY.HOLD.CAUSE_PAIR : Fld := ⟨10, 0x050, 6, 1, .w1c, 0⟩

/-! TLY.HOLD_STEP, offset 0x054: R292 (12_tally_replay.md). -/
def R.TLY.HOLD_STEP.STEP : Fld := ⟨10, 0x054, 0, 32, .ro, 0⟩

/-! TLY.MARK_TIME, offset 0x058: R292 (12_tally_replay.md). -/
def R.TLY.MARK_TIME.TIME : Fld := ⟨10, 0x058, 0, 64, .ro, 0⟩

/-! TLY.PAIR_STATUS, offset 0x060: R292 (12_tally_replay.md). -/
def R.TLY.PAIR_STATUS.MISMATCHES : Fld := ⟨10, 0x060, 0, 16, .ro, 0⟩
def R.TLY.PAIR_STATUS.TRANSIENTS : Fld := ⟨10, 0x060, 16, 8, .ro, 0⟩
def R.TLY.PAIR_STATUS.UNRESOLVED : Fld := ⟨10, 0x060, 24, 8, .ro, 0⟩

/-! TLY.RANGE_BASEn, offset 0x100 + 0x20 × n: R292 (12_tally_replay.md). -/
def R.TLY.RANGE_BASEn.BASE : Fld := ⟨10, 0x100, 2, 50, .rw, 0⟩

/-! TLY.RANGE_LENn, offset 0x108 + 0x20 × n: R292 (12_tally_replay.md). -/
def R.TLY.RANGE_LENn.WORDS : Fld := ⟨10, 0x108, 0, 32, .rw, 0⟩

/-! TLY.RANGE_CTLn, offset 0x10C + 0x20 × n: R292 (12_tally_replay.md). -/
def R.TLY.RANGE_CTLn.EN : Fld := ⟨10, 0x10C, 0, 1, .rw, 0⟩
def R.TLY.RANGE_CTLn.CSET : Fld := ⟨10, 0x10C, 1, 8, .rw, 0⟩

/-! TLY.RANGE_TIDn, offset 0x110 + 0x20 × n: R292 (12_tally_replay.md). -/
def R.TLY.RANGE_TIDn.TID : Fld := ⟨10, 0x110, 0, 32, .rw, 0⟩

/-! ERR.OPEN, offset 0x040: R325 (13_faults_recovery.md). -/
def R.ERR.OPEN.OPEN : Fld := ⟨9, 0x040, 0, 9, .ro, 0⟩
def R.ERR.OPEN.EARLY_CLOSES : Fld := ⟨9, 0x040, 16, 16, .ro, 0⟩

/-! ERR.REPORTS, offset 0x044: R325 (13_faults_recovery.md). -/
def R.ERR.REPORTS.REPORTS : Fld := ⟨9, 0x044, 0, 32, .ro, 0⟩

/-! ERR.RING_BASE, offset 0x048: R325 (13_faults_recovery.md). -/
def R.ERR.RING_BASE.BASE : Fld := ⟨9, 0x048, 12, 40, .rw, 0⟩

/-! ERR.RING_HEAD, offset 0x050: R325 (13_faults_recovery.md). -/
def R.ERR.RING_HEAD.RSEQ : Fld := ⟨9, 0x050, 0, 32, .ro, 0⟩

/-! ERR.RING_TAIL, offset 0x054: R325 (13_faults_recovery.md). -/
def R.ERR.RING_TAIL.RSEQ : Fld := ⟨9, 0x054, 0, 32, .rw, 0⟩

/-! ERR.RING_STATUS, offset 0x058: R325 (13_faults_recovery.md). -/
def R.ERR.RING_STATUS.OVERFLOW : Fld := ⟨9, 0x058, 0, 16, .ro, 0⟩
def R.ERR.RING_STATUS.LOST_CLASSES : Fld := ⟨9, 0x058, 17, 9, .w1c, 0⟩

/-! ERR.CAPTURE, offset 0x05C: R325 (13_faults_recovery.md). -/
def R.ERR.CAPTURE.IN_USE : Fld := ⟨9, 0x05C, 0, 16, .w1c, 0⟩
def R.ERR.CAPTURE.NOT_CAPTURED : Fld := ⟨9, 0x05C, 16, 16, .ro, 0⟩

/-! ERR.QUAR_CTL, offset 0x400: R325 (13_faults_recovery.md). -/
def R.ERR.QUAR_CTL.MISMATCH_LIMIT : Fld := ⟨9, 0x400, 0, 4, .rwx, 3⟩
def R.ERR.QUAR_CTL.UE_LIMIT : Fld := ⟨9, 0x400, 4, 4, .rwx, 2⟩
def R.ERR.QUAR_CTL.WINDOW_H : Fld := ⟨9, 0x400, 8, 8, .rwx, 24⟩
def R.ERR.QUAR_CTL.AUTO : Fld := ⟨9, 0x400, 16, 1, .rwx, 1⟩

/-! CL.REPLAY_STATUS, offset 0x070: R325 (13_faults_recovery.md). -/
def R.CL.REPLAY_STATUS.MARK_ID : Fld := ⟨1, 0x070, 0, 16, .ro, 0⟩
def R.CL.REPLAY_STATUS.STATE : Fld := ⟨1, 0x070, 16, 3, .ro, 0⟩

/-! CL.REPLAY_COUNT, offset 0x074: R325 (13_faults_recovery.md). -/
def R.CL.REPLAY_COUNT.REPLAYS : Fld := ⟨1, 0x074, 0, 16, .ro, 0⟩
def R.CL.REPLAY_COUNT.SUBSTITUTIONS : Fld := ⟨1, 0x074, 16, 8, .ro, 0⟩
def R.CL.REPLAY_COUNT.RESETS : Fld := ⟨1, 0x074, 24, 8, .ro, 0⟩

/-! CL.REPLAY_TIME, offset 0x078: R325 (13_faults_recovery.md). -/
def R.CL.REPLAY_TIME.LAST_US : Fld := ⟨1, 0x078, 0, 16, .ro, 0⟩
def R.CL.REPLAY_TIME.MAX_US : Fld := ⟨1, 0x078, 16, 16, .ro, 0⟩

/-! CL.LULL_CTL, offset 0x07C: R325 (13_faults_recovery.md). -/
def R.CL.LULL_CTL.EN : Fld := ⟨1, 0x07C, 0, 1, .rw, 1⟩
def R.CL.LULL_CTL.SLICE_US : Fld := ⟨1, 0x07C, 8, 8, .rw, 40⟩

/-! CL.LULL_STATUS, offset 0x080: R325 (13_faults_recovery.md). -/
def R.CL.LULL_STATUS.SITE : Fld := ⟨1, 0x080, 0, 5, .ro, 0⟩
def R.CL.LULL_STATUS.ACTIVE : Fld := ⟨1, 0x080, 5, 1, .ro, 0⟩
def R.CL.LULL_STATUS.FAILS : Fld := ⟨1, 0x080, 8, 8, .ro, 0⟩
def R.CL.LULL_STATUS.SLICES : Fld := ⟨1, 0x080, 16, 16, .ro, 0⟩

/-! RGN.POWER_CTL, offset 0x040: R356 (14_clocks_power_heat.md). -/
def R.RGN.POWER_CTL.ON_REQ : Fld := ⟨8, 0x040, 0, 1, .rw, 0⟩
def R.RGN.POWER_CTL.STATE : Fld := ⟨8, 0x040, 1, 3, .ro, 0⟩
def R.RGN.POWER_CTL.DEFERS : Fld := ⟨8, 0x040, 8, 8, .ro, 0⟩

/-! RGN.OP_STATUS, offset 0x044: R356 (14_clocks_power_heat.md). -/
def R.RGN.OP_STATUS.OP : Fld := ⟨8, 0x044, 0, 3, .ro, 0⟩
def R.RGN.OP_STATUS.VTARGET : Fld := ⟨8, 0x044, 4, 12, .ro, 0⟩

/-! RGN.FRONT_CTL, offset 0x048: R356 (14_clocks_power_heat.md). -/
def R.RGN.FRONT_CTL.TARGET : Fld := ⟨8, 0x048, 0, 3, .rw, 0⟩
def R.RGN.FRONT_CTL.ARM : Fld := ⟨8, 0x048, 3, 1, .wo, 0⟩
def R.RGN.FRONT_CTL.CANCEL : Fld := ⟨8, 0x048, 4, 1, .wo, 0⟩
def R.RGN.FRONT_CTL.PENDING : Fld := ⟨8, 0x048, 5, 1, .ro, 0⟩
def R.RGN.FRONT_CTL.RESULT : Fld := ⟨8, 0x048, 6, 3, .ro, 0⟩
def R.RGN.FRONT_CTL.CURRENT : Fld := ⟨8, 0x048, 9, 3, .ro, 0⟩

/-! RGN.FRONT_TIME, offset 0x050: R356 (14_clocks_power_heat.md). -/
def R.RGN.FRONT_TIME.T_F : Fld := ⟨8, 0x050, 0, 64, .rw, 0⟩

/-! RGN.PACE, offset 0x058: R356 (14_clocks_power_heat.md). -/
def R.RGN.PACE.LEVEL : Fld := ⟨8, 0x058, 0, 4, .ro, 0⟩
def R.RGN.PACE.SQUALL : Fld := ⟨8, 0x058, 4, 4, .ro, 0⟩
def R.RGN.PACE.CURRENT : Fld := ⟨8, 0x058, 8, 4, .ro, 0⟩
def R.RGN.PACE.THERMAL : Fld := ⟨8, 0x058, 12, 4, .ro, 0⟩
def R.RGN.PACE.MODULE : Fld := ⟨8, 0x058, 16, 4, .ro, 0⟩
def R.RGN.PACE.ADMIT : Fld := ⟨8, 0x058, 20, 4, .ro, 0⟩

/-! RGN.SQUALL, offset 0x05C: R356 (14_clocks_power_heat.md). -/
def R.RGN.SQUALL.THRESH : Fld := ⟨8, 0x05C, 0, 12, .rw, 2000⟩
def R.RGN.SQUALL.LEVEL : Fld := ⟨8, 0x05C, 12, 4, .rw, 8⟩
def R.RGN.SQUALL.EVENTS : Fld := ⟨8, 0x05C, 16, 16, .ro, 0⟩

/-! RGN.THERM, offset 0x060: R356 (14_clocks_power_heat.md). -/
def R.RGN.THERM.TEMP : Fld := ⟨8, 0x060, 0, 16, .ro, 0⟩
def R.RGN.THERM.PEAK : Fld := ⟨8, 0x060, 16, 16, .ro, 0⟩

/-! RGN.THERM_CTL, offset 0x064: R356 (14_clocks_power_heat.md). -/
def R.RGN.THERM_CTL.PACE_C : Fld := ⟨8, 0x064, 0, 8, .rw, 95⟩
def R.RGN.THERM_CTL.OFF_C : Fld := ⟨8, 0x064, 8, 8, .rw, 101⟩
def R.RGN.THERM_CTL.TRIP_C : Fld := ⟨8, 0x064, 16, 8, .ro, 105⟩

/-! RGN.PHASES, offset 0x068: R356 (14_clocks_power_heat.md). -/
def R.RGN.PHASES.HEALTHY : Fld := ⟨8, 0x068, 0, 6, .ro, 0⟩
def R.RGN.PHASES.TOTAL : Fld := ⟨8, 0x068, 6, 6, .ro, 0⟩
def R.RGN.PHASES.NEEDED : Fld := ⟨8, 0x068, 12, 6, .ro, 0⟩
def R.RGN.PHASES.MINIMUM : Fld := ⟨8, 0x068, 18, 6, .ro, 0⟩
def R.RGN.PHASES.FAILED : Fld := ⟨8, 0x068, 24, 8, .ro, 0⟩

/-! RGN.SUPPLY, offset 0x06C: R356 (14_clocks_power_heat.md). -/
def R.RGN.SUPPLY.CURRENT : Fld := ⟨8, 0x06C, 0, 16, .ro, 0⟩
def R.RGN.SUPPLY.VOLT : Fld := ⟨8, 0x06C, 16, 12, .ro, 0⟩

/-! RGN.ENERGY, offset 0x070: R356 (14_clocks_power_heat.md). -/
def R.RGN.ENERGY.UJ : Fld := ⟨8, 0x070, 0, 64, .ro, 0⟩

/-! RGN.STRETCH, offset 0x078: R356 (14_clocks_power_heat.md). -/
def R.RGN.STRETCH.COUNT : Fld := ⟨8, 0x078, 0, 32, .ro, 0⟩

/-! RGN.REF, offset 0x07C: R356 (14_clocks_power_heat.md). -/
def R.RGN.REF.SRC : Fld := ⟨8, 0x07C, 0, 6, .ro, 0⟩
def R.RGN.REF.LOCKED : Fld := ⟨8, 0x07C, 6, 1, .ro, 0⟩
def R.RGN.REF.TREE : Fld := ⟨8, 0x07C, 7, 1, .ro, 0⟩
def R.RGN.REF.SWITCHES : Fld := ⟨8, 0x07C, 8, 8, .ro, 0⟩

/-! RGN.ATT_SUPPLYn, offset 0x080 + 4 × n: R356 (14_clocks_power_heat.md). -/
def R.RGN.ATT_SUPPLYn.CURRENT : Fld := ⟨8, 0x080, 0, 16, .ro, 0⟩
def R.RGN.ATT_SUPPLYn.VOLT : Fld := ⟨8, 0x080, 16, 12, .ro, 0⟩

/-! RGN.ATT_ENERGYn, offset 0x0A0 + 8 × n: R356 (14_clocks_power_heat.md). -/
def R.RGN.ATT_ENERGYn.UJ : Fld := ⟨8, 0x0A0, 0, 64, .ro, 0⟩

/-! RGN.PACE_FORCE, offset 0x400: R356 (14_clocks_power_heat.md). -/
def R.RGN.PACE_FORCE.LEVEL : Fld := ⟨8, 0x400, 0, 4, .rwx, 0⟩

/-! RGN.VTRIM, offset 0x404: R356 (14_clocks_power_heat.md). -/
def R.RGN.VTRIM.TRIM : Fld := ⟨8, 0x404, 0, 8, .rwx, 0⟩

/-! PAGE_ID, offset 0x000: R365 (15_control_registers.md). -/
def R.PAGE_ID.LAYOUT (page : Nat) : Fld := ⟨page, 0x000, 0, 8, .ro, 1⟩
def R.PAGE_ID.INSTANCE (page : Nat) : Fld := ⟨page, 0x000, 14, 10, .ro, 0⟩
def R.PAGE_ID.GROUP (page : Nat) : Fld := ⟨page, 0x000, 24, 8, .ro, 0⟩

/-! PAGE_STATE, offset 0x004: R365 (15_control_registers.md). -/
def R.PAGE_STATE.PRESENT (page : Nat) : Fld := ⟨page, 0x004, 0, 1, .ro, 1⟩
def R.PAGE_STATE.POWERED (page : Nat) : Fld := ⟨page, 0x004, 1, 1, .ro, 0⟩
def R.PAGE_STATE.IN_SERVICE (page : Nat) : Fld := ⟨page, 0x004, 2, 1, .ro, 0⟩
def R.PAGE_STATE.QUARANTINED (page : Nat) : Fld := ⟨page, 0x004, 3, 1, .ro, 0⟩
def R.PAGE_STATE.IN_RESET (page : Nat) : Fld := ⟨page, 0x004, 4, 1, .ro, 0⟩

/-! PAGE_EVENT, offset 0x008: R365 (15_control_registers.md). -/
def R.PAGE_EVENT.EVENT (page : Nat) : Fld := ⟨page, 0x008, 0, 32, .w1c, 0⟩

/-! PAGE_EVENT_EN, offset 0x00C: R365 (15_control_registers.md). -/
def R.PAGE_EVENT_EN.EN (page : Nat) : Fld := ⟨page, 0x00C, 0, 32, .rw, 0⟩

/-! ROOT.DEV_ID, offset 0x010: R369 (15_control_registers.md). -/
def R.ROOT.DEV_ID.ID : Fld := ⟨0, 0x010, 0, 32, .ro, 1314353760⟩

/-! ROOT.DEV_REV, offset 0x014: R369 (15_control_registers.md). -/
def R.ROOT.DEV_REV.MINOR : Fld := ⟨0, 0x014, 0, 8, .ro, 0⟩
def R.ROOT.DEV_REV.STEPPING : Fld := ⟨0, 0x014, 8, 8, .ro, 11⟩
def R.ROOT.DEV_REV.LAYOUT : Fld := ⟨0, 0x014, 16, 16, .ro, 1⟩

/-! ROOT.SERIAL, offset 0x018: R369 (15_control_registers.md). -/
def R.ROOT.SERIAL.SERIAL : Fld := ⟨0, 0x018, 0, 64, .ro, 0⟩

/-! ROOT.CTRL_STATUS, offset 0x020: R369 (15_control_registers.md). -/
def R.ROOT.CTRL_STATUS.ACTIVE : Fld := ⟨0, 0x020, 0, 1, .ro, 0⟩
def R.ROOT.CTRL_STATUS.VALID : Fld := ⟨0, 0x020, 1, 1, .ro, 0⟩
def R.ROOT.CTRL_STATUS.STANDBY_READY : Fld := ⟨0, 0x020, 2, 1, .ro, 0⟩
def R.ROOT.CTRL_STATUS.FAILOVERS : Fld := ⟨0, 0x020, 8, 8, .ro, 0⟩
def R.ROOT.CTRL_STATUS.REFUSED_WRITES : Fld := ⟨0, 0x020, 16, 16, .ro, 0⟩

/-! ROOT.CTRL_CLAIM, offset 0x024: R369 (15_control_registers.md). -/
def R.ROOT.CTRL_CLAIM.CLAIM : Fld := ⟨0, 0x024, 0, 1, .wo, 0⟩
def R.ROOT.CTRL_CLAIM.RELEASE : Fld := ⟨0, 0x024, 1, 1, .wo, 0⟩

/-! ROOT.SEAL, offset 0x028: R369 (15_control_registers.md). -/
def R.ROOT.SEAL.SET : Fld := ⟨0, 0x028, 0, 1, .wo, 0⟩
def R.ROOT.SEAL.SEALED : Fld := ⟨0, 0x028, 1, 1, .ro, 0⟩

/-! ROOT.LIMITS_ID, offset 0x030: R369 (15_control_registers.md). -/
def R.ROOT.LIMITS_ID.DIGEST : Fld := ⟨0, 0x030, 0, 64, .rwl, 0⟩

/-! ROOT.POWER_TRIP, offset 0x038: R369 (15_control_registers.md). -/
def R.ROOT.POWER_TRIP.WATTS : Fld := ⟨0, 0x038, 0, 16, .rwl, 14500⟩

/-! ROOT.THERM_TRIP, offset 0x03C: R369 (15_control_registers.md). -/
def R.ROOT.THERM_TRIP.TRIP_C : Fld := ⟨0, 0x03C, 0, 8, .rwl, 105⟩

/-! ROOT.EXPERT_CTL, offset 0x040: R369 (15_control_registers.md). -/
def R.ROOT.EXPERT_CTL.EN : Fld := ⟨0, 0x040, 0, 1, .rw, 0⟩
def R.ROOT.EXPERT_CTL.LICENSED : Fld := ⟨0, 0x040, 1, 1, .ro, 0⟩
def R.ROOT.EXPERT_CTL.EVER : Fld := ⟨0, 0x040, 2, 1, .ro, 0⟩

/-! ROOT.MGMT_EGRESS_CAP, offset 0x044: R369 (15_control_registers.md). -/
def R.ROOT.MGMT_EGRESS_CAP.CAP : Fld := ⟨0, 0x044, 0, 8, .rwl, 250⟩

/-! ROOT.DEV_TIME, offset 0x048: R369 (15_control_registers.md). -/
def R.ROOT.DEV_TIME.NS : Fld := ⟨0, 0x048, 0, 64, .rw, 0⟩

/-! ROOT.TIME_RATE, offset 0x050: R369 (15_control_registers.md). -/
def R.ROOT.TIME_RATE.ADJ : Fld := ⟨0, 0x050, 0, 18, .rw, 0⟩

/-! ROOT.TIME_RATE_AT, offset 0x058: R369 (15_control_registers.md). -/
def R.ROOT.TIME_RATE_AT.T : Fld := ⟨0, 0x058, 0, 64, .rw, 0⟩

/-! ROOT.PTP_STATUS, offset 0x060: R369 (15_control_registers.md). -/
def R.ROOT.PTP_STATUS.BOUND : Fld := ⟨0, 0x060, 0, 16, .ro, 65535⟩
def R.ROOT.PTP_STATUS.LOCKED : Fld := ⟨0, 0x060, 16, 1, .ro, 0⟩
def R.ROOT.PTP_STATUS.PORT : Fld := ⟨0, 0x060, 17, 1, .ro, 0⟩

/-! ROOT.MGMT_STATUS0, offset 0x064: R369 (15_control_registers.md). -/
def R.ROOT.MGMT_STATUS0.UP : Fld := ⟨0, 0x064, 0, 1, .ro, 0⟩
def R.ROOT.MGMT_STATUS0.PTP_SEEN : Fld := ⟨0, 0x064, 1, 1, .ro, 0⟩
def R.ROOT.MGMT_STATUS0.CAP_DROPS : Fld := ⟨0, 0x064, 16, 16, .ro, 0⟩

/-! ROOT.MGMT_STATUS1, offset 0x068: R369 (15_control_registers.md). -/
def R.ROOT.MGMT_STATUS1.UP : Fld := ⟨0, 0x068, 0, 1, .ro, 0⟩
def R.ROOT.MGMT_STATUS1.PTP_SEEN : Fld := ⟨0, 0x068, 1, 1, .ro, 0⟩
def R.ROOT.MGMT_STATUS1.CAP_DROPS : Fld := ⟨0, 0x068, 16, 16, .ro, 0⟩

/-! ROOT.CTL_MOVER_BASE, offset 0x070: R369 (15_control_registers.md). -/
def R.ROOT.CTL_MOVER_BASE.BASE : Fld := ⟨0, 0x070, 10, 42, .rw, 0⟩

/-! ROOT.CTL_MOVER_GO, offset 0x078: R369 (15_control_registers.md). -/
def R.ROOT.CTL_MOVER_GO.MOVER : Fld := ⟨0, 0x078, 0, 3, .wo, 0⟩

/-! SEC.BOOT_STATUS, offset 0x040: R400 (16_bringup_security.md). -/
def R.SEC.BOOT_STATUS.STAGE : Fld := ⟨11, 0x040, 0, 4, .ro, 0⟩
def R.SEC.BOOT_STATUS.QUICK : Fld := ⟨11, 0x040, 4, 1, .ro, 0⟩
def R.SEC.BOOT_STATUS.SYNCED : Fld := ⟨11, 0x040, 5, 1, .ro, 0⟩
def R.SEC.BOOT_STATUS.BANK : Fld := ⟨11, 0x040, 6, 1, .ro, 0⟩
def R.SEC.BOOT_STATUS.FAIL_OBJ : Fld := ⟨11, 0x040, 8, 4, .ro, 0⟩
def R.SEC.BOOT_STATUS.FAIL_CODE : Fld := ⟨11, 0x040, 12, 4, .ro, 0⟩

/-! SEC.BOOT_CTL, offset 0x044: R400 (16_bringup_security.md). -/
def R.SEC.BOOT_CTL.FORCE_CRUISE : Fld := ⟨11, 0x044, 0, 1, .rw, 0⟩
def R.SEC.BOOT_CTL.PREF_BANK : Fld := ⟨11, 0x044, 1, 1, .rw, 0⟩
def R.SEC.BOOT_CTL.QUICK_DAYS : Fld := ⟨11, 0x044, 8, 8, .rw, 30⟩

/-! SEC.VERIFY_FAILS, offset 0x048: R400 (16_bringup_security.md). -/
def R.SEC.VERIFY_FAILS.COUNT : Fld := ⟨11, 0x048, 0, 32, .ro, 0⟩

/-! SEC.CMD, offset 0x050: R400 (16_bringup_security.md). -/
def R.SEC.CMD.OP : Fld := ⟨11, 0x050, 0, 4, .wo, 0⟩
def R.SEC.CMD.BUSY : Fld := ⟨11, 0x050, 4, 1, .ro, 0⟩
def R.SEC.CMD.RESULT : Fld := ⟨11, 0x050, 8, 4, .ro, 0⟩
def R.SEC.CMD.INDEX : Fld := ⟨11, 0x050, 16, 8, .rw, 0⟩

/-! SEC.CMD_ADDR, offset 0x058: R400 (16_bringup_security.md). -/
def R.SEC.CMD_ADDR.ADDR : Fld := ⟨11, 0x058, 0, 52, .rw, 0⟩

/-! SEC.LIC_MASK, offset 0x060: R400 (16_bringup_security.md). -/
def R.SEC.LIC_MASK.TIER2 : Fld := ⟨11, 0x060, 0, 1, .ro, 0⟩
def R.SEC.LIC_MASK.TIER3 : Fld := ⟨11, 0x060, 1, 1, .ro, 0⟩
def R.SEC.LIC_MASK.PAIR : Fld := ⟨11, 0x060, 2, 1, .ro, 0⟩
def R.SEC.LIC_MASK.T2_WINDOW : Fld := ⟨11, 0x060, 3, 1, .ro, 0⟩
def R.SEC.LIC_MASK.INT2_TERN : Fld := ⟨11, 0x060, 4, 1, .ro, 0⟩
def R.SEC.LIC_MASK.EXPERT : Fld := ⟨11, 0x060, 5, 1, .ro, 0⟩
def R.SEC.LIC_MASK.WINDOW_GIB : Fld := ⟨11, 0x060, 16, 12, .ro, 0⟩

/-! SEC.LIC_COUNT, offset 0x064: R400 (16_bringup_security.md). -/
def R.SEC.LIC_COUNT.INSTALLED : Fld := ⟨11, 0x064, 0, 6, .ro, 0⟩
def R.SEC.LIC_COUNT.CANCELLED : Fld := ⟨11, 0x064, 16, 8, .ro, 0⟩

/-! SEC.SVN_FLOORn, offset 0x070 + 4 × n: R400 (16_bringup_security.md). -/
def R.SEC.SVN_FLOORn.FLOOR : Fld := ⟨11, 0x070, 0, 6, .ro, 0⟩

/-! SEC.BLAZE_VERSION, offset 0x090: R400 (16_bringup_security.md). -/
def R.SEC.BLAZE_VERSION.VERSION : Fld := ⟨11, 0x090, 0, 64, .ro, 0⟩

/-! SEC.SERVICE, offset 0x098: R400 (16_bringup_security.md). -/
def R.SEC.SERVICE.PART : Fld := ⟨11, 0x098, 0, 4, .ro, 0⟩
def R.SEC.SERVICE.STATE : Fld := ⟨11, 0x098, 4, 2, .ro, 0⟩
def R.SEC.SERVICE.INDEX : Fld := ⟨11, 0x098, 8, 10, .ro, 0⟩

/-! SEC.CMD_DATAn, offset 0x0C0 + 4 × n: R400 (16_bringup_security.md). -/
def R.SEC.CMD_DATAn.DATA : Fld := ⟨11, 0x0C0, 0, 32, .rw, 0⟩

/-! SEC.MEASm_Wn, offset 0x100 + 0x40 × m + 4 × n: R400 (16_bringup_security.md). -/
def R.SEC.MEASm_Wn.DATA : Fld := ⟨11, 0x100, 0, 32, .ro, 0⟩

/-! SEC.ID_DIGESTc_Wn, offset 0x300 + 0x40 × c + 4 × n: R400 (16_bringup_security.md). -/
def R.SEC.ID_DIGESTc_Wn.DATA : Fld := ⟨11, 0x300, 0, 32, .ro, 0⟩

/-! The catalogue, page by page. -/

def catCORE0 : List FldRow :=
  [⟨R.CORE.ACC_STATUS.PASS_MISMATCH, 0, 1⟩,
   ⟨R.CORE.ACC_STATUS.ACC_MISMATCH, 0, 1⟩,
   ⟨R.CORE.ACC_STATUS.RANGE_LOST, 0, 1⟩,
   ⟨R.CORE.RES_CTL.PASS_CHK_OFF, 0, 1⟩,
   ⟨R.CORE.RES_CTL.ACC_CHK_OFF, 0, 1⟩,
   ⟨R.CORE.RES_CTL.INJ_ARRAY, 0, 1⟩,
   ⟨R.CORE.RES_CTL.INJ_ARM, 0, 1⟩,
   ⟨R.CORE.LONG_PEAK01.A0_PEAK, 0, 1⟩,
   ⟨R.CORE.LONG_PEAK01.A1_PEAK, 0, 1⟩,
   ⟨R.CORE.LONG_PEAK23.A2_PEAK, 0, 1⟩,
   ⟨R.CORE.LONG_PEAK23.A3_PEAK, 0, 1⟩,
   ⟨R.CORE.ACC_EVENTS.PROMOTIONS, 0, 1⟩,
   ⟨R.CORE.ACC_EVENTS.CAP_FAULTS, 0, 1⟩,
   ⟨R.CORE.ISSUE_CYC.CYCLES, 0, 1⟩,
   ⟨R.CORE.LOAD_WAIT_CYC.CYCLES, 0, 1⟩,
   ⟨R.CORE.SEQ_STATUS.PC, 0, 1⟩,
   ⟨R.CORE.SEQ_STATUS.STATE, 0, 1⟩,
   ⟨R.CORE.SEQ_FAULT.FAULT_PC, 0, 1⟩,
   ⟨R.CORE.SEQ_FAULT.KIND, 0, 1⟩,
   ⟨R.CORE.SEQ_FAULT.OPCODE, 0, 1⟩,
   ⟨R.CORE.SEQ_CTL.HAZ_CHK, 0, 1⟩,
   ⟨R.CORE.SEQ_CTL.WAIT_LIMIT, 0, 1⟩,
   ⟨R.CORE.CHK_EVENTS.CHK_FAIL, 0, 1⟩,
   ⟨R.CORE.CHK_EVENTS.ORDER_DEP, 0, 1⟩]

def catCORE1 : List FldRow :=
  [⟨R.CORE.INSTR_CNT.COUNT, 0, 1⟩,
   ⟨R.CORE.CHAIN_EVENTS.RUN_DROPS, 0, 1⟩,
   ⟨R.CORE.CHAIN_EVENTS.BOUND_DROPS, 0, 1⟩,
   ⟨R.CORE.CHAIN_ROWS.ZERO_ROWS, 0, 1⟩,
   ⟨R.CORE.CHAIN_ROWS.OVERRUNS, 0, 1⟩,
   ⟨R.CORE.SPE_CTL.CMD_LA, 0, 1⟩,
   ⟨R.CORE.SPE_CTL.NEXT, 0, 1⟩,
   ⟨R.CORE.SPE_CTL.BUSY, 0, 1⟩,
   ⟨R.CORE.SPARSE_DROPS.OUT_OF_RANGE, 0, 1⟩,
   ⟨R.CORE.SPARSE_DROPS.DUPLICATE, 0, 1⟩,
   ⟨R.CORE.SPARSE_DROPS.EXCESS, 0, 1⟩,
   ⟨R.CORE.SPARSE_DROPS.HDR_ERR, 0, 1⟩,
   ⟨R.CORE.MATCH_STATS.MISS_KBLK, 0, 1⟩,
   ⟨R.CORE.MATCH_STATS.SKIP_PASSES, 0, 1⟩,
   ⟨R.CORE.FORECAST_STATS.SKIPPED, 0, 1⟩,
   ⟨R.CORE.FORECAST_STATS.MAKEUP, 0, 1⟩,
   ⟨R.CORE.FORECAST_STATS.PROBABLE_MISS, 0, 1⟩]

def catTLY0 : List FldRow :=
  [⟨R.TLY.TW_CTLn.EN, 8, 16⟩,
   ⟨R.TLY.TW_CTLn.HOLD, 8, 16⟩,
   ⟨R.TLY.TW_CTLn.KIND, 8, 16⟩,
   ⟨R.TLY.TW_CTLn.ALL_SETS, 8, 16⟩,
   ⟨R.TLY.TW_CTLn.CSET, 8, 16⟩,
   ⟨R.TLY.TW_LIMITn.LIMIT, 8, 16⟩,
   ⟨R.TLY.TW_FIRED.FIRED, 0, 1⟩,
   ⟨R.TLY.TW_FIRST.INDEX, 0, 1⟩,
   ⟨R.TLY.TW_FIRST.VALID, 0, 1⟩,
   ⟨R.TLY.TW_FIRST.CSET, 0, 1⟩,
   ⟨R.TLY.TW_FIRST_STEP.STEP, 0, 1⟩,
   ⟨R.TLY.MARK_CTL.SOURCE, 0, 1⟩,
   ⟨R.TLY.MARK_CTL.JOB_ID, 0, 1⟩,
   ⟨R.TLY.MARK_CTL.CLUSTER, 0, 1⟩,
   ⟨R.TLY.MARK_CTL.SITE, 0, 1⟩,
   ⟨R.TLY.MARK_CMD.MARK, 0, 1⟩,
   ⟨R.TLY.MARK_CMD.HOLD_REQ, 0, 1⟩,
   ⟨R.TLY.MARK_CMD.RELEASE, 0, 1⟩,
   ⟨R.TLY.MARK_CMD.BUSY, 0, 1⟩,
   ⟨R.TLY.STEP.STEP, 0, 1⟩,
   ⟨R.TLY.WRAP.WRAP, 0, 1⟩,
   ⟨R.TLY.HOLD.HELD, 0, 1⟩,
   ⟨R.TLY.HOLD.REQUESTED, 0, 1⟩,
   ⟨R.TLY.HOLD.CAUSE_TRIPWIRE, 0, 1⟩]

def catTLY1 : List FldRow :=
  [⟨R.TLY.HOLD.CAUSE_FENCE, 0, 1⟩,
   ⟨R.TLY.HOLD.CAUSE_CONTROL, 0, 1⟩,
   ⟨R.TLY.HOLD.CAUSE_GATE, 0, 1⟩,
   ⟨R.TLY.HOLD.CAUSE_PAIR, 0, 1⟩,
   ⟨R.TLY.HOLD_STEP.STEP, 0, 1⟩,
   ⟨R.TLY.MARK_TIME.TIME, 0, 1⟩,
   ⟨R.TLY.PAIR_STATUS.MISMATCHES, 0, 1⟩,
   ⟨R.TLY.PAIR_STATUS.TRANSIENTS, 0, 1⟩,
   ⟨R.TLY.PAIR_STATUS.UNRESOLVED, 0, 1⟩,
   ⟨R.TLY.RANGE_BASEn.BASE, 32, 16⟩,
   ⟨R.TLY.RANGE_LENn.WORDS, 32, 16⟩,
   ⟨R.TLY.RANGE_CTLn.EN, 32, 16⟩,
   ⟨R.TLY.RANGE_CTLn.CSET, 32, 16⟩,
   ⟨R.TLY.RANGE_TIDn.TID, 32, 16⟩]

def catDSL0 : List FldRow :=
  [⟨R.DSL.ECC_STATUS.CORRECTED, 0, 1⟩,
   ⟨R.DSL.ECC_STATUS.UNCORRECTED, 0, 1⟩,
   ⟨R.DSL.ECC_STATUS.POISON_READS, 0, 1⟩,
   ⟨R.DSL.SCRUB.EN, 0, 1⟩,
   ⟨R.DSL.SCRUB.INTERVAL, 0, 1⟩,
   ⟨R.DSL.SCRUB.PASSES, 0, 1⟩,
   ⟨R.DSL.SPARE_LINES.USED, 0, 1⟩]

def catHBM0 : List FldRow :=
  [⟨R.HBM.ECC_STATUS.CORRECTED, 0, 1⟩,
   ⟨R.HBM.ECC_STATUS.UNCORRECTED, 0, 1⟩,
   ⟨R.HBM.ECC_STATUS.ODECC_REPORTS, 0, 1⟩,
   ⟨R.HBM.RETIRE.RETIRED, 0, 1⟩,
   ⟨R.HBM.RETIRE.FULL, 0, 1⟩,
   ⟨R.HBM.RETIRE.SPPR_ROWS, 0, 1⟩,
   ⟨R.HBM.RETRAIN_CTL.CHANNEL, 0, 1⟩,
   ⟨R.HBM.RETRAIN_CTL.START, 0, 1⟩,
   ⟨R.HBM.RETRAIN_CTL.BUSY, 0, 1⟩,
   ⟨R.HBM.RETRAIN_CTL.RETRAINS, 0, 1⟩]

def catPCH0 : List FldRow :=
  [⟨R.PCH.PORT_STATUS0.WIDTH, 0, 1⟩,
   ⟨R.PCH.PORT_STATUS0.RATE, 0, 1⟩,
   ⟨R.PCH.PORT_STATUS0.CXL, 0, 1⟩,
   ⟨R.PCH.PORT_STATUS0.T2, 0, 1⟩,
   ⟨R.PCH.PORT_STATUS0.CAP_GIB, 0, 1⟩,
   ⟨R.PCH.PORT_STATUS1.WIDTH, 0, 1⟩,
   ⟨R.PCH.PORT_STATUS1.RATE, 0, 1⟩,
   ⟨R.PCH.PORT_STATUS1.CXL, 0, 1⟩,
   ⟨R.PCH.PORT_STATUS1.T2, 0, 1⟩,
   ⟨R.PCH.PORT_STATUS1.CAP_GIB, 0, 1⟩,
   ⟨R.PCH.T2_CTL.WINDOW_GIB, 0, 1⟩,
   ⟨R.PCH.T2_CTL.WAYS, 0, 1⟩,
   ⟨R.PCH.T2_EVENTS.POISON_IN, 0, 1⟩,
   ⟨R.PCH.T2_EVENTS.LINK_DOWN_DROPS, 0, 1⟩,
   ⟨R.PCH.T2_EVENTS.INBOUND_REFUSED, 0, 1⟩]

def catCL0 : List FldRow :=
  [⟨R.CL.FENCE_LOn.FIRST, 8, 8⟩,
   ⟨R.CL.FENCE_LOn.SPACE, 8, 8⟩,
   ⟨R.CL.FENCE_LOn.READ_ONLY, 8, 8⟩,
   ⟨R.CL.FENCE_LOn.VALID, 8, 8⟩,
   ⟨R.CL.FENCE_HIn.LAST, 8, 8⟩,
   ⟨R.CL.FENCE_EVENTS.REFUSED_READ, 0, 1⟩,
   ⟨R.CL.FENCE_EVENTS.REFUSED_WRITE, 0, 1⟩,
   ⟨R.CL.JOB.ACTIVE, 0, 1⟩,
   ⟨R.CL.JOB.JOB_ID, 0, 1⟩,
   ⟨R.CL.JOB.LOGICAL, 0, 1⟩,
   ⟨R.CL.LAUNCH_SEQ.SEQ, 0, 1⟩,
   ⟨R.CL.TSIG.TOKEN, 0, 1⟩,
   ⟨R.CL.TSIG.SITE, 0, 1⟩,
   ⟨R.CL.TSIG.KIND, 0, 1⟩,
   ⟨R.CL.TSIG.MOVER, 0, 1⟩,
   ⟨R.CL.TSIG.LIST, 0, 1⟩,
   ⟨R.CL.LAUNCH_TIME.T_L, 0, 1⟩,
   ⟨R.CL.TOKEN_DROPS.DROPS, 0, 1⟩,
   ⟨R.CL.MOVER_LISTn.VALID, 4, 4⟩,
   ⟨R.CL.MOVER_LISTn.MOVER, 4, 4⟩,
   ⟨R.CL.MOVER_LISTn.LIST, 4, 4⟩,
   ⟨R.CL.MOVER_LISTn.BASE, 4, 4⟩,
   ⟨R.CL.ROUTE_LOn.VALID, 8, 64⟩,
   ⟨R.CL.ROUTE_LOn.DIR, 8, 64⟩]

def catCL1 : List FldRow :=
  [⟨R.CL.ROUTE_LOn.SITE, 8, 64⟩,
   ⟨R.CL.ROUTE_LOn.PEER_CLUSTER, 8, 64⟩,
   ⟨R.CL.ROUTE_LOn.PEER_SITE, 8, 64⟩,
   ⟨R.CL.ROUTE_LOn.PEER_ROUTE, 8, 64⟩,
   ⟨R.CL.ROUTE_LOn.SHARE_m1, 8, 64⟩,
   ⟨R.CL.ROUTE_HIn.BUF_m1, 8, 64⟩,
   ⟨R.CL.ROUTE_HIn.FILL, 8, 64⟩,
   ⟨R.CL.REPLAY_STATUS.MARK_ID, 0, 1⟩,
   ⟨R.CL.REPLAY_STATUS.STATE, 0, 1⟩,
   ⟨R.CL.REPLAY_COUNT.REPLAYS, 0, 1⟩,
   ⟨R.CL.REPLAY_COUNT.SUBSTITUTIONS, 0, 1⟩,
   ⟨R.CL.REPLAY_COUNT.RESETS, 0, 1⟩,
   ⟨R.CL.REPLAY_TIME.LAST_US, 0, 1⟩,
   ⟨R.CL.REPLAY_TIME.MAX_US, 0, 1⟩,
   ⟨R.CL.LULL_CTL.EN, 0, 1⟩,
   ⟨R.CL.LULL_CTL.SLICE_US, 0, 1⟩,
   ⟨R.CL.LULL_STATUS.SITE, 0, 1⟩,
   ⟨R.CL.LULL_STATUS.ACTIVE, 0, 1⟩,
   ⟨R.CL.LULL_STATUS.FAILS, 0, 1⟩,
   ⟨R.CL.LULL_STATUS.SLICES, 0, 1⟩]

def catLCH0 : List FldRow :=
  [⟨R.LCH.FABRIC_ID.ID, 0, 1⟩,
   ⟨R.LCH.FABRIC_ID.JOINED, 0, 1⟩,
   ⟨R.LCH.FABRIC_ID.PAIR, 0, 1⟩,
   ⟨R.LCH.REFUSED.CLOSED, 0, 1⟩,
   ⟨R.LCH.REFUSED.STALE, 0, 1⟩,
   ⟨R.LCH.REFUSED.BOUNDS, 0, 1⟩,
   ⟨R.LCH.REFUSED.NO_BUFFER, 0, 1⟩,
   ⟨R.LCH.LOCAL_ANSWERS.TIMEOUT, 0, 1⟩,
   ⟨R.LCH.LOCAL_ANSWERS.SUSPECT, 0, 1⟩,
   ⟨R.LCH.LOCAL_ANSWERS.LINK_LOST, 0, 1⟩,
   ⟨R.LCH.LOCAL_ANSWERS.NO_ROUTE, 0, 1⟩,
   ⟨R.LCH.LIFETIME_DROPS.DROPS, 0, 1⟩,
   ⟨R.LCH.PARTNER_SEL.ID, 0, 1⟩,
   ⟨R.LCH.PARTNER_STATE.STATE, 0, 1⟩,
   ⟨R.LCH.PARTNER_STATE.PORTS, 0, 1⟩,
   ⟨R.LCH.PARTNER_STATE.UNANSWERED, 0, 1⟩,
   ⟨R.LCH.PARTNER_NOTICES.NOTICES, 0, 1⟩,
   ⟨R.LCH.LANDING_BUF.IN_USE, 0, 1⟩,
   ⟨R.LCH.LANDING_BUF.PEAK, 0, 1⟩]

def catLPT0 : List FldRow :=
  [⟨R.LPT.TRAIN_STATUS.WIDTH, 0, 1⟩,
   ⟨R.LPT.TRAIN_STATUS.LANES, 0, 1⟩,
   ⟨R.LPT.TRAIN_STATUS.SPARE_USED, 0, 1⟩,
   ⟨R.LPT.TRAIN_STATUS.FAR_SWITCH, 0, 1⟩,
   ⟨R.LPT.TRAIN_STATUS.FAR_ID, 0, 1⟩,
   ⟨R.LPT.LINK_EVENTS.REPLAYS, 0, 1⟩,
   ⟨R.LPT.LINK_EVENTS.RETRAINS, 0, 1⟩,
   ⟨R.LPT.LINK_EVENTS.LANE_FAILS, 0, 1⟩,
   ⟨R.LPT.FEC_CORR.CORRECTED, 0, 1⟩,
   ⟨R.LPT.FEC_UNCORR.UNCORRECTED, 0, 1⟩,
   ⟨R.LPT.CLASS_WEIGHT.OPERAND_W, 0, 1⟩,
   ⟨R.LPT.CLASS_WEIGHT.PARTIAL_W, 0, 1⟩,
   ⟨R.LPT.CLASS_WEIGHT.BULK_W, 0, 1⟩,
   ⟨R.LPT.RETRAIN_CTL.START, 0, 1⟩,
   ⟨R.LPT.RETRAIN_CTL.BUSY, 0, 1⟩,
   ⟨R.LPT.RETRAIN_CTL.LANE_LIMIT, 0, 1⟩,
   ⟨R.LPT.EGRESS_CAP.CAP, 0, 1⟩]

def catLWT0 : List FldRow :=
  [⟨R.LWT.SEL.WINDOW, 0, 1⟩,
   ⟨R.LWT.WIN_BASE.BASE, 0, 1⟩,
   ⟨R.LWT.WIN_SIZE.SIZE_m1, 0, 1⟩,
   ⟨R.LWT.WIN_CTL.STATE, 0, 1⟩,
   ⟨R.LWT.WIN_CTL.GEN, 0, 1⟩,
   ⟨R.LWT.WIN_CTL.JOB_TAG, 0, 1⟩,
   ⟨R.LWT.WIN_NOTIFY.VALID, 0, 1⟩,
   ⟨R.LWT.WIN_NOTIFY.CLUSTER, 0, 1⟩,
   ⟨R.LWT.WIN_NOTIFY.SITE, 0, 1⟩,
   ⟨R.LWT.WIN_NOTIFY.TOKEN, 0, 1⟩,
   ⟨R.LWT.CMD.OPEN, 0, 1⟩,
   ⟨R.LWT.CMD.CLOSE, 0, 1⟩,
   ⟨R.LWT.CMD.BUSY, 0, 1⟩,
   ⟨R.LWT.CMD.RESULT, 0, 1⟩,
   ⟨R.LWT.DROPS.CLOSED, 0, 1⟩,
   ⟨R.LWT.DROPS.STALE, 0, 1⟩,
   ⟨R.LWT.DROPS.BOUNDS, 0, 1⟩,
   ⟨R.LWT.DROPS.NOT_PERMITTED, 0, 1⟩,
   ⟨R.LWT.DROPS2.MALFORMED, 0, 1⟩,
   ⟨R.LWT.DROPS2.MISROUTE, 0, 1⟩,
   ⟨R.LWT.CL_TAGn.JOB_TAG, 4, 24⟩]

def catMCG0 : List FldRow :=
  [⟨R.MCG.SEL.GROUP, 0, 1⟩,
   ⟨R.MCG.SEL.ENTRY, 0, 1⟩,
   ⟨R.MCG.GROUP_CTL.VALID, 0, 1⟩,
   ⟨R.MCG.GROUP_CTL.COUNT_m1, 0, 1⟩,
   ⟨R.MCG.GROUP_CTL.REFUSED, 0, 1⟩,
   ⟨R.MCG.ENTRY.DEV, 0, 1⟩,
   ⟨R.MCG.ENTRY.WINDOW, 0, 1⟩,
   ⟨R.MCG.ENTRY.GEN, 0, 1⟩,
   ⟨R.MCG.ENTRY.VALID, 0, 1⟩,
   ⟨R.MCG.RETRIES.RETRIES, 0, 1⟩]

def catERR0 : List FldRow :=
  [⟨R.ERR.OPEN.OPEN, 0, 1⟩,
   ⟨R.ERR.OPEN.EARLY_CLOSES, 0, 1⟩,
   ⟨R.ERR.REPORTS.REPORTS, 0, 1⟩,
   ⟨R.ERR.RING_BASE.BASE, 0, 1⟩,
   ⟨R.ERR.RING_HEAD.RSEQ, 0, 1⟩,
   ⟨R.ERR.RING_TAIL.RSEQ, 0, 1⟩,
   ⟨R.ERR.RING_STATUS.OVERFLOW, 0, 1⟩,
   ⟨R.ERR.RING_STATUS.LOST_CLASSES, 0, 1⟩,
   ⟨R.ERR.CAPTURE.IN_USE, 0, 1⟩,
   ⟨R.ERR.CAPTURE.NOT_CAPTURED, 0, 1⟩,
   ⟨R.ERR.QUAR_CTL.MISMATCH_LIMIT, 0, 1⟩,
   ⟨R.ERR.QUAR_CTL.UE_LIMIT, 0, 1⟩,
   ⟨R.ERR.QUAR_CTL.WINDOW_H, 0, 1⟩,
   ⟨R.ERR.QUAR_CTL.AUTO, 0, 1⟩]

def catRGN0 : List FldRow :=
  [⟨R.RGN.POWER_CTL.ON_REQ, 0, 1⟩,
   ⟨R.RGN.POWER_CTL.STATE, 0, 1⟩,
   ⟨R.RGN.POWER_CTL.DEFERS, 0, 1⟩,
   ⟨R.RGN.OP_STATUS.OP, 0, 1⟩,
   ⟨R.RGN.OP_STATUS.VTARGET, 0, 1⟩,
   ⟨R.RGN.FRONT_CTL.TARGET, 0, 1⟩,
   ⟨R.RGN.FRONT_CTL.ARM, 0, 1⟩,
   ⟨R.RGN.FRONT_CTL.CANCEL, 0, 1⟩,
   ⟨R.RGN.FRONT_CTL.PENDING, 0, 1⟩,
   ⟨R.RGN.FRONT_CTL.RESULT, 0, 1⟩,
   ⟨R.RGN.FRONT_CTL.CURRENT, 0, 1⟩,
   ⟨R.RGN.FRONT_TIME.T_F, 0, 1⟩,
   ⟨R.RGN.PACE.LEVEL, 0, 1⟩,
   ⟨R.RGN.PACE.SQUALL, 0, 1⟩,
   ⟨R.RGN.PACE.CURRENT, 0, 1⟩,
   ⟨R.RGN.PACE.THERMAL, 0, 1⟩,
   ⟨R.RGN.PACE.MODULE, 0, 1⟩,
   ⟨R.RGN.PACE.ADMIT, 0, 1⟩,
   ⟨R.RGN.SQUALL.THRESH, 0, 1⟩,
   ⟨R.RGN.SQUALL.LEVEL, 0, 1⟩,
   ⟨R.RGN.SQUALL.EVENTS, 0, 1⟩,
   ⟨R.RGN.THERM.TEMP, 0, 1⟩,
   ⟨R.RGN.THERM.PEAK, 0, 1⟩,
   ⟨R.RGN.THERM_CTL.PACE_C, 0, 1⟩]

def catRGN1 : List FldRow :=
  [⟨R.RGN.THERM_CTL.OFF_C, 0, 1⟩,
   ⟨R.RGN.THERM_CTL.TRIP_C, 0, 1⟩,
   ⟨R.RGN.PHASES.HEALTHY, 0, 1⟩,
   ⟨R.RGN.PHASES.TOTAL, 0, 1⟩,
   ⟨R.RGN.PHASES.NEEDED, 0, 1⟩,
   ⟨R.RGN.PHASES.MINIMUM, 0, 1⟩,
   ⟨R.RGN.PHASES.FAILED, 0, 1⟩,
   ⟨R.RGN.SUPPLY.CURRENT, 0, 1⟩,
   ⟨R.RGN.SUPPLY.VOLT, 0, 1⟩,
   ⟨R.RGN.ENERGY.UJ, 0, 1⟩,
   ⟨R.RGN.STRETCH.COUNT, 0, 1⟩,
   ⟨R.RGN.REF.SRC, 0, 1⟩,
   ⟨R.RGN.REF.LOCKED, 0, 1⟩,
   ⟨R.RGN.REF.TREE, 0, 1⟩,
   ⟨R.RGN.REF.SWITCHES, 0, 1⟩,
   ⟨R.RGN.ATT_SUPPLYn.CURRENT, 4, 7⟩,
   ⟨R.RGN.ATT_SUPPLYn.VOLT, 4, 7⟩,
   ⟨R.RGN.ATT_ENERGYn.UJ, 8, 7⟩,
   ⟨R.RGN.PACE_FORCE.LEVEL, 0, 1⟩,
   ⟨R.RGN.VTRIM.TRIM, 0, 1⟩]

def catROOT0 : List FldRow :=
  [⟨R.ROOT.DEV_ID.ID, 0, 1⟩,
   ⟨R.ROOT.DEV_REV.MINOR, 0, 1⟩,
   ⟨R.ROOT.DEV_REV.STEPPING, 0, 1⟩,
   ⟨R.ROOT.DEV_REV.LAYOUT, 0, 1⟩,
   ⟨R.ROOT.SERIAL.SERIAL, 0, 1⟩,
   ⟨R.ROOT.CTRL_STATUS.ACTIVE, 0, 1⟩,
   ⟨R.ROOT.CTRL_STATUS.VALID, 0, 1⟩,
   ⟨R.ROOT.CTRL_STATUS.STANDBY_READY, 0, 1⟩,
   ⟨R.ROOT.CTRL_STATUS.FAILOVERS, 0, 1⟩,
   ⟨R.ROOT.CTRL_STATUS.REFUSED_WRITES, 0, 1⟩,
   ⟨R.ROOT.CTRL_CLAIM.CLAIM, 0, 1⟩,
   ⟨R.ROOT.CTRL_CLAIM.RELEASE, 0, 1⟩,
   ⟨R.ROOT.SEAL.SET, 0, 1⟩,
   ⟨R.ROOT.SEAL.SEALED, 0, 1⟩,
   ⟨R.ROOT.LIMITS_ID.DIGEST, 0, 1⟩,
   ⟨R.ROOT.POWER_TRIP.WATTS, 0, 1⟩,
   ⟨R.ROOT.THERM_TRIP.TRIP_C, 0, 1⟩,
   ⟨R.ROOT.EXPERT_CTL.EN, 0, 1⟩,
   ⟨R.ROOT.EXPERT_CTL.LICENSED, 0, 1⟩,
   ⟨R.ROOT.EXPERT_CTL.EVER, 0, 1⟩,
   ⟨R.ROOT.MGMT_EGRESS_CAP.CAP, 0, 1⟩,
   ⟨R.ROOT.DEV_TIME.NS, 0, 1⟩,
   ⟨R.ROOT.TIME_RATE.ADJ, 0, 1⟩,
   ⟨R.ROOT.TIME_RATE_AT.T, 0, 1⟩]

def catROOT1 : List FldRow :=
  [⟨R.ROOT.PTP_STATUS.BOUND, 0, 1⟩,
   ⟨R.ROOT.PTP_STATUS.LOCKED, 0, 1⟩,
   ⟨R.ROOT.PTP_STATUS.PORT, 0, 1⟩,
   ⟨R.ROOT.MGMT_STATUS0.UP, 0, 1⟩,
   ⟨R.ROOT.MGMT_STATUS0.PTP_SEEN, 0, 1⟩,
   ⟨R.ROOT.MGMT_STATUS0.CAP_DROPS, 0, 1⟩,
   ⟨R.ROOT.MGMT_STATUS1.UP, 0, 1⟩,
   ⟨R.ROOT.MGMT_STATUS1.PTP_SEEN, 0, 1⟩,
   ⟨R.ROOT.MGMT_STATUS1.CAP_DROPS, 0, 1⟩,
   ⟨R.ROOT.CTL_MOVER_BASE.BASE, 0, 1⟩,
   ⟨R.ROOT.CTL_MOVER_GO.MOVER, 0, 1⟩]

def catSEC0 : List FldRow :=
  [⟨R.SEC.BOOT_STATUS.STAGE, 0, 1⟩,
   ⟨R.SEC.BOOT_STATUS.QUICK, 0, 1⟩,
   ⟨R.SEC.BOOT_STATUS.SYNCED, 0, 1⟩,
   ⟨R.SEC.BOOT_STATUS.BANK, 0, 1⟩,
   ⟨R.SEC.BOOT_STATUS.FAIL_OBJ, 0, 1⟩,
   ⟨R.SEC.BOOT_STATUS.FAIL_CODE, 0, 1⟩,
   ⟨R.SEC.BOOT_CTL.FORCE_CRUISE, 0, 1⟩,
   ⟨R.SEC.BOOT_CTL.PREF_BANK, 0, 1⟩,
   ⟨R.SEC.BOOT_CTL.QUICK_DAYS, 0, 1⟩,
   ⟨R.SEC.VERIFY_FAILS.COUNT, 0, 1⟩,
   ⟨R.SEC.CMD.OP, 0, 1⟩,
   ⟨R.SEC.CMD.BUSY, 0, 1⟩,
   ⟨R.SEC.CMD.RESULT, 0, 1⟩,
   ⟨R.SEC.CMD.INDEX, 0, 1⟩,
   ⟨R.SEC.CMD_ADDR.ADDR, 0, 1⟩,
   ⟨R.SEC.LIC_MASK.TIER2, 0, 1⟩,
   ⟨R.SEC.LIC_MASK.TIER3, 0, 1⟩,
   ⟨R.SEC.LIC_MASK.PAIR, 0, 1⟩,
   ⟨R.SEC.LIC_MASK.T2_WINDOW, 0, 1⟩,
   ⟨R.SEC.LIC_MASK.INT2_TERN, 0, 1⟩,
   ⟨R.SEC.LIC_MASK.EXPERT, 0, 1⟩,
   ⟨R.SEC.LIC_MASK.WINDOW_GIB, 0, 1⟩,
   ⟨R.SEC.LIC_COUNT.INSTALLED, 0, 1⟩,
   ⟨R.SEC.LIC_COUNT.CANCELLED, 0, 1⟩]

def catSEC1 : List FldRow :=
  [⟨R.SEC.SVN_FLOORn.FLOOR, 4, 7⟩,
   ⟨R.SEC.BLAZE_VERSION.VERSION, 0, 1⟩,
   ⟨R.SEC.SERVICE.PART, 0, 1⟩,
   ⟨R.SEC.SERVICE.STATE, 0, 1⟩,
   ⟨R.SEC.SERVICE.INDEX, 0, 1⟩,
   ⟨R.SEC.CMD_DATAn.DATA, 4, 16⟩,
   ⟨R.SEC.MEASm_Wn.DATA, 4, 128⟩,
   ⟨R.SEC.ID_DIGESTc_Wn.DATA, 4, 32⟩]

/-- Every field of every page but the four common registers of R365. -/
def catalogue : List FldRow :=
  catCORE0 ++ catCORE1 ++ catTLY0 ++ catTLY1 ++ catDSL0 ++ catHBM0 ++ catPCH0 ++ catCL0 ++ catCL1 ++ catLCH0 ++ catLPT0 ++ catLWT0 ++ catMCG0 ++ catERR0 ++ catRGN0 ++ catRGN1 ++ catROOT0 ++ catROOT1 ++ catSEC0 ++ catSEC1

/-- The number of instances of each page group (R364). -/
def pageInstances : Nat → Nat
  | 0 => 1 | 1 => 24 | 2 => 672 | 3 => 24 | 4 => 16 | 5 => 10 | 6 => 40 | 7 => 2 | 8 => 36
  | 9 => 25 | 10 => 1 | 11 => 1 | 12 => 1 | 13 => 1 | _ => 0

end Sys2Proof.Machine
end

