-- ==== Sys2Proof/Machine/CoreState.lean ====
section
/-! DEFINITION. The state of one core site (R62, R76, R84 to R90, R118, R137, R154, R160): plain data. -/

namespace Sys2Proof.Machine

/-- CORE.SEQ_STATUS.STATE (R118). -/
inductive SeqState where
  | idle | issuing | inWait | inTwait | draining | stopped | held
  deriving DecidableEq, Repr

/-- The code of a sequencer state in CORE.SEQ_STATUS.STATE. -/
def SeqState.code : SeqState → Nat
  | .idle => 0
  | .issuing => 1
  | .inWait => 2
  | .inTwait => 3
  | .draining => 4
  | .stopped => 5
  | .held => 6

/-- The instruction faults of R94, with the codes of CORE.SEQ_FAULT.KIND. -/
inductive SeqFault where
  | illegal | format | sequencing | capacity | check
  deriving DecidableEq, Repr

def SeqFault.code : SeqFault → Nat
  | .illegal => 1
  | .format => 2
  | .sequencing => 3
  | .capacity => 4
  | .check => 5

/-- The units of R88 that instructions are queued to, and the sequencer itself (`seq`, no queue). -/
inductive CUnit where
  | move | weight | array | accum | vector | quant | matcher | seq
  deriving DecidableEq, Repr

/-- Queue depth of R88. -/
def CUnit.depth : CUnit → Nat
  | .move => 16
  | .weight => 2
  | .array => 4
  | .accum => 4
  | .vector => 8
  | .quant => 4
  | .matcher => 2
  | .seq => 0

/-- What the sequencer does once every unit is idle. -/
inductive Drain where
  | none
  | fence
  | fin (code : Nat)
  | tmark
  | rmark (id : Nat)
  | fault (kind : SeqFault)
  deriving DecidableEq, Repr

/-- What a WAIT or TWAIT waits for. -/
inductive Waiting where
  | none
  | ctr (u n : Nat)
  | token (t n : Nat)
  deriving DecidableEq, Repr

/-- A contiguous byte range of local space. -/
structure Rng where
  lo  : Nat
  len : Nat
  deriving DecidableEq, Repr

/-- The move-unit work an instruction holds until the unit reaches it. Addresses, counts and register
values are those of its issue (R88, R90, R99); a multicast SEND holds its group's targets as they stood then
(R264). -/
inductive MoveOp where
  | movd (out : Bool) (la lpitch : Nat) (dev : Int) (dpitch rows bytes : Nat)
  | movl (src dst bytes rows spitch dpitch : Nat)
  | movs (la route len : Nat) (pack : Bool)
  | movr (la route len : Nat)
  | send (la dev window gen off cls len : Nat) (pack : Bool) (group : Option (List (Nat × Nat × Nat)))
  | tsig (token count : Nat)
  | chkeq (la1 la2 bytes : Nat) (stop : Bool)
  deriving DecidableEq, Repr

/-- A weight plane: a tile with its scales, Tw, K-block list and scaling kind, and the residue column `rho` and
residue row `sigma` that go with it (R55, R67, R68, R104, R161). DESIGN CHOICE, log entry 2. -/
structure Plane where
  fmt    : EFmt := .e4m3
  sq     : Bool := false
  ncol   : Nat := 0
  kblk   : Nat := 4
  tw     : Nat := 0x3F800000
  codes  : List Byte := []
  scales : List Byte := []
  klist  : List Byte := []
  rho    : List Nat := []
  sigma  : List Nat := []
  deriving DecidableEq, Repr

/-- The weight unit's queued work (R67, R68). -/
inductive WOp where
  | load (p : Plane)
  | swap
  deriving DecidableEq, Repr

/-- An instruction in flight in a unit (R88 to R92, R421). `rd`, `wr` are its local byte ranges,
`slots` its accumulator slots, `clash` the bytes it will leave undefined under R91, `descs` the descriptor registers it names,
`entered` whether all its rows have entered (MM), `ready` whether its last result is written. -/
structure Fly where
  unit    : CUnit
  opc     : Nat
  pc      : Nat
  ctr     : Option Nat := none
  rd      : List Rng := []
  wr      : List Rng := []
  slots   : List Rng := []
  clash   : List Rng := []
  descs   : List Nat := []
  mv      : Option MoveOp := none
  wop     : Option WOp := none
  ent     : Option Nat := none
  entered : Bool := false
  matched : Bool := false
  vd      : Option Nat := none
  sendNo  : Option Nat := none
  ready   : Bool := true
  deriving DecidableEq, Repr

/-- A long slot in use: its accumulator and the address of the slot that owns it (R72, R73). -/
structure LongSlot where
  acc   : Acc := {}
  owner : Option Nat := none
  deriving DecidableEq, Repr

/-- The sparse-engine command under way (R154, R156): its ring index and its command block; the ranges of R155 that
it reads and writes (`rd`, `wr` in local space, `drd`, `dwr` at device addresses), and the local and device bytes that a program
access has made undefined. -/
structure SpeCmd where
  idx    : Nat
  block  : Nat
  addr   : Nat
  status : Nat := 0
  r0     : Nat := 0
  r1     : Nat := 0
  done   : Bool := false
  rd     : List Rng := []
  wr     : List Rng := []
  drd    : List Rng := []
  dwr    : List Rng := []
  hurt   : List Rng := []
  dhurt  : List Rng := []
  deriving DecidableEq, Repr

/-- A slice of the lull tests under way on a site (R308, R309). -/
structure LullSlice where
  array : Nat
  saved : List Byte
  deriving DecidableEq, Repr

/-- One core site. `mark0` is CORE.INSTR_CNT at the core's last commit or relaunch, and `goal` how many instructions it had
issued from its commit when the last fault of its group came (R315). `overs` lists the row states (by their local address) whose NAN was set under R136 (R142), `pv` the
numerator slots of rows whose P tile no MM has multiplied by V yet (R139); `haz` is CORE.SEQ_CTL.HAZ_CHK as the last
launch found it (R118). DESIGN CHOICE, log entry 2. -/
structure CoreSite where
  st       : SeqState := .idle
  pc       : Nat := 0
  wait     : Waiting := .none
  waitAt   : Nat := 0
  drain    : Drain := .none
  g        : Tab GWord := []
  v        : Tab Byte := []
  d        : Tab Nat := []
  u        : Tab Nat := []
  tok      : Tab Nat := []
  ret      : List Nat := []
  lm       : Tab Byte := []
  longs    : Tab LongSlot := []
  slotArr  : Tab Nat := []
  lanes    : Tab Acc := []
  act      : Plane := {}
  shd      : Plane := {}
  shdFull  : Bool := false
  wldEver  : Bool := false
  wswpEver : Bool := false
  mt       : List (Nat × Nat) := []
  mtCount  : Nat := 0
  fly      : List Fly := []
  haz      : Bool := false
  overs    : List Nat := []
  pv       : List Nat := []
  rot      : Bool := false
  passes   : Nat := 0
  speWait  : Nat := 0
  spe      : Option SpeCmd := none
  atMark   : Option Nat := none
  mark0    : Nat := 0
  goal     : Nat := 0
  nSend    : Nat := 0
  nTsig    : Nat := 0
  dead     : Bool := false
  hbAt     : Nat := 0
  lull     : Option LullSlice := none
  deriving DecidableEq, Repr

/-- A core site after reset. -/
def CoreSite.reset : CoreSite := {}

/-- G0 to G31; G0 reads as zero (R84). -/
def CoreSite.greg (c : CoreSite) (i : Nat) : GWord := if i = 0 then 0 else Tab.get 0 c.g i

/-- Write a general register; a write to G0 is ignored (R84). -/
def CoreSite.setG (c : CoreSite) (i : Nat) (v : GWord) : CoreSite :=
  if i = 0 then c else { c with g := Tab.set 0 c.g i v }

/-- A general register as a number. -/
def CoreSite.gn (c : CoreSite) (i : Nat) : Nat := (c.greg i).toNat

/-- Bytes of local space. DESIGN CHOICE, log entry 2. -/
def CoreSite.rdLm (c : CoreSite) (a n : Nat) : List Byte := Tab.read 0 c.lm a n

/-- Write bytes of local space. -/
def CoreSite.wrLm (c : CoreSite) (a : Nat) (bs : List Byte) : CoreSite :=
  { c with lm := Tab.write 0 c.lm a bs }

/-- A unit counter. -/
def CoreSite.ctr (c : CoreSite) (i : Nat) : Nat := Tab.get 0 c.u i

def CoreSite.setCtr (c : CoreSite) (i v : Nat) : CoreSite := { c with u := Tab.set 0 c.u i v }

/-- A token count (R102). -/
def CoreSite.token (c : CoreSite) (t : Nat) : Nat := Tab.get 0 c.tok t

def CoreSite.setToken (c : CoreSite) (t v : Nat) : CoreSite := { c with tok := Tab.set 0 c.tok t v }

/-- The 512 bytes of a vector register. -/
def CoreSite.vreg (c : CoreSite) (r : Nat) : List Byte := Tab.read 0 c.v (512 * r) 512

def CoreSite.setVreg (c : CoreSite) (r : Nat) (bs : List Byte) : CoreSite :=
  { c with v := Tab.write 0 c.v (512 * r) (bs.take 512 ++ List.replicate (512 - bs.length) 0) }

/-- A descriptor register as a number; 0 when none has been loaded (no descriptor is 0). -/
def CoreSite.desc (c : CoreSite) (i : Nat) : Nat := Tab.get 0 c.d i

/-- A lane-group accumulator (R49). -/
def CoreSite.lane (c : CoreSite) (i : Nat) : Acc := Tab.get {} c.lanes i

end Sys2Proof.Machine
end

