-- ==== Sys2Proof/Machine/Shapes.lean ====
section
/-! DEFINITION. The compound operands of the commands: the loadable program (R219), a launch (R232, R287),
the errors a memory access meets (R205, R211), the results of cruise (R382) and the small closed sets of
names that the commands use. Plain data. -/

namespace Sys2Proof.Machine

/-- An initial general register: a value, to which the base of a region (R220) and the number of one of the
program's counter sets, in bits [39:32], may be added. -/
structure KArg where
  reg    : Nat
  region : Option Nat
  cset   : Option Nat := none
  value  : Nat
  deriving DecidableEq, Repr

/-- A launch kind of a kernel image: its entry address and initial general registers (R219). -/
structure KKind where
  kind  : Nat
  entry : Nat
  regs  : List KArg
  deriving DecidableEq, Repr

/-- The target of a signal-map entry as a program names it: a token of a logical core, a token of the
program's mover list n, or a raw word of R228. -/
inductive SigTarget where
  | core (lcore token : Nat)
  | list (n : Nat)
  | raw (w : Nat)
  deriving DecidableEq, Repr

/-- A logical core's kernel image with its signal map (R219, R228); `lcore` is j of R234. In the signal
map, cluster and site fields of core tokens are logical and those of mover lists name the list of the
program; the control complex binds them (R237). -/
structure KImage where
  lcore     : Nat
  image     : List Byte
  sigmap    : List (Nat × SigTarget)
  dataBytes : Nat
  cmdLa     : Nat
  kinds     : List KKind
  deriving DecidableEq, Repr

/-- A named storage region: space 0 deck, 1 HBM, 2 tier 2 (R219). -/
structure PRegion where
  space : Nat
  size  : Nat
  align : Nat
  deriving DecidableEq, Repr

/-- A fence window of a logical cluster over a region (R219). -/
structure PFence where
  region   : Nat
  readOnly : Bool
  deriving DecidableEq, Repr

/-- A stream route between two logical cores, with its entry index at each end (R219, R223, R226). -/
structure PRoute where
  src   : Nat
  srcR  : Nat
  dst   : Nat
  dstR  : Nat
  share : Nat
  buf   : Nat
  deriving DecidableEq, Repr

/-- A mover list with its owning logical cluster and the place of its ring in a deck region (R219). -/
structure PList where
  lcluster : Nat
  region   : Nat
  off      : Nat
  deriving DecidableEq, Repr

/-- A landing window over a region, with its notice target (logical core, token) (R219, R259). -/
structure PWindow where
  region : Nat
  off    : Nat
  size   : Nat
  notify : Option (Nat × Nat)
  deriving DecidableEq, Repr

/-- A tripwire declaration: the words of TLY.TW_CTLn and TLY.TW_LIMITn (R191). -/
structure PTrip where
  ctl   : Nat
  limit : Nat
  deriving DecidableEq, Repr

/-- A range fingerprint of the tally section (R280). -/
structure PRange where
  region : Nat
  off    : Nat
  words  : Nat
  cset   : Nat
  tid    : Nat
  deriving DecidableEq, Repr

/-- A loadable program (R219). `prefer` is the binding it prefers (R223's example), `rgroups` the replay group
of each logical cluster (R299), `formats` the formats it uses and `int2` whether it requires the INT2/ternary
licence, `bandwidth` and `bandwidthIn` its fabric bandwidth out of and into the device, `markIds` its replay-mark
identifiers and `retained` the regions of its retained inputs, `startStep` its starting extended step (R272); `marker` is the logical core
that issues TMARK and `markControl` is set where the control complex marks (R271). `wellFormed` says that the
file is well formed and its hash matches. -/
structure Program where
  wellFormed : Bool := true
  layoutRev  : Nat := 1
  replay     : Bool := true
  formats    : List EFmt := []
  int2       : Bool := false
  tier2      : Nat := 0
  prefer     : List Nat := []
  rgroups    : List Nat := []
  startStep  : Option Nat := none
  hash       : List Byte := []
  modelHash  : List Byte := []
  share      : List Byte := []
  jobIdent   : Nat := 0
  nclusters  : Nat := 0
  kernels    : List KImage := []
  regions    : List PRegion := []
  fences     : List (List PFence) := []
  routes     : List PRoute := []
  lists      : List PList := []
  windows    : List PWindow := []
  ngroups    : Nat := 0
  bandwidth  : Nat := 0
  bandwidthIn : Nat := 0
  nsets      : Nat := 0
  marker     : Option Nat := none
  markControl : Bool := false
  trips      : List PTrip := []
  ranges     : List PRange := []
  markArea   : Option (Nat × Nat) := none
  markIds    : List Nat := []
  retained   : List Nat := []
  sustained  : List Nat := []
  peak       : List Nat := []
  deriving DecidableEq, Repr

/-- A launch at count (R232, R234, R287). -/
structure LaunchArgs where
  job    : Nat
  kind   : Nat
  tl     : Nat
  area   : Nat
  ctr    : Nat
  seed   : Nat := 0
  ckStep : Nat := 0
  ckId   : Nat := 0
  plane  : Nat := 1
  batch  : List Nat := []
  args   : List Nat := []
  deriving DecidableEq, Repr

/-- What a deck or HBM access meets besides its data: the wrong symbols of each 64-byte sector it reads,
reports of the stack's on-die ECC, the row of the access and whether its bank has a spare row (R205,
R207, R211). -/
structure MemErr where
  bad   : List Nat := []
  od    : Nat := 0
  row   : Nat := 0
  spare : Bool := false
  deriving DecidableEq, Repr

/-- How one command row's joining device stands (R18, R255). -/
structure JoinReq where
  id    : Nat
  pair  : Bool := false
  limit : Nat := 64
  lic   : Bool := false
  deriving DecidableEq, Repr

/-- What the tests of a full cruise or quick boot found (R381 to R383). -/
structure CruiseResult where
  badSites    : List Nat := []
  badClusters : List Nat := []
  badUnits    : List Nat := []
  badRows     : List (Nat × Nat) := []
  ports       : List (Nat × Nat) := []
  deriving DecidableEq, Repr

/-- The operations that the active chiplet journals (R359). -/
inductive JOp where
  | admission | release | windowOpen | windowClose | launch | front | substitution | stepGate | jobReset
  deriving DecidableEq, Repr

/-- The instructions of the test access port (R414). -/
inductive TapOp where
  | bypass | idcode | samplePreload | extest
  deriving DecidableEq, Repr

/-- What brings a report to its aggregator (R293, R297): the oldest one under way, the record of another device that the
fabric agent has sent to the plane root, or one that a core site makes now for an error it has corrected. -/
inductive ErrSrc where
  | own
  | remote (rec : List Byte)
  | corrected (site : Fin 672) (symbol : BitVec 32)
  deriving DecidableEq, Repr

end Sys2Proof.Machine
end

