-- ==== Sys2Proof/Syntax.lean ====
section
/-! DEFINITION. The commands of the block: one constructor per row of the table of operations and events, in
the table's order. Rows of tile instructions name the core site that holds the word next and the word
itself; rows of events name what the event concerns and carry the values that come from outside the model
(measurements, symbols received, images, registers' written values). -/

namespace Sys2Proof
open Machine

inductive Instr where
  /-- NOP (R96): The sequencer issues a NOP, which does nothing. -/
  | nop (site : Fin 672) (w : IWord)
  /-- END (R98): END waits until every unit is idle, then writes CODE to the kernel's completion word and stops the sequencer. -/
  | fin (site : Fin 672) (w : IWord)
  /-- JMP (R83): Unconditional branch by a signed instruction offset. -/
  | jmp (site : Fin 672) (w : IWord)
  /-- BR (R97): Branches when two general registers satisfy COND. -/
  | br (site : Fin 672) (w : IWord)
  /-- LOOP (R97): Decrements a register and branches if the result is non-zero. -/
  | loop (site : Fin 672) (w : IWord)
  /-- CALL (R96): Pushes the return address on the return stack of 8 and branches. -/
  | call (site : Fin 672) (w : IWord)
  /-- RET (R96): Pops the return stack and branches to the popped address. -/
  | ret (site : Fin 672) (w : IWord)
  /-- WAIT (R89): Stalls the sequencer until unit counter Uu reaches n. -/
  | wait (site : Fin 672) (w : IWord)
  /-- WAIT_SATISFIED (R89): A stalled WAIT finds Uu at least n, subtracts n and lets the next instruction issue. -/
  | waitSatisfied (site : Fin 672)
  /-- FENCE (R96): Waits until every unit of the core is idle. -/
  | fence (site : Fin 672) (w : IWord)
  /-- SETI (R96): Loads a 64-bit immediate into a general register. -/
  | seti (site : Fin 672) (w : IWord)
  /-- ALU (R97): Register arithmetic with the selected function code, wrapping modulo 2^64. -/
  | alu (site : Fin 672) (w : IWord)
  /-- LDG (R96): Loads 8 bytes at a local address into a general register, 4 cycles after issue. -/
  | ldg (site : Fin 672) (w : IWord)
  /-- STG (R96): Stores 8 bytes from a general register at a local address outside the instruction region. -/
  | stg (site : Fin 672) (w : IWord)
  /-- MOVD (R99): Moves rows between local space and device addresses, one fence-checked access per row. -/
  | movd (site : Fin 672) (w : IWord)
  /-- MOVL (R99): Moves rows within local space. -/
  | movl (site : Fin 672) (w : IWord)
  /-- MOVS (R227): Sends bytes on a stream route, stalling on credits, and completes when the last byte is in the receive buffer. -/
  | movs (site : Fin 672) (w : IWord)
  /-- MOVR (R227): Waits until LEN x 16 route bytes are present and writes them to local space. -/
  | movr (site : Fin 672) (w : IWord)
  /-- ROUTE_DATA_ARRIVAL (R224): Route bytes reach the destination router's receive buffer after the mesh latency. -/
  | routeDataArrival (n : Nat)
  /-- SEND (R248): Cuts data into packets and sends them to a remote landing window, or to every target of a multicast group. -/
  | send (site : Fin 672) (w : IWord)
  /-- WLD (R104): Broadcasts a weight tile from the staging buffer into the shadow planes of all four arrays. -/
  | wld (site : Fin 672) (w : IWord)
  /-- WEIGHT_LOAD_COMPLETE (R67): The last column of a broadcast tile lands, and its residue column and row are complete. -/
  | weightLoadComplete (site : Fin 672)
  /-- WSWP (R68): Queues a swap of the shadow and active weight planes. -/
  | wswp (site : Fin 672) (w : IWord)
  /-- PLANE_SWAP (R68): The queued swap takes effect once its load is complete and the previous pass's rows have entered. -/
  | planeSwap (site : Fin 672) (waited : Nat)
  /-- MM (R105): Passes G activation rows through each selected array against the active tile. -/
  | mm (site : Fin 672) (w : IWord)
  /-- MM_ENTRY_SIGNAL (R107): Raises unit counter ENT once every row of the MM has been read from its activation buffer. -/
  | mmEntrySignal (site : Fin 672)
  /-- ACCMRG (R109): Merges N exact partials into accumulator slots. -/
  | accmrg (site : Fin 672) (w : IWord)
  /-- ACCPART (R109): Forms exact partials from N slots and optionally releases the slots. -/
  | accpart (site : Fin 672) (w : IWord)
  /-- ACCRND (R109): Rounds N slots to outputs through the epilogue and releases them. -/
  | accrnd (site : Fin 672) (w : IWord)
  /-- ACCCLR (R109): Releases N slots without reading them. -/
  | accclr (site : Fin 672) (w : IWord)
  /-- CHSET (R110): Copies a descriptor from local space into a descriptor register. -/
  | chset (site : Fin 672) (w : IWord)
  /-- CHFIN (R141): Completes G attention-chain rows by the final division and releases their slots. -/
  | chfin (site : Fin 672) (w : IWord)
  /-- VOP (R111): Element-wise vector arithmetic, rounded once per operation. -/
  | vop (site : Fin 672) (w : IWord)
  /-- VFN (R79): Applies exp2, log2, reciprocal or reciprocal square root to a vector register. -/
  | vfn (site : Fin 672) (w : IWord)
  /-- VRED (R113): Adds sums, sums of squares or dot products into the lane-group long accumulators. -/
  | vred (site : Fin 672) (w : IWord)
  /-- VACC (R113): Reads out the lane-group accumulators, as FP32 or as cells. -/
  | vacc (site : Fin 672) (w : IWord)
  /-- VCVT (R111): Converts between FP32, BF16 and FP16. -/
  | vcvt (site : Fin 672) (w : IWord)
  /-- VLD (R96): Loads a vector register from local space. -/
  | vld (site : Fin 672) (w : IWord)
  /-- VST (R96): Stores a vector register to local space. -/
  | vst (site : Fin 672) (w : IWord)
  /-- QNT (R114): Quantises FP32 values to MX blocks, with the monitor and escalation when MON = 1. -/
  | qnt (site : Fin 672) (w : IWord)
  /-- SMLD (R160): Empties the match table and loads up to COUNT K-block indices, counting any drops. -/
  | smld (site : Fin 672) (w : IWord)
  /-- SMCLR (R160): Empties the match table. -/
  | smclr (site : Fin 672) (w : IWord)
  /-- TSIG (R102): Adds COUNT to a token at its target after every earlier move completes. -/
  | tsig (site : Fin 672) (w : IWord)
  /-- TOKEN_ARRIVAL (R224): A token count reaches its target core after the mesh latency and is added exactly. -/
  | tokenArrival (n : Nat)
  /-- TWAIT (R102): Stalls the sequencer until the core's count for TOKEN reaches COUNT. -/
  | twait (site : Fin 672) (w : IWord)
  /-- TWAIT_SATISFIED (R102): A waiting TWAIT finds its token count sufficient and subtracts COUNT. -/
  | twaitSatisfied (site : Fin 672)
  /-- WAIT_LIMIT_EXPIRY (R95): A WAIT or TWAIT stalls for 2^WAIT_LIMIT cycles and raises a sequencing fault. -/
  | waitLimitExpiry (site : Fin 672) (cycles : Nat)
  /-- TMARK (R116): The designated core fences and starts a tally mark. -/
  | tmark (site : Fin 672) (w : IWord)
  /-- RMARK (R299): A core fences, writes its mark record and waits for its group's commit. -/
  | rmark (site : Fin 672) (w : IWord)
  /-- CHKEQ (R103): Compares two local ranges. -/
  | chkeq (site : Fin 672) (w : IWord)
  /-- CHKG (R103): Compares a general register with a signed immediate. -/
  | chkg (site : Fin 672) (w : IWord)
  /-- INSTRUCTION_COMPLETE (R89): A queued instruction writes its last result, and its unit counter rises in the following cycle. -/
  | instructionComplete (site : Fin 672) (u : CUnit)
  /-- SPARSE_COMMAND_START (R154): A token-0xFE unit starts the next sparse-engine command block, which begins after 40 cycles. -/
  | sparseCommandStart (site : Fin 672)
  /-- PACK (R157): Encodes block groups into an activation tile row in its smallest encoding. -/
  | pack (site : Fin 672)
  /-- UNPACK (R158): Expands a tile row into activation rows or weight staging, after checking its header. -/
  | unpack (site : Fin 672)
  /-- PREDICT (R166): Marks output blocks active or skipped from the predictor logits and writes the row bounds. -/
  | predict (site : Fin 672)
  /-- SCOUT (R168): Judges skipped blocks by the scout bound, listing make-up blocks or counting probable misses. -/
  | scout (site : Fin 672)
  /-- SPARSE_COMMAND_COMPLETE (R156): A sparse-engine command writes STATUS and its results and adds 1 to token 0xFF. -/
  | sparseCommandComplete (site : Fin 672)
  /-- DECK_LINE_OPERATION (R196): A cluster channel or service agent performs a queued line operation on a slice in its slot. -/
  | deckLineOperation (cl : Option (Fin 24)) (t : Nat) (slice : Fin 24) (port : Fin 8) (line : Fin 1310720) (wr : Bool) (mask : BitVec 512) (data : List Byte) (err : MemErr)
  /-- GATHER_BUFFER_TIMEOUT (R199): A gather entry not merged for 32 deck cycles is written into its slice. -/
  | gatherBufferTimeout (slice : Fin 24) (port : Fin 8) (line : Fin 1310720)
  /-- GATHER_BUFFER_DRAIN (R199): The control complex requests a drain of the gather buffers. -/
  | gatherBufferDrain (slice : Fin 24)
  /-- ATOMIC_ADD (R202): A slice port performs an aligned 8-byte add without return. -/
  | atomicAdd (addr : Nat) (v : BitVec 64)
  /-- DECK_SCRUB (R213): Each interval, the deck scrubs one line per slice. -/
  | deckScrub (slice : Fin 24) (err : MemErr)
  /-- HBM_ACCESS (R194): An HBM controller serves a request, correcting errors with the sector code. -/
  | hbmAccess (addr : Nat) (wr : Bool) (data : List Byte) (len : Nat) (err : MemErr)
  /-- HBM_PATROL_SCRUB (R206): An HBM controller reads and corrects every sector once each 24 h. -/
  | hbmPatrolScrub (stack : Fin 16) (err : MemErr)
  /-- HBM_RETRAIN_START (R208): A write of START to HBM.RETRAIN_CTL, or a data-bus error limit, starts channel retraining. -/
  | hbmRetrainStart (stack : Fin 16) (auto : Option (Fin 32))
  /-- HBM_RETRAIN_STEP_END (R208): A retraining step of at most 20 µs ends, and the channel serves its queue. -/
  | hbmRetrainStepEnd (stack : Fin 16) (last : Bool)
  /-- HDM_DECODER_PROGRAM (R209): The control complex programs the HDM decoders and sets the tier-2 window. -/
  | hdmDecoderProgram (caps : List Nat)
  /-- CXL_LINK_DOWN (R209): A tier-2 link goes down, so its reads return poison and its writes are dropped. -/
  | cxlLinkDown (port : Fin 4)
  /-- CXL_INBOUND_REQUEST (R210): An endpoint memory request reaches the HBM reserved region or is refused and counted. -/
  | cxlInboundRequest (port : Fin 4) (addr : Nat) (wr : Bool) (data : List Byte) (len : Nat)
  /-- MOVER_COMMAND_START (R230): A unit of count starts the next command block of a bound mover list. -/
  | moverCommandStart (m : Fin 6) (l : Fin 16)
  /-- MOVER_COPY (R230): A mover copies rows under fence checks and stops at the first refused row. -/
  | moverCopy (m : Fin 6) (l : Fin 16)
  /-- MOVER_COPY_COMPLETE (R203): A mover command writes STATUS and adds 1 to its completion word. -/
  | moverCopyComplete (m : Fin 6) (l : Fin 16)
  /-- CTL_MOVER_GO (R204): A write to ROOT.CTL_MOVER_GO starts the next command of mover m's control list. -/
  | ctlMoverGo (m : Fin 8)
  /-- ADMISSION (R235): The control complex checks a program in order and either binds a job partition or refuses with a code. -/
  | admission (p : Program)
  /-- JOB_PARTITION_RELEASE (R237): The control complex closes windows, clears bindings and returns the partition's resources. -/
  | jobPartitionRelease (job : Fin 256)
  /-- LAUNCH (R232): The control complex issues a launch at count, loading the state of every core of the partition. -/
  | launch (a : LaunchArgs)
  /-- KERNEL_START (R232): At DEV_TIME T_L, a core issues its first instruction and writes STATE 1. -/
  | kernelStart (site : Fin 672)
  /-- CL_TSIG (R238): A write to CL.TSIG adds one token unit or starts one mover command on behalf of the control complex. -/
  | clTsig (c : Fin 24) (v : BitVec 32)
  /-- PORT_TRAINING (R240): A port trains at the widest width it can reach, or goes down. -/
  | portTraining (p : Fin 40) (lanes : BitVec 9) (farSwitch : Bool) (farId : Fin 4096)
  /-- LPT_RETRAIN (R240): A write of START to LPT.RETRAIN_CTL retrains a port from x8. -/
  | lptRetrain (p : Fin 40) (lanes : BitVec 9)
  /-- LANE_FAILURE (R241): A lane fails; the spare takes over, or the port retrains on its remaining lanes. -/
  | laneFailure (p : Fin 40) (lane : Fin 9) (lanes : BitVec 9) (errs : Option Nat := none)
  /-- PORT_DOWN (R242): A port goes down in service, and its unacknowledged packets are answered LINK_LOST. -/
  | portDown (p : Fin 40)
  /-- FLIT_RECEIVE (R243): A flit arrives; it is CRC-checked, accepted in sequence or dropped, and its acks and credits are applied. -/
  | flitReceive (p : Fin 40) (flit : List Byte) (corr : Nat) (unc : Nat)
  /-- LINK_REPLAY (R244): A sender resends every unacknowledged flit in order and counts one replay. -/
  | linkReplay (p : Fin 40)
  /-- ACK_TIMEOUT (R244): 10 µs pass without an acknowledgement, which triggers a replay. -/
  | ackTimeout (p : Fin 40)
  /-- DATA_PACKET_ARRIVAL (R252): A data packet is checked against its window's state and either takes landing buffer space or is refused with an answer. -/
  | dataPacketArrival (lc : Fin 10) (n : Nat)
  /-- LANDING_WRITE_ACCEPTED (R253): Memory accepts every byte of a landed packet, its buffer space is freed and the answer OK is sent. -/
  | landingWriteAccepted (lc : Fin 10) (n : Nat)
  /-- ANSWER_ARRIVAL (R251): An answer packet gives an unanswered packet its final answer, or is discarded. -/
  | answerArrival (lc : Fin 10) (n : Nat)
  /-- NO_BUFFER_RETRY (R252): A packet answered NO_BUFFER is resent after its doubling back-off, or finalised at age 9,000 µs. -/
  | noBufferRetry (lc : Fin 10) (slot : Fin 4096)
  /-- PACKET_TIMEOUT (R251): A packet unanswered for 20 ms receives the local answer TIMEOUT. -/
  | packetTimeout (lc : Fin 10) (slot : Fin 4096)
  /-- LIFETIME_DISCARD (R258): A packet whose age reaches 9,900 µs is discarded without an answer. -/
  | lifetimeDiscard (lc : Fin 10) (n : Nat)
  /-- NOTICE_ARRIVAL (R254): A destination applies notices in NSEQ order, holding early ones, and adds to the NOTIFY token. -/
  | noticeArrival (lc : Fin 10) (n : Nat)
  /-- NOTICE_RETRANSMIT (R254): A notice unacknowledged for 20 µs is sent again. -/
  | noticeRetransmit (dev : Fin 4096) (nseq : Fin 65536)
  /-- NOTICE_ACK_ARRIVAL (R254): An acknowledgement of a notice frees its slot among the 1,024 outstanding. -/
  | noticeAckArrival (dev : Fin 4096) (nseq : Fin 65536)
  /-- PARTNER_PROBE (R256): Every 1 ms the fabric agent probes a suspect partner on the control channel. -/
  | partnerProbe (dev : Fin 4096)
  /-- PROBE_ANSWER (R256): The first answered probe returns a suspect context to ACTIVE. -/
  | probeAnswer (dev : Fin 4096)
  /-- PLANE_JOIN (R255): A device joins a plane at a tally mark, or the join is refused and reported. -/
  | planeJoin (q : JoinReq)
  /-- PLANE_LEAVE (R255): A device leaves at a tally mark, and its partner contexts become ABSENT. -/
  | planeLeave (dev : Fin 4096)
  /-- PORT_SET_UPDATE (R257): The fabric agent recomputes the port sets and writes them into all link chiplets. -/
  | portSetUpdate (reach : List (Nat × Nat))
  /-- JOB_TAG_REQUEST (R261): The plane root assigns the lowest free fabric job tag to a job. -/
  | jobTagRequest (dev : Fin 4096) (hash : List Byte) (ident : Nat) (given : Fin 65536)
  /-- JOB_TAG_RELEASE (R261): A tag returns to the root's free set when the last device of its job releases it. -/
  | jobTagRelease (dev : Fin 4096) (tag : Fin 65536)
  /-- WINDOW_OPEN (R260): LWT.CMD OPEN checks the window and either raises GEN and opens it in all chiplets or refuses. -/
  | windowOpen (v : BitVec 32)
  /-- WINDOW_CLOSE (R262): LWT.CMD CLOSE sets CLOSING in all chiplets, after which arriving packets are refused. -/
  | windowClose (v : BitVec 32)
  /-- WINDOW_CLOSE_COMPLETE (R262): Once the packets already accepted are in memory, the window becomes CLOSED and CLOSED_AT is set. -/
  | windowCloseComplete
  /-- WINDOW_NOTIFY_CHANGE (R263): Rewriting the notice target of an open window holds its notices until every chiplet has the new target. -/
  | windowNotifyChange (v : BitVec 32)
  /-- MULTICAST_ENTRY_WRITE (R264): A write to a multicast group entry is taken, or refused if it leaves the plane. -/
  | multicastEntryWrite (v : BitVec 32)
  /-- MARK_CMD_MARK (R271): The control complex writes MARK to take a tally mark when SOURCE = 2. -/
  | markCmdMark
  /-- MARK_ARRIVAL (R274): A mark reaches the tally unit, or waits while an earlier mark is busy or held. -/
  | markArrival
  /-- RANGE_FINGERPRINT_READ (R280): Before the latch, the tally unit reads every enabled range and adds its fingerprint terms. -/
  | rangeFingerprintRead (n : Fin 16)
  /-- TALLY_LATCH (R275): The tally unit latches every counter set and device count, restarts them and advances the step. -/
  | tallyLatch
  /-- TALLY_CONTRIBUTION_ARRIVAL (R273): Counts, AMAX values and fingerprint terms reach the tally unit. -/
  | tallyContributionArrival
  /-- HOLD_REQ (R283): A write of HOLD_REQ requests a hold at the mark that closes the open window. -/
  | holdReq
  /-- RELEASE (R284): A write of RELEASE ends a hold on a single device. -/
  | release
  /-- STEP_GATE_INPUT (R285): A device's gate inputs reach its parent in the gate tree. -/
  | stepGateInput (dev : Fin 4096) (step : BitVec 32) (good : Bool)
  /-- STEP_GATE_DECISION (R285): The root decides GO or HOLD for the step and returns the decision to every device. -/
  | stepGateDecision (go : Bool)
  /-- GATE_INPUT_TIMEOUT (R286): A child's input is missing 1 ms after the parent's first, so the parent reports HOLD and names the device. -/
  | gateInputTimeout (dev : Fin 4096)
  /-- GATE_DECISION_TIMEOUT (R286): No decision arrives within 1 ms, so the device takes its parent as missing and the tree is repaired. -/
  | gateDecisionTimeout
  /-- TWIN_DIGEST_ARRIVAL (R289): A twin's digest arrives and is compared, and a mismatch holds the gate and starts local replays. -/
  | twinDigestArrival (digest : List Byte)
  /-- TWIN_REPLAY_COMPLETE (R291): The four digests are decided: adopt, quarantine or unresolved. -/
  | twinReplayComplete (own : Option (List Byte)) (twin : Option (List Byte)) (state : List (Nat × List Byte) := [])
  /-- TWIN_DIGEST_TIMEOUT (R321): A twin's digest is missing 1 ms after the other's, so the twin is treated as quarantined. -/
  | twinDigestTimeout
  /-- PLANE_REJOIN (R321): A quarantined plane that has replayed to the held step is released with its twin at one gate. -/
  | planeRejoin (digest : List Byte)
  /-- CLUSTER_COMMIT (R299): When every core of a group has executed RMARK, the group commits its contributions, mark records, token snapshots and ledgers. -/
  | clusterCommit (c : Fin 24)
  /-- ERROR_REPORT (R296): A report is folded into an open record or opens a new one, closing the oldest early if the store is full. -/
  | errorReport (src : ErrSrc := .own)
  /-- RECORD_CLOSE (R296): A record closes 100 ms after it opens, and its final ECHO is written. -/
  | recordClose (agg : Fin 25) (n : Nat)
  /-- RING_BASE_WRITE (R298): A valid RING_BASE enables the ring and flushes the early store in RSEQ order. -/
  | ringBaseWrite (v : BitVec 64)
  /-- CAPTURE_SLOT_FREE (R325): A 1 written to an ERR.CAPTURE bit frees that capture slot. -/
  | captureSlotFree (v : BitVec 16)
  /-- GROUP_REPLAY (R304): A group stops, is restored from its last commit and is relaunched at count. -/
  | groupReplay (c : Fin 24)
  /-- RESIDUE_REPLAY_COMPLETE (R306): A rotated replay completes its interval: the mismatch is confirmed, or repeats and the site is dead. -/
  | residueReplayComplete (site : Fin 672)
  /-- LULL_SLICE_START (R308): An eligible core site starts a lull-test slice, saving the state it disturbs. -/
  | lullSliceStart (site : Fin 672) (array : Fin 4) (outcome : Fin 4) (buddy : Fin 672 := 0)
  /-- LULL_SLICE_YIELD (R309): A slice restores state and yields within 2 µs of a wait's satisfaction, a launch, a request or its time limit. -/
  | lullSliceYield (site : Fin 672)
  /-- HEARTBEAT (R311): A core site sends its heartbeat every 1 µs to its cluster's health monitor. -/
  | heartbeat (site : Fin 672)
  /-- HEARTBEAT_TIMEOUT (R311): No heartbeat for 8 µs, so the site dies and class 0x8 code 0x01 is raised. -/
  | heartbeatTimeout (site : Fin 672)
  /-- CORE_SUBSTITUTION (R312): A dead site's work moves to a row spare or a standby cluster, and its bindings are rewritten. -/
  | coreSubstitution (site : Fin 672)
  /-- CLUSTER_PARTITION_RESET (R314): An uncorrectable core-memory error or poison resets the cluster partition and runs a march. -/
  | clusterPartitionReset (site : Fin 672)
  /-- MEMORY_MARCH_COMPLETE (R314): The march ends: the replay runs on the same cluster, or the site is substituted. -/
  | memoryMarchComplete (site : Fin 672) (pass : Bool)
  /-- JOB_PARTITION_RESET (R318): Every core of the partition is stopped, its windows are closed and the partition is released. -/
  | jobPartitionReset (job : Fin 256)
  /-- REFERENCE_SWITCH (R328): A region's generator changes to the next live reference source glitch-free. -/
  | referenceSwitch (r : Fin 36) (live : BitVec 38)
  /-- REFERENCE_LOSS (R328): A region with no live source for 10 µs stops its clock and is relocked from the tree. -/
  | referenceLoss (r : Fin 36) (live : BitVec 38)
  /-- TREE_CLOCK_SET (R330): The tree clock loads a region's DEV_TIME, after which the region returns to its reference. -/
  | treeClockSet (r : Fin 36)
  /-- DEV_TIME_STEP (R332): A write to ROOT.DEV_TIME steps every counter forward in the permitted cases. -/
  | devTimeStep (v : BitVec 64)
  /-- RATE_WORD_CHANGE (R332): At TIME_RATE_AT, every counter takes the new rate word. -/
  | rateWordChange
  /-- PTP_SYNC_RECEIVE (R333): A PTP Sync message on a management port updates the offset estimate. -/
  | ptpSyncReceive (port : Fin 2) (gm : BitVec 64) (bound : Nat)
  /-- PTP_OFFSET_BOUND_EXCEEDED (R333): The bound on the offset exceeds 40 µs, so class 0x7 code 0x0B is raised and a hold is requested. -/
  | ptpOffsetBoundExceeded (bound : Nat)
  /-- PTP_SYNC_LOSS (R362): No Sync on the steering port for 1 s, so steering moves to the standby's measurements. -/
  | ptpSyncLoss
  /-- FRONT_ARM (R335): A write of ARM announces a front, or the front is refused with a RESULT code. -/
  | frontArm (v : BitVec 32)
  /-- FRONT_CANCEL (R336): CANCEL withdraws a pending front before its ramp begins. -/
  | frontCancel
  /-- FRONT_RAMP_START (R336): Regulator banks start ramping up ahead of T_F, or ramp down from T_F + 1 µs. -/
  | frontRampStart
  /-- FRONT_DIVIDER_CHANGE (R336): Each region changes its divider at its first clock boundary at or after T_F. -/
  | frontDividerChange (r : Fin 30)
  /-- DROOP_STRETCH (R337): A supply droop lengthens the region's next permitted period by half. -/
  | droopStretch (r : Fin 30) (mv : Nat)
  /-- PACE_GROUP_START (R343): A new group of 16 cycles takes the current pace level. -/
  | paceGroupStart (r : Fin 30)
  /-- SQUALL_TRIGGER (R344): A current slope above the threshold raises the squall pace request. -/
  | squallTrigger (r : Fin 30) (slope : Nat)
  /-- SQUALL_DECAY (R344): After 1 µs below the threshold, the squall request falls by 1 each µs. -/
  | squallDecay (r : Fin 30) (slope : Nat)
  /-- CURRENT_GOVERNOR_TICK (R345): Each µs the current governor adjusts its pace request from the 10 µs average. -/
  | currentGovernorTick (r : Fin 30) (amps : Nat)
  /-- SWITCH_ON_REQUEST (R346): ON_REQ requests a region on, which is granted or deferred. -/
  | switchOnRequest (r : Fin 30)
  /-- SWITCH_ON_RECHECK (R346): A deferred switch-on is checked again every 10 µs, and after 1 ms blocking neighbours are paced. -/
  | switchOnRecheck (r : Fin 30)
  /-- REGION_RAMP_END (R347): A granted region's 50 µs ramp ends and the region locks its clock. -/
  | regionRampEnd (r : Fin 30)
  /-- REGION_READY (R347): A locked region has its DEV_TIME set and its reset released. -/
  | regionReady (r : Fin 30)
  /-- THERMAL_SAMPLE (R348): Every 10 µs the region sensors are sampled to give the region temperature. -/
  | thermalSample (r : Fin 36) (temps : List Int)
  /-- THERMAL_PACE_TICK (R348): Every 100 µs the thermal pace request rises or falls with the temperature. -/
  | thermalPaceTick (r : Fin 30)
  /-- HEAT_SWITCH_OFF (R349): A region held at OFF_C or at full pace is drained to a standby cluster and switched off. -/
  | heatSwitchOff (r : Fin 24)
  /-- THERMAL_TRIP (R350): A sensor at the sealed trip switches its region off within 10 µs. -/
  | thermalTrip (r : Fin 36)
  /-- PHASE_FAILURE (R342): A regulator phase fails and is disabled, and the region is limited or goes dark. -/
  | phaseFailure (r : Fin 36) (phase : Fin 48)
  /-- CONVERTER_FAILURE (R341): A vertical converter fails, its load is shared and the power threshold is lowered. -/
  | converterFailure (n : Fin 72)
  /-- MODULE_POWER_GOVERNOR (R351): The 1 ms input average exceeds 14 kW, which raises the MODULE pace request stepwise. -/
  | modulePowerGovernor (watts : Nat)
  /-- MODULE_POWER_TRIP (R352): A trip switches off compute, deck, HBM and link chiplets and resets every job partition. -/
  | modulePowerTrip (watts : Nat)
  /-- MODULE_RESTART (R352): No sooner than 1 s after a trip, the module powers up again from the powering of regions. -/
  | moduleRestart
  /-- TELEMETRY_INTERVAL (R354): Each 1 ms interval's energy per domain is accumulated into the counters and the tally. -/
  | telemetryInterval (samples : List (Nat × Nat))
  /-- CTRL_CLAIM (R357): A write of CLAIM claims or renews the control lease in each port chiplet. -/
  | ctrlClaim (cc : Fin 2)
  /-- CTRL_RELEASE (R357): A write of RELEASE frees the lease held by the writing chiplet. -/
  | ctrlRelease (cc : Fin 2)
  /-- FAILOVER (R360): The active lease expires, and the standby claims it and completes the journalled operations. -/
  | failover
  /-- JOURNAL_ENTRY (R359): The active chiplet journals a step of a multi-step operation to the standby. -/
  | journalEntry (op : JOp) (arg : Nat) (done : Bool) (ack : Bool) (step : Nat := 0)
  /-- JOURNAL_ACK_TIMEOUT (R359): The standby has not acknowledged for 1 ms, so class 0x9 code 0x03 is raised. -/
  | journalAckTimeout
  /-- SEAL_SET (R374): A write of SET seals the governors until 36 V is removed. -/
  | sealSet (cc : Fin 2)
  /-- EXPERT_ENABLE (R367): A write to EXPERT_CTL.EN enables the expert banks when licensed, and raises class 0x9 code 0x05. -/
  | expertEnable (v : BitVec 32)
  /-- REGISTER_WRITE (R7): A write to a register without behaviour of its own sets its fields by their access codes. -/
  | registerWrite (cc : Fin 2) (addr : Nat) (size : Nat) (v : BitVec 64)
  /-- MGMT_FRAME_SEND (R363): A management frame is sent under the egress cap, queued, or dropped and counted. -/
  | mgmtFrameSend (port : Fin 2) (bytes : Nat) (ptp : Bool)
  /-- POWER_ARRIVAL (R376): 36 V arrives and both control ROMs start the boot sequence. -/
  | powerArrival
  /-- STAGE1_IMAGE_RECEIVE (R378): A ROM without a valid stage 1 verifies a signed image received on its management port. -/
  | stage1ImageReceive (cc : Fin 2) (obj : List Byte)
  /-- PTP_WAIT_TIMEOUT (R379): No Sync arrives within 10 s, so DEV_TIME starts from zero with SYNCED = 0. -/
  | ptpWaitTimeout
  /-- DEV_TIME_REBASE (R379): Once no partition is admitted, DEV_TIME is stepped to the grandmaster and SYNCED is set. -/
  | devTimeRebase (gm : BitVec 64)
  /-- COMPUTE_POWER_UP (R380): Deck, network and cluster regions are switched on in their set order at operating point 4. -/
  | computePowerUp
  /-- CRUISE (R382): The cruise tests end and the blaze map is revised with unit roles. -/
  | cruise (q : CruiseResult)
  /-- BLAZE_MAP_REVISION (R385): The control complex writes a signed blaze map revision and extends MEAS4. -/
  | blazeMapRevision
  /-- FIRMWARE_BROADCAST (R387): Mover M0 broadcasts the cluster firmware over the mesh, and each cluster checks its digests. -/
  | firmwareBroadcast (obj : List Byte) (bad : List Nat)
  /-- INSTALL_LICENCE (R397): SEC.CMD operation 1 verifies and installs or cancels a licence. -/
  | installLicence
  /-- ATTEST (R395): SEC.CMD operation 2 assembles and signs an attestation report. -/
  | attest
  /-- EXTEND_MEAS (R394): SEC.CMD operation 3 extends a measurement register with CMD_DATA. -/
  | extendMeas
  /-- SIGN_BLAZE_MAP (R385): SEC.CMD operation 4 signs a blaze map revision with the identity key. -/
  | signBlazeMap
  /-- RAISE_SVN_FLOOR (R392): SEC.CMD operation 5 raises a type's SVN floor to the image in force. -/
  | raiseSvnFloor
  /-- LICENCE_EXPIRY (R397): DEV_TIME passes a licence's NOT_AFTER, and the engine removes it. -/
  | licenceExpiry (id : BitVec 64)
  /-- CLUSTER_FIRMWARE_UPDATE (R399): A cluster is drained to a standby, reloaded, tested and made standby. -/
  | clusterFirmwareUpdate (c : Fin 24) (obj : List Byte)
  /-- CONTROL_FIRMWARE_UPDATE (R398): The standby is updated and a planned failover moves the role to it. -/
  | controlFirmwareUpdate (stage1 : List Byte) (os : List Byte)
  /-- LINK_CHIPLET_UPDATE (R398): A link chiplet's ports leave the port sets at a mark, it is reloaded and its ports rejoin. -/
  | linkChipletUpdate (lc : Fin 10) (obj : List Byte) (lanes : List Nat)
  /-- LANE_CALIBRATION (R398): The free spare takes a lane while that lane is recalibrated. -/
  | laneCalibration (p : Fin 40) (lane : Fin 9)
  /-- PORT_CHIPLET_UPDATE (R398): A port chiplet with no tier-2 region in use is reloaded, with its root ports down for about 1 s. -/
  | portChipletUpdate (pc : Fin 2) (obj : List Byte)
  /-- SENSOR_CALIBRATION (R398): One sensor of a region is calibrated against the region's reference sensor. -/
  | sensorCalibration (r : Fin 36) (sensor : Fin 8)
  /-- MOD_RST_N_ASSERT (R405): MOD_RST_N low opens the input isolation as though 36 V were absent. -/
  | modRstNAssert
  /-- MOD_RST_N_RELEASE (R405): MOD_RST_N high closes the isolation and starts time 0 of power-on. -/
  | modRstNRelease
  /-- INPUT_UNDERVOLTAGE (R404): Input below 31.0 V for 50 µs acts as a module power trip. -/
  | inputUndervoltage
  /-- INPUT_OVERVOLTAGE (R404): Input above 41.0 V for 50 µs acts as a module power trip. -/
  | inputOvervoltage
  /-- CONTROL_UNDERVOLTAGE (R404): Input below 26.0 V for 50 µs opens the isolation, as the removal of 36 V. -/
  | controlUndervoltage
  /-- ISOLATION_OVERVOLTAGE (R404): Input above 44.0 V for 10 µs opens the isolation, as the removal of 36 V. -/
  | isolationOvervoltage
  /-- REFCLK_LOSS (R408): Both reference inputs absent for 10 µs cause a module trip until one returns. -/
  | refclkLoss
  /-- READ_REG (R412): SMBus command reading one 32-bit register of a ROOT or RGN page. -/
  | readReg (g : BitVec 8) (i : BitVec 16) (off : BitVec 16)
  /-- INPUT (R412): SMBus command returning the blade voltage, current and power. -/
  | inputRead
  /-- ALERT_STATUS (R412): SMBus command returning the alert bits. -/
  | alertStatus
  /-- ALERT_CLEAR (R412): SMBus command clearing each alert bit written as 1. -/
  | alertClear (v : BitVec 16)
  /-- IDENT (R412): SMBus command returning DEV_ID, DEV_REV and SERIAL. -/
  | ident
  /-- TAP_INSTRUCTION (R414): The JTAG TAP executes BYPASS or IDCODE, and with JTAG_EN also SAMPLE/PRELOAD and EXTEST. -/
  | tapInstruction (op : TapOp) (pins : List Nat)
  /-- TRST_N_RESET (R414): TRST_N low resets the TAP. -/
  | trstNReset
  /-- CXL_LINK_UP (R209): A tier-2 root-port link comes up, so its addresses stop returning poison and PCH.PORT_STATUS shows the link again. -/
  | cxlLinkUp (port : Fin 4) (width : Fin 6) (rate : Fin 7) (cxl : Bool)
  /-- MANAGEMENT_PORT_DOWN (R370): A management port's link goes down, which raises class 0x9 code 0x06 and sets ROOT PAGE_EVENT bit 4. -/
  | managementPortDown (port : Fin 2)
  /-- CONTROL_CHIPLET_RESTART (R377): A failed or stopped control chiplet is restarted alone, its ROM meets the seal, compares LIMITS_ID and joins as standby or stays out of service. -/
  | controlChipletRestart (cc : Fin 2)
  /-- SEQUENCER_PARITY_ERROR (R311): A core site's sequencer detects a parity error in its own state, and the site dies with a class 0x8 code 0x01 report. -/
  | sequencerParityError (site : Fin 672)
  deriving DecidableEq, Repr

end Sys2Proof
end

