-- ==== Sys2Proof/WellFormed.lean ====
section
/-! DEFINITION. Which commands are well formed: their lists and sizes have the lengths that the spec gives them. The
meaning of a command that is not well formed is still total. -/

namespace Sys2Proof
open Machine

/-- What is wrong with a command. -/
inductive Defect where
  /-- A deck line holds 512 bytes (R192). -/
  | lineLength
  /-- A flit holds 256 bytes (R243). -/
  | flitLength
  /-- A digest holds 64 bytes (R276, R289). -/
  | digestLength
  /-- There are four root ports (R209). -/
  | portCount
  /-- A link chiplet has four ports (R239). -/
  | laneSets
  /-- A control access has 4 or 8 bytes (R5). -/
  | accessSize
  /-- A control access is aligned to its size (R5). -/
  | misaligned
  /-- A region has at least one sensor reading (R348). -/
  | noReading
  /-- An error record holds 64 bytes (R294). -/
  | recordLength
  /-- The buddy of a lull-test slice lies in another cluster (R310). -/
  | buddyHere
  deriving DecidableEq, Repr

/-- The first defect of a command; none for a well-formed one. -/
def Instr.defect : Instr → Option Defect
  | .deckLineOperation _ _ _ _ _ wr _ data _ => if wr && data.length != 512 then some .lineLength else none
  | .flitReceive _ flit _ _ => if flit.length ≠ 256 then some .flitLength else none
  | .jobTagRequest _ hash _ _ => if hash.length ≠ 64 then some .digestLength else none
  | .twinDigestArrival d => if d.length ≠ 64 then some .digestLength else none
  | .planeRejoin d => if d.length ≠ 64 then some .digestLength else none
  | .twinReplayComplete a b _ => if (a.all fun d => d.length == 64) && (b.all fun d => d.length == 64) then none else some .digestLength
  | .hdmDecoderProgram caps => if caps.length ≠ 4 then some .portCount else none
  | .linkChipletUpdate _ _ lanes => if lanes.length ≠ 4 then some .laneSets else none
  | .registerWrite _ addr size _ =>
    if size ≠ 4 ∧ size ≠ 8 then some .accessSize else if addr % size ≠ 0 then some .misaligned else none
  | .errorReport (.remote rec) => if rec.length ≠ 64 then some .recordLength else none
  | .errorReport _ => none
  | .lullSliceStart site _ outcome buddy => if 2 ≤ outcome.val && site.val / 28 == buddy.val / 28 then some .buddyHere else none
  | .thermalSample _ temps => if temps.isEmpty then some .noReading else none
  | .nop .. | .fin .. | .jmp .. | .br .. | .loop .. | .call .. | .ret .. | .wait .. | .waitSatisfied .. | .fence ..
  | .seti .. | .alu .. | .ldg .. | .stg .. | .movd .. | .movl .. | .movs .. | .movr .. | .routeDataArrival ..
  | .send .. | .wld .. | .weightLoadComplete .. | .wswp .. | .planeSwap .. | .mm .. | .mmEntrySignal .. | .accmrg ..
  | .accpart .. | .accrnd .. | .accclr .. | .chset .. | .chfin .. | .vop .. | .vfn .. | .vred .. | .vacc ..
  | .vcvt .. | .vld .. | .vst .. | .qnt .. | .smld .. | .smclr .. | .tsig .. | .tokenArrival .. | .twait ..
  | .twaitSatisfied .. | .waitLimitExpiry .. | .tmark .. | .rmark .. | .chkeq .. | .chkg .. | .instructionComplete ..
  | .sparseCommandStart .. | .pack .. | .unpack .. | .predict .. | .scout .. | .sparseCommandComplete ..
  | .gatherBufferTimeout .. | .gatherBufferDrain .. | .atomicAdd .. | .deckScrub .. | .hbmAccess ..
  | .hbmPatrolScrub .. | .hbmRetrainStart .. | .hbmRetrainStepEnd .. | .cxlLinkDown .. | .cxlInboundRequest ..
  | .moverCommandStart .. | .moverCopy .. | .moverCopyComplete .. | .ctlMoverGo .. | .admission ..
  | .jobPartitionRelease .. | .launch .. | .kernelStart .. | .clTsig .. | .portTraining .. | .lptRetrain ..
  | .laneFailure .. | .portDown .. | .linkReplay .. | .ackTimeout .. | .dataPacketArrival ..
  | .landingWriteAccepted .. | .answerArrival .. | .noBufferRetry .. | .packetTimeout .. | .lifetimeDiscard ..
  | .noticeArrival .. | .noticeRetransmit .. | .noticeAckArrival .. | .partnerProbe .. | .probeAnswer ..
  | .planeJoin .. | .planeLeave .. | .portSetUpdate .. | .jobTagRelease .. | .windowOpen .. | .windowClose ..
  | .windowCloseComplete .. | .windowNotifyChange .. | .multicastEntryWrite .. | .markCmdMark .. | .markArrival ..
  | .rangeFingerprintRead .. | .tallyLatch .. | .tallyContributionArrival .. | .holdReq .. | .release ..
  | .stepGateInput .. | .stepGateDecision .. | .gateInputTimeout .. | .gateDecisionTimeout .. | .twinDigestTimeout ..
  | .clusterCommit .. | .recordClose .. | .ringBaseWrite .. | .captureSlotFree .. | .groupReplay ..
  | .residueReplayComplete .. | .lullSliceYield .. | .heartbeat .. | .heartbeatTimeout ..
  | .coreSubstitution .. | .clusterPartitionReset .. | .memoryMarchComplete .. | .jobPartitionReset ..
  | .referenceSwitch .. | .referenceLoss .. | .treeClockSet .. | .devTimeStep .. | .rateWordChange ..
  | .ptpSyncReceive .. | .ptpOffsetBoundExceeded .. | .ptpSyncLoss .. | .frontArm .. | .frontCancel ..
  | .frontRampStart .. | .frontDividerChange .. | .droopStretch .. | .paceGroupStart .. | .squallTrigger ..
  | .squallDecay .. | .currentGovernorTick .. | .switchOnRequest .. | .switchOnRecheck .. | .regionRampEnd ..
  | .regionReady .. | .thermalPaceTick .. | .heatSwitchOff .. | .thermalTrip .. | .phaseFailure ..
  | .converterFailure .. | .modulePowerGovernor .. | .modulePowerTrip .. | .moduleRestart .. | .telemetryInterval ..
  | .ctrlClaim .. | .ctrlRelease .. | .failover .. | .journalEntry .. | .journalAckTimeout .. | .sealSet ..
  | .expertEnable .. | .mgmtFrameSend .. | .powerArrival .. | .stage1ImageReceive .. | .ptpWaitTimeout ..
  | .devTimeRebase .. | .computePowerUp .. | .cruise .. | .blazeMapRevision .. | .firmwareBroadcast ..
  | .installLicence .. | .attest .. | .extendMeas .. | .signBlazeMap .. | .raiseSvnFloor .. | .licenceExpiry ..
  | .clusterFirmwareUpdate .. | .controlFirmwareUpdate .. | .laneCalibration .. | .portChipletUpdate ..
  | .sensorCalibration .. | .modRstNAssert .. | .modRstNRelease .. | .inputUndervoltage .. | .inputOvervoltage ..
  | .controlUndervoltage .. | .isolationOvervoltage .. | .refclkLoss .. | .readReg .. | .inputRead ..
  | .alertStatus .. | .alertClear .. | .ident .. | .tapInstruction .. | .trstNReset .. | .cxlLinkUp ..
  | .managementPortDown .. | .controlChipletRestart .. | .sequencerParityError .. => none

/-- A command is well formed. -/
def Instr.wf (i : Instr) : Bool := i.defect.isNone

end Sys2Proof
end

