-- ==== Sys2Proof/Decode.lean ====
section
/-! DEFINITION. The command that a word of the operation table spells. No row of the table gives bits: a command
comes from outside with its operands, so no word spells one. -/

namespace Sys2Proof

/-- No row of the table gives bits, so a word spells no command. DESIGN CHOICE, log entry 1. -/
def decodeTableWord (_nbits _w : Nat) : Option Instr := none

end Sys2Proof
end

