-- ==== Sys2Proof/Config.lean ====
section
/-! DEFINITION. What an implementation fixes and what the spec leaves open: opaque constants, so that no
proof can see a value of one. -/

namespace Sys2Proof

/-- A byte the spec leaves undefined (R91, R155): a fresh one for every place of the counter.
DESIGN CHOICE, log entry 6. -/
opaque Config.freeByte : Nat → Byte

/-- A 64-bit value the spec leaves undefined, a fresh one for every place of the counter.
DESIGN CHOICE, log entry 6. -/
opaque Config.freeWord : Nat → BitVec 64

/-- Whether the energy of a 1 ms interval, a product that is no whole number of µJ, is rounded up (R354).
DESIGN CHOICE, log entry 42. -/
opaque Config.energyUp : Nat → Nat → Bool

/-- Whether an ML-DSA-87 signature over a message verifies under a public key (R388; FIPS 204).
DESIGN CHOICE, log entry 4. -/
opaque Config.mldsaVerify : (key msg sig : List Byte) → Bool

/-- The signature of a message by the private key of a control chiplet (R388, R393), a fresh one for every place of
the counter. DESIGN CHOICE, log entry 4. -/
opaque Config.mldsaSign : (chip place : Nat) → (msg : List Byte) → List Byte

/-- ROOT.SERIAL: the module's serial number (R369). DESIGN CHOICE, log entry 4. -/
opaque Config.serial : BitVec 64

/-- The digest of Narwidar's root public key as fused into a control chiplet (R377).
DESIGN CHOICE, log entry 4. -/
opaque Config.rootDigest : (chip : Nat) → List Byte

/-- The identity public key of a control chiplet (R393). DESIGN CHOICE, log entry 4. -/
opaque Config.idKey : (chip : Nat) → List Byte

/-- The SVN floor fused for an object type at manufacture (R392). DESIGN CHOICE, log entry 4. -/
opaque Config.svnFloor : (cc type : Nat) → BitVec 6

/-- Where in the reserved region of stack 0 the control complex keeps the replay capsules (R287), in units of 512 KiB.
DESIGN CHOICE, log entry 30. -/
opaque Config.capsuleArea : Fin 4000

/-- Where in the reserved region of stack 0 the save areas of lull-test slices lie (R309), in units of 2 MiB.
DESIGN CHOICE, log entry 36. -/
opaque Config.lullArea : Fin 1000

/-- The rate word that the operating system steers to (R333): from DEV_TIME less the grandmaster's time, in ns, and the
rate word in force. DESIGN CHOICE, log entry 38. -/
opaque Config.steer : (offset : Int) → (rate : Nat) → BitVec 18

/-- The flit credits that a port grants its far end on a channel when it has trained: its buffer (R245).
DESIGN CHOICE, log entry 24. -/
opaque Config.vcBuffer : (channel : Nat) → Fin 256

/-- The signed objects that manufacture puts into both flash devices (R377, R389, R393, R410), by type and place
(type 0: the root public key; type 8: the manufacturing public key and its signature of the blaze map).
DESIGN CHOICE, log entry 58. -/
opaque Config.flashObject : (place type : Nat) → List Byte

/-- The standby clusters of the blaze map as shipped: any two (R14): the first, and how far on the second lies.
DESIGN CHOICE, log entry 58. -/
opaque Config.standby : Fin 24 × Fin 23

/-- The site of each row that is out of service as shipped, and whether it is defective (R14).
DESIGN CHOICE, log entry 58. -/
opaque Config.spareSite : (cluster row : Nat) → Fin 7 × Bool

/-- VERSION of the blaze map as shipped (R384). DESIGN CHOICE, log entry 58. -/
opaque Config.shippedVersion : Nat

end Sys2Proof
end

