-- ==== Sys2Proof/Machine/Operands.lean ====
section
/-! DEFINITION. Operand forms of the tile instructions: the fields of the instruction word (R82), local
addresses and the ranges they name (R85), row pitches (R87, R182) and tensor scales (R28). -/

namespace Sys2Proof.Machine

/-- A field of an instruction word. -/
def wf (w : IWord) (hi lo : Nat) : Nat := bits w.toNat hi lo

/-- One bit of an instruction word. -/
def wb (w : IWord) (i : Nat) : Bool := flag w.toNat i

/-- Bits [127:120] (R82). -/
def opcode (w : IWord) : Nat := wf w 127 120

/-- The completion field: the unit counter raised at completion (R82). -/
def completion (w : IWord) : Option Nat := if wb w 119 then some (wf w 118 116) else none

/-- The opcodes listed in R96. -/
def listedOpcode (o : Nat) : Bool :=
  decide (o ≤ 0x08) || [0x10, 0x11, 0x12, 0x13, 0x20, 0x21, 0x22, 0x23, 0x24, 0x30, 0x31, 0x40, 0x50,
    0x51, 0x52, 0x53, 0x60, 0x61, 0x70, 0x71, 0x72, 0x73, 0x74, 0x75, 0x76, 0x80, 0x90, 0x91, 0xA0,
    0xA1, 0xB0, 0xB1, 0xC0, 0xC1].contains o

/-- R85: the local address that a 24-bit operand names. -/
def CoreSite.la (c : CoreSite) (op : Nat) : Nat :=
  if flag op 23 then c.gn (bits op 22 18) % 2 ^ 24 + bits op 17 0 else bits op 22 0

/-- The areas of local space (R85): start, size. -/
def localAreas : List (Nat × Nat) :=
  [(0x000000, 0x40000), (0x040000, 0x1C0000),
   (0x200000, 0x10000), (0x210000, 0x10000), (0x220000, 0x10000), (0x230000, 0x10000),
   (0x240000, 0x10000),
   (0x260000, 0x4000), (0x264000, 0x4000), (0x268000, 0x4000), (0x26C000, 0x4000)]

/-- R85: a range to be read lies within a single area. -/
def rdOk (a n : Nat) : Bool := localAreas.any fun r => decide (r.1 ≤ a) && decide (a + n ≤ r.1 + r.2) && decide (a < r.1 + r.2)

/-- R85: a range to be written lies within a single area other than the instruction region. -/
def wrOk (a n : Nat) : Bool := rdOk a n && decide (0x40000 ≤ a)

/-- The rows of a two-dimensional operand as ranges. -/
def rowRngs (a pitch rows n : Nat) : List Rng := (List.range rows).map fun r => ⟨a + r * pitch, n⟩

def rngsRd (l : List Rng) : Bool := l.all fun r => rdOk r.lo r.len
def rngsWr (l : List Rng) : Bool := l.all fun r => wrOk r.lo r.len

/-- The bytes two ranges share. -/
def Rng.inter (a b : Rng) : Rng :=
  let lo := max a.lo b.lo
  ⟨lo, min (a.lo + a.len) (b.lo + b.len) - lo⟩

/-- The non-empty intersections of two lists of ranges. -/
def interRngs (l m : List Rng) : List Rng :=
  l.flatMap fun a => (m.map (a.inter ·)).filter fun r => r.len != 0

/-- The element-format field of R86: a plain format or tagged E2M1. -/
inductive AFmt where
  | plain (f : EFmt)
  | tagged
  deriving DecidableEq, Repr

def AFmt.ofCode (n : Nat) : Option AFmt := if n = 9 then some .tagged else (EFmt.ofCode n).map .plain

/-- R87: the bytes of a row of n blocks, before its pitch is rounded. -/
def rowBytes (f : EFmt) (n : Nat) : Nat := n * (f.blockBytes + 1)

/-- R87: the pitch of a row of n blocks. -/
def rowPitch (f : EFmt) (n : Nat) : Nat := ceilTo 8 (rowBytes f n)

/-- R182: the pitch of a tagged row of n blocks. -/
def taggedPitch (n : Nat) : Nat := ceilTo 8 (17 * n + 17 * ceilDiv n 4)

def AFmt.pitch : AFmt → Nat → Nat
  | .plain f, n => rowPitch f n
  | .tagged, n => taggedPitch n

/-- R28, R84: the tensor scale a general register holds, when valid. -/
def CoreSite.scale (c : CoreSite) (i : Nat) : Option Nat :=
  let t := c.gn i % 2 ^ 32
  if scaleOk t then some t else none

/-- 1.0 in FP32. -/
def one32 : Nat := 0x3F800000

/-- A branch target (R83), when it lies in 0 to 16,383 (R94). -/
def branchTo (pc : Nat) (off : Int) : Option Nat :=
  let t := (pc : Int) + off
  if 0 ≤ t ∧ t < 16384 then some t.toNat else none

/-! ### Rows of MX elements (R87, R182, R183) -/

/-- A row's decoded blocks; of each, whether it is tagged and the NaNs its decoding counts in set 0xFF
(R26, R183). -/
structure RowIn where
  blks : List DBlk
  tags : List Bool
  nans : List Nat
  deriving DecidableEq, Repr

/-- R87: a plain row of n blocks. -/
def readPlainRow (f : EFmt) (n : Nat) (bs : List Byte) : RowIn :=
  let bl := (List.range n).map fun b =>
    let (cs, k) := unpackBlock f ((bs.drop (b * f.blockBytes)).take f.blockBytes)
    (decodeBlock f ((bs.getD (n * f.blockBytes + b) 0).toNat) cs, k)
  ⟨bl.map (·.1), bl.map fun _ => false, bl.map (·.2)⟩

/-- R183: an escalation group of a tagged row is invalid. -/
def badGroup (n j tag : Nat) : Bool :=
  let r := min 4 (n - 4 * j)
  decide (2 ^ r ≤ tag) || decide (1 < (List.range 4).countP fun i => flag tag i)

/-- R182 to R184: a tagged row of n blocks. -/
def readTaggedRow (n : Nat) (bs : List Byte) : RowIn :=
  let g := ceilDiv n 4
  let tagOf := fun j => (bs.getD (17 * n + 16 * g + j) 0).toNat
  let bl := (List.range n).map fun b =>
    let j := b / 4
    let sc := (bs.getD (16 * n + 16 * g + b) 0).toNat
    let prim := (bs.drop (16 * b)).take 16
    if badGroup n j (tagOf j) then (⟨0, 1, List.replicate 32 .nan⟩, false, 1)
    else if flag (tagOf j) (b % 4) then
      let ext := (bs.drop (16 * n + 16 * j)).take 16
      (decodeBlock .e4m3 sc ((prim ++ ext).map (·.toNat)), true, 0)
    else (decodeBlock .e2m1 sc (unpackCodes 4 32 (leNat prim)), false, 0)
  ⟨bl.map (·.1), bl.map (·.2.1), bl.map (·.2.2)⟩

def readRow (a : AFmt) (n : Nat) (bs : List Byte) : RowIn :=
  match a with
  | .plain f => readPlainRow f n bs
  | .tagged => readTaggedRow n bs

/-- R87: the bytes of a plain row of encoded blocks. -/
def writePlainRow (f : EFmt) (bl : List Blk) : List Byte :=
  bl.flatMap (fun b => packBlock f b.codes) ++ toBytes (bl.map (·.scale))

end Sys2Proof.Machine
end

