-- ==== Sys2Proof/Machine/Flags.lean ====
section
/-! DEFINITION. Conditions, scalar functions, counts and events that the instructions of a core raise
(R59, R94, R97, R172, R173), and the issue and hazard rules that every queued instruction shares
(R88, R90 to R92, R94). -/

namespace Sys2Proof.Machine

/-- The entries of a counter set (R172, R276); `key` is the place of the entry in the set's 128 bytes,
in words. -/
inductive CEnt where
  | sat | nan | monBlocks | esc | escOvf | amax | rangeLost | runDrops | boundDrops | overruns
  | zeroRows | spOutOfRange | spDuplicate | spHdrErr | fcSkipped | fcMakeup | fcMiss | fpCount | fp
  deriving DecidableEq, Repr

def CEnt.key : CEnt → Nat
  | .sat => 0
  | .nan => 1
  | .monBlocks => 2
  | .esc => 3
  | .escOvf => 4
  | .amax => 5
  | .rangeLost => 6
  | .runDrops => 7
  | .boundDrops => 8
  | .overruns => 9
  | .zeroRows => 10
  | .spOutOfRange => 11
  | .spDuplicate => 12
  | .spHdrErr => 13
  | .fcSkipped => 14
  | .fcMakeup => 15
  | .fcMiss => 16
  | .fpCount => 18
  | .fp => 20

/-- How two contributions to an entry combine (R172, R276, R278). -/
def combine (key a b : Nat) : Nat :=
  if key = 5 then max a b
  else if key = 20 then (a + b) % 2 ^ 64
  else if key = 18 then satAdd (2 ^ 64 - 1) a b
  else satAdd (2 ^ 32 - 1) a b

/-- The counter set of events that name none (R173). -/
def strayset : Nat := 0xFF

/-- What an instruction raises besides its result. -/
inductive Ev where
  | cnt (set : Nat) (e : CEnt) (n : Nat)
  | smldDrop (n : Nat)
  | orderDep
  | reg (f : Fld) (n : Nat)
  | peak (f : Fld) (v : Nat)
  | report (cls code sub row col detail : Nat)
  | residue (pass : Bool) (array sub row col detail : Nat)
  deriving DecidableEq, Repr

/-- A core site with the events raised, the place of the next free value, and whether a promotion found
no free long slot (R75). -/
structure Run where
  c   : CoreSite
  ev  : List Ev
  fr  : Nat
  cap : Bool := false
  deriving DecidableEq, Repr

/-- What the issue of one instruction comes to: it waits, it faults under R94, or it issues. -/
inductive CoreRes where
  | stall
  | fault (k : SeqFault) (x : Run)
  | ok (x : Run)
  deriving DecidableEq, Repr

/-- Raise an event. -/
def Run.raise (x : Run) (e : Ev) : Run := { x with ev := x.ev ++ [e] }

/-- Raise a count when it is not zero. -/
def Run.count (x : Run) (set : Nat) (e : CEnt) (n : Nat) : Run :=
  if n = 0 then x else x.raise (.cnt set e n)

/-- Raise a register count when it is not zero. -/
def Run.bump (x : Run) (f : Fld) (n : Nat) : Run := if n = 0 then x else x.raise (.reg f n)

def Run.setC (x : Run) (c : CoreSite) : Run := { x with c := c }

/-- Fresh free bytes. DESIGN CHOICE, log entry 6. -/
def freeBytes (fr n : Nat) : List Byte := (List.range n).map fun i => Config.freeByte (fr + i)

/-- Make a range of local space undefined (R91). DESIGN CHOICE, log entry 6. -/
def Run.free (x : Run) (r : Rng) : Run :=
  { x with c := x.c.wrLm r.lo (freeBytes x.fr r.len), fr := x.fr + r.len }

def Run.freeAll (x : Run) (l : List Rng) : Run := l.foldl Run.free x

/-! ### Scalar functions (R97) -/

/-- R97: GA COND GB; none for the undefined codes 6 and 7. -/
def condHolds (cond : Nat) (a b : GWord) : Option Bool :=
  match cond with
  | 0 => some (a == b)
  | 1 => some (a != b)
  | 2 => some (a.slt b)
  | 3 => some (!a.slt b)
  | 4 => some (a.ult b)
  | 5 => some (!a.ult b)
  | _ => none

/-- R97: the ALU functions; none for the undefined codes 11 to 15. -/
def aluFn (fn : Nat) (a b : GWord) : Option GWord :=
  match fn with
  | 0 => some (a + b)
  | 1 => some (a - b)
  | 2 => some (a * b)
  | 3 => some (a &&& b)
  | 4 => some (a ||| b)
  | 5 => some (a ^^^ b)
  | 6 => some (a <<< (b.toNat % 64))
  | 7 => some (a >>> (b.toNat % 64))
  | 8 => some (a.sshiftRight (b.toNat % 64))
  | 9 => some (if a.slt b then a else b)
  | 10 => some (if a.slt b then b else a)
  | _ => none

/-- R103: a failed check is counted and reported, and stops the kernel when STOP = 1. -/
def Run.checkEvent (x : Run) : Run :=
  (x.bump R.CORE.CHK_EVENTS.CHK_FAIL 1).raise (.report 3 1 0x3FFF 0 0 0)

/-- The address after an instruction's own; the program counter is 14 bits wide (R83, R118).
DEDUCED, log entry 10. -/
def nextPc (pc : Nat) : Nat := (pc + 1) % 16384

def CoreSite.advance (c : CoreSite) : CoreSite := { c with pc := nextPc c.pc }

/-! ### Issue (R88, R90 to R92) -/

/-- The instruction has not left its unit's front (R421): it holds a place of the unit's queue. The accumulator unit,
the vector unit, the quantiser and the match unit hold it until they complete it. DEDUCED, log entry 56. -/
def Fly.atFront (f : Fly) : Bool :=
  match f.unit with
  | .move => f.mv.isSome
  | .weight => f.wop.isSome
  | .array => !f.entered
  | _ => true

/-- The instructions that hold a place of a unit's queue. -/
def CoreSite.inUnit (c : CoreSite) (u : CUnit) : Nat := c.fly.countP fun f => f.unit == u && f.atFront

/-- R88: the unit's queue has room. -/
def CoreSite.room (c : CoreSite) (u : CUnit) : Bool := decide (c.inUnit u < u.depth)

/-- R91: the bytes of an instruction's reads that an earlier one of another unit writes, and of its
writes that an earlier one reads or writes. Accesses to one slot are interlocked by R90. DEDUCED, log entry 7. -/
def clashes (e : List Fly) (f : Fly) : List Rng × List Rng :=
  let o := e.filter fun y => y.unit != f.unit
  let wrs := o.flatMap fun y => y.wr ++ y.slots
  let all := o.flatMap fun y => y.rd ++ y.wr ++ y.slots
  let byt := o.flatMap fun y => y.rd ++ y.wr
  (interRngs f.rd wrs, interRngs f.wr all ++ interRngs f.slots byt)

/-- An instruction with local ranges for the checker of R92. -/
def Fly.ranged (f : Fly) : Bool := !f.rd.isEmpty || !f.wr.isEmpty || !f.slots.isEmpty

/-- R91: an earlier instruction whose read bytes are written before it completes leaves undefined
results. DEDUCED, log entry 7. -/
def Run.taint (x : Run) (ws : List Rng) (y : Fly) : Run :=
  if y.mv.isSome || (interRngs ws y.rd).isEmpty then x else
  let x := x.freeAll (y.wr ++ y.slots)
  let x := match y.vd with
    | some r => { x with c := x.c.setVreg r (freeBytes x.fr 512), fr := x.fr + 512 }
    | none => x
  match y.unit with
  | .matcher =>
    { x with c := { x.c with mt := (List.range x.c.mtCount).map fun e => (leNat (freeBytes (x.fr + 2 * e) 2), e) },
             fr := x.fr + 2 * x.c.mtCount }
  | .weight =>
    let fly := x.c.fly.map fun z => if z = y then
        { z with wop := match z.wop with
            | some (.load p) => some (.load { p with codes := freeBytes x.fr p.codes.length })
            | w => w }
      else z
    { x with c := { x.c with fly := fly }, fr := x.fr + 24576 }
  | _ => x

/-- R155: what an instruction's local accesses share with the ranges of the sparse-engine command under way: the bytes
it reads of the command's outputs, and the bytes it writes of the command's block, inputs and outputs.
DEDUCED, log entry 7. -/
def SpeCmd.clash (e : Option SpeCmd) (f : Fly) : List Rng × List Rng :=
  match e with
  | none => ([], [])
  | some e => (interRngs f.rd e.wr, interRngs (f.wr ++ f.slots) (⟨e.addr, 64⟩ :: (e.rd ++ e.wr)))

/-- Bytes of a running command that the program has made undefined (R155). -/
def CoreSite.hurt (c : CoreSite) (l : List Rng) : CoreSite :=
  { c with spe := c.spe.map fun e => { e with hurt := e.hurt ++ l } }

/-- Issue rules shared by every instruction with local operands (R88, R91, R92, R155): `f` describes it,
`queued` says whether it takes a place in its unit's queue, `act` is its effect. DEDUCED, log entry 7. -/
def Run.issueWith (x : Run) (f : Fly) (queued : Bool) (act : Run → CoreRes) : CoreRes :=
  if queued && !x.c.room f.unit then .stall else
  let (rc, wc) := clashes x.c.fly f
  if x.c.haz && f.ranged && decide (32 ≤ x.c.fly.countP Fly.ranged) then .stall
  else if x.c.haz && !(rc.isEmpty && wc.isEmpty) then .fault .sequencing x
  else
    let early := x.c.fly.filter fun y => y.unit != f.unit
    let (rs, ws) := SpeCmd.clash x.c.spe f
    let x := { x with c := x.c.hurt ws }.freeAll (rc ++ rs)
    match act x with
    | .stall => .stall
    | .fault k y => .fault k y
    | .ok y =>
      let y := y.freeAll (wc ++ ws)
      let y := early.foldl (fun y e => y.taint (f.wr ++ f.slots) e) y
      if queued then .ok { y with c := { y.c with fly := y.c.fly ++ [{ f with clash := wc ++ ws }] } }
      else .ok y

/-- Issue a queued instruction whose checks have passed and whose effect on the core's storage is that of
its issue. -/
def Run.queue (x : Run) (f : Fly) (act : Run → Run) : CoreRes := x.issueWith f true fun y => .ok (act { y with c := y.c.advance })

end Sys2Proof.Machine
end

