-- ==== Sys2Proof/Machine/DeviceState.lean ====
section
/-! DEFINITION. The state of the device beyond its core sites: deck and HBM services, tier 2, mesh, movers,
jobs, clusters, fabric, tally, errors, regions, control, security and module. Plain data; the default of
every field is its value at reset. -/

namespace Sys2Proof.Machine

/-! ### Memory services (R192 to R216) -/

/-- An entry of a gather buffer: the line and the bytes of it that await writing into the slice (R199). The
bytes themselves stand in the device memory, since every read returns them from acceptance on (R200).
DESIGN CHOICE, log entry 16. -/
structure GEntry where
  slice : Nat
  port  : Nat
  line  : Nat
  mask  : Nat
  since : Nat
  deriving DecidableEq, Repr

/-- Corrected errors of a deck line or HBM frame, by time (R207, R211). -/
structure EccNote where
  key : Nat
  row : Nat := 0
  at_ : Nat
  deriving DecidableEq, Repr

/-- A line operation of the deck cycle under way: its slice, port and line, the bytes it writes, or a read
(R196, R201). -/
structure DeckOp where
  slice : Nat
  port  : Nat
  line  : Nat
  wr    : Bool
  mask  : Nat
  deriving DecidableEq, Repr

/-- Deck services: gather buffers, spare-line maps, corrected-error history, scrub positions and each slice's
last scrub time (in ns, plus 1), the line operations of the deck cycle under way, and what the last line read
returned to its agent, with a bus error when it met poison (R212). -/
structure Deck where
  gather : List GEntry := []
  notes  : List EccNote := []
  spare  : List Nat := []
  scrub  : Tab Nat := []
  scrubAt : Tab Nat := []
  cycle  : Nat := 0
  ops    : List DeckOp := []
  out    : List Byte := []
  err    : Bool := false
  deriving DecidableEq, Repr

/-- HBM services: frames retired, and for each pool frame in use the frame whose accesses it takes (R207),
corrected-error history, patrol positions, the channels under retraining and the rows repaired since power-up. -/
structure Hbm where
  retired : List Nat := []
  moved   : List (Nat × Nat) := []
  notes   : List EccNote := []
  repaired : List (Nat × Nat) := []
  patrol  : Tab Nat := []
  retrain : List (Nat × Nat) := []
  out     : List Byte := []
  deriving DecidableEq, Repr

/-- A root port's link and the tier-2 decode (R209): the links that are up; the ports decoded last, every port's
capacity, and the window they gave when they were decoded, with its ways; and the ports and capacities of the
window in force. `loadedAt` is when a port chiplet's firmware was loaded, and `training` the root ports being retrained
(R409). -/
structure Cxl where
  up       : List Nat := []
  loadedAt : Tab (Option Nat) := []
  training : List Nat := []
  wasT2    : List Nat := []
  capNext  : List Nat := []
  winNext  : Option (Nat × Nat) := none
  ports    : List Nat := []
  caps     : List Nat := []
  out      : List Byte := []
  deriving DecidableEq, Repr

/-! ### Mesh and movers (R222 to R231) -/

/-- A token under way on the mesh: its source (site, or 1000 + cluster for CL.TSIG and 2000 for a notice),
its target and its count, when it set out, and the address of the TSIG. -/
inductive TokTo where
  | core (site token : Nat)
  | list (m l owner : Nat)
  deriving DecidableEq, Repr

/-- The network domain at whose router or mover a signal arrives (R326). -/
def TokTo.region : TokTo → Nat
  | .core i _ => 24 + i / 28 / 4
  | .list m _ _ => 24 + m

structure MeshTok where
  src    : Nat
  target : TokTo
  count  : Nat
  at_    : Nat
  pc     : Nat := 0
  deriving DecidableEq, Repr

/-- Bytes of a stream route under way on the mesh. -/
structure MeshBytes where
  srcC  : Nat
  srcR  : Nat
  dstC  : Nat
  dstR  : Nat
  data  : List Byte
  deriving DecidableEq, Repr

structure Mesh where
  toks   : List MeshTok := []
  bytes  : List MeshBytes := []
  fill   : Tab (List Byte) := []
  noShare : List Nat := []
  deriving DecidableEq, Repr

/-- A mover command block under way. -/
structure MovCmd where
  addr   : Nat
  block  : Nat
  status : Nat := 0
  done   : Bool := false
  deriving DecidableEq, Repr

/-- A mover list: units of count received and not yet used, the next ring place and the command under way. -/
structure MovList where
  units : Nat := 0
  next  : Nat := 0
  cmd   : Option MovCmd := none
  deriving DecidableEq, Repr

/-! ### Jobs and launches (R219 to R237) -/

/-- A job partition: the program, the physical cluster of each logical cluster, the site of each logical
core, the base of each region, and what it drew from the pools. -/
structure Job where
  prog     : Program
  clusters : List Nat
  sites    : List (Nat × Nat)
  bases    : List Nat
  lists    : List (Nat × Nat)
  windows  : List Nat
  groups   : List Nat
  sets     : List Nat
  trips    : List Nat
  groupOf  : List Nat
  launched : Nat := 0
  area     : Nat := 0
  ctr      : Nat := 0
  releasing : Bool := false
  failed   : Bool := false
  deriving DecidableEq, Repr

/-- What a core runs or will run: its launch (R232, R234). `resume` is set for a relaunch of a replay. -/
structure LaunchRec where
  job    : Nat
  lcore  : Nat
  tl     : Nat
  entry  : Nat
  gregs  : Tab GWord
  area   : Nat
  ctr    : Nat
  seq    : Nat
  cmdLa  : Nat := 0
  loaded : Bool := false
  resume : Bool := false
  deriving DecidableEq, Repr

/-- An outcome that a send ledger or token ledger keeps (R302). -/
inductive LedgerOut where
  | pending | delivered | failed
  deriving DecidableEq, Repr

/-- An entry of a send ledger or token ledger: the core, its number since the commit, the outcome, and the targets of a
multicast SEND (device, window, generation) that have had its notice. -/
structure LedgerEnt where
  site : Nat
  num  : Nat
  send : Bool
  out  : LedgerOut
  key  : Nat
  told : List (Nat × Nat × Nat) := []
  deriving DecidableEq, Repr

/-- A recovery under way in a group (R304, R315): when its fault came and of which kind (0 residue mismatch, 1 core
death or quarantine, 2 partition reset, 3 no bound, 4 standby cluster, 5 failed march); for a residue mismatch (`spin`) its
site, array, pass and what its report names (R306); whether the rotated replay runs, the same pass mismatched again and its
operands are captured; whether the group stands committed (`held`, R320) and the time is recorded (`timed`). -/
structure Recovery where
  since  : Nat
  kind   : Nat
  site   : Option Nat := none
  array  : Nat := 0
  passNo : Nat := 0
  rotated : Bool := false
  again   : Bool := false
  captured : Bool := false
  code   : Nat := 1
  sub    : Nat := 0
  row    : Nat := 0
  col    : Nat := 0
  detail : Nat := 0
  spin   : Bool := false
  held   : Bool := false
  timed  : Bool := false
  deriving DecidableEq, Repr

/-- The cluster partition of a cluster: contributions pending since its commit (R273), snapshot, external log
and excess of its token counts (R303), current mark records, pending replay, march and lull turn. -/
structure Cluster where
  pend     : Tab Nat := []
  snap     : Tab Nat := []
  ext      : Tab Nat := []
  excess   : Tab Nat := []
  ledger   : List LedgerEnt := []
  markBank : Nat := 0
  marked   : Bool := false
  want     : Option Recovery := none
  recov    : Option Recovery := none
  march    : Option Nat := none
  stopped  : Bool := false
  lullNext : Nat := 0
  lullFail : Tab Nat := []
  firmware : List Byte := []
  deriving DecidableEq, Repr

/-! ### Fabric (R239 to R269) -/

/-- A packet (R246): header fields and, for data, the payload. -/
structure Packet where
  type   : Nat
  cls    : Nat
  cells  : Bool := false
  rsv    : Bool := false
  dst    : Nat
  src    : Nat
  window : Nat := 0
  gen    : Nat := 0
  birth  : Nat := 0
  tag    : Nat := 0
  len    : Nat := 0
  off    : Nat := 0
  slot   : Nat := 0
  code   : Nat := 0
  nseq   : Nat := 0
  vc     : Nat := 0
  port   : Option Nat := none
  data   : List Byte := []
  deriving DecidableEq, Repr

/-- A packet without its final answer: its header, its SEND and target, and where its payload lies: `n`
bytes, or cells, of the site's local space from `la` (R248, R249, R252). -/
structure OutPkt where
  slot    : Nat
  pkt     : Packet
  send    : Nat
  target  : Nat
  site    : Nat
  la      : Nat
  n       : Nat
  firstAt : Nat
  retryAt : Option Nat := none
  backoff : Nat := 1
  deriving DecidableEq, Repr

/-- A SEND under way or waiting for slots: its core and instruction, and for each target the packets still
without a final answer and whether all so far were OK (R101, R254, R265). -/
structure SendTgt where
  dev    : Nat
  window : Nat
  gen    : Nat
  left   : Nat
  good   : Bool
  done   : Bool := false
  deriving DecidableEq, Repr

structure SendRec where
  no      : Nat
  site    : Nat
  num     : Nat
  targets : List SendTgt
  queued  : List OutPkt
  deriving DecidableEq, Repr

/-- A landed packet on its way into memory (R253). -/
structure Landed where
  pkt   : Packet
  addr  : Nat
  bytes : List Byte
  space : Nat
  deriving DecidableEq, Repr

/-- A link chiplet: packets received, landed packets and unanswered packets. -/
structure LinkChip where
  inbox   : List Packet := []
  landed  : List Landed := []
  unans   : List OutPkt := []
  deriving DecidableEq, Repr

/-- A flit in a replay buffer or waiting for credits: sequence number, channel, the unanswered packet it belongs to,
if it carries data (chiplet × 4096 + slot, R246), the packet's number at the port and its BIRTH, its payload bytes
and START_OFF (R243, R244). -/
structure TxFlit where
  seq  : Nat := 0
  vc   : Nat
  slot : Option Nat
  pid  : Nat := 0
  birth : Nat := 0
  pay  : List Byte := []
  start : Nat := 0xFF
  deriving DecidableEq, Repr

/-- A link port: lanes, sequence numbers, credits, replay buffer, place on the wheel of classes (R250), and
reassembly of received packets. `line` holds the flits put on the line, in order; `ackDue` and `askDue` say that an
acknowledgement or a replay request is still to be sent, `back` the credits still to be returned, and `exch` that
the far end's last accepted sequence is awaited after retraining (R241). DESIGN CHOICE, log entry 2. -/
structure Port where
  good     : Nat := 0x1FF
  calib    : Option Nat := none
  expect   : Nat := 0
  gapAsked : Bool := false
  ackDue   : Bool := false
  askDue   : Bool := false
  back     : Tab Nat := []
  exch     : Bool := false
  wheel    : Nat := 0
  turn     : Nat := 0
  nextPid  : Nat := 0
  line     : List (List Byte) := []
  txSeq    : Nat := 0
  unacked  : List TxFlit := []
  waiting  : List TxFlit := []
  credits  : Tab Nat := []
  replay   : Bool := false
  ackAt    : Nat := 0
  rx       : Tab (List Byte) := []
  deriving DecidableEq, Repr

/-- A notice sent and not yet acknowledged, or waiting for room (R254). -/
structure Notice where
  nseq   : Nat
  window : Nat
  at_    : Nat
  deriving DecidableEq, Repr

/-- A partner context (R256). -/
structure Partner where
  st      : Nat := 0
  ports   : Nat := 0
  txSeq   : Nat := 0
  rxSeq   : Nat := 0
  unacked : List Notice := []
  queued  : List Nat := []
  held    : List (Nat × Nat) := []
  probeAt : Nat := 0
  deriving DecidableEq, Repr

/-- A landing window (R259). -/
structure Window where
  st      : Nat := 0
  gen     : Nat := 0
  base    : Nat := 0
  size    : Nat := 0
  tag     : Nat := 0
  nvalid  : Bool := false
  ncl     : Nat := 0
  nsite   : Nat := 0
  ntok    : Nat := 0
  closedAt : Option Nat := none
  deriving DecidableEq, Repr

/-- A multicast group: valid, count less one, entries by place (R264). -/
structure McGroup where
  valid   : Bool := false
  count   : Nat := 0
  entries : Tab Nat := []
  deriving DecidableEq, Repr

/-- A tag held at the plane root (R261). -/
structure TagRec where
  tag   : Nat
  hash  : List Byte
  ident : Nat
  devs  : List Nat
  deriving DecidableEq, Repr

structure Fabric where
  chips    : Tab LinkChip := []
  ports    : Tab Port := []
  partners : Tab Partner := []
  windows  : Tab Window := []
  mcast    : Tab McGroup := []
  mcRefused : Tab Nat := []
  closing  : Option Nat := none
  sends    : List SendRec := []
  nextSend : Nat := 0
  members  : List (Nat × Nat) := []
  pairLic  : List Nat := []
  joins    : List (Nat × Option Nat) := []
  reach    : List (Nat × Nat) := []
  out      : List Nat := []
  tags     : List TagRec := []
  sent     : List Packet := []
  deriving DecidableEq, Repr

/-! ### Tally and step gate (R271 to R292) -/

/-- A mark taken or waiting: whether a TMARK of a site sent it. -/
structure Mark where
  site : Option Nat
  deriving DecidableEq, Repr

/-- Contributions on their way to the tally unit. -/
structure Contrib where
  sets : Tab Nat
  at_  : Nat := 0
  deriving DecidableEq, Repr

/-- Twin comparison of the step under the gate (R289, R291): this device's digest once latched, its twin's
once arrived, whether the twin's came first and the time of the first of them, whether they differ, whether this
device's came too late (R321), and whether the pair's question is settled (`ok`). -/
structure Twin where
  own    : Option (List Byte) := none
  other  : Option (List Byte) := none
  since  : Option (Bool × Nat) := none
  differs : Bool := false
  late   : Bool := false
  ok     : Bool := false
  deriving DecidableEq, Repr

/-- The step gate (R285, R286): the step under the gate, whether it is undecided (`active`), the inputs of
children, when the first came and when this device's own went to its parent, early inputs of the next step,
devices out of the tree, the tree of the step under the gate, children named missing, the input that was sent, the last
decision, and the twin comparison. `span` is set while the marking program spans devices, `alone` while the twin plane is
out of service; `launched` is the step of its last launch. -/
structure Gate where
  step    : Nat := 0
  active  : Bool := false
  children : List (Nat × Bool) := []
  since   : Option Nat := none
  sentAt  : Option Nat := none
  span    : Bool := false
  early   : List (Nat × Nat × Bool) := []
  out     : List Nat := []
  tree    : List Nat := []
  missing : List Nat := []
  sentGood : Bool := false
  launched : Option Nat := none
  decided : Bool := true
  go      : Bool := true
  twin    : Twin := {}
  alone   : Bool := false
  transients : List Nat := []
  deriving DecidableEq, Repr

structure Tally where
  sets     : Tab Nat := []
  dev      : Tab Nat := []
  energy   : Tab Nat := []
  prevAmax : Tab Nat := []
  armed    : List Nat := []
  fired    : List Nat := []
  openTime : Nat := 0
  transit  : List Contrib := []
  incoming : List Mark := []
  taken    : Option Mark := none
  takenAt  : Nat := 0
  waiting  : Option Mark := none
  rangesLeft : List Nat := []
  heldMark : Option Mark := none
  poison   : Bool := false
  nonReplay : Bool := false
  gate     : Gate := {}
  deriving DecidableEq, Repr

/-! ### Errors (R293 to R298) -/

/-- A report on its way to an aggregator, with the context of its making; `flags` are the RECOVERED and QUARANTINED bits
of FLAGS that its record opens with (R294). -/
structure Report where
  cls    : Nat
  code   : Nat
  dev    : Nat
  unit   : Nat
  repo   : Nat
  time   : Nat := 0
  step   : Nat := 0
  wrap   : Nat := 0
  seq    : Nat := 0
  lcore  : Nat := 0xFFFF
  pc     : Nat := 0
  row    : Nat := 0
  col    : Nat := 0
  temp   : Nat := 0
  volt   : Nat := 0
  detail : Nat := 0
  ptr    : Nat := 0
  remote : Bool := false
  flags  : Nat := 0
  echo   : Nat := 0
  plane  : Bool := false
  deriving DecidableEq, Repr

/-- An error record of an aggregator: open or closed, with its ring sequence number once it has one. -/
structure ErrRec where
  rep   : Report
  flags : Nat := 0
  echo  : Nat := 0
  tier  : Nat := 0
  open_ : Bool := true
  rseq  : Option Nat := none
  since : Nat := 0
  deriving DecidableEq, Repr

structure Errors where
  reports : List Report := []
  aggs    : Tab (List ErrRec) := []
  early   : List ErrRec := []
  confirmed : List (Nat × Nat) := []
  memErrs : List (Nat × Nat) := []
  met     : List Nat := []
  deriving DecidableEq, Repr

/-! ### Regions and module (R326 to R356, R401 to R414) -/

/-- A region beyond its registers: measured 10 µs current in 0.1 A, times of its thermal and squall history,
switch-on progress, stretched periods of the last 95, pace level of its present group, ramp of a front,
time set from the tree, sensor under calibration, failed phases, whether its switch-on has been deferred
beyond 1 ms, and whether its temperature has been read since power-up. `offAt` is the time of a switch-off for heat. -/
structure Region where
  amps     : Nat := 0
  lastHigh : Option Nat := none
  hotSince : Option Nat := none
  fullSince : Option Nat := none
  offAt    : Option Nat := none
  lowSince : Option Nat := none
  ask      : Option Nat := none
  paced    : List Nat := []
  rampEnd  : Option Nat := none
  stretch  : List Bool := []
  level    : Nat := 0
  timeSet  : Bool := false
  resetOn  : Bool := true
  calib    : Option Nat := none
  phases   : List Nat := []
  late     : Bool := false
  sampled  : Bool := false
  deriving DecidableEq, Repr

/-- The module: supplies and pins, trips and when the input was last seen out of its range (`inputAt`), the power governor
(`govUp` and `govLow`: when it last raised its request, and since when the input is low), and what the outside last read over SMBus or JTAG. DESIGN CHOICE, log entry 2. -/
structure Module where
  v36      : Bool := false
  rstN     : Bool := true
  jtagEn   : Bool := false
  refclk0  : Bool := true
  refclk1  : Bool := true
  tripped  : Option Nat := none
  tripCause : Nat := 0
  inputAt  : Option Nat := none
  faultN   : Bool := false
  thermN   : Bool := false
  alerts   : Nat := 0
  convBad  : List Nat := []
  power    : Nat := 0
  volt     : Nat := 0
  amps     : Nat := 0
  govSince : Bool := false
  govUp    : Option Nat := none
  govLow   : Option Nat := none
  response : List Byte := []
  tap      : TapOp := .idcode
  tapOut   : List Nat := []
  hbmOn    : List Nat := []
  lchOn    : List Nat := []
  quarantined : List Nat := []
  nextPower : Nat := 0
  idle     : Bool := false
  deriving DecidableEq, Repr

/-! ### Control and security (R357 to R400) -/

/-- The control lease in one port chiplet: holder and expiry (R357). -/
structure Lease where
  holder : Nat
  expiry : Nat
  released : Bool := false
  deriving DecidableEq, Repr

/-- A journalled operation, and how many of its steps are complete (R359). -/
structure JEntry where
  op   : JOp
  arg  : Nat
  step : Nat := 0
  deriving DecidableEq, Repr

/-- The objects in one half of a flash device (R410); `fw` holds staged chiplet firmware (R398). -/
structure FlashBank where
  keyCerts : List (List Byte) := []
  limits   : List Byte := []
  stage1   : List Byte := []
  os       : List Byte := []
  blaze    : List Byte := []
  idCerts  : List (List Byte) := []
  fw       : List (List Byte) := []
  deriving DecidableEq, Repr

/-- A flash device: the root public key, two banks, and SEC.BOOT_CTL.FORCE_CRUISE as held in flash. -/
structure Flash where
  rootKey : List Byte := []
  bank0   : FlashBank := {}
  bank1   : FlashBank := {}
  force   : Bool := false
  deriving DecidableEq, Repr

/-- A key whose certificate has verified (R389, R391). -/
structure Key where
  digest : List Byte
  key    : List Byte
  mask   : Nat
  signer : Nat
  deriving DecidableEq, Repr

/-- A control chiplet: powered, running its operating system, out of service, its measurement registers,
keys accepted, and whether stage 1 has started. -/
structure CtlChip where
  running : Bool := false
  failed  : Bool := false
  waiting : Bool := false
  meas    : Tab (List Byte) := []
  keys    : List Key := []
  started : Bool := false
  waitUntil : Nat := 0
  limits  : List Byte := []
  deriving DecidableEq, Repr

/-- The control complex: leases, chiplets, journal, management queues, operations under way; `stepped` and `everOn` say
whether DEV_TIME was stepped and a compute region was powered since 36 V arrived (R332), and `busErr` the chiplet whose
access of the cycle under way gets a bus error (R5). -/
structure Control where
  leases  : Tab Lease := []
  chips   : Tab CtlChip := []
  powered : List Nat := []
  journal : List JEntry := []
  unacked : Option Nat := none
  mgmtQ   : Tab Nat := []
  mgmtAt  : Tab Nat := []
  mgmtDrop : Tab Nat := []
  syncAt  : Tab Nat := []
  holdAdm : Bool := false
  rateAt  : Nat := 0
  admission : List Byte := []
  capsules : List (List Byte) := []
  ncapsules : Nat := 0
  front    : Nat := 0
  ramp     : Bool := false
  stepped  : Bool := false
  everOn   : Bool := false
  busErr   : Option Nat := none
  deriving DecidableEq, Repr

/-- An installed licence (R396). -/
structure Licence where
  cap    : Nat
  param  : Nat
  id     : Nat
  after  : Nat
  digest : List Byte
  deriving DecidableEq, Repr

/-- The blaze map (R384), and whether one is in force since 36 V arrived (R365). -/
structure Blaze where
  version : Nat := 0
  cruise  : Nat := 0
  ranked  : Nat := 0
  standby : Nat := 0
  roles   : Tab Nat := []
  sites   : Tab Nat := []
  entries : List (Nat × Nat × Nat × Nat) := []
  dirty   : Bool := false
  inForce : Bool := false
  digest  : List Byte := []
  deriving DecidableEq, Repr

structure Security where
  lics      : List Licence := []
  cancelled : List Nat := []
  floors    : Tab Nat := []
  blaze     : Blaze := {}
  limits    : List Byte := []
  image     : Tab Nat := []
  fwSeen    : List (List Byte) := []
  deriving DecidableEq, Repr

end Sys2Proof.Machine
end

