-- ==== Sys2Proof/Machine/Sha3.lean ====
section
/-! DEFINITION. SHA3-512, the digest that program hashes, tally records, images and measurements use (R219,
R276, R386, R394). -/

namespace Sys2Proof.Machine

def rotl64 (x n : Nat) : Nat := if n = 0 then x else ((x <<< n) ||| (x >>> (64 - n))) % 2 ^ 64

/-- The round constants of Keccak-f[1600]. -/
def keccakRC : List Nat :=
  [0x0000000000000001, 0x0000000000008082, 0x800000000000808A, 0x8000000080008000,
   0x000000000000808B, 0x0000000080000001, 0x8000000080008081, 0x8000000000008009,
   0x000000000000008A, 0x0000000000000088, 0x0000000080008009, 0x000000008000000A] ++
  [0x000000008000808B, 0x800000000000008B, 0x8000000000008089, 0x8000000000008003,
   0x8000000000008002, 0x8000000000000080, 0x000000000000800A, 0x800000008000000A,
   0x8000000080008081, 0x8000000000008080, 0x0000000080000001, 0x8000000080008008]

/-- The rotation of lane (x, y), at place x + 5y. -/
def keccakRot : List Nat :=
  [0, 1, 62, 28, 27, 36, 44, 6, 55, 20, 3, 10, 43, 25, 39, 41, 45, 15, 21, 8, 18, 2, 61, 56, 14]

/-- One round on 25 lanes of 64 bits. -/
def keccakRound (rc : Nat) (a : List Nat) : List Nat :=
  let c := (List.range 5).map fun x => (List.range 5).foldl (fun v y => v ^^^ a.getD (x + 5 * y) 0) 0
  let d := (List.range 5).map fun x => c.getD ((x + 4) % 5) 0 ^^^ rotl64 (c.getD ((x + 1) % 5) 0) 1
  let b := (List.range 25).map fun i =>
    -- lane i of the result comes from the lane (x, y) with y = i % 5 and 2x + 3y ≡ i / 5 modulo 5
    let y' := i / 5
    let x' := i % 5
    let x := (x' + 3 * y') % 5
    let y := x'
    rotl64 (a.getD (x + 5 * y) 0 ^^^ d.getD x 0) (keccakRot.getD (x + 5 * y) 0)
  (List.range 25).map fun i =>
    let r := i / 5 * 5
    let v := b.getD i 0 ^^^ ((2 ^ 64 - 1 - b.getD (r + (i + 1) % 5) 0) &&& b.getD (r + (i + 2) % 5) 0)
    if i = 0 then v ^^^ rc else v

def keccakF (a : List Nat) : List Nat := keccakRC.foldl (fun s rc => keccakRound rc s) a

/-- Absorb blocks of 72 bytes. -/
def absorb : Nat → List Byte → List Nat → List Nat
  | 0, _, a => a
  | n + 1, m, a =>
    absorb n (m.drop 72) (keccakF ((List.range 25).map fun i =>
      if i < 9 then a.getD i 0 ^^^ leNat ((m.drop (8 * i)).take 8) else a.getD i 0))

/-- The message padded to whole blocks. -/
def sha3Pad (m : List Byte) : List Byte :=
  let n := 72 - m.length % 72
  if n = 1 then m ++ [0x86] else m ++ 0x06 :: (List.replicate (n - 2) 0 ++ [0x80])

/-- SHA3-512. -/
def sha3_512 (m : List Byte) : List Byte :=
  let p := sha3Pad m
  (absorb (p.length / 72) p (List.replicate 25 0)).take 8 |>.flatMap (natLE 8)

end Sys2Proof.Machine
end

