-- ==== Sys2Proof/Machine/Flash.lean ====
section
/-! DEFINITION. The blaze map as bytes (R384) and what a module's flash devices hold as shipped (R14, R376, R377, R384,
R393, R410). -/

namespace Sys2Proof.Machine

/-- The header of an object (R388). -/
def objHeader (type signer len serial : Nat) (key : List Byte) : List Byte :=
  natLE 4 0x4F53574E ++ natLE 1 type ++ natLE 1 signer ++ natLE 2 0 ++ natLE 4 0 ++ natLE 4 len ++ natLE 8 serial ++
    natLE 8 0 ++ natLE 8 (2 ^ 64 - 1) ++ List.replicate 24 0 ++ padTo 64 (sha3_512 key)

/-- The body of the blaze map in force. -/
def Blaze.body (b : Blaze) : List Byte :=
  let l := b.entries.take 8192
  natLE 8 b.version ++ natLE 8 b.cruise ++ natLE 1 b.ranked ++ natLE 1 b.standby ++ natLE 2 0 ++ natLE 4 l.length ++
    (List.range 24).map (fun c => BitVec.ofNat 8 (Tab.get 2 b.roles c)) ++
    (List.range 672).map (fun i => BitVec.ofNat 8 (Tab.get 1 b.sites i)) ++
    l.flatMap fun e => natLE 4 e.1 ++ natLE 1 e.2.1 ++ natLE 1 e.2.2.1 ++ natLE 2 0 ++ natLE 8 e.2.2.2

/-- The second of the two standby clusters of the map as shipped: any cluster but the first (R14). -/
def shippedStandby : Nat × Nat :=
  let a := Config.standby.1.val
  (a, (a + 1 + Config.standby.2.val) % 24)

/-- The state of a site in the map as shipped: in each row six sites are in service, and one is spare or defective
(R14). -/
def shippedSite (i : Nat) : Nat :=
  let (k, bad) := Config.spareSite (i / 28) (i % 28 / 7)
  if i % 7 = k.val then (if bad then 2 else 1) else 0

/-- The blaze map as shipped: 22 ranked and 2 standby clusters (R14). DESIGN CHOICE, log entry 58. -/
def Blaze.shipped : Blaze where
  version := Config.shippedVersion
  ranked := 22
  standby := 2
  roles := (List.range 24).foldl (fun t c => Tab.set 2 t c (if c = shippedStandby.1 || c = shippedStandby.2 then 1 else 0)) []
  sites := (List.range 672).foldl (fun t i => Tab.set 1 t i (shippedSite i)) []

/-- The object that holds it: signed by the manufacturing key (R385, R388). -/
def shippedMap : List Byte :=
  let b := Blaze.shipped.body
  objHeader 8 3 b.length Config.serial.toNat (Config.flashObject 0 8) ++ padTo (ceilTo 8 b.length) b ++
    padTo 4627 (Config.flashObject 1 8)

/-- A bank of a flash device as shipped. -/
def shippedBank : FlashBank where
  keyCerts := (List.range 3).map fun k => Config.flashObject k 0xA
  limits := Config.flashObject 0 1
  stage1 := Config.flashObject 0 2
  os := Config.flashObject 0 3
  blaze := shippedMap
  fw := (List.range 3).map fun k => Config.flashObject 0 (5 + k)
  idCerts := (List.range 2).map fun k => Config.flashObject k 0xB

/-- A flash device as shipped (R376, R377, R384, R393, R410). DESIGN CHOICE, log entry 58. -/
def Flash.shipped : Flash where
  rootKey := Config.flashObject 0 0
  bank0 := shippedBank
  bank1 := shippedBank

end Sys2Proof.Machine
end

