-- ==== Sys2Proof/Machine/State.lean ====
section
/-! DEFINITION. The state of the block as plain data, its value after reset, and the two reasons a command
can stop. -/

namespace Sys2Proof.Machine

/-- A command never stops with a fault: what the spec calls a fault (R94, R212, R216) is an effect on State. -/
inductive Fault where
  deriving DecidableEq, Repr

/-- Why a command has no answer. -/
inductive Refusal where
  /-- Raised by an arm of Dispatch whose command has no meaning yet; safe, since no next state is claimed. -/
  | notModelled (mnemonic : String)
  deriving DecidableEq, Repr

/-- The device. A register field stands in `regs` under its key (Fld.key) as its value exclusive-or its
reset value, so that a table lists only what differs from reset; `eff` holds the fields of CL pages as
they act (R215, R238). `time` is DEV_TIME in units of 2^-32 ns (R331); `rate` is the rate offset in force,
as ROOT.TIME_RATE codes it. `fresh` holds, under a W1C field's key, the bits that the device has set in the cycle under way
(R8). `free` counts the places of free values used: it is the model's own. -/
structure State where
  regs     : Tab Nat := []
  eff      : Tab Nat := []
  mem      : Tab Byte := []
  poison   : Tab Bool := []
  cores    : Tab CoreSite := []
  clusters : Tab Cluster := []
  launches : Tab (Option LaunchRec) := []
  later    : Tab (List LaunchRec) := []
  running  : Tab (Option LaunchRec) := []
  deck     : Deck := {}
  hbm      : Hbm := {}
  cxl      : Cxl := {}
  mesh     : Mesh := {}
  movers   : Tab MovList := []
  jobs     : Tab (Option Job) := []
  fab      : Fabric := {}
  tally    : Tally := {}
  errs     : Errors := {}
  regions  : Tab Region := []
  module_  : Module := {}
  ctl      : Control := {}
  sec      : Security := {}
  flash0   : Flash := {}
  flash1   : Flash := {}
  time     : Nat := 0
  rate     : Nat := 0
  fresh    : Tab Nat := []
  free     : Nat := 0
  pending  : List Instr := []
  deriving DecidableEq, Repr

/-- The canonical form of the device memory. -/
def Memory.wf (m : Tab Byte) : Bool := Tab.wf 0 m

/-- The machine right after reset: 36 V absent (R374, R376, R400), every register at its reset value, no
byte of memory listed, no command waiting, the flash devices as shipped (R14). DESIGN CHOICE, log entry 1; DESIGN
CHOICE, log entry 2; DESIGN CHOICE, log entry 58. -/
def State.reset : State := { flash0 := Flash.shipped, flash1 := Flash.shipped }

end Sys2Proof.Machine
end

