-- ==== Sys2Proof/Machine/Ops.lean ====
section
/-! DEFINITION. The named operations over the state: register fields and their counts (R7, R9, R118, R218),
sites, clusters and regions (R11 to R13, R326), power domains (R326, R366), reports (R293 to R295), counts
of the tally record (R273, R276) and holds (R283). -/

namespace Sys2Proof.Machine

/-- The answer of a command. -/
abbrev Ans := Host.Outcome State Fault Refusal

/-! ### Register fields -/

/-- The value of a field of a page instance. -/
def State.getF (s : State) (f : Fld) (i : Nat) : Nat := Tab.get 0 s.regs (f.key i) ^^^ f.reset

/-- Set a field of a page instance to a value cut to its width. -/
def State.setF (s : State) (f : Fld) (i v : Nat) : State :=
  { s with regs := Tab.set 0 s.regs (f.key i) ((v % 2 ^ f.width) ^^^ f.reset) }

/-- Add to a count that saturates at its largest value. -/
def State.addF (s : State) (f : Fld) (i n : Nat) : State :=
  s.setF f i (satAdd (2 ^ f.width - 1) (s.getF f i) n)

/-- Raise a field that keeps a peak. -/
def State.peakF (s : State) (f : Fld) (i v : Nat) : State := s.setF f i (max (s.getF f i) v)

/-- The device sets bits of a field; those of a W1C field stay set through the cycle, whatever software writes in it (R8). -/
def State.orF (s : State) (f : Fld) (i v : Nat) : State :=
  { s.setF f i (s.getF f i ||| v) with
    fresh := if f.acc = .w1c then Tab.set 0 s.fresh (f.key i) (Tab.get 0 s.fresh (f.key i) ||| v % 2 ^ f.width) else s.fresh }

/-- The bits of a W1C field that a write of 1s clears: not those set in the same cycle (R8). -/
def State.clearF (s : State) (f : Fld) (i v : Nat) : State :=
  let v := v - (v &&& Tab.get 0 s.fresh (f.key i))
  s.setF f i (s.getF f i - (s.getF f i &&& v))

/-- A field as the CL page's hardware acts on it (R215, R238). DEDUCED, log entry 22. -/
def State.effF (s : State) (f : Fld) (i : Nat) : Nat := Tab.get 0 s.eff (f.key i) ^^^ f.reset

def State.setEff (s : State) (f : Fld) (i v : Nat) : State :=
  { s with eff := Tab.set 0 s.eff (f.key i) ((v % 2 ^ f.width) ^^^ f.reset) }

/-- Bit n of PAGE_EVENT of a page is set (R365). -/
def State.event (s : State) (page inst n : Nat) : State := s.orF (R.PAGE_EVENT.EVENT page) inst (2 ^ n)

/-! ### Time -/

/-- DEV_TIME in ns (R331). -/
def State.now (s : State) : Nat := s.time / 2 ^ 32

/-! ### Parts -/

def State.core (s : State) (i : Nat) : CoreSite := Tab.get {} s.cores i
def State.setCore (s : State) (i : Nat) (c : CoreSite) : State := { s with cores := Tab.set {} s.cores i c }
def State.modCore (s : State) (i : Nat) (f : CoreSite → CoreSite) : State := s.setCore i (f (s.core i))
def State.cluster (s : State) (i : Nat) : Cluster := Tab.get {} s.clusters i
def State.modCluster (s : State) (i : Nat) (f : Cluster → Cluster) : State :=
  { s with clusters := Tab.set {} s.clusters i (f (s.cluster i)) }
def State.region (s : State) (i : Nat) : Region := Tab.get {} s.regions i
def State.modRegion (s : State) (i : Nat) (f : Region → Region) : State :=
  { s with regions := Tab.set {} s.regions i (f (s.region i)) }
def State.job (s : State) (i : Nat) : Option Job := Tab.get none s.jobs i
def State.setJob (s : State) (i : Nat) (j : Option Job) : State := { s with jobs := Tab.set none s.jobs i j }
def State.run (s : State) (i : Nat) : Option LaunchRec := Tab.get none s.running i
def State.setRun (s : State) (i : Nat) (r : Option LaunchRec) : State :=
  { s with running := Tab.set none s.running i r }
def State.launchOf (s : State) (i : Nat) : Option LaunchRec := Tab.get none s.launches i
def State.setLaunch (s : State) (i : Nat) (r : Option LaunchRec) : State :=
  { s with launches := Tab.set none s.launches i r }
/-- The launches of a site that wait behind its first, in order of T_L. -/
def State.laterOf (s : State) (i : Nat) : List LaunchRec := Tab.get [] s.later i
/-- Every launch that waits at a site. -/
def State.waitingAt (s : State) (i : Nat) : List LaunchRec := (s.launchOf i).toList ++ s.laterOf i
def State.setWaiting (s : State) (i : Nat) (l : List LaunchRec) : State :=
  { s.setLaunch i l.head? with later := Tab.set [] s.later i l.tail }
/-- The first launch of a site no longer waits. -/
def State.popLaunch (s : State) (i : Nat) : State := s.setWaiting i (s.laterOf i)
def State.chip (s : State) (i : Nat) : LinkChip := Tab.get {} s.fab.chips i
def State.modChip (s : State) (i : Nat) (f : LinkChip → LinkChip) : State :=
  { s with fab := { s.fab with chips := Tab.set {} s.fab.chips i (f (s.chip i)) } }
def State.port (s : State) (i : Nat) : Port := Tab.get {} s.fab.ports i
def State.modPort (s : State) (i : Nat) (f : Port → Port) : State :=
  { s with fab := { s.fab with ports := Tab.set {} s.fab.ports i (f (s.port i)) } }
def State.partner (s : State) (i : Nat) : Partner := Tab.get {} s.fab.partners i
def State.modPartner (s : State) (i : Nat) (f : Partner → Partner) : State :=
  { s with fab := { s.fab with partners := Tab.set {} s.fab.partners i (f (s.partner i)) } }
def State.window (s : State) (i : Nat) : Window := Tab.get {} s.fab.windows i
def State.modWindow (s : State) (i : Nat) (f : Window → Window) : State :=
  { s with fab := { s.fab with windows := Tab.set {} s.fab.windows i (f (s.window i)) } }
def State.mover (s : State) (m l : Nat) : MovList := Tab.get {} s.movers (16 * m + l)
def State.modMover (s : State) (m l : Nat) (f : MovList → MovList) : State :=
  { s with movers := Tab.set {} s.movers (16 * m + l) (f (s.mover m l)) }
def State.cc (s : State) (i : Nat) : CtlChip := Tab.get {} s.ctl.chips i
def State.modCc (s : State) (i : Nat) (f : CtlChip → CtlChip) : State :=
  { s with ctl := { s.ctl with chips := Tab.set {} s.ctl.chips i (f (s.cc i)) } }
def State.modTally (s : State) (f : Tally → Tally) : State := { s with tally := f s.tally }
def State.modGate (s : State) (f : Gate → Gate) : State :=
  { s with tally := { s.tally with gate := f s.tally.gate } }
def State.modFab (s : State) (f : Fabric → Fabric) : State := { s with fab := f s.fab }
def State.modModule (s : State) (f : Module → Module) : State := { s with module_ := f s.module_ }
def State.modCtl (s : State) (f : Control → Control) : State := { s with ctl := f s.ctl }
def State.modSec (s : State) (f : Security → Security) : State := { s with sec := f s.sec }
def State.modDeck (s : State) (f : Deck → Deck) : State := { s with deck := f s.deck }
def State.modHbm (s : State) (f : Hbm → Hbm) : State := { s with hbm := f s.hbm }
def State.modErrs (s : State) (f : Errors → Errors) : State := { s with errs := f s.errs }
def State.modMesh (s : State) (f : Mesh → Mesh) : State := { s with mesh := f s.mesh }

/-- Apply a change for each member of a list. -/
def each {α : Type} (l : List α) (s : State) (f : State → α → State) : State := l.foldl f s

/-! ### Places (R11 to R13, R326) -/

def clusterOf (site : Nat) : Nat := site / 28
/-- The field a stack, link chiplet or port chiplet attaches to (R11). -/
def stackField (n : Nat) : Nat := if n < 3 then 0 else if n < 5 then 1 else if n < 8 then 2 else if n < 11 then 3 else if n < 13 then 4 else 5
def lcField (n : Nat) : Nat := if n < 3 then 0 else if n < 5 then 3 else if n < 8 then 2 else 5
/-- The network domain of field f. -/
def netRegion (f : Nat) : Nat := 24 + f

/-- The region whose page gives the temperature and supply of a unit of a page group (R294, R326). -/
def unitRegion (group inst : Nat) : Option Nat :=
  match group with
  | 1 => some inst
  | 2 => some (clusterOf inst)
  | 3 => some (30 + inst / 4)
  | 4 => some (netRegion (stackField inst))
  | 5 => some (netRegion (lcField inst))
  | 6 => some (netRegion (lcField (inst / 4)))
  | 7 => some (netRegion (if inst = 0 then 3 else 5))
  | 8 => some inst
  | 9 => some (if inst = 24 then 25 else netRegion (inst / 4))
  | 10 => some 25
  | _ => none

/-! ### Power domains -/

/-- A region is on (R356): POWER_CTL.STATE 4 or 5. DEDUCED, log entry 50. -/
def State.regionOn (s : State) (r : Nat) : Bool :=
  s.module_.v36 && (s.getF R.RGN.POWER_CTL.STATE r == 4 || s.getF R.RGN.POWER_CTL.STATE r == 5)

/-- The domain that hosts the unit of a page is on (R326, R366). DEDUCED, log entry 50. -/
def State.hosted (s : State) (group inst : Nat) : Bool :=
  match group with
  | 2 => s.regionOn (clusterOf inst)
  | 1 => s.regionOn (netRegion (inst / 4))
  | 3 => s.regionOn (30 + inst / 4)
  | 4 => s.module_.v36 && s.module_.hbmOn.contains inst
  | 5 => s.module_.v36 && s.module_.lchOn.contains inst
  | 6 => s.module_.v36 && s.module_.lchOn.contains (inst / 4)
  | 9 => s.regionOn (if inst = 24 then 25 else netRegion (inst / 4))
  | 10 => s.regionOn 25
  | 12 => s.module_.v36 && !s.module_.lchOn.isEmpty
  | 13 => s.module_.v36 && !s.module_.lchOn.isEmpty
  | _ => s.module_.v36

/-- R384: what the blaze map in force says of a site and of a cluster. DESIGN CHOICE, log entry 2. -/
def State.siteState (s : State) (i : Nat) : Nat := Tab.get 1 s.sec.blaze.sites i
def State.role (s : State) (c : Nat) : Nat := Tab.get 2 s.sec.blaze.roles c
def State.siteInService (s : State) (i : Nat) : Bool := s.siteState i == 0 && s.role (clusterOf i) != 2

/-! ### Reports (R293, R295) -/

def unitCode (group inst sub : Nat) : Nat := group + inst * 256 + sub * 2 ^ 18
def wholeUnit (group inst : Nat) : Nat := unitCode group inst 0x3FFF
def rootUnit : Nat := wholeUnit 0 0

/-- The temperature and supply of the region of a unit (R294). -/
def State.unitTemp (s : State) (unit : Nat) : Nat × Nat :=
  match unitRegion (unit % 256) (bits unit 17 8) with
  | some r => (s.getF R.RGN.THERM.TEMP r, s.getF R.RGN.SUPPLY.VOLT r)
  | none => (0, 0)

/-- A unit makes a report; the tally window and the time are those of its making (R294). -/
def State.report (s : State) (r : Report) : State :=
  s.modErrs fun e => { e with reports := e.reports ++
    [{ r with time := s.now, step := s.getF R.TLY.STEP.STEP 0, wrap := s.getF R.TLY.WRAP.WRAP 0,
              temp := (s.unitTemp r.unit).1, volt := (s.unitTemp r.unit).2 }] }

/-- The device id of this device (R255). -/
def State.devId (s : State) : Nat := s.getF R.LCH.FABRIC_ID.ID 0

/-- A report about a unit of this device, made by that unit. -/
def State.reportUnit (s : State) (cls code unit detail : Nat) : State :=
  s.report { cls := cls, code := code, dev := s.devId, unit := unit, repo := unit, detail := detail }

/-- The launch under way on a site, for a report's LAUNCH_SEQ and LCORE. -/
def State.launchTag (s : State) (site : Nat) : Nat × Nat :=
  match s.run site with
  | some r => (r.seq, r.lcore)
  | none => (0, 0xFFFF)

/-- A report about a core site. -/
def State.reportSite (s : State) (site cls code sub pc row col detail : Nat) : State :=
  s.report { cls := cls, code := code, dev := s.devId, unit := unitCode 2 site sub, repo := wholeUnit 2 site,
             seq := (s.launchTag site).1, lcore := (s.launchTag site).2, pc := pc, row := row, col := col, detail := detail }

/-- The place of the alert bits among what was set in the cycle (R8, R412). -/
def alertKey : Nat := 2 ^ 40

/-- Set an alert bit (R8, R413). -/
def State.alert (s : State) (i : Nat) : State :=
  { (s.modModule fun m => { m with alerts := m.alerts ||| 2 ^ i }) with
    fresh := Tab.set 0 s.fresh alertKey (Tab.get 0 s.fresh alertKey ||| 2 ^ i) }

/-! ### The active control chiplet (R357, R358) -/

/-- The lease in force in a port chiplet. -/
def State.leaseOf (s : State) (p : Nat) : Option Lease :=
  ((s.ctl.leases.find? fun e => e.1 == p).map (·.2)).bind fun l => if s.now < l.expiry then some l else none

/-- The chiplet that holds the lease in every powered port chiplet. -/
def State.active (s : State) : Option Nat :=
  match s.ctl.powered with
  | [] => none
  | p :: ps =>
    match s.leaseOf p with
    | none => none
    | some l => if ps.all fun q => (s.leaseOf q).map (·.holder) == some l.holder then some l.holder else none

/-- The chiplet whose security engine the SEC page shows (R400). -/
def State.activeCc (s : State) : Nat := s.getF R.ROOT.CTRL_STATUS.ACTIVE 0

/-- A write from a chiplet that is not active is ignored, counted and reported (R358, R368, R370). -/
def State.refuseWrite (s : State) (cc : Nat) : State :=
  ((s.addF R.ROOT.CTRL_STATUS.REFUSED_WRITES 0 1).reportUnit 9 4 (unitCode 0 0 cc) 0).event 0 0 5

/-- A command that writes a register is performed while a control chiplet is active (R358). -/
def State.asActive (s : State) (f : State → State) : State :=
  if s.active.isSome then f s else if s.module_.v36 then s.refuseWrite s.activeCc else s

/-! ### Counts of the tally record (R173, R273, R276) -/

/-- A physical count of the device section, at once; it saturates at 32 bits. -/
def State.tallyDev (s : State) (off n : Nat) : State :=
  s.modTally fun t => { t with dev := Tab.set 0 t.dev off (satAdd (2 ^ 32 - 1) (Tab.get 0 t.dev off) n) }

/-- The place of an entry of a counter set, in words of 4 bytes; the device-derived counts SMLD_DROPS and
ORDER_DEP stand behind set 0xFF. -/
def setKey (cset : Nat) (e : CEnt) : Nat := 32 * cset + e.key
def smldKey : Nat := 32 * 256
def orderKey : Nat := 32 * 256 + 1

/-- How the entry under a key combines. -/
def combineAt (key a b : Nat) : Nat := if key < smldKey then combine (key % 32) a b else satAdd (2 ^ 32 - 1) a b

def addEntry (t : Tab Nat) (e : Nat × Nat) : Tab Nat :=
  Tab.set 0 t e.1 (combineAt e.1 (Tab.get 0 t e.1) e.2)

/-- A contribution of a cluster's core, pending until its commit (R273). -/
def State.pend (s : State) (cl key n : Nat) : State :=
  s.modCluster cl fun c => { c with pend := addEntry c.pend (key, n) }

/-! ### Holds (R283) -/

/-- A hold is requested for the open window, with its cause bit. -/
def State.requestHold (s : State) (cause : Fld) : State :=
  (s.setF R.TLY.HOLD.REQUESTED 0 1).orF cause 0 1

/-! ### Job partitions -/

/-- The job partition that holds a cluster, by CL.JOB as it acts (R238). -/
def State.jobOf (s : State) (c : Nat) : Option Nat :=
  if s.effF R.CL.JOB.ACTIVE c = 1 then some (s.effF R.CL.JOB.JOB_ID c) else none

/-- The control complex binds a cluster to a job partition, or releases it: CL.JOB acts at once (R237).
DEDUCED, log entry 22. -/
def State.bindCl (s : State) (c : Nat) (j : Option (Nat × Nat)) : State :=
  let put := fun (s : State) (f : Fld) (v : Nat) => (s.setF f c v).setEff f c v
  match j with
  | some (id, i) => put (put (put s R.CL.JOB.JOB_ID id) R.CL.JOB.LOGICAL i) R.CL.JOB.ACTIVE 1
  | none => put s R.CL.JOB.ACTIVE 0

/-- The clusters of the replay group of a cluster (R299); a cluster of no declared group is alone.
DESIGN CHOICE, log entry 20. -/
def State.groupOf (s : State) (c : Nat) : List Nat :=
  match s.jobOf c with
  | none => [c]
  | some j =>
    match s.job j with
    | none => [c]
    | some b =>
      match b.clusters.idxOf? c with
      | none => [c]
      | some i =>
        let g := b.groupOf.getD i i
        ((List.range b.clusters.length).filter fun k => b.groupOf.getD k k == g).filterMap fun k => b.clusters[k]?

/-- The core sites of a cluster. -/
def sitesOf (c : Nat) : List Nat := (List.range 28).map (28 * c + ·)

/-- The logical cores of a job partition whose kernels have not ended, as sites. -/
def State.liveSites (s : State) (cls : List Nat) : List Nat :=
  (cls.flatMap sitesOf).filter fun i => (s.run i).isSome

/-- The values of the CL fields act as written (R215, R238): every RW field of a CL page.
DEDUCED, log entry 22. -/
def clFields : List Fld :=
  (catCL0 ++ catCL1).flatMap fun r =>
    if r.fld.acc = .rw then (List.range (max 1 r.count)).map fun n => r.fld.at r.stride n else []

def isFence (f : Fld) : Bool := decide (0x100 ≤ f.off) && decide (f.off < 0x140)

/-- All RW fields of a cluster act from now on. DEDUCED, log entry 22. -/
def State.latchCl (s : State) (c : Nat) : State :=
  each clFields s fun s f => s.setEff f c (s.getF f c)

/-- Write an RW field of a CL page: it acts at once while the cluster belongs to no job partition, but for a
fence register, which acts from the next launch (R215, R238). DEDUCED, log entry 22. -/
def State.writeCl (s : State) (f : Fld) (c v : Nat) : State :=
  let held := (s.jobOf c).isSome
  let s := s.setF f c v
  if held || isFence f then s else s.setEff f c v

end Sys2Proof.Machine
end

