-- ==== Sys2Proof/Machine/MemoryOps.lean ====
section
/-! DEFINITION. The device address space (R192 to R194), reads and writes of it, gather buffers (R199 to
R202), poison (R211, R212) and partition fences (R214, R216). -/

namespace Sys2Proof.Machine

/-! ### The address map -/

/-- Where a mapped device address lies; `chip` gives the spread-view address of the same byte (R193). -/
inductive Place where
  | chip (a : Nat)
  | control
  | hbm
  | hbmRes
  | tier2
  deriving DecidableEq, Repr

def spreadSize : Nat := 24 * 640 * 2 ^ 20
def homeBase : Nat := 0x400000000
def hbmBase : Nat := 0x10000000000
def hbmSize : Nat := 992 * 2 ^ 30
def resBase : Nat := 0x1F800000000
def resSize : Nat := 32 * 2 ^ 30
def t2Base : Nat := 0x20000000000
def ctlBase : Nat := 0xF00000000

/-- The mapped size of the tier-2 window in bytes, 2 TiB at most (R192, R209). -/
def State.t2Size (s : State) : Nat := min 2048 (s.getF R.PCH.T2_CTL.WINDOW_GIB 0) * 2 ^ 30

/-- R192: the place of an address; none when it is unmapped. -/
def State.place (s : State) (a : Nat) : Option Place :=
  if a < spreadSize then some (.chip a)
  else if homeBase ≤ a && a < homeBase + 24 * 2 ^ 30 then
    let n := (a - homeBase) / 2 ^ 30
    let o := (a - homeBase) % 2 ^ 30
    if o < 640 * 2 ^ 20 then some (.chip ((24 * (o / 512) + n) * 512 + o % 512)) else none
  else if ctlBase ≤ a && a < ctlBase + 2 ^ 28 then some .control
  else if hbmBase ≤ a && a < hbmBase + hbmSize then some .hbm
  else if resBase ≤ a && a < resBase + resSize then some .hbmRes
  else if t2Base ≤ a && a < t2Base + s.t2Size then some .tier2
  else none

/-- The slice and slice line of a spread address (R193). -/
def sliceOf (a : Nat) : Nat := a / 512 % 24
def sliceLine (a : Nat) : Nat := a / 512 / 24

/-- The stack of an address of the HBM program region or reserved region, its stack frame and the byte in
the frame (R194). -/
def hbmAt (a : Nat) : Nat × Nat × Nat :=
  if a < resBase then
    let h := a - hbmBase
    ((h / 4096) % 16, h / 65536, h % 4096)
  else
    let r := a - resBase
    (r / 0x80000000, 16252928 + r % 0x80000000 / 4096, r % 4096)

/-- The address of the first byte of a stack frame (R194). -/
def hbmAddr (stack frame : Nat) : Nat :=
  if frame < 16252928 then hbmBase + frame * 65536 + stack * 4096
  else resBase + stack * 0x80000000 + (frame - 16252928) * 4096

/-- The first frame of a stack's spare-frame pool: the last 16 MiB of its reserved area (R194). -/
def poolBase : Nat := 16773120

/-- A frame's key: its stack and its number. -/
def frameKey (stack frame : Nat) : Nat := stack * 2 ^ 24 + frame

/-- The frame whose bytes a frame's addresses reach: a pool frame in use holds those of a retired frame (R207).
DEDUCED, log entry 17. -/
def Hbm.owner (h : Hbm) (key : Nat) : Nat :=
  match h.moved.find? fun p => p.1 == key with
  | some p => p.2
  | none => key

/-- The frame that serves a frame's accesses: the pool frame taken last for it, if any (R207). -/
def Hbm.serves (h : Hbm) (key : Nat) : Nat :=
  match h.moved.reverse.find? fun p => p.2 == key with
  | some p => p.1
  | none => key

/-- Pseudo-channel of a stack frame (R194). -/
def pseudoChannel (frame : Nat) : Nat := frame % 64

/-- The pieces of a byte range that lie in one 512-byte line each. -/
def lineSegs (a n : Nat) : List (Nat × Nat) :=
  if n = 0 then [] else
  (List.range ((a + n - 1) / 512 - a / 512 + 1)).map fun k =>
    let lo := max a ((a / 512 + k) * 512)
    let hi := min (a + n) ((a / 512 + k + 1) * 512)
    (lo, hi - lo)

/-- The address under which a byte is held: both views of chip memory hold the same bytes (R193), and a pool
frame in use is held under the address of the frame it replaces (R207). -/
def State.canon (s : State) (a : Nat) : Nat :=
  match s.place a with
  | some (.chip b) => b
  | some .hbmRes =>
    let (st, f, o) := hbmAt a
    let k := s.hbm.owner (frameKey st f)
    if k = frameKey st f then a else hbmAddr (k / 2 ^ 24) (k % 2 ^ 24) + o
  | _ => a

/-- Every byte of a range is mapped memory, not control space. -/
def State.memRange (s : State) (a n : Nat) : Bool :=
  (lineSegs a n).all fun g => match s.place g.1, s.place (g.1 + g.2 - 1) with
    | some .control, _ => false
    | _, some .control => false
    | some _, some _ => true
    | _, _ => false

/-- A range lies wholly in the HBM reserved region. -/
def inReserved (a n : Nat) : Bool := decide (resBase ≤ a) && decide (a + n ≤ resBase + resSize)

/-! ### Gather buffers (R199) -/

/-- The sectors of a line that a byte mask covers in full. -/
def fullSectors (mask : Nat) : List Nat :=
  (List.range 8).filter fun i => bits mask (64 * i + 63) (64 * i) == 2 ^ 64 - 1

/-- A sector's poison is cleared; a later meeting of it is a first one again (R211). -/
def State.clearPoison (s : State) (sec : Nat) : State :=
  if Tab.get false s.poison sec then
    { s with poison := Tab.set false s.poison sec false,
             errs := { s.errs with met := s.errs.met.filter (· != sec) } }
  else s

def State.setPoison (s : State) (sec : Nat) : State := { s with poison := Tab.set false s.poison sec true }

/-- An entry is written into its slice: full sectors lose their poison (R199, R211). -/
def State.writeEntry (s : State) (e : GEntry) : State :=
  let s := s.modDeck fun d => { d with gather := d.gather.filter (· != e) }
  each (fullSectors e.mask) s fun s i => s.clearPoison (((e.line * 24 + e.slice) * 512) / 64 + i)

/-- The entries of a line are written before its line is read (R199). -/
def State.flushLine (s : State) (slice line : Nat) : State :=
  each (s.deck.gather.filter fun e => e.slice == slice && e.line == line) s State.writeEntry

/-- The lines of a range are read: their gather entries are written first. -/
def State.flushRange (s : State) (a n : Nat) : State :=
  each (lineSegs a n) s fun s g =>
    match s.place g.1 with
    | some (.chip b) => s.flushLine (sliceOf b) (sliceLine b)
    | _ => s

def byteMask (lo n : Nat) : Nat := (2 ^ n - 1) * 2 ^ lo

/-- A write narrower than a line enters a gather entry of its port (R199). DESIGN CHOICE, log entry 16. -/
def State.gatherWrite (s : State) (port b n : Nat) : State :=
  let sl := sliceOf b
  let ln := sliceLine b
  let m := byteMask (b % 512) n
  let others := s.deck.gather.filter fun e => e.slice == sl && e.line == ln && e.port != port
  let s := each others s State.writeEntry
  match s.deck.gather.find? fun e => e.slice == sl && e.line == ln with
  | some e =>
    let e' := { e with mask := e.mask ||| m, since := s.now }
    let s := s.modDeck fun d => { d with gather := d.gather.map fun x => if x = e then e' else x }
    if e'.mask = 2 ^ 512 - 1 then s.writeEntry e' else s
  | none =>
    let mine := s.deck.gather.filter fun e => e.slice == sl && e.port == port
    let s := if 16 ≤ mine.length then match mine with
        | e :: _ => s.writeEntry e
        | [] => s
      else s
    s.modDeck fun d => { d with gather := d.gather ++ [⟨sl, port, ln, m, s.now⟩] }

/-- The line is written whole: earlier entries of it are superseded and its poison is cleared. -/
def State.wholeLine (s : State) (b : Nat) : State :=
  let s := s.modDeck fun d => { d with gather := d.gather.filter fun e => !(e.slice == sliceOf b && e.line == sliceLine b) }
  each (List.range 8) s fun s i => s.clearPoison (b / 512 * 8 + i)

/-- The 64-byte sectors that lie wholly in a range. -/
def wholeSectors (a n : Nat) : List Nat :=
  let lo := (a + 63) / 64
  (List.range ((a + n) / 64 - lo)).map (lo + ·)

/-- The 64-byte sectors that a range touches. -/
def sectorsOf (a n : Nat) : List Nat :=
  if n = 0 then [] else (List.range ((a + n - 1) / 64 - a / 64 + 1)).map (a / 64 + ·)

/-! ### Reads and writes -/

/-- A tier-2 address whose root-port link is down reads poisoned and takes no write (R209). -/
def State.t2Down (s : State) (a : Nat) : Bool :=
  match s.place a with
  | some .tier2 =>
    let ways := s.getF R.PCH.T2_CTL.WAYS 0
    let ports := s.cxl.ports
    let n := match ways with | 0 => 1 | 1 => 2 | _ => 4
    let p := if ways = 0 then
        (ports.foldl (fun (acc : Nat × Option Nat) p =>
          let cap := s.cxl.caps.getD p 0 * 2 ^ 30
          match acc.2 with
          | some _ => acc
          | none => if a - t2Base < acc.1 + cap then (acc.1, some p) else (acc.1 + cap, none)) (0, none)).2
      else ports[(a - t2Base) / 4096 % n]?
    match p with
    | some p => !s.cxl.up.contains p
    | none => false
  | _ => false

/-- The bytes of a mapped range, as every source reads them (R200). DESIGN CHOICE, log entry 2. -/
def State.memRead (s : State) (a n : Nat) : List Byte :=
  (lineSegs a n).flatMap fun g => Tab.read 0 s.mem (s.canon g.1) g.2

/-- The poisoned sectors that a range meets. -/
def State.poisonIn (s : State) (a n : Nat) : List Nat :=
  (lineSegs a n).flatMap fun g => (sectorsOf (s.canon g.1) g.2).filter fun k => s.t2Down g.1 || Tab.get false s.poison k

/-- Write bytes of one line; a write to tier 2 over a link that is down is dropped and counted (R209). -/
def State.writeSeg (s : State) (port a : Nat) (bs : List Byte) : State :=
  if s.t2Down a then s.addF R.PCH.T2_EVENTS.LINK_DOWN_DROPS 0 1 else
  let b := s.canon a
  let s := { s with mem := Tab.write 0 s.mem b bs }
  match s.place a with
  | some (.chip _) => if bs.length = 512 then s.wholeLine b else s.gatherWrite port b bs.length
  | _ => each (wholeSectors b bs.length) s State.clearPoison

/-- Write bytes to mapped memory through a slice port (R199, R200). -/
def State.memWrite (s : State) (port a : Nat) (bs : List Byte) : State :=
  each (lineSegs a bs.length) s fun s g => s.writeSeg port g.1 ((bs.drop (g.1 - a)).take g.2)

/-- The bytes of a range that lie in poisoned sectors, by their place in the range. -/
def State.poisonedAt (s : State) (a n : Nat) : List Nat :=
  (List.range n).filter fun i => s.t2Down (a + i) || Tab.get false s.poison (s.canon (a + i) / 64)

/-- A copy carries poison: the sectors that receive poisoned bytes become poisoned (R212); a write that is
dropped carries none (R209). -/
def State.poisonTo (s : State) (dst n : Nat) (hit : List Nat) : State :=
  let secs := ((hit.filter fun i => !s.t2Down (dst + i)).map fun i => s.canon (dst + i) / 64).dedup
  let s := if secs.isEmpty then s else s.flushRange dst n
  each secs s State.setPoison

/-- The ports that cores and services use (R195): cores take ports 0 to 4 and services 5 to 7.
DESIGN CHOICE, log entry 16. -/
def corePort (site : Nat) : Nat := site % 5
def servicePort (k : Nat) : Nat := 5 + k % 3

/-- An aligned 8-byte add without return, modulo 2^64 (R202). -/
def State.atomicAdd (s : State) (port a v : Nat) : State :=
  let s := s.flushRange a 8
  s.memWrite port a (natLE 8 ((leNat (s.memRead a 8) + v) % 2 ^ 64))

/-- Every read of a line that meets a poisoned sector in the deck counts once at its slice (R212); in tier 2
each line counts as poison received, or as an access over a link that is down (R209, R218). -/
def State.countPoison (s : State) (secs : List Nat) : State :=
  each (secs.map (· / 8)).dedup s fun s l =>
    let a := l * 512
    if a < spreadSize then s.addF R.DSL.ECC_STATUS.POISON_READS (sliceOf a) 1
    else if a < t2Base then s
    else s.addF (if s.t2Down a then R.PCH.T2_EVENTS.LINK_DOWN_DROPS else R.PCH.T2_EVENTS.POISON_IN) 0 1

/-- The unit a sector's poison is reported on: its deck slice, its HBM controller, or the root port chiplet
of tier 2. -/
def sectorUnit (sec : Nat) : Nat :=
  let a := sec * 64
  if a < spreadSize then wholeUnit 3 (sliceOf a)
  else if a < t2Base then wholeUnit 4 (hbmAt a).1
  else wholeUnit 7 0

/-- A reader that would use the data meets poisoned sectors: the first meeting of each raises class 0x1,
code 0x07 (R212). DEDUCED, log entry 17. -/
def State.meetPoison (s : State) (secs : List Nat) : State :=
  each secs (s.countPoison secs) fun s k =>
    if s.errs.met.contains k then s
    else
      let s := s.modErrs fun e => { e with met := e.met ++ [k] }
      s.report { cls := 1, code := 7, dev := s.devId, unit := sectorUnit k, repo := sectorUnit k, ptr := k * 64 }

/-! ### Fences (R214 to R216) -/

/-- The space and unit of an address under R214; none for what lies in no window. -/
def State.fenceUnit (s : State) (a : Nat) : Option (Nat × Nat) :=
  match s.place a with
  | some (.chip b) => some (0, sliceLine b)
  | some .hbm => some (1, (a - hbmBase) / 65536)
  | some .tier2 => some (2, (a - t2Base) / 131072)
  | _ => none

/-- R214: a valid window of cluster c (not read-only, for a write) covers a unit. -/
def State.fenceHas (s : State) (c : Nat) (wr : Bool) (sp u : Nat) : Bool :=
  (List.range 8).any fun n =>
    let lo := fun (f : Fld) => s.effF (f.at 8 n) c
    lo R.CL.FENCE_LOn.VALID == 1 && !(wr && lo R.CL.FENCE_LOn.READ_ONLY == 1) &&
      lo R.CL.FENCE_LOn.SPACE == sp && decide (lo R.CL.FENCE_LOn.FIRST ≤ u) && decide (u ≤ lo R.CL.FENCE_HIn.LAST)

/-- R214: every byte of an access lies in a window of the cluster. -/
def State.fenceOk (s : State) (c : Nat) (wr : Bool) (a n : Nat) : Bool :=
  (lineSegs a n).all fun g => match s.fenceUnit g.1, s.fenceUnit (g.1 + g.2 - 1) with
    | some u, some v => s.fenceHas c wr u.1 u.2 && s.fenceHas c wr v.1 v.2
    | _, _ => false

/-- An access of the control complex, or of a device outside, to an unmapped address is refused as under R216:
it counts in the tally record and is reported; it belongs to no cluster (R192). DEDUCED, log entry 17. -/
def State.refuseUnmapped (s : State) : State := (s.tallyDev 0x94 1).reportUnit 5 1 rootUnit 0

/-- A report by a core's instruction at `pc`, or by the cluster's services (R294). -/
def State.reportBy (s : State) (c : Nat) (src : Option (Nat × Nat)) (cls code detail : Nat) : State :=
  match src with
  | some (site, pc) => s.reportSite site cls code 0x3FFF pc 0 0 detail
  | none => s.reportUnit cls code (wholeUnit 1 c) detail

/-- R216: a refused access of a core (`src`: its site and the instruction) or of a service of the cluster is counted and
reported, and a hold is requested. -/
def State.refuse (s : State) (c : Nat) (wr : Bool) (src : Option (Nat × Nat)) : State :=
  let s := s.addF (if wr then R.CL.FENCE_EVENTS.REFUSED_WRITE else R.CL.FENCE_EVENTS.REFUSED_READ) c 1
  let s := s.tallyDev 0x94 1
  let s := s.reportBy c src 5 1 0
  if (s.jobOf c).isSome then s.requestHold R.TLY.HOLD.CAUSE_FENCE else s

end Sys2Proof.Machine
end

