-- ==== Sys2Proof/Machine/ErrorOps.lean ====
section
/-! DEFINITION. Error records as they stand in the device error ring (R294, R298, R307, R325). -/

namespace Sys2Proof.Machine

/-- The 64 bytes of an error record (R294). -/
def ErrRec.bytes (e : ErrRec) : List Byte :=
  let r := e.rep
  natLE 4 (e.rseq.getD 0) ++ natLE 1 r.cls ++ natLE 1 r.code ++ natLE 1 e.flags ++ natLE 1 e.tier ++
    natLE 8 r.time ++ natLE 4 r.step ++ natLE 2 r.wrap ++ natLE 2 r.dev ++ natLE 4 r.unit ++ natLE 4 r.repo ++
    natLE 4 r.seq ++ natLE 2 r.lcore ++ natLE 2 r.pc ++ natLE 2 r.row ++ natLE 2 r.col ++ natLE 2 r.temp ++ natLE 2 r.volt ++
    natLE 4 e.echo ++ natLE 4 r.detail ++ natLE 8 r.ptr

/-- A record that another device has sent: its report, and how many further reports it stands for (R294, R297). -/
def Report.ofRecord (b : List Byte) : Report × Nat :=
  let f := fun (at_ n : Nat) => leNat ((b.drop at_).take n)
  ({ cls := f 4 1, code := f 5 1, flags := f 6 1 &&& 12, time := f 8 8, step := f 16 4, wrap := f 20 2, dev := f 22 2, unit := f 24 4,
     repo := f 28 4, seq := f 32 4, lcore := f 36 2, pc := f 38 2, row := f 40 2, col := f 42 2, temp := f 44 2, volt := f 46 2,
     detail := f 52 4, ptr := f 56 8, remote := true }, f 48 4)

/-- The ring is enabled: BASE is not zero and addresses 2,304 KiB of the HBM reserved region (R298). -/
def ringOk (base : Nat) : Bool := base != 0 && inReserved (base * 4096) (2304 * 1024)

def State.ringOn (s : State) : Bool := ringOk (s.getF R.ERR.RING_BASE.BASE 24)

/-- The place of a record in the ring. -/
def State.ringAt (s : State) (rseq : Nat) : Nat := s.getF R.ERR.RING_BASE.BASE 24 * 4096 + 64 * (rseq % 4096)

/-- Write a record that has its place into the ring. -/
def State.ringWrite (s : State) (e : ErrRec) : State :=
  match e.rseq with
  | some q => if s.ringOn then s.memWrite (servicePort 0) (s.ringAt q) e.bytes else s
  | none => s

def State.aggOf (s : State) (k : Nat) : List ErrRec := Tab.get [] s.errs.aggs k
def State.setAgg (s : State) (k : Nat) (l : List ErrRec) : State := s.modErrs fun e => { e with aggs := Tab.set [] e.aggs k l }

/-- Change the records that a test selects, wherever they are held: open records of every aggregator, the
early store, and the ring. -/
def State.noteRecords (s : State) (p : ErrRec → Bool) (f : ErrRec → ErrRec) : State :=
  let g := fun e => if p e then f e else e
  let hit := (s.aggOf 24).filter p
  let s := s.modErrs fun e => { e with
    aggs := (List.range 25).foldl (fun t k => Tab.set [] t k ((Tab.get [] t k).map g)) e.aggs, early := e.early.map g }
  each hit s fun s e => s.ringWrite (f e)

/-- Set FLAGS bits of the records that name a unit, and of the reports on their way that will (R294, R306, R320). -/
def State.flagRecords (s : State) (p : Report → Bool) (bits : Nat) : State :=
  let s := s.noteRecords (fun e => p e.rep) fun e => { e with flags := e.flags ||| bits }
  s.modErrs fun e => { e with reports := e.reports.map fun r => if p r then { r with flags := r.flags ||| bits } else r }

/-- The first free capture slot (R307, R325): none while the ring is disabled. -/
def State.freeCapture (s : State) : Option Nat :=
  if s.ringOn then (List.range 16).find? fun i => !flag (s.getF R.ERR.CAPTURE.IN_USE 24) i else none

/-- The place of a capture slot (R307). DEDUCED, log entry 37. -/
def State.captureAt (s : State) (i : Nat) : Nat := s.getF R.ERR.RING_BASE.BASE 24 * 4096 + 0x40000 + i * 0x20000

end Sys2Proof.Machine
end

