-- ==== Sys2Proof/Machine/ClusterOps.lean ====
section
/-! DEFINITION. What happens to the cores of a cluster together: completion words (R234), kernel stops
(R319), cluster partition resets (R314), tokens at their targets (R102, R229, R303), contributions and
events that a core's instructions raise (R173, R273). -/

namespace Sys2Proof.Machine

/-! ### Completion words (R234) -/

def completionWord (code state kind seq : Nat) : Nat := code + state * 2 ^ 16 + kind * 2 ^ 20 + seq * 2 ^ 32

/-- A core writes its completion word; with STATE 2, 3 or 4 it adds 1 to the event counter (R202, R234). -/
def State.complete (s : State) (site : Nat) (r : LaunchRec) (state code kind : Nat) : State :=
  let s := s.memWrite (corePort site) (r.area + 8 * r.lcore) (natLE 8 (completionWord code state kind r.seq))
  if 2 ≤ state then s.atomicAdd (corePort site) r.ctr 1 else s

/-- A core stops on a fault: STATE 3 with the contents of CORE.SEQ_FAULT (R234). -/
def State.stopCore (s : State) (site : Nat) : State :=
  match s.run site with
  | none => s
  | some r =>
    let s := s.complete site r 3 (s.getF R.CORE.SEQ_FAULT.FAULT_PC site) (s.getF R.CORE.SEQ_FAULT.KIND site)
    let s := if (s.launchOf site).any (·.resume) then s.popLaunch site else s
    (s.setRun site none).modCore site fun c => { c with st := .stopped, drain := .none, wait := .none, atMark := none }

/-- R319: a kernel fault stops every core of the group and discards its pending contributions.
DEDUCED, log entry 33. -/
def State.groupStop (s : State) (c : Nat) : State :=
  let g := s.groupOf c
  let s := each (s.liveSites g) s State.stopCore
  each g s fun s c =>
    (s.modCluster c fun x => { x with pend := [], stopped := true, want := none, recov := none }).setF R.CL.REPLAY_STATUS.STATE c 4

/-! ### Tokens (R102, R229, R303) -/

/-- The group commit state of the clusters: a site's token key. -/
def tokKey (site tok : Nat) : Nat := 256 * (site % 28) + tok

/-- Whether a source lies in the group of a cluster (R303): sources below 1000 are sites. -/
def State.inGroup (s : State) (src c : Nat) : Bool := decide (src < 1000) && (s.groupOf c).contains (clusterOf src)

/-- Write CORE.SEQ_FAULT and stop issue at a core whose sequencer faults (R94, R118); the group stops once
the earlier instructions have run to completion. -/
def State.faultAt (s : State) (site pc kind opc : Nat) : State :=
  let s := s.setF R.CORE.SEQ_FAULT.FAULT_PC site pc
  let s := s.setF R.CORE.SEQ_FAULT.KIND site kind
  s.setF R.CORE.SEQ_FAULT.OPCODE site opc

/-- The content of CORE.SEQ_FAULT, as DETAIL of a class 0x4 record holds it (R118, R294). -/
def State.seqFaultWord (s : State) (site : Nat) : Nat :=
  s.getF R.CORE.SEQ_FAULT.FAULT_PC site + s.getF R.CORE.SEQ_FAULT.KIND site * 2 ^ 16 + s.getF R.CORE.SEQ_FAULT.OPCODE site * 2 ^ 20

/-- The report of a kernel fault, class 0x4 (R293); a check event with STOP has its own report of class 0x3. -/
def State.faultReport (s : State) (site pc kind opc : Nat) : State :=
  if kind = 5 then s
  else s.reportSite site 4 (if kind = 0 then 1 else kind) 0x3FFF pc 0 0 (pc + kind * 2 ^ 16 + opc * 2 ^ 20)

/-- A sequencing fault of a core outside issue, by the instruction of opcode `opc` at `pc` (R89, R94, R95, R102). A core
that a fault has stopped keeps the fault it recorded first. DEDUCED, log entry 9. -/
def State.seqFault (s : State) (site pc opc : Nat) : State :=
  let c := s.core site
  if c.st = .stopped then s else
  let s := (s.faultAt site pc 3 opc).faultReport site pc 3 opc
  if c.fly.isEmpty then (s.modCore site fun c => { c with st := .stopped }).groupStop (clusterOf site)
  else s.modCore site fun c => { c with st := .stopped, drain := .fault .sequencing, wait := .none }

/-- Units of a token reach a core (R102, R224). At a router that holds an excess of the token they join it
(R303). A count that would pass 65,535 raises a sequencing fault while a kernel runs; the spec names no instruction for
it, and CORE.SEQ_FAULT takes the place of the sequencer with OPCODE 0. DEDUCED, log entry 51. -/
def State.deliver (s : State) (src site tok n : Nat) : State :=
  let cl := clusterOf site
  let k := tokKey site tok
  let s := if s.inGroup src cl then s else
    s.modCluster cl fun c => { c with ext := Tab.set 0 c.ext k (satAdd (2 ^ 32 - 1) (Tab.get 0 c.ext k) n) }
  let c := s.core site
  if 0 < Tab.get 0 (s.cluster cl).excess k then
    s.modCluster cl fun x => { x with excess := Tab.set 0 x.excess k (Tab.get 0 x.excess k + n) }
  else if c.token tok + n ≤ 65535 then s.modCore site fun c => c.setToken tok (c.token tok + n)
  else
    let s := s.modCore site fun c => c.setToken tok 65535
    if (s.run site).isSome then s.seqFault site c.pc 0 else s

/-- TWAIT has taken units: the router delivers what it holds in excess as far as there is room (R303).
DEDUCED, log entry 51. -/
def State.deliverExcess (s : State) (site tok : Nat) : State :=
  let cl := clusterOf site
  let k := tokKey site tok
  let e := Tab.get 0 (s.cluster cl).excess k
  let room := 65535 - (s.core site).token tok
  let n := min e room
  if n = 0 then s else
  (s.modCluster cl fun x => { x with excess := Tab.set 0 x.excess k (e - n) }).modCore site
    fun c => c.setToken tok (c.token tok + n)

/-- A signal that delivers nothing (R229), of a core's TSIG (`src`: its site and address) or of CL.TSIG: counted at the
issuing cluster, with a record. DEDUCED, log entry 51. -/
def State.dropToken (s : State) (cl : Nat) (src : Option (Nat × Nat)) : State :=
  let s := (s.addF R.CL.TOKEN_DROPS.DROPS cl 1).tallyDev 0x98 1
  s.reportBy cl src 4 5 ((src.map fun p => s.seqFaultWord p.1).getD 0)

/-- The mover list that cluster c binds as (m, l), by CL.MOVER_LISTn (R238). -/
def State.bindsList (s : State) (c m l : Nat) : Bool :=
  (List.range 4).any fun n =>
    s.effF (R.CL.MOVER_LISTn.VALID.at 4 n) c == 1 && s.effF (R.CL.MOVER_LISTn.MOVER.at 4 n) c == m &&
      s.effF (R.CL.MOVER_LISTn.LIST.at 4 n) c == l && decide (m < 6) && decide (l < 15)

/-- The cluster that binds a mover list (R230). -/
def State.listOwner (s : State) (m l : Nat) : Option Nat := (List.range 24).find? fun c => s.bindsList c m l

/-- The base of a bound mover list's ring (R238). -/
def State.listBase (s : State) (m l : Nat) : Option Nat :=
  (s.listOwner m l).bind fun c =>
    ((List.range 4).find? fun n =>
      s.effF (R.CL.MOVER_LISTn.VALID.at 4 n) c == 1 && s.effF (R.CL.MOVER_LISTn.MOVER.at 4 n) c == m &&
        s.effF (R.CL.MOVER_LISTn.LIST.at 4 n) c == l).map fun n => s.effF (R.CL.MOVER_LISTn.BASE.at 4 n) c * 1024

/-- Two clusters belong to one job partition (R229). -/
def State.sameJob (s : State) (a b : Nat) : Bool :=
  a == b || ((s.jobOf a).isSome && s.jobOf a == s.jobOf b)

/-- The target of a signal-map entry for a core of cluster c; none where R229 delivers nothing. -/
def State.signalTarget (s : State) (c w : Nat) : Option TokTo :=
  if !flag w 0 then none
  else if !flag w 1 then
    let tc := bits w 6 2
    let ts := bits w 11 7
    let t := bits w 19 12
    if 23 < tc || 27 < ts || 0xFE ≤ t then none
    else if s.siteInService (28 * tc + ts) && s.sameJob c tc then some (.core (28 * tc + ts) t)
    else none
  else
    let m := bits w 22 20
    let l := bits w 26 23
    if 5 < m || l = 15 then none
    else match s.listOwner m l with
      | some o => if s.sameJob c o then some (.list m l o) else none
      | none => none

/-! ### Events of instructions -/

/-- A later fault before the replay of an earlier one takes its place (R322); the site whose arrays are to be rotated
stays known (R306). -/
def Recovery.after (r : Recovery) : Option Recovery → Recovery
  | none => r
  | some o => if o.spin && !r.spin then { o with since := r.since, kind := r.kind, held := r.held } else r

/-- DETAIL of a class 0x8 record: MARK_ID, recovery time, and whether route shares were rescaled (R294). -/
def State.recDetail (s : State) (c us : Nat) (rescaled : Bool) : Nat :=
  s.getF R.CL.REPLAY_STATUS.MARK_ID c + min us 32767 * 2 ^ 16 + (if rescaled then 2 ^ 31 else 0)

/-- A group's replay is asked for (R306, R314, R317): it is stopping (R325), and how far each of its cores has come is
known (R315). Outside replay mode the job partition is reset instead (R305), which the control complex does under
GROUP_REPLAY or JOB_PARTITION_RESET. DEDUCED, log entry 32. -/
def State.wantReplay (s : State) (c : Nat) (r : Recovery) : State :=
  if (s.cluster c).stopped then s else
  let g := s.groupOf c
  let s := each (s.liveSites g) s fun s i =>
    let n := s.getF R.CORE.INSTR_CNT.COUNT i
    s.modCore i fun x => { x with goal := n - x.mark0 }
  each g s fun s c => (s.modCluster c fun x => { x with want := some (r.after x.want) }).setF R.CL.REPLAY_STATUS.STATE c 1

/-- A residue check finds an inequality (R55, R56, R306): counted, and the group is to be replayed with the
arrays of the site rotated; where the same pass mismatches again in that replay, the repeat is noted.
DEDUCED, log entry 33. -/
def State.residueEvent (s : State) (site : Nat) (pass : Bool) (array sub row col detail : Nat) : State :=
  let s := s.tallyDev 0x80 1
  let cl := clusterOf site
  let new : Recovery := {
    since := s.now, kind := 0, site := some site, array := array, passNo := (s.core site).passes, spin := true,
    code := if pass then 1 else 2, sub := sub, row := row, col := col, detail := detail }
  match (s.cluster cl).recov with
  | some r =>
    if r.rotated && r.site == some site && r.passNo == (s.core site).passes then
      s.modCluster cl fun x => { x with recov := some { r with again := true, sub := sub, row := row, col := col, detail := detail } }
    else s.wantReplay cl new
  | none => s.wantReplay cl new

/-- Apply one event of an instruction issued at `pc`. -/
def State.applyEv (s : State) (site pc : Nat) (e : Ev) : State :=
  match e with
  | .cnt set en n => s.pend (clusterOf site) (setKey set en) n
  | .smldDrop n => s.pend (clusterOf site) smldKey n
  | .orderDep => s.pend (clusterOf site) orderKey 1
  | .reg f n => (s.addF f site n)
  | .peak f v => s.peakF f site v
  | .report cls code sub row col detail =>
    let s := if cls = 3 && code = 1 then s.tallyDev 0x84 1 else s
    s.reportSite site cls code sub pc row col detail
  | .residue pass array sub row col detail => s.residueEvent site pass array sub row col detail

def State.applyEvs (s : State) (site pc : Nat) (l : List Ev) : State := each l s fun s e => s.applyEv site pc e

/-! ### Cluster partition reset (R198, R225, R314) -/

/-- The counts of a CORE page that restart at zero when the cluster partition is reset. -/
def coreCounts : List Fld :=
  (catCORE0 ++ catCORE1).filterMap fun r => if r.fld.acc = .ro && r.fld.off != 0x1C4 then some r.fld else none

/-- A core site after its logic is reset: what its memories hold stays, no kernel runs. DEDUCED, log entry 14. -/
def CoreSite.afterReset (c : CoreSite) (now : Nat) : CoreSite :=
  { lm := c.lm, rot := c.rot, dead := c.dead, hbAt := now, tok := c.tok, mark0 := c.mark0, goal := c.goal }

/-- The cluster partition is reset: its cores' logic and the counts tied to it (R118, R171, R238). Accesses
of its cores not yet accepted are discarded; deck content and mesh paths stay (R198, R225). -/
def State.resetCluster (s : State) (c : Nat) : State :=
  let s := each (sitesOf c) s fun s i =>
    let s := s.modCore i fun x => x.afterReset s.now
    each coreCounts s fun s f => s.setF f i 0
  let s := (s.setF R.CL.TOKEN_DROPS.DROPS c 0).setF R.CL.LULL_STATUS.ACTIVE c 0
  s.addF R.CL.REPLAY_COUNT.RESETS c 1

/-- An uncorrectable error in a cluster's memory, or poison met by it (R212, R314): the cluster partition is
reset, a march of the memory of the site, where one is known, runs, and the group is to be replayed. -/
def State.partitionReset (s : State) (c : Nat) (site : Option Nat) : State :=
  let s := s.wantReplay c { since := s.now, kind := 2, site := site }
  let s := s.resetCluster c
  let s := s.modCluster c fun x => { x with march := site.or x.march }
  s.reportUnit 8 4 (wholeUnit 1 c) (s.recDetail c 0 false)

/-- R212, R314: the partition of a site is reset for an error that the site meets. -/
def State.clusterReset (s : State) (site : Nat) : State := s.partitionReset (clusterOf site) (some site)

end Sys2Proof.Machine
end

