-- ==== Sys2Proof/Machine/FabricOps.lean ====
section
/-! DEFINITION. The operations of the fabric that several commands share: packets and their age (R246 to
R258), ports and port sets (R239, R257), forming and placing the packets of a SEND (R248, R249), final
answers (R251), notices (R254). -/

namespace Sys2Proof.Machine

/-- A packet's age in µs (R258). -/
def State.age (s : State) (birth : Nat) : Nat := (s.now / 1000 % 65536 + 65536 - birth % 65536) % 65536

def maskList (n mask : Nat) : List Nat := (List.range n).filter fun i => flag mask i
def popCount (n mask : Nat) : Nat := (maskList n mask).length

/-! ### Ports -/

/-- Slots of payload a width carries, in units of 50 GB/s per direction (R239). -/
def widthRate : Nat → Nat
  | 0 => 0
  | 1 => 1
  | 2 => 2
  | _ => 4

def State.portUp (s : State) (p : Nat) : Bool := s.getF R.LPT.TRAIN_STATUS.WIDTH p != 0

/-- The trained fabric bandwidth of the device in GB/s per direction (R239). -/
def State.fabricGBs (s : State) : Nat :=
  ((List.range 40).map fun p => 50 * widthRate (s.getF R.LPT.TRAIN_STATUS.WIDTH p)).sum

/-- The ports of a partner's port set that are up and not retraining (R241, R242, R257). -/
def State.portsTo (s : State) (d : Nat) : List Nat :=
  (maskList 40 (s.partner d).ports).filter fun p => s.portUp p && s.getF R.LPT.RETRAIN_CTL.BUSY p == 0

/-- Packets are spread over a port set in proportion to trained width (R242): the k-th packet's port.
DESIGN CHOICE, log entry 24. -/
def State.portFor (s : State) (d k : Nat) : Option Nat :=
  let l := (s.portsTo d).flatMap fun p => List.replicate (widthRate (s.getF R.LPT.TRAIN_STATUS.WIDTH p)) p
  if l.isEmpty then none else l[k % l.length]?

/-- One bit of the IEEE 802.3 CRC-32, least significant bit first. -/
def crcBit (c : Nat) : Nat := if c % 2 = 1 then (c / 2) ^^^ 0xEDB88320 else c / 2

def crcByte (c : Nat) (b : Byte) : Nat :=
  crcBit (crcBit (crcBit (crcBit (crcBit (crcBit (crcBit (crcBit (c ^^^ b.toNat))))))))

/-- The IEEE 802.3 CRC-32 of a byte string (R243). -/
def crc32 (l : List Byte) : Nat := l.foldl crcByte 0xFFFFFFFF ^^^ 0xFFFFFFFF

/-- The 32-byte header of a packet (R246). -/
def Packet.header (p : Packet) : List Byte :=
  natLE 32 (p.type % 16 + p.cls % 4 * 2 ^ 4 + (if p.cells then 2 ^ 6 else 0) + p.dst % 4096 * 2 ^ 8 + p.src % 4096 * 2 ^ 20 +
    p.window % 1024 * 2 ^ 32 + p.gen % 256 * 2 ^ 42 + p.birth % 65536 * 2 ^ 50 + p.tag % 65536 * 2 ^ 66 +
    (if p.type = 1 then (p.data.length - 1) % 4096 else 0) * 2 ^ 82 + p.off % 2 ^ 32 * 2 ^ 96 + p.slot % 65536 * 2 ^ 128 +
    p.code % 256 * 2 ^ 144 + p.nseq % 65536 * 2 ^ 152)

/-- The bytes of a packet on the wire; only data packets have a payload (R246). -/
def Packet.wire (p : Packet) : List Byte := p.header ++ if p.type = 1 then p.data else []

/-- Cut bytes into flit payloads of 242 bytes, the last filled with zeros (R243). -/
def cutFlits : Nat → List Byte → List (List Byte)
  | 0, _ => []
  | k + 1, b => padTo 242 b :: if b.length ≤ 242 then [] else cutFlits k (b.drop 242)

/-- The flits of a packet: it starts at the first byte of its first flit (R243). DESIGN CHOICE, log entry 24. -/
def Packet.flits (p : Packet) (pid : Nat) (slot : Option Nat) : List TxFlit :=
  let b := p.wire
  (cutFlits (ceilDiv b.length 242) b).zipIdx.map fun (d, i) =>
    { vc := p.vc, slot := slot, pid := pid, birth := p.birth, pay := d, start := if i = 0 then 0 else 0xFF }

/-- The flit header and CRC around a payload: a due acknowledgement or replay request, and returned credits of one
channel, ride on every flit (R243, R244). -/
def Port.flitBytes (q : Port) (seq vc start : Nat) (pay : List Byte) : List Byte :=
  let ack := if q.askDue then 2 else if q.ackDue then 1 else 0
  let cr := (q.back.headD (0, 0))
  let b := natLE 10 (seq % 4096 + (if ack = 0 then 0 else (q.expect + 4095) % 4096) * 2 ^ 12 + ack * 2 ^ 24 + vc * 2 ^ 26 +
    cr.1 * 2 ^ 29 + min 255 cr.2 * 2 ^ 32 + start * 2 ^ 40) ++ padTo 242 pay
  b ++ natLE 4 (crc32 b)

/-- A flit goes on the line, and with it what was due. -/
def Port.emit (q : Port) (seq vc start : Nat) (pay : List Byte) : Port :=
  let back := match q.back with
    | [] => []
    | (v, n) :: r => Tab.set 0 ((v, n) :: r) v (n - min 255 n)
  { q with line := q.line ++ [q.flitBytes seq vc start pay], ackDue := false, askDue := false, back := back }

/-- Idle flits carry what is due and finds no other flit to ride on (R243). They carry SEQ 0.
DESIGN CHOICE, log entry 24. -/
def Port.idle : Nat → Port → Port
  | 0, q => q
  | n + 1, q => if q.ackDue || q.askDue || !q.back.isEmpty then Port.idle n (q.emit 0 7 0xFF []) else q

/-- The holder of each of the 16 slots of a port's wheel: the classes in order, each with its weight (R250).
DESIGN CHOICE, log entry 24. -/
def wheelOf (w : List Nat) : List Nat :=
  (w.zipIdx.flatMap fun (n, c) => List.replicate n c).take 16

/-- The class whose flit takes the next slot: the slot's holder, or for a slot left idle or held by none the next
class with a flit, in round-robin order (R250). DESIGN CHOICE, log entry 24. -/
def Port.dataClass (q : Port) (w : List Nat) (ready : Nat → Bool) : Option Nat :=
  match (wheelOf w)[q.wheel % 16]? with
  | some c => if ready c then some c else ([q.turn + 1, q.turn + 2, q.turn + 3].map (· % 3)).find? ready
  | none => ([q.turn + 1, q.turn + 2, q.turn + 3].map (· % 3)).find? ready

/-- The next flit that may go: the answer and control channels first, then the classes on the wheel (R250), with a
credit of its channel (R245), and no data while the sealed egress cap is 0 (R270). -/
def Port.next (q : Port) (w : List Nat) (blocked : Bool) : Option TxFlit :=
  let ok := fun (f : TxFlit) => decide (0 < Tab.get 0 q.credits f.vc)
  match q.waiting.find? fun f => decide (3 ≤ f.vc) && ok f with
  | some f => some f
  | none =>
    if blocked then none else
    (q.dataClass w fun c => q.waiting.any fun f => f.vc == c && ok f).bind fun c => q.waiting.find? fun f => f.vc == c && ok f

/-- Send one flit: it is numbered and kept in the replay buffer until acknowledged (R244). -/
def Port.sendOne (q : Port) (w : List Nat) (blocked : Bool) (now : Nat) : Port :=
  if 2048 ≤ q.unacked.length then q else
  match q.next w blocked with
  | none => q
  | some f =>
    let q := q.emit q.txSeq f.vc f.start f.pay
    { q with waiting := q.waiting.erase f, unacked := q.unacked ++ [{ f with seq := q.txSeq }],
             txSeq := (q.txSeq + 1) % 4096, credits := Tab.set 0 q.credits f.vc (Tab.get 0 q.credits f.vc - 1),
             wheel := if f.vc < 3 then (q.wheel + 1) % 16 else q.wheel, turn := if f.vc < 3 then f.vc else q.turn,
             ackAt := if q.unacked.isEmpty then now else q.ackAt }

def Port.sendAll (w : List Nat) (blocked : Bool) (now : Nat) : Nat → Port → Port
  | 0, q => q
  | n + 1, q => Port.sendAll w blocked now n (q.sendOne w blocked now)

/-- Send every flit that credits and the replay buffer allow; a port that retrains or is down sends none (R241). -/
def State.drainPort (s : State) (p : Nat) : State :=
  let blocked := s.getF R.LPT.EGRESS_CAP.CAP p = 0
  let w := [s.getF R.LPT.CLASS_WEIGHT.OPERAND_W p, s.getF R.LPT.CLASS_WEIGHT.PARTIAL_W p, s.getF R.LPT.CLASS_WEIGHT.BULK_W p]
  if !s.portUp p || s.getF R.LPT.RETRAIN_CTL.BUSY p = 1 then s
  else s.modPort p fun q => (Port.sendAll w blocked s.now q.waiting.length q).idle 8

/-- Put the flits of a packet on a port. -/
def State.txFlits (s : State) (p : Nat) (k : Packet) (slot : Option Nat) : State :=
  (s.modPort p fun q => { q with waiting := q.waiting ++ k.flits q.nextPid slot, nextPid := q.nextPid + 1 }).drainPort p

/-- Send a packet other than data to another device, on the control or answer channel. -/
def State.txPacket (s : State) (k : Nat) (p : Packet) : State :=
  let s := s.modFab fun f => { f with sent := f.sent ++ [p] }
  match s.portFor p.dst k with
  | some q => s.txFlits q p none
  | none => s

/-! ### Notices (R254) -/

/-- A notice goes out, or waits while 1,024 are unacknowledged. DEDUCED, log entry 25. -/
def State.sendNotice (s : State) (dev window : Nat) : State :=
  let c := s.partner dev
  if 1024 ≤ c.unacked.length then s.modPartner dev fun c => { c with queued := c.queued ++ [window] }
  else
    let n := c.txSeq
    let s := s.modPartner dev fun c =>
      { c with txSeq := (n + 1) % 65536, unacked := c.unacked ++ [⟨n, window, s.now⟩] }
    let p : Packet := { type := 3, cls := 3, dst := dev, src := s.devId, window := window, nseq := n, vc := 3,
                        birth := s.now / 1000 % 65536 }
    if dev = s.devId then s.modChip 0 fun c => { c with inbox := c.inbox ++ [p] }
    else s.txPacket n p

/-- Applying a notice adds 1 to the token of the window's NOTIFY entry, when that is valid. -/
def State.applyNotice (s : State) (window : Nat) : State :=
  let w := s.window window
  if w.nvalid then s.deliver 2000 (28 * w.ncl + w.nsite) w.ntok 1 else s

/-! ### Final answers (R251) -/

def codeField : Nat → Option Fld
  | 1 => some R.LCH.REFUSED.CLOSED
  | 2 => some R.LCH.REFUSED.STALE
  | 3 => some R.LCH.REFUSED.BOUNDS
  | 4 => some R.LCH.REFUSED.BOUNDS
  | 5 => some R.LCH.REFUSED.NO_BUFFER
  | 6 => some R.LCH.REFUSED.BOUNDS
  | 8 => some R.LCH.LOCAL_ANSWERS.TIMEOUT
  | 9 => some R.LCH.LOCAL_ANSWERS.SUSPECT
  | 10 => some R.LCH.LOCAL_ANSWERS.LINK_LOST
  | 11 => some R.LCH.LOCAL_ANSWERS.NO_ROUTE
  | _ => none

/-- Counts of a final answer at the sending link chiplet (R252, R270). -/
def State.countAnswer (s : State) (lc code : Nat) : State :=
  match codeField code with
  | some f => s.addF f lc 1
  | none => s

/-- The instruction of a SEND completes (R101): its core may take the completion, and its ledger entry
takes the outcome, with the targets that have had its notice (R302). -/
def State.sendDone (s : State) (r : SendRec) : State :=
  let good := r.targets.all fun t => t.good
  let s := s.modFab fun f => { f with sends := f.sends.filter fun x => x.no != r.no }
  let s := s.modCore r.site fun c =>
    { c with fly := c.fly.map fun f => if f.sendNo = some r.no then { f with ready := true } else f }
  s.modCluster (clusterOf r.site) fun c => { c with ledger := c.ledger.map fun e =>
    if e.send && e.key == r.no then { e with out := if good then .delivered else .failed,
                                                 told := e.told ++ (r.targets.filter (·.good)).map fun t => (t.dev, t.window, t.gen) }
      else e }

/-- Each target whose last packet has its final answer gets its notice when all are OK; a SEND whose every
packet is final completes. -/
def State.sendProgress (s : State) (no : Nat) : State :=
  match s.fab.sends.find? fun x => x.no == no with
  | none => s
  | some r =>
    let fin := r.targets.filter fun t => t.left == 0 && !t.done
    let s := each fin s fun s t => if t.good then s.sendNotice t.dev t.window else s
    let r' := { r with targets := r.targets.map fun t => if t.left = 0 then { t with done := true } else t }
    let s := s.modFab fun f => { f with sends := f.sends.map fun x => if x.no = no then r' else x }
    if r'.targets.all fun t => t.left == 0 then s.sendDone r' else s

/-- A packet of a SEND's target has its final answer. -/
def State.answerTarget (s : State) (no target code : Nat) : State :=
  let s := s.modFab fun f => { f with sends := f.sends.map fun x =>
    if x.no = no then { x with targets := x.targets.zipIdx.map fun (t, i) =>
      if i = target then { t with left := t.left - 1, good := t.good && code == 0 } else t } else x }
  let site := ((s.fab.sends.find? fun x => x.no == no).map (·.site)).getD 0
  let s := if code = 10 then s.wantReplay (clusterOf site) { since := s.now, kind := 3, site := some site } else s
  s.sendProgress no

/-! ### Forming and placing packets (R248, R249) -/

/-- The wire form of a cell: the first 8 + 4 × SEG_COUNT of its 96 bytes (R100). -/
def cellWire (bs : List Byte) : List Byte := bs.take (8 + 4 * bits (leNat (bs.take 8)) 20 16)

/-- The payload of a packet, read from the SEND's source in local space (R249). -/
def State.payload (s : State) (o : OutPkt) : List Byte :=
  let c := s.core o.site
  if o.pkt.cells then (List.range o.n).flatMap fun i => cellWire (c.rdLm (o.la + 96 * i) 96)
  else c.rdLm o.la o.n

/-- The lowest free packet slot of a link chiplet (R249). -/
def LinkChip.freeSlot (c : LinkChip) : Option Nat :=
  if 4096 ≤ c.unans.length then none
  else (List.range 4096).find? fun k => !(c.unans.any fun o => o.slot == k)

/-- A local answer is final at once (R251). -/
def State.localAnswer (s : State) (lc code : Nat) (o : OutPkt) : State :=
  (s.countAnswer lc code).answerTarget o.send o.target code

/-- The plane of an id matters only in a mirrored pair (R255, R268). -/
def State.otherPlane (s : State) (d : Nat) : Bool :=
  s.getF R.LCH.FABRIC_ID.PAIR 0 == 1 && d / 2048 != s.devId / 2048

/-- Transmit a packet that holds a slot: inside the device to its own link chiplet, else on a port. -/
def State.transmit (s : State) (lc : Nat) (o : OutPkt) (port : Option Nat) : State :=
  let data := s.payload o
  if o.pkt.dst = s.devId then
    s.modChip lc fun c => { c with inbox := c.inbox ++ [{ o.pkt with len := data.length, data := data, vc := o.pkt.cls }] }
  else match port with
    | some p => s.txFlits p { o.pkt with len := data.length, data := data, vc := o.pkt.cls } (some o.pkt.slot)
    | none => s

/-- Place a packet of a SEND: a local answer where it has no route or its partner is suspect, a slot of a
link chiplet with its transmission, or the wait for a slot (R249, R251, R256, R268). -/
def State.placePkt (s : State) (k : Nat) (o : OutPkt) : State :=
  let d := o.pkt.dst
  let own := decide (d = s.devId)
  let c := s.partner d
  if s.otherPlane d then s.localAnswer (k % 10) 11 o
  else if !own && c.st = 0 then s.localAnswer (k % 10) 11 o
  else if !own && c.st = 2 then s.localAnswer (k % 10) 9 o
  else
    let port := if own then none else s.portFor d k
    if !own && port.isNone then s.localAnswer (k % 10) 11 o
    else
      let lc := match port with | some p => p / 4 | none => k % 10
      match (s.chip lc).freeSlot with
      | none => s.modFab fun f => { f with sends := f.sends.map fun x =>
          if x.no = o.send then { x with queued := x.queued ++ [o] } else x }
      | some n =>
        let o := { o with slot := n, firstAt := s.now,
                          pkt := { o.pkt with slot := lc * 4096 + n, birth := s.now / 1000 % 65536 } }
        (s.modChip lc fun c => { c with unans := c.unans ++ [o] }).transmit lc o port

/-- Packets that wait for slots are placed as slots come free. -/
def State.placeQueued (s : State) : State :=
  let q := s.fab.sends.flatMap fun x => x.queued
  let s := s.modFab fun f => { f with sends := f.sends.map fun x => { x with queued := [] } }
  each q.zipIdx s fun s p => s.placePkt (p.1.pkt.off / 4096 + p.2) p.1

/-- A packet's final answer, at the chiplet that holds it (R251, R252). -/
def State.finalAnswer (s : State) (lc slot code : Nat) : State :=
  match (s.chip lc).unans.find? fun o => o.slot == slot with
  | none => s
  | some o =>
    let s := s.modChip lc fun c => { c with unans := c.unans.filter fun x => x.slot != slot }
    ((s.countAnswer lc code).answerTarget o.send o.target code).placeQueued

/-- The packets of a SEND to one target (R248). -/
def formPackets (s : State) (site no target la len : Nat) (pack : Bool) (cls dev window gen off : Nat) : List OutPkt :=
  let mk := fun (la n o : Nat) => ({
    slot := 0, send := no, target := target, site := site, la := la, n := n, firstAt := 0,
    pkt := { type := 1, cls := cls, cells := pack, dst := dev, src := s.devId, window := window, gen := gen,
             tag := s.getF (R.LWT.CL_TAGn.JOB_TAG.at 4 (clusterOf site)) 0, len := n, off := o } } : OutPkt)
  if pack then
    (List.range (ceilDiv len 32)).map fun i => mk (la + 3072 * i) (min 32 (len - 32 * i)) ((off + 3072 * i) % 2 ^ 32)
  else
    (List.range (ceilDiv (16 * len) 4096)).map fun i =>
      mk (la + 4096 * i) (min 4096 (16 * len - 4096 * i)) ((off + 4096 * i) % 2 ^ 32)

/-- The targets of a multicast group: its valid entries (R264). -/
def State.groupTargets (s : State) (group : Nat) : List (Nat × Nat × Nat) :=
  let g := Tab.get {} s.fab.mcast group
  if !g.valid then [] else
  (List.range (g.count + 1)).filterMap fun i =>
    let e := Tab.get 0 g.entries i
    if flag e 30 then some (bits e 11 0, bits e 21 12, bits e 29 22) else none

/-- The move unit reaches a SEND: it forms its packets and hands them to the link chiplets (R248, R265). -/
def State.startSend (s : State) (site num la off cls len : Nat) (pack : Bool) (tg : List (Nat × Nat × Nat)) : State × Nat :=
  let no := s.fab.nextSend
  let ps := tg.zipIdx.map fun (t, i) => formPackets s site no i la len pack cls t.1 t.2.1 t.2.2 off
  let r : SendRec := {
    no := no, site := site, num := num, queued := [],
    targets := (tg.zip ps).map fun (t, l) => { dev := t.1, window := t.2.1, gen := t.2.2, left := l.length, good := true } }
  let s := s.modFab fun f => { f with nextSend := no + 1, sends := f.sends ++ [r] }
  let s := each ps.flatten.zipIdx s fun s p => s.placePkt p.2 p.1
  (s.sendProgress no, no)

end Sys2Proof.Machine
end

