-- ==== Sys2Proof/Machine/Levels.lean ====
section
/-! DEFINITION. The shared memory levels' own commands: deck line operations, gather buffers, atomic adds and
scrubbing (R195 to R202, R211, R213), HBM accesses, retirement, repair and retraining (R205 to R208), and
CXL links and the tier-2 window (R209, R210). -/

namespace Sys2Proof.Machine

/-- 24 hours in ns. -/
def dayNs : Nat := 86400000000000

/-- Add an entry to the blaze map; the revision is written later (R384, R385). DEDUCED, log entry 31. -/
def State.blazeNote (s : State) (unit kind cause detail : Nat) : State :=
  s.modSec fun x => { x with blaze := { x.blaze with entries := x.blaze.entries ++ [(unit, kind, cause, detail)], dirty := true } }

/-! ### The deck -/

/-- A corrected sector of a deck line (R211): counted, recorded, and the third within 24 h moves the line to
a spare line. -/
def State.deckCorrected (s : State) (slice line sec : Nat) : State :=
  let key := 24 * line + slice
  let s := (s.addF R.DSL.ECC_STATUS.CORRECTED slice 1).report
    { cls := 1, code := 3, dev := s.devId, unit := wholeUnit 3 slice, repo := wholeUnit 3 slice, detail := 1, ptr := sec * 64 }
  let s := s.modDeck fun d => { d with notes := d.notes ++ [⟨key, 0, s.now⟩] }
  let n := s.deck.notes.countP fun e => e.key == key && decide (s.now < e.at_ + dayNs)
  if 3 ≤ n && !s.deck.spare.contains key && s.getF R.DSL.SPARE_LINES.USED slice < 1024 then
    let s := s.modDeck fun d => { d with spare := d.spare ++ [key], notes := d.notes.filter fun e => e.key != key }
    (s.addF R.DSL.SPARE_LINES.USED slice 1).blazeNote (wholeUnit 3 slice) 5 2 line
  else s

/-- The sectors of a deck line are read with the given numbers of wrong symbols (R211). DEDUCED, log entry 17. -/
def State.deckEcc (s : State) (slice line : Nat) (bad : List Nat) : State :=
  each (bad.take 8).zipIdx s fun s p =>
    let sec := (24 * line + slice) * 8 + p.2
    if p.1 = 0 then s
    else if Tab.get false s.poison sec then s
    else if p.1 = 1 then s.deckCorrected slice line sec
    else
      let s := (s.addF R.DSL.ECC_STATUS.UNCORRECTED slice 1).setPoison sec
      s.report { cls := 1, code := 4, dev := s.devId, unit := wholeUnit 3 slice, repo := wholeUnit 3 slice, detail := p.1, ptr := sec * 64 }

/-- A line operation can take place in deck cycle t (R195, R196): a core channel on ports 0 to 4 of the slice
its slot connects; service agents on any port. -/
def lineSlot (cl : Option (Fin 24)) (t slice port : Nat) : Bool :=
  match cl with
  | some c => decide ((c.val + t) % 24 = slice) && decide (port < 5)
  | none => true

/-- The line operations of a slice so far in deck cycle t. -/
def Deck.opsAt (d : Deck) (t slice : Nat) : List DeckOp :=
  if d.cycle = t then d.ops.filter fun o => o.slice == slice else []

/-- A port performs one line operation in a cycle, so a port that a core channel uses is not left to a service
agent (R195, R196). -/
def Deck.portFree (d : Deck) (t slice port : Nat) : Bool := (d.opsAt t slice).all fun o => o.port != port

/-- An operation is performed in cycle t. -/
def Deck.note (d : Deck) (t : Nat) (o : DeckOp) : Deck :=
  { d with cycle := t, ops := (if d.cycle = t then d.ops else []) ++ [o] }

/-- The bytes that writes of higher ports to the same line in the same cycle have covered: these come later in
port order (R201). -/
def Deck.covered (d : Deck) (t slice port line : Nat) : Nat :=
  ((d.opsAt t slice).filter fun o => o.wr && o.line == line && decide (port < o.port)).foldl (fun m o => m ||| o.mask) 0

/-- The line last read in cycle t: a write of that cycle to the line precedes the read (R201). -/
def Deck.lastRead (d : Deck) (t slice line : Nat) : Bool :=
  d.cycle = t && match (d.ops.filter fun o => !o.wr).getLast? with
    | some o => o.slice == slice && o.line == line
    | none => false

/-- Write the bytes of a line that a mask selects. -/
def State.writeMasked (s : State) (port a mask : Nat) (data : List Byte) : State :=
  if mask = 2 ^ 512 - 1 then s.memWrite port a ((data ++ List.replicate 512 0).take 512)
  else each (maskList 512 mask) s fun s i => s.memWrite port (a + i) [data.getD i 0]
where
  maskList (n mask : Nat) : List Nat := (List.range n).filter fun i => flag mask i

/-- DECK_LINE_OPERATION (R195, R196, R199, R211, R212): a read flushes the line's gather entries, checks its
sectors and returns its bytes, unless a sector is poisoned; a write takes the masked bytes. A cluster's
operation obeys its fences (R214). -/
def execDeckLineOperation (cl : Option (Fin 24)) (t : Nat) (slice : Fin 24) (port : Fin 8) (line : Fin 1310720)
    (wr : Bool) (mask : BitVec 512) (data : List Byte) (err : MemErr) (s : State) : Ans :=
  let a := (24 * line.val + slice.val) * 512
  if !lineSlot cl t slice port || !s.hosted 3 slice || !s.deck.portFree t slice port then .next s
  else
    let denied := match cl with
      | some c => !s.fenceOk c wr a 512
      | none => false
    if denied then
      match cl with
      | some c =>
        let s := if wr then s else s.modDeck fun d => { d with out := List.replicate 512 0, err := false }
        .next (s.refuse c wr none)
      | none => .next s
    else if wr then
      let m := mask.toNat
      let above := s.deck.covered t slice port line
      let again := s.deck.lastRead t slice line
      let s := s.modDeck fun d => d.note t ⟨slice, port, line, true, m⟩
      let s := s.writeMasked port a (m &&& (above ^^^ (2 ^ 512 - 1))) data
      .next (if again then s.modDeck fun d => { d with out := s.memRead a 512 } else s)
    else
      let s := s.modDeck fun d => d.note t ⟨slice, port, line, false, 0⟩
      let s := (s.flushLine slice line).deckEcc slice line err.bad
      let p := s.poisonIn a 512
      if p.isEmpty then .next (s.modDeck fun d => { d with out := s.memRead a 512, err := false })
      else match cl with
        | some c => .next (((s.modDeck fun d => { d with out := [], err := false }).meetPoison p).partitionReset c none)
        | none => .next ((s.modDeck fun d => { d with out := s.memRead a 512, err := true }).meetPoison p)

/-- GATHER_BUFFER_TIMEOUT (R199): 32 deck cycles, 32 ns, have passed without a merge. -/
def execGatherBufferTimeout (slice : Fin 24) (port : Fin 8) (line : Fin 1310720) (s : State) : Ans :=
  match s.deck.gather.find? fun e => e.slice == slice.val && e.port == port.val && e.line == line.val with
  | some e => .next (if e.since + 32 ≤ s.now then s.writeEntry e else s)
  | none => .next s

/-- GATHER_BUFFER_DRAIN (R199). DESIGN CHOICE, log entry 16. -/
def execGatherBufferDrain (slice : Fin 24) (s : State) : Ans :=
  .next (each (s.deck.gather.filter fun e => e.slice == slice.val) s State.writeEntry)

/-- ATOMIC_ADD (R202): an aligned 8-byte word of mapped memory; on an unmapped address it is refused (R192).
DEDUCED, log entry 17. -/
def execAtomicAdd (addr : Nat) (v : BitVec 64) (s : State) : Ans :=
  .next (if addr % 8 != 0 then s
    else if s.memRange addr 8 then s.atomicAdd (servicePort 0) addr v.toNat
    else if (s.place addr).isNone then s.refuseUnmapped else s)

/-- R213: a slice's interval, 1 µs at least, has passed since its last scrub. -/
def State.scrubDue (s : State) (slice : Nat) : Bool :=
  let last := Tab.get 0 s.deck.scrubAt slice
  last = 0 || decide (last - 1 + 1000 * max 1 (s.getF R.DSL.SCRUB.INTERVAL slice) ≤ s.now)

/-- DECK_SCRUB (R212, R213, R218): the next line of the slice, spare lines after the 1,310,720 lines. -/
def execDeckScrub (slice : Fin 24) (err : MemErr) (s : State) : Ans :=
  if s.getF R.DSL.SCRUB.EN slice = 0 || !s.hosted 3 slice || !s.scrubDue slice then .next s
  else
    let at_ := Tab.get 0 s.deck.scrub slice
    let s := if at_ < 1310720 then
        let s := (s.flushLine slice at_).deckEcc slice at_ err.bad
        s.countPoison (s.poisonIn ((24 * at_ + slice.val) * 512) 512)
      else s
    let next := at_ + 1
    let s := s.modDeck fun d => { d with scrub := Tab.set 0 d.scrub slice (next % 1311744), scrubAt := Tab.set 0 d.scrubAt slice (s.now + 1) }
    .next (if next = 1311744 then s.addF R.DSL.SCRUB.PASSES slice 1 else s)

/-! ### HBM -/

/-- The free frames of a stack's spare-frame pool: neither in use nor retired themselves (R194, R207). -/
def Hbm.poolFree (h : Hbm) (stack : Nat) : List Nat :=
  let busy := h.moved.map (·.1) ++ h.retired
  ((List.range 4096).map fun k => frameKey stack (poolBase + k)).filter fun k => !busy.contains k

/-- R207: a frame's accesses go to the lowest free pool frame from now on; FULL is set once the pool is
exhausted. The bytes and their poison stay under the frame's own address, which every access names. False when
no frame is free. DEDUCED, log entry 17. -/
def State.redirect (s : State) (stack frame : Nat) : State × Bool :=
  match (s.hbm.poolFree stack).filter (· != frameKey stack frame) with
  | [] => (s.setF R.HBM.RETIRE.FULL stack 1, false)
  | k :: rest =>
    let key := frameKey stack frame
    let s := s.modHbm fun h => { h with retired := h.retired ++ [key], moved := h.moved ++ [(k, h.owner key)] }
    let s := s.addF R.HBM.RETIRE.RETIRED stack 1
    (if rest.isEmpty then s.setF R.HBM.RETIRE.FULL stack 1 else s, true)

/-- R207: a frame is retired into the spare-frame pool, or stays in use when the pool is full.
DEDUCED, log entry 17. -/
def State.retireFrame (s : State) (stack frame : Nat) : State :=
  if s.hbm.retired.contains (frameKey stack frame) then s
  else match s.redirect stack frame with
    | (s, true) => (s.reportUnit 1 9 (wholeUnit 4 stack) frame).blazeNote (wholeUnit 4 stack) 9 2 frame
    | (s, false) => s.reportUnit 1 9 (wholeUnit 4 stack) frame

/-- R207: soft post-package repair of a row with corrected errors in three frames within 24 h.
DEDUCED, log entry 17. -/
def State.softRepair (s : State) (stack row : Nat) (spare : Bool) : State :=
  let frames := ((s.hbm.notes.filter fun e => e.key / 2 ^ 24 == stack && e.row == row && decide (s.now < e.at_ + dayNs)).map (·.key)).dedup
  if 3 ≤ frames.length && spare && !s.hbm.repaired.contains (stack, row) then
    let s := s.modHbm fun h => { h with repaired := h.repaired ++ [(stack, row)] }
    (s.addF R.HBM.RETIRE.SPPR_ROWS stack 1).blazeNote (wholeUnit 4 stack) 4 2 row
  else s

/-- Sectors of a stack are read with the given numbers of wrong symbols (R205, R211): any two are corrected,
three or more poison the sector and retire the frame. DEDUCED, log entry 17. -/
def State.hbmEcc (s : State) (stack frame : Nat) (err : MemErr) (secs : List (Nat × Nat)) : State :=
  let key := frameKey stack frame
  let unit := unitCode 4 stack (pseudoChannel frame / 2 + 32 * (pseudoChannel frame % 2))
  let s := s.addF R.HBM.ECC_STATUS.ODECC_REPORTS stack err.od
  each secs s fun s p =>
    if p.2 = 0 then s
    else if Tab.get false s.poison p.1 then s
    else if p.2 ≤ 2 then
      let s := (s.addF R.HBM.ECC_STATUS.CORRECTED stack 1).report
        { cls := 1, code := 5, dev := s.devId, unit := unit, repo := unit, detail := p.2, ptr := p.1 * 64 }
      let s := s.modHbm fun h => { h with notes := h.notes ++ [⟨key, err.row, s.now⟩] }
      let n := s.hbm.notes.countP fun e => e.key == key && decide (s.now < e.at_ + dayNs)
      let s := s.softRepair stack err.row err.spare
      if 4 ≤ n then s.retireFrame stack frame else s
    else
      let s := (s.addF R.HBM.ECC_STATUS.UNCORRECTED stack 1).setPoison p.1
      let s := s.report { cls := 1, code := 6, dev := s.devId, unit := unit, repo := unit, detail := p.2, ptr := p.1 * 64 }
      s.retireFrame stack frame

/-- HBM_ACCESS (R194, R205, R207): a read corrects or poisons what it meets and returns the bytes unless a
sector is poisoned; a write stores them. -/
def execHbmAccess (addr : Nat) (wr : Bool) (data : List Byte) (len : Nat) (err : MemErr) (s : State) : Ans :=
  let n := if wr then data.length else len
  let isHbm := fun (a : Nat) => match s.place a with
    | some .hbm => true
    | some .hbmRes => true
    | _ => false
  let (st, frame, off) := hbmAt addr
  if n != 0 && !s.memRange addr n && (s.place addr).isNone then .next s.refuseUnmapped
  else if n = 0 || !isHbm addr || 4096 < off + n || !s.hosted 4 st then .next s
  else if wr then .next (s.memWrite (servicePort 0) addr data)
  else
    let real := s.hbm.serves (s.hbm.owner (frameKey st frame))
    let s := s.hbmEcc st (real % 2 ^ 24) err ((sectorsOf (s.canon addr) n).zip (err.bad ++ List.replicate 64 0))
    let p := s.poisonIn addr n
    .next (s.modHbm fun h => { h with out := if p.isEmpty then s.memRead addr n else [] })

/-- The address of a stack's sector in patrol order (R194, R206). -/
def patrolAddr (stack pos : Nat) : Nat := hbmAddr stack (pos / 64) + pos % 64 * 64

/-- HBM_PATROL_SCRUB (R206): the next sector of the stack; a retired frame holds no data any more (R207). -/
def execHbmPatrolScrub (stack : Fin 16) (err : MemErr) (s : State) : Ans :=
  if !s.hosted 4 stack then .next s
  else
    let pos := Tab.get 0 s.hbm.patrol stack
    let s := if s.hbm.retired.contains (frameKey stack (pos / 64)) then s
      else s.hbmEcc stack (pos / 64) err [(s.canon (patrolAddr stack pos) / 64, err.bad.headD 0)]
    .next (s.modHbm fun h => { h with patrol := Tab.set 0 h.patrol stack ((pos + 1) % 2 ^ 30) })

/-- HBM_RETRAIN_START (R208): a requested start is ignored while BUSY; the controller's own names the
channel. -/
def execHbmRetrainStart (stack : Fin 16) (auto : Option (Fin 32)) (s : State) : Ans :=
  if !s.hosted 4 stack then .next s
  else
    let go := fun (ch : Nat) => (s.modHbm fun h => { h with retrain := h.retrain ++ [(stack.val, ch)] }).setF R.HBM.RETRAIN_CTL.BUSY stack 1
    match auto with
    | some ch => .next (if s.hbm.retrain.contains (stack.val, ch.val) then s else go ch)
    | none => .next (if s.getF R.HBM.RETRAIN_CTL.BUSY stack = 1 then s else go (s.getF R.HBM.RETRAIN_CTL.CHANNEL stack))

/-- HBM_RETRAIN_STEP_END (R208): between steps the channel serves its queue; the last step ends the
retraining, which changes no data. -/
def execHbmRetrainStepEnd (stack : Fin 16) (last : Bool) (s : State) : Ans :=
  match s.hbm.retrain.find? fun p => p.1 == stack.val with
  | none => .next s
  | some p =>
    if !last then .next s
    else
      let s := (s.modHbm fun h => { h with retrain := h.retrain.erase p }).addF R.HBM.RETRAIN_CTL.RETRAINS stack 1
      .next (if s.hbm.retrain.any fun q => q.1 == stack.val then s else s.setF R.HBM.RETRAIN_CTL.BUSY stack 0)

/-! ### CXL -/

def portStatus (port : Nat) (f0 f1 : Fld) : Fld := if port % 2 = 0 then f0 else f1
def State.setPort (s : State) (port : Nat) (f0 f1 : Fld) (v : Nat) : State := s.setF (portStatus port f0 f1) (port / 2) v

/-- The licensed tier-2 window in GiB (R17, R397). -/
def State.licensedGib (s : State) : Nat :=
  if s.getF R.SEC.LIC_MASK.T2_WINDOW 0 = 1 then s.getF R.SEC.LIC_MASK.WINDOW_GIB 0 else 0

/-- HDM_DECODER_PROGRAM (R209): the window covers the lesser of licence and decoded capacity, interleaved over
ports of equal capacity or else concatenated; it takes effect at the next admission. -/
def execHdmDecoderProgram (caps : List Nat) (s : State) : Ans :=
  let cap := fun (p : Nat) => if s.cxl.up.contains p then caps.getD p 0 % 4096 else 0
  let ports := (List.range 4).filter fun p => 0 < cap p
  let s := each (List.range 4) s fun s p =>
    (s.setPort p R.PCH.PORT_STATUS0.CAP_GIB R.PCH.PORT_STATUS1.CAP_GIB (cap p)).setPort p
      R.PCH.PORT_STATUS0.T2 R.PCH.PORT_STATUS1.T2 (if 0 < cap p then 1 else 0)
  let equal := ports.all fun p => cap p == cap (ports.headD 0)
  let ways := if equal && ports.length == 4 then 2 else if equal && ports.length == 2 then 1 else 0
  let size := min s.licensedGib ((ports.map cap).sum)
  .next { s with cxl := { s.cxl with wasT2 := ports, capNext := (List.range 4).map cap, winNext := some (size, ways) } }

/-- An admitted job partition holds tier-2 storage. -/
def State.t2Held (s : State) : Bool :=
  s.jobs.any fun e => match e.2 with
    | some j => j.prog.regions.any fun r => r.space == 2
    | none => false

/-- The window of n GiB in w ways, as decoded last, keeps every mapped address of the window in force where it is. -/
def State.windowGrows (s : State) (n w : Nat) : Bool :=
  decide (s.getF R.PCH.T2_CTL.WINDOW_GIB 0 ≤ n) && s.getF R.PCH.T2_CTL.WAYS 0 == w && s.cxl.ports.isPrefixOf s.cxl.wasT2 &&
    (w == 0 || s.cxl.ports == s.cxl.wasT2) && s.cxl.ports.all fun p => s.cxl.caps.getD p 0 == s.cxl.capNext.getD p 0

/-- The tier-2 window comes into force at an admission (R209), sized by the licence valid at that moment (R17,
R19); a change that would move or unmap tier-2 storage of a partition already admitted waits for an admission
at which there is none (R19). DEDUCED, log entry 17. -/
def State.applyWindow (s : State) : State :=
  match s.cxl.winNext with
  | none => s
  | some (_, w) =>
    let n := min s.licensedGib s.cxl.capNext.sum
    if s.t2Held && !s.windowGrows n w then s
    else
      ({ s with cxl := { s.cxl with ports := s.cxl.wasT2, caps := s.cxl.capNext } }.setF R.PCH.T2_CTL.WINDOW_GIB 0 n).setF R.PCH.T2_CTL.WAYS 0 w

/-- CXL_LINK_DOWN (R209). -/
def execCxlLinkDown (port : Fin 4) (s : State) : Ans :=
  if !s.cxl.up.contains port.val then .next s
  else
    let had := s.cxl.wasT2.contains port.val || s.cxl.ports.contains port.val
    let s := { s with cxl := { s.cxl with up := s.cxl.up.filter (· != port.val), training := s.cxl.training ++ [port.val] } }
    let s := s.setPort port R.PCH.PORT_STATUS0.WIDTH R.PCH.PORT_STATUS1.WIDTH 0
    let s := s.setPort port R.PCH.PORT_STATUS0.RATE R.PCH.PORT_STATUS1.RATE 0
    let s := s.setPort port R.PCH.PORT_STATUS0.CXL R.PCH.PORT_STATUS1.CXL 0
    .next (if had then s.reportUnit 1 8 (wholeUnit 7 (port / 2)) port else s)

/-- CXL_LINK_UP (R209, R218): the port's status shows the link, and its addresses stop reading as poison. -/
def execCxlLinkUp (port : Fin 4) (width : Fin 6) (rate : Fin 7) (cxl : Bool) (s : State) : Ans :=
  if !s.module_.v36 || width.val = 0 then .next s
  else
    let s := { s with cxl := { s.cxl with
      up := if s.cxl.up.contains port.val then s.cxl.up else s.cxl.up ++ [port.val]
      training := s.cxl.training.filter (· != port.val) } }
    let s := s.setPort port R.PCH.PORT_STATUS0.WIDTH R.PCH.PORT_STATUS1.WIDTH width
    let s := s.setPort port R.PCH.PORT_STATUS0.RATE R.PCH.PORT_STATUS1.RATE rate
    .next (s.setPort port R.PCH.PORT_STATUS0.CXL R.PCH.PORT_STATUS1.CXL (if cxl then 1 else 0))

/-- CXL_INBOUND_REQUEST (R210): only the HBM reserved region is reached. -/
def execCxlInboundRequest (port : Fin 4) (addr : Nat) (wr : Bool) (data : List Byte) (len : Nat) (s : State) : Ans :=
  let n := if wr then data.length else len
  if !s.cxl.up.contains port.val then .next s
  else if !inReserved addr n then .next (s.addF R.PCH.T2_EVENTS.INBOUND_REFUSED 0 1)
  else if wr then .next (s.memWrite (servicePort port) addr data)
  else .next { s with cxl := { s.cxl with out := s.memRead addr n } }

end Sys2Proof.Machine
end

