-- ==== Sys2Proof/Machine/Movers.lean ====
section
/-! DEFINITION. The movers' command rings (R203, R204, R216, R230, R231, R420). -/

namespace Sys2Proof.Machine

/-- The ring of mover m's control list (R204); none unless it lies wholly in the HBM reserved region. -/
def State.ctlRing (s : State) (m : Nat) : Option Nat :=
  let a := s.getF R.ROOT.CTL_MOVER_BASE.BASE 0 * 1024 + 1024 * m
  if inReserved a 1024 then some a else none

/-- The ring of a list (R204, R230, R238). -/
def State.ringBase (s : State) (m l : Nat) : Option Nat := if l = 15 then s.ctlRing m else s.listBase m l

/-- MOVER_COMMAND_START (R230): a unit of count and no command under way; the block is read as it starts. -/
def execMoverCommandStart (m : Fin 6) (l : Fin 16) (s : State) : Ans :=
  let x := s.mover m l
  if x.cmd.isSome || x.units = 0 || !s.regionOn (netRegion m) then .next s
  else match s.ringBase m l with
    | none => .next s
    | some base =>
      let a := base + 64 * x.next
      let s := s.flushRange a 64
      let b := leNat (s.memRead a 64)
      .next (s.modMover m l fun x => { x with units := x.units - 1, next := (x.next + 1) % 16, cmd := some ⟨a, b, 0, false⟩ })

/-- Fields of a command block (R230). -/
structure MovBlock where
  op    : Nat
  src   : Nat
  dst   : Nat
  bytes : Nat
  rows  : Nat
  sp    : Nat
  dp    : Nat
  compl : Nat
  deriving DecidableEq, Repr

def MovBlock.of (b : Nat) : MovBlock where
  op := bits b 7 0
  src := bits b 115 64
  dst := bits b 179 128
  bytes := bits b 207 192 + 1
  rows := bits b 231 208 + 1
  sp := bits b 263 232
  dp := bits b 295 264
  compl := bits b 371 320

/-- The row count and pitches are multiples of 8 bytes and the operation is a copy (R230). -/
def MovBlock.ok (b : MovBlock) : Bool := b.op == 1 && b.bytes % 8 == 0 && b.sp % 8 == 0 && b.dp % 8 == 0

/-- One row of a copy: poison moves with the data (R203, R212). -/
def State.copyRow (s : State) (port src dst n : Nat) : State :=
  let s := s.flushRange src n
  let s := s.countPoison (s.poisonIn src n)
  let hit := s.poisonedAt src n
  (s.memWrite port dst (s.memRead src n)).poisonTo dst n hit

/-- A row is refused: by a fence of the owning cluster, with its counts (R216), or on a control list where
it touches control space or an unmapped address (R204). DEDUCED, log entry 18. -/
def State.rowRefused (s : State) (owner : Option Nat) (src dst n : Nat) : Option State :=
  match owner with
  | none => if s.memRange src n && s.memRange dst n then none else some s
  | some c =>
    if !s.fenceOk c false src n then some (s.refuse c false none)
    else if !s.fenceOk c true dst n then some (s.refuse c true none)
    else none

/-- Copy rows in order until one is refused; the STATUS (R230, R231). DEDUCED, log entry 18. -/
def State.moveRows (s : State) (owner : Option Nat) (port : Nat) (b : MovBlock) : Nat → Nat → State × Nat
  | _, 0 => (s, 0)
  | r, k + 1 =>
    let src := b.src + r * b.sp
    let dst := b.dst + r * b.dp
    match s.rowRefused owner src dst b.bytes with
    | some t => (t, 2)
    | none => (s.copyRow port src dst b.bytes).moveRows owner port b (r + 1) k

/-- MOVER_COPY (R203, R216, R230, R231). DEDUCED, log entry 18. -/
def execMoverCopy (m : Fin 6) (l : Fin 16) (s : State) : Ans :=
  match (s.mover m l).cmd with
  | none => .next s
  | some c =>
    if c.done then .next s
    else
      let b := MovBlock.of c.block
      let owner := if l.val = 15 then none else s.listOwner m l
      let (s, st) := if !b.ok then (s, 3)
        else if owner.isNone && l.val != 15 then (s, 2)
        else s.moveRows owner (servicePort m) b 0 b.rows
      let s := if st = 0 then s else s.reportUnit 4 6 (wholeUnit 8 (netRegion m)) 0
      .next (s.modMover m l fun x => { x with cmd := some { c with status := st, done := true } })

/-- MOVER_COPY_COMPLETE (R202, R203, R230): STATUS is written, then 1 is added at COMPL unless it is zero.
DEDUCED, log entry 18. -/
def execMoverCopyComplete (m : Fin 6) (l : Fin 16) (s : State) : Ans :=
  match (s.mover m l).cmd with
  | none => .next s
  | some c =>
    if !c.done then .next s
    else
      let b := MovBlock.of c.block
      let s := s.memWrite (servicePort m) (c.addr + 1) (natLE 1 c.status)
      let a := b.compl / 8 * 8
      let s := if b.compl = 0 || !s.memRange a 8 then s else s.atomicAdd (servicePort m) a 1
      .next (s.modMover m l fun x => { x with cmd := none })

/-- CTL_MOVER_GO (R204): the write starts the next command of a control list whose ring lies in the reserved
region; MOVER 6 and 7 name no mover. -/
def State.ctlMoverGo (s : State) (m : Nat) : State :=
  if m < 6 && (s.ctlRing m).isSome then s.modMover m 15 fun x => { x with units := x.units + 1 } else s

def execCtlMoverGo (m : Fin 8) (s : State) : Ans := .next (s.asActive fun s => s.ctlMoverGo m)

end Sys2Proof.Machine
end

