-- ==== Sys2Proof/Machine/Placement.lean ====
section
/-! DEFINITION. Admission (R219 to R221, R235 to R237, R353), the stream mesh's geometry (R222, R223), and
release of a job partition (R237). -/

namespace Sys2Proof.Machine

/-! ### The mesh (R222, R223) -/

def routerXY (n : Nat) : Nat × Nat :=
  let f := n / 4
  (2 * (f % 3) + n % 2, 2 * (f / 3) + n % 4 / 2)

def routerAt (x y : Nat) : Nat := 4 * (x / 2 + 3 * (y / 2)) + 2 * (y % 2) + x % 2

/-- The next router towards b: along the row first, then along the column. -/
def nextRouter (a b : Nat) : Nat :=
  let (x, y) := routerXY a
  let (u, v) := routerXY b
  if x < u then routerAt (x + 1) y
  else if u < x then routerAt (x - 1) y
  else if y < v then routerAt x (y + 1)
  else if v < y then routerAt x (y - 1)
  else a

/-- The mesh links of a path: pairs of routers. A path has at most 8 links. -/
def meshPath (a b : Nat) : Nat → List (Nat × Nat)
  | 0 => []
  | k + 1 => if a = b then [] else (a, nextRouter a b) :: meshPath (nextRouter a b) b k

/-- A link: of the mesh, or the injection or ejection link of a cluster. -/
inductive Link where
  | hop (a b : Nat)
  | inject (a : Nat)
  | eject (a : Nat)
  deriving DecidableEq, Repr

/-- The links that a route from cluster a to cluster b holds slots of (R223). -/
def routeLinks (a b : Nat) : List Link :=
  .inject a :: (meshPath a b 8).map (fun p => .hop p.1 p.2) ++ [.eject b]

/-- The UNIT code of a link (R235); an injection or ejection link is named by its router twice. -/
def Link.code : Link → Nat
  | .hop a b => a * 32 + b
  | .inject a => a * 32 + a
  | .eject a => a * 32 + a

/-- A route in force: source cluster and entry, destination cluster, share. -/
structure RouteUse where
  src   : Nat
  ent   : Nat
  dst   : Nat
  share : Nat
  deriving DecidableEq, Repr

/-- The routes of the device, from its send entries. -/
def State.routes (s : State) : List RouteUse :=
  (List.range 24).flatMap fun c => (List.range 64).filterMap fun n =>
    let g := fun (f : Fld) => s.getF (f.at 8 n) c
    if g R.CL.ROUTE_LOn.VALID = 1 && g R.CL.ROUTE_LOn.DIR = 0 then
      some ⟨c, n, g R.CL.ROUTE_LOn.PEER_CLUSTER,
            if s.mesh.noShare.contains (64 * c + n) then 0 else g R.CL.ROUTE_LOn.SHARE_m1 + 1⟩
    else none

def shareOn (l : List RouteUse) (k : Link) : Nat :=
  ((l.filter fun r => (routeLinks r.src r.dst).contains k).map (·.share)).sum

/-! ### Storage spaces -/

/-- The unit of a space (R214). -/
def spaceUnit : Nat → Nat
  | 0 => 12288
  | 1 => 65536
  | _ => 131072

def spaceBase : Nat → Nat
  | 0 => 0
  | 1 => hbmBase
  | _ => t2Base

/-- The bytes of a space that admission gives out: the deck below the firmware staging area (R281, R386),
the HBM program region, the tier-2 window. -/
def State.spaceSize (s : State) : Nat → Nat
  | 0 => 1307264 * 12288
  | 1 => hbmSize
  | _ => s.t2Size

def roundUnit (sp n : Nat) : Nat := ceilTo (spaceUnit sp) n

/-- Every admitted job partition. -/
def State.allJobs (s : State) : List (Nat × Job) := s.jobs.filterMap fun p => p.2.map fun j => (p.1, j)

/-- The ranges of a space in use, as offsets. -/
def State.usedIn (s : State) (sp : Nat) : List (Nat × Nat) :=
  s.allJobs.flatMap fun p => (p.2.prog.regions.zip p.2.bases).filterMap fun (r, b) =>
    if r.space = sp then some (b - spaceBase sp, roundUnit sp r.size) else none

/-- The lowest aligned place of n bytes below `top` that meets no range in use. -/
def firstFit (used : List (Nat × Nat)) (step top n : Nat) : Option Nat :=
  let cands := (0 :: used.map fun u => u.1 + u.2).map (ceilTo step)
  let good := cands.filter fun b => decide (b + n ≤ top) && used.all fun u => decide (b + n ≤ u.1) || decide (u.1 + u.2 ≤ b)
  good.min?

/-- Place the regions of one space in order; the base of each. -/
def placeRegions (sp top : Nat) : List (Nat × Nat) → List PRegion → Option (List Nat)
  | _, [] => some []
  | used, r :: rs =>
    if r.space ≠ sp then (placeRegions sp top used rs).map (0 :: ·)
    else
      let n := roundUnit sp r.size
      match firstFit used (Nat.lcm (spaceUnit sp) (max 1 r.align)) top n with
      | none => none
      | some b => (placeRegions sp top ((b, n) :: used) rs).map ((spaceBase sp + b) :: ·)

/-! ### The program -/

def Program.regionIn (p : Program) (i off n : Nat) : Bool :=
  match p.regions[i]? with
  | some r => decide (off + n ≤ r.size)
  | none => false

def Program.coreOk (p : Program) (l : Nat) : Bool := decide (l < 24 * p.nclusters)

def SigTarget.ok (p : Program) : SigTarget → Bool
  | .core l t => p.coreOk l && decide (t ≤ 0xFD)
  | .list n => decide (n < p.lists.length)
  | .raw w => decide (w < 2 ^ 32)

def KImage.ok (p : Program) (k : KImage) : Bool :=
  p.coreOk k.lcore && k.sigmap.all (fun e => decide (e.1 ≤ 0xFD) && e.2.ok p) &&
    k.kinds.all fun q => q.regs.all fun a => decide (1 ≤ a.reg) && decide (a.reg < 32) &&
      (a.region.all fun r => decide (r < p.regions.length)) && (a.cset.all fun c => decide (c < p.nsets))

/-- The two route entries of a route, as cluster and entry. -/
def PRoute.ends (r : PRoute) : List (Nat × Nat) := [(r.src / 24, r.srcR), (r.dst / 24, r.dstR)]

/-- The route entries that a logical cluster needs. -/
def Program.endsOf (p : Program) (i : Nat) : List Nat :=
  (p.routes.flatMap PRoute.ends).filterMap fun e => if e.1 = i then some e.2 else none

/-- A program that uses INT2 or ternary, or says that it requires the licence for them (R17, R219). -/
def Program.usesInt2 (p : Program) : Bool := p.int2 || p.formats.any fun f => f == .int2 || f == .tern

/-- What a program says of itself is consistent (R219): part of being well formed. A cluster that needs more than
64 route entries is left to check 0x0B (R235). DEDUCED, log entry 19. -/
def Program.consistent (p : Program) : Bool :=
  p.wellFormed && decide (1 ≤ p.nclusters) && p.kernels.all (KImage.ok p) &&
    decide (p.kernels.map (·.lcore)).Nodup &&
    p.regions.all (fun r => decide (r.space ≤ 2) && decide (1 ≤ r.size)) &&
    decide (p.fences.length ≤ p.nclusters) &&
    p.fences.all (fun l => l.all fun f => decide (f.region < p.regions.length)) &&
    p.routes.all (fun r => p.coreOk r.src && p.coreOk r.dst &&
      decide (1 ≤ r.share) && decide (r.share ≤ 16) && decide (1 ≤ r.buf) && decide (r.buf ≤ 32)) &&
    (List.range p.nclusters).all (fun i => decide (64 < (p.endsOf i).length) ||
      (decide (p.endsOf i).Nodup && (p.endsOf i).all fun n => decide (n < 64))) &&
    p.retained.all (fun r => decide (r < p.regions.length)) && p.markIds.all (fun m => decide (m < 65536)) &&
    p.lists.all (fun l => decide (l.lcluster < p.nclusters) && p.regionIn l.region l.off 1024 && l.off % 1024 == 0 &&
      (p.regions[l.region]?.map (·.space)) == some 0) &&
    p.windows.all (fun w => p.regionIn w.region w.off w.size && w.off % 512 == 0 && w.size % 512 == 0 &&
      decide (512 ≤ w.size) && (w.notify.all fun t => p.coreOk t.1 && decide (t.2 ≤ 0xFD))) &&
    p.ranges.all (fun r => p.regionIn r.region r.off (4 * r.words) && r.off % 4 == 0 && (decide (r.cset < p.nsets) || r.cset == 0xFF)) &&
    p.marker.all p.coreOk && p.markArea.all fun m => p.regionIn m.1 m.2 (2 * 256 * 24 * p.nclusters)

/-! ### Checks (R235) -/

/-- An admission record's contents (R236). -/
structure AdmRec where
  code  : Nat
  unit  : Nat := 0
  need  : Nat := 0
  avail : Nat := 0
  deriving DecidableEq, Repr

/-- The 16 bytes of an admission record (R236); quantities that 32 bits cannot hold saturate.
DEDUCED, log entry 19. -/
def AdmRec.bytes (r : AdmRec) : List Byte :=
  natLE 16 (r.code + r.unit % 65536 * 2 ^ 16 + min r.need (2 ^ 32 - 1) * 2 ^ 32 + min r.avail (2 ^ 32 - 1) * 2 ^ 64)

/-- The in-service sites of row r of cluster c, ascending (R14, R220). -/
def State.rowSites (s : State) (c r : Nat) : List Nat :=
  ((List.range 7).map fun k => 28 * c + 7 * r + k).filter fun i => s.siteState i == 0

/-- The site of a logical core under a binding (R220). -/
def State.bindCore (s : State) (clusters : List Nat) (l : Nat) : Option Nat :=
  (clusters[l / 24]?).bind fun c => (s.rowSites c (l % 24 / 6))[l % 6]?

/-- A ranked cluster that no partition holds, with its region on. -/
def State.freeClusters (s : State) : List Nat :=
  (List.range 24).filter fun c => s.role c == 0 && s.regionOn c && (s.jobOf c).isNone

def State.freeLists (s : State) : List (Nat × Nat) :=
  let used := s.allJobs.flatMap fun p => p.2.lists
  ((List.range 6).flatMap fun m => (List.range 15).map fun l => (m, l)).filter fun x => !used.contains x

def freeOf (n : Nat) (used : List Nat) : List Nat := (List.range n).filter fun k => !used.contains k

/-- The tally ranges that no partition holds: those not enabled. -/
def State.freeRanges (s : State) : List Nat :=
  (List.range 16).filter fun n => s.getF (R.TLY.RANGE_CTLn.EN.at 32 n) 0 == 0

/-- The bindings tried: the one the program prefers where its clusters are free, then the lowest free ones.
DESIGN CHOICE, log entry 20. -/
def State.bindings (s : State) (p : Program) : List (List Nat) :=
  let free := s.freeClusters
  let pref := if decide (p.prefer.length = p.nclusters) && decide p.prefer.Nodup && p.prefer.all free.contains then [p.prefer] else []
  pref ++ [free.take p.nclusters]

/-- Route entries, buffers and link shares under a binding (R235 code 0x0B). DEDUCED, log entry 19. -/
def State.routeCheck (s : State) (p : Program) (cl : List Nat) : Option AdmRec :=
  let phys := fun (l : Nat) => cl.getD (l / 24) 0
  let ents := fun (c : Nat) => (p.routes.flatMap PRoute.ends).countP fun e => cl.getD e.1 0 == c
  let bufs : Nat → Nat := fun c => ((p.routes.filter fun r => phys r.dst == c).map fun (r : PRoute) => r.buf * 1024).sum
  let new := p.routes.map fun r => ({ src := phys r.src, ent := r.srcR, dst := phys r.dst, share := r.share } : RouteUse)
  let all := s.routes ++ new
  let links := (new.flatMap fun r => routeLinks r.src r.dst).dedup
  (cl.findSome? fun c => if 64 < ents c then some { code := 0x0B, unit := c, need := ents c, avail := 64 } else none) <|>
  (cl.findSome? fun c => if 262144 < bufs c then some { code := 0x0B, unit := c, need := bufs c, avail := 262144 } else none) <|>
  (links.findSome? fun k => if 16 < shareOn all k then some { code := 0x0B, unit := k.code, need := shareOn all k, avail := 16 } else none)

/-- Storage of one space (codes 0x07 to 0x09). -/
def State.storeCheck (s : State) (p : Program) (sp : Nat) : Option AdmRec :=
  match placeRegions sp (s.spaceSize sp) (s.usedIn sp) p.regions with
  | some _ => none
  | none => some { code := 7 + sp, need := ((p.regions.filter fun r => r.space == sp).map (·.size)).sum,
                   avail := s.spaceSize sp - ((s.usedIn sp).map (·.2)).sum }

def State.sumJobs (s : State) (f : Job → Nat) : Nat := (s.allJobs.map fun p => f p.2).sum

/-- A tripwire declaration names a set of the program, or a set that only the marking partition may watch
(R175). -/
def tripOk (p : Program) (t : PTrip) : Bool :=
  let marks := p.marker.isSome || p.markControl
  if flag t.ctl 6 then marks else if bits t.ctl 15 8 = 0xFF then marks else decide (bits t.ctl 15 8 < p.nsets)

/-- Pools (codes 0x0C to 0x10). DEDUCED, log entry 19. -/
def State.poolCheck (s : State) (p : Program) : Option AdmRec :=
  let per := fun (i : Nat) => p.lists.countP fun l => l.lcluster == i
  let nl := s.freeLists.length
  let nw := (freeOf 1024 (s.allJobs.flatMap fun p => p.2.windows)).length
  let ng := (freeOf 256 (s.allJobs.flatMap fun p => p.2.groups)).length
  let ns := (freeOf 255 (s.allJobs.flatMap fun p => p.2.sets)).length
  let nt := (freeOf 16 (s.allJobs.flatMap fun p => p.2.trips)).length
  let marks := p.marker.isSome || p.markControl
  let taken := s.getF R.TLY.MARK_CTL.SOURCE 0 == 1 || s.getF R.TLY.MARK_CTL.SOURCE 0 == 2
  ((List.range p.nclusters).findSome? fun i => if 4 < per i then some { code := 0x0C, unit := i, need := per i, avail := 4 } else none) <|>
  (if nl < p.lists.length then
    some { code := 0x0C, unit := (p.lists[nl]?.map (·.lcluster)).getD 0, need := p.lists.length, avail := nl } else none) <|>
  (if nw < p.windows.length then some { code := 0x0D, need := p.windows.length, avail := nw } else none) <|>
  (if ng < p.ngroups then some { code := 0x0E, need := p.ngroups, avail := ng } else none) <|>
  (if ns < p.nsets then some { code := 0x0F, need := p.nsets, avail := ns } else none) <|>
  (if nt < p.trips.length || !p.trips.all (tripOk p) || (marks && taken) || s.freeRanges.length < p.ranges.length then
    some { code := 0x10, need := p.trips.length, avail := nt } else none)

/-- Fabric bandwidth and power (codes 0x11, 0x12; R239, R353). -/
def State.budgetCheck (s : State) (p : Program) (cl : List Nat) : Option AdmRec :=
  let gb := s.fabricGBs - s.sumJobs fun j => j.prog.bandwidth
  let gi := s.fabricGBs - s.sumJobs fun j => j.prog.bandwidthIn
  let low := (List.range 40).find? fun k => s.getF R.LPT.TRAIN_STATUS.WIDTH k != 3
  let su := s.sumJobs fun j => j.prog.sustained.sum
  let pk := s.sumJobs fun j => j.prog.peak.sum
  (if gb < p.bandwidth then some { code := 0x11, unit := low.getD 0, need := p.bandwidth, avail := gb } else none) <|>
  (if gi < p.bandwidthIn then some { code := 0x11, unit := low.getD 0, need := p.bandwidthIn, avail := gi } else none) <|>
  (p.peak.zipIdx.findSome? fun (w, i) =>
    if 380 < w then some { code := 0x12, unit := cl.getD i 0, need := w, avail := 380 } else none) <|>
  (if 7800 < su + p.sustained.sum then
    some { code := 0x12, unit := cl.headD 0, need := p.sustained.sum, avail := 7800 - su } else none) <|>
  (if 9800 < pk + p.peak.sum then
    some { code := 0x12, unit := cl.headD 0, need := p.peak.sum, avail := 9800 - pk } else none)

/-- Codes 0x01 to 0x06. A device whose governors are not sealed admits nothing (R374). DEDUCED, log entry 19. -/
def State.fileCheck (s : State) (p : Program) : Option AdmRec :=
  (if s.getF R.ROOT.SEAL.SEALED 0 = 0 || !p.consistent then some { code := 1 } else none) <|>
  (if p.layoutRev ≠ s.getF R.ROOT.DEV_REV.LAYOUT 0 then some { code := 2 } else none) <|>
  (if p.usesInt2 && s.getF R.SEC.LIC_MASK.INT2_TERN 0 == 0 then some { code := 3, unit := 5, need := 1, avail := 0 } else none) <|>
  (if s.licensedGib < p.tier2 then some { code := 3, unit := 4, need := p.tier2, avail := s.licensedGib } else none) <|>
  (if s.freeClusters.length < p.nclusters then
    some { code := 4, need := p.nclusters, avail := s.freeClusters.length } else none) <|>
  (p.kernels.findSome? fun k => if 261120 < k.image.length then
    some { code := 5, unit := k.lcore, need := k.image.length + 1024, avail := 262144 } else none) <|>
  (p.kernels.findSome? fun k => if 1792 * 1024 < k.dataBytes then
    some { code := 6, unit := k.lcore, need := k.dataBytes, avail := 1792 * 1024 } else none)

/-- The checks in table order; the first that fails under a binding (R235). DEDUCED, log entry 19. -/
def State.admCheck (s : State) (p : Program) (cl : List Nat) : Option AdmRec :=
  s.fileCheck p <|> s.storeCheck p 0 <|> s.storeCheck p 1 <|> s.storeCheck p 2 <|>
  (p.fences.zipIdx.findSome? fun (l, i) => if 8 < l.length then some { code := 0x0A, unit := i, need := l.length, avail := 8 } else none) <|>
  s.routeCheck p cl <|> s.poolCheck p <|> s.budgetCheck p cl

/-! ### Binding (R237) -/

/-- The job partition under a binding that passed. DESIGN CHOICE, log entry 20. -/
def State.makeJob (s : State) (p : Program) (cl : List Nat) : Job :=
  let place := fun (sp : Nat) => (placeRegions sp (s.spaceSize sp) (s.usedIn sp) p.regions).getD []
  { prog := p
    clusters := cl
    sites := (List.range (24 * p.nclusters)).filterMap fun l => (s.bindCore cl l).map fun i => (l, i)
    bases := p.regions.zipIdx.map fun (r, i) => (place r.space).getD i 0
    lists := s.freeLists.take p.lists.length
    windows := (freeOf 1024 (s.allJobs.flatMap fun p => p.2.windows)).take p.windows.length
    groups := (freeOf 256 (s.allJobs.flatMap fun p => p.2.groups)).take p.ngroups
    sets := (freeOf 255 (s.allJobs.flatMap fun p => p.2.sets)).take p.nsets
    trips := (freeOf 16 (s.allJobs.flatMap fun p => p.2.trips)).take p.trips.length
    groupOf := (List.range p.nclusters).map fun i => p.rgroups.getD i (1000 + i) }

def Job.siteOf (j : Job) (l : Nat) : Option Nat := (j.sites.find? fun e => e.1 == l).map (·.2)

/-- A signal-map word of a bound program (R228). -/
def Job.sigWord (j : Job) : SigTarget → Nat
  | .core l t => match j.siteOf l with
    | some i => 1 + clusterOf i * 2 ^ 2 + i % 28 * 2 ^ 7 + t * 2 ^ 12
    | none => 0
  | .list n => match j.lists[n]? with
    | some (m, l) => 3 + m * 2 ^ 20 + l * 2 ^ 23
    | none => 0
  | .raw w => w

/-- The 1 KiB signal map of a kernel (R228). -/
def Job.sigMap (j : Job) (k : KImage) : List Byte :=
  (List.range 256).flatMap fun t => natLE 4 (((k.sigmap.find? fun e => e.1 == t).map fun e => j.sigWord e.2).getD 0)

/-- The fence windows of logical cluster i (R214, R237). -/
def State.writeFences (s : State) (j : Job) (i c : Nat) : State :=
  let l := j.prog.fences.getD i []
  each (List.range 8) s fun s n =>
    let w := fun (s : State) (f : Fld) v => s.writeCl (f.at 8 n) c v
    match l[n]? with
    | none => w s R.CL.FENCE_LOn.VALID 0
    | some f =>
      match j.prog.regions[f.region]?, j.bases[f.region]? with
      | some r, some b =>
        let o := b - spaceBase r.space
        let s := w s R.CL.FENCE_LOn.FIRST (o / spaceUnit r.space)
        let s := w s R.CL.FENCE_HIn.LAST ((o + r.size - 1) / spaceUnit r.space)
        let s := w s R.CL.FENCE_LOn.SPACE r.space
        let s := w s R.CL.FENCE_LOn.READ_ONLY (if f.readOnly then 1 else 0)
        w s R.CL.FENCE_LOn.VALID 1
      | _, _ => w s R.CL.FENCE_LOn.VALID 0

/-- One end of a route (R226, R238). -/
def State.writeRoute (s : State) (c n dir site peer peerRoute share buf : Nat) : State :=
  let w := fun (s : State) (f : Fld) v => s.writeCl (f.at 8 n) c v
  let s := w s R.CL.ROUTE_LOn.DIR dir
  let s := w s R.CL.ROUTE_LOn.SITE (site % 28)
  let s := w s R.CL.ROUTE_LOn.PEER_CLUSTER (clusterOf peer)
  let s := w s R.CL.ROUTE_LOn.PEER_SITE (peer % 28)
  let s := w s R.CL.ROUTE_LOn.PEER_ROUTE peerRoute
  let s := w s R.CL.ROUTE_LOn.SHARE_m1 (share - 1)
  let s := w s R.CL.ROUTE_HIn.BUF_m1 (buf - 1)
  w s R.CL.ROUTE_LOn.VALID 1

def State.writeRoutes (s : State) (j : Job) : State :=
  each j.prog.routes s fun s r =>
    match j.siteOf r.src, j.siteOf r.dst with
    | some a, some b =>
      let s := s.writeRoute (clusterOf a) r.srcR 0 a b r.dstR r.share 1
      s.writeRoute (clusterOf b) r.dstR 1 b a r.srcR 1 r.buf
    | _, _ => s

/-- Mover list bindings: the k-th list of a logical cluster stands in CL.MOVER_LISTk (R238). A list starts at
the first place of its ring with no unit waiting. -/
def State.writeLists (s : State) (j : Job) : State :=
  each j.prog.lists.zipIdx s fun s (p : PList × Nat) =>
    match j.lists[p.2]?, j.clusters[p.1.lcluster]?, j.bases[p.1.region]? with
    | some (m, l), some c, some b =>
      let n := (j.prog.lists.take p.2).countP fun q => q.lcluster == p.1.lcluster
      let w := fun (s : State) (f : Fld) v => s.writeCl (f.at 4 n) c v
      let s := w s R.CL.MOVER_LISTn.MOVER m
      let s := w s R.CL.MOVER_LISTn.LIST l
      let s := w s R.CL.MOVER_LISTn.BASE ((b + p.1.off) / 1024)
      (w s R.CL.MOVER_LISTn.VALID 1).modMover m l fun _ => {}
    | _, _, _ => s

/-- Place a kernel image with its signal map at a site (R76, R228, R237). -/
def State.placeKernel (s : State) (j : Job) (k : KImage) : State :=
  match j.siteOf k.lcore with
  | some i => s.modCore i fun c => (c.wrLm 0 k.image).wrLm 0x3FC00 (j.sigMap k)
  | none => s

/-- Landing windows of the partition: their range and notice target, ready to be opened (R259, R260).
DESIGN CHOICE, log entry 20. -/
def State.writeWindows (s : State) (j : Job) : State :=
  each (j.prog.windows.zip j.windows) s fun s (p : PWindow × Nat) =>
    s.modWindow p.2 fun w =>
      let base := j.bases.getD p.1.region 0 + p.1.off
      match p.1.notify.bind fun t => (j.siteOf t.1).map fun i => (i, t.2) with
      | some (i, t) => { w with base := base, size := p.1.size, nvalid := true, ncl := clusterOf i, nsite := i % 28, ntok := t }
      | none => { w with base := base, size := p.1.size, nvalid := false }

/-- Tripwires and tally ranges, and the source of marks (R191, R271, R272, R280). -/
def State.writeTally (s : State) (j : Job) (id : Nat) : State :=
  let bindSet := fun (c : Nat) => if c = 0xFF then 0xFF else j.sets.getD c 0xFF
  let s := each (j.prog.trips.zip j.trips) s fun s (p : PTrip × Nat) =>
    let w := fun (s : State) (f : Fld) v => s.setF (f.at 8 p.2) 0 v
    let s := w s R.TLY.TW_CTLn.EN (bit p.1.ctl 0)
    let s := w s R.TLY.TW_CTLn.HOLD (bit p.1.ctl 1)
    let s := w s R.TLY.TW_CTLn.KIND (bits p.1.ctl 5 2)
    let s := w s R.TLY.TW_CTLn.ALL_SETS (bit p.1.ctl 6)
    let s := w s R.TLY.TW_CTLn.CSET (bindSet (bits p.1.ctl 15 8))
    w s R.TLY.TW_LIMITn.LIMIT p.1.limit
  let s := s.setF R.TLY.TW_FIRED.FIRED 0 0
  let s := each (j.prog.ranges.zip s.freeRanges) s fun s (p : PRange × Nat) =>
    let w := fun (s : State) (f : Fld) v => s.setF (f.at 32 p.2) 0 v
    let s := w s R.TLY.RANGE_BASEn.BASE ((j.bases.getD p.1.region 0 + p.1.off) / 4)
    let s := w s R.TLY.RANGE_LENn.WORDS p.1.words
    let s := w s R.TLY.RANGE_CTLn.CSET (bindSet p.1.cset)
    let s := w s R.TLY.RANGE_TIDn.TID p.1.tid
    w s R.TLY.RANGE_CTLn.EN 1
  if j.prog.marker.isNone && !j.prog.markControl then s
  else
    let s := match j.prog.startStep with
      | some e => (s.setF R.TLY.STEP.STEP 0 e).setF R.TLY.WRAP.WRAP 0 (e / 2 ^ 32)
      | none => s
    let s := s.setF R.TLY.MARK_CTL.JOB_ID 0 id
    match j.prog.marker.bind j.siteOf with
    | some i => ((s.setF R.TLY.MARK_CTL.CLUSTER 0 (clusterOf i)).setF R.TLY.MARK_CTL.SITE 0 (i % 28)).setF R.TLY.MARK_CTL.SOURCE 0 1
    | none => s.setF R.TLY.MARK_CTL.SOURCE 0 2

/-- Bind a job partition, in the order of R237. -/
def State.bindJob (s : State) (j : Job) (id : Nat) : State :=
  let s := s.setJob id (some j)
  let s := each j.clusters.zipIdx s fun s (p : Nat × Nat) => s.writeFences j p.2 p.1
  let s := (s.writeRoutes j).writeLists j
  let s := s.writeTally j id
  let s := (each j.prog.kernels s fun s k => s.placeKernel j k).writeWindows j
  each j.clusters.zipIdx s fun s (p : Nat × Nat) =>
    let s := s.modCluster p.1 fun _ => {}
    let s := s.setF R.CL.REPLAY_STATUS.STATE p.1 0
    s.bindCl p.1 (some (id, p.2))

/-- Neither control chiplet has held the lease for 10 ms: the device issues no admission and no launch (R360).
DEDUCED, log entry 44. -/
def State.leaderless (s : State) : Bool :=
  s.ctl.powered.all fun p => !(s.ctl.leases.any fun e => e.1 == p && decide (s.now < e.2.expiry + 10000000))

def State.admRecord (s : State) (r : AdmRec) : State := s.modCtl fun c => { c with admission := r.bytes }

/-- ADMISSION (R235 to R237): a refusal changes nothing but the admission record that reports it.
DESIGN CHOICE, log entry 1; DESIGN CHOICE, log entry 20. -/
def execAdmission (p : Program) (s : State) : Ans :=
  let t := s.applyWindow
  if !s.module_.v36 || s.ctl.holdAdm || s.module_.idle || s.leaderless then .next s
  else match (t.bindings p).find? fun cl => (t.admCheck p cl).isNone with
  | none => .next (s.admRecord (((t.bindings p).head?.bind fun cl => t.admCheck p cl).getD { code := 1 }))
  | some cl =>
    let id := ((List.range 256).find? fun k => (t.job k).isNone).getD 0
    .next ((t.bindJob (t.makeJob p cl) id).admRecord { code := 0, unit := id })

/-! ### Release (R217, R237) -/

/-- Landed packets of a window on their way into memory, in any link chiplet. -/
def State.landing (s : State) (w : Nat) : Bool :=
  (List.range 10).any fun lc => (s.chip lc).landed.any fun l => l.pkt.window == w

/-- A window's close: CLOSING in all link chiplets, and CLOSED once nothing of it is on its way (R262). -/
def State.closeWindow (s : State) (w : Nat) : State :=
  if (s.window w).st = 0 then s
  else if s.landing w then s.modWindow w fun x => { x with st := 2 }
  else s.modWindow w fun x => { x with st := 0, closedAt := some s.now }

/-- Clear what a job partition's clusters hold of it and return its resources to their pools (R237).
DEDUCED, log entry 23. -/
def State.freeJob (s : State) (id : Nat) (j : Job) : State :=
  let s := each j.clusters s fun s c =>
    let s := s.bindCl c none
    let s := each (List.range 64) s fun s n => s.writeCl (R.CL.ROUTE_LOn.VALID.at 8 n) c 0
    let s := each (List.range 4) s fun s n => s.writeCl (R.CL.MOVER_LISTn.VALID.at 4 n) c 0
    let s := each (List.range 8) s fun s n => s.writeCl (R.CL.FENCE_LOn.VALID.at 8 n) c 0
    let s := s.modMesh fun m => { m with noShare := m.noShare.filter fun k => k / 64 != c }
    s.setF (R.LWT.CL_TAGn.JOB_TAG.at 4 c) 0 0
  let s := each j.trips s fun s n => s.setF (R.TLY.TW_CTLn.EN.at 8 n) 0 0
  let s := s.modTally fun t => { t with armed := t.armed.filter fun n => !j.trips.contains n }
  let mine := decide (s.getF R.TLY.MARK_CTL.JOB_ID 0 = id) && (j.prog.marker.isSome || j.prog.markControl)
  let s := if mine then s.setF R.TLY.MARK_CTL.SOURCE 0 0 else s
  let s := each (List.range 16) s fun s n =>
    if j.sets.contains (s.getF (R.TLY.RANGE_CTLn.CSET.at 32 n) 0) || mine then s.setF (R.TLY.RANGE_CTLn.EN.at 32 n) 0 0 else s
  let s := each j.groups s fun s g => s.modFab fun f => { f with mcast := Tab.set {} f.mcast g {} }
  s.setJob id none

/-- A kernel of the partition runs, or a launch of it is still to start. DEDUCED, log entry 23. -/
def State.jobBusy (s : State) (j : Job) : Bool :=
  j.sites.any fun e => (s.run e.2).isSome || (s.launchOf e.2).isSome

/-- JOB_PARTITION_RELEASE (R217, R237): it waits for the last launch to complete and for every window of the
partition to close. DEDUCED, log entry 23. -/
def execJobPartitionRelease (job : Fin 256) (s : State) : Ans :=
  match s.job job with
  | none => .next s
  | some j =>
    let s := s.setJob job (some { j with releasing := true })
    if s.jobBusy j then .next s
    else
      let s := each j.windows s State.closeWindow
      .next (if j.windows.any fun w => (s.window w).st != 0 then s else s.freeJob job j)

end Sys2Proof.Machine
end

