-- ==== Sys2Proof/Machine/Fabric.lean ====
section
/-! DEFINITION. The Lenuf fabric's commands: ports and lanes (R239 to R242), flits (R243 to R245), packets and
answers (R246 to R253, R258), notices (R254), planes and partners (R255 to R257), job tags (R261), landing
windows (R259 to R263, R422), multicast (R264). -/

namespace Sys2Proof.Machine

/-! ### Ports and lanes -/

/-- The lanes a port trains on, of those that pass, and its width code (R240). -/
def trainOn (pass : Nat) : Nat × Nat :=
  let l := maskList 9 pass
  let m := fun n => ((l.take n).map (2 ^ ·)).sum
  if 8 ≤ l.length then (m 8, 3) else if 4 ≤ l.length then (m 4, 2) else if 2 ≤ l.length then (m 2, 1) else (0, 0)

/-- The result of training is shown in LPT.TRAIN_STATUS, and a port below x8 raises a record (R240). -/
def State.setTrain (s : State) (p pass : Nat) : State :=
  let (m, w) := trainOn pass
  let s := s.setF R.LPT.TRAIN_STATUS.WIDTH p w
  let s := s.setF R.LPT.TRAIN_STATUS.LANES p m
  let s := s.setF R.LPT.TRAIN_STATUS.SPARE_USED p (bit m 8)
  if w = 3 then s else s.reportUnit 6 1 (wholeUnit 6 p) 0

/-- A field event's entry of the blaze map: the record's sequence number and its step (R384). -/
def State.blazeField (s : State) (unit kind : Nat) : State :=
  s.blazeNote unit kind 2 (s.getF R.ERR.RING_HEAD.RSEQ 24 + s.getF R.TLY.STEP.STEP 0 * 2 ^ 32)

/-- Packets that the loss of a port leaves to be carried by others (R242); `tag` is the packet's TAG (R246). -/
def State.resend (s : State) (tag : Nat) : State :=
  match (s.chip (tag / 4096)).unans.find? fun o => o.slot == tag % 4096 with
  | none => s
  | some o =>
    match s.portFor o.pkt.dst (tag % 4096) with
    | some q => s.transmit (tag / 4096) o (some q)
    | none => s.finalAnswer (tag / 4096) (tag % 4096) 11

/-- The data packets of which a port has sent no flit that still lacks its acknowledgement. -/
def Port.unsent (q : Port) : List Nat :=
  let lost := q.unacked.filterMap (·.slot)
  ((q.waiting.filterMap (·.slot)).dedup).filter fun k => !lost.contains k

/-- Traffic moves to other ports of the partner's set while a port retrains (R241): what it has not begun to send
and another port can carry. -/
def State.divert (s : State) (p : Nat) : State :=
  each (s.port p).unsent s fun s k =>
    match (s.chip (k / 4096)).unans.find? fun o => o.slot == k % 4096 with
    | none => s
    | some o => if (s.portsTo o.pkt.dst).isEmpty then s else
        (s.modPort p fun q => { q with waiting := q.waiting.filter fun f => f.slot != some k }).resend k

/-- A port that is down keeps no flit: each packet with an unacknowledged flit is answered LINK_LOST, and the
others go to the other ports of the set (R242). DESIGN CHOICE, log entry 24. -/
def State.dropPort (s : State) (p : Nat) : State :=
  let q := s.port p
  let lost := (q.unacked.filterMap (·.slot)).dedup
  let rest := q.unsent
  let s := s.modPort p fun x => { good := x.good, line := x.line }
  let s := each lost s fun s k => s.finalAnswer (k / 4096) (k % 4096) 10
  each rest s fun s k => s.resend k

/-- Retraining in service (R240, R241): the two ends exchange the last sequence that each has accepted, and the
unacknowledged flits are then replayed. -/
def State.retrain (s : State) (p pass : Nat) : State :=
  let s := (s.addF R.LPT.LINK_EVENTS.RETRAINS p 1).setTrain p pass
  if s.portUp p then (s.modPort p fun q => { q with replay := !q.unacked.isEmpty, exch := true, ackDue := true }).drainPort p
  else s.dropPort p

/-- PORT_TRAINING (R240): the initial training of a port. -/
def execPortTraining (p : Fin 40) (lanes : BitVec 9) (farSwitch : Bool) (farId : Fin 4096) (s : State) : Ans :=
  if !s.hosted 6 p then .next s
  else
    let s := s.modPort p fun _ => { good := lanes.toNat, back := (List.range 5).foldl (fun t v => Tab.set 0 t v (Config.vcBuffer v).val) [] }
    let s := s.setF R.LPT.TRAIN_STATUS.FAR_SWITCH p (if farSwitch then 1 else 0)
    let s := s.setF R.LPT.TRAIN_STATUS.FAR_ID p (if farSwitch then 0 else farId)
    .next (((s.setF R.LPT.RETRAIN_CTL.BUSY p 0).setTrain p lanes.toNat).drainPort p)

/-- LPT_RETRAIN (R240, R241): START retrains from x8. -/
def execLptRetrain (p : Fin 40) (lanes : BitVec 9) (s : State) : Ans :=
  .next (if s.hosted 6 p then
      ((s.setF R.LPT.RETRAIN_CTL.BUSY p 0).modPort p fun q => { q with good := lanes.toNat }).retrain p lanes.toNat
    else s)

/-- LANE_FAILURE (R241): a lane has lost lock, or shows `errs` FEC symbol errors in 1 ms, which fail it above
LANE_LIMIT. The free spare takes the lane over, or the port retrains on its remaining lanes.
DESIGN CHOICE, log entry 24. -/
def execLaneFailure (p : Fin 40) (lane : Fin 9) (lanes : BitVec 9) (s : State) (errs : Option Nat := none) : Ans :=
  let used := s.getF R.LPT.TRAIN_STATUS.LANES p
  let fails := errs.all fun n => decide (s.getF R.LPT.RETRAIN_CTL.LANE_LIMIT p < n)
  if !s.portUp p || !flag used lane || !fails then .next s
  else
    let s := (s.addF R.LPT.LINK_EVENTS.LANE_FAILS p 1).reportUnit 6 2 (unitCode 6 p lane) lane
    let s := s.blazeField (unitCode 6 p lane) 6
    let good := (maskList 9 (s.port p).good).filter fun i => i != lane.val
    let s := s.modPort p fun q => { q with good := (good.map (2 ^ ·)).sum }
    match good.find? fun i => !flag used i with
    | some spare =>
      if s.getF R.LPT.TRAIN_STATUS.WIDTH p = 3 then
        let m := used - 2 ^ lane.val + 2 ^ spare
        .next ((s.setF R.LPT.TRAIN_STATUS.LANES p m).setF R.LPT.TRAIN_STATUS.SPARE_USED p (bit m 8))
      else .next (s.retrain p (((good.filter fun i => flag lanes.toNat i).map (2 ^ ·)).sum))
    | none => .next (s.retrain p (((good.filter fun i => flag lanes.toNat i).map (2 ^ ·)).sum))

/-- PORT_DOWN (R242): a port goes down in service. DESIGN CHOICE, log entry 24. -/
def execPortDown (p : Fin 40) (s : State) : Ans :=
  if !s.portUp p then .next s
  else
    let s := s.setF R.LPT.TRAIN_STATUS.WIDTH p 0
    let s := s.setF R.LPT.TRAIN_STATUS.LANES p 0
    let s := s.setF R.LPT.TRAIN_STATUS.SPARE_USED p 0
    .next ((s.reportUnit 6 3 (wholeUnit 6 p) 0).dropPort p)

/-! ### Flits -/

/-- A packet from its 32-byte header (R246). -/
def Packet.ofHeader (h vc port : Nat) : Packet where
  type := bits h 3 0
  cls := bits h 5 4
  cells := flag h 6
  rsv := flag h 7 || bits h 95 94 != 0 || bits h 255 168 != 0
  dst := bits h 19 8
  src := bits h 31 20
  window := bits h 41 32
  gen := bits h 49 42
  birth := bits h 65 50
  tag := bits h 81 66
  len := if bits h 3 0 = 1 then bits h 93 82 + 1 else 0
  off := bits h 127 96
  slot := bits h 143 128
  code := bits h 151 144
  nseq := bits h 167 152
  vc := vc
  port := some port

/-- The header of a packet breaks (R247). -/
def Packet.broken (p : Packet) : Bool :=
  p.type == 0 || decide (4 < p.type) || p.rsv || (p.type == 2 && decide (6 < p.code)) ||
  (match p.type with
   | 1 => p.vc != p.cls
   | 2 => p.vc != 4
   | _ => p.vc != 3)

/-- Packets that fill a channel's payload bytes from a packet's first byte on; what is left of the last one.
A tail of zeros is padding. -/
def cutPackets (vc port : Nat) : Nat → List Byte → List Packet × List Byte
  | 0, b => ([], b)
  | k + 1, b =>
    if b.all (· == 0) then ([], [])
    else if b.length < 32 then ([], b)
    else
      let p := Packet.ofHeader (leNat (b.take 32)) vc port
      let n := 32 + p.len
      if b.length < n then ([], b)
      else
        let (l, r) := cutPackets vc port k (b.drop n)
        ({ p with data := (b.drop 32).take p.len } :: l, r)

/-- The packets that the payload of a flit completes, and what its channel still holds (R243). -/
def takePayload (vc port : Nat) (held pay : List Byte) (start : Nat) : List Packet × List Byte :=
  if start = 0xFF then (if held.isEmpty then ([], []) else cutPackets vc port 9 (held ++ pay))
  else
    let (l, _) := if held.isEmpty then ([], []) else cutPackets vc port 9 (held ++ pay.take start)
    let (m, r) := cutPackets vc port 9 (pay.drop start)
    (l ++ m, r)

/-- A packet whose lifetime is over is discarded and counted (R258). -/
def State.lifetimeDrop (s : State) (lc : Nat) : State := (s.addF R.LCH.LIFETIME_DROPS.DROPS lc 1).tallyDev 0x90 1

/-- A packet reaches its link chiplet. A well-formed control message for this device acts under the row that it
carries; one for another device, or too old, is discarded (R252, R258). DEDUCED, log entry 25. -/
def State.receive (s : State) (lc : Nat) (p : Packet) : State :=
  if p.type = 4 && !p.broken then
    if 9900 ≤ s.age p.birth then s.lifetimeDrop lc
    else if p.dst != s.devId then s.addF R.LWT.DROPS2.MISROUTE 0 1
    else s
  else s.modChip lc fun c => { c with inbox := c.inbox ++ [p] }

/-- Acknowledgements and credits of an accepted flit header (R243 to R245). -/
def Port.applyAcks (q : Port) (h now : Nat) : Port :=
  let ack := bits h 25 24
  let n := bits h 23 12
  let q := if ack = 1 || ack = 2 then
      match q.unacked.findIdx? fun f => f.seq == n with
      | some i => { q with unacked := q.unacked.drop (i + 1), ackAt := now }
      | none => q
    else q
  let q := if ack = 1 || ack = 2 then { q with exch := false } else q
  let q := { q with replay := (q.replay || ack == 2) && !q.unacked.isEmpty }
  let v := bits h 31 29
  if v ≤ 4 then { q with credits := Tab.set 0 q.credits v (Tab.get 0 q.credits v + bits h 39 32) } else q

/-- FLIT_RECEIVE (R243 to R245, R247): `corr` and `unc` are the FEC codewords corrected and not corrected. -/
def execFlitReceive (p : Fin 40) (flit : List Byte) (corr unc : Nat) (s : State) : Ans :=
  if !s.portUp p then .next s
  else
    let s := (s.addF R.LPT.FEC_CORR.CORRECTED p corr).addF R.LPT.FEC_UNCORR.UNCORRECTED p unc
    let h := leNat (flit.take 10)
    let vc := bits h 28 26
    let good := flit.length == 256 && crc32 (flit.take 252) == leNat (flit.drop 252) && bits h 25 24 != 3 && vc != 5 && vc != 6
    let ask := (s.modPort p fun q => { q with gapAsked := true, askDue := q.askDue || !q.gapAsked }).drainPort p
    if !good then .next ask
    else if vc = 7 then .next ((s.modPort p fun q => q.applyAcks h s.now).drainPort p)
    else if bits h 11 0 ≠ (s.port p).expect then .next ask
    else
      let s := s.modPort p fun q => { q.applyAcks h s.now with
        expect := (q.expect + 1) % 4096, gapAsked := false, askDue := false, ackDue := true,
        back := Tab.set 0 q.back vc (Tab.get 0 q.back vc + 1) }
      let (ps, r) := takePayload vc p (Tab.get [] (s.port p).rx vc) ((flit.drop 10).take 242) (bits h 47 40)
      let s := s.modPort p fun q => { q with rx := Tab.set [] q.rx vc r }
      .next ((each ps s fun s k => s.receive (p / 4) k).drainPort p)

/-- LINK_REPLAY (R241, R244): one resend of every unacknowledged flit in order counts once; after retraining it
follows the exchange of the last sequences accepted. -/
def execLinkReplay (p : Fin 40) (s : State) : Ans :=
  if !(s.port p).replay || (s.port p).exch then .next s
  else
    let s := s.modPort p fun q => { q.unacked.foldl (fun (q : Port) f => q.emit f.seq f.vc f.start f.pay) q with replay := false, ackAt := s.now }
    .next ((s.addF R.LPT.LINK_EVENTS.REPLAYS p 1).tallyDev 0x88 1)

/-- ACK_TIMEOUT (R244): 10 µs without any acknowledgement. -/
def execAckTimeout (p : Fin 40) (s : State) : Ans :=
  let q := s.port p
  .next (if !q.unacked.isEmpty && decide (q.ackAt + 10000 ≤ s.now) then s.modPort p fun q => { q with replay := true } else s)

/-! ### Arrivals -/

/-- Take the n-th received packet of a link chiplet. -/
def State.takeInbox (s : State) (lc n : Nat) : State := s.modChip lc fun c => { c with inbox := c.inbox.eraseIdx n }

/-- The tests before a received packet acts: its age (R258), its header (R247) and its destination (R252).
None when it is discarded, with the state that counts it. DEDUCED, log entry 25. -/
def State.admitPkt (s : State) (lc n : Nat) (p : Packet) : Sum State State :=
  let s := s.takeInbox lc n
  if 9900 ≤ s.age p.birth then .inl (s.lifetimeDrop lc)
  else if p.broken || p.dst != s.devId then .inl (s.addF R.LWT.DROPS2.MISROUTE 0 1)
  else .inr s

/-- Cells of a packed payload, each written as 96 bytes; none where they do not parse (R266).
DEDUCED, log entry 27. -/
def parseCells : Nat → List Byte → Option (List Byte)
  | 0, b => if b.isEmpty then some [] else none
  | k + 1, b =>
    if b.isEmpty then some []
    else
      let seg := bits (leNat (b.take 8)) 20 16
      let n := 8 + 4 * seg
      if 20 < seg || b.length < n then none
      else (parseCells k (b.drop n)).map fun r => b.take n ++ List.replicate (96 - n) 0 ++ r

/-- Landing buffer space in use (R253). -/
def LinkChip.inUse (c : LinkChip) : Nat := (c.landed.map (·.space)).sum

/-- An answer goes back to the packet's sender (R251). -/
def State.answer (s : State) (lc : Nat) (p : Packet) (code : Nat) : State :=
  let a : Packet := { type := 2, cls := p.cls, dst := p.src, src := s.devId, window := p.window, slot := p.slot, code := code,
                      birth := s.now / 1000 % 65536, vc := 4 }
  if p.src = s.devId then s.modChip (p.slot / 4096) fun c => { c with inbox := c.inbox ++ [a] } else s.txPacket lc a

/-- A landing refusal is counted (R252, R270). -/
def State.countRefusal (s : State) (code : Nat) : State :=
  let f := match code with
    | 1 => some R.LWT.DROPS.CLOSED
    | 2 => some R.LWT.DROPS.STALE
    | 3 => some R.LWT.DROPS.BOUNDS
    | 4 => some R.LWT.DROPS.NOT_PERMITTED
    | 6 => some R.LWT.DROPS2.MALFORMED
    | _ => none
  match f with
  | some f => (s.addF f 0 1).tallyDev 0x8C 1
  | none => s

/-- The checks of R252 in their order: the code, and the bytes to write. DEDUCED, log entry 27. -/
def State.landCheck (s : State) (lc : Nat) (p : Packet) : Nat × List Byte :=
  let w := s.window p.window
  let bs := if p.cells then parseCells p.data.length p.data else some p.data
  if w.st ≠ 1 then (1, [])
  else if w.gen ≠ p.gen then (2, [])
  else match bs with
    | none => (6, [])
    | some bs =>
      if w.size < p.off + bs.length then (3, [])
      else if w.tag = 0 || w.tag ≠ p.tag then (4, [])
      else if 524288 < (s.chip lc).inUse + p.data.length then (5, [])
      else (0, bs)

/-- DATA_PACKET_ARRIVAL (R247, R252, R253, R258, R266). -/
def execDataPacketArrival (lc : Fin 10) (n : Nat) (s : State) : Ans :=
  match (s.chip lc).inbox[n]? with
  | none => .next s
  | some p =>
    if 2 ≤ p.type && p.type ≤ 4 && !(p.type == 4) then .next s
    else match s.admitPkt lc n p with
      | .inl t => .next t
      | .inr s =>
        if p.type ≠ 1 then .next s
        else
          let (code, bs) := s.landCheck lc p
          if code = 0 then
            let s := s.modChip lc fun c =>
              { c with landed := c.landed ++ [⟨p, (s.window p.window).base + p.off, bs, p.data.length⟩] }
            .next (s.peakF R.LCH.LANDING_BUF.PEAK lc (ceilDiv (s.chip lc).inUse 1024))
          else .next ((s.countRefusal code).answer lc p code)

/-- LANDING_WRITE_ACCEPTED (R251, R253): memory has accepted every byte. -/
def execLandingWriteAccepted (lc : Fin 10) (n : Nat) (s : State) : Ans :=
  match (s.chip lc).landed[n]? with
  | none => .next s
  | some l =>
    let s := s.modChip lc fun c => { c with landed := c.landed.eraseIdx n }
    .next ((s.memWrite (servicePort lc) l.addr l.bytes).answer lc l.pkt 0)

/-- ANSWER_ARRIVAL (R251, R252): NO_BUFFER is repeated until the packet's age reaches 9,000 µs.
DEDUCED, log entry 25. -/
def execAnswerArrival (lc : Fin 10) (n : Nat) (s : State) : Ans :=
  match (s.chip lc).inbox[n]? with
  | none => .next s
  | some p =>
    if p.type ≠ 2 then .next s
    else match s.admitPkt lc n p with
      | .inl t => .next t
      | .inr s =>
        let slot := p.slot % 4096
        if p.slot / 4096 ≠ lc then .next s
        else match (s.chip lc).unans.find? fun o => o.slot == slot with
          | none => .next s
          | some o =>
            if p.code ≠ 5 || 9000 ≤ s.age o.pkt.birth then .next (s.finalAnswer lc slot p.code)
            else .next (s.modChip lc fun c => { c with unans := c.unans.map fun x =>
              if x.slot = slot then { x with retryAt := some (s.now + 1000 * o.backoff), backoff := min 128 (2 * o.backoff) } else x })

/-- NO_BUFFER_RETRY (R252). -/
def execNoBufferRetry (lc : Fin 10) (slot : Fin 4096) (s : State) : Ans :=
  match (s.chip lc).unans.find? fun o => o.slot == slot.val with
  | none => .next s
  | some o =>
    match o.retryAt with
    | none => .next s
    | some t =>
      if s.now < t then .next s
      else if 9000 ≤ s.age o.pkt.birth then .next (s.finalAnswer lc slot 5)
      else
        let s := s.modChip lc fun c => { c with unans := c.unans.map fun x => if x.slot = slot.val then { x with retryAt := none } else x }
        if o.pkt.dst = s.devId then .next ((s.addF R.MCG.RETRIES.RETRIES 0 1).transmit lc o none)
        else if (s.portsTo o.pkt.dst).isEmpty then .next (s.resend o.pkt.slot)
        else .next ((s.addF R.MCG.RETRIES.RETRIES 0 1).resend o.pkt.slot)

/-- PACKET_TIMEOUT (R251, R256): 20 ms without an answer; the first makes the partner suspect. -/
def execPacketTimeout (lc : Fin 10) (slot : Fin 4096) (s : State) : Ans :=
  match (s.chip lc).unans.find? fun o => o.slot == slot.val with
  | none => .next s
  | some o =>
    if s.now < o.firstAt + 20000000 then .next s
    else
      let d := o.pkt.dst
      let s := if (s.partner d).st = 1 then
          (s.modPartner d fun c => { c with st := 2, probeAt := s.now }).report {
            cls := 6, code := 4, dev := d, unit := rootUnit, repo := wholeUnit 5 lc, detail := d, remote := true }
        else s
      .next (s.finalAnswer lc slot 8)

/-- The packets that a link chiplet's ports hold in their queues and replay buffers: port, number and BIRTH. -/
def State.heldPkts (s : State) (lc : Nat) : List (Nat × Nat × Nat) :=
  ((List.range 4).flatMap fun k => ((s.port (4 * lc + k)).unacked ++ (s.port (4 * lc + k)).waiting).map fun f =>
    (4 * lc + k, f.pid, f.birth)).dedup

/-- A packet leaves a port's queue and replay buffer; a flit that already has its number goes on without it, as zero
bytes in which no packet starts (R243, R244, R258). DEDUCED, log entry 25. -/
def Port.discard (q : Port) (pid : Nat) : Port :=
  { q with waiting := q.waiting.filter fun f => f.pid != pid
           unacked := q.unacked.map fun f => if f.pid = pid then { f with pay := [], start := 0xFF } else f }

/-- The packets of R258 that a chiplet's ports still hold past their lifetime. -/
def State.overdue (s : State) (lc : Nat) : List (Nat × Nat × Nat) :=
  (s.heldPkts lc).filter fun k => decide (9900 ≤ s.age k.2.2) &&
    ((s.port k.1).waiting ++ (s.port k.1).unacked).any fun f => f.pid == k.2.1 && !f.pay.isEmpty

/-- LIFETIME_DISCARD (R258): the n-th packet received and not yet checked, or, beyond those, a packet in a queue or
replay buffer of the chiplet's ports. DEDUCED, log entry 25. -/
def execLifetimeDiscard (lc : Fin 10) (n : Nat) (s : State) : Ans :=
  let c := s.chip lc
  match c.inbox[n]? with
  | some p => .next (if 9900 ≤ s.age p.birth then (s.takeInbox lc n).lifetimeDrop lc else s)
  | none =>
    match (s.overdue lc)[n - c.inbox.length]? with
    | none => .next s
    | some k => .next ((s.modPort k.1 fun q => q.discard k.2.1).lifetimeDrop lc)

/-! ### Notices -/

/-- Notices held back that follow the last one applied are applied in order (R254). -/
def State.applyHeld (s : State) (d : Nat) : Nat → State
  | 0 => s
  | k + 1 =>
    let c := s.partner d
    match c.held.find? fun h => h.1 == c.rxSeq with
    | none => s
    | some h =>
      let s := s.modPartner d fun c => { c with rxSeq := (c.rxSeq + 1) % 65536, held := c.held.erase h }
      (s.applyNotice h.2).applyHeld d k

/-- A notice is acknowledged: its slot is free, and a waiting notice goes out (R254). -/
def State.noticeAcked (s : State) (d nseq : Nat) : State :=
  let c := s.partner d
  if !c.unacked.any fun x => x.nseq == nseq then s
  else
    let s := s.modPartner d fun c => { c with unacked := c.unacked.filter fun x => x.nseq != nseq }
    match (s.partner d).queued with
    | [] => s
    | w :: r => (s.modPartner d fun c => { c with queued := r }).sendNotice d w

/-- NOTICE_ARRIVAL (R254). -/
def execNoticeArrival (lc : Fin 10) (n : Nat) (s : State) : Ans :=
  match (s.chip lc).inbox[n]? with
  | none => .next s
  | some p =>
    if p.type ≠ 3 then .next s
    else match s.admitPkt lc n p with
      | .inl t => .next t
      | .inr s =>
        let d := p.src
        let c := s.partner d
        let ahead := (p.nseq + 65536 - c.rxSeq) % 65536
        let s := if ahead < 1024 && !(c.held.any fun h => h.1 == p.nseq) then
            (s.modPartner d fun c => { c with held := c.held ++ [(p.nseq, p.window)] }).applyHeld d 1024
          else s
        if d = s.devId then .next (s.noticeAcked d p.nseq)
        else .next (s.txPacket lc { type := 4, cls := 3, dst := d, src := s.devId, nseq := p.nseq, vc := 3, birth := s.now / 1000 % 65536 })

/-- NOTICE_RETRANSMIT (R254): 20 µs without an acknowledgement. -/
def execNoticeRetransmit (dev : Fin 4096) (nseq : Fin 65536) (s : State) : Ans :=
  match (s.partner dev).unacked.find? fun x => x.nseq == nseq.val with
  | none => .next s
  | some x =>
    if s.now < x.at_ + 20000 then .next s
    else
      let s := s.modPartner dev fun c => { c with unacked := c.unacked.map fun y => if y.nseq = nseq.val then { y with at_ := s.now } else y }
      let p : Packet := { type := 3, cls := 3, dst := dev, src := s.devId, window := x.window, nseq := nseq, vc := 3, birth := s.now / 1000 % 65536 }
      if dev.val = s.devId then .next (s.modChip 0 fun c => { c with inbox := c.inbox ++ [p] }) else .next (s.txPacket nseq p)

/-- NOTICE_ACK_ARRIVAL (R254). -/
def execNoticeAckArrival (dev : Fin 4096) (nseq : Fin 65536) (s : State) : Ans := .next (s.noticeAcked dev nseq)

/-! ### Partners and planes -/

/-- PARTNER_PROBE (R256): a suspect partner is probed once every 1 ms on the control channel. -/
def execPartnerProbe (dev : Fin 4096) (s : State) : Ans :=
  let c := s.partner dev
  if c.st ≠ 2 || s.now < c.probeAt + 1000000 then .next s
  else
    let s := s.modPartner dev fun c => { c with probeAt := s.now }
    .next (s.txPacket 0 { type := 4, cls := 3, dst := dev, src := s.devId, vc := 3, birth := s.now / 1000 % 65536 })

/-- PROBE_ANSWER (R256). -/
def execProbeAnswer (dev : Fin 4096) (s : State) : Ans :=
  .next (if (s.partner dev).st = 2 then s.modPartner dev fun c => { c with st := 1 } else s)

/-- The port set of a partner: the ports that are up and reach it (R257), but for those of a link chiplet under
update (R398). -/
def State.portSet (s : State) (d : Nat) : Nat :=
  ((List.range 40).map fun p =>
    let far := if s.getF R.LPT.TRAIN_STATUS.FAR_SWITCH p = 0 then s.getF R.LPT.TRAIN_STATUS.FAR_ID p == d
      else s.fab.reach.contains (p, d)
    if s.portUp p && far && !s.fab.out.contains p then 2 ^ p else 0).sum

/-- The fabric agent computes every port set (R257). -/
def State.updatePorts (s : State) : State :=
  each (s.fab.partners.map (·.1)) s fun s d =>
    let m := if (s.partner d).st = 0 then 0 else s.portSet d
    s.modPartner d fun c => { c with ports := m }

/-- PORT_SET_UPDATE (R257): `reach` are the pairs of a port and a device that the plane map lists for
switches. -/
def execPortSetUpdate (reach : List (Nat × Nat)) (s : State) : Ans :=
  .next (s.modFab fun f => { f with reach := reach }).updatePorts

/-- The plane limit this device holds (R17, R18). -/
def State.planeTier (s : State) : Nat :=
  if s.getF R.SEC.LIC_MASK.TIER3 0 = 1 then 2048 else if s.getF R.SEC.LIC_MASK.TIER2 0 = 1 then 512 else 64

/-- This device is the plane root: the lowest joined id of its plane that is not out of the tree (R286). -/
def State.isRoot (s : State) : Bool :=
  ((s.fab.members.filter fun m => m.1 / 2048 == s.devId / 2048).all fun m =>
    decide (s.devId ≤ m.1) || s.tally.gate.out.contains m.1)

/-- A device that becomes root rebuilds the held tags, from its own jobs first (R261); the tags that other devices
report reach it under JOB_TAG_REQUEST. DEDUCED, log entry 26. -/
def State.rebuildTags (s t : State) : State :=
  if s.isRoot || !t.isRoot then t
  else
    let own := t.jobs.filterMap fun e => e.2.bind fun j =>
      let tag := t.getF (R.LWT.CL_TAGn.JOB_TAG.at 4 (j.clusters.headD 0)) 0
      if tag = 0 then none else some (⟨tag, j.prog.hash, j.prog.jobIdent, [t.devId]⟩ : TagRec)
    t.modFab fun f => { f with tags := own }

/-- A join or leave takes effect (R255, R256): contexts of a join start their notice sequences at 0, and the device is
in the gate tree again (R286). -/
def State.applyJoin (s : State) (j : Nat × Option Nat) : State :=
  match j.2 with
  | some lim =>
    let s := s.modFab fun f => { f with members := (f.members.filter fun m => m.1 != j.1) ++ [(j.1, lim)] }
    let s := s.modGate fun g => { g with out := g.out.filter (· != j.1) }
    if j.1 = s.devId then s.setF R.LCH.FABRIC_ID.JOINED 0 1 else s.modPartner j.1 fun _ => { st := 1 }
  | none =>
    let s := s.modFab fun f => { f with members := f.members.filter fun m => m.1 != j.1 }
    if j.1 = s.devId then s.setF R.LCH.FABRIC_ID.JOINED 0 0 else s.modPartner j.1 fun _ => {}

/-- At a tally mark, the joins and leaves that wait take effect, the ports of an updated link chiplet rejoin, and
the port sets follow (R255, R257, R398). DEDUCED, log entry 26. -/
def State.applyJoins (s : State) : State :=
  let held := s.fab.out.filter fun p => s.getF R.SEC.SERVICE.PART 0 == 3 && s.getF R.SEC.SERVICE.INDEX 0 == p / 4
  if s.fab.joins.isEmpty && held.length == s.fab.out.length then s
  else s.rebuildTags ((each s.fab.joins s State.applyJoin).modFab fun f => { f with joins := [], out := held }).updatePorts

/-- A device without marks has no step for a join to wait for. DEDUCED, log entry 26. -/
def State.marks (s : State) : Bool := s.getF R.TLY.MARK_CTL.SOURCE 0 == 1 || s.getF R.TLY.MARK_CTL.SOURCE 0 == 2

def State.queueJoin (s : State) (j : Nat × Option Nat) : State :=
  let s := s.modFab fun f => { f with joins := f.joins ++ [j] }
  if s.marks then s else s.applyJoins

/-- The effective plane limits of the devices that a plane has or will have once the waiting joins take effect; this
device's own is that of its licences now (R18, R255). DEDUCED, log entry 26. -/
def State.planeLimits (s : State) (plane : Nat) : List Nat :=
  let joining := s.fab.joins.filterMap fun j => j.2.map fun l => (j.1, l)
  ((s.fab.members ++ joining).filter fun m => m.1 / 2048 == plane).map fun m => if m.1 = s.devId then s.planeTier else m.2

/-- Every device of both planes, the joining one too, holds the mirrored-pair licence (R18). -/
def State.pairOk (s : State) (q : JoinReq) : Bool :=
  let ids := (s.fab.members.map (·.1)) ++ (s.fab.joins.filter fun j => j.2.isSome).map (·.1)
  q.lic && s.getF R.SEC.LIC_MASK.PAIR 0 == 1 && ids.all fun d => d == s.devId || s.fab.pairLic.contains d

/-- Why the members refuse a join (R18, R255): the id, the id's use, the plane limit, the pair licence.
DEDUCED, log entry 26. -/
def State.joinRefusal (s : State) (q : JoinReq) : Option Nat :=
  let here := s.planeLimits (q.id / 2048)
  let lim := here.foldl min (if q.id = s.devId then min q.limit s.planeTier else q.limit)
  if 4096 ≤ q.id || (2048 ≤ q.id && !q.pair) then some 1
  else if (s.fab.members.any fun m => m.1 == q.id) || s.fab.joins.any fun j => j.1 == q.id && j.2.isSome then some 2
  else if lim < here.length + 1 then some 3
  else if q.pair && !s.pairOk q then some 4
  else none

/-- PLANE_JOIN (R18, R255): a refusal is reported with its cause in DETAIL [31:16] and the id in [11:0]. -/
def execPlaneJoin (q : JoinReq) (s : State) : Ans :=
  match s.joinRefusal q with
  | some cause =>
    .next (s.report { cls := 6, code := 5, dev := q.id % 4096, unit := rootUnit, repo := rootUnit,
                      detail := q.id % 4096 + cause * 2 ^ 16, remote := q.id != s.devId })
  | none => .next ((s.modFab fun f => { f with pairLic := (f.pairLic.filter (· != q.id)) ++ if q.lic then [q.id] else [] }).queueJoin
      (q.id, some q.limit))

/-- PLANE_LEAVE (R255, R256). -/
def execPlaneLeave (dev : Fin 4096) (s : State) : Ans :=
  .next (if s.fab.members.any fun m => m.1 == dev.val then s.queueJoin (dev.val, none) else s)

/-! ### Job tags (R261) -/

/-- The root gives a job its tag: the one it holds already, or the lowest free one. -/
def State.giveTag (s : State) (dev : Nat) (hash : List Byte) (ident : Nat) : State × Nat :=
  match s.fab.tags.find? fun t => t.hash == hash && t.ident == ident with
  | some t =>
    let t' := { t with devs := if t.devs.contains dev then t.devs else t.devs ++ [dev] }
    (s.modFab fun f => { f with tags := f.tags.map fun x => if x.tag = t.tag then t' else x }, t.tag)
  | none =>
    match ((List.range 65535).map (· + 1)).find? fun n => !s.fab.tags.any fun t => t.tag == n with
    | some n => (s.modFab fun f => { f with tags := f.tags ++ [⟨n, hash, ident, [dev]⟩] }, n)
    | none => (s, 0)

/-- The control complex writes a job's tag into its clusters and windows. -/
def State.useTag (s : State) (hash : List Byte) (ident tag : Nat) : State :=
  match s.allJobs.find? fun p => p.2.prog.hash == hash && p.2.prog.jobIdent == ident with
  | none => s
  | some (_, j) =>
    let s := each j.clusters s fun s c => s.setF (R.LWT.CL_TAGn.JOB_TAG.at 4 c) 0 tag
    each j.windows s fun s w => s.modWindow w fun x => if x.st = 0 then { x with tag := tag } else x

/-- A device reports to a new root the tag that its job holds (R261). -/
def State.reportTag (s : State) (dev : Nat) (hash : List Byte) (ident tag : Nat) : State :=
  let own := fun (t : TagRec) => t.tag == tag && t.hash == hash && t.ident == ident
  let add := fun (t : TagRec) => if own t && !t.devs.contains dev then { t with devs := t.devs ++ [dev] } else t
  if s.fab.tags.any own then s.modFab fun f => { f with tags := f.tags.map add }
  else s.modFab fun f => { f with tags := f.tags ++ [⟨tag, hash, ident, [dev]⟩] }

/-- JOB_TAG_REQUEST (R261): at the root, the assignment, or, with a tag `given`, a device's report of the tag it holds;
elsewhere `given` is what the root gives this device. DEDUCED, log entry 26. -/
def execJobTagRequest (dev : Fin 4096) (hash : List Byte) (ident : Nat) (given : Fin 65536) (s : State) : Ans :=
  if s.isRoot && given.val != 0 then .next (s.reportTag dev hash ident given) else
  let (s, tag) := if s.isRoot then s.giveTag dev hash ident else (s, given.val)
  .next (if dev.val = s.devId && tag != 0 then s.useTag hash ident tag else s)

/-- JOB_TAG_RELEASE (R261). DEDUCED, log entry 26. -/
def execJobTagRelease (dev : Fin 4096) (tag : Fin 65536) (s : State) : Ans :=
  .next (s.modFab fun f => { f with tags :=
    (f.tags.map fun t => if t.tag = tag.val then { t with devs := t.devs.erase dev.val } else t).filter fun t => !t.devs.isEmpty })

/-! ### Landing windows (R217, R259 to R263, R422) -/

/-- The clusters of the job partition that owns a window (R260). -/
def State.owners (s : State) (tag : Nat) : List Nat :=
  if tag = 0 then [] else
  (List.range 24).filter fun c => (s.jobOf c).isSome && s.getF (R.LWT.CL_TAGn.JOB_TAG.at 4 c) 0 == tag

/-- A range of the deck, in one view, or of the HBM program region lies in a valid, writable fence window of
the cluster (R217), as the fence registers stand. DEDUCED, log entry 22; DEDUCED, log entry 27. -/
def State.rangeFenced (s : State) (c a n : Nat) : Bool :=
  let view := fun (x : Nat) => if x < spreadSize then some 0 else match s.place x with
    | some (.chip _) => some (1 + (x - homeBase) / 2 ^ 30)
    | some .hbm => some 100
    | _ => none
  match view a, view (a + n - 1), s.fenceUnit a, s.fenceUnit (a + n - 1) with
  | some v, some w, some (sp, u), some (_, t) =>
    v == w && (List.range 8).any fun k =>
      let g := fun (f : Fld) => s.getF (f.at 8 k) c
      g R.CL.FENCE_LOn.VALID == 1 && g R.CL.FENCE_LOn.READ_ONLY == 0 && g R.CL.FENCE_LOn.SPACE == sp &&
        decide (g R.CL.FENCE_LOn.FIRST ≤ u) && decide (t ≤ g R.CL.FENCE_HIn.LAST)
  | _, _, _, _ => false

/-- The notice target lies in the owning job partition. DEDUCED, log entry 27. -/
def State.targetOk (s : State) (own : List Nat) (cl site tok : Nat) : Bool :=
  own.contains cl && decide (site ≤ 27) && s.siteInService (28 * cl + site) && decide (tok ≤ 0xFD)

/-- The RESULT of an open (R260, R270); 0 where it is accepted. DEDUCED, log entry 27. -/
def State.openResult (s : State) (w : Window) : Nat :=
  let own := s.owners w.tag
  let early := match w.closedAt with
    | some t => decide (s.now < t + 50000)
    | none => false
  if w.st ≠ 0 then 1
  else if early then 2
  else if 2 ^ 32 < w.size || w.size = 0 || !own.any fun c => s.rangeFenced c w.base w.size then 3
  else if w.nvalid && !s.targetOk own w.ncl w.nsite w.ntok then 4
  else 0

/-- A write of LWT.CMD (R260, R262, R422). -/
def State.windowCmd (s : State) (v : Nat) : State :=
  let n := s.getF R.LWT.SEL.WINDOW 0
  let w := s.window n
  let res := fun (s : State) (r : Nat) => s.setF R.LWT.CMD.RESULT 0 r
  if s.getF R.LWT.CMD.BUSY 0 = 1 then s
  else if flag v 0 && flag v 1 then res s 6
  else if flag v 0 then
    let r := s.openResult w
    if r = 0 then res (s.modWindow n fun w => { w with st := 1, gen := (w.gen + 1) % 256 }) 0 else res s r
  else if flag v 1 then
    if w.st ≠ 1 then res s 5
    else
      let s := s.modWindow n fun w => { w with st := 2 }
      (s.modFab fun f => { f with closing := some n }).setF R.LWT.CMD.BUSY 0 1
  else s

/-- WINDOW_OPEN (R260): a write of LWT.CMD with OPEN. -/
def execWindowOpen (v : BitVec 32) (s : State) : Ans :=
  .next (s.asActive fun s => if s.hosted 12 0 && flag v.toNat 0 then s.windowCmd v.toNat else s)

/-- WINDOW_CLOSE (R262): a write of LWT.CMD with CLOSE. -/
def execWindowClose (v : BitVec 32) (s : State) : Ans :=
  .next (s.asActive fun s => if s.hosted 12 0 && flag v.toNat 1 then s.windowCmd v.toNat else s)

/-- WINDOW_CLOSE_COMPLETE (R262): every packet that passed its check is in memory. -/
def execWindowCloseComplete (s : State) : Ans :=
  match s.fab.closing with
  | none => .next s
  | some n =>
    if s.landing n then .next s
    else
      let s := s.modWindow n fun w => { w with st := 0, closedAt := some s.now }
      let s := s.modFab fun f => { f with closing := none }
      .next ((s.setF R.LWT.CMD.BUSY 0 0).setF R.LWT.CMD.RESULT 0 0)

/-- A write of LWT.WIN_NOTIFY (R263): VALID only while CLOSED; the target also while OPEN or CLOSING, when it
lies in the owning job partition. -/
def State.notifyWrite (s : State) (v : Nat) : State :=
  let n := s.getF R.LWT.SEL.WINDOW 0
  let w := s.window n
  let cl := bits v 5 1
  let site := bits v 10 6
  let tok := bits v 18 11
  if w.st = 0 then s.modWindow n fun w => { w with nvalid := flag v 0, ncl := cl, nsite := site, ntok := tok }
  else if s.targetOk (s.owners w.tag) cl site tok then s.modWindow n fun w => { w with ncl := cl, nsite := site, ntok := tok }
  else s.setF R.LWT.CMD.RESULT 0 4

/-- WINDOW_NOTIFY_CHANGE (R263). -/
def execWindowNotifyChange (v : BitVec 32) (s : State) : Ans :=
  .next (s.asActive fun s => if s.hosted 12 0 then s.notifyWrite v.toNat else s)

/-- A write of MCG.ENTRY (R264): an entry outside the sender's plane is refused. -/
def State.mcastEntry (s : State) (v : Nat) : State :=
  let g := s.getF R.MCG.SEL.GROUP 0
  let e := s.getF R.MCG.SEL.ENTRY 0
  let bad := bits v 11 0 / 2048 != s.devId / 2048
  let s := s.modFab fun f => { f with mcRefused := Tab.set 0 f.mcRefused g (if bad then 1 else 0) }
  if bad then s
  else s.modFab fun f =>
    let x : McGroup := Tab.get {} f.mcast g
    { f with mcast := Tab.set {} f.mcast g { x with entries := Tab.set 0 x.entries e (v % 2 ^ 31) } }

/-- MULTICAST_ENTRY_WRITE (R264). -/
def execMulticastEntryWrite (v : BitVec 32) (s : State) : Ans :=
  .next (s.asActive fun s => if s.hosted 13 0 then s.mcastEntry v.toNat else s)

end Sys2Proof.Machine
end

