-- ==== Sys2Proof/Machine/Slots.lean ====
section
/-! DEFINITION. Accumulator slots and long slots (R71 to R75), and the residue check of an accumulator
(R56). -/

namespace Sys2Proof.Machine

/-- The array whose output buffer serves a slot: that of the MM that last used it, else A0 (R73).
DESIGN CHOICE, log entry 12. -/
def CoreSite.slotArray (c : CoreSite) (addr : Nat) : Nat := Tab.get 0 c.slotArr addr

/-- The long slot that a LONG = 1 slot names, when its owner is that slot (R72). DESIGN CHOICE, log entry 12. -/
def CoreSite.longOf (c : CoreSite) (addr : Nat) : Option Nat :=
  let w := leNat (c.rdLm addr 16)
  if flag w 127 && bits w 126 9 == 0 then
    let k := c.slotArray addr * 512 + bits w 8 0
    if (Tab.get {} c.longs k).owner == some addr then some k else none
  else none

/-- The report of a malformed slot or partial: class 0x4, code 0x02, without stopping (R48, R72). -/
def formatReport : Ev := .report 4 2 0x3FFF 0 0 0

/-- R72: an engine reads a slot. -/
def Run.readSlot (x : Run) (addr : Nat) : Run × Acc :=
  let w := leNat (x.c.rdLm addr 16)
  if flag w 127 then
    match x.c.longOf addr with
    | some k => (x, (Tab.get {} x.c.longs k).acc)
    | none => (x.raise formatReport, { nan := true })
  else (x, ofWindow w)

/-- The highest number of long slots in use (CORE.LONG_PEAK01, CORE.LONG_PEAK23). -/
def peakFld : Nat → Fld
  | 0 => R.CORE.LONG_PEAK01.A0_PEAK
  | 1 => R.CORE.LONG_PEAK01.A1_PEAK
  | 2 => R.CORE.LONG_PEAK23.A2_PEAK
  | _ => R.CORE.LONG_PEAK23.A3_PEAK

/-- A free long slot of an array's output buffer (R75), lowest first. DESIGN CHOICE, log entry 12. -/
def CoreSite.freeLong (c : CoreSite) (arr : Nat) : Option Nat :=
  (List.range 512).find? fun i => (Tab.get {} c.longs (arr * 512 + i)).owner == none

/-- R73: write a slot after an update by array `arr`. DESIGN CHOICE, log entry 12. -/
def Run.writeSlot (x : Run) (addr : Nat) (a : Acc) (arr : Nat) : Run :=
  match x.c.longOf addr with
  | some k => { x with c := { x.c with longs := Tab.set {} x.c.longs k ⟨a, some addr⟩ } }
  | none =>
    let c := { x.c with slotArr := Tab.set 0 x.c.slotArr addr arr }
    if a.fits then { x with c := c.wrLm addr (natLE 16 a.toWindow) }
    else match c.freeLong arr with
      | none => if x.cap then x else { x.bump R.CORE.ACC_EVENTS.CAP_FAULTS 1 with cap := true }
      | some i =>
        let c := { c with longs := Tab.set {} c.longs (arr * 512 + i) ⟨a, some addr⟩ }
        let used := c.longs.countP fun e => decide (arr * 512 ≤ e.1) && decide (e.1 < arr * 512 + 512)
        (({ x with c := c.wrLm addr (natLE 16 (longSlot i)) } : Run).bump R.CORE.ACC_EVENTS.PROMOTIONS 1).raise
          (.peak (peakFld arr) used)

/-- R71, R109: release a slot; it reads as all zero. -/
def CoreSite.releaseSlot (c : CoreSite) (addr : Nat) : CoreSite :=
  let longs := match c.longOf addr with
    | some k => Tab.set {} c.longs k {}
    | none => c.longs
  ({ c with longs := longs, slotArr := Tab.set 0 c.slotArr addr 0 } : CoreSite).wrLm addr (List.replicate 16 0)

def Run.releaseSlot (x : Run) (addr : Nat) : Run := { x with c := x.c.releaseSlot addr }

/-- Release n consecutive slots. -/
def Run.releaseSlots (x : Run) (addr n : Nat) : Run :=
  (List.range n).foldl (fun x i => x.releaseSlot (addr + 16 * i)) x

/-- R44, R61: count an accumulator that becomes range-lost. -/
def Run.lostCheck (x : Run) (before after : Acc) : Run :=
  if after.lost && !before.lost then x.bump R.CORE.ACC_STATUS.RANGE_LOST 1 else x

/-- A residue mismatch at an array (R55, R56): counted, and reported as class 0x2 with the expected and
the observed residue. -/
def Run.residueBad (x : Run) (pass : Bool) (arr row col expd obs : Nat) : Run :=
  let f := if pass then R.CORE.ACC_STATUS.PASS_MISMATCH else R.CORE.ACC_STATUS.ACC_MISMATCH
  let sub := arr + (if pass then 0 else 4) + (col % 128) * 8
  (((x.bump f 1).raise (.report 2 (if pass then 1 else 2) sub row col (expd + obs * 2 ^ 16)))).raise
    (.residue pass arr sub row col (expd + obs * 2 ^ 16))

/-- R56: compare the shadow residue when a partial is formed or an output rounded; `off` is
CORE.RES_CTL.ACC_CHK_OFF. -/
def Run.accCheck (x : Run) (off : Bool) (arr row col : Nat) (a : Acc) : Run :=
  if a.mismatch && !off then x.residueBad false arr row col a.res (resOf a.a (-300)) else x

/-- Read n consecutive slots. -/
def Run.readSlots (x : Run) (addr : Nat) : Nat → Run × List Acc
  | 0 => (x, [])
  | n + 1 =>
    let (x, a) := x.readSlot addr
    let (x, l) := x.readSlots (addr + 16) n
    (x, a :: l)

end Sys2Proof.Machine
end

