-- ==== Sys2Proof/Machine/Quantise.lean ====
section
/-! DEFINITION. The quantisation-error monitor, block escalation and the tagged layout (R177 to R185),
the quantiser's instruction QNT (R114), and the output rows that epilogues and chains write (R106,
R126, R278). -/

namespace Sys2Proof.Machine

/-- R177: the sums D and M of a block, over its finite elements. -/
def monSums (b : Blk) (vs : List Num) : Rat × Rat :=
  let ds := (decodeBlock .e2m1 b.scale b.codes).nums
  (vs.zip ds).foldl (fun (t : Rat × Rat) p => match p.1, p.2 with
    | .fin v, .fin d => (t.1 + |v - d|, t.2 + |v|)
    | _, _ => t) (0, 0)

/-- R177, R178: D / M of a block over threshold, none for a block that is not. -/
def overRatio (tau : Nat) (b : Blk) (vs : List Num) : Option Rat :=
  let (d, m) := monSums b vs
  if b.scale = 0xFF ∨ m = 0 then none
  else if (tau : Rat) * m < 65536 * d then some (d / m) else none

/-- R180: the place of the largest ratio among the over-threshold blocks, the lowest on a tie. -/
def largestRatio : Nat → List (Option Rat) → Option (Nat × Rat)
  | _, [] => none
  | i, r :: rs =>
    match r, largestRatio (i + 1) rs with
    | none, t => t
    | some q, none => some (i, q)
    | some q, some (j, p) => if q < p then some (j, p) else some (i, q)

/-- A block of a tagged row: its tag, and its encoding in E2M1 or E4M3 (R182). -/
structure TBlk where
  tag : Bool
  blk : Blk
  deriving DecidableEq, Repr

/-- The counts of one escalation group or row: blocks escalated, blocks over threshold left. -/
structure EscCnt where
  esc : Nat
  ovf : Nat
  deriving DecidableEq, Repr

/-- R34 as the encoder of a block of exact values: the scale by R30 from the same values. -/
def qntEncode (f : EFmt) (w : Draw) (vs : List Num) : Blk := encodeBlock f w (finMags vs) vs

/-- R179, R180: one escalation group. `enc` encodes block i of the group's values in E2M1; an escalated block is encoded
in E4M3 under R34 from the same values. -/
def escGroup (tau : Nat) (enc : Draw → List Num → Blk) (w : Draw) (vss : List (List Num)) :
    List TBlk × EscCnt :=
  let at_ := fun (i : Nat) => { w with index := w.index + 32 * i }
  let first := vss.mapIdx fun i vs => enc (at_ i) vs
  let ratios := (first.zip vss).map fun p => overRatio tau p.1 p.2
  let nOver := ratios.countP Option.isSome
  match largestRatio 0 ratios with
  | none => (first.map (⟨false, ·⟩), ⟨0, 0⟩)
  | some (j, _) =>
    ((first.zip vss).mapIdx (fun i p => if i = j then ⟨true, qntEncode .e4m3 (at_ i) p.2⟩ else ⟨false, p.1⟩),
     ⟨1, nOver - 1⟩)

/-- R180: a row's groups of 4 blocks. -/
def escRow (tau : Nat) (enc : Draw → List Num → Blk) (w : Draw) (vss : List (List Num)) :
    List TBlk × EscCnt :=
  let gs := (chunks 4 (ceilDiv vss.length 4) vss).mapIdx fun j g =>
    escGroup tau enc { w with index := w.index + 128 * j } g
  (gs.flatMap (·.1), ⟨(gs.map (·.2.esc)).sum, (gs.map (·.2.ovf)).sum⟩)

/-- R182: the bytes of a tagged row. -/
def taggedBytes (bl : List TBlk) : List Byte :=
  let n := bl.length
  let g := ceilDiv n 4
  let bytesOf := fun (b : TBlk) => if b.tag then toBytes b.blk.codes else packBlock .e2m1 b.blk.codes
  let ext := (chunks 4 g bl).flatMap fun grp =>
    match grp.find? (·.tag) with
    | some b => (bytesOf b).drop 16
    | none => List.replicate 16 0
  let tags := (chunks 4 g bl).map fun grp =>
    packCodes 1 (grp.map fun b => if b.tag then 1 else 0)
  let row := bl.flatMap (fun b => (bytesOf b).take 16) ++ ext ++ toBytes (bl.map (·.blk.scale)) ++ toBytes tags
  row ++ List.replicate (taggedPitch n - row.length) 0

/-- The largest FP32 magnitude of a list of finite values (R185). -/
def amaxOf (vs : List Num) : Nat :=
  vs.foldl (fun t v => match v with
    | .fin q => max t (toFp32 |q|)
    | _ => t) 0

/-- Values in blocks of 32, the last one padded with zeros (R21). -/
def inBlocks (vs : List Num) : List (List Num) :=
  (chunks 32 (ceilDiv vs.length 32) vs).map fun b => b ++ List.replicate (32 - b.length) (.fin 0)

/-- The codes of R125: MX formats, tagged E2M1 and the IEEE formats. -/
inductive OFmt where
  | mx (f : EFmt)
  | tagged
  | ieee (f : IFmt)
  deriving DecidableEq, Repr

def OFmt.ofCode (n : Nat) : OFmt :=
  match n with
  | 9 => .tagged
  | 13 => .ieee .fp32
  | 14 => .ieee .bf16
  | 15 => .ieee .fp16
  | _ => match EFmt.ofCode n with
    | some f => .mx f
    | none => .tagged

/-- R106: the pitch of an output row of n outputs. -/
def OFmt.pitch (f : OFmt) (n : Nat) : Nat :=
  match f with
  | .mx e => rowPitch e (ceilDiv n 32)
  | .tagged => taggedPitch (ceilDiv n 32)
  | .ieee i => i.bytes * n

/-- The bytes that an output row of n outputs writes. -/
def OFmt.size (f : OFmt) (n : Nat) : Nat :=
  match f with
  | .mx e => rowBytes e (ceilDiv n 32)
  | .tagged => taggedPitch (ceilDiv n 32)
  | .ieee i => i.bytes * n

/-- What an output row is written with: format, mode and stream, counter set, To, TAU and whether the
outputs join the fingerprint (R126, R178, R278). -/
structure OutSpec where
  fmt  : OFmt
  draw : Draw
  cset : Nat
  tout : Rat
  tau  : Nat
  fpEn : Bool
  deriving DecidableEq, Repr

/-- R278 `fp_term`. -/
def fpTerm (tid index word : Nat) : Nat := (roundingStream 0 tid index * (2 * word + 1)) % 2 ^ 64

/-- R278: the terms of n written elements. -/
def fpSum (tid index : Nat) : List Nat → Nat
  | [] => 0
  | w :: ws => (fpTerm tid index w + fpSum tid (index + 1) ws) % 2 ^ 64

/-- An output row: its bytes, and the values written (for the row statistics). -/
structure OutRow where
  bytes : List Byte
  vals  : List Num
  deriving DecidableEq, Repr

/-- Count a row's fingerprint terms. -/
def Run.fingerprint (x : Run) (o : OutSpec) (words : List Nat) : Run :=
  if o.fpEn then
    (x.raise (.cnt o.cset .fpCount words.length)).raise (.cnt o.cset .fp (fpSum o.draw.tid o.draw.index words))
  else x

/-- R126 step 7, R106, R278: round the exact values V of one row, divided by To for MX, count its events
and give its bytes. -/
def Run.outRow (x : Run) (o : OutSpec) (vs : List Num) : Run × OutRow :=
  let n := vs.length
  match o.fmt with
  | .ieee f =>
    let rs := vs.mapIdx fun i v => roundNum v f o.draw.mode (o.draw.bits16 i)
    let x := (x.count o.cset .sat ((rs.map (·.sat)).sum)).count o.cset .nan ((rs.map (·.nan)).sum)
    let codes := rs.map (·.code)
    (x.fingerprint o codes, ⟨codes.flatMap (natLE f.bytes ·), codes.map (ieeeDecode f ·)⟩)
  | .mx f =>
    let vss := inBlocks (vs.map (·.div o.tout))
    let bl := vss.mapIdx fun i b => roundMxBlock f { o.draw with index := o.draw.index + 32 * i } b
    let x := (x.count o.cset .sat ((bl.map (·.sat)).sum)).count o.cset .nan ((bl.map (·.nan)).sum)
    let x := x.count o.cset .amax (amaxOf vs)
    let words := (bl.flatMap fun b => b.codes.map fun c => c + b.scale * 2 ^ 8).take n
    (x.fingerprint o words,
     ⟨writePlainRow f bl, (bl.flatMap fun b => (decodeBlock f b.scale b.codes).nums).take n⟩)
  | .tagged =>
    let vss := inBlocks (vs.map (·.div o.tout))
    let (bl, e) := escRow o.tau (roundMxBlock .e2m1) o.draw vss
    let x := (x.count o.cset .sat ((bl.map (·.blk.sat)).sum)).count o.cset .nan ((bl.map (·.blk.nan)).sum)
    let x := ((x.count o.cset .monBlocks bl.length).count o.cset .esc e.esc).count o.cset .escOvf e.ovf
    let x := x.count o.cset .amax (amaxOf vs)
    let words := (bl.flatMap fun b => b.blk.codes.map fun c =>
      c + b.blk.scale * 2 ^ 8 + (if b.tag then 2 ^ 16 else 0)).take n
    (x.fingerprint o words,
     ⟨taggedBytes bl, (bl.flatMap fun b =>
        (decodeBlock (if b.tag then .e4m3 else .e2m1) b.blk.scale b.blk.codes).nums).take n⟩)

/-! ### QNT (R114) -/

/-- The operands of QNT. -/
structure QntOps where
  mon   : Bool
  src   : Nat
  dst   : Nat
  dsc   : Nat
  fmt   : AFmt
  mode  : Rnd
  nblk  : Nat
  valid : Nat
  seed  : Nat
  gt    : Nat
  gx    : Nat
  ts    : Nat
  tau   : Nat
  deriving DecidableEq, Repr

/-- The real values that QNT reads. -/
def QntOps.words (q : QntOps) : Nat := 32 * (q.nblk - 1) + (if q.valid = 0 then 32 else q.valid)

/-- R114, R94: decode QNT and its checks; `inl` is the fault. -/
def qntOps (w : IWord) (c : CoreSite) : SeqFault ⊕ QntOps :=
  match AFmt.ofCode (wf w 39 36), Rnd.ofCode (wf w 35 34) with
  | some f, some m =>
    let q : QntOps :=
      { mon := wb w 112, src := c.la (wf w 111 88), dst := c.la (wf w 87 64), dsc := c.la (wf w 63 40),
        fmt := f, mode := m, nblk := wf w 33 26 + 1, valid := wf w 4 0,
        seed := c.gn (wf w 25 21), gt := c.gn (wf w 20 16), gx := c.gn (wf w 15 11),
        ts := c.gn (wf w 10 6) % 2 ^ 32, tau := bits (c.gn (wf w 10 6)) 47 32 }
    if q.mon && f != .tagged then .inl .illegal
    else if !scaleOk q.ts then .inl .format
    else
      let ok := rdOk q.src (4 * q.words) && (match f with
        | .tagged => wrOk q.dst (taggedPitch q.nblk)
        | .plain e => wrOk q.dst (q.nblk * e.blockBytes) && wrOk q.dsc q.nblk)
      if ok then .inr q else .inl .illegal
  | _, _ => .inl .illegal

/-- R114: the effect of QNT. -/
def Run.qnt (x : Run) (q : QntOps) : Run :=
  let raw := (List.range q.words).map fun j => leNat (x.c.rdLm (q.src + 4 * j) 4)
  let ins := raw.map (ieeeDecode .fp32 ·)
  let vss := inBlocks (ins.map (·.div (fp32Rat q.ts)))
  let cset := bits q.gt 39 32
  let draw : Draw := ⟨q.mode, q.seed, q.gt % 2 ^ 32, q.gx⟩
  let x := x.count cset .amax (amaxOf ins)
  match q.fmt with
  | .plain f =>
    let bl := vss.mapIdx fun i b => qntEncode f { draw with index := draw.index + 32 * i } b
    let x := (x.count cset .sat ((bl.map (·.sat)).sum)).count cset .nan ((bl.map (·.nan)).sum)
    x.setC ((x.c.wrLm q.dst (bl.flatMap fun b => packBlock f b.codes)).wrLm q.dsc (toBytes (bl.map (·.scale))))
  | .tagged =>
    let (bl, e) :=
      if q.mon then escRow q.tau (qntEncode .e2m1) draw vss
      else (vss.mapIdx (fun i b => (⟨false, qntEncode .e2m1 { draw with index := draw.index + 32 * i } b⟩ : TBlk)),
            ⟨0, 0⟩)
    let x := (x.count cset .sat ((bl.map (·.blk.sat)).sum)).count cset .nan ((bl.map (·.blk.nan)).sum)
    let x := if q.mon then ((x.count cset .monBlocks bl.length).count cset .esc e.esc).count cset .escOvf e.ovf
      else x
    { x with c := x.c.wrLm q.dst (taggedBytes bl) }

/-- QNT as an instruction of the quantiser. -/
def coreQnt (w : IWord) (x : Run) : CoreRes :=
  match qntOps w x.c with
  | .inl k => .fault k x
  | .inr q =>
    let wr : List Rng := match q.fmt with
      | .tagged => [⟨q.dst, taggedPitch q.nblk⟩]
      | .plain e => [⟨q.dst, q.nblk * e.blockBytes⟩, ⟨q.dsc, q.nblk⟩]
    x.queue
      { unit := .quant, opc := 0x80, pc := x.c.pc, ctr := completion w, rd := [⟨q.src, 4 * q.words⟩],
        wr := wr } fun x => x.qnt q

end Sys2Proof.Machine
end

