-- ==== Sys2Proof/Machine/Chain.lean ====
section
/-! DEFINITION. Prologues, epilogues, row statistics, folded normalisation, the attention chain and the
gated chain (R119 to R143): what a descriptor makes of the rows that enter and leave an array. -/

namespace Sys2Proof.Machine

/-- A descriptor's kind (R119). -/
def dKind (d : Nat) : Nat := bits d 7 0

/-- The tensor id and the counter set of a register (R121). -/
def CoreSite.tid (c : CoreSite) (r : Nat) : Nat := c.gn r % 2 ^ 32
def CoreSite.cset (c : CoreSite) (r : Nat) : Nat := bits (c.gn r) 39 32

/-- The tensor scale of a register as a rational; its validity has been checked. -/
def CoreSite.scaleRat (c : CoreSite) (r : Nat) : Rat := fp32Rat (c.gn r % 2 ^ 32)

def rndOf (n : Nat) : Rnd := (Rnd.ofCode n).getD .rne

/-! ### Statistics slots (R128, R129) -/

/-- The address of slot index i. -/
def slotAddr (i : Nat) : Nat := 16 * i

/-- A NAN or infinity flag in a slot, or range loss (R129). -/
def Acc.flagged (a : Acc) : Bool := a.nan || a.pinf || a.ninf || a.lost

/-- R129: μ and r of the row whose two slots start at `addr`. A flagged slot makes both NaN; otherwise a row length of 0
gives values that the spec does not state, and so does an EPS without an r, which are free. DESIGN CHOICE, log entry 6. -/
def Run.norm (x : Run) (addr n t eps : Nat) (rms : Bool) : Run × Num × Num :=
  let (x, s1) := x.readSlot addr
  let (x, s2) := x.readSlot (addr + 16)
  if s1.flagged || s2.flagged then (x, .nan, .nan)
  else if n = 0 then
    ({ x with fr := x.fr + 2 }, ieeeDecode .fp32 ((Config.freeWord x.fr).toNat % 2 ^ 32),
     ieeeDecode .fp32 ((Config.freeWord (x.fr + 1)).toNat % 2 ^ 32))
  else match normParams s1 s2 n t eps rms with
    | some (mu, some r) => (x, .fin mu, r)
    | some (mu, none) => ({ x with fr := x.fr + 1 }, .fin mu, ieeeDecode .fp32 ((Config.freeWord x.fr).toNat % 2 ^ 32))
    | none => (x, .nan, .nan)

/-- R128: add the written values of a row, and their squares, into its two statistics slots. -/
def Run.addStats (x : Run) (addr arr : Nat) (ys : List Num) : Run :=
  let (x, s1) := x.readSlot addr
  let (x, s2) := x.readSlot (addr + 16)
  let t1 := ys.foldl Acc.addNum s1
  let t2 := ys.foldl (fun a y => a.addNum (match y with | .inf _ => .inf false | y => y.mul y)) s2
  (((x.lostCheck s1 t1).lostCheck s2 t2).writeSlot addr t1 arr).writeSlot (addr + 16) t2 arr

/-! ### Prologues (R123, R124) -/

/-- R124 modes 1 and 4 on one element. -/
def proElem (d : Nat) (e : Elem) : Elem :=
  match bits d 19 16, e with
  | 1, .fin a => if a < 0 then .fin 0 else .fin a
  | 1, .inf true => .fin 0
  | 4, .fin a => decodeElem .e4m3 (bits d (135 + 8 * wrapInt 4 a) (128 + 8 * wrapInt 4 a))
  | _, e => e

/-- R124 modes 2 and 3: the FP32 value that one operand element becomes. -/
def proFp32 (d : Nat) (v mu r gamma beta : Num) : Nat :=
  if bits d 19 16 = 2 then silu32 v.fp32
  else ((((v.add mu.neg).mul r).mul gamma).add beta).fp32

/-- The element format that a prologue produces, for an operand format (R124). -/
def proFmt (d : Nat) : EFmt := (EFmt.ofCode (bits d 23 20)).getD .e4m3

/-- R124: the prologue on the block that enters tile K-block j of chain row ρ, given μ and r in mode 3. -/
def Run.proBlock (x : Run) (d j : Nat) (mu r : Num) (b : DBlk) : Run × DBlk :=
  let m := bits d 19 16
  if m = 1 then (x, { b with elems := b.elems.map (proElem d) })
  else if m = 4 then (x, { b with L := 9, elems := b.elems.map (proElem d) })
  else
    let c := x.c
    let t := c.scaleRat (bits d 29 25)
    let fpAt := fun (a : Nat) => ieeeDecode .fp32 (leNat (c.rdLm a 4))
    let ga := c.la (bits d 168 145)
    let be := c.la (bits d 192 169)
    let gs := b.nums.mapIdx fun i v =>
      let k := 32 * j + i
      let v := v.mulRat t
      if m = 2 then proFp32 d v mu r (.fin 0) (.fin 0)
      else proFp32 d v mu r (fpAt (ga + 4 * k)) (fpAt (be + 4 * k))
    let f := proFmt d
    let q := quantiseBlock f (c.gn (bits d 34 30) % 2 ^ 32) ⟨.rne, 0, 0, 0⟩ gs
    let cs := bits d 42 35
    let x := ((x.count cs .amax (amaxOf (gs.map (ieeeDecode .fp32 ·)))).count cs .sat q.sat).count cs .nan q.nan
    (x, decodeBlock f q.scale q.codes)

/-- μ and r of a mode 3 prologue for chain row ρ (R129). -/
def Run.proNorm (x : Run) (d rho : Nat) : Run × Num × Num :=
  if bits d 19 16 = 3 then
    x.norm (slotAddr (bits d 144 128 + 2 * rho)) (bits d 127 96) (x.c.gn (bits d 29 25) % 2 ^ 32)
      (bits d 95 64) (flag d 24)
  else (x, .fin 0, .fin 0)

/-- The local ranges of a mode 3 prologue over the k reduction indices of the pass, and the slots of the given chain rows
(R85, R124). -/
def proRngs (c : CoreSite) (d k : Nat) (rows : List Nat) : List Rng × List Rng :=
  if bits d 19 16 = 3 then
    ([⟨c.la (bits d 168 145), 4 * k⟩, ⟨c.la (bits d 192 169), 4 * k⟩],
     rows.map fun r => ⟨slotAddr (bits d 144 128 + 2 * r), 32⟩)
  else ([], [])

/-- The tensor scales that a prologue uses are valid (R28, R121). -/
def proScalesOk (c : CoreSite) (d : Nat) : Bool :=
  (bits d 19 16 != 2 && bits d 19 16 != 3) || ((c.scale (bits d 29 25)).isSome && (c.scale (bits d 34 30)).isSome)

/-! ### Epilogues (R125, R126, R130) -/

/-- The output row specification of an epilogue descriptor for row ρ (R126 step 7). -/
def epiSpec (c : CoreSite) (d rho : Nat) : OutSpec :=
  { fmt := OFmt.ofCode (bits d 19 16)
    draw := ⟨rndOf (bits d 21 20), c.gn (bits d 45 41), c.tid (bits d 50 46),
      c.gn (bits d 55 51) + rho * bits d 287 256⟩
    cset := c.cset (bits d 50 46)
    tout := if 13 ≤ bits d 19 16 then 1 else c.scaleRat (bits d 60 56)
    tau := bits (c.gn (bits d 60 56)) 47 32
    fpEn := flag d 40 }

/-- The specification of an output with its epilogue disabled: FP32 in RNE with To = 1.0, in set 0xFF
(R106, R173). -/
def plainSpec : OutSpec := ⟨.ieee .fp32, ⟨.rne, 0, 0, 0⟩, strayset, 1, 0, false⟩

/-- R126 step 5. -/
def actFn (act sh : Nat) (v : Num) : Num :=
  match act with
  | 1 => if v.lt (.fin 0) then .fin 0 else v
  | 2 => if v.lt (.fin 0) then v.mulRat (pow2 (-(sh : Int))) else v
  | 3 => ieeeDecode .fp32 (silu32 v.fp32)
  | 4 => ieeeDecode .fp32 (sigmoid32 v.fp32)
  | _ => v

/-- R126 step 6: the residual elements of row ρ, and the NaNs its decoding counts. -/
def residual (c : CoreSite) (d rho n : Nat) : List Num × Nat :=
  let base := c.la (bits d 175 152) + rho * bits d 191 176
  match OFmt.ofCode (bits d 36 33) with
  | .ieee f => ((List.range n).map (fun i => ieeeDecode f (leNat (c.rdLm (base + f.bytes * i) f.bytes))), 0)
  | .mx f =>
    let nb := ceilDiv n 32
    let row := readPlainRow f nb (c.rdLm base (rowBytes f nb))
    (((row.blks.flatMap (·.nums)).map (·.mulRat (c.scaleRat (bits d 329 325)))).take n, row.nans.sum)
  | .tagged => ([], 0)

/-- Bytes of a residual row. -/
def residualSize (d n : Nat) : Nat := (OFmt.ofCode (bits d 36 33)).size n

/-- An accumulator read back as a value: A × 2^-300 × Ta × Tw (R50). -/
def accValue (a : Acc) (ta tw : Rat) : Num := a.num.mulRat (ta * tw)

/-- R44: count the range-lost accumulators of a row in a set. -/
def Run.countLost (x : Run) (set : Nat) (accs : List Acc) : Run := x.count set .rangeLost (accs.countP Acc.lost)

/-- R126 steps 1 to 6 and R130, for one row of accumulators. A malformed cell of column sums reads as NaN and makes no
report. DESIGN CHOICE, log entry 57. -/
def Run.epiValues (x : Run) (d rho : Nat) (accs : List Acc) (ta tw : Rat) : Run × List Num :=
  let c := x.c
  let n := accs.length
  let (x, mu, r) := if flag d 38 then
      x.norm (slotAddr (bits d 225 209 + 2 * rho)) (bits d 319 288) (c.gn (bits d 324 320) % 2 ^ 32)
        (bits d 127 96) (flag d 39)
    else (x, .fin 0, .fin 0)
  let bias := fun (i : Nat) => ieeeDecode .fp32 (leNat (c.rdLm (c.la (bits d 151 128) + 4 * i) 4))
  let colsum := fun (i : Nat) => (Acc.zero.merge (c.rdLm (c.la (bits d 249 226) + 96 * i) 96)).num
  let (res, nans) := if flag d 32 then residual c d rho n else ([], 0)
  let vs := accs.mapIdx fun i a =>
    let v := accValue a ta tw
    let v := if flag d 38 then r.mul (v.add (mu.mul ((colsum i).mulRat tw)).neg) else v
    let v := if flag d 30 then (ieeeDecode .fp32 (bits d 95 64)).mul v else v
    let v := if flag d 31 then v.add (bias i) else v
    let v := actFn (bits d 24 22) (bits d 29 25) v
    if flag d 32 then v.add (res.getD i .nan) else v
  (x.count (c.cset (bits d 50 46)) .nan nans, vs)

/-- An epilogue row: its exact values rounded and written at `addr`, its statistics added (R126, R128). -/
def Run.epiRow (x : Run) (d rho : Nat) (accs : List Acc) (ta tw : Rat) (addr arr : Nat) : Run :=
  let o := epiSpec x.c d rho
  let x := x.countLost o.cset accs
  let (x, vs) := x.epiValues d rho accs ta tw
  let (x, row) := x.outRow o vs
  let x := x.setC (x.c.wrLm addr row.bytes)
  if flag d 37 then x.addStats (slotAddr (bits d 208 192 + 2 * rho)) arr row.vals else x

/-- R106: an output row without an epilogue. -/
def Run.plainRow (x : Run) (accs : List Acc) (ta tw : Rat) (addr : Nat) : Run :=
  let x := x.countLost strayset accs
  let (x, row) := x.outRow plainSpec (accs.map (accValue · ta tw))
  x.setC (x.c.wrLm addr row.bytes)

/-! ### The gated chain (R143) -/

def gateSpec (c : CoreSite) (d rho : Nat) : OutSpec :=
  { fmt := OFmt.ofCode (bits d 19 16)
    draw := ⟨rndOf (bits d 21 20), c.gn (bits d 29 25), c.tid (bits d 34 30),
      c.gn (bits d 39 35) + rho * bits d 95 64⟩
    cset := c.cset (bits d 34 30)
    tout := c.scaleRat (bits d 44 40)
    tau := bits (c.gn (bits d 44 40)) 47 32
    fpEn := false }

/-- R143: h_j = ACT(round(Vg)) × Vu for the column pairs of a row. -/
def gateValues (act : Nat) (ta tw : Rat) : List Acc → List Num
  | g :: u :: r => (actFn act 0 (ieeeDecode .fp32 (accValue g ta tw).fp32)).mul (accValue u ta tw) ::
      gateValues act ta tw r
  | _ => []

def Run.gateRow (x : Run) (d rho : Nat) (accs : List Acc) (ta tw : Rat) (addr : Nat) : Run :=
  let o := gateSpec x.c d rho
  let x := x.countLost o.cset accs
  let (x, row) := x.outRow o (gateValues (bits d 24 22) ta tw accs)
  x.setC (x.c.wrLm addr row.bytes)

/-! ### The attention chain (R132 to R138) -/

def chainCset (c : CoreSite) (d : Nat) : Nat := c.cset (bits d 39 35)
def chainFmt (d : Nat) : EFmt := (EFmt.ofCode (bits d 19 16)).getD .e4m3

/-- R133: the scores of a row, each rounded once, with whether the element is masked. -/
def chainScores (c : CoreSite) (d rho : Nat) (accs : List Acc) (ta tw : Rat) : List (Cnted × Bool) :=
  let q := c.gn (bits d 59 55) + rho
  let off := sext 16 (bits d 80 65)
  accs.mapIdx fun n a =>
    let s := roundNum (accValue a ta tw) .fp32 .rne 0
    let key := c.gn (bits d 64 60) + n
    (s, decide ((bits d 22 21 = 1 ∧ (q : Int) + off < key) ∨ s.code = 0xFF800000))

/-- A score that contributes nothing and sets NAN in the row state (R133). -/
def badScore (s : Cnted) : Bool := s.code == 0x7F800000 || isNan32 s.code

/-- A P block's scores once NaN and +infinity are taken out. -/
def liveScores (b : List (Cnted × Bool)) : List (Option Nat) :=
  b.map fun s => if s.2 || badScore s.1 then none else some s.1.code

/-- R133: a P block is live when it holds an unmasked element. -/
def liveBlock (b : List (Cnted × Bool)) : Bool := b.any fun s => !s.2

/-- The row state of R137, 64 bits. -/
structure RowState where
  anchor : Int
  low    : Int
  valid  : Bool
  nan    : Bool
  mid    : Nat
  drops  : Nat
  deriving DecidableEq, Repr

def RowState.ofNat (w : Nat) : RowState :=
  ⟨sext 16 (bits w 15 0), sext 16 (bits w 31 16), flag w 32, flag w 33, bits w 47 34, bits w 63 48⟩

def RowState.toNat (r : RowState) : Nat :=
  wrapInt 16 r.anchor + wrapInt 16 r.low * 2 ^ 16 + (if r.valid then 2 ^ 32 else 0) +
    (if r.nan then 2 ^ 33 else 0) + r.mid * 2 ^ 34 + r.drops * 2 ^ 48

/-- R138: shift a slot arithmetically right, toward minus infinity. -/
def Run.shiftSlot (x : Run) (addr dd arr : Nat) : Run :=
  let (x, a) := x.readSlot addr
  let v := a.a / ((2 ^ dd : Nat) : Int)
  x.writeSlot addr { a with a := v, res := resOf v (-300) } arr

/-- R135: add the sum of a block's fixed-point elements into the denominator slot. -/
def Run.addDen (x : Run) (addr arr : Nat) (s : Int) (p : Nat) : Run :=
  let (x, a) := x.readSlot addr
  let t := a.addAt s p
  (x.lostCheck a t).writeSlot addr t arr

/-- The state that the blocks of one score row pass on: the run, the row state, the P blocks written, and whether a
block lay above the bound anchor (R136). -/
structure ScoreAcc where
  x   : Run
  rs  : RowState
  out : List Blk
  high : Bool := false
  deriving DecidableEq, Repr

/-- The empty P block: zero codes under scale code 0x00. -/
def zeroBlk : Blk := ⟨0, List.replicate 32 0, 0, 0⟩

/-- A P block of free bytes: the spec states none for a block above the bound anchor.
DESIGN CHOICE, log entry 6. -/
def freeBlk (fr : Nat) : Blk :=
  ⟨(Config.freeByte fr).toNat, (List.range 32).map fun i => (Config.freeByte (fr + 1 + i)).toNat, 0, 0⟩

/-- R133 to R138: one P block of accumulators and their scores, in either anchor mode. A block that is not live counts
nothing; in a live one the rounding of every score counts, masked or not. DEDUCED, log entry 13. -/
def ScoreAcc.block (t : ScoreAcc) (d den arr : Nat) (p : List Acc × List (Cnted × Bool)) : ScoreAcc :=
  let cset := chainCset t.x.c d
  let f := chainFmt d
  let run := flag d 20
  let b := p.2
  if !liveBlock b then { t with out := t.out ++ [zeroBlk] } else
  let x := ((t.x.countLost cset p.1).count cset .sat ((b.map (·.1.sat)).sum)).count cset .nan ((b.map (·.1.nan)).sum)
  let rs := { t.rs with nan := t.rs.nan || b.any fun s => !s.2 && badScore s.1 }
  let live := liveScores b
  if live.all (·.isNone) then { t with x := x, rs := rs, out := t.out ++ [zeroBlk] } else
  let (ib, codes) := pCodes f live
  let xb := ib - rs.anchor - (f.row.emax - 1)
  if xb < -127 then
    if run then
      { t with x := (x.count cset .runDrops 1).bump R.CORE.CHAIN_EVENTS.RUN_DROPS 1,
               rs := { rs with drops := satAdd 65535 rs.drops 1 }, out := t.out ++ [zeroBlk] }
    else { t with x := (x.count cset .boundDrops 1).bump R.CORE.CHAIN_EVENTS.BOUND_DROPS 1, rs := rs,
                  out := t.out ++ [zeroBlk] }
  else if 127 < xb then
    ⟨{ ((x.count cset .overruns 1).bump R.CORE.CHAIN_ROWS.OVERRUNS 1) with fr := x.fr + 33 },
     { rs with nan := true }, t.out ++ [freeBlk x.fr], true⟩
  else
    let s := (codes.map fun c => match decodeElem f c with | .fin a => a | _ => 0).sum
    let x := x.addDen den arr s (xb - f.L + 300).toNat
    { t with x := x, rs := if run then { rs with low := min rs.low ib } else rs,
             out := t.out ++ [⟨(xb + 127).toNat, codes, 0, 0⟩] }

/-- R138: the anchor of a running-anchored row before its blocks. A maximum outside the 16 bits of ANCHOR
has no stated form there, and a free one is taken. -/
def ScoreAcc.anchor (t : ScoreAcc) (d rho arr : Nat) (bl : List (List (Cnted × Bool))) : ScoreAcc :=
  let f := chainFmt d
  let lives := (bl.map liveScores).filter fun b => b.any (·.isSome)
  if lives.isEmpty then t else
  let m0 := maxInt (lives.map fun b => (pCodes f b).1)
  let inRange := decide (-32768 ≤ m0) && decide (m0 ≤ 32767)
  let m := if inRange then m0 else sext 16 ((Config.freeWord t.x.fr).toNat)
  let t := if inRange then t else { t with x := { t.x with fr := t.x.fr + 1 } }
  if !t.rs.valid then { t with rs := { t.rs with anchor := m, low := m, valid := true } }
  else if t.rs.anchor < m then
    let dd := (m - t.rs.anchor).toNat
    let ncol := bits d 216 210 + 1
    let num := slotAddr (bits d 144 128 + 128 * rho)
    let x := (List.range ncol).foldl (fun x i => x.shiftSlot (num + 16 * i) dd arr) t.x
    let x := x.shiftSlot (slotAddr (bits d 161 145 + rho)) dd arr
    let rs := { t.rs with anchor := m }
    if rs.low - m - (f.row.emax - 1) < -127 then
      { t with x := (x.count (chainCset x.c d) .runDrops 1).bump R.CORE.CHAIN_EVENTS.RUN_DROPS 1,
               rs := { rs with drops := satAdd 65535 rs.drops 1 } }
    else { t with x := x, rs := rs }
  else t

/-- The slot index of a chain row's numerators (R132). -/
def numSlot (d rho : Nat) : Nat := bits d 144 128 + 128 * rho

/-- Note a member of a list of places, or its absence. -/
def note (l : List Nat) (k : Nat) (on : Bool) : List Nat := if on then k :: l.filter (· != k) else l.filter (· != k)

/-- R139: a score row of a running-anchored chain whose last P tile no MM has multiplied by V yet. The results of the row
are undefined: its P row, its numerators and its denominator become free, and NAN is set in its row state, whose other
fields become free (R137). DESIGN CHOICE, log entry 6; DEDUCED, log entry 13. -/
def Run.undefinedRow (x : Run) (d rho addr size : Nat) : Run :=
  let st := x.c.la (bits d 185 162) + 8 * rho
  let w := (Config.freeWord x.fr).toNat
  let x := ({ x with fr := x.fr + 1 } : Run).setC (x.c.wrLm st (natLE 8 (w ||| 2 ^ 33)))
  x.freeAll [⟨slotAddr (numSlot d rho), 16 * (bits d 216 210 + 1)⟩, ⟨slotAddr (bits d 161 145 + rho), 16⟩, ⟨addr, size⟩]

/-- R132 to R139: a score row: its P row written at `addr`, the row state and the denominator updated.
DEDUCED, log entry 13. -/
def Run.scoreRow (x : Run) (d rho : Nat) (accs : List Acc) (ta tw : Rat) (addr arr : Nat) : Run :=
  let c := x.c
  let scores := chainScores c d rho accs ta tw
  let bl := chunks 32 (accs.length / 32) scores
  let stAddr := c.la (bits d 185 162) + 8 * rho
  let rs := RowState.ofNat (leNat (c.rdLm stAddr 8))
  let bound := sext 16 (leNat (c.rdLm (c.la (bits d 209 186) + 2 * rho) 2))
  let t : ScoreAcc := if flag d 20 then ScoreAcc.anchor { x := x, rs := rs, out := [] } d rho arr bl
    else { x := x, rs := { rs with anchor := bound }, out := [] }
  let den := slotAddr (bits d 161 145 + rho)
  let t := ((chunks 32 (accs.length / 32) accs).zip bl).foldl (fun t b => t.block d den arr b) t
  let rs' := if flag d 20 then t.rs else { t.rs with anchor := rs.anchor }
  let row := writePlainRow (chainFmt d) t.out
  let ovs := note c.overs stAddr (rs'.nan && (t.high || (rs.nan && c.overs.contains stAddr)))
  let late := flag d 20 && rs.valid && c.pv.contains (numSlot d rho)
  let y := t.x.setC { (t.x.c.wrLm stAddr (natLE 8 rs'.toNat)).wrLm addr row with
    overs := ovs, pv := if flag d 20 then note c.pv (numSlot d rho) true else c.pv }
  if late then y.undefinedRow d rho addr row.length else y

/-! ### What an output row does, by descriptor kind (R106, R120) -/

/-- The pitch of one output row of n outputs (R106). -/
def outPitch (epi : Option Nat) (n : Nat) : Nat :=
  match epi with
  | none => 4 * n
  | some d => match dKind d with
    | 3 => rowPitch (chainFmt d) (ceilDiv n 32)
    | 4 => (OFmt.ofCode (bits d 19 16)).pitch (n / 2)
    | _ => (OFmt.ofCode (bits d 19 16)).pitch n

/-- The bytes that one output row of n outputs writes. -/
def outSize (epi : Option Nat) (n : Nat) : Nat :=
  match epi with
  | none => 4 * n
  | some d => match dKind d with
    | 3 => rowBytes (chainFmt d) (ceilDiv n 32)
    | 4 => (OFmt.ofCode (bits d 19 16)).size (n / 2)
    | _ => (OFmt.ofCode (bits d 19 16)).size n

/-- Local ranges read, and slots touched, by the output of row ρ with n outputs. DEDUCED, log entry 11. -/
def outRngs (c : CoreSite) (epi : Option Nat) (rho n : Nat) : List Rng × List Rng × List Rng :=
  match epi with
  | none => ([], [], [])
  | some d => match dKind d with
    | 2 =>
      ((if flag d 31 then [⟨c.la (bits d 151 128), 4 * n⟩] else []) ++
       (if flag d 32 then [⟨c.la (bits d 175 152) + rho * bits d 191 176, residualSize d n⟩] else []) ++
       (if flag d 38 then [⟨c.la (bits d 249 226), 96 * n⟩] else []), [],
       (if flag d 37 then [⟨slotAddr (bits d 208 192 + 2 * rho), 32⟩] else []) ++
       (if flag d 38 then [⟨slotAddr (bits d 225 209 + 2 * rho), 32⟩] else []))
    | 3 =>
      (if flag d 20 then [] else [⟨c.la (bits d 209 186) + 2 * rho, 2⟩],
       [⟨c.la (bits d 185 162) + 8 * rho, 8⟩],
       ⟨slotAddr (bits d 161 145 + rho), 16⟩ ::
       (if flag d 20 then [⟨slotAddr (bits d 144 128 + 128 * rho), 16 * (bits d 216 210 + 1)⟩] else []))
    | _ => ([], [], [])

/-- The tensor scales that an output uses are valid (R28, R121). -/
def outScalesOk (c : CoreSite) (epi : Option Nat) : Bool :=
  match epi with
  | none => true
  | some d => match dKind d with
    | 2 => (decide (13 ≤ bits d 19 16) || (c.scale (bits d 60 56)).isSome) &&
        (!flag d 32 || decide (13 ≤ bits d 36 33) || (c.scale (bits d 329 325)).isSome) &&
        (!flag d 38 || (c.scale (bits d 324 320)).isSome)
    | 4 => (c.scale (bits d 44 40)).isSome
    | _ => true

/-- One output row of an MM or ACCRND. -/
def Run.emitRow (x : Run) (epi : Option Nat) (rho : Nat) (accs : List Acc) (ta tw : Rat) (addr arr : Nat) : Run :=
  match epi with
  | none => x.plainRow accs ta tw addr
  | some d => match dKind d with
    | 3 => x.scoreRow d rho accs ta tw addr arr
    | 4 => x.gateRow d rho accs ta tw addr
    | _ => x.epiRow d rho accs ta tw addr arr

/-- The descriptor that an enabled 4-bit field names, when loaded: `none` is the illegal case (R94). -/
def namedDesc (c : CoreSite) (field : Nat) : Option (Option Nat) :=
  if flag field 3 then
    if c.desc (field % 8) = 0 then none else some (some (c.desc (field % 8)))
  else some none

/-- The descriptor registers that a field names, for the interlock of R90. -/
def descName (field : Nat) : List Nat := if flag field 3 then [field % 8] else []

/-! ### The final division (R141, R142) -/

/-- The output row specification of a chain (R141). -/
def chainSpec (c : CoreSite) (d rho : Nat) : OutSpec :=
  { fmt := OFmt.ofCode (bits d 27 24)
    draw := ⟨rndOf (bits d 29 28), c.gn (bits d 34 30), c.tid (bits d 39 35),
      c.gn (bits d 44 40) + rho * bits d 287 256⟩
    cset := chainCset c d
    tout := 1
    tau := bits (c.gn (bits d 49 45)) 47 32
    fpEn := false }

/-- The To of a chain's output: 1.0 for the IEEE formats (R141). -/
def chainTo (c : CoreSite) (d : Nat) : Nat := if 13 ≤ bits d 27 24 then one32 else c.gn (bits d 49 45) % 2 ^ 32

/-- R142: the output value of one column. -/
def finValue (rowNan zeroRow : Bool) (num den : Acc) (tv tq : Nat) : Num :=
  if rowNan || num.nan || den.nan || num.lost || den.lost then .nan
  else if num.pinf && num.ninf then .nan
  else if num.pinf then .inf false
  else if num.ninf then .inf true
  else if den.a = 0 then (if zeroRow then .fin 0 else .nan)
  else .fin (chainValue num.a den.a tv tq)

/-- R141, R142: one row of CHFIN. The counter set counts one overrun where the row state's NAN was set under R136; the
AMAX values are the outputs before the division by To (R185). DEDUCED, log entry 13. -/
def Run.finRow (x : Run) (d rho num den addr : Nat) (accOff : Bool) : Run :=
  let c := x.c
  let (x, dn) := x.readSlot den
  let (x, ns) := x.readSlots num 128
  let arr := c.slotArray num
  let x := x.accCheck accOff arr rho 0 dn
  let x := (ns.foldl (fun (t : Run × Nat) a => (t.1.accCheck accOff arr rho t.2 a, t.2 + 1)) (x, 0)).1
  let st := c.la (bits d 185 162) + 8 * rho
  let rs := RowState.ofNat (leNat (c.rdLm st 8))
  let o := chainSpec c d rho
  let x := x.count o.cset .rangeLost (ns.countP fun a => a.lost || dn.lost)
  let tq := chainTo c d
  let vals := ns.map fun a => (finValue rs.nan (flag d 23) a dn (c.gn (bits d 54 50) % 2 ^ 32) tq).mulRat (fp32Rat tq)
  let x := if rs.nan && c.overs.contains st then x.count o.cset .overruns 1 else x
  let x := if dn.a = 0 && !rs.nan && !dn.nan && !dn.lost then
      (x.count o.cset .zeroRows 1).bump R.CORE.CHAIN_ROWS.ZERO_ROWS 1 else x
  let (x, row) := x.outRow { o with tout := fp32Rat tq } vals
  let x := x.setC { x.c.wrLm addr row.bytes with pv := note x.c.pv (num / 16) false }
  (x.releaseSlots num 128).releaseSlot den

end Sys2Proof.Machine
end

