-- ==== Sys2Proof/Machine/Timing.lean ====
section
/-! DEFINITION. The cycle counts that the spec fixes for a core (R64, R67 to R70, R117, R421): functions of
the operands. The model's steps carry no clock cycles; ISSUE_CYC counts the cycles of R64. -/

namespace Sys2Proof.Machine

/-- R64: the cycles over which one activation row enters, c = S / q. -/
def rowCycles (act wgt : EFmt) : Nat := wgt.slots / EFmt.rate act wgt

/-- R69: the cycle in which column n receives its block sums, for a row entering at cycle t. -/
def columnCycle (t c n : Nat) : Nat := t + (c - 1) + 280 + n

/-- R70: the cycles between the swaps of consecutive passes. -/
def passInterval (g c : Nat) : Nat := max (g * c) 128 + 1

/-- R70: the cycle of the last rounded output of a product of p passes. -/
def productCycles (p g c : Nat) : Nat := (p - 1) * passInterval g c + g * c + 430

/-- R421: front and completion of MOVL, in cycles from its start; `b` is its total byte count. -/
def movlCycles (b : Nat) : Nat × Nat := ((b + 1023) / 1024, 2 + (b + 1023) / 1024)

/-- R421: front and completion of CHKEQ. -/
def chkeqCycles (b : Nat) : Nat × Nat := ((2 * b + 1023) / 1024, 2 + (2 * b + 1023) / 1024)

/-- R421: front and completion of ACCMRG and ACCPART of n slots. -/
def accmrgCycles (n : Nat) : Nat × Nat := (n, 80 + n)

/-- R421: front and completion of ACCRND of n slots. -/
def accrndCycles (n : Nat) : Nat × Nat := ((n + 127) / 128, 104 + (n + 127) / 128)

/-- R421: front and completion of ACCCLR of n slots. -/
def accclrCycles (n : Nat) : Nat × Nat := ((n + 127) / 128, 1 + (n + 127) / 128)

/-- R421: front and completion of CHFIN of g rows. -/
def chfinCycles (g : Nat) : Nat × Nat := (4 * g, 35 + 4 * g)

/-- R421: front and completion of QNT of n blocks of which e are escalated. -/
def qntCycles (n e : Nat) : Nat × Nat := (n + e, n + e + 12)

/-- R421: front of SMLD of `count` indices; it completes when it leaves the front. -/
def smldCycles (count : Nat) : Nat := 4 + (count + 7) / 8

/-- R88: the cycles CHSET occupies the sequencer for a descriptor of n bytes. -/
def chsetCycles (n : Nat) : Nat := 1 + ((n + 63) / 64 - 1)

end Sys2Proof.Machine
end

