-- ==== Sys2Proof/Machine/Array.lean ====
section
/-! DEFINITION. The weight unit and the arrays: WLD, WSWP and MM (R63 to R75, R104 to R108, R161 to R163,
R184), with the landing of a tile and the exchange of the planes (R67, R68). -/

namespace Sys2Proof.Machine

/-- The weight staging buffer and the activation buffer of array a (R85). -/
def stagingBase : Nat := 0x240000
def actBase (a : Nat) : Nat := 0x200000 + 0x10000 * a

/-! ### WLD and WSWP -/

/-- The operands of WLD (R104). -/
structure WldOps where
  sq   : Bool
  stg  : Nat
  sstg : Nat
  fmt  : EFmt
  ncol : Nat
  kblk : Nat
  tw   : Nat
  deriving DecidableEq, Repr

/-- Scale bytes of a tile (R63, R104). -/
def WldOps.nscale (o : WldOps) : Nat := if o.sq then ceilDiv o.ncol 32 * o.kblk else o.ncol * o.kblk

/-- Code bytes of a tile. -/
def WldOps.ncode (o : WldOps) : Nat := o.ncol * (o.kblk * o.fmt.blockBytes)

/-- WLD: [112] SQ, [111:96] STG, [95:80] SSTG, [79:76] WFMT, [75:69] NCOL−1, [68:65] KBLK−1, [64:60] GTW,
with the faults of R94, R104 and R184. -/
def wldOps (w : IWord) (c : CoreSite) : SeqFault ⊕ WldOps :=
  match EFmt.ofCode (wf w 79 76) with
  | none => .inl .illegal
  | some f =>
    let o : WldOps := ⟨wb w 112, stagingBase + wf w 111 96, stagingBase + wf w 95 80, f,
      wf w 75 69 + 1, wf w 68 65 + 1, c.gn (wf w 64 60) % 2 ^ 32⟩
    if 128 * f.slots < 32 * o.kblk then .inl .illegal
    else if !scaleOk o.tw then .inl .format
    else if rdOk o.stg o.ncode && rdOk o.sstg o.nscale then .inr o
    else .inl .illegal

/-- The K-block list bytes of R161 that lie within the staging buffer; only a matched pass uses them, and
those past the buffer are free. DEDUCED, log entry 15. -/
def WldOps.klistRng (o : WldOps) : Rng := ⟨o.sstg + 2048, min (2 * o.kblk) (0x250000 - (o.sstg + 2048))⟩

/-- The plane that a WLD's tile makes (R67, R104, R161). -/
def CoreSite.tile (c : CoreSite) (o : WldOps) (fr : Nat) : Plane :=
  { fmt := o.fmt, sq := o.sq, ncol := o.ncol, kblk := o.kblk, tw := o.tw,
    codes := c.rdLm o.stg o.ncode, scales := c.rdLm o.sstg o.nscale,
    klist := c.rdLm o.klistRng.lo o.klistRng.len ++ freeBytes fr (2 * o.kblk - o.klistRng.len) }

/-- WLD as an instruction of the weight unit: the tile's bytes are those of its issue; it lands with
WEIGHT_LOAD_COMPLETE. DESIGN CHOICE, log entry 6; DEDUCED, log entry 15. -/
def coreWld (w : IWord) (x : Run) : CoreRes :=
  match wldOps w x.c with
  | .inl k => .fault k x
  | .inr o =>
    x.issueWith { unit := .weight, opc := 0x30, pc := x.c.pc, ctr := completion w,
                  rd := [⟨o.stg, o.ncode⟩, ⟨o.sstg, o.nscale⟩] } false fun y =>
      if !y.c.room .weight then .stall else
      let f : Fly := { unit := .weight, opc := 0x30, pc := x.c.pc, ctr := completion w,
                       rd := [⟨o.stg, o.ncode⟩, ⟨o.sstg, o.nscale⟩], wop := some (.load (y.c.tile o y.fr)),
                       ready := false }
      .ok { y with c := { y.c.advance with fly := y.c.fly ++ [f], wldEver := true }, fr := y.fr + 2 * o.kblk }

/-- WSWP as an instruction of the weight unit (R68, R94). -/
def coreWswp (w : IWord) (x : Run) : CoreRes :=
  if !x.c.wldEver then .fault .illegal x
  else x.queue { unit := .weight, opc := 0x31, pc := x.c.pc, ctr := completion w, wop := some .swap,
                 ready := false } fun x => x.setC { x.c with wswpEver := true }

/-! #### Residues of a tile (R55) -/

/-- The weight block of column n at tile K-block j (R104). -/
def Plane.colBlock (p : Plane) (n j : Nat) : DBlk :=
  let b := p.fmt.blockBytes
  let cs := (unpackBlock p.fmt ((p.codes.drop ((n * p.kblk + j) * b)).take b)).1
  let s := if p.sq then p.scales.getD ((n / 32) * p.kblk + j) 0 else p.scales.getD (n * p.kblk + j) 0
  decodeBlock p.fmt s.toNat cs

/-- Every column of a tile, decoded. DEDUCED, log entry 11. -/
def Plane.columns (p : Plane) : List (List DBlk) :=
  (List.range p.ncol).map fun n => (List.range p.kblk).map fun j => p.colBlock n j

/-- The residues of a block's elements, each with its scale and 2^-L; a special value counts 0 (R54, R55).
DEDUCED, log entry 11. -/
def DBlk.residues (b : DBlk) : List Nat :=
  b.elems.map fun e => match e with
    | .fin a => resOf a (b.x - b.L)
    | _ => 0

/-- Σ a_i mod 8,191. -/
def resSum (l : List Nat) : Nat := l.sum % resMod

/-- R55, R67: the plane with the residue column, ρ_k for every reduction index of the tile, and the residue row, σ_n for
every column, that the load accumulates from the stream. -/
def Plane.filled (p : Plane) : Plane :=
  let rows := p.columns.map fun bs => bs.flatMap DBlk.residues
  { p with rho := (List.range (32 * p.kblk)).map fun k => resSum (rows.map (·.getD k 0)), sigma := rows.map resSum }

/-- The weight unit's next operation that has not taken place, as a place in the list of instructions in
flight. -/
def CoreSite.nextWop (c : CoreSite) : Option (Nat × WOp) :=
  (c.fly.zipIdx.find? fun p => p.1.wop.isSome).bind fun p => p.1.wop.map fun o => (p.2, o)

/-- The operation has taken place: its instruction may complete. -/
def CoreSite.wopDone (c : CoreSite) (i : Nat) : CoreSite :=
  { c with fly := c.fly.modify i fun f => { f with wop := none, ready := true } }

/-- R55, R67: the last column of the tile being loaded lands in the shadow planes, which must be free, and the residue
column and row are complete. -/
def CoreSite.landTile (c : CoreSite) : Option CoreSite :=
  match c.nextWop with
  | some (i, .load p) => if c.shdFull then none else some { c.wopDone i with shd := p.filled, shdFull := true }
  | _ => none

/-- R68, R90: the queued swap takes effect once its load is complete and every row of every
earlier-issued MM has entered. -/
def CoreSite.swapPlanes (c : CoreSite) : Option CoreSite :=
  match c.nextWop with
  | some (i, .swap) =>
    if (c.fly.take i).all (fun f => f.unit != .array || f.entered) then
      some { c.wopDone i with act := c.shd, shd := c.act, shdFull := false }
    else none
  | _ => none

/-- The planes (active, shadow) once every operation issued so far has taken place (R66, R90). -/
def CoreSite.planesDue (c : CoreSite) : Plane × Plane :=
  c.fly.foldl (fun p f => match f.wop with
    | some (.load t) => (p.1, t.filled)
    | some .swap => (p.2, p.1)
    | none => p) (c.act, c.shd)

/-! ### MM -/

/-- The operands of MM (R105, R106). -/
structure MmOps where
  axis  : Bool
  match_ : Bool
  first : Bool
  last  : Bool
  amask : Nat
  abuf  : Nat
  g     : Nat
  afmt  : AFmt
  slot  : Nat
  odst  : Nat
  pro   : Option Nat
  epi   : Option Nat
  gta   : Nat
  out   : Bool
  ent   : Option Nat
  names : List Nat
  tile  : Plane
  deriving DecidableEq, Repr

/-- Outputs, and slots, of one row (R66, R71, R106). -/
def MmOps.width (o : MmOps) : Nat := if o.axis then 128 * o.tile.fmt.slots else 128

/-- A matched pass in the ordinary reading (R162). -/
def MmOps.matched (o : MmOps) : Bool := o.match_ && !o.axis

/-- Blocks of an activation row (R105, R162); `cnt` is the COUNT of the last SMLD. -/
def MmOps.rowBlks (o : MmOps) (cnt : Nat) : Nat :=
  if o.axis then 4 else if o.match_ then cnt else o.tile.kblk

def MmOps.pitch (o : MmOps) (cnt : Nat) : Nat := o.afmt.pitch (o.rowBlks cnt)

/-- The arrays of AMASK. -/
def MmOps.arrays (o : MmOps) : List Nat := (List.range 4).filter fun a => flag o.amask a

/-- The chain rows of the pass: array and row (R122). -/
def MmOps.rows (o : MmOps) : List (Nat × Nat) :=
  o.arrays.flatMap fun a => (List.range o.g).map fun r => (a, r)

/-- The chain rows ρ = a × G + r of the pass (R122). -/
def MmOps.chainRows (o : MmOps) : List Nat := o.rows.map fun p => p.1 * o.g + p.2

/-- Whether the pass uses accumulator slots (R105). -/
def MmOps.slotted (o : MmOps) : Bool := !(o.first && o.last)

/-- The slot address of output 0 of row r of array a (R105). -/
def MmOps.slotAt (o : MmOps) (a r : Nat) : Nat := 16 * o.slot + (a * o.g + r) * (16 * o.width)

/-- The address at which chain row ρ is written (R106). -/
def MmOps.outAt (o : MmOps) (rho : Nat) : Nat :=
  o.odst + rho * (if o.out then 96 * o.width else outPitch o.epi o.width)

def MmOps.outBytes (o : MmOps) : Nat := if o.out then 96 * o.width else outSize o.epi o.width

/-- The operand blocks of a row within the pass: the tile's K-blocks, or 4 N-blocks in the transposed reading
(R105, R162). -/
def MmOps.feedBlks (o : MmOps) : Nat := if o.axis then 4 else o.tile.kblk

/-- The local ranges of the pass: reads, writes and slots. -/
def MmOps.rngs (o : MmOps) (c : CoreSite) : List Rng × List Rng × List Rng :=
  let cnt := c.mtCount
  let rd := o.arrays.map fun a => (⟨actBase a + o.abuf, o.g * o.pitch cnt⟩ : Rng)
  let (pr, ps) := match o.pro with
    | some d => proRngs c d (32 * o.feedBlks) o.chainRows
    | none => ([], [])
  let sl := if o.slotted then o.rows.map fun p => (⟨o.slotAt p.1 p.2, 16 * o.width⟩ : Rng) else []
  if o.last then
    let outs := o.rows.map fun p => (⟨o.outAt (p.1 * o.g + p.2), o.outBytes⟩ : Rng)
    let ex := if o.out then [] else o.rows.map fun p => outRngs c o.epi (p.1 * o.g + p.2) o.width
    (rd ++ pr ++ ex.flatMap (·.1), outs ++ ex.flatMap (·.2.1), sl ++ ps ++ ex.flatMap (·.2.2))
  else (rd ++ pr, [], sl ++ ps)

/-- R120: the descriptor kinds that MM.EPI allows. -/
def epiKindOk (d : Nat) (last out : Bool) : Bool :=
  dKind d == 2 || ((dKind d == 3 || dKind d == 4) && last && !out)

/-- R85, R94, R105, R106, R108, R120, R124, R184: MM decoded and checked at its issue. The register that GTA names is
checked under R28 also where a prologue of mode 2 or 3 puts GTN in its place, and a row of slots that lies wholly in a
local area beyond core memory is accepted. DEDUCED, log entry 15; DESIGN CHOICE, log entry 57. -/
def mmOps (w : IWord) (c : CoreSite) : SeqFault ⊕ MmOps :=
  match AFmt.ofCode (wf w 81 78), namedDesc c (wf w 36 33), namedDesc c (wf w 32 29) with
  | some af, some pro, some epi =>
    let o : MmOps :=
      { axis := wb w 112, match_ := wb w 113, first := wb w 114, last := wb w 115,
        amask := wf w 111 108, abuf := wf w 107 92, g := wf w 91 82 + 1, afmt := af,
        slot := wf w 77 61, odst := c.la (wf w 60 37), pro := pro, epi := epi, gta := wf w 28 24,
        out := wb w 23, ent := if wb w 22 then some (wf w 21 19) else none,
        names := descName (wf w 36 33) ++ descName (wf w 32 29), tile := c.planesDue.1 }
    let kinds := (match pro with
        | some d => dKind d == 1 && (bits d 19 16 != 4 || af == .plain .int4)
        | none => true) && (match epi with
        | some d => epiKindOk d o.last o.out
        | none => true)
    if !kinds || (af == .tagged && o.match_) || !c.wswpEver then .inl .illegal
    else if 0x10000 < o.abuf + o.g * o.pitch c.mtCount then .inl .illegal
    else if o.axis && !o.tile.sq then .inl .format
    else if (c.scale o.gta).isNone || !(match pro with | some d => proScalesOk c d | none => true) ||
        (o.last && !o.out && !outScalesOk c epi) then .inl .format
    else
      let (rd, wr, sl) := o.rngs c
      if rngsRd rd && rngsWr wr && rngsWr sl then .inr o else .inl .illegal
  | _, _, _ => .inl .illegal

/-- R26: the invalid ternary bytes of a tile. DEDUCED, log entry 11. -/
def Plane.badBytes (p : Plane) : Nat :=
  if p.fmt = .tern then
    ((List.range (p.ncol * p.kblk)).map fun i => (unpackTern ((p.codes.drop (7 * i)).take 7)).2).sum
  else 0

/-- R64: 32 missing weights of a tile act as zeros. -/
def zeroWeights (f : EFmt) : DBlk := ⟨-127, f.L, List.replicate 32 (.fin 0)⟩

/-- R64 to R66: the 32 weights of output m along N-block nb, under their square's scale; weights that the tile does not
hold are zero. DEDUCED, log entry 11. -/
def transBlock (p : Plane) (cols : List (List DBlk)) (m nb : Nat) : DBlk :=
  let s := (p.scales.getD (nb * p.kblk + m / 32) 0).toNat
  if p.kblk ≤ m / 32 then zeroWeights p.fmt else
  let es := (List.range 32).map fun i =>
    match cols[32 * nb + i]? with
    | some col => match col[m / 32]? with
      | some b => b.elems.getD (m % 32) (.fin 0)
      | none => .fin 0
    | none => .fin 0
  if 32 * nb < p.ncol then ⟨if s = 0xFF then 0 else (s : Int) - 127, p.fmt.L, es⟩
  else zeroWeights p.fmt

/-- R162: the table position that a tile K-block's list entry hits. -/
def CoreSite.hit (c : CoreSite) (idx : Nat) : Option Nat := (c.mt.find? fun e => e.1 == idx).map (·.2)

/-- The row block that feeds each tile K-block, `none` on a miss (R105, R162). -/
def MmOps.feeds (o : MmOps) (c : CoreSite) : List (Option Nat) :=
  if o.axis then (List.range 4).map some
  else if o.match_ then
    (List.range o.tile.kblk).map fun j => c.hit (leNat ((o.tile.klist.drop (2 * j)).take 2))
  else (List.range o.tile.kblk).map some

/-- One activation row as it enters its array: the operand block of each tile K-block. -/
structure RowOps where
  x      : Run
  blks   : List (Option DBlk)
  tagged : Bool
  deriving DecidableEq, Repr

/-- The prologue over the fed blocks of a row (R124). -/
def Run.proRow (x : Run) (pro : Option Nat) (mu r : Num) : Nat → List (Option DBlk) → Run × List (Option DBlk)
  | _, [] => (x, [])
  | j, b :: bs =>
    let (x, b') := match pro, b with
      | some d, some b => let (x, b) := x.proBlock d j mu r b; (x, some b)
      | _, b => (x, b)
    let (x, bs') := Run.proRow x pro mu r (j + 1) bs
    (x, b' :: bs')

/-- R105, R124, R162, R183: read row r of array a, decode the blocks it feeds and apply the prologue. -/
def Run.mmRow (x : Run) (o : MmOps) (feeds : List (Option Nat)) (a r : Nat) : RowOps :=
  let n := o.rowBlks x.c.mtCount
  let p := o.pitch x.c.mtCount
  let row := readRow o.afmt n (x.c.rdLm (actBase a + o.abuf + r * p) p)
  let need := (feeds.filterMap id).dedup
  let x := x.count strayset .nan ((need.map fun i => row.nans.getD i 0).sum)
  let bl := feeds.map fun f => f.bind fun i => row.blks[i]?
  let (x, mu, rr) := match o.pro with
    | some d => x.proNorm d (a * o.g + r)
    | none => (x, .fin 0, .fin 0)
  let (x, bl) := x.proRow o.pro mu rr 0 bl
  ⟨x, bl, need.any fun i => row.tags.getD i false⟩

/-- The products of one row with one output: the block sums of the pairs that enter (R40 to R45). -/
def rowAcc (flip : Bool) : List (Option DBlk) → List DBlk → Acc
  | some b :: bs, w :: ws => go flip Acc.zero (some b :: bs) (w :: ws)
  | bs, ws => go flip Acc.zero bs ws
where
  go (flip : Bool) (acc : Acc) : List (Option DBlk) → List DBlk → Acc
    | some b :: bs, w :: ws => go false (acc.addPair b w flip) bs ws
    | none :: bs, _ :: ws => go flip acc bs ws
    | _, _ => acc

/-- R55: the residue of every block sum a row's outputs received, at its position. DEDUCED, log entry 11. -/
def passResidue (accs : List Acc) : Nat := (accs.map (·.res)).sum % resMod

/-- R55: the residue column's Σ_k res(x_k) × ρ_k over the blocks that feed the row; the residue row's
Σ_n res(x_n) × σ_n in the transposed reading. -/
def Plane.expected (p : Plane) (axis : Bool) (xs : List (Option DBlk)) : Nat :=
  let r := if axis then p.sigma else p.rho
  resSum (xs.zipIdx.map fun b => match b.1 with
    | some b' => (b'.residues.zipIdx.map fun e => e.1 * r.getD (32 * b.2 + e.2) 0).sum
    | none => 0)

/-- Merge the sums of a pass into an accumulator (R43 to R45, R56). -/
def Acc.plus (c d : Acc) : Acc :=
  { a := wrap640 (c.a + d.a), cnt := satAdd cntTop c.cnt d.cnt, nan := c.nan || d.nan,
    pinf := c.pinf || d.pinf, ninf := c.ninf || d.ninf, res := (c.res + d.res) % resMod }

/-- The physical array that runs the work of array a, rotated during a residue replay (R306). -/
def CoreSite.phys (c : CoreSite) (a : Nat) : Nat := if c.rot then (a + 3) % 4 else a

/-- CORE.RES_CTL as the pass sees it: PASS_CHK_OFF, ACC_CHK_OFF and the array of an armed injection. -/
structure ResCtl where
  passOff : Bool
  accOff  : Bool
  inj     : Option Nat
  deriving DecidableEq, Repr

/-- Read the slots of a row, or zero with FIRST (R105). -/
def Run.mmBase (x : Run) (o : MmOps) (a r : Nat) : Run × List Acc :=
  if o.first then (x, List.replicate o.width {}) else x.readSlots (o.slotAt a r) o.width

/-- Count the accumulators of a row that became range-lost. -/
def Run.lostRow (x : Run) (olds news : List Acc) : Run :=
  (olds.zip news).foldl (fun x p => x.lostCheck p.1 p.2) x

/-- Write back the accumulators of a row (R71, R73, R105). -/
def Run.mmStore (x : Run) (o : MmOps) (a r : Nat) (accs : List Acc) : Run :=
  let x := if o.first then x.releaseSlots (o.slotAt a r) o.width else x
  (accs.foldl (fun (t : Run × Nat) acc =>
    (t.1.writeSlot (o.slotAt a r + 16 * t.2) acc (x.c.phys a), t.2 + 1)) (x, 0)).1

/-- The last pass: check, then cells or rounded outputs, then release (R56, R71, R106). -/
def Run.mmLast (x : Run) (o : MmOps) (a r : Nat) (accs : List Acc) (ta tw : Rat) (accOff : Bool) : Run :=
  let rho := a * o.g + r
  let arr := x.c.phys a
  let x := (accs.foldl (fun (t : Run × Nat) c => (t.1.accCheck accOff arr rho t.2 c, t.2 + 1)) (x, 0)).1
  let x := if o.out then x.setC (x.c.wrLm (o.outAt rho) (accs.flatMap Acc.toCell))
    else x.emitRow o.epi rho accs ta tw (o.outAt rho) arr
  if o.slotted then x.releaseSlots (o.slotAt a r) o.width else x

/-- One row of a pass, with the check of R55. -/
def Run.mmOne (x : Run) (o : MmOps) (rc : ResCtl) (feeds : List (Option Nat)) (outs : List (List DBlk))
    (a r : Nat) : Run :=
  if x.cap then x else
  let ro := x.mmRow o feeds a r
  let flip := r == 0 && rc.inj == some (ro.x.c.phys a)
  let sums := outs.mapIdx fun i ws => rowAcc (flip && i == 0) ro.blks ws
  let x := ro.x
  let want := o.tile.expected o.axis ro.blks
  let x := if want != passResidue sums && !rc.passOff then
      x.residueBad true (x.c.phys a) (a * o.g + r) 0 want (passResidue sums) else x
  let (x, olds) := x.mmBase o a r
  let news := olds.mapIdx fun i c => c.plus (sums.getD i {})
  let x := x.lostRow olds news
  let ta := match o.pro with
    | some d => if bits d 19 16 = 2 ∨ bits d 19 16 = 3 then x.c.scaleRat (bits d 34 30) else x.c.scaleRat o.gta
    | none => x.c.scaleRat o.gta
  if o.last then x.mmLast o a r news ta (fp32Rat o.tile.tw) rc.accOff else x.mmStore o a r news

/-- R64, R184: the activation format that sets a row's cycles. -/
def rowFmt (af : AFmt) (pro : Option Nat) (tagged : Bool) : EFmt :=
  match af, pro with
  | .tagged, none => if tagged then .e4m3 else .e2m1
  | .tagged, some d => if bits d 19 16 = 2 ∨ bits d 19 16 = 3 then proFmt d else if tagged then .e4m3 else .e2m1
  | .plain f, none => f
  | .plain f, some d =>
    if bits d 19 16 = 2 ∨ bits d 19 16 = 3 then proFmt d else if bits d 19 16 = 4 then .e4m3 else f

/-- CORE.ISSUE_CYC: cycles in which at least one array took a row (R64, R81). -/
def MmOps.issueCycles (o : MmOps) (x : Run) (feeds : List (Option Nat)) : Nat :=
  if o.afmt = .tagged then
    let per := o.arrays.map fun a => ((List.range o.g).map fun r =>
      rowCycles (rowFmt o.afmt o.pro (x.mmRow o feeds a r).tagged) o.tile.fmt).sum
    per.foldl max 0
  else if o.arrays.isEmpty then 0 else o.g * rowCycles (rowFmt o.afmt o.pro false) o.tile.fmt

/-- The products of every output of a pass: the weight blocks of each (R66, R104), zeros beyond the tile (R64). -/
def MmOps.outputs (o : MmOps) : List (List DBlk) :=
  let cols := o.tile.columns
  if o.axis then (List.range o.width).map fun m =>
    (List.range 4).map fun nb => transBlock o.tile cols m nb
  else cols ++ List.replicate (128 - cols.length) (List.replicate o.tile.kblk (zeroWeights o.tile.fmt))

/-- R105, R106, R139, R162, R163: the effect of a pass on the core's storage. A pass into a row's numerator slots is the
MM that multiplies the row's P tile by V.
DEDUCED, log entry 9; DEDUCED, log entry 11. -/
def Run.mm (x : Run) (o : MmOps) (rc : ResCtl) : Run :=
  let feeds := o.feeds x.c
  let miss := feeds.countP Option.isNone
  let x := x.bump R.CORE.MATCH_STATS.MISS_KBLK miss
  let sl := if o.slotted then o.rows.map fun p => (⟨o.slotAt p.1 p.2, 16 * o.width⟩ : Rng) else []
  let pv := x.c.pv.filter fun n => !sl.any fun r => decide (r.lo ≤ slotAddr n) && decide (slotAddr n < r.lo + r.len)
  let x := x.setC { x.c with passes := x.c.passes + 1, pv := pv }
  if o.matched && miss == feeds.length then
    let x := x.bump R.CORE.MATCH_STATS.SKIP_PASSES 1
    o.rows.foldl (fun x p => x.mmOne o { rc with inj := none } [] [] p.1 p.2) x
  else
    let x := x.count strayset .nan o.tile.badBytes
    let x := x.bump R.CORE.ISSUE_CYC.CYCLES (o.issueCycles x feeds)
    o.rows.foldl (fun x p => x.mmOne o rc feeds o.outputs p.1 p.2) x

/-- R61: the pass takes an armed injection for one of its physical arrays. -/
def MmOps.injects (o : MmOps) (c : CoreSite) (rc : ResCtl) : Bool :=
  match rc.inj with
  | none => false
  | some i => (o.arrays.map c.phys).contains i && !(o.matched && (o.feeds c).all Option.isNone)

/-- MM as an instruction of the arrays. An accumulator-capacity fault stops the kernel at it (R75). -/
def coreMm (rc : ResCtl) (w : IWord) (x : Run) : CoreRes :=
  match mmOps w x.c with
  | .inl k => .fault k x
  | .inr o =>
    let (rd, wr, sl) := o.rngs x.c
    let f : Fly := { unit := .array, opc := 0x40, pc := x.c.pc, ctr := completion w, rd := rd, wr := wr,
                     slots := sl, descs := o.names, ent := o.ent, matched := o.match_ }
    x.issueWith f true fun y =>
      let z := (y.setC y.c.advance).mm o rc
      if z.cap then .fault .capacity { z with c := { z.c with pc := x.c.pc } } else .ok z

end Sys2Proof.Machine
end

