-- ==== Sys2Proof/Machine/Lull.lean ====
section
/-! DEFINITION. What a lull-test slice disturbs and how it yields (R308, R309). -/

namespace Sys2Proof.Machine

/-- The local space that a slice on an array disturbs: the last 4 KiB of its activation buffer and output
staging, and the last 17 KiB of the weight staging buffer. -/
def lullRanges (a : Nat) : List Rng :=
  [⟨actBase a + 0xF000, 0x1000⟩, ⟨0x260000 + 0x4000 * a + 0x3000, 0x1000⟩, ⟨stagingBase + 0xBC00, 0x4400⟩]

/-- The bytes a slice saves, V60 to V63 last. -/
def CoreSite.lullBytes (c : CoreSite) (a : Nat) : List Byte :=
  (lullRanges a).flatMap (fun r => c.rdLm r.lo r.len) ++ Tab.read 0 c.v (512 * 60) 2048

/-- Put bytes where a slice disturbs the site. -/
def CoreSite.putLull (c : CoreSite) (a : Nat) (bs : List Byte) : CoreSite :=
  let (c, rest) := (lullRanges a).foldl (fun (t : CoreSite × List Byte) r => (t.1.wrLm r.lo (t.2.take r.len), t.2.drop r.len)) (c, bs)
  { c with v := Tab.write 0 c.v (512 * 60) (rest.take 2048) }

/-- Where the slice of a cluster saves what it disturbs, in the reserved region of HBM (R309): 64 KiB for each cluster.
DESIGN CHOICE, log entry 36. -/
def lullArea (c : Nat) : Nat := resBase + Config.lullArea.val * 0x200000 + c * 0x10000

/-- The slice restores what it disturbed and yields. DEDUCED, log entry 36. -/
def State.yieldSlice (s : State) (site : Nat) : State :=
  match (s.core site).lull with
  | none => s
  | some l =>
    let s := s.modCore site fun c => { c.putLull l.array l.saved with lull := none }
    s.setF R.CL.LULL_STATUS.ACTIVE (clusterOf site) 0

end Sys2Proof.Machine
end

