-- ==== Sys2Proof/Machine/MoveUnit.lean ====
section
/-! DEFINITION. The issue of the move unit's instructions: MOVD, MOVL, MOVS, MOVR, SEND, TSIG and CHKEQ
(R85, R88, R90, R99 to R103). What each does when the unit reaches it is in Moves.lean. -/

namespace Sys2Proof.Machine

/-- Queue a move-unit instruction with the work it holds. -/
def Run.queueMove (x : Run) (w : IWord) (rd wr : List Rng) (op : MoveOp) : CoreRes :=
  if !(rngsRd rd && rngsWr wr) then .fault .illegal x
  else x.queue { unit := .move, opc := opcode w, pc := x.c.pc, ctr := completion w, rd := rd, wr := wr,
                 mv := some op, ready := false } id

/-- MOVD: [112] DIR, [111:88] LA, [87:83] GA, [82:78] GP, [77:66] ROWS−1, [65:50] BYTES−1, [49:30] DOFF
(R99). -/
def coreMovd (w : IWord) (x : Run) : CoreRes :=
  let la := x.c.la (wf w 111 88)
  let gp := x.c.gn (wf w 82 78)
  let dp := bits gp 31 0
  let lp := bits gp 63 32
  let rows := wf w 77 66 + 1
  let n := wf w 65 50 + 1
  let dev := (x.c.gn (wf w 87 83) : Int) + sext 20 (wf w 49 30)
  if dev % 8 ≠ 0 ∨ dp % 8 ≠ 0 ∨ n % 8 ≠ 0 ∨ la % 8 ≠ 0 ∨ lp % 8 ≠ 0 then .fault .illegal x else
  let rs := rowRngs la lp rows n
  if wb w 112 then x.queueMove w rs [] (.movd true la lp dev dp rows n)
  else x.queueMove w [] rs (.movd false la lp dev dp rows n)

/-- MOVL: [111:88] SRC, [87:64] DST, [63:48] BYTES−1, [47:36] ROWS−1, [35:18] SRC_PITCH, [17:0] DST_PITCH
(R99). -/
def coreMovl (w : IWord) (x : Run) : CoreRes :=
  let src := x.c.la (wf w 111 88)
  let dst := x.c.la (wf w 87 64)
  let n := wf w 63 48 + 1
  let rows := wf w 47 36 + 1
  let sp := wf w 35 18
  let dp := wf w 17 0
  if src % 8 ≠ 0 ∨ dst % 8 ≠ 0 ∨ n % 8 ≠ 0 ∨ sp % 8 ≠ 0 ∨ dp % 8 ≠ 0 then .fault .illegal x else
  x.queueMove w (rowRngs src sp rows n) (rowRngs dst dp rows n) (.movl src dst n rows sp dp)

/-- The bytes that LEN units of a move take: 16 bytes, or cells of 96 (R99, R100). -/
def lenBytes (pack : Bool) (len : Nat) : Nat := if pack then 96 * len else 16 * len

/-- MOVS: [112] PACK, [111:88] LA, [87:82] ROUTE, [81:62] LEN−1 (R99, R227). -/
def coreMovs (w : IWord) (x : Run) : CoreRes :=
  let la := x.c.la (wf w 111 88)
  let len := wf w 81 62 + 1
  let pack := wb w 112
  if la % 16 ≠ 0 then .fault .illegal x
  else x.queueMove w [⟨la, lenBytes pack len⟩] [] (.movs la (wf w 87 82) len pack)

/-- MOVR: [111:88] LA, [87:82] ROUTE, [81:62] LEN−1 (R99, R227). -/
def coreMovr (w : IWord) (x : Run) : CoreRes :=
  let la := x.c.la (wf w 111 88)
  let len := wf w 81 62 + 1
  if la % 16 ≠ 0 then .fault .illegal x
  else x.queueMove w [] [⟨la, 16 * len⟩] (.movr la (wf w 87 82) len)

/-- SEND: [112] PACK, [113] MC, [111:88] LA, [87:76] DEV, [75:66] WINDOW, [65:58] GEN, [57:53] GO,
[52:51] CLASS, [50:31] LEN−1 (R99, R101, R248). The targets of a group are filled in at issue. -/
def coreSend (w : IWord) (x : Run) : CoreRes :=
  let la := x.c.la (wf w 111 88)
  let len := wf w 50 31 + 1
  let pack := wb w 112
  if la % 16 ≠ 0 ∨ wf w 52 51 = 3 then .fault .illegal x
  else x.queueMove w [⟨la, lenBytes pack len⟩] []
    (.send la (wf w 87 76) (wf w 75 66) (wf w 65 58) (x.c.gn (wf w 57 53)) (wf w 52 51) len pack (if wb w 113 then some [] else none))

/-- TSIG: [111:104] TOKEN, [103:88] COUNT (R102). -/
def coreTsig (w : IWord) (x : Run) : CoreRes :=
  x.queueMove w [] [] (.tsig (wf w 111 104) (wf w 103 88))

/-- CHKEQ: [112] STOP, [111:88] LA1, [87:64] LA2, [63:48] BYTES−1 (R103). -/
def coreChkeq (w : IWord) (x : Run) : CoreRes :=
  let a := x.c.la (wf w 111 88)
  let b := x.c.la (wf w 87 64)
  let n := wf w 63 48 + 1
  x.queueMove w [⟨a, n⟩, ⟨b, n⟩] [] (.chkeq a b n (wb w 112))

end Sys2Proof.Machine
end

