-- ==== Sys2Proof/Machine/Moves.lean ====
section
/-! DEFINITION. What a move-unit instruction does when the unit reaches it (R90, R99 to R103, R216, R227,
R228, R302, R421), and the steps of a core's sequencer once its units are idle (R98, R116, R234, R299,
R300, R319). -/

namespace Sys2Proof.Machine

/-! ### Marks and drains -/

/-- The job partition's program and record of a site's kernel. -/
def State.jobOfSite (s : State) (site : Nat) : Option Job := (s.run site).bind fun r => s.job r.job

/-- The address of a core's mark record in bank b (R300): bank 1 follows the records of all logical cores.
DEDUCED, log entry 32. -/
def Job.markAddr (j : Job) (b lcore : Nat) : Option Nat :=
  j.prog.markArea.bind fun m => (j.bases[m.1]?).map fun base =>
    base + m.2 + b * (256 * 24 * j.prog.nclusters) + 256 * lcore

/-- A mark record of 256 bytes (R300). -/
def markRecord (id pc : Nat) (c : CoreSite) : List Byte :=
  natLE 2 id ++ natLE 2 pc ++ natLE 4 0 ++ (List.range 31).flatMap fun i => natLE 8 (c.gn (i + 1))

/-- The sequencer goes on with the instruction after the one it stood on. -/
def CoreSite.goOn (c : CoreSite) : CoreSite :=
  { c with st := .issuing, drain := .none, wait := .none, atMark := none, pc := nextPc c.pc }

/-- One more instruction counts as issued (R118). -/
def State.countInstr (s : State) (site : Nat) : State := s.addF R.CORE.INSTR_CNT.COUNT site 1

/-- Place code of a TMARK at `atMark`; RMARK stands under its MARK_ID. -/
def tmarkCode : Nat := 65536

/-- An entry of a site's ledger by its number (R302). -/
def State.ledgerAt (s : State) (site num : Nat) (send : Bool) : Option LedgerEnt :=
  (s.cluster (clusterOf site)).ledger.find? fun e => e.site == site && e.num == num && e.send == send

/-- Record, or renew, a ledger entry. -/
def State.setLedger (s : State) (e : LedgerEnt) : State :=
  s.modCluster (clusterOf e.site) fun c => { c with ledger :=
    (c.ledger.filter fun x => !(x.site == e.site && x.num == e.num && x.send == e.send)) ++ [e] }

/-- A TMARK has drained its units: it sends its mark. One that a replay repeats makes no second mark, so that
every window holds what it would without the fault: it completes with the mark made before (R116, R284, R302,
R323). DEDUCED, log entry 5. -/
def State.sendTmark (s : State) (site : Nat) : State :=
  let c := s.core site
  let t := s.setCore site { c with drain := .none, atMark := some tmarkCode, nTsig := c.nTsig + 1 }
  match s.ledgerAt site c.nTsig false with
  | none => (t.setLedger ⟨site, c.nTsig, false, .pending, 0, []⟩).modTally fun t => { t with incoming := t.incoming ++ [⟨some site⟩] }
  | some e =>
    if e.out = .pending then
      if s.tally.heldMark = some ⟨some site⟩ && s.getF R.TLY.HOLD.HELD 0 = 1 then t.modCore site fun c => { c with st := .held } else t
    else (t.modCore site CoreSite.goOn).countInstr site

/-- The units of a site are idle: the sequencer takes the step it drained for (R96, R98, R116, R319). Where its group is
to be replayed, or its job partition reset, END waits: no kernel ends over a fault that a check has found (R304, R305).
DEDUCED, log entry 10. -/
def State.afterDrain (s : State) (site : Nat) : State :=
  let c := s.core site
  if !c.fly.isEmpty then s else
  match c.drain with
  | .none => s
  | .fence => (s.setCore site c.goOn).countInstr site
  | .fin code =>
    if (s.cluster (clusterOf site)).want.isSome then s else
    let s := (s.setCore site { c with st := .idle, drain := .none }).countInstr site
    match s.run site with
    | none => s
    | some r => (s.complete site r 2 code 0).setRun site none
  | .tmark => s.sendTmark site
  | .rmark id =>
    let s := s.setCore site { c with drain := .none, atMark := some id }
    match s.run site, s.jobOfSite site with
    | some r, some j =>
      match j.markAddr (id % 2) r.lcore with
      | some a => s.memWrite (corePort site) a (markRecord id (nextPc c.pc) c)
      | none => s
    | _, _ => s
  | .fault _ => (s.setCore site { c with drain := .none }).groupStop (clusterOf site)

/-! ### The move unit -/

/-- Copy rows within local space (R99). Where source and destination rows overlap, the spec gives no order: each row is
read whole before it is written, in row order. DESIGN CHOICE, log entry 57. -/
def copyRows (c : CoreSite) (src dst n sp dp : Nat) : Nat → Nat → CoreSite
  | _, 0 => c
  | r, k + 1 => copyRows (c.wrLm (dst + r * dp) (c.rdLm (src + r * sp) n)) src dst n sp dp (r + 1) k

/-- R155: a MOVD row beside a sparse-engine command under way: the bytes it reads of the command's device outputs, and
those it writes of the command's device ranges, are undefined. DESIGN CHOICE, log entry 6; DEDUCED, log entry 7. -/
def State.besideEngine (s : State) (site : Nat) (out : Bool) (la a n : Nat) : State :=
  match (s.core site).spe with
  | none => s
  | some e =>
    if out then
      let l := interRngs [⟨a, n⟩] (e.drd ++ e.dwr)
      let s := s.modCore site fun c => { c with spe := some { e with dhurt := e.dhurt ++ l } }
      each l s fun s r => { s.memWrite (corePort site) r.lo (freeBytes s.free r.len) with free := s.free + r.len }
    else each (interRngs [⟨a, n⟩] e.dwr) s fun s r =>
      { s.modCore site fun c => c.wrLm (la + (r.lo - a)) (freeBytes s.free r.len) with free := s.free + r.len }

/-- One row of a MOVD: an access of its own under the fences (R99, R216). A row that lies below zero or
reaches 2^52 is unmapped. The second part is set when the row meets poison (R212). -/
def State.movdRow (s : State) (site pc : Nat) (out : Bool) (la : Nat) (dev : Int) (n : Nat) : State × Bool :=
  let cl := clusterOf site
  let a := dev.toNat
  let ok := decide (0 ≤ dev) && decide (a + n ≤ 2 ^ 52) && s.fenceOk cl out a n
  if !ok then
    let s := s.refuse cl out (some (site, pc))
    (if out then s else s.modCore site fun c => c.wrLm la (List.replicate n 0), false)
  else if out then ((s.memWrite (corePort site) a ((s.core site).rdLm la n)).besideEngine site true la a n, false)
  else
    let s := s.flushRange a n
    let bad := s.poisonIn a n
    if bad.isEmpty then ((s.modCore site fun c => c.wrLm la (s.memRead a n)).besideEngine site false la a n, false)
    else (s.meetPoison bad, true)

def State.movdRows (s : State) (site pc : Nat) (out : Bool) (la lp : Nat) (dev : Int) (dp n : Nat) : Nat → Nat → State × Bool
  | _, 0 => (s, false)
  | r, k + 1 =>
    match s.movdRow site pc out (la + r * lp) (dev + ((r * dp : Nat) : Int)) n with
    | (t, true) => (t, true)
    | (t, false) => t.movdRows site pc out la lp dev dp n (r + 1) k

/-- Route entry n of a cluster is valid, of direction d, and owned by the site (R226). -/
def State.routeOk (s : State) (site n d : Nat) : Bool :=
  let c := clusterOf site
  s.effF (R.CL.ROUTE_LOn.VALID.at 8 n) c == 1 && s.effF (R.CL.ROUTE_LOn.DIR.at 8 n) c == d &&
    s.effF (R.CL.ROUTE_LOn.SITE.at 8 n) c == site % 28

/-- The receive end of a send entry. -/
def State.routePeer (s : State) (c n : Nat) : Nat × Nat :=
  (s.effF (R.CL.ROUTE_LOn.PEER_CLUSTER.at 8 n) c, s.effF (R.CL.ROUTE_LOn.PEER_ROUTE.at 8 n) c)

/-- Bytes in a receive buffer, under the way to it, and its size (R227). -/
def State.routeFill (s : State) (c n : Nat) : List Byte := Tab.get [] s.mesh.fill (64 * c + n)
def State.routeTransit (s : State) (c n : Nat) : Nat :=
  ((s.mesh.bytes.filter fun b => b.dstC == c && b.dstR == n).map fun b => b.data.length).sum
def State.routeRoom (s : State) (c n : Nat) : Nat :=
  (s.effF (R.CL.ROUTE_HIn.BUF_m1.at 8 n) c + 1) * 1024 - (s.routeFill c n).length - s.routeTransit c n

/-- The transfers of 128 bytes that bytes take (R339). -/
def transfers : Nat → List Byte → List (List Byte)
  | 0, _ => []
  | k + 1, b => if b.isEmpty then [] else b.take 128 :: transfers k (b.drop 128)

/-- Entries free, of the 16 at the mesh's side, on the path that route bytes of a cluster's cores take into the mesh (R339).
DEDUCED, log entry 40. -/
def State.bytesFree (s : State) (c : Nat) : Nat := 16 - s.mesh.bytes.countP fun b => b.srcC == c

/-- The same for the tokens that a cluster's cores send. -/
def State.toksFree (s : State) (c : Nat) : Nat := 16 - s.mesh.toks.countP fun t => decide (t.src < 1000) && clusterOf t.src == c

/-- Put bytes on a route, one transfer to an entry. -/
def State.routePut (s : State) (c n : Nat) (bs : List Byte) : State :=
  let p := s.routePeer c n
  s.modMesh fun m => { m with bytes := m.bytes ++ (transfers bs.length bs).map fun d => ⟨c, n, p.1, p.2, d⟩ }

/-- Cells of a packed MOVS that fit the room, in order: the wire bytes and how many cells (R100). -/
def packFit (c : CoreSite) (la room : Nat) : Nat → List Byte × Nat
  | 0 => ([], 0)
  | k + 1 =>
    let w := cellWire (c.rdLm la 96)
    if w.length ≤ room then
      let (r, m) := packFit c (la + 96) (room - w.length) k
      (w ++ r, m + 1)
    else ([], 0)

/-- A TSIG acts (R102, R154, R228, R229, R302). -/
def State.signal (s : State) (site pc tok n : Nat) : State :=
  let cl := clusterOf site
  if tok = 0xFE then s.modCore site fun c => { c with speWait := c.speWait + n }
  else if tok = 0xFF then s.dropToken cl (some (site, pc))
  else
    match s.signalTarget cl (leNat ((s.core site).rdLm (0x3FC00 + 4 * tok) 4)) with
    | none => s.dropToken cl (some (site, pc))
    | some t =>
      let inside := match t with
        | .core i _ => (s.groupOf cl).contains (clusterOf i)
        | .list _ _ _ => false
      let send := fun (s : State) => s.modMesh fun m => { m with toks := m.toks ++ [⟨site, t, n, s.now, pc⟩] }
      if inside then send s
      else
        let num := (s.core site).nTsig
        let known := (s.ledgerAt site num false).isSome
        let s := s.modCore site fun c => { c with nTsig := num + 1 }
        if known then s else send (s.setLedger ⟨site, num, false, .delivered, 0, []⟩)

/-- Mark a move instruction, the i-th in flight, as done with its work; the bytes that clashed under R91
are undefined. DESIGN CHOICE, log entry 6; DEDUCED, log entry 7. -/
def State.moveDone (s : State) (site i : Nat) (ready : Bool) : State :=
  let c := s.core site
  let cl := (c.fly[i]?.map (·.clash)).getD []
  let c := { c with fly := c.fly.modify i fun f => { f with mv := none, ready := ready } }
  let (c, fr) := cl.foldl (fun (t : CoreSite × Nat) r => (t.1.wrLm r.lo (freeBytes t.2 r.len), t.2 + r.len)) (c, s.free)
  { s.setCore site c with free := fr }

/-- What came of reaching a move instruction: it acted, it waits and holds later ones, or it waits beside
them. -/
inductive Reach where
  | acted (s : State)
  | holds (s : State)
  | beside
  deriving DecidableEq, Repr

/-- The move instructions behind the i-th in flight leave the unit without effect (R94, R103). DEDUCED, log entry 9. -/
def State.dropMoves (s : State) (site i : Nat) : State :=
  s.modCore site fun c => { c with fly := c.fly.take (i + 1) ++ (c.fly.drop (i + 1)).filter fun f => f.mv.isNone }

/-- A check event of CHKEQ (R103). A core that a fault has stopped keeps the fault it recorded first.
DEDUCED, log entry 9. -/
def State.checkFail (s : State) (site pc : Nat) (stop : Bool) : State :=
  let s := (s.addF R.CORE.CHK_EVENTS.CHK_FAIL site 1).tallyDev 0x84 1
  let s := s.reportSite site 3 1 0x3FFF pc 0 0 0
  if !stop || (s.core site).st == .stopped then s
  else
    let s := s.faultAt site pc 5 0xC0
    s.modCore site fun c => { c with st := .stopped, drain := .fault .check, wait := .none }

/-- The unit reaches the i-th instruction in flight of a site. -/
def State.reach (s : State) (site i : Nat) (f : Fly) (op : MoveOp) : Reach :=
  let cl := clusterOf site
  match op with
  | .movd out la lp dev dp rows n =>
    match s.movdRows site f.pc out la lp dev dp n 0 rows with
    | (t, false) => .acted (t.moveDone site i true)
    | (t, true) => .acted (t.clusterReset site)
  | .movl src dst n rows sp dp => .acted ((s.modCore site fun c => copyRows c src dst n sp dp 0 rows).moveDone site i true)
  | .movs la route len pack =>
    let p := s.routePeer cl route
    let room := min (s.routeRoom p.1 p.2) (128 * s.bytesFree cl)
    if len = 0 then
      if s.routeTransit p.1 p.2 = 0 then .acted (s.moveDone site i true) else .holds s
    else
      let (bs, k) := if pack then packFit (s.core site) la room len
        else let k := min len (room / 16); ((s.core site).rdLm la (16 * k), k)
      if k = 0 then .holds s
      else
        let rest : MoveOp := .movs (la + (if pack then 96 else 16) * k) route (len - k) pack
        .holds ((s.routePut cl route bs).modCore site fun c =>
          { c with fly := c.fly.modify i fun f => { f with mv := some rest } })
  | .movr la route len =>
    let b := s.routeFill cl route
    if 16 * len ≤ b.length then
      let s := s.modMesh fun m => { m with fill := Tab.set [] m.fill (64 * cl + route) (b.drop (16 * len)) }
      .acted ((s.modCore site fun c => c.wrLm la (b.take (16 * len))).moveDone site i true)
    else .holds s
  | .send la dev window gen off cls len pack group =>
    let num := (s.core site).nSend
    let s := s.modCore site fun c => { c with nSend := num + 1 }
    let fresh := fun (s : State) (told : List (Nat × Nat × Nat)) =>
      let no := s.fab.nextSend
      let s := s.modCore site fun c => { c with fly := c.fly.modify i fun f => { f with sendNo := some no } }
      let s := (s.moveDone site i false).setLedger ⟨site, num, true, .pending, no, told⟩
      (s.startSend site num la off cls len pack ((group.getD [(dev, window, gen)]).diff told)).1
    match s.ledgerAt site num true with
    | none => .acted (fresh s [])
    | some e =>
      match e.out with
      | .delivered => .acted (s.moveDone site i true)
      | .failed => .acted (fresh s e.told)
      | .pending =>
        let s := s.modCore site fun c => { c with fly := c.fly.modify i fun f => { f with sendNo := some e.key } }
        .acted (s.moveDone site i false)
  | .tsig tok n =>
    if ((s.core site).fly.take i).any (fun g => g.unit == .move) || s.toksFree cl == 0 then .beside
    else .acted ((s.signal site f.pc tok n).moveDone site i true)
  | .chkeq a b n stop =>
    let c := s.core site
    let same := c.rdLm a n == c.rdLm b n
    let s := s.moveDone site i true
    .acted (if same then s else (if stop then s.dropMoves site i else s).checkFail site f.pc stop)

/-- Go through the instructions in flight of the move unit from the i-th on. DEDUCED, log entry 9. -/
def State.pumpFrom (s : State) (site : Nat) : Nat → Nat → State
  | 0, _ => s
  | k + 1, i =>
    match (s.core site).fly[i]? with
    | none => s
    | some f =>
      match f.mv with
      | none => s.pumpFrom site k (i + 1)
      | some op =>
        match s.reach site i f op with
        | .acted t => t.pumpFrom site k (i + 1)
        | .beside => s.pumpFrom site k (i + 1)
        | .holds t => t

/-- The move unit of one site does what it can (R90, R421). DEDUCED, log entry 8. -/
def State.pumpOne (s : State) (site : Nat) : State :=
  s.pumpFrom site (s.core site).fly.length 0

/-- The site at the send end of a receive entry (R226). -/
def State.routeSender (s : State) (c n : Nat) : Nat :=
  let p := s.routePeer c n
  28 * p.1 + s.effF (R.CL.ROUTE_LOn.SITE.at 8 p.2) p.1

/-- The move unit of a site does what it can; where a MOVR takes bytes from a receive buffer, the credits return
to the route's sender, whose stalled MOVS goes on (R227). DEDUCED, log entry 8. -/
def State.pump (s : State) (site : Nat) : State :=
  let c := clusterOf site
  let t := s.pumpOne site
  let freed := (List.range 64).filter fun n => decide ((t.routeFill c n).length < (s.routeFill c n).length)
  each freed t fun t n => t.pumpOne (t.routeSender c n)

/-- An entry of a full path comes free: the cores of its cluster that waited for it go on (R339). -/
def State.entryFree (s : State) (c : Nat) (full : Bool) : State := if full then each (sitesOf c) s State.pump else s

end Sys2Proof.Machine
end

