-- ==== Sys2Proof/Machine/Launch.lean ====
section
/-! DEFINITION. Launch at count (R232 to R234, R284, R285, R287, R305) and the control complex's signals
(R238). -/

namespace Sys2Proof.Machine

/-- The initial general registers of a launch kind (R220, R232). -/
def Job.gregs (j : Job) (k : KKind) : Tab GWord :=
  k.regs.foldl (fun t a =>
    let v := a.value + (a.region.map fun r => j.bases.getD r 0).getD 0 + (a.cset.map fun c => j.sets.getD c 0xFF * 2 ^ 32).getD 0
    Tab.set 0 t a.reg (BitVec.ofNat 64 v)) []

/-- The state of R232 that a core receives before T_L. -/
def State.loadCore (s : State) (site cmdLa : Nat) (r : LaunchRec) : State :=
  let n := s.getF R.CORE.INSTR_CNT.COUNT site
  let s := s.modCore site fun c =>
    { c with g := r.gregs, u := [], tok := [], mt := [], mtCount := 0, pc := r.entry, ret := [], passes := 0,
             nSend := 0, nTsig := 0, atMark := none, rot := false, mark0 := n }
  let s := s.setF R.CORE.SPE_CTL.CMD_LA site cmdLa
  s.faultAt site 0 0 0

/-- A core receives the state of a launch: what its router logs of it starts anew, since the launch is its first
commit (R232, R305). DEDUCED, log entry 33. -/
def State.loadFresh (s : State) (site : Nat) (r : LaunchRec) : State :=
  let keep := fun (t : Tab Nat) => t.filter fun e => e.1 / 256 != site % 28
  (s.loadCore site r.cmdLa r).modCluster (clusterOf site) fun x => { x with snap := keep x.snap, ext := keep x.ext, excess := keep x.excess }

/-- A core that runs no kernel. DEDUCED, log entry 10. -/
def State.coreFree (s : State) (site : Nat) : Bool := (s.run site).isNone

/-- The extended step of the open window (R272). -/
def State.extStep (s : State) : Nat := s.getF R.TLY.WRAP.WRAP 0 * 2 ^ 32 + s.getF R.TLY.STEP.STEP 0

/-- The marking job partition (R271). -/
def State.marking (s : State) (job : Nat) : Bool :=
  (s.getF R.TLY.MARK_CTL.SOURCE 0 == 1 || s.getF R.TLY.MARK_CTL.SOURCE 0 == 2) && s.getF R.TLY.MARK_CTL.JOB_ID 0 == job

/-- A replay capsule (R287). DESIGN CHOICE, log entry 30. -/
def State.capsule (s : State) (j : Job) (a : LaunchArgs) : List Byte :=
  padTo 64 j.prog.hash ++ padTo 64 j.prog.modelHash ++ natLE 8 s.extStep ++ natLE 8 a.seed ++ natLE 8 a.tl ++
    natLE 4 a.plane ++ natLE 2 s.devId ++ natLE 1 a.kind ++
    natLE 1 ((if j.prog.replay then 1 else 0) + 2 * s.getF R.LCH.FABRIC_ID.PAIR 0) ++
    natLE 8 a.ckStep ++ natLE 8 a.ckId ++ padTo 128 (a.batch.flatMap (natLE 8)) ++ padTo 128 (a.args.flatMap (natLE 8))

/-- The place of the k-th capsule in the reserved region of HBM: the last 1,024 are kept (R287).
DESIGN CHOICE, log entry 30. -/
def capsuleAddr (k : Nat) : Nat := resBase + Config.capsuleArea.val * 0x80000 + k % 1024 * 512

/-- The control complex writes a capsule (R287). -/
def State.writeCapsule (s : State) (cap : List Byte) : State :=
  let s := s.memWrite (servicePort 0) (capsuleAddr s.ctl.ncapsules) cap
  s.modCtl fun c => { c with capsules := (c.capsules ++ [cap]).drop (c.capsules.length + 1 - 1024), ncapsules := c.ncapsules + 1 }

/-- The completion area lies in a deck region of the partition, and the event counter in a region (R234).
DEDUCED, log entry 21. -/
def launchAreaOk (j : Job) (a : LaunchArgs) : Bool :=
  let inR := fun (deck : Bool) (x n : Nat) => (j.prog.regions.zip j.bases).any fun (r, b) =>
    (!deck || r.space == 0) && decide (b ≤ x) && decide (x + n ≤ b + r.size)
  a.area % 8 == 0 && a.ctr % 8 == 0 && inR true a.area (8 * 24 * j.prog.nclusters) && inR false a.ctr 8

/-- What a launch needs: issued at least 20 µs ahead (R232), no hold of the marking partition (R284), and
the step gate's GO for a program that spans devices, which is launched once per step (R285). DEDUCED, log entry 21. -/
def State.launchOk (s : State) (j : Job) (a : LaunchArgs) : Bool :=
  decide (s.now + 20000 ≤ a.tl) && !j.releasing && launchAreaOk j a &&
    !(s.marking a.job && s.getF R.TLY.HOLD.HELD 0 == 1) &&
    !(s.marking a.job && decide (1 < a.plane) &&
      (!(s.tally.gate.decided && s.tally.gate.go) || s.tally.gate.launched == some s.extStep))

/-- One logical core's part of a launch: it waits among the core's launches in order of T_L. A core that runs no
kernel and waits for no earlier launch receives its state now, any other when it starts. DEDUCED, log entry 21. -/
def State.launchCore (s : State) (j : Job) (a : LaunchArgs) (k : KImage) (q : KKind) : State :=
  match j.siteOf k.lcore with
  | none => s
  | some i =>
    let l := s.waitingAt i
    let pre := l.takeWhile fun q => decide (q.tl ≤ a.tl)
    let free := s.coreFree i && pre.isEmpty
    let r : LaunchRec := {
      job := a.job, lcore := k.lcore, tl := a.tl, entry := q.entry % 16384, gregs := j.gregs q, area := a.area, ctr := a.ctr,
      seq := s.getF R.CL.LAUNCH_SEQ.SEQ (clusterOf i), cmdLa := k.cmdLa, loaded := free }
    let s := s.setWaiting i (pre ++ r :: (l.drop pre.length).map fun q => { q with loaded := q.loaded && !free })
    if free then s.loadFresh i r else s

/-- The launch is the first commit of every group of a replay-mode program (R305): it comes when the first core of a
cluster starts, not while an earlier kernel of the cluster still runs. DEDUCED, log entry 21. -/
def State.launchCommit (s : State) (c : Nat) : State :=
  (s.modCluster c fun x => { x with ledger := [], marked := false, stopped := false, recov := none }).setF
    R.CL.REPLAY_STATUS.STATE c (if (s.cluster c).want.isSome then 1 else 0)

/-- LAUNCH (R232, R234, R238, R276, R287, R305): each cluster's sequence number rises by 1, cores that run no
kernel receive their state, and the launches wait for T_L.
DESIGN CHOICE, log entry 1; DEDUCED, log entry 21; DESIGN CHOICE, log entry 30. -/
def execLaunch (a : LaunchArgs) (s : State) : Ans :=
  match s.job a.job with
  | none => .next s
  | some j =>
    if !s.launchOk j a || s.leaderless then .next s
    else
      let s := each j.clusters s fun s c =>
        let s := s.setF R.CL.LAUNCH_SEQ.SEQ c ((s.getF R.CL.LAUNCH_SEQ.SEQ c + 1) % 2 ^ 32)
        s.setF R.CL.LAUNCH_TIME.T_L c a.tl
      let s := each j.prog.kernels s fun s k =>
        match k.kinds.find? fun q => q.kind == a.kind with
        | some q => s.launchCore j a k q
        | none => s
      let s := s.tallyDev 0xB0 1
      let s := if j.prog.replay then s else (s.tallyDev 0xA0 1).modTally fun t => { t with nonReplay := true }
      let s := s.setJob a.job (some { j with launched := j.launched + 1, area := a.area, ctr := a.ctr })
      let s := if s.marking a.job then
          let cap := s.capsule j a
          let e := s.extStep
          (s.writeCapsule cap).modGate fun g => { g with span := decide (1 < a.plane), launched := if 1 < a.plane then some e else g.launched }
        else s
      .next s

/-- KERNEL_START (R68, R105, R118, R215, R232, R233, R238): at T_L a free core issues from its entry address; a core that runs
a kernel misses the launch. No WLD or WSWP has issued since the launch, and CORE.SEQ_CTL.HAZ_CHK acts as it stands now.
Registers written before act from here, unless a kernel of the cluster runs.
DESIGN CHOICE, log entry 1; DEDUCED, log entry 21. -/
def execKernelStart (site : Fin 672) (s : State) : Ans :=
  let cl := clusterOf site
  match s.launchOf site with
  | none => .next s
  | some r =>
    if s.now < r.tl || !s.regionOn cl || (s.core site).dead then .next s
    else
      let s := (s.popLaunch site).yieldSlice site
      if !s.coreFree site && !r.resume then
        .next ((s.complete site r 4 0 0).reportSite site 4 7 0x3FFF 0 0 0 (s.seqFaultWord site))
      else
        let s := if (sitesOf cl).all fun i => (s.run i).isNone || (s.launchOf i).any (·.resume) || i == site.val then s.latchCl cl else s
        let s := if !r.resume && (sitesOf cl).all fun i => (s.run i).isNone then s.launchCommit cl else s
        let s := if r.loaded then s else s.loadFresh site r
        let s := s.setRun site (some r)
        let haz := s.getF R.CORE.SEQ_CTL.HAZ_CHK site == 1
        let s := s.modCore site fun c => { c with st := .issuing, drain := .none, wait := .none, pc := r.entry,
                                                  wldEver := false, wswpEver := false, haz := haz }
        .next (if r.resume then (if (s.cluster cl).want.isSome then s else s.setF R.CL.REPLAY_STATUS.STATE cl 3) else s.complete site r 1 0 0)

/-- A write to CL.TSIG (R102, R230, R238): one token unit, or one unit of a mover list this cluster binds.
DEDUCED, log entry 51. -/
def State.clTsig (s : State) (c v : Nat) : State :=
  let tok := bits v 7 0
  let site := bits v 12 8
  let m := bits v 18 16
  let l := bits v 22 19
  let send := fun (t : TokTo) => s.modMesh fun x => { x with toks := x.toks ++ [⟨1000 + c, t, 1, s.now, 0⟩] }
  if !flag v 13 then
    if site ≤ 27 && tok ≤ 0xFD && s.siteInService (28 * c + site) then send (.core (28 * c + site) tok)
    else s.dropToken c none
  else if s.bindsList c m l then send (.list m l c)
  else s.dropToken c none

/-- CL_TSIG (R238): acts at once, whether or not a kernel runs. -/
def execClTsig (c : Fin 24) (v : BitVec 32) (s : State) : Ans :=
  .next (s.asActive fun s => if s.hosted 1 c then s.clTsig c v.toNat else s)

end Sys2Proof.Machine
end

