-- ==== Sys2Proof/Machine/TallyUnit.lean ====
section
/-! DEFINITION. Tally marks and records (R271 to R276, R280 to R284, R423), tripwires (R187, R188), the step
gate (R285, R286) and the comparison of twins (R289, R291, R321). -/

namespace Sys2Proof.Machine

/-! ### Contributions and tripwires -/

/-- The AMAX bits of a finite FP32 value in units of 2^-149. -/
def fp32Units (b : Nat) : Nat :=
  let e := bits b 30 23
  let m := bits b 22 0
  if e = 0 then m else (2 ^ 23 + m) * 2 ^ (e - 1)

/-- The entry a tripwire kind watches (R187). -/
def tripEntry : Nat → Option CEnt
  | 0 => some .sat
  | 1 => some .nan
  | 2 => some .esc
  | 3 => some .escOvf
  | 4 => some .amax
  | 5 => some .fcMiss
  | 6 => some .runDrops
  | 7 => some .rangeLost
  | _ => none

/-- An AMAX has grown beyond P × 2^L, for a finite non-zero P; an infinite one is beyond every such bound (R187). -/
def amaxGrown (a p l : Nat) : Bool :=
  p != 0 && bits p 30 23 != 255 && (bits a 30 23 == 255 || decide (fp32Units p * 2 ^ l < fp32Units a))

/-- The condition of tripwire n holds; the set whose values met it (R187). -/
def State.tripMet (s : State) (n : Nat) : Option Nat :=
  let g := fun (f : Fld) => s.getF (f.at 8 n) 0
  let lim := g R.TLY.TW_LIMITn.LIMIT
  let cset := g R.TLY.TW_CTLn.CSET
  let t := s.tally
  match tripEntry (g R.TLY.TW_CTLn.KIND) with
  | none => none
  | some .amax =>
    let met := fun k => amaxGrown (Tab.get 0 t.sets (setKey k .amax)) (Tab.get 0 t.prevAmax k) (lim % 32)
    if g R.TLY.TW_CTLn.ALL_SETS = 1 then (List.range 256).find? met else if met cset then some cset else none
  | some e =>
    if g R.TLY.TW_CTLn.ALL_SETS = 1 then
      if lim < ((List.range 256).map fun k => Tab.get 0 t.sets (setKey k e)).sum then some 0xFF else none
    else if lim < Tab.get 0 t.sets (setKey cset e) then some cset else none

/-- A tripwire fires: at most once per window (R187, R189). -/
def State.tripFire (s : State) (n : Nat) : State :=
  if !s.tally.armed.contains n || s.tally.fired.contains n then s
  else match s.tripMet n with
  | none => s
  | some k =>
    let first := s.tally.fired.isEmpty
    let s := s.modTally fun t => { t with fired := t.fired ++ [n] }
    let s := s.orF R.TLY.TW_FIRED.FIRED 0 (2 ^ n)
    let s := if first then
        let s := s.setF R.TLY.TW_FIRST.INDEX 0 n
        let s := s.setF R.TLY.TW_FIRST.VALID 0 1
        let s := s.setF R.TLY.TW_FIRST.CSET 0 k
        s.setF R.TLY.TW_FIRST_STEP.STEP 0 (s.getF R.TLY.STEP.STEP 0)
      else s
    if s.getF (R.TLY.TW_CTLn.HOLD.at 8 n) 0 = 1 then s.requestHold R.TLY.HOLD.CAUSE_TRIPWIRE else s

def State.tripAll (s : State) : State := each (List.range 16) s State.tripFire

/-- Entries reach the tally unit (R273). -/
def State.contribute (s : State) (e : Tab Nat) : State :=
  (s.modTally fun t => { t with sets := e.foldl addEntry t.sets }).tripAll

/-- TALLY_CONTRIBUTION_ARRIVAL (R273, R274): the oldest contribution under way. DEDUCED, log entry 28. -/
def execTallyContributionArrival (s : State) : Ans :=
  match s.tally.transit with
  | [] => .next s
  | c :: r => .next ((s.modTally fun t => { t with transit := r }).contribute c.sets)

/-! ### Marks -/

/-- A mark starts on its way to the tally unit. -/
def State.sendMark (s : State) (m : Mark) : State := s.modTally fun t => { t with incoming := t.incoming ++ [m] }

/-- A write of MARK (R271, R423). DEDUCED, log entry 28. -/
def State.markWrite (s : State) : State :=
  if s.getF R.TLY.MARK_CTL.SOURCE 0 = 2 && s.tally.waiting.isNone then s.sendMark ⟨none⟩ else s

/-- MARK_CMD_MARK (R271, R423). -/
def execMarkCmdMark (s : State) : Ans := .next (s.asActive fun s => if s.hosted 10 0 then s.markWrite else s)

/-- The ranges a mark reads (R280). -/
def State.rangesOn (s : State) : List Nat :=
  (List.range 16).filter fun n => s.getF (R.TLY.RANGE_CTLn.EN.at 32 n) 0 == 1 && s.getF (R.TLY.RANGE_LENn.WORDS.at 32 n) 0 != 0

/-- The tally unit takes a mark: it is busy until its record is READY (R274, R423). -/
def State.takeMark (s : State) (m : Mark) : State :=
  (s.modTally fun t => { t with taken := some m, takenAt := s.now, rangesLeft := s.rangesOn, poison := false }).setF
    R.TLY.MARK_CMD.BUSY 0 1

/-- No earlier mark is in progress, held or waiting for the step gate (R423). -/
def State.markFree (s : State) : Bool := s.tally.taken.isNone && s.getF R.TLY.HOLD.HELD 0 == 0 && s.tally.heldMark.isNone

/-- MARK_ARRIVAL (R274, R423): the oldest mark under way is taken, or waits while an earlier one is in
progress or held; a second one from the control complex is dropped then. DEDUCED, log entry 28. -/
def execMarkArrival (s : State) : Ans :=
  match s.tally.incoming with
  | [] => .next s
  | m :: r =>
    let t := s.modTally fun t => { t with incoming := r }
    if s.markFree && s.tally.waiting.isNone then .next (t.takeMark m)
    else if s.tally.waiting.isNone then .next (t.modTally fun t => { t with waiting := some m })
    else .next (if m.site.isNone then t else s)

/-- A waiting mark is taken once the unit is free (R423). -/
def State.takeWaiting (s : State) : State :=
  match s.tally.waiting with
  | some m =>
    if s.markFree then
      (s.modTally fun t => { t with waiting := none }).takeMark m
    else s
  | none => s

/-- RANGE_FINGERPRINT_READ (R212, R278, R280): the terms of range n; a poisoned sector adds no terms and 1 to
NAN of the range's set. -/
def execRangeFingerprintRead (n : Fin 16) (s : State) : Ans :=
  if s.tally.taken.isNone || !s.tally.rangesLeft.contains n.val then .next s
  else
    let g := fun (f : Fld) => s.getF (f.at 32 n) 0
    let base := g R.TLY.RANGE_BASEn.BASE * 4
    let words := g R.TLY.RANGE_LENn.WORDS
    let cset := g R.TLY.RANGE_CTLn.CSET
    let s := s.flushRange base (4 * words)
    let bad := (s.poisonIn base (4 * words)).dedup
    let clean := (List.range words).filter fun j => !bad.contains (s.canon (base + 4 * j) / 64)
    let fp := (clean.map fun j => fpTerm (g R.TLY.RANGE_TIDn.TID) j (leNat (s.memRead (base + 4 * j) 4))).foldl (fun a b => (a + b) % 2 ^ 64) 0
    let s := s.countPoison bad
    let s := s.modTally fun t =>
      { t with rangesLeft := t.rangesLeft.erase n, takenAt := s.now, poison := t.poison || !bad.isEmpty }
    .next (s.contribute [(setKey cset .nan, bad.length), (setKey cset .fpCount, clean.length), (setKey cset .fp, fp)])

/-! ### The record (R276) -/

/-- Overwrite bytes of a list. -/
def putBytes (l : List Byte) (off : Nat) (b : List Byte) : List Byte := l.take off ++ b ++ l.drop (off + b.length)

/-- The 128 bytes of a counter set. -/
def setBytes (t : Tab Nat) (k : Nat) : List Byte :=
  (List.range 17).flatMap (fun i => natLE 4 (Tab.get 0 t (32 * k + i))) ++ natLE 4 0 ++
    natLE 8 (Tab.get 0 t (setKey k .fpCount)) ++ natLE 8 (Tab.get 0 t (setKey k .fp)) ++ List.replicate 40 0

/-- Bytes 0x1000 to 0x8FFF: the counter sets. -/
def setsArea (t : Tab Nat) : List Byte := (List.range 256).flatMap (setBytes t)

/-- The 36,864 bytes of the record of the open window, latched now. -/
def State.tallyRecord (s : State) (held : Bool) : List Byte :=
  let t := s.tally
  let area := setsArea t.sets
  let req := s.getF R.TLY.HOLD.REQUESTED 0 == 1
  let fl := (if req then 1 else 0) + (if held then 2 else 0) + (if t.nonReplay then 4 else 0) + (if t.poison then 8 else 0)
  let src := s.getF R.TLY.MARK_CTL.SOURCE 0
  let jid := s.getF R.TLY.MARK_CTL.JOB_ID 0
  let hash := ((s.job jid).map fun j => j.prog.hash).getD []
  let dev := fun o => if o = 0x9C then Tab.get 0 t.sets smldKey else if o = 0xA4 then Tab.get 0 t.sets orderKey else Tab.get 0 t.dev o
  let head := natLE 4 (s.getF R.TLY.STEP.STEP 0) ++ natLE 2 (s.getF R.TLY.WRAP.WRAP 0) ++ natLE 1 2 ++ natLE 1 fl ++
    natLE 8 s.now ++ natLE 8 t.openTime ++ natLE 2 (s.devId + s.getF R.LCH.FABRIC_ID.JOINED 0 * 2 ^ 15) ++
    natLE 1 jid ++ natLE 1 src ++ natLE 2 ((t.fired.map (2 ^ ·)).sum) ++ natLE 2 0 ++
    padTo 32 hash ++ sha3_512 area ++ (List.range 14).flatMap fun i => natLE 4 (dev (0x80 + 4 * i))
  let energy := (List.range 66).flatMap fun i => natLE 8 (Tab.get 0 t.energy i)
  putBytes (padTo 4096 head) 0x100 energy ++ area

/-- The place of the record of an extended step in the flight recorder (R281). -/
def recordAddr (e : Nat) : Nat := 0x3BDC00000 + e % 1024 * 0x9000

/-- A mark completes: the TMARK that sent it goes on, and its ledger shows it done (R284, R302, R423).
DEDUCED, log entry 5. -/
def State.markDone (s : State) (m : Mark) : State :=
  match m.site with
  | none => s
  | some i =>
    let s := s.modCluster (clusterOf i) fun c => { c with ledger := c.ledger.map fun e =>
      if e.site == i && !e.send && e.out == .pending then { e with out := .delivered } else e }
    if (s.core i).atMark = some tmarkCode then (s.modCore i CoreSite.goOn).countInstr i else s

/-- The window closes and the next opens (R272, R275). DEDUCED, log entry 28. -/
def State.nextWindow (s : State) : State :=
  let e := s.extStep + 1
  let s := (s.setF R.TLY.STEP.STEP 0 e).setF R.TLY.WRAP.WRAP 0 (e / 2 ^ 32)
  let s := s.modTally fun t =>
    { t with prevAmax := (List.range 256).foldl (fun p k => Tab.set 0 p k (Tab.get 0 t.sets (setKey k .amax))) []
             sets := [], dev := [], energy := [], fired := [], openTime := s.now, nonReplay := false, poison := false
             armed := (List.range 16).filter fun n => s.getF (R.TLY.TW_CTLn.EN.at 8 n) 0 == 1 }
  s.setF R.TLY.MARK_TIME.TIME 0 s.now

/-- The device holds at the mark of a step (R283, R284). -/
def State.holdAt (s : State) (step : Nat) : State :=
  ((s.setF R.TLY.HOLD.HELD 0 1).setF R.TLY.HOLD_STEP.STEP 0 step).setF R.TLY.HOLD.REQUESTED 0 0

/-- The core whose TMARK waits at a hold shows it (R284). -/
def State.holdCore (s : State) : State :=
  match s.tally.heldMark.bind (·.site) with
  | some i => if (s.core i).atMark = some tmarkCode then s.modCore i fun c => { c with st := .held } else s
  | none => s

/-! ### The step gate (R285, R286) -/

/-- The devices of the gate tree of this plane, in ascending order (R286). -/
def State.gateTree (s : State) : List Nat :=
  (((s.fab.members.map (·.1)).filter fun d => d / 2048 == s.devId / 2048 && !s.tally.gate.out.contains d).insertionSort (· ≤ ·))

/-- The tree of the step under the gate, or of the next one while none is. -/
def State.stepTree (s : State) : List Nat := if s.tally.gate.active then s.tally.gate.tree else s.gateTree

/-- The device that the device at position i of a tree reports to, once the missing ones are gone: past a missing
interior device to its parent, and where the root is missing to the next device in the order (R286). -/
def parentIn (tree gone : List Nat) (d : Nat) : Nat → Nat → Option Nat
  | 0, _ => none
  | k + 1, i =>
    if i = 0 then
      match tree.find? fun x => !gone.contains x with
      | some r => if r = d then none else some r
      | none => none
    else
      match tree[(i - 1) / 16]? with
      | none => none
      | some p => if gone.contains p then parentIn tree gone d k ((i - 1) / 16) else some p

/-- The parent of a device in the tree of the step. -/
def State.parentOf (s : State) (d : Nat) : Option Nat :=
  (s.stepTree.idxOf? d).bind fun i => parentIn s.stepTree s.tally.gate.out d 4 i

def State.gateChildren (s : State) : List Nat :=
  s.stepTree.filter fun d => d != s.devId && !s.tally.gate.out.contains d && s.parentOf d == some s.devId

def State.gateParent (s : State) : Option Nat := s.parentOf s.devId

/-- This device's own inputs are favourable: no hold requested, and its twin's digest settled (R285). -/
def State.gateOwn (s : State) : Bool :=
  s.getF R.TLY.HOLD.REQUESTED 0 == 0 &&
    (s.getF R.LCH.FABRIC_ID.PAIR 0 == 0 || s.tally.gate.alone || s.tally.gate.twin.ok)

/-- A pair's digests are still to be compared or replayed (R289). -/
def State.pairOpen (s : State) : Bool :=
  s.getF R.LCH.FABRIC_ID.PAIR 0 == 1 && !s.tally.gate.alone && !s.tally.gate.twin.ok && s.getF R.TLY.HOLD.REQUESTED 0 == 0

/-- Every child has sent its input or is missing. -/
def State.gateReady (s : State) : Bool :=
  let g := s.tally.gate
  g.active && !s.pairOpen && s.gateChildren.all fun d => (g.children.any fun c => c.1 == d) || g.missing.contains d

/-- All inputs of this part of the tree are favourable. -/
def State.gateGood (s : State) : Bool :=
  s.gateOwn && s.tally.gate.missing.isEmpty && s.tally.gate.children.all (·.2)

/-- The fabric agent sends a control message: what it carries beside its header is the model's own record of it, since
the spec gives control messages no format. DESIGN CHOICE, log entry 25. -/
def State.tell (s : State) (dev : Nat) (body : List Byte) : State :=
  s.txPacket 0 { type := 4, cls := 3, dst := dev, src := s.devId, vc := 3, birth := s.now / 1000 % 65536, data := body }

/-- Inputs complete: they go to the parent, or, from the root of one plane of a pair, its result to the other root
(R285, R286). A hold requested after a favourable input has gone makes it go again, so that it joins the gate
(R283). -/
def State.gateProgress (s : State) : State :=
  let good := s.gateGood
  if !s.gateReady || (s.tally.gate.sentAt.isSome && (good || !s.tally.gate.sentGood)) then s
  else
    let note := s.modGate fun g => { g with sentAt := some (g.sentAt.getD s.now), sentGood := good }
    let body := natLE 4 s.tally.gate.step ++ natLE 1 (if good then 1 else 0)
    match s.gateParent with
    | some d => note.tell d body
    | none => if s.getF R.LCH.FABRIC_ID.PAIR 0 = 1 && !s.tally.gate.alone then note.tell (s.devId ^^^ 0x800) body else s

/-- The root's decision, or its release, goes down the tree (R284, R285). -/
def State.tellChildren (s : State) (go : Bool) : State :=
  each s.gateChildren s fun s d => s.tell d (natLE 4 s.tally.gate.step ++ natLE 1 (if go then 3 else 2))

/-- A device is quarantined in a mirrored pair; where it is this one, its plane holds (R291, R320). -/
def State.holdPlane (s : State) (dev : Nat) : State :=
  let s := s.report { cls := 8, code := 6, dev := dev, unit := rootUnit, repo := rootUnit, remote := dev != s.devId }
  if dev = s.devId then
    (s.modModule fun m => { m with quarantined := if m.quarantined.contains rootUnit then m.quarantined else m.quarantined ++ [rootUnit] }).requestHold
      R.TLY.HOLD.CAUSE_PAIR
  else s

/-- Twins have both digests: they are compared (R289). A device whose own digest comes more than 1 ms after its
twin's is quarantined (R320, R321). DEDUCED, log entry 29. -/
def State.compareTwins (s : State) : State :=
  let t := s.tally.gate.twin
  match t.own, t.other with
  | some a, some b =>
    if t.ok || t.differs || t.late then s
    else if t.since.any fun c => decide (c.1 && c.2 + 1000000 ≤ s.now) then
      (s.modGate fun g => { g with twin := { g.twin with late := true } }).holdPlane s.devId
    else if a = b then s.modGate fun g => { g with twin := { g.twin with ok := true } }
    else
      let s := s.modGate fun g => { g with twin := { g.twin with differs := true } }
      let s := (s.addF R.TLY.PAIR_STATUS.MISMATCHES 0 1).orF R.TLY.HOLD.CAUSE_PAIR 0 1
      s.report { cls := 6, code := 6, dev := s.devId, unit := rootUnit, repo := rootUnit, detail := s.devId ^^^ 0x800 }
  | _, _ => s

/-- A mirrored pair's device that has met poison which nothing has rewritten withdraws from the step: it sends no
digest (R316). DEDUCED, log entry 29. -/
def State.withdraws (s : State) : Bool :=
  s.getF R.LCH.FABRIC_ID.PAIR 0 == 1 && !s.tally.gate.alone && !s.errs.met.isEmpty

/-- The gate of a closed step opens on a device whose marking program spans devices; in a mirrored pair the device
sends its digest to its twin (R285, R289). -/
def State.openGate (s : State) (step : Nat) (digest : List Byte) : State :=
  let tree := s.gateTree
  let own := if s.withdraws then none else some digest
  let pair := s.getF R.LCH.FABRIC_ID.PAIR 0 == 1 && !s.tally.gate.alone
  let s := s.modGate fun g =>
    { g with step := step, active := true, decided := false, go := true, since := none, sentAt := none, missing := [], tree := tree,
             children := (g.early.filter fun e => e.2.1 == step).map fun e => (e.1, e.2.2), early := [],
             twin := { g.twin with own := own, since := some (g.twin.since.getD (false, s.now)), ok := false, differs := false } }
  let s := if pair && own.isSome then s.tell (s.devId ^^^ 0x800) digest else s
  (s.modGate fun g => { g with since := if g.children.isEmpty then none else some s.now }).compareTwins.gateProgress

/-- TALLY_LATCH (R272, R274 to R276, R280, R281, R283, R284, R423): 1 µs after the mark and after the last
range; contributions sent 1 µs before have arrived, and the tripwires judge the values latched (R188). Where the
program spans devices the mark completes at the gate's decision (R283, R285). DEDUCED, log entry 28. -/
def execTallyLatch (s : State) : Ans :=
  match s.tally.taken with
  | none => .next s
  | some m =>
    if !s.tally.rangesLeft.isEmpty || s.now < s.tally.takenAt + 1000 then .next s
    else
      let due := s.tally.transit.filter fun c => decide (c.at_ + 1000 ≤ s.now)
      let s := s.modTally fun t => { t with transit := t.transit.filter fun c => decide (s.now < c.at_ + 1000) }
      let s := (each due s fun s c => s.contribute c.sets).tripAll
      let step := s.getF R.TLY.STEP.STEP 0
      let held := s.getF R.TLY.HOLD.REQUESTED 0 == 1
      let rec_ := s.tallyRecord held
      let s := s.memWrite (servicePort 0) (recordAddr s.extStep) rec_
      let s := s.nextWindow
      let s := (s.modTally fun t => { t with taken := none }).setF R.TLY.MARK_CMD.BUSY 0 0
      let span := s.tally.gate.span
      let s := if held && !span then s.holdAt step else if held then (s.setF R.TLY.HOLD.HELD 0 1).setF R.TLY.HOLD_STEP.STEP 0 step else s
      let s := if span then s.openGate step ((rec_.drop 0x40).take 64) else s
      let s := s.applyJoins
      if span && !held then
        .next (if s.tally.gate.active then s.modTally fun t => { t with heldMark := some m } else (s.markDone m).takeWaiting)
      else if held then
        .next (s.modTally fun t => { t with heldMark := some m }).holdCore
      else .next ((s.markDone m).takeWaiting)

/-- A hold ends, or the gate decides GO: the mark that waited for it completes and a waiting one is taken (R284,
R423). -/
def State.releaseHold (s : State) : State :=
  if s.getF R.TLY.HOLD.HELD 0 = 0 && s.tally.heldMark.isNone then s
  else
    let s := s.setF R.TLY.HOLD.HELD 0 0
    let s := match s.tally.heldMark with
      | some m => (s.modTally fun t => { t with heldMark := none }).markDone m
      | none => s
    s.takeWaiting

/-- A write of HOLD_REQ (R283). -/
def State.holdWrite (s : State) : State := (s.requestHold R.TLY.HOLD.CAUSE_CONTROL).gateProgress

/-- HOLD_REQ (R283). -/
def execHoldReq (s : State) : Ans := .next (s.asActive fun s => if s.hosted 10 0 then s.holdWrite else s)

/-- A write of RELEASE (R284): it ends a hold on a single device; in a plane the root sends it through the
step gate, once that has decided. DEDUCED, log entry 29. -/
def State.releaseWrite (s : State) : State :=
  if s.tally.gate.span then
    if !s.isRoot || s.tally.gate.active || s.getF R.TLY.HOLD.HELD 0 = 0 then s
    else ((s.modGate fun g => { g with decided := true, go := true }).tellChildren true).releaseHold
  else (s.modGate fun g => { g with active := false, decided := true, go := true }).releaseHold

/-- RELEASE (R284). -/
def execRelease (s : State) : Ans := .next (s.asActive fun s => if s.hosted 10 0 then s.releaseWrite else s)

/-- A write of TLY.MARK_CMD: RELEASE, HOLD_REQ and MARK act in that order (R423). -/
def State.markCmd (s : State) (v : Nat) : State :=
  let s := if flag v 2 then s.releaseWrite else s
  let s := if flag v 1 then s.holdWrite else s
  if flag v 0 then s.markWrite else s

/-- STEP_GATE_INPUT (R285, R286): a child's input for the step under the gate, or early for the open one. -/
def execStepGateInput (dev : Fin 4096) (step : BitVec 32) (good : Bool) (s : State) : Ans :=
  let g := s.tally.gate
  if !s.gateChildren.contains dev.val then .next s
  else if g.active && g.step == step.toNat then
    .next (s.modGate fun g => { g with children := (g.children.filter fun c => c.1 != dev.val) ++ [(dev.val, good)],
                                       since := some (g.since.getD s.now) }).gateProgress
  else if step.toNat = s.getF R.TLY.STEP.STEP 0 then
    .next (s.modGate fun g => { g with early := g.early ++ [(dev.val, step.toNat, good)] })
  else .next s

/-- The record of the step at the gate shows that the device held at its mark (R276, R284, R285).
DEDUCED, log entry 29. -/
def State.markHeld (s : State) : State :=
  let a := recordAddr (s.extStep + 2 ^ 48 - 1) + 7
  s.memWrite (servicePort 0) a (natLE 1 (leNat (s.memRead a 1) ||| 2))

/-- The decision reaches this device (R283 to R285). DEDUCED, log entry 29. -/
def State.gateDecide (s : State) (go : Bool) : State :=
  let own := s.getF R.TLY.HOLD.REQUESTED 0 == 1
  let pair := s.tally.gate.twin.differs
  let step := s.tally.gate.step
  let s := s.modGate fun g => { g with active := false, decided := true, go := go, twin := {} }
  if go then s.releaseHold
  else
    let s := if own || pair then s else s.orF R.TLY.HOLD.CAUSE_GATE 0 1
    (s.markHeld.holdAt step).holdCore

/-- STEP_GATE_DECISION (R284, R285): the root decides from its inputs and, in a mirrored pair, the other
root's result `go`; any other device takes the decision `go`, and each passes it to its children. A later GO at a held
gate releases it. -/
def execStepGateDecision (go : Bool) (s : State) : Ans :=
  let g := s.tally.gate
  if g.active then
    match s.gateParent with
    | none =>
      if !s.gateReady then .next s
      else
        let go := s.gateGood && (s.getF R.LCH.FABRIC_ID.PAIR 0 == 0 || g.alone || go)
        .next ((s.tellChildren go).gateDecide go)
    | some _ => .next (if g.sentAt.isSome then (s.tellChildren go).gateDecide go else s)
  else if g.decided && !g.go && go && g.span then
    .next (((s.modGate fun g => { g with go := true }).tellChildren go).releaseHold)
  else .next s

/-- A device is missing at the gate: the parent reports HOLD and names it, its children report to the parent, and it
stays out of the tree (R286). -/
def execGateInputTimeout (dev : Fin 4096) (s : State) : Ans :=
  let g := s.tally.gate
  let late := match g.since with
    | some t => decide (t + 1000000 ≤ s.now)
    | none => false
  if !g.active || !s.gateChildren.contains dev.val || (g.children.any fun c => c.1 == dev.val) || g.missing.contains dev.val ||
      !(late || (s.partner dev).st == 2) then .next s
  else
    let s := s.modGate fun g => { g with missing := g.missing ++ [dev.val], out := g.out ++ [dev.val] }
    let s := s.report { cls := 6, code := 4, dev := dev, unit := rootUnit, repo := rootUnit, detail := dev, remote := true }
    .next s.gateProgress

/-- GATE_DECISION_TIMEOUT (R261, R286): the parent is missing and leaves the tree, and the input goes to the next
parent, or this device is root. -/
def execGateDecisionTimeout (s : State) : Ans :=
  let g := s.tally.gate
  match g.sentAt, s.gateParent with
  | some t, some d =>
    if !g.active || s.now < t + 1000000 then .next s
    else .next (s.rebuildTags (s.modGate fun g => { g with out := g.out ++ [d], sentAt := none })).gateProgress
  | _, _ => .next s

/-! ### Twins (R289 to R291, R320, R321) -/

/-- TWIN_DIGEST_ARRIVAL (R289). -/
def execTwinDigestArrival (digest : List Byte) (s : State) : Ans :=
  if s.getF R.LCH.FABRIC_ID.PAIR 0 = 0 || s.tally.gate.alone || s.tally.gate.twin.other.isSome then .next s
  else
    .next ((s.modGate fun g =>
      { g with twin := { g.twin with other := some digest, since := some (g.twin.since.getD (true, s.now)) } }).compareTwins).gateProgress

/-- The value that at least three of the four digests hold; a missing one equals no other (R291).
DEDUCED, log entry 29. -/
def majority (l : List (Option (List Byte))) : Option (List Byte) :=
  l.findSome? fun x => match x with
    | some d => if 3 ≤ l.countP (· == some d) then some d else none
    | none => none

/-- TWIN_REPLAY_COMPLETE (R290, R291, R320): the digests of this device's replay and of its twin's, and the device
memory that the replay formed, which the device adopts where its original is the odd one out. The replay itself, on
another binding, is the control complex's work. DEDUCED, log entry 29. -/
def execTwinReplayComplete (own twin : Option (List Byte)) (s : State) (state : List (Nat × List Byte) := []) : Ans :=
  let t := s.tally.gate.twin
  match t.own, t.other with
  | some a, some b =>
    if !t.differs || t.ok then .next s
    else match majority [some a, some b, own, twin] with
    | none =>
      let s := s.addF R.TLY.PAIR_STATUS.UNRESOLVED 0 1
      .next (s.requestHold R.TLY.HOLD.CAUSE_PAIR).gateProgress
    | some x =>
      if own ≠ some x then .next (s.holdPlane s.devId).gateProgress
      else
        let s := if twin ≠ some x then
            (s.holdPlane (s.devId ^^^ 0x800)).modGate fun g => { g with alone := true }
          else s
        let s := s.modGate fun g => { g with twin := { g.twin with ok := true } }
        if a = x then .next s.gateProgress
        else
          let s := each state s fun s p => if s.memRange p.1 p.2.length then s.memWrite (servicePort 0) p.1 p.2 else s
          let s := s.addF R.TLY.PAIR_STATUS.TRANSIENTS 0 1
          let s := s.modGate fun g => { g with transients := g.transients ++ [s.now] }
          let n := s.tally.gate.transients.countP fun t => decide (s.now < t + 86400000000000)
          .next (if 3 ≤ n then (s.holdPlane s.devId).gateProgress else s.gateProgress)
  | _, _ => .next s

/-- TWIN_DIGEST_TIMEOUT (R316, R320, R321): 1 ms after this device's digest its twin's is missing, or 1 ms after the
twin's this device's own: the device without a digest is quarantined. DEDUCED, log entry 29. -/
def execTwinDigestTimeout (s : State) : Ans :=
  let t := s.tally.gate.twin
  if s.getF R.LCH.FABRIC_ID.PAIR 0 = 0 || s.tally.gate.alone || t.late || !t.since.any fun c => decide (c.2 + 1000000 ≤ s.now) then .next s
  else match t.own, t.other with
  | some _, none =>
    .next ((s.holdPlane (s.devId ^^^ 0x800)).modGate fun g => { g with alone := true, twin := { g.twin with ok := true } }).gateProgress
  | none, _ => .next ((s.modGate fun g => { g with twin := { g.twin with late := true } }).holdPlane s.devId).gateProgress
  | _, _ => .next s

/-- The digest of the latest closed step, as the flight recorder holds it. -/
def State.lastDigest (s : State) : List Byte := s.memRead (recordAddr (s.extStep + 2 ^ 48 - 1) + 0x40) 64

/-- PLANE_REJOIN (R321): the quarantined plane has replayed to the step at which the other plane holds; equal
digests release both at one gate. -/
def execPlaneRejoin (digest : List Byte) (s : State) : Ans :=
  if !(s.tally.gate.alone || s.module_.quarantined.contains rootUnit) || s.getF R.TLY.HOLD.HELD 0 = 0 || digest ≠ s.lastDigest then .next s
  else
    let s := s.modModule fun m => { m with quarantined := m.quarantined.filter (· != rootUnit) }
    .next (s.modGate fun g => { g with alone := false, active := false, decided := true, go := true, twin := {} }).releaseHold

end Sys2Proof.Machine
end

