-- ==== Sys2Proof/Machine/Errors.lean ====
section
/-! DEFINITION. Aggregation of error reports and the device error ring (R293 to R298, R325). -/

namespace Sys2Proof.Machine

/-- The aggregator of a report (R297): that of the cluster for a report about a core site or from a unit in
a cluster region, else the device aggregator. -/
def aggregatorOf (r : Report) : Nat :=
  let inCl := fun (u : Nat) =>
    let i := bits u 17 8
    match u % 256 with
    | 1 => if i < 24 then some i else none
    | 2 => if i < 672 then some (clusterOf i) else none
    | 8 => if i < 24 then some i else none
    | _ => none
  if r.remote || r.plane then 24
  else (if r.unit % 256 = 2 then inCl r.unit else inCl r.repo).getD 24

/-- Two records have one key (R296); tiers fold apart (R297). -/
def sameKey (r : Report) (tier : Nat) (e : ErrRec) : Bool :=
  e.rep.cls == r.cls && e.rep.code == r.code && e.rep.dev == r.dev && e.rep.unit == r.unit && e.tier == tier

def echoAdd (a n : Nat) : Nat := satAdd (2 ^ 32 - 1) a n

/-- A record of ERR24 enters the ring, or the early store while the ring is disabled; with no room it is not
written, and takes no sequence number (R298). DEDUCED, log entry 31. -/
def State.enterRing (s : State) (e : ErrRec) : State × ErrRec :=
  let head := s.getF R.ERR.RING_HEAD.RSEQ 24
  let full := if s.ringOn then (head + 2 ^ 32 - s.getF R.ERR.RING_TAIL.RSEQ 24) % 2 ^ 32 == 4096 else decide (64 ≤ s.errs.early.length)
  if full then
    ((s.addF R.ERR.RING_STATUS.OVERFLOW 24 1).orF R.ERR.RING_STATUS.LOST_CLASSES 24 (2 ^ (e.rep.cls - 1)), e)
  else
    let e := { e with rseq := some head }
    let s := s.setF R.ERR.RING_HEAD.RSEQ 24 ((head + 1) % 2 ^ 32)
    if s.ringOn then ((s.ringWrite e).tallyDev 0xA8 1, e)
    else (s.modErrs fun x => { x with early := x.early ++ [e] }, e)

/-- A record of ERR24 changes: its copies in the early store and the ring follow. -/
def State.syncRecord (s : State) (e : ErrRec) : State :=
  let inEarly := s.errs.early.any fun x => x.rseq == e.rseq && x.rseq.isSome
  if inEarly then s.modErrs fun x => { x with early := x.early.map fun y => if y.rseq = e.rseq then e else y }
  else s.ringWrite e

/-- Close the n-th open record of ERR24: ECHO is final (R296, R298). -/
def State.closeDevice (s : State) (n early : Nat) : State :=
  match (s.aggOf 24)[n]? with
  | none => s
  | some e =>
    let s := s.setAgg 24 ((s.aggOf 24).eraseIdx n)
    s.syncRecord { e with flags := e.flags ||| 1 ||| (if early = 1 then 32 else 0), open_ := false }

/-- A full aggregator closes its oldest open record early (R296). -/
def State.roomDevice (s : State) : State :=
  if (s.aggOf 24).length < 256 then s else (s.addF R.ERR.OPEN.EARLY_CLOSES 24 1).closeDevice 0 1

/-- The flags of a record that opens. -/
def openFlags (r : Report) : Nat := r.flags ||| (if r.remote then 16 else 0)

/-- ERR24 folds a report, or a record that stands for `n` reports (R296, R297); a record in the early store keeps its
current ECHO (R298). -/
def State.foldDevice (s : State) (r : Report) (tier n : Nat) : State :=
  let s := s.addF R.ERR.REPORTS.REPORTS 24 1
  match (s.aggOf 24).find? (sameKey r tier) with
  | some e =>
    let e' := { e with echo := echoAdd e.echo n }
    let s := s.setAgg 24 ((s.aggOf 24).map fun x => if x = e then e' else x)
    s.modErrs fun x => { x with early := x.early.map fun y => if y.rseq = e.rseq then e' else y }
  | none =>
    let s := s.roomDevice
    let e : ErrRec := { rep := r, flags := openFlags r, echo := n - 1, tier := tier, since := s.now }
    let (s, e) := s.enterRing e
    s.setAgg 24 (s.aggOf 24 ++ [e])

/-- A device record that opens with REMOTE also goes, as the fabric agent's message, to the plane root (R297).
DEDUCED, log entry 31. -/
def State.toRoot (s : State) (r : Report) (opened : Bool) : State :=
  if !r.remote || !opened then s
  else if s.isRoot then s.foldDevice r 2 1
  else
    match s.gateTree.head?, (s.aggOf 24).getLast? with
    | some d, some e => s.tell d e.bytes
    | _, _ => s

/-- The device aggregator receives a report of its own or a cluster's record. DEDUCED, log entry 31. -/
def State.deviceReport (s : State) (r : Report) (n : Nat) : State :=
  let opened := !(s.aggOf 24).any (sameKey r 1)
  (s.foldDevice r 1 n).toRoot r opened

/-- Close the n-th open record of a cluster aggregator: its final ECHO goes to ERR24 (R297).
DEDUCED, log entry 31. -/
def State.closeCluster (s : State) (k n : Nat) : State :=
  match (s.aggOf k)[n]? with
  | none => s
  | some e =>
    let s := s.setAgg k ((s.aggOf k).eraseIdx n)
    if e.echo = 0 then s else s.deviceReport e.rep e.echo

/-- A cluster aggregator receives a report; a record that opens passes to ERR24 at once (R296, R297). -/
def State.clusterReport (s : State) (k : Nat) (r : Report) : State :=
  let s := s.addF R.ERR.REPORTS.REPORTS k 1
  match (s.aggOf k).find? (sameKey r 0) with
  | some e => s.setAgg k ((s.aggOf k).map fun x => if x = e then { e with echo := echoAdd e.echo 1 } else x)
  | none =>
    let s := if (s.aggOf k).length < 32 then s else (s.addF R.ERR.OPEN.EARLY_CLOSES k 1).closeCluster k 0
    let s := s.setAgg k (s.aggOf k ++ [{ rep := r, flags := openFlags r, since := s.now }])
    s.deviceReport r 1

/-- The oldest report under way reaches its aggregator. -/
def State.takeReport (s : State) : State :=
  match s.errs.reports with
  | [] => s
  | r :: rest =>
    let s := s.modErrs fun e => { e with reports := rest }
    let k := aggregatorOf r
    if k = 24 then s.deviceReport r 1 else s.clusterReport k r

/-- ERROR_REPORT (R293 to R298): the oldest report under way reaches its aggregator. A record from another device is
folded once more at the plane root, adding 1 plus its own ECHO; a corrected error of a core site makes its report first.
DEDUCED, log entry 31. -/
def execErrorReport (s : State) (src : ErrSrc := .own) : Ans :=
  match src with
  | .own => .next s.takeReport
  | .remote b =>
    let (r, n) := Report.ofRecord b
    .next (if s.isRoot then s.foldDevice r 2 (n + 1) else s)
  | .corrected site symbol =>
    .next (if s.regionOn (clusterOf site) then (s.reportSite site 1 1 0x3FFF 0 0 0 symbol.toNat).takeReport else s)

/-- RECORD_CLOSE (R296, R297): 100 ms after the n-th open record of an aggregator opened. -/
def execRecordClose (agg : Fin 25) (n : Nat) (s : State) : Ans :=
  match (s.aggOf agg)[n]? with
  | none => .next s
  | some e =>
    if s.now < e.since + 100000000 then .next s
    else .next (if agg.val = 24 then s.closeDevice n 0 else s.closeCluster agg n)

/-- A write of ERR24.RING_BASE: a valid base takes the early store, in RSEQ order (R298).
DEDUCED, log entry 31. -/
def State.ringBaseWrite (s : State) (v : Nat) : State :=
  let s := s.setF R.ERR.RING_BASE.BASE 24 (v / 4096)
  if !s.ringOn then s
  else
    let l := s.errs.early
    let s := s.modErrs fun e => { e with early := [] }
    each l s fun s e => (s.ringWrite e).tallyDev 0xA8 1

/-- RING_BASE_WRITE (R298). -/
def execRingBaseWrite (v : BitVec 64) (s : State) : Ans :=
  .next (s.asActive fun s => if s.hosted 9 24 then s.ringBaseWrite v.toNat else s)

/-- A 1 written to an IN_USE bit frees the slot (R8, R325). -/
def State.captureFree (s : State) (v : Nat) : State :=
  s.clearF R.ERR.CAPTURE.IN_USE 24 (v % 65536)

/-- CAPTURE_SLOT_FREE (R307, R325). -/
def execCaptureSlotFree (v : BitVec 16) (s : State) : Ans :=
  .next (s.asActive fun s => if s.hosted 9 24 then s.captureFree v.toNat else s)

end Sys2Proof.Machine
end

