-- ==== Sys2Proof/Machine/Recovery.lean ====
section
/-! DEFINITION. Commits, replays and their end (R273, R299 to R306, R314, R315, R319, R322), core death and
substitution (R311 to R313), resets (R314, R318), quarantine (R320), lull tests (R308 to R310). -/

namespace Sys2Proof.Machine

/-! ### Groups -/

/-- The field network domain of a cluster, where its health monitor lies (R311, R326). -/
def monitorUnit (c : Nat) : Nat := wholeUnit 8 (netRegion (c / 4))

/-- The MARK_ID at which every running core of a group stands, if they all stand at one (R299).
DEDUCED, log entry 32. -/
def State.groupMark (s : State) (g : List Nat) : Option Nat :=
  let l := s.liveSites g
  match l.head?.bind fun i => (s.core i).atMark with
  | some id => if id < 65536 && l.all fun i => (s.core i).atMark == some id then some id else none
  | none => none

/-- The job partition and logical core of a site. -/
def State.siteJob (s : State) (site : Nat) : Option (Nat × Job × Nat) :=
  (s.jobOf (clusterOf site)).bind fun id => (s.job id).bind fun j =>
    (j.sites.find? fun e => e.2 == site).map fun e => (id, j, e.1)

/-! ### Quarantine (R320) -/

/-- A report names a unit of a core site of this device. -/
def State.ofSite (s : State) (site : Nat) (r : Report) : Bool :=
  r.dev == s.devId && r.unit % 256 == 2 && bits r.unit 17 8 == site

/-- A core site leaves service quarantined; the blaze map takes an entry (R384, R385), and the records that name the site
show it (R294). DEDUCED, log entry 34. -/
def State.quarantineSite (s : State) (site : Nat) : State :=
  if 2 ≤ s.siteState site then s
  else
    let s := s.modSec fun x => { x with blaze := { x.blaze with sites := Tab.set 1 x.blaze.sites site 3 } }
    ((s.blazeField (wholeUnit 2 site) 2).reportUnit 8 6 (wholeUnit 2 site) (s.recDetail (clusterOf site) 0 false)).flagRecords (s.ofSite site) 8

/-- A site meets a trigger: with AUTO = 0 the trigger is only recorded (R325). DEDUCED, log entry 34. -/
def State.quarTrigger (s : State) (site : Nat) : State :=
  if s.getF R.ERR.QUAR_CTL.AUTO 24 = 1 then s.quarantineSite site
  else s.reportUnit 8 6 (wholeUnit 2 site) (s.recDetail (clusterOf site) 0 false)

/-- A time lies within the window of QUAR_CTL. -/
def State.inWindow (s : State) (t : Nat) : Bool :=
  decide (s.now < t + max 1 (s.getF R.ERR.QUAR_CTL.WINDOW_H 24) * 3600000000000)

/-- One more confirmed mismatch of a site (R306, R320). -/
def State.confirmMismatch (s : State) (site : Nat) : State :=
  let s := s.modErrs fun e => { e with confirmed := e.confirmed ++ [(site, s.now)] }
  let s := s.flagRecords (fun r => r.cls == 2 && s.ofSite site r) 4
  let n := s.errs.confirmed.countP fun e => e.1 == site && s.inWindow e.2
  if max 1 (s.getF R.ERR.QUAR_CTL.MISMATCH_LIMIT 24) ≤ n then s.quarTrigger site else s

/-- A core site dies of a fault that came at `since` (R306, R311, R312, R315): it is out of service, a slice on it is
over, and its group is to be replayed. DEDUCED, log entry 34. -/
def State.siteDies (s : State) (site since : Nat) : State :=
  if (s.core site).dead then s
  else
    let c := clusterOf site
    let (q, l) := s.launchTag site
    let s := s.report { cls := 8, code := 1, dev := s.devId, unit := wholeUnit 2 site, repo := monitorUnit c, seq := q, lcore := l,
                        pc := (s.core site).pc, detail := s.recDetail c 0 false }
    let s := (s.yieldSlice site).modCore site fun x => { x with dead := true }
    let s := if s.siteState site < 2 then
        (s.quarTrigger site).modSec fun x => { x with blaze := { x.blaze with sites := Tab.set 1 x.blaze.sites site 3 } }
      else s
    if (s.siteJob site).isSome then s.wantReplay c { since := since, kind := 1, site := some site } else s

/-! ### Commit (R273, R299, R305) -/

/-- The longest a recovery of a kind may take, in µs (R315); a residue replay and a link loss have no column.
DEDUCED, log entry 32. -/
def recoveryBound : Nat → Option Nat
  | 1 => some 1340
  | 2 => some 1321
  | 4 => some 1450
  | 5 => some 1471
  | _ => none

/-- A cluster has regained the point it had reached: its recovery is timed, from the fault on (R315, R325).
DEDUCED, log entry 32. -/
def State.finishRecovery (s : State) (c : Nat) : State :=
  match (s.cluster c).recov with
  | none => s
  | some r =>
    if r.timed then s else
    let us := (s.now - r.since) / 1000
    let s := s.modCluster c fun x => { x with recov := some { r with timed := true } }
    let s := (s.setF R.CL.REPLAY_TIME.LAST_US c (min us 65535)).peakF R.CL.REPLAY_TIME.MAX_US c (min us 65535)
    let s := s.setF R.CL.REPLAY_STATUS.STATE c 0
    let paced := s.getF R.RGN.PACE.CURRENT c != 0 || s.getF R.RGN.PACE.THERMAL c != 0
    match recoveryBound r.kind with
    | some b => if b < us && !paced then s.reportUnit 8 7 (wholeUnit 1 c) (s.recDetail c us false) else s
    | none => s

/-- Every core of a cluster's group has come as far as it was when the fault came (R315). -/
def State.regained (s : State) (c : Nat) : Bool :=
  (s.cluster c).want.isNone && s.getF R.CL.REPLAY_STATUS.STATE c == 3 &&
    (s.liveSites (s.groupOf c)).all fun i =>
      !((s.launchOf i).any (·.resume)) && decide ((s.core i).mark0 + (s.core i).goal ≤ s.getF R.CORE.INSTR_CNT.COUNT i)

/-- The rotated replay of a group completes its interval with no mismatch at its site (R306). -/
def State.confirmReplay (s : State) (g : List Nat) : State :=
  match g.findSome? fun c => (s.cluster c).recov.bind fun r => if r.rotated && !r.again then r.site else none with
  | none => s
  | some site =>
    let s := each g s fun s c => s.modCluster c fun x => { x with recov := x.recov.map fun r => { r with rotated := false } }
    (s.modCore site fun c => { c with rot := false }).confirmMismatch site

/-- The token counts of a core, with what its router holds in excess, under the keys of its cluster.
DEDUCED, log entry 32. -/
def State.tokenKeys (s : State) (c : Nat) : Tab Nat :=
  (sitesOf c).foldl (fun t i =>
    ((s.core i).tok.map (·.1)).foldl (fun t k =>
      Tab.set 0 t (tokKey i k) ((s.core i).token k + Tab.get 0 (s.cluster c).excess (tokKey i k))) t) []

/-- A cluster's part of the commit. -/
def State.commitCluster (s : State) (id c : Nat) : State :=
  let x := s.cluster c
  let s := if x.pend.isEmpty then s else s.modTally fun t => { t with transit := t.transit ++ [{ sets := x.pend, at_ := s.now }] }
  let snap := s.tokenKeys c
  let s := s.modCluster c fun x => { x with pend := [], snap := snap, ext := [], ledger := [], markBank := id % 2, marked := true }
  let s := (s.setF R.CL.REPLAY_STATUS.MARK_ID c id).finishRecovery c
  s.modCluster c fun x => { x with recov := none }

/-- The commit of a group at a mark: every running core of it goes on. -/
def State.commit (s : State) (g : List Nat) (id : Nat) : State :=
  let s := s.confirmReplay g
  let s := each g s (State.commitCluster · id ·)
  each (s.liveSites g) s fun s i =>
    let s := (s.modCore i fun c => { c.goOn with nSend := 0, nTsig := 0, passes := 0 }).countInstr i
    let n := s.getF R.CORE.INSTR_CNT.COUNT i
    s.modCore i fun c => { c with mark0 := n }

/-- A running core's site is quarantined, but lives (R320). -/
def State.quarantinedIn (s : State) (g : List Nat) : Bool :=
  (s.liveSites g).any fun i => s.siteState i == 3 && !(s.core i).dead

/-- The logic of a core stops for a replay; what its memories hold stays, and so do the launches that wait for it. -/
def State.stopForReplay (s : State) (site : Nat) : State :=
  (s.yieldSlice site).modCore site fun c => { c.afterReset s.now with st := .idle }

/-- The commit of a group with a core to be replaced: its cores stop there, and the replay that follows carries them over
with nothing to re-execute (R320, R349, R399). DEDUCED, log entry 34. -/
def State.commitHeld (s : State) (g : List Nat) (c id : Nat) : State :=
  let s := (s.commit g id).wantReplay c { since := s.now, kind := 1, held := true }
  each (s.liveSites g) s State.stopForReplay

/-- Nothing stands in the way of a group's commit: no fault stop, no replay wanted, no repeated mismatch.
DEDUCED, log entry 32. -/
def State.mayCommit (s : State) (g : List Nat) : Bool :=
  g.all fun c => !(s.cluster c).stopped && (s.cluster c).want.isNone && !((s.cluster c).recov.any fun r => r.again)

/-- CLUSTER_COMMIT (R273, R299, R300); a core on a quarantined site stops there, and with it its group (R320). -/
def execClusterCommit (c : Fin 24) (s : State) : Ans :=
  let g := s.groupOf c
  match s.groupMark g with
  | some id => .next (if !s.mayCommit g then s else if s.quarantinedIn g then s.commitHeld g c id else s.commit g id)
  | none => .next s

/-! ### Job partition reset (R318) -/

/-- A core that has not ended, of each launch that it runs or that waits for it, gets its completion word with STATE 3 and
CODE and KIND zero. DEDUCED, log entry 35. -/
def State.endCore (s : State) (site : Nat) : State :=
  let l := (s.run site).toList ++ (s.waitingAt site).filter fun r => !r.resume
  let s := each l s fun s r => s.complete site r 3 0 0
  (s.setRun site none).setWaiting site []

/-- Reset a job partition: cores stop, clusters are reset, windows close, the partition is released.
DEDUCED, log entry 35. -/
def State.resetJob (s : State) (id : Nat) : State :=
  match s.job id with
  | none => s
  | some j =>
    let s := each (j.sites.map (·.2)) s State.endCore
    let s := each j.clusters s fun s c =>
      ((s.resetCluster c).modCluster c fun _ => {}).setF R.CL.REPLAY_STATUS.STATE c 0
    let s := each j.windows s State.closeWindow
    let s := s.reportUnit 8 5 (wholeUnit 1 (j.clusters.headD 0)) (s.recDetail (j.clusters.headD 0) 0 false)
    if j.windows.any fun w => (s.window w).st != 0 then s.setJob id (some { j with releasing := true, failed := true })
    else s.freeJob id j

/-- JOB_PARTITION_RESET (R318). DEDUCED, log entry 35. -/
def execJobPartitionReset (job : Fin 256) (s : State) : Ans := .next (s.resetJob job)

/-! ### Replay (R304, R305) -/

/-- The general registers of a mark record (R300). -/
def markRegs (b : List Byte) : Tab GWord :=
  (List.range 31).foldl (fun t i => Tab.set 0 t (i + 1) (BitVec.ofNat 64 (leNat ((b.drop (8 + 8 * i)).take 8)))) []

/-- The relaunch of a core: from the current mark record, or from the launch before the first mark.
DEDUCED, log entry 33. -/
def State.resumeRec (s : State) (j : Job) (site : Nat) (r : LaunchRec) : LaunchRec :=
  let x := s.cluster (clusterOf site)
  let r := { r with tl := s.now + 20000, loaded := true, resume := true }
  match x.marked, j.markAddr x.markBank r.lcore with
  | true, some a =>
    let b := s.memRead a 256
    { r with entry := leNat ((b.drop 2).take 2) % 16384, gregs := markRegs b }
  | _, _ => r

/-- Token counts of a relaunched core: its snapshot plus its external log (R303). DEDUCED, log entry 33. -/
def State.restoreTokens (s : State) (site : Nat) : State :=
  let c := clusterOf site
  let x := s.cluster c
  let mine := (((x.snap ++ x.ext).map (·.1)).dedup).filter fun k => k / 256 == site % 28
  each mine s fun s k =>
    let n := Tab.get 0 x.snap k + Tab.get 0 x.ext k
    let s := s.modCore site fun y => y.setToken (k % 256) (min n 65535)
    s.modCluster c fun y => { y with excess := Tab.set 0 y.excess k (n - 65535) }

/-- Routes of a group hold nothing, and its own tokens under way are discarded, since the replay regenerates
them. DEDUCED, log entry 33. -/
def State.clearRoutes (s : State) (g : List Nat) : State :=
  let inside := fun (t : MeshTok) => decide (t.src < 1000) && g.contains (clusterOf t.src) &&
    match t.target with
    | .core i _ => g.contains (clusterOf i)
    | .list _ _ _ => false
  s.modMesh fun m => { m with
    toks := m.toks.filter fun t => !inside t
    bytes := m.bytes.filter fun b => !(g.contains b.srcC || g.contains b.dstC)
    fill := m.fill.filter fun e => !g.contains (e.1 / 64) }

/-- A core of the group that has received the state of a launch that still waits receives it again, with the tokens that
came since (R305). DEDUCED, log entry 33. -/
def State.reloadGroup (s : State) (g : List Nat) : State :=
  each (g.flatMap sitesOf) s fun s i =>
    match s.run i, s.launchOf i with
    | none, some r => if r.loaded then (s.loadCore i r.cmdLa r).restoreTokens i else s
    | _, _ => s

/-- Replay a group of a program in replay mode from its last commit. DEDUCED, log entry 33. -/
def State.replay (s : State) (j : Job) (g : List Nat) (w : Recovery) : State :=
  let live := s.liveSites g
  let spin := w.spin && w.site.any live.contains
  let s := (each live s State.stopForReplay).reloadGroup g
  let s := s.clearRoutes g
  let s := each g s fun s c =>
    let s := s.modCluster c fun x => { x with pend := [], want := none, recov := some { w with rotated := spin } }
    (s.setF R.CL.REPLAY_STATUS.STATE c 2).addF R.CL.REPLAY_COUNT.REPLAYS c 1
  let s := each (j.prog.kernels.filter fun k => (j.siteOf k.lcore).any live.contains) s fun s k => s.placeKernel j k
  each live s fun s i =>
    match s.run i with
    | none => s
    | some r =>
      let q := s.resumeRec j i r
      let s := (s.loadCore i q.cmdLa q).restoreTokens i
      let s := (s.setRun i (some q)).setWaiting i (q :: (s.waitingAt i).filter fun r => !r.resume)
      s.modCore i fun c => { c with rot := spin && w.site == some i }

/-- No replay of the group is wanted any more: its cores go on. -/
def State.dropWant (s : State) (g : List Nat) : State :=
  each g s fun s d => (s.modCluster d fun x => { x with want := none }).setF R.CL.REPLAY_STATUS.STATE d 0

/-- The replay that a group waits for; where none is, the control complex may start one in a group in replay mode while
a sector is poisoned, since the group may have been its last writer (R316). DEDUCED, log entry 33. -/
def State.replayOf (s : State) (c : Nat) (j : Job) : Option Recovery :=
  match (s.cluster c).want with
  | some w => some w
  | none => if j.prog.replay && !s.poison.isEmpty && !(s.cluster c).stopped then some { since := s.now, kind := 3 } else none

/-- GROUP_REPLAY (R304 to R306, R312, R314, R316, R317, R320, R322): once the reset, march or substitution of its cause is
done. Outside replay mode the job partition is reset (R305). -/
def execGroupReplay (c : Fin 24) (s : State) : Ans :=
  let g := s.groupOf c
  match (s.jobOf c).bind fun id => (s.job id).map fun j => (id, j) with
  | none => .next (if (s.cluster c).want.isSome then s.dropWant g else s)
  | some (id, j) =>
    match s.replayOf c j with
    | none => .next s
    | some w =>
      let live := s.liveSites g
      if !j.prog.replay then .next (s.resetJob id)
      else if g.any (fun d => (s.cluster d).march.isSome) || live.any fun i => (s.core i).dead || w.held && s.siteState i == 3 then
        .next s
      else if live.isEmpty then .next ((s.dropWant g).reloadGroup g)
      else .next (s.replay j g w)

/-- RESIDUE_REPLAY_COMPLETE (R306): the rotated replay has completed its interval with no mismatch at the site, which
confirms the mismatch, or the mismatch came again and the site dies. -/
def execResidueReplayComplete (site : Fin 672) (s : State) : Ans :=
  let c := clusterOf site
  match (s.cluster c).recov with
  | none => .next s
  | some r =>
    if !r.rotated || r.site != some site.val then .next s
    else if r.again then
      let s := s.reportSite site 2 3 r.sub 0 r.row r.col r.detail
      .next (s.siteDies site s.now)
    else if (s.groupMark (s.groupOf c)).isSome && s.mayCommit (s.groupOf c) then .next (s.confirmReplay (s.groupOf c))
    else .next s

/-! ### Substitution (R312, R313) -/

/-- Order of equal remainders: the lower source cluster, then the lower send entry (R313). -/
def shareBefore (H : Nat) (a b : RouteUse) : Bool :=
  let ra := 16 * a.share % H
  let rb := 16 * b.share % H
  decide (rb < ra) || (ra == rb && (decide (a.src < b.src) || (a.src == b.src && decide (a.ent < b.ent))))

/-- The shares of the routes of one link by largest remainders (R313): the new share of route r. -/
def newShare (l : List RouteUse) (r : RouteUse) : Nat :=
  let H := (l.map (·.share)).sum
  let floors := (l.map fun q => 16 * q.share / H).sum
  let ahead := l.countP fun q => shareBefore H q r
  16 * r.share / H + (if ahead < 16 - floors then 1 else 0)

/-- The links on the paths of some routes that hold more than 16 slots. -/
def fullLinks (all new : List RouteUse) : List Link :=
  ((new.flatMap fun r => routeLinks r.src r.dst).dedup).filter fun k => decide (16 < shareOn all k)

/-- Write a route's share at its send entry; a share of 0 is none (R313). -/
def State.writeShare (s : State) (c n share : Nat) : State :=
  let f := R.CL.ROUTE_LOn.SHARE_m1.at 8 n
  let s := (s.setF f c (share - 1)).setEff f c (share - 1)
  s.modMesh fun m => { m with noShare := (m.noShare.filter (· != 64 * c + n)) ++ (if share = 0 then [64 * c + n] else []) }

/-- Rescale the shares after routes took new paths; the second part says whether any link asked for it.
DEDUCED, log entry 34. -/
def State.rescale (s : State) (moved : List (Nat × Nat)) : State × Bool :=
  let all := s.routes
  let full := fullLinks all (all.filter fun r => moved.contains (r.src, r.ent))
  let s := each all s fun s r =>
    let on := full.filter fun k => (routeLinks r.src r.dst).contains k
    match (on.map fun k => newShare (all.filter fun q => (routeLinks q.src q.dst).contains k) r).min? with
    | none => s
    | some n => s.writeShare r.src r.ent n
  (s, !full.isEmpty)

/-- Rewrite the routes that name a moved core, each with the share it held; the send entries rewritten. -/
def State.retarget (s : State) (old new : Job) : State × List (Nat × Nat) :=
  new.prog.routes.foldl (fun (t : State × List (Nat × Nat)) r =>
    match old.siteOf r.src, old.siteOf r.dst, new.siteOf r.src, new.siteOf r.dst with
    | some a0, some b0, some a, some b =>
      if a0 = a && b0 = b then t
      else
        let k0 := 64 * clusterOf a0 + r.srcR
        let share := if s.mesh.noShare.contains k0 then 0 else s.getF (R.CL.ROUTE_LOn.SHARE_m1.at 8 r.srcR) (clusterOf a0) + 1
        let s := t.1.writeRoute (clusterOf a) r.srcR 0 a b r.dstR (max 1 share) 1
        let s := s.writeShare (clusterOf a) r.srcR share
        (s.writeRoute (clusterOf b) r.dstR 1 b a r.srcR 1 r.buf, t.2 ++ [(clusterOf a, r.srcR)])
    | _, _, _, _ => t) (s, [])

/-- Rename the sites of token keys of a cluster. -/
def renameKeys (m : List (Nat × Nat)) (t : Tab Nat) : Tab Nat :=
  t.foldl (fun acc e =>
    let k := ((m.find? fun p => p.1 % 28 == e.1 / 256).map fun p => 256 * (p.2 % 28) + e.1 % 256).getD e.1
    Tab.set 0 acc k (Tab.get 0 acc k + e.2)) []

/-- Tokens under way to the old sites arrive at the old router before its logs are read (R312).
DEDUCED, log entry 34. -/
def State.settleTokens (s : State) (old : List Nat) : State :=
  let hit := fun (t : MeshTok) => match t.target with
    | .core i _ => old.contains i
    | .list _ _ _ => false
  let l := s.mesh.toks.filter hit
  let s := s.modMesh fun m => { m with toks := m.toks.filter fun t => !hit t }
  each l s fun s t => match t.target with
    | .core i k => s.deliver t.src i k t.count
    | .list _ _ _ => s

/-- Logical cores move from old to new sites (R312): kernels, launches, logs and snapshots, ledgers, SENDs and tokens under
way, routes, signal maps, notice targets and the designated core. Lists owned by a moved cluster are renamed.
DEDUCED, log entry 5; DEDUCED, log entry 34. -/
def State.moveCores (s : State) (id : Nat) (j new : Job) (m : List (Nat × Nat)) : State × Bool :=
  let s := s.settleTokens (m.map (·.1))
  let to_ := fun i => ((m.find? fun p => p.1 == i).map (·.2)).getD i
  let s := each m s fun s p =>
    let s := s.yieldSlice p.2
    let s := ((s.setRun p.2 (s.run p.1)).setRun p.1 none).setWaiting p.2 (s.waitingAt p.1)
    let s := (s.setWaiting p.1 []).setF R.CORE.SPE_CTL.CMD_LA p.2 (s.getF R.CORE.SPE_CTL.CMD_LA p.1)
    let n := s.getF R.CORE.INSTR_CNT.COUNT p.2
    let s := s.modCore p.2 fun c => { c.afterReset s.now with tok := [], mark0 := n, goal := (s.core p.1).goal }
    s.modCore p.1 fun c => { c with st := .stopped, fly := [], drain := .none, wait := .none, atMark := none }
  let s := s.modMesh fun m => { m with toks := m.toks.map fun t => if t.src < 1000 then { t with src := to_ t.src } else t }
  let s := s.modFab fun f => { f with sends := f.sends.map fun r => { r with site := to_ r.site } }
  let cs := ((m.map fun p => (clusterOf p.1, clusterOf p.2)).dedup)
  let s := each cs s fun s p =>
    let x := s.cluster p.1
    let y := { x with
      snap := renameKeys m x.snap, ext := renameKeys m x.ext, excess := renameKeys m x.excess
      ledger := x.ledger.map fun e => { e with site := to_ e.site } }
    if p.1 = p.2 then s.modCluster p.2 fun _ => y
    else (s.modCluster p.1 fun _ => {}).modCluster p.2 fun _ => y
  let s := s.setJob id (some new)
  let (s, moved) := s.retarget j new
  let s := each new.prog.kernels s fun s k =>
    match new.siteOf k.lcore with
    | some i => s.modCore i fun c => c.wrLm 0x3FC00 (new.sigMap k)
    | none => s
  let s := each new.windows s fun s w => s.modWindow w fun x =>
    if x.nvalid then
      let i := to_ (28 * x.ncl + x.nsite)
      { x with ncl := clusterOf i, nsite := i % 28 }
    else x
  let mk := 28 * s.getF R.TLY.MARK_CTL.CLUSTER 0 + s.getF R.TLY.MARK_CTL.SITE 0
  let s := if s.getF R.TLY.MARK_CTL.SOURCE 0 = 1 then
      (s.setF R.TLY.MARK_CTL.CLUSTER 0 (clusterOf (to_ mk))).setF R.TLY.MARK_CTL.SITE 0 (to_ mk % 28)
    else s
  let mark := fun (m : Mark) => { m with site := m.site.map to_ }
  let s := s.modTally fun t => { t with
    incoming := t.incoming.map mark, taken := t.taken.map mark, waiting := t.waiting.map mark, heldMark := t.heldMark.map mark }
  s.rescale moved

/-- The row spare of a site: a healthy site of its row that is not in service (R312). -/
def State.rowSpare (s : State) (site : Nat) : Option Nat :=
  ((List.range 7).map fun k => site / 7 * 7 + k).find? fun i => s.siteState i == 1 && !(s.core i).dead && s.regionOn (clusterOf i)

/-- A cluster's rows can take the 24 logical cores of a logical cluster. -/
def State.rowsFull (s : State) (c : Nat) : Bool :=
  (List.range 4).all fun r => decide (6 ≤ ((s.rowSites c r).filter fun i => !(s.core i).dead).length)

/-- The lowest-numbered free standby cluster (R312). -/
def State.freeStandby (s : State) : Option Nat :=
  (List.range 24).find? fun c => s.role c == 1 && s.regionOn c && (s.jobOf c).isNone && s.rowsFull c

def State.setRole (s : State) (c r : Nat) : State :=
  s.modSec fun x => { x with blaze := { x.blaze with roles := Tab.set 2 x.blaze.roles c r, dirty := true } }

/-- What names the cluster of logical cluster i moves from cluster c to cluster d: fences, mover lists, job
tag, CL.JOB and the owner of list units under way. -/
def State.moveBindings (s : State) (id : Nat) (new : Job) (i c d : Nat) : State :=
  let s := each (List.range 4) s fun s n =>
    each [R.CL.MOVER_LISTn.MOVER, R.CL.MOVER_LISTn.LIST, R.CL.MOVER_LISTn.BASE, R.CL.MOVER_LISTn.VALID] s fun s f =>
      let v := s.getF (f.at 4 n) c
      (s.writeCl (f.at 4 n) d v).writeCl (f.at 4 n) c 0
  let s := s.writeFences new i d
  let s := (s.setF (R.LWT.CL_TAGn.JOB_TAG.at 4 d) 0 (s.getF (R.LWT.CL_TAGn.JOB_TAG.at 4 c) 0)).setF (R.LWT.CL_TAGn.JOB_TAG.at 4 c) 0 0
  let s := s.bindCl c none
  let s := each (List.range 64) s fun s n => s.writeCl (R.CL.ROUTE_LOn.VALID.at 8 n) c 0
  let s := each (List.range 8) s fun s n => s.writeCl (R.CL.FENCE_LOn.VALID.at 8 n) c 0
  let s := s.bindCl d (some (id, i))
  let s := (s.setF R.CL.LAUNCH_SEQ.SEQ d (s.getF R.CL.LAUNCH_SEQ.SEQ c)).setF R.CL.LAUNCH_TIME.T_L d (s.getF R.CL.LAUNCH_TIME.T_L c)
  let s := s.setF R.CL.REPLAY_STATUS.MARK_ID d (s.getF R.CL.REPLAY_STATUS.MARK_ID c)
  s.modMesh fun m => { m with toks := m.toks.map fun t => match t.target with
    | .list a b o => if o = c then { t with target := .list a b d } else t
    | .core _ _ => t }

/-- A job partition after logical cluster i moved to cluster d. -/
def State.jobMoved (s : State) (j : Job) (i d : Nat) : Job :=
  let cl := j.clusters.set i d
  { j with clusters := cl, sites := j.sites.map fun e => if e.1 / 24 = i then (e.1, (s.bindCore cl e.1).getD e.2) else e }

/-- A logical cluster moves whole to a standby cluster, which takes its rank (R312, R313).
DEDUCED, log entry 34. -/
def State.moveCluster (s : State) (id : Nat) (j : Job) (c d oldRole : Nat) : State :=
  match j.clusters.idxOf? c with
  | none => s
  | some i =>
    let s := (s.setRole c oldRole).setRole d 0
    let new := s.jobMoved j i d
    let m := (j.sites.zip new.sites).filterMap fun (a, b) => if a.2 = b.2 then none else some (a.2, b.2)
    let s := s.moveBindings id new i c d
    let (s, scaled) := s.moveCores id j new m
    let s := s.modCluster d fun x => { x with want := x.want.map fun w => { w with kind := if w.kind = 5 then 5 else 4 } }
    let s := s.addF R.CL.REPLAY_COUNT.SUBSTITUTIONS d 1
    s.reportUnit 8 3 (wholeUnit 1 c) (s.recDetail d 0 scaled)

/-- The group is committed, or has nothing to re-execute: a substitution without a death waits for this
(R320, R349, R399). -/
def State.atCommit (s : State) (g : List Nat) : Bool :=
  (s.liveSites g).isEmpty || ((s.groupMark g).isSome && s.mayCommit g) || (g.all fun c => (s.cluster c).want.any (·.held))

/-- Commit a group that stands at its mark, and ask for the replay that carries its cores over. -/
def State.commitForMove (s : State) (c : Nat) : State :=
  let g := s.groupOf c
  match s.groupMark g with
  | some id => if s.mayCommit g then s.commitHeld g c id else s
  | none => s

/-- CORE_SUBSTITUTION (R305, R312, R313, R318, R320): the row spare, else the lowest free standby cluster, else a job
partition reset; a death outside replay mode resets the job partition. DEDUCED, log entry 34. -/
def execCoreSubstitution (site : Fin 672) (s : State) : Ans :=
  let c := clusterOf site
  match s.siteJob site with
  | none => .next s
  | some (id, j, l) =>
    let dead := (s.core site).dead
    if !(dead || s.siteState site == 3) || (s.cluster c).march.isSome then .next s
    else if dead && !j.prog.replay then .next (s.resetJob id)
    else if !dead && !s.atCommit (s.groupOf c) then .next s
    else
      let s := if dead then s else s.commitForMove c
      match s.siteJob site with
      | none => .next s
      | some (id, j, _) =>
        let s := each (s.liveSites (s.groupOf c)) s fun s i => if i = site.val then s else s.stopForReplay i
        match s.rowSpare site with
        | some n =>
          let s := s.modSec fun x => { x with blaze := { x.blaze with sites := Tab.set 1 x.blaze.sites n 0 } }
          let new := { j with sites := j.sites.map fun e => if e.1 = l then (e.1, n) else e }
          let (s, _) := s.moveCores id j new [(site.val, n)]
          let s := s.addF R.CL.REPLAY_COUNT.SUBSTITUTIONS c 1
          .next (s.reportUnit 8 2 (wholeUnit 2 site) (s.recDetail c 0 false))
        | none =>
          match s.freeStandby with
          | some d => .next (s.moveCluster id j c d 2)
          | none => .next (s.resetJob id)

/-! ### Heartbeats and deaths (R311) -/

/-- HEARTBEAT (R311). -/
def execHeartbeat (site : Fin 672) (s : State) : Ans :=
  .next (if s.regionOn (clusterOf site) && !(s.core site).dead then s.modCore site fun c => { c with hbAt := s.now } else s)

/-- The cluster's region is on, or has gone dark with its cores. -/
def State.watched (s : State) (c : Nat) : Bool := s.regionOn c || (s.module_.v36 && s.getF R.RGN.POWER_CTL.STATE c == 6)

/-- HEARTBEAT_TIMEOUT (R311): no heartbeat for 8 µs. -/
def execHeartbeatTimeout (site : Fin 672) (s : State) : Ans :=
  .next (if s.watched (clusterOf site) && decide ((s.core site).hbAt + 8000 ≤ s.now) then
    s.siteDies site (s.core site).hbAt else s)

/-- SEQUENCER_PARITY_ERROR (R311). -/
def execSequencerParityError (site : Fin 672) (s : State) : Ans :=
  .next (if s.regionOn (clusterOf site) then s.siteDies site s.now else s)

/-! ### Memory errors (R314, R320) -/

/-- CLUSTER_PARTITION_RESET (R212, R305, R314, R320): an uncorrectable error in the core memory or the operand
buffers of a site. -/
def execClusterPartitionReset (site : Fin 672) (s : State) : Ans :=
  if !s.regionOn (clusterOf site) then .next s
  else
    let s := s.reportSite site 1 2 0x3FFF 0 0 0 0
    let s := s.modErrs fun e => { e with memErrs := e.memErrs ++ [(site.val, s.now)] }
    let n := s.errs.memErrs.countP fun e => e.1 == site.val && s.inWindow e.2
    let s := if max 1 (s.getF R.ERR.QUAR_CTL.UE_LIMIT 24) ≤ n then s.quarTrigger site else s
    .next (s.clusterReset site)

/-- MEMORY_MARCH_COMPLETE (R314): a failed march takes the site out of service. DEDUCED, log entry 17. -/
def execMemoryMarchComplete (site : Fin 672) (pass : Bool) (s : State) : Ans :=
  let c := clusterOf site
  if (s.cluster c).march != some site.val then .next s
  else
    let s := s.modCluster c fun x => { x with march := none }
    if pass then .next s
    else
      let s := s.siteDies site ((s.cluster c).want.map (·.since) |>.getD s.now)
      .next (s.modCluster c fun x => { x with want := x.want.map fun w => { w with kind := 5 } })

/-! ### Lull tests (R308 to R310) -/

/-- A core site may take a slice (R308). -/
def State.lullEligible (s : State) (site : Nat) : Bool :=
  let c := s.core site
  s.regionOn (clusterOf site) && !c.dead && s.siteState site != 2 &&
    ((s.run site).isNone || ((c.st == .inWait || c.st == .inTwait) && c.fly.isEmpty && decide (c.waitAt + 5000 ≤ s.now)))

/-- The site whose turn it is: the first eligible one from the cluster's place on, in ascending order.
DEDUCED, log entry 36. -/
def State.lullTurn (s : State) (c : Nat) : Option Nat :=
  let n := (s.cluster c).lullNext
  ((List.range 28).map fun k => 28 * c + (n + k) % 28).find? s.lullEligible

/-- A site has failed a slice: its repeat at the site's next turn confirms the failure (R310). -/
def State.lullFails (s : State) (site : Nat) : State :=
  let c := clusterOf site
  let set := fun (s : State) v => s.modCluster c fun x => { x with lullFail := Tab.set 0 x.lullFail (site % 28) v }
  let s := s.reportSite site 3 2 0x3FFF 0 0 0 0
  if Tab.get 0 (s.cluster c).lullFail (site % 28) = 0 then set s 1
  else ((set s 0).addF R.CL.LULL_STATUS.FAILS c 1).quarTrigger site

/-- What the slice found: 0 nothing; 1 a failure; 2 or 3 fingerprints that differ from the buddy's, where the third core's
disagrees with the site's (2) or with the buddy's (3), which has failed (R310). DEDUCED, log entry 36. -/
def State.lullResult (s : State) (site buddy outcome : Nat) : State :=
  let c := clusterOf site
  match outcome with
  | 0 => s.modCluster c fun x => { x with lullFail := Tab.set 0 x.lullFail (site % 28) 0 }
  | 1 => s.lullFails site
  | 2 => (s.reportSite site 3 3 0x3FFF 0 0 0 0).lullFails site
  | _ => (s.reportSite site 3 3 0x3FFF 0 0 0 0).lullFails buddy

/-- LULL_SLICE_START (R308 to R310): one slice at a time in a cluster; what it disturbs is saved in its area of the HBM
reserved region, with the tile of the shadow plane, and reads as undefined until it yields. The buddy of a random pass
lies in another cluster. DESIGN CHOICE, log entry 6; DEDUCED, log entry 36. -/
def execLullSliceStart (site : Fin 672) (array : Fin 4) (outcome : Fin 4) (s : State) (buddy : Fin 672 := 0) : Ans :=
  let c := clusterOf site
  if s.getF R.CL.LULL_CTL.EN c = 0 || s.getF R.CL.LULL_STATUS.ACTIVE c = 1 || s.lullTurn c != some site.val then .next s
  else
    let x := s.core site
    let saved := x.lullBytes array
    let x := { x.putLull array (freeBytes s.free saved.length) with lull := some ⟨array, saved⟩ }
    let s := { s.setCore site x with free := s.free + saved.length }
    let s := s.modCluster c fun y => { y with lullNext := (site % 28 + 1) % 28 }
    let s := (s.setF R.CL.LULL_STATUS.SITE c (site % 28)).setF R.CL.LULL_STATUS.ACTIVE c 1
    let s := (s.addF R.CL.LULL_STATUS.SLICES c 1).tallyDev 0xB4 1
    let s := s.memWrite (servicePort 0) (lullArea c) (saved ++ x.shd.codes ++ x.shd.scales)
    .next (s.lullResult site buddy outcome)

/-- LULL_SLICE_YIELD (R309). DEDUCED, log entry 36. -/
def execLullSliceYield (site : Fin 672) (s : State) : Ans := .next (s.yieldSlice site)

end Sys2Proof.Machine
end

