-- ==== Sys2Proof/Machine/Clocks.lean ====
section
/-! DEFINITION. Regions as they are powered and switched off (R326, R340, R347, R352, R366, R405), references and
the tree clock (R328 to R330), DEV_TIME and PTP (R331 to R333, R361, R362, R379), fronts (R334 to R336). -/

namespace Sys2Proof.Machine

/-! ### Regions -/

/-- The compute regions that switch-on and heat see as neighbours of one (R327). -/
def neighbours (r : Nat) : List Nat :=
  let f := if r < 24 then r / 4 else r - 24
  ([4 * f, 4 * f + 1, 4 * f + 2, 4 * f + 3, 24 + f]).filter (· != r)

/-- Fields adjacent to a field, in ascending order (R327). -/
def adjacent (f : Nat) : List Nat :=
  (List.range 6).filter fun g => decide (g / 3 = f / 3 ∧ (g + 1 = f ∨ f + 1 = g)) || decide (g + 3 = f ∨ f + 3 = g)

/-- The reference sources of a region in its order of preference, as RGN.REF.SRC codes them (R328, R356). -/
def refSources (r : Nat) : List Nat :=
  if r < 24 then (24 + r / 4) :: ((List.range 4).map fun k => r / 4 * 4 + k).filter (· != r)
  else if r < 30 then
    (if r = 24 then [0x3E] else if r = 26 then [0x3F] else []) ++ (adjacent (r - 24)).map (24 + ·)
  else [25, 24, 26, 27, 28, 29]

/-- The voltage of an operating point in mV (R334). -/
def opVolt : Nat → Nat
  | 1 => 720
  | 2 => 640
  | 3 => 600
  | 4 => 550
  | _ => 0

/-- RGN.VTRIM in mV: −128 to +20 (R356). -/
def State.trim (s : State) (r : Nat) : Int := min 20 (sext 8 (s.getF R.RGN.VTRIM.TRIM r))

/-- Set the voltage target of a region for an operating point. -/
def State.setVolt (s : State) (r op : Nat) : State :=
  s.setF R.RGN.OP_STATUS.VTARGET r (((opVolt op : Nat) : Int) + s.trim r).toNat

/-- A region's maximum current in A (R326). -/
def maxAmps (r : Nat) : Nat := if r < 24 then 528 else if r < 30 then 264 else 140

/-- Phases of a region's bank: total, needed, minimum (R326). -/
def bankOf (r : Nat) : Nat × Nat × Nat := if r < 24 then (48, 44, 24) else if r < 30 then (24, 22, 12) else (16, 12, 12)

/-- The bank's figures as RGN.PHASES shows them. -/
def State.showBank (s : State) (r : Nat) : State :=
  let (t, n, m) := bankOf r
  let s := (s.setF R.RGN.PHASES.TOTAL r t).setF R.RGN.PHASES.NEEDED r n
  (s.setF R.RGN.PHASES.MINIMUM r m).setF R.RGN.PHASES.HEALTHY r (t - (s.region r).phases.length)

/-- Every register of a page returns to its reset value. -/
def State.clearPage (s : State) (page inst : Nat) : State :=
  { s with regs := Tab.clear s.regs ((page * 1024 + inst) * 262144) 262144, eff := Tab.clear s.eff ((page * 1024 + inst) * 262144) 262144 }

/-- A source can be used: its region is on, or its adapter has its reference input (R328, R408). -/
def State.sourceOn (s : State) (k : Nat) : Bool :=
  if k = 0x3E then s.module_.refclk0 else if k = 0x3F then s.module_.refclk1 else s.regionOn k

/-- A region locks to the first of its sources that is on, or stays on the tree (R328, R347). -/
def State.lockRegion (s : State) (r : Nat) : State :=
  match (refSources r).find? s.sourceOn with
  | some k => ((s.setF R.RGN.REF.SRC r k).setF R.RGN.REF.LOCKED r 1).setF R.RGN.REF.TREE r 0
  | none => (s.setF R.RGN.REF.LOCKED r 1).setF R.RGN.REF.TREE r 1

/-- A granted region begins its ramp (R347). -/
def State.startRamp (s : State) (r : Nat) : State :=
  let s := if r < 30 then s.modCtl fun c => { c with everOn := true } else s
  let s := (s.setF R.RGN.POWER_CTL.STATE r 2).showBank r
  s.modRegion r fun x => { x with ask := none, late := false, rampEnd := some (s.now + 50000), timeSet := false, resetOn := true }

/-- A region's switch-on is complete: its reset is released (R347). -/
def State.regionReady (s : State) (r : Nat) : State :=
  let op := if s.getF R.RGN.FRONT_CTL.CURRENT 0 = 0 then 4 else s.getF R.RGN.FRONT_CTL.CURRENT 0
  let s := (s.setF R.RGN.POWER_CTL.STATE r 4).setF R.RGN.OP_STATUS.OP r (if r < 30 then op else 0)
  let s := if r < 30 then s.setVolt r op else s.setF R.RGN.OP_STATUS.VTARGET r 750
  let s := s.modRegion r fun x => { x with timeSet := true, resetOn := false, hotSince := none, fullSince := none }
  if r < 24 then each (sitesOf r) s fun s i => s.modCore i fun c => { c with hbAt := s.now } else s

/-- The ADMIT requests that a region's switch-on raised fall, but where another one's still stands (R346). -/
def State.unpace (s : State) (r : Nat) : State :=
  let kept := fun (n : Nat) => (List.range 30).any fun q => q != r && (s.region q).paced.contains n
  (each ((s.region r).paced.filter fun n => !kept n) s fun s n => s.setF R.RGN.PACE.ADMIT n 0).modRegion r fun x => { x with paced := [] }

/-- A region is switched off, into STATE 0 or 6: its clock stops, its requests fall, a switch-on that it asked for is
withdrawn, and what its core sites held is lost (R340, R346, R366). -/
def State.regionOff (s : State) (r st : Nat) : State :=
  let s := s.unpace r
  let s := (s.setF R.RGN.POWER_CTL.STATE r st).setF R.RGN.POWER_CTL.ON_REQ r 0
  let s := (s.setF R.RGN.OP_STATUS.OP r 0).setF R.RGN.OP_STATUS.VTARGET r 0
  let s := (s.setF R.RGN.REF.LOCKED r 0).setF R.RGN.REF.TREE r 0
  let s := each [R.RGN.PACE.SQUALL, R.RGN.PACE.CURRENT, R.RGN.PACE.THERMAL, R.RGN.PACE.MODULE, R.RGN.PACE.ADMIT] s
    fun s f => s.setF f r 0
  let s := s.modRegion r fun x => { phases := x.phases, sampled := x.sampled }
  if 24 ≤ r then s
  else
    let s := s.setF R.CL.LULL_STATUS.ACTIVE r 0
    each (sitesOf r) s fun s i => (s.modCore i fun c => { dead := c.dead, hbAt := c.hbAt }).clearPage 2 i

/-! ### Power of the module -/

/-- What stays when the compute die, the deck, HBM and the link chiplets lose their power: what the control
chiplets, the port chiplets and the flash devices hold. Bytes and tables of the rest read as after reset.
DESIGN CHOICE, log entry 2; DEDUCED, log entry 43. -/
def State.computeOff (s : State) : State :=
  let pages := [(1, 24), (2, 672), (3, 24), (4, 16), (5, 10), (6, 40), (8, 36), (9, 25), (10, 1), (12, 1), (13, 1)]
  let gone := fun (k : Nat) => pages.any fun p => decide (k / 262144 / 1024 = p.1)
  { s with
    regs := s.regs.filter fun e => !gone e.1
    eff := []
    mem := []
    poison := []
    cores := []
    clusters := []
    launches := []
    later := []
    running := []
    deck := {}
    hbm := {}
    mesh := {}
    movers := []
    jobs := []
    fab := {}
    tally := {}
    errs := { reports := s.errs.reports, confirmed := s.errs.confirmed, memErrs := s.errs.memErrs }
    regions := s.regions.filterMap fun e => if e.2.phases.isEmpty then none else some (e.1, { phases := e.2.phases })
    module_ := { s.module_ with hbmOn := [], lchOn := [] } }

/-- A module trip with its DETAIL (R352, R404, R408, R413): every compute region, deck domain, HBM stack and
link chiplet is switched off, and every job partition is reset. DEDUCED, log entry 43. -/
def State.moduleTrip (s : State) (cause : Nat) : State :=
  if !s.module_.v36 || s.module_.tripped.isSome then s
  else
    let s := each (s.allJobs.map (·.1)) s State.resetJob
    let s := s.reportUnit 7 8 rootUnit cause
    let s := s.computeOff
    (s.modModule fun m => { m with tripped := some s.now, tripCause := cause, faultN := true }).alert 0

/-- The input leaves its operating range, which is a module trip (R404, R413). -/
def State.inputFault (s : State) (cause : Nat) : State :=
  if !s.module_.v36 then s else ((s.moduleTrip cause).alert 6).modModule fun m => { m with inputAt := some s.now }

/-- The removal of 36 V (R374, R394, R400, R404, R405): flash devices, fused floors and the pins' levels stay.
DESIGN CHOICE, log entry 2; DEDUCED, log entry 43. -/
def State.remove36 (s : State) : State :=
  { ({} : State) with
    flash0 := s.flash0
    flash1 := s.flash1
    sec := { ({} : Security) with floors := s.sec.floors }
    free := s.free
    pending := s.pending
    module_ := { ({} : Module) with rstN := s.module_.rstN, jtagEn := s.module_.jtagEn, refclk0 := s.module_.refclk0,
                                    refclk1 := s.module_.refclk1, volt := s.module_.volt, tap := s.module_.tap,
                                    tapOut := s.module_.tapOut } }

/-! ### References (R328, R330) -/

/-- The regions whose generator a region's is: the deck domains share one (R328). -/
def generator (r : Nat) : List Nat := if r < 30 then [r] else [30, 31, 32, 33, 34, 35]

/-- The sources that are live: a bit for each RGN instance, bits 36 and 37 for the adapters of CC0 and CC1. -/
def liveSource (live : Nat) (k : Nat) : Bool :=
  flag live (if k = 0x3E then 36 else if k = 0x3F then 37 else k)

/-- REFERENCE_SWITCH (R328): glitch-free, to the first live source of the list. DEDUCED, log entry 38. -/
def execReferenceSwitch (r : Fin 36) (live : BitVec 38) (s : State) : Ans :=
  if !s.regionOn r then .next s
  else match (refSources r).find? fun k => liveSource live.toNat k && s.sourceOn k with
  | none => .next s
  | some k =>
    if s.getF R.RGN.REF.SRC r = k && s.getF R.RGN.REF.TREE r = 0 then .next s
    else .next (each (generator r) s fun s g =>
      (((s.setF R.RGN.REF.SRC g k).setF R.RGN.REF.LOCKED g 1).setF R.RGN.REF.TREE g 0).addF R.RGN.REF.SWITCHES g 1)

/-- REFERENCE_LOSS (R328): no live source for 10 µs; the clock stops and is relocked from the tree.
DEDUCED, log entry 38. -/
def execReferenceLoss (r : Fin 36) (live : BitVec 38) (s : State) : Ans :=
  if !s.regionOn r || (refSources r).any (fun k => liveSource live.toNat k && s.sourceOn k) then .next s
  else
    let s := s.reportUnit 7 9 (wholeUnit 8 r) 0
    .next (each (generator r) s fun s g =>
      ((s.setF R.RGN.REF.LOCKED g 1).setF R.RGN.REF.TREE g 1).modRegion g fun x => { x with timeSet := false })

/-- TREE_CLOCK_SET (R330): the region's DEV_TIME is loaded on a tree edge, and the region returns to its
forwarded reference. The tree spans the compute regions. -/
def execTreeClockSet (r : Fin 36) (s : State) : Ans :=
  let st := s.getF R.RGN.POWER_CTL.STATE r
  if 30 ≤ r.val || !s.module_.v36 || !(st == 3 || st == 4 || st == 5) then .next s
  else .next ((s.lockRegion r).modRegion r fun x => { x with timeSet := true })

/-! ### DEV_TIME (R331, R332) -/

def State.joined (s : State) : Bool := s.getF R.LCH.FABRIC_ID.JOINED 0 == 1
def State.synced (s : State) : Bool := s.getF R.SEC.BOOT_STATUS.SYNCED 0 == 1

/-- PTP is seen on a management port. -/
def State.ptpSeen (s : State) : Bool := s.getF R.ROOT.MGMT_STATUS0.PTP_SEEN 0 == 1 || s.getF R.ROOT.MGMT_STATUS1.PTP_SEEN 0 == 1

/-- The cases in which DEV_TIME may step (R332): never with a job partition admitted or joined to a plane,
forward only, and once before the first compute region is powered since 36 V arrived or in the re-base of R379.
DEDUCED, log entry 38. -/
def State.mayStep (s : State) (ns : Nat) : Bool :=
  s.allJobs.isEmpty && !s.joined && decide (s.now ≤ ns) &&
    ((!s.ctl.stepped && !s.ctl.everOn) || (s.ctl.holdAdm && !s.synced))

/-- Every counter takes a new value. -/
def State.stepTime (s : State) (ns : Nat) : State := { s with time := ns * 2 ^ 32 }.modCtl fun c => { c with stepped := true }

/-- A write of ROOT.DEV_TIME. -/
def State.timeWrite (s : State) (ns : Nat) : State :=
  if !s.mayStep ns then s
  else
    let s := s.stepTime ns
    if s.ptpSeen && !s.ctl.holdAdm then s.setF R.SEC.BOOT_STATUS.SYNCED 0 1 else s

/-- DEV_TIME_STEP (R332). DEDUCED, log entry 38. -/
def execDevTimeStep (v : BitVec 64) (s : State) : Ans := .next (s.asActive fun s => s.timeWrite v.toNat)

/-- The rate offset in parts per 10^9 that a word codes, at most ±100,000 (R332). -/
def rateOf (adj : Nat) : Int := max (-100000) (min 100000 (sext 18 adj))

/-- One reference cycle of 10 ns in units of 2^-32 ns, at a rate (R331, R332). DESIGN CHOICE, log entry 3. -/
def cycleTime (adj : Nat) : Nat := (10 * 2 ^ 32 + (10 * 2 ^ 32 * rateOf adj) / 10 ^ 9).toNat

/-- RATE_WORD_CHANGE (R332): the written ADJ takes effect in every counter at its count; a count already passed
when it was written stands for the next 10 µs boundary. DEDUCED, log entry 38. -/
def execRateWordChange (s : State) : Ans :=
  .next (if s.module_.v36 && s.ctl.rateAt != 0 && decide (s.ctl.rateAt ≤ s.now) then
    ({ s with rate := s.getF R.ROOT.TIME_RATE.ADJ 0 }).modCtl fun c => { c with rateAt := 0 } else s)

/-- A write of TIME_RATE or TIME_RATE_AT arms the change. -/
def State.armRate (s : State) : State :=
  let t := s.getF R.ROOT.TIME_RATE_AT.T 0
  s.modCtl fun c => { c with rateAt := if s.now < t then t else (s.now / 10000 + 1) * 10000 }

/-! ### PTP (R333, R361, R362) -/

def mgmtUp (port : Nat) : Fld := if port = 0 then R.ROOT.MGMT_STATUS0.UP else R.ROOT.MGMT_STATUS1.UP
def mgmtSeen (port : Nat) : Fld := if port = 0 then R.ROOT.MGMT_STATUS0.PTP_SEEN else R.ROOT.MGMT_STATUS1.PTP_SEEN
def mgmtDrops (port : Nat) : Fld := if port = 0 then R.ROOT.MGMT_STATUS0.CAP_DROPS else R.ROOT.MGMT_STATUS1.CAP_DROPS

/-- The bound on the offset, given in ns (R333, R369). -/
def State.setBound (s : State) (bound : Nat) : State :=
  let b := min 65535 (ceilDiv bound 10)
  (s.setF R.ROOT.PTP_STATUS.BOUND 0 b).setF R.ROOT.PTP_STATUS.LOCKED 0 (if b ≤ 100 then 1 else 0)

/-- The operating system steers the rate word towards the grandmaster (R333): by how much is the model's free value, and
it takes effect in every counter at the next 10 µs boundary. DESIGN CHOICE, log entry 38. -/
def State.steer (s : State) (gm : Nat) : State :=
  if !s.synced then s
  else
    let s := s.setF R.ROOT.TIME_RATE.ADJ 0 (Config.steer ((s.now : Int) - (gm : Int)) s.rate).toNat
    s.modCtl fun c => { c with rateAt := (s.now / 10000 + 1) * 10000 }

/-- PTP_SYNC_RECEIVE (R333, R362): a Sync, with the grandmaster's time, shows on its port; that of the steering port
steers the rate word and sets the bound. The active chiplet steers from its own port again once Sync comes there.
DEDUCED, log entry 38. -/
def execPtpSyncReceive (port : Fin 2) (gm : BitVec 64) (bound : Nat) (s : State) : Ans :=
  if !s.module_.v36 || !(s.cc port).running then .next s
  else
    let s := (s.setF (mgmtUp port) 0 1).setF (mgmtSeen port) 0 1
    let s := s.modCtl fun c => { c with syncAt := Tab.set 0 c.syncAt port s.now }
    let s := if s.active = some port.val then s.setF R.ROOT.PTP_STATUS.PORT 0 port else s
    .next (if s.getF R.ROOT.PTP_STATUS.PORT 0 = port then (s.steer gm.toNat).setBound bound else s)

/-- PTP_OFFSET_BOUND_EXCEEDED (R333, R368). -/
def execPtpOffsetBoundExceeded (bound : Nat) (s : State) : Ans :=
  if !s.module_.v36 || bound ≤ 40000 then .next s
  else
    let s := ((s.setBound bound).reportUnit 7 0xB rootUnit 0).event 0 0 3
    .next (if s.hosted 10 0 then s.holdWrite else s)

/-- PTP_SYNC_LOSS (R362): no Sync on the steering port for 1 s; steering goes to the other port. -/
def execPtpSyncLoss (s : State) : Ans :=
  let p := s.getF R.ROOT.PTP_STATUS.PORT 0
  if !s.module_.v36 || s.getF (mgmtSeen p) 0 = 0 || s.now < Tab.get 0 s.ctl.syncAt p + 1000000000 then .next s
  else
    let s := (s.setF (mgmtSeen p) 0 0).reportUnit 9 8 (unitCode 0 0 p) 0
    .next (s.setF R.ROOT.PTP_STATUS.PORT 0 (1 - p))

/-! ### Fronts (R335, R336) -/

/-- A region switch-on is in progress (R335, R346). -/
def State.switching (s : State) : Bool :=
  (List.range 30).any fun r => let st := s.getF R.RGN.POWER_CTL.STATE r; st == 1 || st == 2 || st == 3

def State.frontPending (s : State) : Bool := s.getF R.RGN.FRONT_CTL.PENDING 0 == 1

/-- The refusal of a front, in the order of R335. -/
def State.frontRefusal (s : State) (target : Nat) : Option Nat :=
  if s.frontPending then some 1
  else if s.getF R.RGN.FRONT_TIME.T_F 0 < s.now + 100000 then some 2
  else if s.switching then some 3
  else if target = 0 || 4 < target then some 4
  else none

/-- Whether the front raises the voltage, and by how much, in mV. -/
def State.frontRise (s : State) : Nat := opVolt s.ctl.front - opVolt (s.getF R.RGN.FRONT_CTL.CURRENT 0)

/-- When the banks begin to ramp (R336). -/
def State.rampStart (s : State) : Nat :=
  let t := s.getF R.RGN.FRONT_TIME.T_F 0
  if s.frontRise = 0 then t + 1000 else t - (s.frontRise * 50 + 5000)

/-- ARM of a write of FRONT_CTL. DEDUCED, log entry 39. -/
def State.frontArm (s : State) (target : Nat) : State :=
  match s.frontRefusal target with
  | some c => s.setF R.RGN.FRONT_CTL.RESULT 0 c
  | none => (s.setF R.RGN.FRONT_CTL.PENDING 0 1).modCtl fun c => { c with front := target, ramp := false }

/-- CANCEL of a write of FRONT_CTL: only before the ramp begins, which a lowering front does 1 µs after T_F. Regions that
have changed their dividers by then return to the point whose voltage still stands. DEDUCED, log entry 39. -/
def State.frontCancel (s : State) : State :=
  if !s.frontPending || s.ctl.ramp || s.rampStart ≤ s.now then s
  else
    let op := s.getF R.RGN.FRONT_CTL.CURRENT 0
    let s := each ((List.range 30).filter s.regionOn) s fun s r => s.setF R.RGN.OP_STATUS.OP r op
    (s.setF R.RGN.FRONT_CTL.PENDING 0 0).setF R.RGN.FRONT_CTL.RESULT 0 5

/-- A write of RGN.FRONT_CTL: TARGET, then CANCEL, then ARM. DEDUCED, log entry 39. -/
def State.frontWrite (s : State) (v : Nat) : State :=
  let s := s.setF R.RGN.FRONT_CTL.TARGET 0 v
  let s := if flag v 4 then s.frontCancel else s
  if flag v 3 then s.frontArm (bits v 2 0) else s

/-- FRONT_ARM (R335). -/
def execFrontArm (v : BitVec 32) (s : State) : Ans := .next (s.asActive fun s => if flag v.toNat 3 then s.frontWrite v.toNat else s)

/-- FRONT_CANCEL (R336). -/
def execFrontCancel (s : State) : Ans := .next (s.asActive State.frontCancel)

/-- The compute regions that are on. -/
def State.onRegions (s : State) : List Nat := (List.range 30).filter s.regionOn

/-- The front completes 1 µs after T_F, once every region that is on runs at the target and the ramp has begun.
DEDUCED, log entry 39. -/
def State.frontCheck (s : State) : State :=
  if s.ctl.ramp && decide (s.getF R.RGN.FRONT_TIME.T_F 0 + 1000 ≤ s.now) && s.onRegions.all (fun r => s.getF R.RGN.OP_STATUS.OP r == s.ctl.front) then
    ((s.setF R.RGN.FRONT_CTL.PENDING 0 0).setF R.RGN.FRONT_CTL.RESULT 0 0).setF R.RGN.FRONT_CTL.CURRENT 0 s.ctl.front
  else s

/-- FRONT_RAMP_START (R336): every compute bank that is on takes the target's voltage; a lowering front ramps
only after its regions have changed their dividers. DEDUCED, log entry 39. -/
def execFrontRampStart (s : State) : Ans :=
  if !s.frontPending || s.now < s.rampStart then .next s
  else if s.frontRise = 0 && !(s.onRegions.all fun r => s.getF R.RGN.OP_STATUS.OP r == s.ctl.front) then .next s
  else
    let s := each s.onRegions s fun s r => s.setVolt r s.ctl.front
    .next (s.modCtl fun c => { c with ramp := true }).frontCheck

/-- FRONT_DIVIDER_CHANGE (R336): at the first boundary of the region's clock at or after T_F; never to a
frequency above what its voltage supports. DEDUCED, log entry 39. -/
def execFrontDividerChange (r : Fin 30) (s : State) : Ans :=
  if !s.frontPending || s.now < s.getF R.RGN.FRONT_TIME.T_F 0 || !s.regionOn r || (s.frontRise != 0 && !s.ctl.ramp) then .next s
  else .next (s.setF R.RGN.OP_STATUS.OP r s.ctl.front).frontCheck

end Sys2Proof.Machine
end

