-- ==== Sys2Proof/Machine/Power.lean ====
section
/-! DEFINITION. Stretch, pacing and the governors (R337, R343 to R345), switch-on (R346, R347), heat (R348 to R350),
phases and converters (R341, R342), module power (R351, R352), telemetry (R354). -/

namespace Sys2Proof.Machine

/-! ### Stretch and pace (R337, R343 to R345) -/

/-- Whether the limits allow a stretch after the given periods, newest first: at most one of any 4
consecutive, at most 12 of any 96. -/
def stretchOk (past : List Bool) : Bool := !(past.take 3).any id && decide ((past.take 95).countP id < 12)

/-- DROOP_STRETCH (R337): the monitor judges the supply, in mV, for the region's next period.
DEDUCED, log entry 40. -/
def execDroopStretch (r : Fin 30) (mv : Nat) (s : State) : Ans :=
  if !s.regionOn r then .next s
  else
    let droop := decide (mv + 35 < s.getF R.RGN.OP_STATUS.VTARGET r)
    let past := (s.region r).stretch
    let st := droop && stretchOk past
    let s := s.modRegion r fun x => { x with stretch := (st :: past).take 95 }
    .next (if st then (s.addF R.RGN.STRETCH.COUNT r 1).tallyDev 0xAC 1 else s)

/-- The pace level that a region's requests and PACE_FORCE ask for (R343). -/
def State.paceLevel (s : State) (r : Nat) : Nat :=
  [R.RGN.PACE.SQUALL, R.RGN.PACE.CURRENT, R.RGN.PACE.THERMAL, R.RGN.PACE.MODULE, R.RGN.PACE.ADMIT, R.RGN.PACE_FORCE.LEVEL].foldl
    (fun m f => max m (s.getF f r)) 0

/-- Whether issue is paced in cycle i of a group at level p (R343). -/
def paced (p i : Nat) : Bool := decide (i * p / 16 < (i + 1) * p / 16)

/-- PACE_GROUP_START (R343): a new group of 16 cycles takes the level. DEDUCED, log entry 40. -/
def execPaceGroupStart (r : Fin 30) (s : State) : Ans :=
  .next (if s.regionOn r then s.modRegion r fun x => { x with level := s.paceLevel r } else s)

/-- Move a request of RGN.PACE up or down by 1, within 0 to 15. DEDUCED, log entry 40. -/
def State.stepPace (s : State) (f : Fld) (r : Nat) (up : Bool) : State :=
  s.setF f r (if up then min 15 (s.getF f r + 1) else s.getF f r - 1)

def State.squallThresh (s : State) (r : Nat) : Nat := max 1 (s.getF R.RGN.SQUALL.THRESH r)

/-- SQUALL_TRIGGER (R344): a slope, in A/µs, above the threshold. DEDUCED, log entry 40. -/
def execSquallTrigger (r : Fin 30) (slope : Nat) (s : State) : Ans :=
  if !s.regionOn r || slope ≤ s.squallThresh r then .next s
  else
    let s := s.setF R.RGN.PACE.SQUALL r (max (s.getF R.RGN.PACE.SQUALL r) (s.getF R.RGN.SQUALL.LEVEL r))
    .next ((s.addF R.RGN.SQUALL.EVENTS r 1).modRegion r fun x => { x with lowSince := none })

/-- SQUALL_DECAY (R344): once the slope has stayed below the threshold for 1 µs the request falls by 1, and by
1 each µs after. DEDUCED, log entry 40. -/
def execSquallDecay (r : Fin 30) (slope : Nat) (s : State) : Ans :=
  if !s.regionOn r then .next s
  else if s.squallThresh r ≤ slope then .next (s.modRegion r fun x => { x with lowSince := none })
  else match (s.region r).lowSince with
  | none => .next (s.modRegion r fun x => { x with lowSince := some s.now })
  | some t =>
    if s.now < t + 1000 then .next s
    else .next ((s.stepPace R.RGN.PACE.SQUALL r false).modRegion r fun x => { x with lowSince := some s.now })

/-- The current limit of a cluster region in A (R345). -/
def State.ampLimit (s : State) (r : Nat) : Nat := min (maxAmps r) (12 * s.getF R.RGN.PHASES.HEALTHY r)

/-- CURRENT_GOVERNOR_TICK (R345): the 10 µs average of a compute region, in 0.1 A; 90 % of its maximum is noted for
switch-on (R346). Only a cluster region has a governor. DEDUCED, log entry 40. -/
def execCurrentGovernorTick (r : Fin 30) (amps : Nat) (s : State) : Ans :=
  if !s.regionOn r then .next s
  else
    let lim := s.ampLimit r
    let s := s.modRegion r fun x => { x with amps := amps, lastHigh := if 9 * maxAmps r < amps then some s.now else x.lastHigh }
    .next (if 24 ≤ r.val then s else if 10 * lim < amps then s.stepPace R.RGN.PACE.CURRENT r true
      else if amps < 9 * lim then s.stepPace R.RGN.PACE.CURRENT r false else s)

/-! ### Switching a region on (R346, R347) -/

/-- The threshold of the module power governor in W (R341, R351). DEDUCED, log entry 40. -/
def State.governor (s : State) : Nat := 14000 - 200 * (68 - (72 - s.module_.convBad.length))

/-- A neighbour blocks a switch-on: over 90 % of its maximum in the last 10 µs, or a squall request (R346). -/
def State.blocks (s : State) (n : Nat) : Bool :=
  s.getF R.RGN.PACE.SQUALL n != 0 || (s.region n).lastHigh.any fun t => decide (s.now ≤ t + 10000)

/-- What R346 asks of a switch-on. -/
def State.mayGrant (s : State) (r : Nat) : Bool :=
  !s.frontPending && decide (s.module_.power + 150 ≤ s.governor) && !(neighbours r).any s.blocks

/-- One more deferral. -/
def State.defer (s : State) (r : Nat) : State := (s.setF R.RGN.POWER_CTL.STATE r 1).addF R.RGN.POWER_CTL.DEFERS r 1

/-- A region's bank has its minimum of healthy phases (R342). -/
def State.bankOk (s : State) (r : Nat) : Bool := let (t, _, m) := bankOf r; decide (m ≤ t - (s.region r).phases.length)

/-- A region that is off may be asked on: not dark, its bank able to carry it (R342), and 100 ms after heat (R349). -/
def State.mayAsk (s : State) (r : Nat) : Bool :=
  s.bankOk r && s.module_.v36 && s.module_.tripped.isNone && s.getF R.RGN.POWER_CTL.STATE r == 0 &&
    !(s.region r).offAt.any fun t => decide (s.now < t + 100000000)

/-- A switch-on is requested (R346): granted or deferred. DEDUCED, log entry 41. -/
def State.switchOn (s : State) (r : Nat) : State :=
  let s := if r < 24 then s.setF R.RGN.POWER_CTL.ON_REQ r 1 else s
  if !s.mayAsk r then s
  else
    let s := s.setF R.RGN.POWER_CTL.DEFERS r 0
    if s.mayGrant r then s.startRamp r
    else (s.defer r).modRegion r fun x => { x with ask := some s.now, late := false, paced := [] }

/-- SWITCH_ON_REQUEST (R346). -/
def execSwitchOnRequest (r : Fin 30) (s : State) : Ans := .next (s.asActive fun s => s.switchOn r)

/-- The ADMIT requests that a switch-on raised fall 20 µs after its ramp ends (R346). DEDUCED, log entry 41. -/
def State.releaseAdmit (s : State) (r : Nat) : State :=
  match (s.region r).rampEnd with
  | some t =>
    if s.now < t + 20000 then s else s.unpace r
  | none => s

/-- SWITCH_ON_RECHECK (R346): every 10 µs; after 1 ms of deferral the blocking neighbours are paced.
DEDUCED, log entry 41. -/
def execSwitchOnRecheck (r : Fin 30) (s : State) : Ans :=
  match (s.region r).ask with
  | none => .next (s.releaseAdmit r)
  | some t =>
    let n := s.getF R.RGN.POWER_CTL.DEFERS r
    if n < 255 && s.now < t + 10000 * n then .next s
    else
      let s := if s.now < t + 1000000 || (s.region r).late then s
        else
          let l := (neighbours r).filter s.blocks
          let s := each l s fun s n => s.setF R.RGN.PACE.ADMIT n (max 4 (s.getF R.RGN.PACE.ADMIT n))
          (s.modRegion r fun x => { x with late := true, paced := l }).reportUnit 7 0xA (wholeUnit 8 r) 0
      .next (if s.mayGrant r then s.startRamp r else s.defer r)

/-- REGION_RAMP_END (R347): 50 µs after the grant; the region locks its clock. DEDUCED, log entry 41. -/
def execRegionRampEnd (r : Fin 30) (s : State) : Ans :=
  match (s.region r).rampEnd with
  | none => .next s
  | some t =>
    if s.getF R.RGN.POWER_CTL.STATE r != 2 || s.now < t then .next s
    else
      let op := if s.getF R.RGN.FRONT_CTL.CURRENT 0 = 0 then 4 else s.getF R.RGN.FRONT_CTL.CURRENT 0
      .next (((s.setF R.RGN.POWER_CTL.STATE r 3).setVolt r op).lockRegion r)

/-- REGION_READY (R347): locked, with its DEV_TIME set from the tree; its reset is released.
DEDUCED, log entry 41. -/
def execRegionReady (r : Fin 30) (s : State) : Ans :=
  if s.getF R.RGN.POWER_CTL.STATE r != 3 || !(s.region r).timeSet then .next s
  else .next ((s.regionReady r).releaseAdmit r)

/-! ### Heat (R348 to R350) -/

def sensorsOf (r : Nat) : Nat := if r < 24 then 8 else if r < 30 then 4 else 2

/-- The sealed thermal trip in °C: at most 105 (R369). -/
def State.tripC (s : State) : Nat := min 105 (s.getF R.ROOT.THERM_TRIP.TRIP_C 0)

/-- A threshold of RGN.THERM_CTL: at or above the trip it acts as the trip less 1. -/
def State.thermC (s : State) (f : Fld) (r : Nat) : Nat := min (s.getF f r) (s.tripC - 1)

/-- The temperature of a region in 0.0625 °C. -/
def State.temp (s : State) (r : Nat) : Int := sext 16 (s.getF R.RGN.THERM.TEMP r)

/-- THERMAL_SAMPLE (R348, R398): the highest of the readings, in 0.0625 °C, but for a sensor under
calibration. -/
def execThermalSample (r : Fin 36) (temps : List Int) (s : State) : Ans :=
  let l := ((temps.take (sensorsOf r)).zipIdx.filter fun p => (s.region r).calib != some p.2).map (·.1)
  match l with
  | [] => .next s
  | t :: ts =>
    if !s.module_.v36 then .next s
    else
      let t := ts.foldl max t
      let s := s.setF R.RGN.THERM.TEMP r (wrapInt 16 t)
      let peak := if (s.region r).sampled then max t (sext 16 (s.getF R.RGN.THERM.PEAK r)) else t
      let s := (s.setF R.RGN.THERM.PEAK r (wrapInt 16 peak)).modRegion r fun x => { x with sampled := true }
      let hot := decide (((16 * s.thermC R.RGN.THERM_CTL.OFF_C r : Nat) : Int) ≤ t)
      .next (s.modRegion r fun x => { x with hotSince := if hot then some (x.hotSince.getD s.now) else none })

/-- THERMAL_PACE_TICK (R348): every 100 µs. -/
def execThermalPaceTick (r : Fin 30) (s : State) : Ans :=
  if !s.regionOn r then .next s
  else
    let p : Int := ((16 * s.thermC R.RGN.THERM_CTL.PACE_C r : Nat) : Int)
    let s := if p < s.temp r then s.stepPace R.RGN.PACE.THERMAL r true
      else if s.temp r < p - 48 then s.stepPace R.RGN.PACE.THERMAL r false else s
    .next (s.modRegion r fun x =>
      { x with fullSince := if s.getF R.RGN.PACE.THERMAL r = 15 then some (x.fullSince.getD s.now) else none })

/-- Heat asks for a switch-off (R349). -/
def State.tooHot (s : State) (r : Nat) : Bool :=
  ((s.region r).hotSince.any fun t => decide (t + 1000000 ≤ s.now)) ||
    (s.region r).fullSince.any fun t => decide (t + 10000000 ≤ s.now)

/-- A region is switched off for heat; it may be asked on again 100 ms later (R349). -/
def State.heatOff (s : State) (r : Nat) : State := (s.regionOff r 0).modRegion r fun x => { x with offAt := some s.now }

/-- HEAT_SWITCH_OFF (R349): the region drains until its group commits, its logical cluster moves to a free
standby cluster, and it is switched off; it returns as a standby cluster. A ranked cluster that no job partition holds
gives its rank to a standby cluster; with none free the region stays at its pace. DEDUCED, log entry 43. -/
def execHeatSwitchOff (r : Fin 24) (s : State) : Ans :=
  let st := s.getF R.RGN.POWER_CTL.STATE r
  if !s.regionOn r || !(st == 5 || s.tooHot r) then .next s
  else
    let busy := (s.jobOf r).isSome
    if (busy || s.role r == 0) && s.freeStandby.isNone then .next (s.setF R.RGN.POWER_CTL.STATE r 4)
    else
      let s := if st = 5 then s else (s.setF R.RGN.POWER_CTL.STATE r 5).reportUnit 7 5 (wholeUnit 8 r) 0
      if !busy then
        match s.role r, s.freeStandby with
        | 0, some d => .next (((s.setRole r 1).setRole d 0).heatOff r)
        | _, _ => .next (s.heatOff r)
      else if !s.atCommit (s.groupOf r) then .next s
      else
        let s := s.commitForMove r
        match (s.jobOf r).bind fun id => (s.job id).map fun j => (id, j), s.freeStandby with
        | some (id, j), some d =>
          let s := each (s.liveSites (s.groupOf r)) s State.stopForReplay
          .next ((s.moveCluster id j r d 1).heatOff r)
        | _, _ => .next s

/-- A cluster region goes dark: its cores die as their heartbeats stop (R311), and it is quarantined unless triggers are
only recorded (R320, R325). DEDUCED, log entry 43. -/
def State.darkCluster (s : State) (r : Nat) : State :=
  let s := (s.regionOff r 6).alert 3
  let s := s.reportUnit 8 6 (wholeUnit 1 r) (s.recDetail r 0 false)
  if s.getF R.ERR.QUAR_CTL.AUTO 24 = 0 then s
  else
    let s := (s.setRole r 2).modModule fun m => { m with quarantined := m.quarantined ++ [wholeUnit 1 r] }
    (s.blazeField (wholeUnit 1 r) 2).flagRecords (fun x => x.dev == s.devId && (x.unit == wholeUnit 1 r || x.unit == wholeUnit 8 r)) 8

/-- A network domain goes dark (R342): every job partition is reset, and the device stays out of service
until the next cruise. What the mesh carries towards its routers is discarded, and so are their receive buffers (R340). -/
def State.darkNetwork (s : State) (r : Nat) : State :=
  let s := each (s.allJobs.map (·.1)) s State.resetJob
  let s := s.modMesh fun m => { m with
    toks := m.toks.filter fun t => t.target.region != r
    bytes := m.bytes.filter fun b => 24 + b.dstC / 4 != r
    fill := m.fill.filter fun e => 24 + e.1 / 64 / 4 != r }
  ((s.regionOff r 6).alert 3).modModule fun m =>
    { m with idle := true, quarantined := m.quarantined ++ [wholeUnit 8 r] }

/-- A region has its supply: it ramps, locks, is on or drains (R347, R356). -/
def State.powered (s : State) (r : Nat) : Bool :=
  let st := s.getF R.RGN.POWER_CTL.STATE r
  s.module_.v36 && (st == 2 || st == 3 || st == 4 || st == 5)

/-- THERMAL_TRIP (R350, R406, R413): the hottest sensor at or above the sealed trip. -/
def execThermalTrip (r : Fin 36) (s : State) : Ans :=
  if !s.module_.v36 || s.module_.tripped.isSome || !s.powered r || s.temp r < ((16 * s.tripC : Nat) : Int) then .next s
  else
    let s := s.reportUnit 7 6 (wholeUnit 8 r) 0
    let s := (s.modModule fun m => { m with thermN := true }).alert 1
    .next (if r.val < 24 then s.darkCluster r else if r.val < 30 then s.darkNetwork r else s.moduleTrip 0)

/-! ### Phases and converters (R341, R342) -/

/-- PHASE_FAILURE (R342). -/
def execPhaseFailure (r : Fin 36) (phase : Fin 48) (s : State) : Ans :=
  let (total, need, least) := bankOf r
  if !s.module_.v36 || total ≤ phase.val || (s.region r).phases.contains phase.val then .next s
  else
    let s := s.modRegion r fun x => { x with phases := x.phases ++ [phase.val] }
    let n := total - (s.region r).phases.length
    let s := ((s.setF R.RGN.PHASES.HEALTHY r n).addF R.RGN.PHASES.FAILED r 1).reportUnit 7 1 (unitCode 8 r phase) 0
    let s := s.blazeField (unitCode 8 r phase) 7
    if need ≤ n || !s.powered r then .next s
    else if least ≤ n then .next (s.reportUnit 7 2 (wholeUnit 8 r) 0)
    else
      let s := s.reportUnit 7 3 (wholeUnit 8 r) 0
      .next (if r.val < 24 then s.darkCluster r else if r.val < 30 then s.darkNetwork r else s.moduleTrip 0)

/-- CONVERTER_FAILURE (R341, R413). -/
def execConverterFailure (n : Fin 72) (s : State) : Ans :=
  if !s.module_.v36 || s.module_.convBad.contains n.val then .next s
  else
    let s := (s.modModule fun m => { m with convBad := m.convBad ++ [n.val] }).alert 2
    .next ((s.reportUnit 7 4 (unitCode 0 0 n) 0).blazeField (unitCode 0 0 n) 8)

/-! ### Module power (R351, R352) -/

/-- MODULE_POWER_GOVERNOR (R351): the 1 ms input average in W. The requests rise by 1 every 100 µs while it is above the
threshold, and fall by 1 every 1 ms while it stays below 13,500 W. DEDUCED, log entry 40. -/
def execModulePowerGovernor (watts : Nat) (s : State) : Ans :=
  if !s.module_.v36 then .next s
  else
    let s := s.modModule fun m => { m with power := watts }
    if s.governor < watts then
      let due := s.module_.govUp.all fun t => decide (t + 100000 ≤ s.now)
      let s := if due then (each (List.range 24) s fun s r => s.stepPace R.RGN.PACE.MODULE r true).modModule fun m => { m with govUp := some s.now } else s
      let s := s.modModule fun m => { m with govLow := none }
      .next (if s.module_.govSince then s
        else (s.modModule fun m => { m with govSince := true }).reportUnit 7 7 rootUnit 0)
    else if watts < 13500 then
      let since := s.module_.govLow.getD s.now
      let due := decide (since + 1000000 ≤ s.now)
      let s := if due then each (List.range 24) s fun s r => s.stepPace R.RGN.PACE.MODULE r false else s
      let s := s.modModule fun m => { m with govLow := some (if due then s.now else since) }
      .next (if (List.range 24).all fun r => s.getF R.RGN.PACE.MODULE r == 0 then s.modModule fun m => { m with govSince := false } else s)
    else .next (s.modModule fun m => { m with govLow := none })

/-- The sealed power trip in W: at most 14,500 (R369). -/
def State.powerTrip (s : State) : Nat := min 14500 (s.getF R.ROOT.POWER_TRIP.WATTS 0)

/-- MODULE_POWER_TRIP (R352): the 50 µs input average in W. -/
def execModulePowerTrip (watts : Nat) (s : State) : Ans := .next (if s.powerTrip < watts then s.moduleTrip 0 else s)

/-- MODULE_RESTART (R352, R404, R408): no sooner than 1 s after the trip, nor than 100 ms after the input was last seen out
of its operating range, from the powering of regions on; a reference input is present again. DEDUCED, log entry 43. -/
def execModuleRestart (s : State) : Ans :=
  match s.module_.tripped with
  | none => .next s
  | some t =>
    if !s.module_.v36 || s.now < t + 1000000000 || s.module_.inputAt.any (fun u => decide (s.now < u + 100000000)) then .next s
    else
      let s := s.modModule fun m => { m with tripped := none, refclk0 := m.refclk0 || !m.refclk1 }
      .next (s.setF R.SEC.BOOT_STATUS.STAGE 0 2)

/-! ### Telemetry (R276, R354) -/

/-- The RGN_N page and attached domain of a power domain (R354). -/
def attached : List (Nat × List Nat) :=
  [(24, [36, 37, 38, 64, 52, 53, 54]), (25, [39, 40]), (26, [41, 42, 43, 65, 57, 58, 59]), (27, [44, 45, 46, 62, 55, 56]),
   (28, [47, 48]), (29, [49, 50, 51, 63, 60, 61])]

/-- The energy of 1 ms at a current in 0.1 A and a supply in mV, in µJ. DESIGN CHOICE, log entry 42. -/
def energyUj (amps mv : Nat) : Nat :=
  amps * mv / 10 + (if amps * mv % 10 ≠ 0 && Config.energyUp amps mv then 1 else 0)

/-- One domain's part of an interval. DESIGN CHOICE, log entry 42. -/
def State.sampleDomain (s : State) (i amps mv : Nat) : State :=
  let e := energyUj amps mv
  let s := if i < 36 then
      ((s.setF R.RGN.SUPPLY.CURRENT i amps).setF R.RGN.SUPPLY.VOLT i mv).addF R.RGN.ENERGY.UJ i e
    else
      each attached s fun s p => match p.2.idxOf? i with
        | none => s
        | some n => ((s.setF (R.RGN.ATT_SUPPLYn.CURRENT.at 4 n) p.1 amps).setF (R.RGN.ATT_SUPPLYn.VOLT.at 4 n) p.1 mv).addF
            (R.RGN.ATT_ENERGYn.UJ.at 8 n) p.1 e
  s.modTally fun t => { t with energy := Tab.set 0 t.energy i (satAdd (2 ^ 64 - 1) (Tab.get 0 t.energy i) e) }

/-- TELEMETRY_INTERVAL (R354): the average current, in 0.1 A, and supply, in mV, of each of the 66 domains, and of
the blades as a 67th, which shows whether the input lies in its operating range (R403). DESIGN CHOICE, log entry 42. -/
def execTelemetryInterval (samples : List (Nat × Nat)) (s : State) : Ans :=
  if !s.module_.v36 || s.now < s.module_.nextPower then .next s
  else
    let s := each ((samples.take 66).zipIdx) s fun s p => s.sampleDomain p.2 (p.1.1 % 65536) (p.1.2 % 4096)
    let s := match samples[66]? with
      | some (a, v) =>
        let v := v % 65536
        s.modModule fun m => { m with volt := v, amps := a % 65536, power := (a % 65536) * v / 10000,
                                      inputAt := if v < 32000 || 40000 < v then some s.now else m.inputAt }
      | none => s
    .next (s.modModule fun m => { m with nextPower := (s.now / 1000000 + 1) * 1000000 })

end Sys2Proof.Machine
end

