-- ==== Sys2Proof/Machine/Verify.lean ====
section
/-! DEFINITION. Signed objects and their checks (R388 to R392), keys (R377, R389, R393), measurements (R394), the
control lease (R357, R358). -/

namespace Sys2Proof.Machine

/-! ### Objects (R388) -/

/-- The number that n bytes at an offset of an object spell. -/
def fieldAt (b : List Byte) (off n : Nat) : Nat := leNat ((b.drop off).take n)

def objType (b : List Byte) : Nat := fieldAt b 4 1
def objSigner (b : List Byte) : Nat := fieldAt b 5 1
def objSvn (b : List Byte) : Nat := fieldAt b 8 4
def objLen (b : List Byte) : Nat := fieldAt b 0xC 4
def objSerial (b : List Byte) : Nat := fieldAt b 0x10 8
def objAfter (b : List Byte) : Nat := fieldAt b 0x20 8
def objBody (b : List Byte) : List Byte := (b.drop 128).take (objLen b)
def objSize (b : List Byte) : Nat := 128 + ceilTo 8 (objLen b) + 4627
def objSig (b : List Byte) : List Byte := (b.drop (128 + ceilTo 8 (objLen b))).take 4627

/-- The digest M of an object (R388). -/
def objDigest (b : List Byte) : List Byte := sha3_512 (b.take 128 ++ objBody b)

/-- Body lengths that a type fixes (R384, R386, R389, R390, R395, R396). -/
def bodyLenOk (type n : Nat) (body : List Byte) : Bool :=
  match type with
  | 1 => n == 8
  | 4 => decide (n ≤ 128 + 0x80000 + 0x10000 + 128)
  | 8 => n == 0x2D0 + 16 * fieldAt body 0x14 4 && decide (fieldAt body 0x14 4 ≤ 8192)
  | 9 => n == 144
  | 0xA => n == 2600
  | 0xB => n == 2608
  | 0xC => n == 864
  | _ => true

/-- Whether SIGNER is one that R390 gives the type. -/
def signerOk (type signer : Nat) : Bool :=
  match type with
  | 8 => signer == 3 || signer == 4 || signer == 5
  | 9 => signer == 2
  | 0xA => signer == 0
  | 0xB => signer == 3
  | 0xC => signer == 4 || signer == 5
  | _ => signer == 1

/-- SERIAL may be 0 (R390). -/
def anyModule (type : Nat) : Bool := decide (type ≤ 7) || type == 0xA

/-! ### Verification (R391) -/

/-- The SVN floor of a type in a chiplet (R392): fused at manufacture, or raised since. DESIGN CHOICE, log entry 4. -/
def State.svnFloor (s : State) (cc type : Nat) : Nat := max (Config.svnFloor cc type).toNat (Tab.get 0 s.sec.floors type)

/-- The key of a chiplet that KEY_DIGEST names, with its permission and SIGNER (R389, R391 check 0x2). -/
def State.keyFor (s : State) (cc : Nat) (b : List Byte) : Option Key :=
  (s.cc cc).keys.find? fun k => k.digest == (b.drop 0x40).take 64 && flag k.mask (objType b) &&
    signerOk (objType b) (objSigner b) && (if k.signer = 1 then decide (1 ≤ objSigner b) && decide (objSigner b ≤ 3) else k.signer == objSigner b)

/-- A limits record's values lie within their hardware maxima (R375, R390). -/
def limitsOk (body : List Byte) : Bool :=
  decide (fieldAt body 0 4 ≤ 14500) && decide (fieldAt body 4 1 ≤ 105) && decide (fieldAt body 5 1 ≤ 200) &&
    decide (fieldAt body 6 1 ≤ 250)

/-- A licence names a defined capability and parameter, is for this module's chiplets, and is not cancelled
(R396, R397). -/
def State.licenceOk (s : State) (body : List Byte) : Bool :=
  let cap := fieldAt body 0 1
  let par := fieldAt body 4 4
  decide (1 ≤ cap) && decide (cap ≤ 6) && (if cap = 4 then decide (1 ≤ par) && decide (par ≤ 2048) else par == 0) &&
    (body.drop 16).take 64 == sha3_512 (Config.idKey 0) && (body.drop 80).take 64 == sha3_512 (Config.idKey 1) &&
    !s.sec.cancelled.contains (fieldAt body 8 8)

/-- The checks of R391 in order, of an object of a type by a chiplet; the code. DEDUCED, log entry 46. -/
def State.verify (s : State) (cc type : Nat) (b : List Byte) : Nat :=
  let body := objBody b
  let nb := fieldAt b 0x18 8
  let na := fieldAt b 0x20 8
  if fieldAt b 0 4 ≠ 0x4F53574E || objType b ≠ type || b.length ≠ objSize b || !bodyLenOk type (objLen b) body then 1
  else match s.keyFor cc b with
  | none => 2
  | some k =>
    if !Config.mldsaVerify k.key (objDigest b) (objSig b) then 3
    else if !(decide (objSerial b = Config.serial.toNat) || (objSerial b == 0 && anyModule type)) then 4
    else if type ≤ 7 && objSvn b < s.svnFloor cc type then 5
    else if (nb ≠ 0 || na ≠ 2 ^ 64 - 1) && !(s.synced && decide (nb ≤ s.now) && decide (s.now ≤ na)) then 6
    else if (type = 1 && !limitsOk body) || (type = 9 && !s.licenceOk body) then 7
    else if type = 9 && !flag (fieldAt body 1 1) 0 && 32 ≤ s.sec.lics.length then 8
    else 0

/-- Verify an object: a failure adds 1 to SEC.VERIFY_FAILS (R391). DEDUCED, log entry 46. -/
def State.check (s : State) (cc type : Nat) (b : List Byte) : State × Nat :=
  let r := s.verify cc type b
  (if r = 0 then s else s.addF R.SEC.VERIFY_FAILS.COUNT 0 1, r)

/-! ### Measurements (R394) -/

/-- Extend a measurement register of a chiplet by a digest. -/
def State.extend (s : State) (cc i : Nat) (d : List Byte) : State :=
  s.modCc cc fun c => { c with meas := Tab.set [] c.meas i (sha3_512 (padTo 64 (Tab.get [] c.meas i) ++ padTo 64 d)) }

/-- A measurement register's 64 bytes. -/
def State.measOf (s : State) (cc i : Nat) : List Byte := padTo 64 (Tab.get [] (s.cc cc).meas i)

/-! ### The lease (R357) -/

def State.setLease (s : State) (p cc : Nat) : State :=
  s.modCtl fun c => { c with leases := (c.leases.filter fun e => e.1 != p) ++ [(p, ⟨cc, s.now + 400000, false⟩)] }

/-- A chiplet claims the lease in each powered port chiplet, each of which grants it when it is free, expired or
the claimer's. -/
def State.grant (s : State) (cc : Nat) : State :=
  each s.ctl.powered s fun s p => if (s.leaseOf p).all fun l => l.holder == cc then s.setLease p cc else s

/-- Powered port chiplets grant the lease to different chiplets: both release it, CC0 claims again at once, and
a record is raised (R357, R370). -/
def State.leaseConflict (s : State) : State :=
  let l := (s.ctl.powered.filterMap fun p => (s.leaseOf p).map (·.holder)).dedup
  if l.length < 2 then s
  else
    let s := (s.modCtl fun c => { c with leases := [] }).reportUnit 9 2 rootUnit 0
    s.grant 0

/-- ROOT.CTRL_STATUS.ACTIVE follows the lease, and the PTP port that DEV_TIME is steered from with it (R362). -/
def State.showActive (s : State) : State :=
  match s.active with
  | some cc => if s.activeCc = cc then s else (s.setF R.ROOT.CTRL_STATUS.ACTIVE 0 cc).setF R.ROOT.PTP_STATUS.PORT 0 cc
  | none => s

/-- A write of CLAIM by a chiplet. -/
def State.claim (s : State) (cc : Nat) : State :=
  if !s.module_.v36 || (s.cc cc).failed then s else ((s.grant cc).leaseConflict).showActive

/-- A write of RELEASE by a chiplet. -/
def State.unclaim (s : State) (cc : Nat) : State :=
  s.modCtl fun c => { c with leases := c.leases.map fun e => if e.2.holder = cc then (e.1, { e.2 with expiry := min e.2.expiry s.now, released := true }) else e }

/-! ### Flash -/

def State.flash (s : State) (cc : Nat) : Flash := if cc = 0 then s.flash0 else s.flash1
def State.setFlash (s : State) (cc : Nat) (f : Flash) : State := if cc = 0 then { s with flash0 := f } else { s with flash1 := f }
def Flash.bank (f : Flash) (b : Nat) : FlashBank := if b = 0 then f.bank0 else f.bank1
def Flash.setBank (f : Flash) (b : Nat) (k : FlashBank) : Flash := if b = 0 then { f with bank0 := k } else { f with bank1 := k }

/-- The preferred bank (R400). -/
def State.prefBank (s : State) : Nat := s.getF R.SEC.BOOT_CTL.PREF_BANK 0

/-- The first of two banks, the preferred one first, whose object verifies: its bank and the object; the last
part is the code of the last failure. -/
def State.fromFlash (s : State) (cc type : Nat) (f : FlashBank → List Byte) : State × Option (Nat × List Byte) × Nat :=
  let p := s.prefBank
  let a := f ((s.flash cc).bank p)
  let b := f ((s.flash cc).bank (1 - p))
  match s.check cc type a with
  | (s, 0) => (s, some (p, a), 0)
  | (s, _) =>
    match s.check cc type b with
    | (s, 0) => (s, some (1 - p, b), 0)
    | (s, c) => (s, none, c)

end Sys2Proof.Machine
end

