-- ==== Sys2Proof/Machine/Boot.lean ====
section
/-! DEFINITION. Power-on (R376 to R380), cruise (R381 to R383), the blaze map (R384, R385), cluster firmware (R386,
R387), the security engine's commands (R385, R392, R394 to R397). -/

namespace Sys2Proof.Machine

/-! ### The control ROM (R377, R378) -/

/-- The key of a key certificate (R389): SIGNER 1 stands for the certified keys, which the type tells apart. -/
def certKey (b : List Byte) : Key :=
  let k := (objBody b).take 2592
  { digest := sha3_512 k, key := k, mask := fieldAt (objBody b) 2592 4, signer := 1 }

/-- The key of an identity certificate, permitted types 0x08 and 0x0C. -/
def idKey (b : List Byte) : Key :=
  let k := (objBody b).take 2592
  { digest := sha3_512 k, key := k, mask := 0x1100, signer := if fieldAt (objBody b) 2592 1 = 0 then 4 else 5 }

/-- Accept the certificates of a type that verify, each from the preferred bank or else from the other. -/
def State.takeCerts (s : State) (cc type : Nat) (l : FlashBank → List (List Byte)) (f : List Byte → Key) : State :=
  let count := max (l (s.flash cc).bank0).length (l (s.flash cc).bank1).length
  each (List.range count) s fun s n =>
    match s.fromFlash cc type fun b => (l b).getD n [] with
    | (s, some (_, b), _) => s.modCc cc fun c => { c with keys := c.keys ++ [f b] }
    | (s, none, _) => s

/-- Steps 1 and 2: the root key must be the one fused, and it signs key certificates only. -/
def State.loadKeys (s : State) (cc : Nat) : State :=
  let f := s.flash cc
  let root : Key := { digest := sha3_512 f.rootKey, key := f.rootKey, mask := 2 ^ 0xA, signer := 0 }
  let s := s.modCc cc fun c => { c with keys := if root.digest = Config.rootDigest cc then [root] else [] }
  (s.takeCerts cc 0xA (·.keyCerts) certKey).takeCerts cc 0xB (·.idCerts) idKey

/-- Show the outcome of a boot object. -/
def State.bootFail (s : State) (obj code : Nat) : State :=
  (s.setF R.SEC.BOOT_STATUS.FAIL_OBJ 0 obj).setF R.SEC.BOOT_STATUS.FAIL_CODE 0 code

/-- The ROM that holds the lease writes the governors and seals (R374, R377). -/
def State.sealWith (s : State) (rec_ : List Byte) : State :=
  let b := objBody rec_
  let s := s.setF R.ROOT.POWER_TRIP.WATTS 0 (fieldAt b 0 4)
  let s := s.setF R.ROOT.THERM_TRIP.TRIP_C 0 (fieldAt b 4 1)
  let s := s.setF R.ROOT.MGMT_EGRESS_CAP.CAP 0 (fieldAt b 6 1)
  let s := s.setF R.ROOT.LIMITS_ID.DIGEST 0 (fieldAt (objDigest rec_) 0 8)
  let s := s.modSec fun x => { x with limits := b }
  (s.setF R.ROOT.SEAL.SEALED 0 1).event 0 0 1

/-- A verified stage 1 is measured and started, and starts the operating system that it verifies (R376, R377,
R394). -/
def State.startStage1 (s : State) (cc : Nat) (extra : List (List Byte)) (img : List Byte) : State :=
  let s := each (extra ++ [objDigest img]) s fun s d => s.extend cc 0 d
  let s := s.modCc cc fun c => { c with started := true, waiting := false }
  let s := s.modSec fun x => { x with image := Tab.set 0 x.image 2 (objSvn img) }
  let s := if s.getF R.SEC.BOOT_STATUS.STAGE 0 = 0 then s.setF R.SEC.BOOT_STATUS.STAGE 0 1 else s
  match s.fromFlash cc 3 (·.os) with
  | (s, none, c) => s.bootFail 3 c
  | (s, some (_, os), _) =>
    let s := s.extend cc 1 (objDigest os)
    let s := s.modSec fun x => { x with image := Tab.set 0 x.image 3 (objSvn os) }
    let s := s.modCc cc fun c => { c with running := true, waitUntil := s.now + 10000000000 }
    let s := s.setF R.ROOT.CTRL_STATUS.STANDBY_READY 0 (if (s.cc 0).running && (s.cc 1).running then 1 else 0)
    if s.getF R.SEC.BOOT_STATUS.STAGE 0 = 1 then s.setF R.SEC.BOOT_STATUS.STAGE 0 2 else s

/-- A control ROM from step 1 (R377, R378). What the chiplet has measured since 36 V arrived stays (R394).
DEDUCED, log entry 46. -/
def State.romBoot (s : State) (cc : Nat) : State :=
  let s := s.modCc cc fun c => { meas := c.meas }
  let s := s.loadKeys cc
  let (s, lim, lc) := s.fromFlash cc 1 (·.limits)
  let s := s.claim cc
  let raw := ((s.flash cc).bank s.prefBank).limits
  let own := fieldAt (objDigest ((lim.map (·.2)).getD raw)) 0 8
  if s.getF R.ROOT.SEAL.SEALED 0 = 1 && s.getF R.ROOT.LIMITS_ID.DIGEST 0 != own then
    (s.bootFail 1 7).modCc cc fun c => { c with failed := true }
  else
    let s := match lim with
      | some (_, rec_) =>
        if s.getF R.ROOT.SEAL.SEALED 0 = 0 && s.active = some cc then
          (s.sealWith rec_).modSec fun x => { x with image := Tab.set 0 x.image 1 (objSvn rec_) }
        else s
      | none => s.bootFail 1 lc
    let f := s.flash cc
    let certs := (((f.bank s.prefBank).keyCerts ++ (f.bank (1 - s.prefBank)).keyCerts).filter fun b => (s.cc cc).keys.any fun k => k.digest == (certKey b).digest).map objDigest
    let certs := certs.foldl (fun l d => if l.contains d then l else l ++ [d]) []
    let seen := certs ++ (lim.map fun p => objDigest p.2).toList
    match s.fromFlash cc 2 (·.stage1) with
    | (s, some (b, img), _) => (s.setF R.SEC.BOOT_STATUS.BANK 0 b).startStage1 cc seen img
    | (s, none, c) => (each seen (s.bootFail 2 c) fun s d => s.extend cc 0 d).modCc cc fun x => { x with waiting := true }

/-- Time 0: both control ROMs run, CC0 first; with JTAG_EN high they stop before step 1 (R376 to R378, R414). The
licences that stay installed are none (R397). DESIGN CHOICE, log entry 1; DEDUCED, log entry 46. -/
def State.powerOn (s : State) : State :=
  if s.module_.v36 || !s.module_.rstN then s
  else
    let s := s.remove36
    let s := s.modModule fun m => { m with v36 := true }
    if s.module_.jtagEn then s
    else
      let s := s.modCtl fun c => { c with powered := [0, 1] }
      let s := s.setF R.SEC.BOOT_CTL.FORCE_CRUISE 0 (if s.flash0.force then 1 else 0)
      (s.romBoot 0).romBoot 1

/-- POWER_ARRIVAL (R376, R405). DESIGN CHOICE, log entry 1. -/
def execPowerArrival (s : State) : Ans := .next s.powerOn

/-- STAGE1_IMAGE_RECEIVE (R378): a ROM without a valid stage 1 takes one from its management port. -/
def execStage1ImageReceive (cc : Fin 2) (obj : List Byte) (s : State) : Ans :=
  if !s.module_.v36 || !(s.cc cc).waiting then .next s
  else match s.check cc 2 obj with
  | (s, 0) => .next (s.startStage1 cc [] obj)
  | (s, c) => .next (s.bootFail 2 c)

/-! ### Time at boot (R379) -/

/-- PTP_WAIT_TIMEOUT (R379): no Sync within 10 s; DEV_TIME is not stepped. DEDUCED, log entry 46. -/
def execPtpWaitTimeout (s : State) : Ans :=
  let cc := s.activeCc
  if !s.module_.v36 || !(s.cc cc).running || s.ptpSeen || (s.cc cc).waitUntil = 0 || s.now < (s.cc cc).waitUntil then .next s
  else .next (s.modCc cc fun c => { c with waitUntil := 0 })

/-- DEV_TIME_REBASE (R379): admissions are held until no job partition is admitted; then DEV_TIME is stepped to
the grandmaster and SYNCED is set. -/
def execDevTimeRebase (gm : BitVec 64) (s : State) : Ans :=
  if !s.module_.v36 || !(s.cc s.activeCc).running || s.synced || !s.ptpSeen then .next s
  else
    let s := s.modCtl fun c => { c with holdAdm := true }
    if !s.mayStep gm.toNat then .next s
    else
      let s := (s.stepTime gm.toNat).setF R.SEC.BOOT_STATUS.SYNCED 0 1
      .next (s.modCtl fun c => { c with holdAdm := false })

/-! ### Powering the compute die (R380) -/

/-- The waves of R380. -/
def wave (w : Nat) : List Nat :=
  (List.range 6).filterMap fun f => if (w + 6 - f) % 6 ≤ 3 then some (4 * f + (w + 6 - f) % 6) else none

/-- Switch a region on at boot, to the end of R347: on the tree clock; one that R346 does not grant is deferred. -/
def State.bootRegion (s : State) (r : Nat) : State :=
  if s.getF R.RGN.POWER_CTL.STATE r != 0 || !s.bankOk r then s
  else
    let s := if r < 24 then s.setF R.RGN.POWER_CTL.ON_REQ r 1 else s
    if r < 30 && !s.mayGrant r then (s.defer r).modRegion r fun x => { x with ask := some s.now }
    else
      let s := ((s.startRamp r).regionReady r).modRegion r fun x => { x with rampEnd := none }
      if r < 30 then (s.setF R.RGN.REF.LOCKED r 1).setF R.RGN.REF.TREE r 1 else (s.setF R.RGN.REF.LOCKED r 1).setF R.RGN.REF.SRC r 25

/-- Link chiplets load the sealed egress cap (R377). -/
def State.loadCaps (s : State) : State :=
  if s.getF R.ROOT.SEAL.SEALED 0 = 0 then s
  else each (List.range 40) s fun s p => s.setF R.LPT.EGRESS_CAP.CAP p (fieldAt s.sec.limits 5 1)

/-- Staged chiplet firmware is verified and measured as it is loaded (R394, R398). DEDUCED, log entry 46. -/
def State.loadStaged (s : State) : State :=
  let cc := s.activeCc
  each ((s.flash cc).bank s.prefBank).fw s fun s b =>
    match s.check cc (objType b) b with
    | (s, 0) =>
      if 5 ≤ objType b && objType b ≤ 7 then
        (s.extend cc 3 (objDigest b)).modSec fun x => { x with image := Tab.set 0 x.image (objType b) (objSvn b) }
      else s
    | (s, c) => s.bootFail (objType b) c

/-- COMPUTE_POWER_UP (R376, R377, R379, R380): HBM stacks and link chiplets, then deck, network and cluster
regions in order, at operating point 4 on the tree clock. DESIGN CHOICE, log entry 1; DEDUCED, log entry 41. -/
def execComputePowerUp (s : State) : Ans :=
  let c := s.cc s.activeCc
  if !s.module_.v36 || s.module_.tripped.isSome || !c.running || s.getF R.SEC.BOOT_STATUS.STAGE 0 != 2 then .next s
  else if !(s.synced || c.waitUntil = 0) then .next s
  else
    let s := (s.setF R.SEC.BOOT_STATUS.STAGE 0 3).loadStaged
    let s := { s with cxl := { s.cxl with loadedAt := s.ctl.powered.foldl (fun t p => Tab.set none t p (some ((Tab.get none t p).getD s.now))) s.cxl.loadedAt } }
    let s := s.modModule fun m => { m with hbmOn := List.range 16, lchOn := List.range 10 }
    let s := s.loadCaps.setF R.RGN.FRONT_CTL.CURRENT 0 4
    let order := (List.range 6).map (30 + ·) ++ (List.range 6).map (24 + ·) ++ (List.range 6).flatMap wave
    let s := each order s State.bootRegion
    .next (s.setF R.SEC.BOOT_STATUS.STAGE 0 4)

/-! ### The blaze map (R384, R385) -/

/-- A blaze map from a verified object. -/
def Blaze.ofObj (o : List Byte) : Blaze :=
  let b := objBody o
  { version := fieldAt b 0 8
    cruise := fieldAt b 8 8
    ranked := fieldAt b 0x10 1
    standby := fieldAt b 0x11 1
    roles := (List.range 24).foldl (fun t c => Tab.set 2 t c (fieldAt b (0x18 + c) 1)) []
    sites := (List.range 672).foldl (fun t i => Tab.set 1 t i (fieldAt b (0x30 + i) 1)) []
    entries := (List.range (fieldAt b 0x14 4)).map fun i =>
      let a := 0x2D0 + 16 * i
      (fieldAt b a 4, fieldAt b (a + 4) 1, fieldAt b (a + 5) 1, fieldAt b (a + 8) 8)
    digest := objDigest o }

/-- What a map's entries say of spare lines, frames, phases, converters and lanes acts again (R385). -/
def State.applyEntry (s : State) (e : Nat × Nat × Nat × Nat) : State :=
  let inst := bits e.1 17 8
  match e.2.1 with
  | 5 =>
    if s.deck.spare.contains (24 * e.2.2.2 + inst) then s
    else (s.modDeck fun d => { d with spare := d.spare ++ [24 * e.2.2.2 + inst] }).addF R.DSL.SPARE_LINES.USED inst 1
  | 7 =>
    if (s.region inst).phases.contains (e.1 / 2 ^ 18) then s
    else (s.modRegion inst fun x => { x with phases := x.phases ++ [e.1 / 2 ^ 18] }).showBank inst
  | 8 =>
    if s.module_.convBad.contains (e.1 / 2 ^ 18) then s
    else s.modModule fun m => { m with convBad := m.convBad ++ [e.1 / 2 ^ 18] }
  | 9 =>
    if s.hbm.retired.contains (frameKey inst e.2.2.2) then s else (s.redirect inst e.2.2.2).1
  | _ => s

/-- The stored map of the active chiplet, when it verifies, is in force and measured (R381, R394).
DEDUCED, log entry 46. -/
def State.loadBlaze (s : State) : State × Bool :=
  let cc := s.activeCc
  match s.fromFlash cc 8 (·.blaze) with
  | (s, some (_, o), _) =>
    let b := { Blaze.ofObj o with inForce := true }
    let s := (s.modSec fun x => { x with blaze := b }).setF R.SEC.BLAZE_VERSION.VERSION 0 b.version
    (each b.entries (s.extend cc 4 b.digest) State.applyEntry, true)
  | (s, none, c) => (s.bootFail 8 c, false)

/-- A revision of the map in force (R385): signed by the active chiplet's identity key, written into every bank
of both flash devices, and measured. -/
def State.reviseBlaze (s : State) : State :=
  let cc := s.activeCc
  let b := { s.sec.blaze with version := s.sec.blaze.version + 1, dirty := false }
  let body := b.body
  let h := objHeader 8 (4 + cc) body.length Config.serial.toNat (Config.idKey cc)
  let m := sha3_512 (h ++ body)
  let o := h ++ padTo (ceilTo 8 body.length) body ++ padTo 4627 (Config.mldsaSign cc s.free m)
  let b := { b with digest := m }
  let s := { (s.modSec fun x => { x with blaze := b }) with free := s.free + 1 }
  let put := fun (f : Flash) => { f with bank0 := { f.bank0 with blaze := o }, bank1 := { f.bank1 with blaze := o } }
  let s := { s with flash0 := put s.flash0, flash1 := put s.flash1 }
  (s.setF R.SEC.BLAZE_VERSION.VERSION 0 (b.version % 2 ^ 64)).extend cc 4 m

/-- BLAZE_MAP_REVISION (R385): after one of the events that it names. -/
def execBlazeMapRevision (s : State) : Ans :=
  .next (if s.module_.v36 && (s.cc s.activeCc).running && s.sec.blaze.dirty then s.reviseBlaze else s)

/-! ### Cruise (R381 to R383) -/

/-- The states of the sites of a row after cruise (R382). -/
def rowStates (bad quar : Nat → Bool) (c r : Nat) : List (Nat × Nat) :=
  let at_ := fun k => 28 * c + 7 * r + k
  let out := fun k => bad (at_ k) || quar (at_ k)
  let needed := (List.range 6).any out
  (List.range 7).map fun k =>
    (at_ k, if bad (at_ k) then 2 else if quar (at_ k) then 3 else if k < 6 then 0 else if needed then 0 else 1)

/-- Roles after cruise (R382): ranked and standby clusters keep their places, vacant ranked places are filled from
the standby clusters and then from other qualifying ones, and standby places from what remains. -/
def assignRoles (old : Nat → Nat) (ok : Nat → Bool) : List Nat × List Nat :=
  let all := (List.range 24).filter ok
  let r0 := (all.filter fun c => old c == 0).take 22
  let sb := all.filter fun c => old c == 1 && !r0.contains c
  let rest := all.filter fun c => !r0.contains c && !sb.contains c
  let ranked := (r0 ++ sb ++ rest).take 22
  let left := (sb ++ rest).filter fun c => !ranked.contains c
  (ranked, left.take 2)

/-- Put new roles into the map. -/
def State.setRoles (s : State) (ok : Nat → Bool) : State :=
  let (r, sb) := assignRoles s.role ok
  s.modSec fun x => { x with blaze := { x.blaze with
    roles := (List.range 24).foldl (fun t c => Tab.set 2 t c (if r.contains c then 0 else if sb.contains c then 1 else 2)) []
    ranked := r.length
    standby := sb.length
    dirty := true } }

/-- A cluster whose rows each have 6 sites in service. -/
def State.qualifies (s : State) (c : Nat) : Bool := (List.range 4).all fun r => (s.rowSites c r).length == 6

/-- A unit whose defect keeps the device from becoming ready (R383). -/
def fatalUnit (u : Nat) : Bool :=
  let g := u % 256
  let i := bits u 17 8
  g == 3 || g == 4 || (g == 8 && decide (24 ≤ i))

/-- The flight recorder's ring in the deck (R281). -/
def inRecorder (a : Nat) : Bool := decide (0x3BDC00000 ≤ a) && decide (a < 0x3C0000000)

/-- Cruise leaves every record of the flight recorder zero (R281). -/
def State.clearRecorder (s : State) : State :=
  { s with
    mem := s.mem.filter fun e => !inRecorder e.1
    poison := s.poison.filter fun e => !inRecorder (e.1 * 64)
    deck := { s.deck with gather := s.deck.gather.filter fun e => !inRecorder ((e.line * 24 + e.slice) * 512) } }

/-- CRUISE (R381 to R383): the tests end. A full cruise lifts the quarantine of units that pass and turns pending
row repairs into hard ones; the map is revised, and the regions leave the tree clock.
DESIGN CHOICE, log entry 1; DEDUCED, log entry 46. -/
def execCruise (q : CruiseResult) (s : State) : Ans :=
  if !s.module_.v36 || s.getF R.SEC.BOOT_STATUS.STAGE 0 != 4 then .next s
  else
    let forced := s.flash0.force || s.flash1.force
    let (s, have_) := s.loadBlaze
    let day := 86400000000000
    let age := s.getF R.SEC.BOOT_CTL.QUICK_DAYS 0 * day
    let quick := have_ && s.synced && decide (s.sec.blaze.cruise ≤ s.now) && decide (s.now ≤ s.sec.blaze.cruise + age) && !forced
    let s := s.setF R.SEC.BOOT_STATUS.QUICK 0 (if quick then 1 else 0)
    let bad := fun i => q.badSites.contains i || s.siteState i == 2
    let quar := fun i => quick && s.siteState i == 3
    let states := (List.range 24).flatMap fun c => (List.range 4).flatMap fun r => rowStates bad quar c r
    let new := (q.badSites.map (wholeUnit 2) ++ q.badClusters.map (wholeUnit 1) ++ q.badUnits).map fun u => (u, 1, 1, 0)
    let rows := q.badRows.map fun p => (wholeUnit 4 p.1, 3, 1, p.2)
    let keep := s.sec.blaze.entries.filterMap fun e =>
      if quick then some e
      else if e.2.1 = 4 then some (e.1, 3, e.2.2.1, e.2.2.2)
      else if e.2.1 = 2 then none else some e
    let s := s.modSec fun x => { x with blaze := { x.blaze with
      sites := states.foldl (fun t p => Tab.set 1 t p.1 p.2) []
      entries := keep ++ new ++ (if quick then [] else rows)
      cruise := if quick then x.blaze.cruise else s.now
      inForce := true
      dirty := true } }
    let darkC := fun c => quick && s.module_.quarantined.contains (wholeUnit 1 c)
    let defect := fun c => s.sec.blaze.entries.any fun e => e.1 == wholeUnit 1 c && e.2.1 == 1
    let s := s.setRoles fun c => s.qualifies c && s.regionOn c && !defect c && !darkC c
    let s := s.modModule fun m => { m with quarantined := if quick then m.quarantined else [], idle := false }
    let s := each (List.range 672) s fun s i => if s.siteState i < 2 then s.modCore i fun c => { c with dead := false } else s
    let s := each q.ports s fun s p => if p.1 < 40 then (s.modPort p.1 fun _ => { good := p.2 }).setTrain p.1 p.2 else s
    let s := s.clearRecorder
    let s := each (s.onRegions ++ (List.range 6).map (30 + ·)) s State.lockRegion
    let units := s.sec.blaze.entries.filterMap fun e => if e.2.1 = 1 then some e.1 else none
    let pch := units.contains (wholeUnit 7 0) && units.contains (wholeUnit 7 1)
    let ports := (List.range 40).all fun p => units.contains (wholeUnit 6 p)
    if units.any fatalUnit || pch || ports then
      .next (((s.setF R.SEC.BOOT_STATUS.STAGE 0 7).modModule fun m => { m with faultN := true }).alert 5)
    else .next (s.setF R.SEC.BOOT_STATUS.STAGE 0 5)

/-! ### Cluster firmware (R386, R387) -/

/-- The firmware staging area. -/
def stagingArea : Nat := 0x3BD780000

/-- FIRMWARE_BROADCAST (R387, R394, R406): the body is written into the staging area and broadcast; a cluster
whose digests fail twice is out of service, and roles are reassigned. The device is then ready.
DESIGN CHOICE, log entry 1. -/
def execFirmwareBroadcast (obj : List Byte) (bad : List Nat) (s : State) : Ans :=
  let cc := s.activeCc
  if !s.module_.v36 || s.getF R.SEC.BOOT_STATUS.STAGE 0 != 5 then .next s
  else match s.check cc 4 obj with
  | (s, 0) =>
    let s := s.memWrite (servicePort 0) stagingArea (objBody obj)
    let s := each (List.range 24) s fun s c => if bad.contains c || !s.regionOn c then s else s.modCluster c fun x => { x with firmware := objBody obj }
    let s := (s.extend cc 2 (objDigest obj)).modSec fun x =>
      { x with image := Tab.set 0 x.image 4 (objSvn obj), fwSeen := x.fwSeen ++ [objDigest obj] }
    let s := if bad.isEmpty then s else s.setRoles fun c => !bad.contains c && s.qualifies c && s.role c != 2
    .next ((s.setF R.SEC.BOOT_STATUS.STAGE 0 6).modModule fun m => { m with faultN := false, thermN := false })
  | (s, c) => .next (s.bootFail 4 c)

/-! ### Commands of the security engine (R400) -/

/-- Show SEC.LIC_MASK of the installed licences, of plane tiers the highest, and LICENSED with it (R397). -/
def State.showLicences (s : State) : State :=
  let l := s.sec.lics
  let has := fun c => if l.any fun x => x.cap == c then 1 else 0
  let w := (l.map fun x => if x.cap = 4 then x.param else 0).foldl max 0
  let s := (s.setF R.SEC.LIC_MASK.TIER2 0 (has 1 - has 2)).setF R.SEC.LIC_MASK.TIER3 0 (has 2)
  let s := (s.setF R.SEC.LIC_MASK.PAIR 0 (has 3)).setF R.SEC.LIC_MASK.T2_WINDOW 0 (has 4)
  let s := (s.setF R.SEC.LIC_MASK.INT2_TERN 0 (has 5)).setF R.SEC.LIC_MASK.EXPERT 0 (has 6)
  (s.setF R.SEC.LIC_MASK.WINDOW_GIB 0 w).setF R.ROOT.EXPERT_CTL.LICENSED 0 (has 6)

/-- The object that SEC.CMD_ADDR addresses, in the HBM reserved region: header first, then its whole size. -/
def State.cmdObject (s : State) : List Byte :=
  let a := s.getF R.SEC.CMD_ADDR.ADDR 0
  if a % 8 ≠ 0 || !inReserved a 128 then []
  else
    let h := s.memRead a 128
    if objLen h ≤ 0x100000 && inReserved a (objSize h) then s.memRead a (objSize h) else []

def State.secResult (s : State) (c : Nat) : State := s.setF R.SEC.CMD.RESULT 0 c

/-- Operation 1 (R396, R397). -/
def State.installLicence (s : State) : State :=
  let cc := s.activeCc
  let o := s.cmdObject
  match s.check cc 9 o with
  | (s, 0) =>
    let b := objBody o
    let id := fieldAt b 8 8
    let s := if flag (fieldAt b 1 1) 0 then
        s.modSec fun x => { x with lics := x.lics.filter fun l => l.id != id, cancelled := if x.cancelled.contains id then x.cancelled else x.cancelled ++ [id] }
      else s.modSec fun x => { x with lics := x.lics ++ [⟨fieldAt b 0 1, fieldAt b 4 4, id, objAfter o, objDigest o⟩] }
    ((s.extend cc 5 (objDigest o)).showLicences).secResult 0
  | (s, c) => s.secResult c

/-- The 64 bytes of SEC.CMD_DATA. -/
def State.cmdData (s : State) : List Byte :=
  (List.range 16).flatMap fun n => natLE 4 (s.getF (R.SEC.CMD_DATAn.DATA.at 4 n) 0)

/-- Whether byte string a comes before b. -/
def lexLe : List Byte → List Byte → Bool
  | [], _ => true
  | _ :: _, [] => false
  | x :: xs, y :: ys => if x = y then lexLe xs ys else decide (x < y)

def insertSorted (x : List Byte) : List (List Byte) → List (List Byte)
  | [] => [x]
  | y :: ys => if lexLe x y then x :: y :: ys else y :: insertSorted x ys

/-- The attestation report's body (R395). -/
def State.reportBody (s : State) : List Byte :=
  let cc := s.activeCc
  let g := fun (f : Fld) => s.getF f 0
  let flags := g R.ROOT.SEAL.SEALED + 2 * g R.ROOT.EXPERT_CTL.EN + 4 * g R.ROOT.EXPERT_CTL.EVER + 8 * g R.SEC.BOOT_STATUS.QUICK +
    16 * g R.SEC.BOOT_STATUS.SYNCED
  let mask := g R.SEC.LIC_MASK.TIER2 + 2 * g R.SEC.LIC_MASK.TIER3 + 4 * g R.SEC.LIC_MASK.PAIR + 8 * g R.SEC.LIC_MASK.T2_WINDOW +
    16 * g R.SEC.LIC_MASK.INT2_TERN + 32 * g R.SEC.LIC_MASK.EXPERT + g R.SEC.LIC_MASK.WINDOW_GIB * 2 ^ 16
  let certs := ((s.flash cc).bank s.prefBank).idCerts ++ ((s.flash cc).bank (1 - s.prefBank)).idCerts
  let cert := (certs.find? fun b => fieldAt (objBody b) 2592 1 == cc).getD []
  s.cmdData ++ natLE 4 (g R.ROOT.DEV_ID.ID) ++
    natLE 4 (g R.ROOT.DEV_REV.MINOR + g R.ROOT.DEV_REV.STEPPING * 2 ^ 8 + g R.ROOT.DEV_REV.LAYOUT * 2 ^ 16) ++
    natLE 8 Config.serial.toNat ++ natLE 8 s.now ++ natLE 8 (g R.ROOT.LIMITS_ID.DIGEST) ++ natLE 1 cc ++ natLE 1 flags ++
    natLE 1 s.sec.blaze.ranked ++ natLE 1 s.sec.blaze.standby ++ natLE 4 mask ++ natLE 8 s.sec.blaze.version ++
    List.replicate 16 0 ++ (List.range 8).flatMap (s.measOf cc) ++ padTo 64 s.sec.blaze.digest ++
    padTo 64 (sha3_512 ((s.sec.lics.map (·.digest)).foldr insertSorted []).flatten) ++
    padTo 64 (if cert.isEmpty then [] else objDigest cert) ++
    (List.range 7).flatMap (fun t => natLE 4 (s.svnFloor cc (t + 1))) ++ natLE 4 0

/-- Operation 2 (R395): the signed report is written at SEC.CMD_ADDR. DEDUCED, log entry 47. -/
def State.attest (s : State) : State :=
  let cc := s.activeCc
  let a := s.getF R.SEC.CMD_ADDR.ADDR 0
  let body := s.reportBody
  let h := objHeader 0xC (4 + cc) 864 Config.serial.toNat (Config.idKey cc)
  let o := h ++ body ++ padTo 4627 (Config.mldsaSign cc s.free (sha3_512 (h ++ body)))
  if a % 8 ≠ 0 || !inReserved a 5619 then s.secResult 1
  else ({ s with free := s.free + 1 }.memWrite (servicePort 0) a o).secResult 0

/-- Operation 3 (R394): MEAS0 takes no extension once stage 1 has started. -/
def State.extendMeas (s : State) : State :=
  let cc := s.activeCc
  let i := s.getF R.SEC.CMD.INDEX 0
  if 8 ≤ i || (i = 0 && (s.cc cc).started) then s.secResult 1 else (s.extend cc i s.cmdData).secResult 0

/-- Operation 4 (R385, R393): the blaze map revision at SEC.CMD_ADDR is signed in place. -/
def State.signBlaze (s : State) : State :=
  let cc := s.activeCc
  let o := s.cmdObject
  if fieldAt o 0 4 ≠ 0x4F53574E || objType o ≠ 8 || !bodyLenOk 8 (objLen o) (objBody o) then s.secResult 1
  else if objSigner o ≠ 4 + cc || (o.drop 0x40).take 64 ≠ sha3_512 (Config.idKey cc) then s.secResult 2
  else
    let at_ := s.getF R.SEC.CMD_ADDR.ADDR 0 + 128 + ceilTo 8 (objLen o)
    let sig := padTo 4627 (Config.mldsaSign cc s.free (objDigest o))
    ({ s with free := s.free + 1 }.memWrite (servicePort 0) at_ sig).secResult 0

/-- Operation 5 (R392): the floor of a type rises to the SVN of the image in force, in both chiplets. -/
def State.raiseFloor (s : State) : State :=
  let t := s.getF R.SEC.CMD.INDEX 0
  if t = 0 || 7 < t then s.secResult 1
  else
    let v := max (Tab.get 0 s.sec.floors t) (min 63 (Tab.get 0 s.sec.image t))
    (s.modSec fun x => { x with floors := Tab.set 0 x.floors t v }).secResult 0

/-- A write of SEC.CMD with an operation (R400). DEDUCED, log entry 47. -/
def State.secCmd (s : State) (op : Nat) : State :=
  match op with
  | 1 => s.installLicence
  | 2 => s.attest
  | 3 => s.extendMeas
  | 4 => s.signBlaze
  | 5 => s.raiseFloor
  | _ => s

/-- The engine of the active chiplet works while its chiplet runs. DEDUCED, log entry 47. -/
def State.engine (s : State) : Bool := s.module_.v36 && (s.cc s.activeCc).running

/-- A write of SEC.CMD with an operation, by the active chiplet (R358, R400). -/
def State.secOp (s : State) (op : Nat) : State := s.asActive fun s => if s.engine then s.secCmd op else s

/-- INSTALL_LICENCE (R396, R397). -/
def execInstallLicence (s : State) : Ans := .next (s.secOp 1)
/-- ATTEST (R395). -/
def execAttest (s : State) : Ans := .next (s.secOp 2)
/-- EXTEND_MEAS (R394). -/
def execExtendMeas (s : State) : Ans := .next (s.secOp 3)
/-- SIGN_BLAZE_MAP (R385). -/
def execSignBlazeMap (s : State) : Ans := .next (s.secOp 4)
/-- RAISE_SVN_FLOOR (R392). -/
def execRaiseSvnFloor (s : State) : Ans := .next (s.secOp 5)

/-- LICENCE_EXPIRY (R397): DEV_TIME has passed NOT_AFTER. -/
def execLicenceExpiry (id : BitVec 64) (s : State) : Ans :=
  if s.sec.lics.any fun l => l.id == id.toNat && decide (l.after < s.now) then
    .next (s.modSec fun x => { x with lics := x.lics.filter fun l => !(l.id == id.toNat && decide (l.after < s.now)) }).showLicences
  else .next s

end Sys2Proof.Machine
end

