-- ==== Sys2Proof/Machine/Control.lean ====
section
/-! DEFINITION. The control pair (R357 to R360), management frames (R361, R363), register writes and reads (R3 to
R9, R364 to R369), the seal and the expert level (R367, R374). -/

namespace Sys2Proof.Machine

/-! ### The control pair (R357 to R360) -/

/-- CTRL_RELEASE (R357). -/
def execCtrlRelease (cc : Fin 2) (s : State) : Ans := .next (if s.module_.v36 then s.unclaim cc else s)

/-- The journal as the standby holds it (R359): what it was told of, and every multi-step operation that is under way in
the device, each of which was journalled before it began. DEDUCED, log entry 44. -/
def State.journal (s : State) : List JEntry :=
  let here := ((s.allJobs.filter fun p => p.2.releasing).map fun p => (⟨.release, p.1, 0⟩ : JEntry)) ++
    ((List.range 1024).filter fun n => (s.window n).st == 2).map (fun n => ⟨.windowClose, n, 0⟩) ++
    (((List.range 24).filter fun c => s.getF R.CL.REPLAY_STATUS.STATE c == 1 || s.getF R.CL.REPLAY_STATUS.STATE c == 2).map
      fun c => ⟨.substitution, c, 0⟩) ++
    (if s.frontPending then [⟨.front, 0, 0⟩] else []) ++
    (if s.tally.gate.active then [⟨.stepGate, s.tally.gate.step, 0⟩] else [])
  s.ctl.journal ++ here.filter fun e => !s.ctl.journal.any fun k => k.op == e.op && k.arg == e.arg

/-- A job partition whose admission is not complete is released whole, its landing windows closed first (R217, R360). -/
def State.undoAdmission (s : State) (id : Nat) : State :=
  let s := s.modCtl fun c => { c with admission := [] }
  match s.job id with
  | none => s
  | some j =>
    let s := each j.windows s State.closeWindow
    if j.windows.any fun w => (s.window w).st != 0 then s.setJob id (some { j with releasing := true }) else s.freeJob id j

/-- A release goes on from the journalled step (R237, R360). -/
def State.redoRelease (s : State) (id : Nat) : State :=
  match s.job id with
  | none => s
  | some j =>
    let s := s.setJob id (some { j with releasing := true })
    if s.jobBusy j then s
    else
      let s := each j.windows s State.closeWindow
      if j.windows.any fun w => (s.window w).st != 0 then s else s.freeJob id j

/-- A substitution or replay of a group starts again from its first step (R322, R360). -/
def State.redoReplay (s : State) (c : Nat) : State :=
  match (s.cluster c).want, (s.cluster c).recov with
  | none, some r => if s.getF R.CL.REPLAY_STATUS.STATE c = 2 then s.wantReplay c { r with rotated := false, again := false } else s
  | _, _ => s

/-- A journalled operation as a failover finds it (R360): admissions are released whole; releases, window closes
and job partition resets are completed; substitutions and replays start again; what hardware runs goes on, and the step
gate from its mirrored inputs. DEDUCED, log entry 44. -/
def State.finishJournal (s : State) (e : JEntry) : State :=
  match e.op with
  | .admission => s.undoAdmission e.arg
  | .release => s.redoRelease e.arg
  | .windowClose => s.closeWindow e.arg
  | .jobReset => s.resetJob e.arg
  | .substitution => s.redoReplay e.arg
  | .stepGate => s.gateProgress
  | .windowOpen => s
  | .launch => s
  | .front => s

/-- A chiplet that has become active in another's place (R360): one whose lease ran out is out of service until it is
restarted. DEDUCED, log entry 44. -/
def State.succeed (s : State) (old new : Nat) (lapsed : Bool) : State :=
  let s := if lapsed then (s.modCc old fun c => { c with running := false, failed := true }).setF R.ROOT.CTRL_STATUS.STANDBY_READY 0 0 else s
  let s := (s.addF R.ROOT.CTRL_STATUS.FAILOVERS 0 1).reportUnit 9 1 (unitCode 0 0 new) 0
  let s := (s.event 0 0 0).alert 4
  let j := s.journal
  let s := s.modCtl fun c => { c with journal := [], unacked := none }
  each j s State.finishJournal

/-- A write of CLAIM; where it makes another chiplet than the last one active, that is a failover (R357, R360). -/
def State.claimBy (s : State) (cc : Nat) : State :=
  let old := s.activeCc
  let t := s.claim cc
  let held := s.ctl.leases.filter fun e => e.2.holder == old
  if t.active != some cc || old = cc || held.isEmpty then t else t.succeed old cc (held.any fun e => !e.2.released)

/-- CTRL_CLAIM (R357, R360). -/
def execCtrlClaim (cc : Fin 2) (s : State) : Ans := .next (s.claimBy cc)

/-- FAILOVER (R360): the lease of the active chiplet has expired; the standby claims it, and the other is out of service
until it is restarted. DEDUCED, log entry 44. -/
def execFailover (s : State) : Ans :=
  let old := s.activeCc
  let new := 1 - old
  if !s.module_.v36 || s.ctl.powered.any (fun p => (s.leaseOf p).any fun l => l.holder == old) then .next s
  else if !(s.cc new).running || (s.cc new).failed || s.active.isSome then .next s
  else
    let t := s.claim new
    .next (if t.active = some new then t.succeed old new true else t)

/-- JOURNAL_ENTRY (R359): the active chiplet journals an operation, the completion of its steps, or its end, to the
standby. -/
def execJournalEntry (op : JOp) (arg : Nat) (done ack : Bool) (s : State) (step : Nat := 0) : Ans :=
  if s.active.isNone then .next s
  else
    let up := (s.cc (1 - s.activeCc)).running && ack
    let s := s.modCtl fun c =>
      { c with journal := (c.journal.filter fun e => !(e.op == op && e.arg == arg)) ++ (if done then [] else [⟨op, arg, step⟩])
               unacked := if up then none else some (c.unacked.getD s.now) }
    .next (if up then s.setF R.ROOT.CTRL_STATUS.STANDBY_READY 0 1 else s)

/-- JOURNAL_ACK_TIMEOUT (R359): no acknowledgement for 1 ms; the active chiplet goes on alone. -/
def execJournalAckTimeout (s : State) : Ans :=
  match s.ctl.unacked with
  | none => .next s
  | some t =>
    if s.now < t + 1000000 then .next s
    else
      let s := s.reportUnit 9 3 (unitCode 0 0 (1 - s.activeCc)) 0
      .next ((s.modCtl fun c => { c with unacked := none }).setF R.ROOT.CTRL_STATUS.STANDBY_READY 0 0)

/-! ### Refused writes, the seal, the expert level (R358, R367, R374) -/

/-- A write of SEAL.SET. -/
def State.sealWrite (s : State) : State :=
  if s.getF R.ROOT.SEAL.SEALED 0 = 1 then s else (s.setF R.ROOT.SEAL.SEALED 0 1).event 0 0 1

/-- SEAL_SET (R358, R374). -/
def execSealSet (cc : Fin 2) (s : State) : Ans :=
  if !s.module_.v36 then .next s
  else .next (if s.active = some cc.val then s.sealWrite else s.refuseWrite cc)

/-- MEAS6 is extended at each change of EXPERT_CTL.EN (R394), by a digest that the spec does not give.
DEDUCED, log entry 45. -/
def State.measureExpert (s : State) : State :=
  let d := freeBytes s.free 64
  { s with free := s.free + 64 }.extend s.activeCc 6 d

/-- A write of ROOT.EXPERT_CTL (R367). -/
def State.expertWrite (s : State) (v : Nat) : State :=
  let en := s.getF R.ROOT.EXPERT_CTL.EN 0
  if flag v 0 then
    if en = 1 || s.getF R.ROOT.EXPERT_CTL.LICENSED 0 = 0 then s
    else
      let s := (s.setF R.ROOT.EXPERT_CTL.EN 0 1).setF R.ROOT.EXPERT_CTL.EVER 0 1
      ((s.reportUnit 9 5 rootUnit 0).event 0 0 2).measureExpert
  else if en = 0 then s
  else (s.setF R.ROOT.EXPERT_CTL.EN 0 0).measureExpert

/-- EXPERT_ENABLE (R367). -/
def execExpertEnable (v : BitVec 32) (s : State) : Ans := .next (s.asActive fun s => s.expertWrite v.toNat)

/-! ### Register writes (R5, R7 to R9, R364 to R366) -/


/-- The page and offset of a control-space address. -/
def pageOf (addr : Nat) : Nat × Nat × Nat :=
  let a := addr - ctlBase
  (a / 0x400000, a % 0x400000 / 0x1000, a % 0x1000)

/-- Put the bits that a write of `size` bytes at `off` gives into a field whose value is `cur`. -/
def mergeField (f : Fld) (cur off size v : Nat) : Nat :=
  let a := 8 * f.off + f.lo
  let lo := max a (8 * off)
  let hi := min (a + f.width) (8 * off + 8 * size)
  if hi ≤ lo then cur
  else
    let k := hi - lo
    let sh := lo - a
    cur - cur / 2 ^ sh % 2 ^ k * 2 ^ sh + v / 2 ^ (lo - 8 * off) % 2 ^ k * 2 ^ sh

/-- The write covers the field, in part or whole. -/
def touches (f : Fld) (off size : Nat) : Bool :=
  decide (max (8 * f.off + f.lo) (8 * off) < min (8 * f.off + f.lo + f.width) (8 * off + 8 * size))

/-- Fields whose writes have an effect of their own, which State.special gives. -/
def ownEffect : List (Nat × Nat) :=
  [(0, 0x040), (0, 0x048), (8, 0x040), (8, 0x048), (8, 0x050), (9, 0x048), (9, 0x05C), (10, 0x048), (10, 0x04C),
   (12, 0x048), (12, 0x050), (12, 0x054), (12, 0x058), (13, 0x044), (13, 0x048)]

/-- Registers of ERR pages that act only in ERR24 (R325). -/
def onlyErr24 (g i off : Nat) : Bool :=
  g == 9 && i != 24 && ([0x048, 0x050, 0x054, 0x058, 0x05C, 0x400].contains off || off == 0x04C)

/-- Fields of an RGN page that mean nothing in a deck domain, which has no front, pace, squall guard, heat threshold or
trim: they read as zero there and take no write (R356). DEDUCED, log entry 45. -/
def noDeck (f : Fld) (inst : Nat) : Bool :=
  f.page == 8 && decide (30 ≤ inst) && ([0x058, 0x05C, 0x064, 0x078, 0x400, 0x404].contains f.off || f == R.RGN.POWER_CTL.ON_REQ || f == R.RGN.POWER_CTL.DEFERS)

/-- Write one field by its access code (R7, R8); LCH.FABRIC_ID is one register for all instances (R270). DEDUCED, log entry 45. -/
def State.writeField (s : State) (f : Fld) (inst off size v : Nat) : State :=
  let inst := if f.page = 5 && f.off = R.LCH.FABRIC_ID.ID.off then 0 else inst
  let cur := s.getF f inst
  let new := mergeField f cur off size v
  match f.acc with
  | .ro => s
  | .wo => s
  | .rw => if f.page = 1 then s.writeCl f inst new else s.setF f inst new
  | .w1c => s.clearF f inst (mergeField f 0 off size v)
  | .rwl => if s.getF R.ROOT.SEAL.SEALED 0 = 0 then s.setF f inst new else s
  | .rwx => if s.getF R.ROOT.EXPERT_CTL.EN 0 = 1 then s.setF f inst new else s

/-- The fields of a page that a write touches, but for those with an effect of their own. -/
def plainFields (g off size : Nat) : List Fld :=
  ([R.PAGE_EVENT.EVENT g, R.PAGE_EVENT_EN.EN g].filter fun f => touches f off size) ++
    (catalogue.filter fun r => r.fld.page == g).flatMap fun r =>
      (List.range (max 1 r.count)).filterMap fun n =>
        let f := r.fld.at r.stride n
        if touches f off size && !ownEffect.contains (g, r.fld.off) then some f else none

/-- The 32 bits that a write gives the register at `reg`, if it reaches it. -/
def partAt (off size v reg : Nat) : Option Nat :=
  if off ≤ reg && reg + 4 ≤ off + size then some (v / 2 ^ (8 * (reg - off)) % 2 ^ 32) else none

/-- The value of a field after a write that reaches it. -/
def State.newVal (s : State) (f : Fld) (inst off size v : Nat) : Option Nat :=
  if touches f off size then some (mergeField f (s.getF f inst) off size v) else none

/-- Do something with a value when there is one. -/
def State.when_ (s : State) (o : Option Nat) (f : State → Nat → State) : State :=
  match o with
  | some v => f s v
  | none => s

/-- A write of RGN.POWER_CTL.ON_REQ (R346, R356). -/
def State.onReq (s : State) (r v : Nat) : State :=
  if 24 ≤ r then s
  else if flag v 0 then s.switchOn r
  else if (s.jobOf r).isSome then s
  else if s.getF R.RGN.POWER_CTL.STATE r = 6 then s.setF R.RGN.POWER_CTL.ON_REQ r 0
  else s.regionOff r 0

/-- Writes of WIN_BASE, WIN_SIZE and JOB_TAG reach the selected window while it is CLOSED (R259, R270). -/
def State.windowField (s : State) (off size v : Nat) : State :=
  let n := s.getF R.LWT.SEL.WINDOW 0
  let w := s.window n
  if w.st ≠ 0 then s
  else
    let put := fun (f : Fld) (cur : Nat) => mergeField f cur off size v
    s.modWindow n fun w => { w with
      base := put R.LWT.WIN_BASE.BASE (w.base / 512) * 512
      size := (put R.LWT.WIN_SIZE.SIZE_m1 (w.size / 512 - 1) + 1) * 512
      tag := put R.LWT.WIN_CTL.JOB_TAG w.tag }

/-- Writes of MCG.GROUP_CTL reach the selected group (R264). -/
def State.groupField (s : State) (v : Nat) : State :=
  let g := s.getF R.MCG.SEL.GROUP 0
  s.modFab fun f =>
    let x : McGroup := Tab.get {} f.mcast g
    { f with mcast := Tab.set {} f.mcast g { x with valid := flag v 0, count := bits v 6 1 } }

/-- The effects of registers with a behaviour of their own, by page and offset. -/
def State.special (s : State) (g i off size v : Nat) : State :=
  let w := fun (reg : Nat) (s : State) (f : State → Nat → State) => s.when_ (partAt off size v reg) f
  match g with
  | 0 =>
    let s := w 0x028 s fun s v => if flag v 0 then s.sealWrite else s
    let s := w 0x040 s State.expertWrite
    let s := s.when_ (if touches R.ROOT.DEV_TIME.NS off size then some (mergeField R.ROOT.DEV_TIME.NS s.now off size v) else none) State.timeWrite
    let s := if touches R.ROOT.TIME_RATE.ADJ off size || touches R.ROOT.TIME_RATE_AT.T off size then s.armRate else s
    w 0x078 s fun s v => s.ctlMoverGo (v % 8)
  | 1 => w 0x048 s fun s v => s.clTsig i v
  | 4 => w 0x048 s fun s v =>
      if flag v 5 && s.getF R.HBM.RETRAIN_CTL.BUSY i = 0 then
        (s.modHbm fun h => { h with retrain := h.retrain ++ [(i, s.getF R.HBM.RETRAIN_CTL.CHANNEL i)] }).setF R.HBM.RETRAIN_CTL.BUSY i 1
      else s
  | 6 => w 0x054 s fun s v => if flag v 0 then (s.setF R.LPT.RETRAIN_CTL.BUSY i 1).divert i else s
  | 8 =>
    let s := w 0x040 s fun s v => s.onReq i v
    let s := w 0x048 s State.frontWrite
    let s := s.when_ (s.newVal R.RGN.FRONT_TIME.T_F 0 off size v) fun s t => if s.frontPending then s else s.setF R.RGN.FRONT_TIME.T_F 0 t
    if touches R.RGN.VTRIM.TRIM off size && s.getF R.ROOT.EXPERT_CTL.EN 0 = 1 && s.regionOn i && i < 30 then s.setVolt i (s.getF R.RGN.OP_STATUS.OP i) else s
  | 9 =>
    if i ≠ 24 then s
    else
      let s := s.when_ (s.newVal R.ERR.RING_BASE.BASE 24 off size v) fun s b => s.ringBaseWrite (b * 4096)
      w 0x05C s State.captureFree
  | 10 =>
    let free := !(s.getF R.TLY.MARK_CTL.SOURCE 0 == 1 || s.getF R.TLY.MARK_CTL.SOURCE 0 == 2)
    let s := w 0x048 s fun s v => if free then s.setF R.TLY.STEP.STEP 0 v else s
    let s := w 0x04C s fun s v => if free then s.setF R.TLY.WRAP.WRAP 0 v else s
    w 0x044 s State.markCmd
  | 11 =>
    let s := if touches R.SEC.BOOT_CTL.FORCE_CRUISE off size then
        let f := s.getF R.SEC.BOOT_CTL.FORCE_CRUISE 0 == 1
        { s with flash0 := { s.flash0 with force := f }, flash1 := { s.flash1 with force := f } }
      else s
    w 0x050 s fun s v => if s.engine then s.secCmd (v % 16) else s
  | 12 =>
    let s := s.windowField off size v
    let s := w 0x058 s State.notifyWrite
    w 0x05C s State.windowCmd
  | 13 =>
    let s := w 0x044 s State.groupField
    w 0x048 s State.mcastEntry
  | _ => s

/-- A write to a page that is performed (R7, R9, R366): it is ignored while the page's domain is off.
DEDUCED, log entry 45. -/
def State.pageWrite (s : State) (g i off size v : Nat) : State :=
  if pageInstances g ≤ i || !s.hosted g i then s
  else
    let s := each ((plainFields g off size).filter fun f => !onlyErr24 g i f.off && !noDeck f i) s fun s f => s.writeField f i off size v
    s.special g i off size v

/-- REGISTER_WRITE (R3 to R9, R358, R364 to R366): for an access that is misaligned or of another size the issuing chiplet
gets a bus error, without a count; a write from a chiplet that is not active is refused and counted, but for a claim.
DEDUCED, log entry 44; DEDUCED, log entry 45. -/
def execRegisterWrite (cc : Fin 2) (addr size : Nat) (v : BitVec 64) (s : State) : Ans :=
  if !s.module_.v36 || addr < ctlBase || ctlBase + 0x10000000 ≤ addr then .next s
  else if !(size = 4 || size = 8) || addr % size ≠ 0 then .next (s.modCtl fun c => { c with busErr := some cc.val })
  else
    let (g, i, off) := pageOf addr
    let v := v.toNat % 2 ^ (8 * size)
    let claims := decide (g = 0) && decide (i = 0)
    let s1 := s.when_ (if claims then partAt off size v 0x024 else none) fun s c =>
      let s := if flag c 1 then s.unclaim cc else s
      if flag c 0 then s.claimBy cc else s
    if claims && (off == 0x024 && size == 4) then .next s1
    else if s.active = some cc.val then .next (s1.pageWrite g i off size v)
    else .next (s1.refuseWrite cc)

/-! ### Register reads (R6, R7, R365, R366) -/

/-- PAGE_STATE of a page (R365): powered, in service once a blaze map is in force, quarantined, in reset. A chiplet that has
no power is in reset. DEDUCED, log entry 45. -/
def State.pageState (s : State) (g i : Nat) : Nat × Nat × Nat × Nat :=
  let b := fun (x : Bool) => if x then 1 else 0
  let q := s.module_.quarantined.contains (wholeUnit g i) || (g == 2 && s.siteState i == 3) || (g == 1 && s.module_.quarantined.contains (wholeUnit 8 i))
  let bad := s.sec.blaze.entries.any fun e => e.1 == wholeUnit g i && e.2.1 == 1
  let serve := s.module_.v36 && s.sec.blaze.inForce &&
    (if g = 2 then s.siteInService i else if g = 1 then s.role i != 2 else !q && !bad)
  let rst := s.module_.v36 && match g with
    | 8 => (s.region i).resetOn
    | 1 => (s.region i).resetOn
    | 2 => (s.region (clusterOf i)).resetOn
    | 3 => (s.region (30 + i / 4)).resetOn
    | 7 => !s.ctl.powered.contains i
    | 9 => (s.region (if i = 24 then 25 else netRegion (i / 4))).resetOn
    | 10 => (s.region 25).resetOn
    | _ => !s.hosted g i
  (b (s.hosted g i), b serve, b q, b rst)

/-- The value of a field that is composed when it is read; none for a field that is held.
DEDUCED, log entry 45. -/
def State.composed (s : State) (f : Fld) (n inst : Nat) : Option Nat :=
  let b := fun (x : Bool) => if x then 1 else 0
  let word := fun (l : List Byte) (k : Nat) => leNat (((padTo 64 l).drop (4 * k)).take 4)
  let w := s.window (s.getF R.LWT.SEL.WINDOW 0)
  let mg := s.getF R.MCG.SEL.GROUP 0
  let grp : McGroup := Tab.get {} s.fab.mcast mg
  let pt := s.partner (s.getF R.LCH.PARTNER_SEL.ID inst)
  let site := s.core inst
  if f.acc = .wo then some 0
  else if f.page = 2 then
    if f = R.CORE.SEQ_STATUS.PC then some site.pc
    else if f = R.CORE.SEQ_STATUS.STATE then some site.st.code
    else none
  else if f.page = 1 then
    if f = R.CL.ROUTE_HIn.FILL then some (min 65535 ((s.routeFill inst n).length / 16)) else none
  else if f.page = 0 then
    if f = R.ROOT.SERIAL.SERIAL then some Config.serial.toNat
    else if f = R.ROOT.CTRL_STATUS.VALID then some (b s.active.isSome)
    else if f = R.ROOT.DEV_TIME.NS then some (s.now % 2 ^ 64)
    else none
  else if f.page = 5 then
    if f.off = R.LCH.FABRIC_ID.ID.off then some (s.getF f 0)
    else if f = R.LCH.PARTNER_STATE.STATE then some pt.st
    else if f = R.LCH.PARTNER_STATE.PORTS then some (popCount 40 pt.ports % 64)
    else if f = R.LCH.PARTNER_STATE.UNANSWERED then
      some (((List.range 10).map fun lc => (s.chip lc).unans.countP fun o => o.pkt.dst == s.getF R.LCH.PARTNER_SEL.ID inst).sum % 65536)
    else if f = R.LCH.PARTNER_NOTICES.NOTICES then some (pt.unacked.length % 2048)
    else if f = R.LCH.LANDING_BUF.IN_USE then some (ceilDiv (s.chip inst).inUse 1024)
    else none
  else if f.page = 7 then
    if f.off = 0x048 || f.off = 0x04C then some (s.getF f 0) else none
  else if f.page = 8 then
    if f = R.RGN.PACE.LEVEL then some (if inst < 30 then s.paceLevel inst else 0)
    else if f = R.RGN.THERM_CTL.TRIP_C then some s.tripC
    else if noDeck f inst then some 0
    else if f.off = 0x048 || f.off = 0x050 then some (s.getF f 0)
    else none
  else if f.page = 9 then
    if f = R.ERR.OPEN.OPEN then some (s.aggOf inst).length
    else if onlyErr24 9 inst f.off then some 0
    else none
  else if f.page = 11 then
    if f = R.SEC.LIC_COUNT.INSTALLED then some s.sec.lics.length
    else if f = R.SEC.LIC_COUNT.CANCELLED then some (min 255 s.sec.cancelled.length)
    else if f = R.SEC.SVN_FLOORn.FLOOR then some (s.svnFloor s.activeCc (n + 1))
    else if f = R.SEC.MEASm_Wn.DATA then some (word (s.measOf s.activeCc (n / 16)) (n % 16))
    else if f = R.SEC.ID_DIGESTc_Wn.DATA then some (word (sha3_512 (Config.idKey (n / 16))) (n % 16))
    else none
  else if f.page = 12 then
    if f = R.LWT.WIN_BASE.BASE then some (w.base / 512)
    else if f = R.LWT.WIN_SIZE.SIZE_m1 then some (w.size / 512 - 1)
    else if f = R.LWT.WIN_CTL.STATE then some w.st
    else if f = R.LWT.WIN_CTL.GEN then some w.gen
    else if f = R.LWT.WIN_CTL.JOB_TAG then some w.tag
    else if f = R.LWT.WIN_NOTIFY.VALID then some (b w.nvalid)
    else if f = R.LWT.WIN_NOTIFY.CLUSTER then some w.ncl
    else if f = R.LWT.WIN_NOTIFY.SITE then some w.nsite
    else if f = R.LWT.WIN_NOTIFY.TOKEN then some w.ntok
    else none
  else if f.page = 13 then
    let e := Tab.get 0 grp.entries (s.getF R.MCG.SEL.ENTRY 0)
    if f = R.MCG.GROUP_CTL.VALID then some (b grp.valid)
    else if f = R.MCG.GROUP_CTL.COUNT_m1 then some grp.count
    else if f = R.MCG.GROUP_CTL.REFUSED then some (Tab.get 0 s.fab.mcRefused mg)
    else if f = R.MCG.ENTRY.DEV then some (bits e 11 0)
    else if f = R.MCG.ENTRY.WINDOW then some (bits e 21 12)
    else if f = R.MCG.ENTRY.GEN then some (bits e 29 22)
    else if f = R.MCG.ENTRY.VALID then some (bit e 30)
    else none
  else none

/-- What the n-th register of a field reads as. -/
def State.readField (s : State) (r : FldRow) (n inst : Nat) : Nat := (s.composed r.fld n inst).getD (s.getF (r.fld.at r.stride n) inst)

/-- The 32-bit register at an aligned offset of a page (R5 to R7, R366): zero where there is none, and while the
page's domain is off. DEDUCED, log entry 45. -/
def State.regRead (s : State) (g i off : Nat) : Nat :=
  if pageInstances g ≤ i then 0
  else if off = 0 then 1 + i * 2 ^ 14 + g * 2 ^ 24
  else if off = 4 then
    let (p, v, q, r) := s.pageState g i
    1 + 2 * p + 4 * v + 8 * q + 16 * r
  else if !s.hosted g i then 0
  else if off = 8 then s.getF (R.PAGE_EVENT.EVENT g) i
  else if off = 12 then s.getF (R.PAGE_EVENT_EN.EN g) i
  else
    ((catalogue.filter fun r => r.fld.page == g).map fun r =>
      ((List.range (max 1 r.count)).map fun n =>
        let f := r.fld.at r.stride n
        if touches f off 4 then s.readField r n i * 2 ^ (8 * f.off + f.lo) / 2 ^ (8 * off) % 2 ^ 32 else 0).sum).sum % 2 ^ 32

/-- What a control core's read of control space returns (R4 to R6, R358): an aligned read of 32 bits, or of 64 bits with both
halves of one instant; none, with a bus error, for any other. A read changes nothing. -/
def State.ctlRead (s : State) (addr size : Nat) : Option Nat :=
  if addr < ctlBase || ctlBase + 0x10000000 ≤ addr || !(size = 4 || size = 8) || addr % size ≠ 0 then none
  else
    let (g, i, off) := pageOf addr
    some (s.regRead g i off + if size = 8 then s.regRead g i (off + 4) * 2 ^ 32 else 0)

/-! ### Interrupts (R365) -/

/-- A page interrupts: an event of it and its enable are both set. -/
def State.pageInterrupts (s : State) (g i : Nat) : Bool :=
  s.hosted g i && (s.getF (R.PAGE_EVENT.EVENT g) i &&& s.getF (R.PAGE_EVENT_EN.EN g) i) != 0

/-- The interrupt that a control chiplet sees: only the active one is interrupted. -/
def State.interrupt (s : State) (cc : Nat) : Bool :=
  s.active == some cc && (List.range 14).any fun g => (List.range (pageInstances g)).any fun i => s.pageInterrupts g i

/-! ### Management frames (R361, R363) -/

/-- Bytes waiting on a management port, in eightieths of a byte: the cap of CAP × 0.1 Gb/s drains CAP of them in
each ns. -/
def State.mgmtBacklog (s : State) (port : Nat) : Nat :=
  Tab.get 0 s.ctl.mgmtQ port - min 250 (s.getF R.ROOT.MGMT_EGRESS_CAP.CAP 0) * (s.now - Tab.get 0 s.ctl.mgmtAt port)

/-- MGMT_FRAME_SEND (R361, R363): PTP messages bypass the queue; the standby's port sends nothing else.
DEDUCED, log entry 44. -/
def execMgmtFrameSend (port : Fin 2) (bytes : Nat) (ptp : Bool) (s : State) : Ans :=
  if !s.module_.v36 || ptp || s.active != some port.val then .next s
  else
    let q := s.mgmtBacklog port
    if 80 * 2 ^ 20 < q + 80 * bytes then
      let s := s.addF (mgmtDrops port) 0 1
      let last := Tab.get 0 s.ctl.mgmtDrop port
      .next (if last = 0 || last - 1 + 1000000000 ≤ s.now then
        (s.reportUnit 9 7 (unitCode 0 0 port) 0).modCtl fun c => { c with mgmtDrop := Tab.set 0 c.mgmtDrop port (s.now + 1) }
      else s)
    else .next (s.modCtl fun c =>
      { c with mgmtQ := Tab.set 0 c.mgmtQ port (q + 80 * bytes), mgmtAt := Tab.set 0 c.mgmtAt port s.now })

/-- MANAGEMENT_PORT_DOWN (R368, R370). -/
def execManagementPortDown (port : Fin 2) (s : State) : Ans :=
  if !s.module_.v36 || s.getF (mgmtUp port) 0 = 0 then .next s
  else
    let s := (s.setF (mgmtUp port) 0 0).setF (mgmtSeen port) 0 0
    .next ((s.reportUnit 9 6 (unitCode 0 0 port) 0).event 0 0 4)

end Sys2Proof.Machine
end

