-- ==== Sys2Proof/Machine/Service.lean ====
section
/-! DEFINITION. Updates and service while the device works (R398, R399), and the restart of a control chiplet
(R377). -/

namespace Sys2Proof.Machine

/-- SEC.SERVICE shows an operation (R400). -/
def State.serve (s : State) (part state index : Nat) : State :=
  ((s.setF R.SEC.SERVICE.PART 0 part).setF R.SEC.SERVICE.STATE 0 state).setF R.SEC.SERVICE.INDEX 0 index

/-- The operation ends. -/
def State.serveEnd (s : State) : State := s.serve 0 0 0

/-- An operation may start, or is the one in progress (R399). -/
def State.mayServe (s : State) (part index : Nat) : Bool :=
  s.module_.v36 && s.module_.tripped.isNone && (s.cc s.activeCc).running &&
    (s.getF R.SEC.SERVICE.PART 0 == 0 || (s.getF R.SEC.SERVICE.PART 0 == part && s.getF R.SEC.SERVICE.INDEX 0 == index))

/-- The operation is in progress already. -/
def State.serving (s : State) (part : Nat) : Bool := s.getF R.SEC.SERVICE.PART 0 == part

/-! ### Cluster firmware (R399) -/

/-- Free standby clusters (R312, R399). -/
def State.standbys (s : State) : List Nat :=
  (List.range 24).filter fun c => s.role c == 1 && s.regionOn c && (s.jobOf c).isNone && s.rowsFull c

/-- The image reaches the cluster, whose sites pass the lull-test suite. -/
def State.clusterLoaded (s : State) (c : Nat) (obj : List Byte) : State :=
  let d := objDigest obj
  let s := s.memWrite (servicePort 0) stagingArea (objBody obj)
  let s := if s.sec.fwSeen.contains d then s else (s.extend s.activeCc 2 d).modSec fun x => { x with fwSeen := x.fwSeen ++ [d] }
  let s := s.modSec fun x => { x with image := Tab.set 0 x.image 4 (objSvn obj) }
  (s.modCluster c fun x => { x with firmware := objBody obj }).serveEnd

/-- CLUSTER_FIRMWARE_UPDATE (R399): while two standby clusters are free, the cluster drains at its group's next
commit onto the lowest-numbered one, and stands by once it is updated, which revises the map; one outside every job
partition is updated in place.
DEDUCED, log entry 48. -/
def execClusterFirmwareUpdate (c : Fin 24) (obj : List Byte) (s : State) : Ans :=
  if !s.mayServe 2 c || !s.regionOn c then .next s
  else match s.check s.activeCc 4 obj with
  | (s, 0) =>
    match (s.jobOf c).bind fun id => (s.job id).map fun j => (id, j) with
    | none => .next (s.clusterLoaded c obj)
    | some (id, j) =>
      match s.standbys with
      | d :: _ :: _ =>
        let s := s.serve 2 1 c
        if !s.atCommit (s.groupOf c) then .next s
        else
          let s := s.commitForMove c
          let s := each (s.liveSites (s.groupOf c)) s State.stopForReplay
          .next ((((s.moveCluster id j c d 1).clusterLoaded c obj).setRole c 1).reviseBlaze)
      | _ => .next s
  | (s, _) => .next s

/-! ### Control chiplets (R377, R398) -/

/-- CONTROL_CHIPLET_RESTART (R377): a chiplet that is out of service or stopped restarts alone at its ROM.
DEDUCED, log entry 47; DEDUCED, log entry 48. -/
def execControlChipletRestart (cc : Fin 2) (s : State) : Ans :=
  .next (if s.module_.v36 && !s.module_.jtagEn && (!(s.cc cc).running || (s.cc cc).failed) then s.romBoot cc else s)

/-- New stage 1 and operating system images go into the bank that the chiplet did not boot from, and it
restarts from there. -/
def State.reload (s : State) (cc bank : Nat) (stage1 os : List Byte) : State :=
  let f := s.flash cc
  let s := s.setFlash cc (f.setBank bank { f.bank bank with stage1 := stage1, os := os })
  s.romBoot cc

/-- CONTROL_FIRMWARE_UPDATE (R398): the standby is updated and restarted, takes the role over in a planned
failover, and the former active chiplet is updated in its turn. DEDUCED, log entry 48. -/
def execControlFirmwareUpdate (stage1 os : List Byte) (s : State) : Ans :=
  match s.active with
  | none => .next s
  | some old =>
    let new := 1 - old
    if !s.mayServe 1 new || !(s.cc new).running then .next s
    else match s.check new 2 stage1 with
    | (s, 0) =>
      match s.check new 3 os with
      | (s, 0) =>
        let bank := 1 - s.getF R.SEC.BOOT_STATUS.BANK 0
        let s := (s.setF R.SEC.BOOT_CTL.PREF_BANK 0 bank).reload new bank stage1 os
        if !(s.cc new).running then .next s
        else
          let t := (s.unclaim old).claim new
          .next ((if t.active = some new then t.succeed old new false else t).reload old bank stage1 os)
      | (s, _) => .next s
    | (s, _) => .next s

/-! ### Link chiplets and lanes (R398) -/

def portsOfChip (lc : Nat) : List Nat := (List.range 4).map (4 * lc + ·)

/-- Nothing waits in the chiplet or on its ports. -/
def State.chipDrained (s : State) (lc : Nat) : Bool :=
  let c := s.chip lc
  c.inbox.isEmpty && c.landed.isEmpty && c.unans.isEmpty &&
    (portsOfChip lc).all fun p => (s.port p).unacked.isEmpty && (s.port p).waiting.isEmpty

/-- LINK_CHIPLET_UPDATE (R398): at a mark the chiplet's ports leave every port set; once it has drained it is
reloaded, its ports retrain on the lanes that pass, and they rejoin at the next mark. DEDUCED, log entry 48. -/
def execLinkChipletUpdate (lc : Fin 10) (obj : List Byte) (lanes : List Nat) (s : State) : Ans :=
  if !s.mayServe 3 lc || !s.hosted 5 lc then .next s
  else match s.check s.activeCc 5 obj with
  | (s, 0) =>
    let s := if s.serving 3 then s
      else ((s.modFab fun f => { f with out := f.out ++ portsOfChip lc }).serve 3 1 lc).updatePorts
    if !s.chipDrained lc then .next s
    else
      let s := (s.extend s.activeCc 3 (objDigest obj)).modSec fun x => { x with image := Tab.set 0 x.image 5 (objSvn obj) }
      let s := each ((portsOfChip lc).zipIdx) s fun s p =>
        let pass := lanes.getD p.2 0x1FF % 512
        let (m, w) := trainOn pass
        let s := s.modPort p.1 fun _ => { good := pass }
        let s := (s.setF R.LPT.TRAIN_STATUS.WIDTH p.1 w).setF R.LPT.TRAIN_STATUS.LANES p.1 m
        let s := s.setF R.LPT.TRAIN_STATUS.SPARE_USED p.1 (bit m 8)
        if s.getF R.ROOT.SEAL.SEALED 0 = 1 then s.setF R.LPT.EGRESS_CAP.CAP p.1 (fieldAt s.sec.limits 5 1) else s
      let s := s.serveEnd
      .next (if s.marks then s else (s.modFab fun f => { f with out := [] }).updatePorts)
  | (s, _) => .next s

/-- LANE_CALIBRATION (R241, R398): the free spare takes the lane; the same command again ends the calibration and
releases the spare. Each pause is carried by replay (R244). DEDUCED, log entry 48. -/
def execLaneCalibration (p : Fin 40) (lane : Fin 9) (s : State) : Ans :=
  let used := s.getF R.LPT.TRAIN_STATUS.LANES p
  let q := s.port p
  let put := fun (s : State) (m : Nat) (c : Option Nat) =>
    let s := (s.setF R.LPT.TRAIN_STATUS.LANES p m).setF R.LPT.TRAIN_STATUS.SPARE_USED p (bit m 8)
    s.modPort p fun q => { q with calib := c, replay := !q.unacked.isEmpty }
  if !s.mayServe 4 p || !s.portUp p then .next s
  else match q.calib with
  | some k =>
    if k % 16 ≠ lane.val then .next s
    else .next ((put s (used - 2 ^ (k / 16) + 2 ^ lane.val) none).serveEnd)
  | none =>
    if s.getF R.LPT.TRAIN_STATUS.WIDTH p ≠ 3 || !flag used lane then .next s
    else match (maskList 9 q.good).find? fun i => !flag used i with
    | some spare => .next ((put s (used - 2 ^ lane.val + 2 ^ spare) (some (lane + 16 * spare))).serve 4 2 p)
    | none => .next s

/-! ### Port chiplets and sensors (R398) -/

/-- An admitted job partition has a tier-2 region, and the chiplet's root ports carry tier 2. -/
def State.t2InUse (s : State) (pc : Nat) : Bool :=
  (s.cxl.ports.any fun p => p / 2 == pc) && s.allJobs.any fun p => p.2.prog.regions.any fun r => r.space == 2

/-- PORT_CHIPLET_UPDATE (R398): the chiplet goes down with its root ports while the lease stays with the other; the
same command again ends the reload, and the active chiplet holds the lease in it again. DEDUCED, log entry 48. -/
def execPortChipletUpdate (pc : Fin 2) (obj : List Byte) (s : State) : Ans :=
  if !s.mayServe 5 pc || s.t2InUse pc then .next s
  else match s.check s.activeCc 6 obj with
  | (s, 0) =>
    let down := (s.ctl.powered.filter (· != pc.val))
    if s.serving 5 then
      let s := (s.extend s.activeCc 3 (objDigest obj)).modSec fun x => { x with image := Tab.set 0 x.image 6 (objSvn obj) }
      let a := s.active
      let s := (s.modCtl fun c => { c with powered := c.powered ++ [pc.val] }).serveEnd
      let s := { s with cxl := { s.cxl with loadedAt := Tab.set none s.cxl.loadedAt pc (some s.now) } }
      .next (match a with
        | some cc => s.claim cc
        | none => s)
    else if down.isEmpty then .next s
    else
      let s := s.modCtl fun c => { c with powered := down, leases := c.leases.filter fun e => e.1 != pc.val }
      let s := { s with cxl := { s.cxl with up := s.cxl.up.filter fun p => p / 2 != pc.val, loadedAt := Tab.set none s.cxl.loadedAt pc none } }
      let s := each [2 * pc.val, 2 * pc.val + 1] s fun s p =>
        let s := s.setPort p R.PCH.PORT_STATUS0.WIDTH R.PCH.PORT_STATUS1.WIDTH 0
        let s := s.setPort p R.PCH.PORT_STATUS0.RATE R.PCH.PORT_STATUS1.RATE 0
        s.setPort p R.PCH.PORT_STATUS0.CXL R.PCH.PORT_STATUS1.CXL 0
      .next (s.serve 5 2 pc)
  | (s, _) => .next s

/-- SENSOR_CALIBRATION (R398): one sensor of a region at a time; its readings are left out meanwhile. The same
command again ends it. Other operations do not keep it from starting (R399). DEDUCED, log entry 48. -/
def execSensorCalibration (r : Fin 36) (sensor : Fin 8) (s : State) : Ans :=
  if !s.module_.v36 || sensorsOf r ≤ sensor.val then .next s
  else match (s.region r).calib with
  | some n =>
    if n ≠ sensor.val then .next s
    else
      let s := s.modRegion r fun x => { x with calib := none }
      .next (if s.serving 6 then s.serveEnd else s)
  | none =>
    let s := s.modRegion r fun x => { x with calib := some sensor.val }
    .next (if s.serving 0 then s.serve 6 2 r else s)

end Sys2Proof.Machine
end

