-- ==== Sys2Proof/Machine/ModuleIf.lean ====
section
/-! DEFINITION. The module interface: reset and input supply (R404, R405), reference inputs (R408), SMBus (R411 to
R413), JTAG (R414). -/

namespace Sys2Proof.Machine

/-! ### Control outputs (R406, R413) -/

/-- MOD_PRSNT_N is joined to ground inside the module (R402). -/
def modPrsntN : Bool := false
/-- MOD_PG_CTRL, from 2 ms after time 0 while the supplies of the control and port chiplets are good. With JTAG_EN high the
port chiplets are not powered (R414). DEDUCED, log entry 49. -/
def State.modPgCtrl (s : State) : Bool := s.module_.v36 && !s.module_.jtagEn && decide (2000000 ≤ s.now)
/-- MOD_READY. -/
def State.modReady (s : State) : Bool := s.getF R.SEC.BOOT_STATUS.STAGE 0 == 6
/-- MOD_FAULT_N, low from a module trip until the restart reaches stage 6, and at stage 7. -/
def State.modFaultN (s : State) : Bool := !s.module_.faultN
/-- THERMTRIP_N, low from a thermal trip until the next boot reaches stage 6. -/
def State.thermtripN (s : State) : Bool := !s.module_.thermN
/-- SMB_ALERT_N, low while any alert bit is set. -/
def State.smbAlertN (s : State) : Bool := s.module_.alerts == 0

/-- PE_RST_Nk of root port k (R409): low until 100 ms after its port chiplet's firmware is loaded, and while the port is
retrained or the firmware is replaced. -/
def State.peRstN (s : State) (k : Nat) : Bool :=
  s.module_.v36 && (Tab.get none s.cxl.loadedAt (k / 2)).any (fun t => decide (t + 100000000 ≤ s.now)) && !s.cxl.training.contains k

/-! ### Reset and supply (R404, R405, R408) -/

/-- MOD_RST_N_ASSERT (R405): the isolation opens, as though 36 V were absent. -/
def execModRstNAssert (s : State) : Ans := .next (s.remove36.modModule fun m => { m with rstN := false })

/-- MOD_RST_N_RELEASE (R405): the isolation closes, which is time 0. DESIGN CHOICE, log entry 49. -/
def execModRstNRelease (s : State) : Ans :=
  if s.module_.rstN then .next s else .next (s.modModule fun m => { m with rstN := true }).powerOn

/-- INPUT_UNDERVOLTAGE (R404). -/
def execInputUndervoltage (s : State) : Ans := .next (s.inputFault 1)
/-- INPUT_OVERVOLTAGE (R404). -/
def execInputOvervoltage (s : State) : Ans := .next (s.inputFault 2)

/-- The isolation opens (R404). -/
def State.isolate (s : State) : State := if s.module_.v36 then s.remove36 else s
/-- CONTROL_UNDERVOLTAGE (R404). -/
def execControlUndervoltage (s : State) : Ans := .next s.isolate
/-- ISOLATION_OVERVOLTAGE (R404). -/
def execIsolationOvervoltage (s : State) : Ans := .next s.isolate

/-- REFCLK_LOSS (R408): both inputs have been absent for 10 µs. DESIGN CHOICE, log entry 49. -/
def execRefclkLoss (s : State) : Ans := .next ((s.modModule fun m => { m with refclk0 := false, refclk1 := false }).moduleTrip 3)

/-! ### SMBus (R411 to R413) -/

/-- The target answers from 50 ms after MOD_PG_CTRL rises (R411). -/
def State.smbusUp (s : State) : Bool := s.modPgCtrl && decide (52000000 ≤ s.now)

/-- The target answers a read; before it does, there is no answer. DESIGN CHOICE, log entry 49. -/
def State.smbus (s : State) (out : List Byte) : State :=
  s.modModule fun m => { m with response := if s.smbusUp then out else [] }

/-- READ_REG (R411, R412): only the ROOT and RGN pages; the register after a refusal is a free value.
DESIGN CHOICE, log entry 6; DESIGN CHOICE, log entry 49. -/
def execReadReg (g : BitVec 8) (i off : BitVec 16) (s : State) : Ans :=
  let bad := if g.toNat ≠ 0 && g.toNat ≠ 8 then 1
    else if pageInstances g.toNat ≤ i.toNat || off.toNat % 4 ≠ 0 || 0x1000 ≤ off.toNat then 2 else 0
  if bad = 0 then .next (s.smbus (natLE 1 0 ++ natLE 4 (s.regRead g.toNat i.toNat off.toNat)))
  else .next ({ s with free := s.free + 4 }.smbus (natLE 1 bad ++ freeBytes s.free 4))

/-- INPUT (R412). -/
def execInput (s : State) : Ans := .next (s.smbus (natLE 2 s.module_.volt ++ natLE 2 s.module_.amps ++ natLE 2 s.module_.power))

/-- ALERT_STATUS (R412, R413). -/
def execAlertStatus (s : State) : Ans := .next (s.smbus (natLE 2 s.module_.alerts))

/-- ALERT_CLEAR (R8, R412, R413): each 1 clears its alert bit, but for one that is set in the same cycle. -/
def execAlertClear (v : BitVec 16) (s : State) : Ans :=
  let v := v.toNat - (v.toNat &&& Tab.get 0 s.fresh alertKey)
  .next (if s.smbusUp then s.modModule fun m => { m with alerts := m.alerts - (m.alerts &&& v) } else s)

/-- IDENT (R412): DEV_ID, DEV_REV and SERIAL. -/
def execIdent (s : State) : Ans :=
  let g := fun (f : Fld) => s.getF f 0
  .next (s.smbus (natLE 4 (g R.ROOT.DEV_ID.ID) ++
    natLE 4 (g R.ROOT.DEV_REV.MINOR + g R.ROOT.DEV_REV.STEPPING * 2 ^ 8 + g R.ROOT.DEV_REV.LAYOUT * 2 ^ 16) ++
    natLE 8 Config.serial.toNat))

/-! ### JTAG (R414) -/

/-- TAP_INSTRUCTION (R414): SAMPLE/PRELOAD and EXTEST are accepted only with JTAG_EN high; `pins` are the levels
that the boundary register holds. DESIGN CHOICE, log entry 49. -/
def execTapInstruction (op : TapOp) (pins : List Nat) (s : State) : Ans :=
  let set := fun (out : List Nat) => s.modModule fun m => { m with tap := op, tapOut := out }
  match op with
  | .bypass => .next (set [])
  | .idcode => .next (set [0xB726093B])
  | .samplePreload => .next (if s.module_.jtagEn then set pins else s)
  | .extest => .next (if s.module_.jtagEn then set pins else s)

/-- TRST_N_RESET (R414). DESIGN CHOICE, log entry 49. -/
def execTrstNReset (s : State) : Ans := .next (s.modModule fun m => { m with tap := .idcode, tapOut := [] })

/-! ### The tick -/

/-- One reference cycle passes while no command waits: recoveries that have regained their point are timed (R315),
DEV_TIME advances at its rate (R331, R332), a front completes (R336), the cycle of what was set or refused is over (R5, R8), and a hold requested after the device's gate input
has gone is reported to the gate (R283). DESIGN CHOICE, log entry 3. -/
def State.tick (s : State) : State :=
  if !s.module_.v36 then s
  else
    let s := each ((List.range 24).filter s.regained) s State.finishRecovery
    let t := { s with time := s.time + cycleTime s.rate }
    let t := if t.frontPending then t.frontCheck else t
    let t := { t with fresh := [], ctl := { t.ctl with busErr := none } }
    if t.tally.gate.active && t.tally.gate.sentGood then t.gateProgress else t

end Sys2Proof.Machine
end

