-- ==== Sys2Proof/Machine/Accum.lean ====
section
/-! DEFINITION. The accumulator unit: ACCMRG, ACCPART, ACCRND, ACCCLR and CHFIN (R46, R48, R109, R110,
R141, R142). -/

namespace Sys2Proof.Machine

/-- SLOT and N of an accumulator instruction: the slots' range. -/
def accRng (slot n : Nat) : Rng := ⟨16 * slot, 16 * n⟩

/-- The lengths of n packed partials that follow one another from `a`, or none when one runs out of the
area (R85, R109). -/
def packedLens (c : CoreSite) (start : Nat) : Nat → Nat → Option (List Nat)
  | _, 0 => some []
  | a, n + 1 =>
    if !rdOk start (a + 8 - start) then none else
    let l := 8 + 4 * partialSegs (c.rdLm a 8)
    if !rdOk start (a + l - start) then none else
    (packedLens c start (a + l) n).map (l :: ·)

/-- The partials at an address, by their lengths. -/
def CoreSite.partials (c : CoreSite) : Nat → List Nat → List (List Byte)
  | _, [] => []
  | a, l :: ls => c.rdLm a l :: c.partials (a + l) ls

/-- R109: merge one partial into a slot. -/
def Run.mergeSlot (x : Run) (first : Bool) (addr : Nat) (p : List Byte) : Run :=
  if x.cap then x else
  let arr := x.c.slotArray addr
  let x := if partialOk p then x else x.raise formatReport
  let (x, a) := if first then (x.setC { x.c.releaseSlot addr with slotArr := x.c.slotArr }, Acc.zero)
    else x.readSlot addr
  let t := a.merge p
  (x.lostCheck a t).writeSlot addr t arr

/-- Merge partials into consecutive slots, in order. -/
def Run.mergeAll (x : Run) (first : Bool) : Nat → List (List Byte) → Run
  | _, [] => x
  | a, p :: ps => (x.mergeSlot first a p).mergeAll first (a + 16) ps

/-- ACCMRG: [112] CELLS, [114] FIRST, [111:88] SRC, [87:71] SLOT, [70:59] N−1 (R109). DEDUCED, log entry 11. -/
def coreAccmrg (w : IWord) (x : Run) : CoreRes :=
  let src := x.c.la (wf w 111 88)
  let n := wf w 70 59 + 1
  let slots := accRng (wf w 87 71) n
  let lens := if wb w 112 then (if rdOk src (96 * n) then some (List.replicate n 96) else none)
    else if src % 16 = 0 then packedLens x.c src src n else none
  match lens with
  | none => .fault .illegal x
  | some ls =>
    if !wrOk slots.lo slots.len then .fault .illegal x else
    x.issueWith { unit := .accum, opc := 0x50, pc := x.c.pc, ctr := completion w, rd := [⟨src, ls.sum⟩],
                  slots := [slots] } true fun y =>
      let z := (y.setC y.c.advance).mergeAll (wb w 114) slots.lo (y.c.partials src ls)
      if z.cap then .fault .capacity { z with c := { z.c with pc := x.c.pc } } else .ok z

/-- R56: check n slots read for forming or rounding. -/
def Run.checkSlots (x : Run) (accOff : Bool) (addr : Nat) (accs : List Acc) : Run :=
  (accs.foldl (fun (t : Run × Nat) a =>
    (t.1.accCheck accOff (x.c.slotArray (addr + 16 * t.2)) (t.2 / 128) (t.2 % 128) a, t.2 + 1)) (x, 0)).1

/-- The bytes ACCPART writes (R47, R100). -/
def partBytes (cells : Bool) (accs : List Acc) : List Byte :=
  accs.flatMap fun a => if cells then a.toCell else a.toPartial

/-- ACCPART: [112] CELLS, [113] REL, [111:88] DST, [87:71] SLOT, [70:59] N−1 (R46, R109). -/
def coreAccpart (accOff : Bool) (w : IWord) (x : Run) : CoreRes :=
  let dst := x.c.la (wf w 111 88)
  let n := wf w 70 59 + 1
  let slots := accRng (wf w 87 71) n
  if !wrOk slots.lo slots.len then .fault .illegal x else
  let len := (partBytes (wb w 112) (x.readSlots slots.lo n).2).length
  if !wrOk dst len then .fault .illegal x else
  x.queue { unit := .accum, opc := 0x51, pc := x.c.pc, ctr := completion w, wr := [⟨dst, len⟩],
            slots := [slots] } fun x =>
    let (x, accs) := x.readSlots slots.lo n
    let x := x.checkSlots accOff slots.lo accs
    let x := x.setC (x.c.wrLm dst (partBytes (wb w 112) accs))
    if wb w 113 then x.releaseSlots slots.lo n else x

/-- Rows of 128 slots, the last one of the slots left (R109). DESIGN CHOICE, log entry 57. -/
def accRows (n : Nat) : List (Nat × Nat) :=
  (List.range (ceilDiv n 128)).map fun r => (r, min 128 (n - 128 * r))

/-- ACCRND: [111:88] ODST, [87:71] SLOT, [70:59] N−1, [58:55] EPI, [54:50] GTA, [49:45] GTW (R106, R109). -/
def coreAccrnd (accOff : Bool) (w : IWord) (x : Run) : CoreRes :=
  let odst := x.c.la (wf w 111 88)
  let n := wf w 70 59 + 1
  let slots := accRng (wf w 87 71) n
  match namedDesc x.c (wf w 58 55) with
  | none => .fault .illegal x
  | some epi =>
    if (match epi with | some d => dKind d != 2 | none => false) then .fault .illegal x
    else if (x.c.scale (wf w 54 50)).isNone || (x.c.scale (wf w 49 45)).isNone || !outScalesOk x.c epi then
      .fault .format x
    else
      let rows := accRows n
      let at_ := fun (r : Nat) => odst + r * outPitch epi 128
      let ex := rows.map fun r => outRngs x.c epi r.1 r.2
      let rd := ex.flatMap (·.1)
      let wr := rows.map fun r => (⟨at_ r.1, outSize epi r.2⟩ : Rng)
      let sl := slots :: ex.flatMap (·.2.2)
      if !(rngsRd rd && rngsWr wr && rngsWr sl) then .fault .illegal x else
      x.issueWith { unit := .accum, opc := 0x52, pc := x.c.pc, ctr := completion w, rd := rd, wr := wr,
                    slots := sl, descs := descName (wf w 58 55) } true fun y =>
        let (z, accs) := (y.setC y.c.advance).readSlots slots.lo n
        let z := z.checkSlots accOff slots.lo accs
        let ta := z.c.scaleRat (wf w 54 50)
        let tw := z.c.scaleRat (wf w 49 45)
        let z := rows.foldl (fun z r =>
          z.emitRow epi r.1 ((accs.drop (128 * r.1)).take r.2) ta tw (at_ r.1)
            (z.c.slotArray (slots.lo + 2048 * r.1))) z
        let z := z.releaseSlots slots.lo n
        if z.cap then .fault .capacity { z with c := { z.c with pc := x.c.pc } } else .ok z

/-- ACCCLR: [87:71] SLOT, [70:59] N−1 (R109). -/
def coreAccclr (w : IWord) (x : Run) : CoreRes :=
  let n := wf w 70 59 + 1
  let slots := accRng (wf w 87 71) n
  if !wrOk slots.lo slots.len then .fault .illegal x else
  x.queue { unit := .accum, opc := 0x53, pc := x.c.pc, ctr := completion w, slots := [slots] } fun x =>
    x.releaseSlots slots.lo n

/-- CHFIN: [111:88] ODST, [87:71] SLOT, [70:54] DSLOT, [53:44] G−1, [43:41] D (R110, R141, R142).
DEDUCED, log entry 13. -/
def coreChfin (accOff : Bool) (w : IWord) (x : Run) : CoreRes :=
  let odst := x.c.la (wf w 111 88)
  let g := wf w 53 44 + 1
  let d := x.c.desc (wf w 43 41)
  if dKind d != 3 then .fault .illegal x
  else if (x.c.scale (bits d 54 50)).isNone || (decide (bits d 27 24 < 13) && (x.c.scale (bits d 49 45)).isNone) then
    .fault .format x
  else
    let f := OFmt.ofCode (bits d 27 24)
    let num := fun (r : Nat) => 16 * (wf w 87 71 + 128 * r)
    let den := fun (r : Nat) => 16 * (wf w 70 54 + r)
    let rows := List.range g
    let rd := rows.map fun r => (⟨x.c.la (bits d 185 162) + 8 * r, 8⟩ : Rng)
    let wr := rows.map fun r => (⟨odst + r * f.pitch 128, f.size 128⟩ : Rng)
    let sl := rows.flatMap fun r => [(⟨num r, 2048⟩ : Rng), ⟨den r, 16⟩]
    if !(rngsRd rd && rngsWr wr && rngsWr sl) then .fault .illegal x else
    x.queue { unit := .accum, opc := 0x61, pc := x.c.pc, ctr := completion w, rd := rd, wr := wr, slots := sl,
              descs := [wf w 43 41] } fun x =>
      rows.foldl (fun x r => x.finRow d r (num r) (den r) (odst + r * f.pitch 128) accOff) x

end Sys2Proof.Machine
end

