-- ==== Sys2Proof/Machine/MatchUnit.lean ====
section
/-! DEFINITION. The match table: SMLD and SMCLR (R115, R160, R164). -/

namespace Sys2Proof.Machine

/-- The table and the drops while a list is taken (R160): out of range, duplicate, excess. -/
structure MatchAcc where
  tab : List (Nat × Nat)
  oor : Nat
  dup : Nat
  exc : Nat
  deriving DecidableEq, Repr

/-- R160: one index at list place e. -/
def MatchAcc.take (t : MatchAcc) (krange e idx : Nat) : MatchAcc :=
  if idx = 0xFFFF then t
  else if krange ≤ idx then { t with oor := t.oor + 1 }
  else if t.tab.any (fun p => p.1 == idx) then { t with dup := t.dup + 1 }
  else if 512 ≤ t.tab.length then { t with exc := t.exc + 1 }
  else { t with tab := t.tab ++ [(idx, e)] }

/-- R160: the list taken in order. -/
def matchLoad (krange : Nat) (l : List Nat) : MatchAcc :=
  (l.foldl (fun (p : MatchAcc × Nat) i => (p.1.take krange p.2 i, p.2 + 1)) (⟨[], 0, 0, 0⟩, 0)).1

/-- The 16-bit words of a list. -/
def CoreSite.words16 (c : CoreSite) (a n : Nat) : List Nat :=
  (List.range n).map fun i => leNat (c.rdLm (a + 2 * i) 2)

/-- SMLD: [111:88] LA, 2-byte aligned, [87:78] COUNT, [77:62] KRANGE (R115, R160). -/
def coreSmld (w : IWord) (x : Run) : CoreRes :=
  let la := x.c.la (wf w 111 88)
  let n := wf w 87 78
  if !(la % 2 == 0 && rdOk la (2 * n)) then .fault .illegal x else
  x.queue { unit := .matcher, opc := 0x90, pc := x.c.pc, ctr := completion w, rd := [⟨la, 2 * n⟩] } fun x =>
    let t := matchLoad (wf w 77 62) (x.c.words16 la n)
    let x := ((x.bump R.CORE.SPARSE_DROPS.OUT_OF_RANGE t.oor).bump R.CORE.SPARSE_DROPS.DUPLICATE t.dup).bump
      R.CORE.SPARSE_DROPS.EXCESS t.exc
    let d := t.oor + t.dup + t.exc
    let x := if d = 0 then x else x.raise (.smldDrop d)
    x.setC { x.c with mt := t.tab, mtCount := n }

/-- SMCLR (R115, R160): the table is emptied; the COUNT of the last SMLD stands (R162). DEDUCED, log entry 13. -/
def coreSmclr (w : IWord) (x : Run) : CoreRes :=
  x.queue { unit := .matcher, opc := 0x91, pc := x.c.pc, ctr := completion w } fun x =>
    x.setC { x.c with mt := [] }

end Sys2Proof.Machine
end

