-- ==== Sys2Proof/Machine/Sequencer.lean ====
section
/-! DEFINITION. The instructions that the sequencer executes itself (R83, R88, R89, R96 to R98, R102,
R103, R110, R116, R119): what their issue does to the core site. -/

namespace Sys2Proof.Machine

def Run.advance (x : Run) : CoreRes := .ok { x with c := x.c.advance }

/-- A taken branch to a checked target, or the illegal-instruction fault of R94. -/
def Run.branch (x : Run) (off : Int) (taken : Bool) : CoreRes :=
  match branchTo x.c.pc off with
  | none => .fault .illegal x
  | some t => if taken then .ok { x with c := { x.c with pc := t } } else x.advance

/-- NOP (R96). -/
def seqNop (_ : IWord) (x : Run) : CoreRes := x.advance

/-- A sequencer instruction that first waits until every unit is idle (R96, R98, R116). -/
def Run.drainFor (x : Run) (d : Drain) : CoreRes :=
  .ok { x with c := { x.c with st := .draining, drain := d } }

/-- END: [111:96] CODE (R98). -/
def seqEnd (w : IWord) (x : Run) : CoreRes := x.drainFor (.fin (wf w 111 96))

/-- FENCE (R96). -/
def seqFence (_ : IWord) (x : Run) : CoreRes := x.drainFor .fence

/-- JMP: [111:92] OFF (R83). -/
def seqJmp (w : IWord) (x : Run) : CoreRes := x.branch (sext 20 (wf w 111 92)) true

/-- BR: [111:107] GA, [106:102] GB, [101:99] COND, [98:79] OFF (R97). -/
def seqBr (w : IWord) (x : Run) : CoreRes :=
  match condHolds (wf w 101 99) (x.c.greg (wf w 111 107)) (x.c.greg (wf w 106 102)) with
  | none => .fault .illegal x
  | some t => x.branch (sext 20 (wf w 98 79)) t

/-- LOOP: [111:107] GA, [106:87] OFF (R97). -/
def seqLoop (w : IWord) (x : Run) : CoreRes :=
  let a := wf w 111 107
  let v := x.c.greg a - 1
  match branchTo x.c.pc (sext 20 (wf w 106 87)) with
  | none => .fault .illegal x
  | some t => .ok { x with c := { x.c.setG a v with pc := if v = 0 then nextPc x.c.pc else t } }

/-- CALL: [111:92] OFF; the return stack holds 8 addresses (R96). -/
def seqCall (w : IWord) (x : Run) : CoreRes :=
  match branchTo x.c.pc (sext 20 (wf w 111 92)) with
  | none => .fault .illegal x
  | some t =>
    if 8 ≤ x.c.ret.length then .fault .sequencing x
    else .ok { x with c := { x.c with ret := nextPc x.c.pc :: x.c.ret, pc := t } }

/-- RET (R96). -/
def seqRet (_ : IWord) (x : Run) : CoreRes :=
  match x.c.ret with
  | [] => .fault .sequencing x
  | t :: r => .ok { x with c := { x.c with ret := r, pc := t } }

/-- WAIT: [111:109] U, [108:93] N (R89). -/
def seqWait (w : IWord) (x : Run) : CoreRes :=
  let u := wf w 111 109
  let n := wf w 108 93
  if n ≤ x.c.ctr u then .ok { x with c := (x.c.setCtr u (x.c.ctr u - n)).advance }
  else .ok { x with c := { x.c with st := .inWait, wait := .ctr u n } }

/-- TWAIT: [111:104] TOKEN, [103:88] COUNT (R102). -/
def seqTwait (w : IWord) (x : Run) : CoreRes :=
  let t := wf w 111 104
  let n := wf w 103 88
  if n ≤ x.c.token t then .ok { x with c := (x.c.setToken t (x.c.token t - n)).advance }
  else .ok { x with c := { x.c with st := .inTwait, wait := .token t n } }

/-- SETI: [111:107] GD, [63:0] IMM (R96). -/
def seqSeti (w : IWord) (x : Run) : CoreRes :=
  .ok { x with c := (x.c.setG (wf w 111 107) (BitVec.ofNat 64 (wf w 63 0))).advance }

/-- The second operand of ALU: GB, or the sign-extended immediate when USE_IMM = 1. -/
def aluSecond (w : IWord) (c : CoreSite) : GWord :=
  if wb w 112 then BitVec.ofInt 64 (sext 32 (wf w 31 0)) else c.greg (wf w 101 97)

/-- ALU: [111:107] GD, [106:102] GA, [101:97] GB, [96:93] FN, [31:0] IMM, [112] USE_IMM (R97). -/
def seqAlu (w : IWord) (x : Run) : CoreRes :=
  match aluFn (wf w 96 93) (x.c.greg (wf w 106 102)) (aluSecond w x.c) with
  | none => .fault .illegal x
  | some v => .ok { x with c := (x.c.setG (wf w 111 107) v).advance }

/-- LDG: [111:107] GD, [106:83] LA, 8-byte aligned (R96). -/
def seqLdg (w : IWord) (x : Run) : CoreRes :=
  let a := x.c.la (wf w 106 83)
  if a % 8 = 0 && rdOk a 8 then
    x.issueWith { unit := .seq, opc := 0x12, pc := x.c.pc, rd := [⟨a, 8⟩] } false fun x =>
      .ok { x with c := (x.c.setG (wf w 111 107) (BitVec.ofNat 64 (leNat (x.c.rdLm a 8)))).advance }
  else .fault .illegal x

/-- STG: [111:107] GS, [106:83] LA, 8-byte aligned (R96). -/
def seqStg (w : IWord) (x : Run) : CoreRes :=
  let a := x.c.la (wf w 106 83)
  if a % 8 = 0 && wrOk a 8 then
    x.issueWith { unit := .seq, opc := 0x13, pc := x.c.pc, wr := [⟨a, 8⟩] } false fun x =>
      .ok { x with c := (x.c.wrLm a (natLE 8 (x.c.gn (wf w 111 107)))).advance }
  else .fault .illegal x

/-- CHKG: [111:107] GA, [106:104] COND, [31:0] IMM, [112] STOP (R103). -/
def seqChkg (w : IWord) (x : Run) : CoreRes :=
  match condHolds (wf w 106 104) (x.c.greg (wf w 111 107)) (BitVec.ofInt 64 (sext 32 (wf w 31 0))) with
  | none => .fault .illegal x
  | some true => x.advance
  | some false => if wb w 112 then .fault .check x.checkEvent else x.checkEvent.advance

/-- RMARK: [111:96] MARK_ID (R116). -/
def seqRmark (w : IWord) (x : Run) : CoreRes := x.drainFor (.rmark (wf w 111 96))

/-- TMARK, on the core that the loaded program designates (R94, R116). -/
def seqTmark (designated : Bool) (_ : IWord) (x : Run) : CoreRes :=
  if designated then x.drainFor .tmark else .fault .illegal x

/-! ### Descriptors (R119, R123, R125, R132, R143) -/

/-- An output-format code of R125: MX 0x0 to 0x9, 0xD FP32, 0xE BF16, 0xF FP16. -/
def outFmtOk (n : Nat) : Bool := decide (n ≤ 9) || decide (13 ≤ n)

/-- The least length, in 16-byte units, of a descriptor kind (R119). -/
def kindLen : Nat → Option Nat
  | 1 => some 2
  | 2 => some 3
  | 3 => some 3
  | 4 => some 1
  | _ => none

/-- R119: the fields that a descriptor's mode and settings use hold defined codes. -/
def descFieldsOk (d : Nat) : Bool :=
  match bits d 7 0 with
  | 1 =>
    let m := bits d 19 16
    decide (1 ≤ m) && decide (m ≤ 4) && ((m != 2 && m != 3) || decide (bits d 23 20 ≤ 8))
  | 2 =>
    outFmtOk (bits d 19 16) && decide (bits d 21 20 ≤ 2) && decide (bits d 24 22 ≤ 4) &&
      (!flag d 32 || (outFmtOk (bits d 36 33) && bits d 36 33 != 9))
  | 3 =>
    decide (bits d 19 16 ≤ 4) && decide (bits d 22 21 ≤ 1) && outFmtOk (bits d 27 24) &&
      decide (bits d 29 28 ≤ 2)
  | 4 =>
    decide (bits d 19 16 ≤ 9) && decide (bits d 21 20 ≤ 2) && [1, 3, 4].contains (bits d 24 22)
  | _ => false

/-- R119: CHSET accepts a descriptor's kind, length and fields. -/
def descOk (d : Nat) : Bool :=
  match kindLen (bits d 7 0) with
  | none => false
  | some n => decide (n ≤ bits d 11 8 + 1) && descFieldsOk d

/-- CHSET: [111:88] LA, 16-byte aligned, [87:85] D (R90, R110, R119). -/
def seqChset (w : IWord) (x : Run) : CoreRes :=
  let a := x.c.la (wf w 111 88)
  let r := wf w 87 85
  if !(a % 16 == 0 && rdOk a 16) then .fault .illegal x
  else if x.c.fly.any (fun f => f.descs.contains r) then .stall
  else
    let n := 16 * (bits (leNat (x.c.rdLm a 16)) 11 8 + 1)
    if !rdOk a n then .fault .illegal x else
    x.issueWith { unit := .seq, opc := 0x60, pc := x.c.pc, rd := [⟨a, n⟩] } false fun x =>
      let d := leNat (x.c.rdLm a n)
      if descOk d then .ok { x with c := { x.c with d := Tab.set 0 x.c.d r d }.advance }
      else .fault .illegal x

end Sys2Proof.Machine
end

