-- ==== Sys2Proof/Machine/Vector.lean ====
section
/-! DEFINITION. The vector unit: VOP, VFN, VRED, VACC, VCVT, VLD and VST (R49, R77 to R79, R111 to R113). -/

namespace Sys2Proof.Machine

/-- The elements of a vector register in a format (R111). -/
def vecElems (f : IFmt) (bs : List Byte) : List Nat :=
  (List.range (512 / f.bytes)).map fun i => leNat ((bs.drop (f.bytes * i)).take f.bytes)

/-- Elements packed from element 0 up. -/
def vecBytes (f : IFmt) (l : List Nat) : List Byte := l.flatMap (natLE f.bytes ·)

/-- The stream of GS, GT and GX (R111). -/
def vecDraw (c : CoreSite) (m : Rnd) (gs gt gx : Nat) : Draw := ⟨m, c.gn gs, c.gn gt % 2 ^ 32, c.gn gx⟩

/-- R78: the result that a vector instruction writes, its saturations and NaNs. A zero result is +0. -/
def vecRound (v : Num) (f : IFmt) (m : Rnd) (r : Nat) : Cnted :=
  match v with
  | .fin q => let (c, k) := roundRat q f m r; ⟨c, k, 0⟩
  | .inf s => ⟨f.infCode s, 0, 0⟩
  | .nan => ⟨f.nanCode, 0, 1⟩

/-- R111: the VOP functions on decoded elements; none for a code above 9. -/
def vopFn (fn : Nat) (a b c : Num) : Option Num :=
  match fn with
  | 0 => some (a.add b)
  | 1 => some (a.add b.neg)
  | 2 => some (a.mul b)
  | 3 => some ((a.mul b).add c)
  | 4 => some (if a = .nan ∨ b = .nan then .nan else if b.lt a then b else a)
  | 5 => some (if a = .nan ∨ b = .nan then .nan else if a.lt b then b else a)
  | 6 => some (if a.lt (.fin 0) then a.neg else a)
  | 7 => some a.neg
  | 8 => some (if a = .nan ∨ b = .nan then .nan else if a.lt b then .fin 1 else .fin 0)
  | 9 => some (if a = .nan ∨ b = .nan ∨ c = .nan then .nan else if c = .fin 0 then b else a)
  | _ => none

/-- The operands a VOP function uses: a, b, c. -/
def vopUses (fn : Nat) : Bool × Bool :=
  (fn != 6 && fn != 7, fn == 3 || fn == 9)

/-- An operand the function does not use is not looked at. -/
def vopFn' (fn : Nat) (a b c : Num) : Option Num :=
  let (ub, uc) := vopUses fn
  vopFn fn a (if ub then b else .fin 0) (if uc then c else .fin 0)

/-- R112: an execution with ORDER_DEP = 1 is counted. -/
def Run.orderDep (x : Run) (w : IWord) : Run :=
  if wb w 112 then (x.bump R.CORE.CHK_EVENTS.ORDER_DEP 1).raise .orderDep else x

/-- Write a result register and count its events. -/
def Run.vecResult (x : Run) (vd cset : Nat) (f : IFmt) (rs : List Cnted) : Run :=
  let x := (x.count cset .sat ((rs.map (·.sat)).sum)).count cset .nan ((rs.map (·.nan)).sum)
  x.setC (x.c.setVreg vd (vecBytes f (rs.map (·.code))))

/-- VOP (R111). -/
def coreVop (w : IWord) (x : Run) : CoreRes :=
  match IFmt.ofCode (wf w 82 81), Rnd.ofCode (wf w 80 79) with
  | some f, some m =>
    let fn := wf w 87 83
    if 9 < fn then .fault .illegal x else
    x.queue { unit := .vector, opc := 0x70, pc := x.c.pc, ctr := completion w } fun x =>
      let el := fun (r : Nat) => (vecElems f (x.c.vreg r)).map (ieeeDecode f ·)
      let as := el (wf w 105 100)
      let bs := el (wf w 99 94)
      let cs := el (wf w 93 88)
      let d := vecDraw x.c m (wf w 78 74) (wf w 73 69) (wf w 68 64)
      let rs := as.mapIdx fun i a =>
        vecRound ((vopFn' fn a (bs.getD i .nan) (cs.getD i .nan)).getD .nan) f m (d.bits16 i)
      (x.orderDep w).vecResult (wf w 111 106) (bits (x.c.gn (wf w 73 69)) 39 32) f rs
  | _, _ => .fault .illegal x

def VFun.ofCode : Nat → VFun
  | 0 => .exp2
  | 1 => .log2
  | 2 => .rcp
  | _ => .rsqrt

/-- A zero of an IEEE format keeps its sign on the way into a function (R79 table). -/
def widenSigned (f : IFmt) (b : Nat) : Nat :=
  let (eb, mb, _) := f.parms
  if b % 2 ^ (eb + mb) = 0 then (if flag b (eb + mb) then 0x80000000 else 0) else (ieeeDecode f b).fp32

/-- R78, R79: the function of VFN on an element. BF16 and FP16 forms widen exactly, apply the function and
convert the result. DEDUCED, log entry 13. -/
def vfnApply (fn : VFun) (f : IFmt) (b : Nat) : Cnted :=
  if f = .fp32 then
    let (c, k) := fn.eval b
    ⟨c, k, if isNan32 c then 1 else 0⟩
  else
    let (c, k) := fn.eval (widenSigned f b)
    let r := vecRound (ieeeDecode .fp32 c) f .rne 0
    ⟨r.code, k + r.sat, r.nan⟩

/-- VFN (R79, R111); its events count in set 0xFF (R173). -/
def coreVfn (w : IWord) (x : Run) : CoreRes :=
  match IFmt.ofCode (wf w 97 96) with
  | some f =>
    x.queue { unit := .vector, opc := 0x71, pc := x.c.pc, ctr := completion w } fun x =>
      let rs := (vecElems f (x.c.vreg (wf w 105 100))).map (vfnApply (VFun.ofCode (wf w 99 98)) f)
      (x.orderDep w).vecResult (wf w 111 106) strayset f rs
  | none => .fault .illegal x

/-- R113: the elements of lane group g. -/
def laneElems (f : IFmt) (g : Nat) (l : List α) : List α :=
  let n := 16 * (4 / f.bytes)
  (l.drop (n * g)).take n

/-- VRED: [113] CLR, [105:100] VA, [99:94] VB, [93:92] FN, [91:90] VFMT (R49, R113). -/
def coreVred (w : IWord) (x : Run) : CoreRes :=
  let fn := wf w 93 92
  match IFmt.ofCode (wf w 91 90) with
  | some f =>
    if fn = 3 then .fault .illegal x else
    x.queue { unit := .vector, opc := 0x72, pc := x.c.pc, ctr := completion w } fun x =>
      let el := fun (r : Nat) => (vecElems f (x.c.vreg r)).map (ieeeDecode f ·)
      let as := el (wf w 105 100)
      let ts := match fn with
        | 0 => as
        | 1 => as.map fun a => a.mul a
        | _ => List.zipWith Num.mul as (el (wf w 99 94))
      let x := if wb w 113 then x.setC { x.c with lanes := [] } else x
      (List.range 8).foldl (fun x g =>
        let a := x.c.lane g
        let t := (laneElems f g ts).foldl Acc.addNum a
        (x.lostCheck a t).setC { x.c with lanes := Tab.set {} x.c.lanes g t }) x
  | none => .fault .illegal x

/-- VACC: [113] PART, [114] KEEP, [111:106] VD, [105:82] LA, [81:80] RND, [79:75] GS, [74:70] GT,
[69:65] GX (R113). With PART = 1 an accumulator that holds a NaN or an infinity counts in set 0xFF (R173).
DEDUCED, log entry 13. -/
def coreVacc (accOff : Bool) (w : IWord) (x : Run) : CoreRes :=
  let la := x.c.la (wf w 105 82)
  let part := wb w 113
  match Rnd.ofCode (wf w 81 80) with
  | none => .fault .illegal x
  | some m =>
    if part && !(la % 16 == 0 && wrOk la 768) then .fault .illegal x else
    x.queue { unit := .vector, opc := 0x73, pc := x.c.pc, ctr := completion w,
              wr := if part then [⟨la, 768⟩] else [] } fun x =>
      let accs := (List.range 8).map x.c.lane
      let x := (accs.foldl (fun (t : Run × Nat) a => (t.1.accCheck accOff 0 0 t.2 a, t.2 + 1)) (x, 0)).1
      let keep := fun (x : Run) => if wb w 114 then x else x.setC { x.c with lanes := [] }
      if part then
        let nums := accs.map Acc.num
        let x := (x.count strayset .sat (nums.countP fun v => v == .inf false || v == .inf true)).count strayset .nan
          (nums.countP fun v => v == .nan)
        keep (x.setC (x.c.wrLm la (accs.flatMap Acc.toCell)))
      else
        let gt := x.c.gn (wf w 74 70)
        let d := vecDraw x.c m (wf w 79 75) (wf w 74 70) (wf w 69 65)
        let rs := accs.mapIdx fun i a => roundNum a.num .fp32 m (d.bits16 i)
        keep ((x.count (bits gt 39 32) .rangeLost (accs.countP Acc.lost)).vecResult (wf w 111 106)
          (bits gt 39 32) .fp32 rs)

/-- VCVT: [111:106] VD, [105:100] VA, [99:98] FROM, [97:96] TO, [95:94] RND, [93:89] GS, [88:84] GT,
[83:79] GX (R111). -/
def coreVcvt (w : IWord) (x : Run) : CoreRes :=
  match IFmt.ofCode (wf w 99 98), IFmt.ofCode (wf w 97 96), Rnd.ofCode (wf w 95 94) with
  | some fr, some tf, some m =>
    x.queue { unit := .vector, opc := 0x74, pc := x.c.pc, ctr := completion w } fun x =>
      let n := 512 / max fr.bytes tf.bytes
      let d := vecDraw x.c m (wf w 93 89) (wf w 88 84) (wf w 83 79)
      let rs := ((vecElems fr (x.c.vreg (wf w 105 100))).take n).mapIdx fun i b =>
        vecRound (ieeeDecode fr b) tf m (d.bits16 i)
      (x.orderDep w).vecResult (wf w 111 106) (bits (x.c.gn (wf w 88 84)) 39 32) tf rs
  | _, _, _ => .fault .illegal x

/-- VLD: [111:106] VD, [105:82] LA, 16-byte aligned (R96). -/
def coreVld (w : IWord) (x : Run) : CoreRes :=
  let la := x.c.la (wf w 105 82)
  if la % 16 = 0 && rdOk la 512 then
    x.queue { unit := .vector, opc := 0x75, pc := x.c.pc, ctr := completion w, rd := [⟨la, 512⟩],
              vd := some (wf w 111 106) } fun x => x.setC (x.c.setVreg (wf w 111 106) (x.c.rdLm la 512))
  else .fault .illegal x

/-- VST: [111:106] VS, [105:82] LA, 16-byte aligned (R96). -/
def coreVst (w : IWord) (x : Run) : CoreRes :=
  let la := x.c.la (wf w 105 82)
  if la % 16 = 0 && wrOk la 512 then
    x.queue { unit := .vector, opc := 0x76, pc := x.c.pc, ctr := completion w, wr := [⟨la, 512⟩] } fun x =>
      x.setC (x.c.wrLm la (x.c.vreg (wf w 111 106)))
  else .fault .illegal x

end Sys2Proof.Machine
end

