-- ==== Sys2Proof/Machine/Issue.lean ====
section
/-! DEFINITION. How a core site issues an instruction word (R82, R94, R118, R319), and the meanings of the
instruction rows: each names the core site that holds the word next. -/

namespace Sys2Proof.Machine

/-- A site can issue: its region is on, it is in life, and its sequencer issues. DEDUCED, log entry 50. -/
def State.issuing (s : State) (site : Nat) : Bool :=
  s.regionOn (clusterOf site) && !(s.core site).dead && (s.core site).st == .issuing

/-- The fault of an issued instruction (R94, R118, R319): its events, CORE.SEQ_FAULT and the record; the
sequencer stops, and the group once earlier instructions have run to completion. DEDUCED, log entry 9. -/
def State.issueFault (s : State) (site op : Nat) (k : SeqFault) (x : Run) : State :=
  let pc := (s.core site).pc
  let c := { x.c with pc := pc, st := .stopped, drain := .fault k, wait := .none }
  let s := ({ s.setCore site c with free := x.fr }).applyEvs site pc x.ev
  let s := ((s.faultAt site pc k.code op).faultReport site pc k.code op).pump site
  s.afterDrain site

/-- The instruction issues: its events, its count unless it waits, and what the move unit then does. -/
def State.issueOk (s : State) (site : Nat) (x : Run) : State :=
  let pc := (s.core site).pc
  let s := ({ s.setCore site x.c with free := x.fr }).applyEvs site pc x.ev
  let s := if x.c.st = .issuing then s.countInstr site else s
  (s.pump site).afterDrain site

/-- Issue a word at a site by the row of opcode `op`. A word of an unlisted opcode raises an
illegal-instruction fault (R96); a word of another listed opcode is no word of this row.
DEDUCED, log entry 8; DEDUCED, log entry 9; DEDUCED, log entry 10; DESIGN CHOICE, log entry 53. -/
def issue (s : State) (site : Nat) (w : IWord) (op : Nat) (k : Run → CoreRes) : State :=
  if !s.issuing site then s
  else
    let x : Run := { c := s.core site, ev := [], fr := s.free }
    if !listedOpcode (opcode w) then s.issueFault site (opcode w) .illegal x
    else if opcode w ≠ op then s
    else match k x with
      | .stall => s
      | .fault f y => s.issueFault site op f y
      | .ok y => s.issueOk site y

/-- CORE.RES_CTL as a pass sees it (R61). -/
def State.resCtl (s : State) (site : Nat) : ResCtl where
  passOff := s.getF R.CORE.RES_CTL.PASS_CHK_OFF site == 1
  accOff := s.getF R.CORE.RES_CTL.ACC_CHK_OFF site == 1
  inj := if s.getF R.CORE.RES_CTL.INJ_ARM site = 1 then some (s.getF R.CORE.RES_CTL.INJ_ARRAY site) else none

def State.accOff (s : State) (site : Nat) : Bool := s.getF R.CORE.RES_CTL.ACC_CHK_OFF site == 1

/-- R271: the site is the designated core of the marking job partition. -/
def State.designated (s : State) (site : Nat) : Bool :=
  s.getF R.TLY.MARK_CTL.SOURCE 0 == 1 &&
    28 * s.getF R.TLY.MARK_CTL.CLUSTER 0 + s.getF R.TLY.MARK_CTL.SITE 0 == site

/-! ### Sequencer instructions -/

/-- NOP (R96). -/
def execNop (site : Fin 672) (w : IWord) (s : State) : Ans := .next (issue s site w 0x00 (seqNop w))
/-- END (R98, R234). -/
def execEnd (site : Fin 672) (w : IWord) (s : State) : Ans := .next (issue s site w 0x01 (seqEnd w))
/-- JMP (R83). -/
def execJmp (site : Fin 672) (w : IWord) (s : State) : Ans := .next (issue s site w 0x02 (seqJmp w))
/-- BR (R97). -/
def execBr (site : Fin 672) (w : IWord) (s : State) : Ans := .next (issue s site w 0x03 (seqBr w))
/-- LOOP (R97). -/
def execLoop (site : Fin 672) (w : IWord) (s : State) : Ans := .next (issue s site w 0x04 (seqLoop w))
/-- CALL (R96). -/
def execCall (site : Fin 672) (w : IWord) (s : State) : Ans := .next (issue s site w 0x05 (seqCall w))
/-- RET (R96). -/
def execRet (site : Fin 672) (w : IWord) (s : State) : Ans := .next (issue s site w 0x06 (seqRet w))

/-- A WAIT or TWAIT that does not find its count starts its stall (R95). -/
def waitFrom (s : State) (k : Run → CoreRes) (x : Run) : CoreRes :=
  match k x with
  | .ok y => .ok { y with c := { y.c with waitAt := s.now } }
  | r => r

/-- WAIT (R89). -/
def execWait (site : Fin 672) (w : IWord) (s : State) : Ans := .next (issue s site w 0x07 (waitFrom s (seqWait w)))
/-- FENCE (R96). -/
def execFence (site : Fin 672) (w : IWord) (s : State) : Ans := .next (issue s site w 0x08 (seqFence w))
/-- SETI (R96). -/
def execSeti (site : Fin 672) (w : IWord) (s : State) : Ans := .next (issue s site w 0x10 (seqSeti w))
/-- ALU (R97). -/
def execAlu (site : Fin 672) (w : IWord) (s : State) : Ans := .next (issue s site w 0x11 (seqAlu w))
/-- LDG (R96). -/
def execLdg (site : Fin 672) (w : IWord) (s : State) : Ans := .next (issue s site w 0x12 (seqLdg w))
/-- STG (R96). -/
def execStg (site : Fin 672) (w : IWord) (s : State) : Ans := .next (issue s site w 0x13 (seqStg w))

/-- TWAIT (R102); what the router holds in excess follows (R303). -/
def execTwait (site : Fin 672) (w : IWord) (s : State) : Ans :=
  let t := issue s site w 0xA1 (waitFrom s (seqTwait w))
  .next (if s.issuing site && opcode w == 0xA1 then t.deliverExcess site (wf w 111 104) else t)

/-- TMARK (R94, R116, R271). -/
def execTmark (site : Fin 672) (w : IWord) (s : State) : Ans :=
  .next (issue s site w 0xB0 (seqTmark (s.designated site) w))
/-- RMARK (R116, R299). -/
def execRmark (site : Fin 672) (w : IWord) (s : State) : Ans := .next (issue s site w 0xB1 (seqRmark w))
/-- CHKG (R103). -/
def execChkg (site : Fin 672) (w : IWord) (s : State) : Ans := .next (issue s site w 0xC1 (seqChkg w))
/-- CHSET (R90, R110, R119). -/
def execChset (site : Fin 672) (w : IWord) (s : State) : Ans := .next (issue s site w 0x60 (seqChset w))

/-! ### Move-unit instructions -/

/-- MOVD (R99, R216). -/
def execMovd (site : Fin 672) (w : IWord) (s : State) : Ans := .next (issue s site w 0x20 (coreMovd w))
/-- MOVL (R99). -/
def execMovl (site : Fin 672) (w : IWord) (s : State) : Ans := .next (issue s site w 0x21 (coreMovl w))

/-- A MOVS or MOVR issues only on a valid entry of its direction that its site owns (R226). -/
def routed (s : State) (site : Nat) (w : IWord) (dir : Nat) (k : Run → CoreRes) (x : Run) : CoreRes :=
  if s.routeOk site (wf w 87 82) dir then k x else .fault .illegal x

/-- MOVS (R99, R226, R227). -/
def execMovs (site : Fin 672) (w : IWord) (s : State) : Ans :=
  .next (issue s site w 0x22 (routed s site w 0 (coreMovs w)))
/-- MOVR (R99, R226, R227). -/
def execMovr (site : Fin 672) (w : IWord) (s : State) : Ans :=
  .next (issue s site w 0x23 (routed s site w 1 (coreMovr w)))
/-- A multicast SEND takes its group as it stands at issue (R264). -/
def withGroup (s : State) (k : Run → CoreRes) (x : Run) : CoreRes :=
  match k x with
  | .ok y => .ok { y with c := { y.c with fly := y.c.fly.map fun f => match f.mv with
      | some (.send la d w g o c n p (some [])) => { f with mv := some (.send la d w g o c n p (some (s.groupTargets (d % 256)))) }
      | _ => f } }
  | r => r

/-- SEND (R101, R248, R264). -/
def execSend (site : Fin 672) (w : IWord) (s : State) : Ans := .next (issue s site w 0x24 (withGroup s (coreSend w)))
/-- TSIG (R102, R228). -/
def execTsig (site : Fin 672) (w : IWord) (s : State) : Ans := .next (issue s site w 0xA0 (coreTsig w))
/-- CHKEQ (R103). -/
def execChkeq (site : Fin 672) (w : IWord) (s : State) : Ans := .next (issue s site w 0xC0 (coreChkeq w))

/-! ### Weight unit and arrays -/

/-- WLD (R67, R104). -/
def execWld (site : Fin 672) (w : IWord) (s : State) : Ans := .next (issue s site w 0x30 (coreWld w))
/-- WSWP (R68). -/
def execWswp (site : Fin 672) (w : IWord) (s : State) : Ans := .next (issue s site w 0x31 (coreWswp w))

/-! #### Operand capture (R307) -/

/-- The residue row and the residue column of a plane as a capture holds them (R55, R307). -/
def tileResidues (p : Plane) : List Byte := (p.sigma ++ p.rho).flatMap (natLE 2)

/-- The header of a capture slot: the words it holds, in the order that R307 names them. DEDUCED, log entry 37. -/
def captureHeader (code dev unit array passes wfmt afmt g c ta tw : Nat) : List Byte :=
  let b := ([2, code, dev, unit, array, passes, wfmt, afmt, g, c, ta, tw].flatMap (natLE 4))
  b ++ List.replicate (64 - b.length) 0

/-- R307: during the replay of R306 the site captures the operands of the pass in which the mismatch
occurred, identified by its count of passes since the mark. DEDUCED, log entry 37. -/
def State.capture (s t : State) (site : Nat) (w : IWord) : State :=
  let cl := clusterOf site
  match (t.cluster cl).recov, mmOps w (s.core site) with
  | some r, .inr o =>
    if !r.rotated || r.captured || r.site != some site || (t.core site).passes != r.passNo then t
    else
      let t := t.modCluster cl fun c => { c with recov := some { r with captured := true } }
      match t.freeCapture with
      | none => t.addF R.ERR.CAPTURE.NOT_CAPTURED 24 1
      | some i =>
        let at_ := t.captureAt i
        let a := ((List.range 4).find? fun a => (s.core site).phys a == (r.array + 3) % 4).getD 0
        let n := o.pitch (s.core site).mtCount * o.g
        let c := rowCycles (rowFmt o.afmt o.pro false) o.tile.fmt
        let h := captureHeader r.code s.devId (unitCode 2 site r.sub) r.array r.passNo (wf w 3 0) (wf w 81 78) o.g c
          ((s.core site).gn o.gta % 2 ^ 32) o.tile.tw
        let t := t.memWrite (corePort site) at_
          (h ++ o.tile.codes ++ o.tile.scales ++ tileResidues o.tile ++ (s.core site).rdLm (actBase a + o.abuf) n)
        let t := t.orF R.ERR.CAPTURE.IN_USE 24 (2 ^ i)
        t.noteRecords (fun e => e.rep.cls = 2 && bits e.rep.unit 17 8 = site && !flag e.flags 1)
          fun e => { e with flags := e.flags ||| 2, rep := { e.rep with ptr := at_ } }
  | _, _ => t

/-- MM (R105 to R107, R162); an armed injection is used up by the pass that takes it (R61). -/
def execMm (site : Fin 672) (w : IWord) (s : State) : Ans :=
  let rc := s.resCtl site
  let t := issue s site w 0x40 (coreMm rc w)
  if (t.core site).passes = (s.core site).passes then .next t
  else
    let took := match mmOps w (s.core site) with
      | .inr o => o.injects (s.core site) rc
      | .inl _ => false
    let t := if took && opcode w == 0x40 then t.setF R.CORE.RES_CTL.INJ_ARM site 0 else t
    .next (s.capture t site w)

/-! ### Accumulator engines -/

/-- ACCMRG (R109). -/
def execAccmrg (site : Fin 672) (w : IWord) (s : State) : Ans := .next (issue s site w 0x50 (coreAccmrg w))
/-- ACCPART (R46, R109). -/
def execAccpart (site : Fin 672) (w : IWord) (s : State) : Ans :=
  .next (issue s site w 0x51 (coreAccpart (s.accOff site) w))
/-- ACCRND (R109). -/
def execAccrnd (site : Fin 672) (w : IWord) (s : State) : Ans :=
  .next (issue s site w 0x52 (coreAccrnd (s.accOff site) w))
/-- ACCCLR (R109). -/
def execAccclr (site : Fin 672) (w : IWord) (s : State) : Ans := .next (issue s site w 0x53 (coreAccclr w))
/-- CHFIN (R141). -/
def execChfin (site : Fin 672) (w : IWord) (s : State) : Ans :=
  .next (issue s site w 0x61 (coreChfin (s.accOff site) w))

/-! ### Vector unit, quantiser and match unit -/

/-- VOP (R111). -/
def execVop (site : Fin 672) (w : IWord) (s : State) : Ans := .next (issue s site w 0x70 (coreVop w))
/-- VFN (R79). -/
def execVfn (site : Fin 672) (w : IWord) (s : State) : Ans := .next (issue s site w 0x71 (coreVfn w))
/-- VRED (R113). -/
def execVred (site : Fin 672) (w : IWord) (s : State) : Ans := .next (issue s site w 0x72 (coreVred w))
/-- VACC (R113). -/
def execVacc (site : Fin 672) (w : IWord) (s : State) : Ans :=
  .next (issue s site w 0x73 (coreVacc (s.accOff site) w))
/-- VCVT (R111). -/
def execVcvt (site : Fin 672) (w : IWord) (s : State) : Ans := .next (issue s site w 0x74 (coreVcvt w))
/-- VLD (R96). -/
def execVld (site : Fin 672) (w : IWord) (s : State) : Ans := .next (issue s site w 0x75 (coreVld w))
/-- VST (R96). -/
def execVst (site : Fin 672) (w : IWord) (s : State) : Ans := .next (issue s site w 0x76 (coreVst w))
/-- QNT (R114). -/
def execQnt (site : Fin 672) (w : IWord) (s : State) : Ans := .next (issue s site w 0x80 (coreQnt w))
/-- SMLD (R160). -/
def execSmld (site : Fin 672) (w : IWord) (s : State) : Ans := .next (issue s site w 0x90 (coreSmld w))
/-- SMCLR (R160). -/
def execSmclr (site : Fin 672) (w : IWord) (s : State) : Ans := .next (issue s site w 0x91 (coreSmclr w))

/-! ### Events of a core site -/

/-- WAIT_SATISFIED (R89): the counter has reached N; N is subtracted and the sequencer goes on. -/
def execWaitSatisfied (site : Fin 672) (s : State) : Ans :=
  match (s.core site).st, (s.core site).wait with
  | .inWait, .ctr u n =>
    if (s.core site).ctr u < n then .next s
    else
      let s := s.yieldSlice site
      let c := s.core site
      .next ((s.setCore site (c.setCtr u (c.ctr u - n)).goOn).countInstr site)
  | _, _ => .next s

/-- TWAIT_SATISFIED (R102, R309). -/
def execTwaitSatisfied (site : Fin 672) (s : State) : Ans :=
  match (s.core site).st, (s.core site).wait with
  | .inTwait, .token t n =>
    if (s.core site).token t < n then .next s
    else
      let s := s.yieldSlice site
      let c := s.core site
      .next (((s.setCore site (c.setToken t (c.token t - n)).goOn).countInstr site).deliverExcess site t)
  | _, _ => .next s

/-- WAIT_LIMIT_EXPIRY (R95): the stall has lasted 2^n cycles, of which those of a hold at a mark do not
count; a sequencing fault. -/
def execWaitLimitExpiry (site : Fin 672) (cycles : Nat) (s : State) : Ans :=
  let c := s.core site
  let n := max 16 (s.getF R.CORE.SEQ_CTL.WAIT_LIMIT site)
  if cycles < 2 ^ n then .next s
  else match c.st with
    | .inWait => .next ((s.seqFault site c.pc 0x07).pump site)
    | .inTwait => .next ((s.seqFault site c.pc 0xA1).pump site)
    | _ => .next s

/-- ROUTE_DATA_ARRIVAL (R224, R227): the n-th bytes under way reach their receive buffer, behind every
earlier piece of their route. -/
def execRouteDataArrival (n : Nat) (s : State) : Ans :=
  match s.mesh.bytes[n]? with
  | none => .next s
  | some b =>
    if (s.mesh.bytes.take n).any fun x => x.dstC == b.dstC && x.dstR == b.dstR then .next s
    else
      let k := 64 * b.dstC + b.dstR
      let full := s.bytesFree b.srcC == 0
      let s := s.modMesh fun m => { m with bytes := m.bytes.eraseIdx n, fill := Tab.set [] m.fill k (Tab.get [] m.fill k ++ b.data) }
      let src := 28 * b.srcC + s.effF (R.CL.ROUTE_LOn.SITE.at 8 b.srcR) b.srcC
      let dst := 28 * b.dstC + s.effF (R.CL.ROUTE_LOn.SITE.at 8 b.dstR) b.dstC
      .next (((s.pump src).pump dst).entryFree b.srcC full)

/-- TOKEN_ARRIVAL (R102, R224, R229, R230): the n-th signal under way reaches its target, behind every
earlier one of the same source and target. -/
def execTokenArrival (n : Nat) (s : State) : Ans :=
  match s.mesh.toks[n]? with
  | none => .next s
  | some t =>
    if (s.mesh.toks.take n).any fun x => x.src == t.src && x.target == t.target then .next s
    else
      let full := decide (t.src < 1000) && s.toksFree (clusterOf t.src) == 0
      let s := s.modMesh fun m => { m with toks := m.toks.eraseIdx n }
      match t.target with
      | .core site tok => .next ((s.deliver t.src site tok t.count).entryFree (clusterOf t.src) full)
      | .list m l _ =>
        match s.listOwner m l with
        | some _ => .next ((s.modMover m l fun x => { x with units := x.units + t.count }).entryFree (clusterOf t.src) full)
        | none => .next (if t.src < 1000 then (s.dropToken (clusterOf t.src) (some (t.src, t.pc))).entryFree (clusterOf t.src) full
            else s.dropToken (t.src - 1000) none)

/-- WEIGHT_LOAD_COMPLETE (R67): the last column of the tile lands in the shadow planes. DEDUCED, log entry 8. -/
def execWeightLoadComplete (site : Fin 672) (s : State) : Ans :=
  match (s.core site).landTile with
  | some c => .next (s.setCore site c)
  | none => .next s

/-- PLANE_SWAP (R68, R70, R81): the queued swap takes effect; cycles the arrays waited for the load are
counted. DEDUCED, log entry 8. -/
def execPlaneSwap (site : Fin 672) (waited : Nat) (s : State) : Ans :=
  match (s.core site).swapPlanes with
  | some c => .next ((s.setCore site c).addF R.CORE.LOAD_WAIT_CYC.CYCLES site waited)
  | none => .next s

/-- A unit counter rises for an instruction of opcode `opc` at `pc`; past 65,535 it raises a sequencing fault that names
that instruction (R89, R94, R118). -/
def State.raiseCtr (s : State) (site u pc opc : Nat) : State :=
  let c := s.core site
  if c.ctr u = 65535 then s.seqFault site pc opc else s.setCore site (c.setCtr u (c.ctr u + 1))

/-- MM_ENTRY_SIGNAL (R107): every row of the oldest MM that has not entered has been read; a swap queued
before it has taken effect. -/
def execMmEntrySignal (site : Fin 672) (s : State) : Ans :=
  let c := s.core site
  match c.fly.zipIdx.find? fun p => p.1.unit == .array && !p.1.entered with
  | none => .next s
  | some (f, i) =>
    if (c.fly.take i).any fun g => g.wop == some .swap then .next s
    else
      let s := s.setCore site { c with fly := c.fly.modify i fun g => { g with entered := true } }
      match f.ent with
      | some u => .next (s.raiseCtr site u f.pc 0x40)
      | none => .next s

/-- An instruction in flight has its last result written, and nothing of R90 holds it. -/
def CoreSite.canComplete (c : CoreSite) (i : Nat) (f : Fly) : Bool :=
  f.ready && f.mv.isNone && f.wop.isNone &&
  match f.unit with
  | .array => f.entered
  | .matcher => !((c.fly.take i).any fun g => g.unit == .array && g.matched)
  | _ => true

/-- INSTRUCTION_COMPLETE (R88, R89): the oldest instruction of a unit completes, and its unit counter rises;
TSIGs behind it may act, and a drained sequencer goes on. DEDUCED, log entry 8. -/
def execInstructionComplete (site : Fin 672) (u : CUnit) (s : State) : Ans :=
  let c := s.core site
  match c.fly.zipIdx.find? fun p => p.1.unit == u with
  | none => .next s
  | some (f, i) =>
    if !c.canComplete i f then .next s
    else
      let s := s.setCore site { c with fly := c.fly.eraseIdx i }
      let s := match f.ctr with
        | some k => s.raiseCtr site k f.pc f.opc
        | none => s
      .next ((s.pump site).afterDrain site)

end Sys2Proof.Machine
end

