-- ==== Sys2Proof/Machine/Sparse.lean ====
section
/-! DEFINITION. The sparse engine of a core (R147 to R159, R164) and the forecast unit (R165 to R170): one
command block at a time, its reads and writes of local space and device memory, and its counts. -/

namespace Sys2Proof.Machine

/-! ### Tile rows (R148 to R152) -/

/-- The fields of a tile-row header (R149). -/
structure THdr where
  enc  : Nat
  efmt : Nat
  act  : Bool
  sq   : Bool
  nblk : Nat
  npos : Nat
  npres : Nat
  base : Nat
  rows : Nat
  size : Nat
  rsv  : Bool
  deriving DecidableEq, Repr

def THdr.ofBytes (bs : List Byte) : THdr :=
  let h := leNat (bs.take 32)
  { enc := bits h 3 0, efmt := bits h 7 4, act := flag h 8, sq := flag h 9, nblk := bits h 11 10 + 1,
    npos := bits h 31 16, npres := bits h 47 32, base := bits h 63 48, rows := bits h 79 64 + 1,
    size := bits h 127 96, rsv := bits h 15 12 != 0 || bits h 95 80 != 0 || bits h 255 128 != 0 }

def THdr.toBytes (h : THdr) : List Byte :=
  natLE 32 (h.enc + h.efmt * 2 ^ 4 + (if h.act then 2 ^ 8 else 0) + (if h.sq then 2 ^ 9 else 0) + (h.nblk - 1) * 2 ^ 10 +
    h.npos * 2 ^ 16 + h.npres * 2 ^ 32 + h.base * 2 ^ 48 + (h.rows - 1) * 2 ^ 64 + h.size * 2 ^ 96)

/-- Grid positions (R148). -/
def THdr.ng (h : THdr) : Nat := h.npos * h.nblk

/-- The element format; E4M3 for a code that is none. -/
def THdr.fmt (h : THdr) : EFmt := (EFmt.ofCode h.efmt).getD .e4m3

/-- Bytes of a weight block's payload (R151). -/
def weightBlock (f : EFmt) (sq : Bool) : Nat := ceilTo 16 (32 * f.blockBytes + (if sq then 1 else 32))

/-- Bytes of n blocks in the body (R151). -/
def THdr.payload (h : THdr) (n : Nat) : Nat :=
  if h.act then h.rows * rowPitch h.fmt n else n * weightBlock h.fmt h.sq

/-- Bytes of the map area of an encoding (R151). -/
def mapBytes (enc ng npres : Nat) : Nat :=
  match enc with
  | 0 => 0
  | 1 => ceilTo 16 (ceilDiv ng 8)
  | _ => ceilTo 16 (2 * npres)

/-- The padded size of a tile row in an encoding (R151). -/
def THdr.sizeIn (h : THdr) (enc : Nat) : Nat :=
  ceilTo 16 (32 + mapBytes enc h.ng h.npres + h.payload (if enc = 0 then h.ng else h.npres))

/-- R152: the smallest form; DENSE wins a tie, then BITMAP. -/
def THdr.choose (h : THdr) : Nat :=
  if h.sizeIn 0 ≤ h.sizeIn 1 && h.sizeIn 0 ≤ h.sizeIn 2 then 0
  else if h.sizeIn 1 ≤ h.sizeIn 2 then 1 else 2

/-- R150 but for the map. DEDUCED, log entry 14. -/
def THdr.ok (h : THdr) : Bool :=
  decide (h.enc ≤ 2) && decide (h.efmt ≤ 8) && !h.rsv &&
    (if h.act then !h.sq && h.nblk == 1 else h.rows == 1) &&
    decide (1 ≤ h.npos) && decide (h.base + h.npos ≤ 65535) && decide (h.ng ≤ 65535) && decide (h.npres ≤ h.ng) &&
    h.size == h.sizeIn h.enc

/-- R150: a BITMAP has exactly NPRES bits set and none at or above NG. -/
def THdr.mapOk (h : THdr) (bs : List Byte) : Bool :=
  if h.enc = 1 then
    let m := leNat ((bs.drop 32).take (mapBytes 1 h.ng h.npres))
    decide (m < 2 ^ h.ng) && popCount h.ng m == h.npres
  else true

/-- The stored blocks in body order as grid positions (R151). -/
def THdr.stored (h : THdr) (bs : List Byte) : List Nat :=
  let m := (bs.drop 32).take (mapBytes h.enc h.ng h.npres)
  match h.enc with
  | 0 => List.range h.ng
  | 1 => maskList h.ng (leNat m)
  | _ => (List.range h.npres).map fun i => leNat ((m.drop (2 * i)).take 2)

/-- R158: stored blocks in body order with their places, entries out of range or repeated dropped; then the
two counts of drops. -/
def keepBlocks (ng : Nat) : Nat → List Nat → List Nat → List (Nat × Nat) × Nat × Nat
  | _, _, [] => ([], 0, 0)
  | i, seen, g :: gs =>
    if ng ≤ g then
      let (k, o, d) := keepBlocks ng (i + 1) seen gs
      (k, o + 1, d)
    else if seen.contains g then
      let (k, o, d) := keepBlocks ng (i + 1) seen gs
      (k, o, d + 1)
    else
      let (k, o, d) := keepBlocks ng (i + 1) (g :: seen) gs
      ((g, i) :: k, o, d)

/-- The code bytes and scale byte of block i of an R87 row of n blocks. -/
def rowBlock (f : EFmt) (n i : Nat) (row : List Byte) : List Byte × Byte :=
  ((row.drop (i * f.blockBytes)).take f.blockBytes, row.getD (n * f.blockBytes + i) 0)

/-- R26: the invalid ternary bytes among a block's code bytes. -/
def badRaw (f : EFmt) (b : List Byte × Byte) : Nat := (unpackBlock f b.1).2

/-- R147: code bytes and a scale byte spell an absent block. -/
def absentRaw (f : EFmt) (b : List Byte × Byte) : Bool := absentBlock f b.2.toNat (unpackBlock f b.1).1

/-- An R87 row of raw blocks, padded to its pitch. -/
def rawRow (f : EFmt) (l : List (List Byte × Byte)) : List Byte :=
  let b := l.flatMap (·.1) ++ l.map (·.2)
  b ++ List.replicate (rowPitch f l.length - b.length) 0

/-! ### Accesses of the engine -/

/-- The outcome of a read or write of the engine. -/
inductive SpeIo where
  | got (s : State) (bs : List Byte)
  | bad
  | poisoned (s : State)
  deriving DecidableEq, Repr

/-- Read n bytes at a device or local address (R156, R212, R216). -/
def State.speRead (s : State) (site a n : Nat) (isLocal : Bool) : SpeIo :=
  if isLocal then if rdOk a n then .got s ((s.core site).rdLm a n) else .bad
  else if !s.fenceOk (clusterOf site) false a n then .bad
  else
    let s := s.flushRange a n
    let p := s.poisonIn a n
    if p.isEmpty then .got s (s.memRead a n) else .poisoned (s.meetPoison p)

/-- The bytes of an operand, its read let through. -/
def State.speBytes (s : State) (site a n : Nat) (isLocal : Bool) : List Byte :=
  if isLocal then (s.core site).rdLm a n else s.memRead a n

/-- The engine may write n bytes at an address. -/
def State.speMay (s : State) (site a n : Nat) (isLocal : Bool) : Bool :=
  if isLocal then wrOk a n else s.fenceOk (clusterOf site) true a n

def State.speWrite (s : State) (site a : Nat) (bs : List Byte) (isLocal : Bool) : State :=
  if isLocal then s.modCore site fun c => c.wrLm a bs else s.memWrite (corePort site) a bs

/-! ### Commands -/

def State.setSpe (s : State) (site : Nat) (c : SpeCmd) : State := s.modCore site fun x => { x with spe := some c }

/-- R156: a command ends with STATUS 0x02 or 0x03 and a format fault record. A device access refused by
the fences is counted under R216. -/
def State.speFail (s : State) (site status : Nat) (c : SpeCmd) : State :=
  (s.setSpe site { c with status := status, done := true }).reportSite site 4 6 0x3FFF (s.core site).pc 0 0 (s.seqFaultWord site)

/-- A refused access of the engine (R216): counted for a device address. DEDUCED, log entry 14. -/
def State.speRefuse (s : State) (site : Nat) (c : SpeCmd) (wr isLocal : Bool) : State :=
  let s := if isLocal then s else s.refuse (clusterOf site) wr (some (site, (s.core site).pc))
  s.speFail site 2 c

def State.speDone (s : State) (site : Nat) (c : SpeCmd) (status r0 r1 : Nat) : State :=
  s.setSpe site { c with status := status, r0 := r0 % 2 ^ 32, r1 := r1 % 2 ^ 32, done := true }

def SpeCmd.f (c : SpeCmd) (hi lo : Nat) : Nat := bits c.block hi lo

/-- A count of R164 in CORE.SPARSE_DROPS and in the command's counter set (R156, R159). -/
def State.speCount (s : State) (site : Nat) (c : SpeCmd) (f : Fld) (e : CEnt) (n : Nat) : State :=
  if n = 0 then s else (s.addF f site n).pend (clusterOf site) (setKey (c.f 23 16) e) n

/-- R26, R173: NaNs that the engine's decoding of ternary bytes counts. -/
def State.speNan (s : State) (site : Nat) (c : SpeCmd) (n : Nat) : State :=
  if n = 0 then s else s.pend (clusterOf site) (setKey (c.f 23 16) .nan) n

/-- R155, R156: the input and output ranges of a command whose tile row, for UNPACK, has header `h`; an output whose size
depends on the data is taken at its largest. -/
def SpeCmd.withRngs (c : SpeCmd) (lm : CoreSite) (h : THdr) : SpeCmd :=
  let b := c.block
  let side := fun (c : SpeCmd) (loc wr : Bool) (r : Rng) =>
    if loc then (if wr then { c with wr := c.wr ++ [r] } else { c with rd := c.rd ++ [r] })
    else if wr then { c with dwr := c.dwr ++ [r] } else { c with drd := c.drd ++ [r] }
  match c.f 7 0 with
  | 1 =>
    let f := (EFmt.ofCode (c.f 243 240)).getD .e4m3
    let gb := c.f 245 244 + 1
    let ngrp := c.f 255 246 + 1
    let rows := c.f 303 288 + 1
    let t : THdr := { enc := 0, efmt := c.f 243 240, act := true, sq := false, nblk := 1, npos := c.f 271 256, npres := 0,
                      base := 0, rows := rows, size := 0, rsv := false }
    side { c with rd := [⟨c.f 215 192, ngrp * rows * rowPitch f gb⟩, ⟨c.f 239 216, 2 * ngrp * gb⟩] }
      (flag b 180) true ⟨if flag b 180 then c.f 151 128 else c.f 179 128, t.sizeIn 0⟩
  | 2 =>
    let n := c.f 249 240
    let k := c.f 253 250 + 1
    let wr : List Rng := if h.act then [⟨c.f 215 192, h.rows * rowPitch h.fmt n⟩, ⟨c.f 239 216, 2 * n⟩]
      else [⟨c.f 215 192, 32 * h.nblk * k * h.fmt.blockBytes⟩,
        ⟨c.f 239 216, if h.sq then h.nblk * k else 32 * h.nblk * k⟩, ⟨c.f 239 216 + 2048, 2 * k⟩]
    side { c with wr := wr } (flag b 180) false ⟨if flag b 180 then c.f 151 128 else c.f 179 128, h.size⟩
  | 3 =>
    let f := (EFmt.ofCode (c.f 319 316)).getD .e4m3
    let nb := c.f 305 296 + 1
    let kb := c.f 315 306 + 1
    let rows := c.f 335 320 + 1
    { c with rd := [⟨c.f 151 128, ceilDiv nb 128 * rows * 512⟩, ⟨c.f 175 152, 4 * nb⟩, ⟨c.f 247 224, rows * rowPitch f kb⟩,
                    ⟨c.f 271 248, rows * rowPitch .int2 kb⟩],
             wr := [⟨c.f 199 176, 2 * nb⟩, ⟨c.f 223 200, 2 * nb⟩, ⟨c.f 295 272, 8 * rows⟩] }
  | _ =>
    let n := c.f 291 282 + 1
    let rows := c.f 307 292 + 1
    let cols := (List.range n).flatMap fun i =>
      let e := leNat (lm.rdLm (c.f 175 152 + 2 * (c.f 281 272 + i)) 2)
      [(⟨c.f 247 224 + 128 * e, 128⟩ : Rng), ⟨c.f 271 248 + 128 * e, 128⟩]
    { c with rd := [⟨c.f 151 128, ceilDiv n 4 * rows * 512⟩, ⟨c.f 175 152, 2 * (c.f 281 272 + n)⟩, ⟨c.f 223 200, 8 * rows⟩] ++ cols,
             wr := [⟨c.f 199 176, 2 * n⟩] }

/-- SPARSE_COMMAND_START (R154, R155, R171): the next command block of the ring is read; what the instructions in flight
still read or write of its ranges becomes undefined. DEDUCED, log entry 7. -/
def execSparseCommandStart (site : Fin 672) (s : State) : Ans :=
  let c := s.core site
  let la := s.getF R.CORE.SPE_CTL.CMD_LA site
  let i := s.getF R.CORE.SPE_CTL.NEXT site
  if c.speWait = 0 || c.spe.isSome || !s.regionOn (clusterOf site) then .next s
  else
    let s := s.setCore site { c with speWait := c.speWait - 1 }
    if la % 64 ≠ 0 ∨ la < 0x40000 ∨ 0x200000 < la + 1024 then
      .next ((s.reportSite site 4 2 0x3FFF c.pc 0 0 0).deliver site site 0xFF 1)
    else
      let s := s.setF R.CORE.SPE_CTL.NEXT site ((i + 1) % 16)
      let s := s.setF R.CORE.SPE_CTL.BUSY site 1
      let cmd : SpeCmd := { idx := i, addr := la + 64 * i, block := leNat (c.rdLm (la + 64 * i) 64) }
      let cmd := cmd.withRngs c (THdr.ofBytes (s.speBytes site (if flag cmd.block 180 then cmd.f 151 128 else cmd.f 179 128) 32
        (flag cmd.block 180)))
      let cmd := { cmd with hurt := c.fly.flatMap fun f => let (r, w) := SpeCmd.clash (some cmd) f; r ++ w }
      let op := cmd.f 7 0
      .next (if 1 ≤ op ∧ op ≤ 4 then s.setSpe site cmd else s.speFail site 3 cmd)

/-- The command under way at a site, when it has the given OP and has not ended. -/
def State.speOf (s : State) (site op : Nat) : Option SpeCmd :=
  (s.core site).spe.bind fun c => if c.f 7 0 = op && !c.done then some c else none

/-- PACK's kept blocks (R157): offsets in list order with the place of their block; drops counted. -/
def packKeep (npos : Nat) (offs : List Nat) : List (Nat × Nat) × Nat × Nat :=
  let l := offs.zipIdx.filter fun p => p.1 != 0xFFFF
  let (k, o, d) := keepBlocks npos 0 [] (l.map (·.1))
  (k.map fun p => (p.1, (l.getD p.2 (0, 0)).2), o, d)

/-- PACK (R26, R157). DEDUCED, log entry 14. -/
def execPack (site : Fin 672) (s : State) : Ans :=
  match s.speOf site 1 with
  | none => .next s
  | some c =>
    let isLocal := flag c.block 180
    let dst := if isLocal then c.f 151 128 else c.f 179 128
    let src := c.f 215 192
    let plist := c.f 239 216
    let gb := c.f 245 244 + 1
    let ngrp := c.f 255 246 + 1
    let npos := c.f 271 256
    let base := c.f 287 272
    let rows := c.f 303 288 + 1
    match EFmt.ofCode (c.f 243 240) with
    | none => .next (s.speFail site 3 c)
    | some f =>
      if npos = 0 ∨ 65535 < base + npos then .next (s.speFail site 3 c)
      else if src % 8 ≠ 0 ∨ dst % 16 ≠ 0 then .next (s.speRefuse site c true true)
      else
      let pitch := rowPitch f gb
      if !rdOk src (ngrp * rows * pitch) || !rdOk plist (2 * ngrp * gb) then .next (s.speRefuse site c false true)
      else
        let lm := s.core site
        let offs := (List.range (ngrp * gb)).map fun i => leNat (lm.rdLm (plist + 2 * i) 2)
        let (kept, o, d) := packKeep npos offs
        let blockOf := fun (p rho : Nat) => rowBlock f gb (p % gb) (lm.rdLm (src + (p / gb * rows + rho) * pitch) pitch)
        let pres := (kept.filter fun k => !(List.range rows).all fun rho => absentRaw f (blockOf k.2 rho)).insertionSort fun a b => a.1 ≤ b.1
        let h : THdr := { enc := 0, efmt := c.f 243 240, act := true, sq := false, nblk := 1, npos := npos,
                          npres := pres.length, base := base, rows := rows, size := 0, rsv := false }
        let enc := h.choose
        let h := { h with enc := enc, size := h.sizeIn enc }
        let zero : List Byte × Byte := (List.replicate f.blockBytes 0, 0)
        let cells := fun (rho : Nat) =>
          if enc = 0 then (List.range npos).map fun t => match pres.find? fun k => k.1 == t with
            | some k => blockOf k.2 rho
            | none => zero
          else pres.map fun k => blockOf k.2 rho
        let map := match enc with
          | 0 => []
          | 1 => natLE (mapBytes 1 npos pres.length) ((pres.map fun k => 2 ^ k.1).sum)
          | _ => let m := pres.flatMap fun k => natLE 2 k.1
                 m ++ List.replicate (mapBytes 2 npos pres.length - m.length) 0
        let body := h.toBytes ++ map ++ (List.range rows).flatMap fun rho => rawRow f (cells rho)
        let out := body ++ List.replicate (h.size - body.length) 0
        if !s.speMay site dst h.size isLocal then .next (s.speRefuse site c true isLocal)
        else
          let s := s.speWrite site dst out isLocal
          let s := s.speCount site c R.CORE.SPARSE_DROPS.OUT_OF_RANGE .spOutOfRange o
          let s := s.speCount site c R.CORE.SPARSE_DROPS.DUPLICATE .spDuplicate d
          let s := s.speNan site c ((kept.map fun k => ((List.range rows).map fun rho => badRaw f (blockOf k.2 rho)).sum).sum)
          .next (s.speDone site c 0 h.size pres.length)

/-- UNPACK of an activation tile row (R158): `kept` are grid positions and body places. -/
def State.unpackAct (s : State) (site : Nat) (c : SpeCmd) (h : THdr) (bs : List Byte) (kept : List (Nat × Nat)) (status : Nat) : State :=
  let f := h.fmt
  let n := c.f 249 240
  let start := c.f 271 256
  let dst := c.f 215 192
  let list := c.f 239 216
  let rows := h.rows
  let pitch := rowPitch f n
  let take := (kept.drop start).take n
  if !wrOk dst (rows * pitch) && n != 0 || !wrOk list (2 * n) && n != 0 then s.speRefuse site c true true
  else
    let nb := if h.enc = 0 then h.ng else h.npres
    let at_ := 32 + mapBytes h.enc h.ng h.npres
    let p := rowPitch f nb
    let zero : List Byte × Byte := (List.replicate f.blockBytes 0, 0)
    let row := fun (rho : Nat) =>
      let src := (bs.drop (at_ + rho * p)).take p
      rawRow f ((List.range n).map fun e => match take[e]? with
        | some k => rowBlock f nb k.2 src
        | none => zero)
    let s := each (List.range rows) s fun s rho => s.modCore site fun x => x.wrLm (dst + rho * pitch) (row rho)
    let s := s.modCore site fun x => x.wrLm list ((List.range n).flatMap fun e =>
      natLE 2 (match take[e]? with | some k => (h.base + k.1) % 65536 | none => 0xFFFF))
    s.speDone site c status take.length (min kept.length (start + n))

/-- The code bytes and scale bytes of the n-th stored block of a weight tile row (R151). -/
def THdr.weightRaw (h : THdr) (bs : List Byte) (n : Nat) : List (List Byte × Byte) :=
  let cbb := h.fmt.blockBytes
  let b := (bs.drop (32 + mapBytes h.enc h.ng h.npres + n * weightBlock h.fmt h.sq)).take (weightBlock h.fmt h.sq)
  (List.range 32).map fun i => ((b.drop (i * cbb)).take cbb, b.getD (32 * cbb + if h.sq then 0 else i) 0)

/-- R147: a stored block of a weight tile row is present. -/
def THdr.present (h : THdr) (bs : List Byte) (n : Nat) : Bool := !(h.weightRaw bs n).all (absentRaw h.fmt)

/-- UNPACK of a weight tile row into the weight staging buffer (R104, R147, R158): a stored block that is absent counts as
none. DEDUCED, log entry 14. -/
def State.unpackWgt (s : State) (site : Nat) (c : SpeCmd) (h : THdr) (bs : List Byte) (kept : List (Nat × Nat)) (status : Nat) : State :=
  let f := h.fmt
  let cbb := f.blockBytes
  let kblk := c.f 253 250 + 1
  let start := c.f 271 256
  let dst := c.f 215 192
  let sdst := c.f 239 216
  let s := s.speNan site c ((kept.map fun k => ((h.weightRaw bs k.2).map (badRaw f)).sum).sum)
  let kept := kept.filter fun k => h.present bs k.2
  let live := ((List.range h.npos).filter fun t => decide (start ≤ t) && kept.any fun k => k.1 / h.nblk == t)
  let ts := live.take kblk
  let next := (live[kblk]?).getD h.npos
  let ncode := 32 * h.nblk * kblk * cbb
  let nscale := if h.sq then h.nblk * kblk else 32 * h.nblk * kblk
  let inStg := fun (a n : Nat) => decide (stagingBase ≤ a) && decide (a + n ≤ 0x250000)
  if !inStg dst ncode || !inStg sdst nscale || !inStg (sdst + 2048) (2 * kblk) then s.speRefuse site c true true
  else
    let blk := fun (j nb : Nat) => (ts[j]?).bind fun t => (kept.find? fun k => k.1 == t * h.nblk + nb).map fun k =>
      h.weightRaw bs k.2
    let codes := (List.range (32 * h.nblk)).flatMap fun n => (List.range kblk).flatMap fun j =>
      match blk j (n / 32) with
      | some b => (b.getD (n % 32) ([], 0)).1
      | none => List.replicate cbb 0
    let scales := if h.sq then (List.range h.nblk).flatMap fun nb => (List.range kblk).map fun j =>
        match blk j nb with | some b => (b.getD 0 ([], 0)).2 | none => 0
      else (List.range (32 * h.nblk)).flatMap fun n => (List.range kblk).map fun j =>
        match blk j (n / 32) with | some b => (b.getD (n % 32) ([], 0)).2 | none => 0
    let klist := (List.range kblk).flatMap fun j => natLE 2 (match ts[j]? with
      | some t => (h.base + t) % 65536
      | none => 0xFFFF)
    let s := s.modCore site fun x => ((x.wrLm dst codes).wrLm sdst scales).wrLm (sdst + 2048) klist
    s.speDone site c status ts.length next

/-- The bytes of a tile row, from its start, that UNPACK reads behind the header: the map and the payload of the kept
blocks (R158). DEDUCED, log entry 14. -/
def THdr.mapRng (h : THdr) : Rng := ⟨32, mapBytes h.enc h.ng h.npres⟩
def THdr.payloadRngs (h : THdr) (kept : List (Nat × Nat)) : List Rng :=
  let at_ := 32 + mapBytes h.enc h.ng h.npres
  let nb := if h.enc = 0 then h.ng else h.npres
  let cbb := h.fmt.blockBytes
  if h.act then (List.range h.rows).flatMap fun rho => kept.flatMap fun k =>
    let row := at_ + rho * rowPitch h.fmt nb
    [(⟨row + k.2 * cbb, cbb⟩ : Rng), ⟨row + nb * cbb + k.2, 1⟩]
  else kept.map fun k => ⟨at_ + k.2 * weightBlock h.fmt h.sq, 32 * cbb + if h.sq then 1 else 32⟩

/-- The engine reads several ranges of one operand (R156, R212, R216). -/
def State.speReads (s : State) (site a : Nat) (isLocal : Bool) : List Rng → SpeIo
  | [] => .got s []
  | r :: rs =>
    if r.len = 0 then s.speReads site a isLocal rs else
    match s.speRead site (a + r.lo) r.len isLocal with
    | .got s _ => s.speReads site a isLocal rs
    | t => t

/-- UNPACK (R158). DEDUCED, log entry 14. -/
def execUnpack (site : Fin 672) (s : State) : Ans :=
  match s.speOf site 2 with
  | none => .next s
  | some c =>
    let isLocal := flag c.block 180
    let src := if isLocal then c.f 151 128 else c.f 179 128
    match s.speRead site src 32 isLocal with
    | .bad => .next (s.speRefuse site c false isLocal)
    | .poisoned s => .next (s.clusterReset site)
    | .got s hb =>
      let h := THdr.ofBytes hb
      let finish := fun (s : State) (h : THdr) (bs : List Byte) (kept : List (Nat × Nat)) (st : Nat) =>
        if h.act then s.unpackAct site c h bs kept st else s.unpackWgt site c h bs kept st
      let invalid := fun (s : State) =>
        let s := s.speCount site c R.CORE.SPARSE_DROPS.HDR_ERR .spHdrErr 1
        let s := s.reportSite site 4 2 0x3FFF (s.core site).pc 0 0 0
        finish s { h with npres := 0 } [] [] 1
      if !h.ok then .next (invalid s)
      else match s.speReads site src isLocal [h.mapRng] with
        | .bad => .next (s.speRefuse site c false isLocal)
        | .poisoned s => .next (s.clusterReset site)
        | .got s _ =>
          let bs := s.speBytes site src h.size isLocal
          if !h.mapOk bs then .next (invalid s)
          else
            let (kept, o, d) := keepBlocks h.ng 0 [] (h.stored bs)
            match s.speReads site src isLocal (h.payloadRngs kept) with
            | .bad => .next (s.speRefuse site c false isLocal)
            | .poisoned s => .next (s.clusterReset site)
            | .got s _ =>
              let s := s.speCount site c R.CORE.SPARSE_DROPS.OUT_OF_RANGE .spOutOfRange o
              let s := s.speCount site c R.CORE.SPARSE_DROPS.DUPLICATE .spDuplicate d
              .next (finish s h (s.speBytes site src h.size isLocal) kept 0)

/-! ### The forecast unit (R165 to R169) -/

/-- The least FP32 value that is at least a non-negative number (R167). -/
def upFp32 (q : Rat) : Nat :=
  let b := toFp32 q
  match ieeeDecode .fp32 b with
  | .fin v => if v < q then b + 1 else b
  | _ => b

/-- A value of a tile-major FP32 layout of `rows` rows (R166, R167). -/
def tileMajor (c : CoreSite) (base rows rho col : Nat) : Nat :=
  leNat (c.rdLm (base + col / 128 * rows * 512 + rho * 512 + 4 * (col % 128)) 4)

/-- A bound of magnitudes, rounded up: NaN where one is NaN, else infinity where one is infinite (R29, R167). -/
def upNum (l : List Num) (f : List Rat → Rat) : Nat :=
  if l.contains .nan then IFmt.nanCode .fp32
  else if l.any fun v => v == .inf false || v == .inf true then IFmt.infCode .fp32 false
  else upFp32 (f (l.filterMap fun v => match v with | .fin q => some |q| | _ => none))

/-- R167: E_r = max |x_k − x2_k| and A2_r = Σ |x2_k| of a row, rounded up. -/
def rowBounds (xs ys : List Num) : Nat × Nat :=
  (upNum (List.zipWith (fun a b => a.add b.neg) xs ys) (·.foldl max 0), upNum ys List.sum)

/-- The values of a row of KB blocks under a tensor scale, and the NaNs that its decoding counts (R20, R26, R87). -/
def rowValues (c : CoreSite) (f : EFmt) (kb a : Nat) (t : Rat) : List Num × Nat :=
  let r := readPlainRow f kb (c.rdLm a (rowPitch f kb))
  (r.blks.flatMap fun b => b.nums.map fun v => v.mulRat t, r.nans.sum)

/-- PREDICT (R26, R166, R167, R173). A TA or TA2 that R28 rejects ends it with STATUS 0x03 and the record of class 0x4,
code 0x06. DESIGN CHOICE, log entry 57. -/
def execPredict (site : Fin 672) (s : State) : Ans :=
  match s.speOf site 3 with
  | none => .next s
  | some c =>
    let log := c.f 151 128
    let theta := c.f 175 152
    let act := c.f 199 176
    let skip := c.f 223 200
    let xla := c.f 247 224
    let x2 := c.f 271 248
    let norm := c.f 295 272
    let nb := c.f 305 296 + 1
    let kb := c.f 315 306 + 1
    let rows := c.f 335 320 + 1
    let ta := c.f 367 336
    let ta2 := c.f 399 368
    match EFmt.ofCode (c.f 319 316) with
    | none => .next (s.speFail site 3 c)
    | some f =>
      if !scaleOk ta || !scaleOk ta2 then .next (s.speFail site 3 c)
      else
      let lm := s.core site
      let p := rowPitch f kb
      let p2 := rowPitch .int2 kb
      if !(rdOk log (ceilDiv nb 128 * rows * 512) && rdOk theta (4 * nb) && rdOk xla (rows * p) && rdOk x2 (rows * p2))
      then .next (s.speRefuse site c false true)
      else if !(wrOk norm (8 * rows)) then .next (s.speRefuse site c true true)
      else
        let num := fun (b : Nat) => ieeeDecode .fp32 b
        let on := fun (n : Nat) => (List.range rows).any fun rho =>
          let z := num (tileMajor lm log rows rho n)
          let th := num (leNat (lm.rdLm (theta + 4 * n) 4))
          z == .nan || (th != .nan && !(z.lt th))
        let acts := (List.range nb).filter on
        let skips := (List.range nb).filter fun n => !on n
        if !(acts.isEmpty || wrOk act (2 * acts.length)) || !(skips.isEmpty || wrOk skip (2 * skips.length)) then
          .next (s.speRefuse site c true true)
        else
          let vals := (List.range rows).map fun rho => rowValues lm f kb (xla + rho * p) (fp32Rat ta)
          let bnd := vals.zipIdx.flatMap fun v =>
            let b := rowBounds v.1.1 (rowValues lm .int2 kb (x2 + v.2 * p2) (fp32Rat ta2)).1
            natLE 4 b.1 ++ natLE 4 b.2
          let s := s.speNan site c ((vals.map (·.2)).sum)
          let s := s.modCore site fun x => ((x.wrLm act (acts.flatMap (natLE 2))).wrLm skip (skips.flatMap (natLE 2))).wrLm norm bnd
          let s := (s.addF R.CORE.FORECAST_STATS.SKIPPED site skips.length)
          let s := s.pend (clusterOf site) (setKey (c.f 23 16) .fcSkipped) skips.length
          .next (s.speDone site c 0 acts.length skips.length)

/-- R168: an element of scout value u is possibly active. -/
def possiblyActive (u e a2 wl1 delta alpha : Num) : Bool :=
  match u, e, a2, wl1, delta, alpha with
  | .fin u, .fin e, .fin a2, .fin w, .fin d, .fin al =>
    decide (0 < u + pow2 (-22) * |u| + pow2 (-149) + al * (e * w + a2 * d))
  | _, _, _, _, _, _ => true

/-- SCOUT (R168, R169): the outputs of skip entry FIRST + e stand in tile e div 4 at SC_LA (R167). RESULT0 in counted mode and RESULT1 are values that the spec does not state.
DESIGN CHOICE, log entry 6; DEDUCED, log entry 14. -/
def execScout (site : Fin 672) (s : State) : Ans :=
  match s.speOf site 4 with
  | none => .next s
  | some c =>
    let sc := c.f 151 128
    let skip := c.f 175 152
    let mk := c.f 199 176
    let norm := c.f 223 200
    let wl1 := c.f 247 224
    let delta := c.f 271 248
    let first := c.f 281 272
    let nent := c.f 291 282 + 1
    let rows := c.f 307 292 + 1
    let counted := flag c.block 308
    let lm := s.core site
    if !(rdOk sc (ceilDiv nent 4 * rows * 512) && rdOk skip (2 * (first + nent)) && rdOk norm (8 * rows)) then
      .next (s.speRefuse site c false true)
    else
      let w4 := fun (a : Nat) => ieeeDecode .fp32 (leNat (lm.rdLm a 4))
      let al := ieeeDecode .fp32 (c.f 351 320)
      let ent := (List.range nent).map fun i => leNat (lm.rdLm (skip + 2 * (first + i)) 2)
      if ent.any fun b => !(rdOk (wl1 + 128 * b) 128 && rdOk (delta + 128 * b) 128) then .next (s.speRefuse site c false true)
      else
        let live := (ent.zipIdx.filter fun p => (List.range rows).any fun rho => (List.range 32).any fun j =>
          let u := ieeeDecode .fp32 (tileMajor lm sc rows rho (p.2 / 4 * 128 + 32 * (p.2 % 4) + j))
          possiblyActive u (w4 (norm + 8 * rho)) (w4 (norm + 8 * rho + 4)) (w4 (wl1 + 4 * (32 * p.1 + j))) (w4 (delta + 4 * (32 * p.1 + j))) al).map (·.1)
        let n := live.length
        let r1 := (Config.freeWord s.free).toNat
        let r0 := (Config.freeWord (s.free + 1)).toNat
        let cl := clusterOf site
        if counted then
          let s := (s.addF R.CORE.FORECAST_STATS.PROBABLE_MISS site n).pend cl (setKey (c.f 23 16) .fcMiss) n
          .next (({ s with free := s.free + 2 }).speDone site c 0 r0 r1)
        else if !(live.isEmpty || wrOk mk (2 * n)) then .next (s.speRefuse site c true true)
        else
          let s := s.modCore site fun x => x.wrLm mk (live.flatMap (natLE 2))
          let s := (s.addF R.CORE.FORECAST_STATS.MAKEUP site n).pend cl (setKey (c.f 23 16) .fcMakeup) n
          .next (({ s with free := s.free + 2 }).speDone site c 0 n r1)

/-- Bytes of a command's ranges that a program access made undefined while it ran (R155).
DESIGN CHOICE, log entry 6; DEDUCED, log entry 7. -/
def State.freeHurt (s : State) (site : Nat) (c : SpeCmd) : State :=
  let s := each c.hurt s fun s r =>
    { s.modCore site fun x => x.wrLm r.lo (freeBytes s.free r.len) with free := s.free + r.len }
  each c.dhurt s fun s r => { s.memWrite (corePort site) r.lo (freeBytes s.free r.len) with free := s.free + r.len }

/-- SPARSE_COMMAND_COMPLETE (R154 to R156): STATUS, and unless it is 0x02 or 0x03 the results, go into the
command block; token 0xFF rises by 1. -/
def execSparseCommandComplete (site : Fin 672) (s : State) : Ans :=
  match (s.core site).spe with
  | none => .next s
  | some c =>
    if !c.done then .next s
    else
      let s := s.modCore site fun x =>
        let x := { x with spe := none }.wrLm (c.addr + 1) [BitVec.ofNat 8 c.status]
        if c.status = 2 ∨ c.status = 3 then x else x.wrLm (c.addr + 4) (natLE 4 c.r0 ++ natLE 4 c.r1)
      let s := s.freeHurt site c
      .next ((s.setF R.CORE.SPE_CTL.BUSY site 0).deliver site site 0xFF 1)

end Sys2Proof.Machine
end

