-- ==== Sys2Proof/Machine/Dispatch.lean ====
section
/-! DEFINITION. One arm per command. -/

namespace Sys2Proof.Machine

/-- The effect of a command on everything but the queue. -/
def exec (i : Instr) (s : State) : Host.Outcome State Fault Refusal :=
  match i with
  | .nop site w => Sys2Proof.Machine.execNop site w s
  | .fin site w => Sys2Proof.Machine.execEnd site w s
  | .jmp site w => Sys2Proof.Machine.execJmp site w s
  | .br site w => Sys2Proof.Machine.execBr site w s
  | .loop site w => Sys2Proof.Machine.execLoop site w s
  | .call site w => Sys2Proof.Machine.execCall site w s
  | .ret site w => Sys2Proof.Machine.execRet site w s
  | .wait site w => Sys2Proof.Machine.execWait site w s
  | .waitSatisfied site => Sys2Proof.Machine.execWaitSatisfied site s
  | .fence site w => Sys2Proof.Machine.execFence site w s
  | .seti site w => Sys2Proof.Machine.execSeti site w s
  | .alu site w => Sys2Proof.Machine.execAlu site w s
  | .ldg site w => Sys2Proof.Machine.execLdg site w s
  | .stg site w => Sys2Proof.Machine.execStg site w s
  | .movd site w => Sys2Proof.Machine.execMovd site w s
  | .movl site w => Sys2Proof.Machine.execMovl site w s
  | .movs site w => Sys2Proof.Machine.execMovs site w s
  | .movr site w => Sys2Proof.Machine.execMovr site w s
  | .routeDataArrival n => Sys2Proof.Machine.execRouteDataArrival n s
  | .send site w => Sys2Proof.Machine.execSend site w s
  | .wld site w => Sys2Proof.Machine.execWld site w s
  | .weightLoadComplete site => Sys2Proof.Machine.execWeightLoadComplete site s
  | .wswp site w => Sys2Proof.Machine.execWswp site w s
  | .planeSwap site waited => Sys2Proof.Machine.execPlaneSwap site waited s
  | .mm site w => Sys2Proof.Machine.execMm site w s
  | .mmEntrySignal site => Sys2Proof.Machine.execMmEntrySignal site s
  | .accmrg site w => Sys2Proof.Machine.execAccmrg site w s
  | .accpart site w => Sys2Proof.Machine.execAccpart site w s
  | .accrnd site w => Sys2Proof.Machine.execAccrnd site w s
  | .accclr site w => Sys2Proof.Machine.execAccclr site w s
  | .chset site w => Sys2Proof.Machine.execChset site w s
  | .chfin site w => Sys2Proof.Machine.execChfin site w s
  | .vop site w => Sys2Proof.Machine.execVop site w s
  | .vfn site w => Sys2Proof.Machine.execVfn site w s
  | .vred site w => Sys2Proof.Machine.execVred site w s
  | .vacc site w => Sys2Proof.Machine.execVacc site w s
  | .vcvt site w => Sys2Proof.Machine.execVcvt site w s
  | .vld site w => Sys2Proof.Machine.execVld site w s
  | .vst site w => Sys2Proof.Machine.execVst site w s
  | .qnt site w => Sys2Proof.Machine.execQnt site w s
  | .smld site w => Sys2Proof.Machine.execSmld site w s
  | .smclr site w => Sys2Proof.Machine.execSmclr site w s
  | .tsig site w => Sys2Proof.Machine.execTsig site w s
  | .tokenArrival n => Sys2Proof.Machine.execTokenArrival n s
  | .twait site w => Sys2Proof.Machine.execTwait site w s
  | .twaitSatisfied site => Sys2Proof.Machine.execTwaitSatisfied site s
  | .waitLimitExpiry site cycles => Sys2Proof.Machine.execWaitLimitExpiry site cycles s
  | .tmark site w => Sys2Proof.Machine.execTmark site w s
  | .rmark site w => Sys2Proof.Machine.execRmark site w s
  | .chkeq site w => Sys2Proof.Machine.execChkeq site w s
  | .chkg site w => Sys2Proof.Machine.execChkg site w s
  | .instructionComplete site u => Sys2Proof.Machine.execInstructionComplete site u s
  | .sparseCommandStart site => Sys2Proof.Machine.execSparseCommandStart site s
  | .pack site => Sys2Proof.Machine.execPack site s
  | .unpack site => Sys2Proof.Machine.execUnpack site s
  | .predict site => Sys2Proof.Machine.execPredict site s
  | .scout site => Sys2Proof.Machine.execScout site s
  | .sparseCommandComplete site => Sys2Proof.Machine.execSparseCommandComplete site s
  | .deckLineOperation cl t slice port line wr mask data err => Sys2Proof.Machine.execDeckLineOperation cl t slice port line wr mask data err s
  | .gatherBufferTimeout slice port line => Sys2Proof.Machine.execGatherBufferTimeout slice port line s
  | .gatherBufferDrain slice => Sys2Proof.Machine.execGatherBufferDrain slice s
  | .atomicAdd addr v => Sys2Proof.Machine.execAtomicAdd addr v s
  | .deckScrub slice err => Sys2Proof.Machine.execDeckScrub slice err s
  | .hbmAccess addr wr data len err => Sys2Proof.Machine.execHbmAccess addr wr data len err s
  | .hbmPatrolScrub stack err => Sys2Proof.Machine.execHbmPatrolScrub stack err s
  | .hbmRetrainStart stack auto => Sys2Proof.Machine.execHbmRetrainStart stack auto s
  | .hbmRetrainStepEnd stack last => Sys2Proof.Machine.execHbmRetrainStepEnd stack last s
  | .hdmDecoderProgram caps => Sys2Proof.Machine.execHdmDecoderProgram caps s
  | .cxlLinkDown port => Sys2Proof.Machine.execCxlLinkDown port s
  | .cxlInboundRequest port addr wr data len => Sys2Proof.Machine.execCxlInboundRequest port addr wr data len s
  | .moverCommandStart m l => Sys2Proof.Machine.execMoverCommandStart m l s
  | .moverCopy m l => Sys2Proof.Machine.execMoverCopy m l s
  | .moverCopyComplete m l => Sys2Proof.Machine.execMoverCopyComplete m l s
  | .ctlMoverGo m => Sys2Proof.Machine.execCtlMoverGo m s
  | .admission p => Sys2Proof.Machine.execAdmission p s
  | .jobPartitionRelease job => Sys2Proof.Machine.execJobPartitionRelease job s
  | .launch a => Sys2Proof.Machine.execLaunch a s
  | .kernelStart site => Sys2Proof.Machine.execKernelStart site s
  | .clTsig c v => Sys2Proof.Machine.execClTsig c v s
  | .portTraining p lanes farSwitch farId => Sys2Proof.Machine.execPortTraining p lanes farSwitch farId s
  | .lptRetrain p lanes => Sys2Proof.Machine.execLptRetrain p lanes s
  | .laneFailure p lane lanes errs => Sys2Proof.Machine.execLaneFailure p lane lanes s errs
  | .portDown p => Sys2Proof.Machine.execPortDown p s
  | .flitReceive p flit corr unc => Sys2Proof.Machine.execFlitReceive p flit corr unc s
  | .linkReplay p => Sys2Proof.Machine.execLinkReplay p s
  | .ackTimeout p => Sys2Proof.Machine.execAckTimeout p s
  | .dataPacketArrival lc n => Sys2Proof.Machine.execDataPacketArrival lc n s
  | .landingWriteAccepted lc n => Sys2Proof.Machine.execLandingWriteAccepted lc n s
  | .answerArrival lc n => Sys2Proof.Machine.execAnswerArrival lc n s
  | .noBufferRetry lc slot => Sys2Proof.Machine.execNoBufferRetry lc slot s
  | .packetTimeout lc slot => Sys2Proof.Machine.execPacketTimeout lc slot s
  | .lifetimeDiscard lc n => Sys2Proof.Machine.execLifetimeDiscard lc n s
  | .noticeArrival lc n => Sys2Proof.Machine.execNoticeArrival lc n s
  | .noticeRetransmit dev nseq => Sys2Proof.Machine.execNoticeRetransmit dev nseq s
  | .noticeAckArrival dev nseq => Sys2Proof.Machine.execNoticeAckArrival dev nseq s
  | .partnerProbe dev => Sys2Proof.Machine.execPartnerProbe dev s
  | .probeAnswer dev => Sys2Proof.Machine.execProbeAnswer dev s
  | .planeJoin q => Sys2Proof.Machine.execPlaneJoin q s
  | .planeLeave dev => Sys2Proof.Machine.execPlaneLeave dev s
  | .portSetUpdate reach => Sys2Proof.Machine.execPortSetUpdate reach s
  | .jobTagRequest dev hash ident given => Sys2Proof.Machine.execJobTagRequest dev hash ident given s
  | .jobTagRelease dev tag => Sys2Proof.Machine.execJobTagRelease dev tag s
  | .windowOpen v => Sys2Proof.Machine.execWindowOpen v s
  | .windowClose v => Sys2Proof.Machine.execWindowClose v s
  | .windowCloseComplete => Sys2Proof.Machine.execWindowCloseComplete s
  | .windowNotifyChange v => Sys2Proof.Machine.execWindowNotifyChange v s
  | .multicastEntryWrite v => Sys2Proof.Machine.execMulticastEntryWrite v s
  | .markCmdMark => Sys2Proof.Machine.execMarkCmdMark s
  | .markArrival => Sys2Proof.Machine.execMarkArrival s
  | .rangeFingerprintRead n => Sys2Proof.Machine.execRangeFingerprintRead n s
  | .tallyLatch => Sys2Proof.Machine.execTallyLatch s
  | .tallyContributionArrival => Sys2Proof.Machine.execTallyContributionArrival s
  | .holdReq => Sys2Proof.Machine.execHoldReq s
  | .release => Sys2Proof.Machine.execRelease s
  | .stepGateInput dev step good => Sys2Proof.Machine.execStepGateInput dev step good s
  | .stepGateDecision go => Sys2Proof.Machine.execStepGateDecision go s
  | .gateInputTimeout dev => Sys2Proof.Machine.execGateInputTimeout dev s
  | .gateDecisionTimeout => Sys2Proof.Machine.execGateDecisionTimeout s
  | .twinDigestArrival digest => Sys2Proof.Machine.execTwinDigestArrival digest s
  | .twinReplayComplete own twin state => Sys2Proof.Machine.execTwinReplayComplete own twin s state
  | .twinDigestTimeout => Sys2Proof.Machine.execTwinDigestTimeout s
  | .planeRejoin digest => Sys2Proof.Machine.execPlaneRejoin digest s
  | .clusterCommit c => Sys2Proof.Machine.execClusterCommit c s
  | .errorReport src => Sys2Proof.Machine.execErrorReport s src
  | .recordClose agg n => Sys2Proof.Machine.execRecordClose agg n s
  | .ringBaseWrite v => Sys2Proof.Machine.execRingBaseWrite v s
  | .captureSlotFree v => Sys2Proof.Machine.execCaptureSlotFree v s
  | .groupReplay c => Sys2Proof.Machine.execGroupReplay c s
  | .residueReplayComplete site => Sys2Proof.Machine.execResidueReplayComplete site s
  | .lullSliceStart site array outcome buddy => Sys2Proof.Machine.execLullSliceStart site array outcome s buddy
  | .lullSliceYield site => Sys2Proof.Machine.execLullSliceYield site s
  | .heartbeat site => Sys2Proof.Machine.execHeartbeat site s
  | .heartbeatTimeout site => Sys2Proof.Machine.execHeartbeatTimeout site s
  | .coreSubstitution site => Sys2Proof.Machine.execCoreSubstitution site s
  | .clusterPartitionReset site => Sys2Proof.Machine.execClusterPartitionReset site s
  | .memoryMarchComplete site pass => Sys2Proof.Machine.execMemoryMarchComplete site pass s
  | .jobPartitionReset job => Sys2Proof.Machine.execJobPartitionReset job s
  | .referenceSwitch r live => Sys2Proof.Machine.execReferenceSwitch r live s
  | .referenceLoss r live => Sys2Proof.Machine.execReferenceLoss r live s
  | .treeClockSet r => Sys2Proof.Machine.execTreeClockSet r s
  | .devTimeStep v => Sys2Proof.Machine.execDevTimeStep v s
  | .rateWordChange => Sys2Proof.Machine.execRateWordChange s
  | .ptpSyncReceive port gm bound => Sys2Proof.Machine.execPtpSyncReceive port gm bound s
  | .ptpOffsetBoundExceeded bound => Sys2Proof.Machine.execPtpOffsetBoundExceeded bound s
  | .ptpSyncLoss => Sys2Proof.Machine.execPtpSyncLoss s
  | .frontArm v => Sys2Proof.Machine.execFrontArm v s
  | .frontCancel => Sys2Proof.Machine.execFrontCancel s
  | .frontRampStart => Sys2Proof.Machine.execFrontRampStart s
  | .frontDividerChange r => Sys2Proof.Machine.execFrontDividerChange r s
  | .droopStretch r mv => Sys2Proof.Machine.execDroopStretch r mv s
  | .paceGroupStart r => Sys2Proof.Machine.execPaceGroupStart r s
  | .squallTrigger r slope => Sys2Proof.Machine.execSquallTrigger r slope s
  | .squallDecay r slope => Sys2Proof.Machine.execSquallDecay r slope s
  | .currentGovernorTick r amps => Sys2Proof.Machine.execCurrentGovernorTick r amps s
  | .switchOnRequest r => Sys2Proof.Machine.execSwitchOnRequest r s
  | .switchOnRecheck r => Sys2Proof.Machine.execSwitchOnRecheck r s
  | .regionRampEnd r => Sys2Proof.Machine.execRegionRampEnd r s
  | .regionReady r => Sys2Proof.Machine.execRegionReady r s
  | .thermalSample r temps => Sys2Proof.Machine.execThermalSample r temps s
  | .thermalPaceTick r => Sys2Proof.Machine.execThermalPaceTick r s
  | .heatSwitchOff r => Sys2Proof.Machine.execHeatSwitchOff r s
  | .thermalTrip r => Sys2Proof.Machine.execThermalTrip r s
  | .phaseFailure r phase => Sys2Proof.Machine.execPhaseFailure r phase s
  | .converterFailure n => Sys2Proof.Machine.execConverterFailure n s
  | .modulePowerGovernor watts => Sys2Proof.Machine.execModulePowerGovernor watts s
  | .modulePowerTrip watts => Sys2Proof.Machine.execModulePowerTrip watts s
  | .moduleRestart => Sys2Proof.Machine.execModuleRestart s
  | .telemetryInterval samples => Sys2Proof.Machine.execTelemetryInterval samples s
  | .ctrlClaim cc => Sys2Proof.Machine.execCtrlClaim cc s
  | .ctrlRelease cc => Sys2Proof.Machine.execCtrlRelease cc s
  | .failover => Sys2Proof.Machine.execFailover s
  | .journalEntry op arg done ack step => Sys2Proof.Machine.execJournalEntry op arg done ack s step
  | .journalAckTimeout => Sys2Proof.Machine.execJournalAckTimeout s
  | .sealSet cc => Sys2Proof.Machine.execSealSet cc s
  | .expertEnable v => Sys2Proof.Machine.execExpertEnable v s
  | .registerWrite cc addr size v => Sys2Proof.Machine.execRegisterWrite cc addr size v s
  | .mgmtFrameSend port bytes ptp => Sys2Proof.Machine.execMgmtFrameSend port bytes ptp s
  | .powerArrival => Sys2Proof.Machine.execPowerArrival s
  | .stage1ImageReceive cc obj => Sys2Proof.Machine.execStage1ImageReceive cc obj s
  | .ptpWaitTimeout => Sys2Proof.Machine.execPtpWaitTimeout s
  | .devTimeRebase gm => Sys2Proof.Machine.execDevTimeRebase gm s
  | .computePowerUp => Sys2Proof.Machine.execComputePowerUp s
  | .cruise q => Sys2Proof.Machine.execCruise q s
  | .blazeMapRevision => Sys2Proof.Machine.execBlazeMapRevision s
  | .firmwareBroadcast obj bad => Sys2Proof.Machine.execFirmwareBroadcast obj bad s
  | .installLicence => Sys2Proof.Machine.execInstallLicence s
  | .attest => Sys2Proof.Machine.execAttest s
  | .extendMeas => Sys2Proof.Machine.execExtendMeas s
  | .signBlazeMap => Sys2Proof.Machine.execSignBlazeMap s
  | .raiseSvnFloor => Sys2Proof.Machine.execRaiseSvnFloor s
  | .licenceExpiry id => Sys2Proof.Machine.execLicenceExpiry id s
  | .clusterFirmwareUpdate c obj => Sys2Proof.Machine.execClusterFirmwareUpdate c obj s
  | .controlFirmwareUpdate stage1 os => Sys2Proof.Machine.execControlFirmwareUpdate stage1 os s
  | .linkChipletUpdate lc obj lanes => Sys2Proof.Machine.execLinkChipletUpdate lc obj lanes s
  | .laneCalibration p lane => Sys2Proof.Machine.execLaneCalibration p lane s
  | .portChipletUpdate pc obj => Sys2Proof.Machine.execPortChipletUpdate pc obj s
  | .sensorCalibration r sensor => Sys2Proof.Machine.execSensorCalibration r sensor s
  | .modRstNAssert => Sys2Proof.Machine.execModRstNAssert s
  | .modRstNRelease => Sys2Proof.Machine.execModRstNRelease s
  | .inputUndervoltage => Sys2Proof.Machine.execInputUndervoltage s
  | .inputOvervoltage => Sys2Proof.Machine.execInputOvervoltage s
  | .controlUndervoltage => Sys2Proof.Machine.execControlUndervoltage s
  | .isolationOvervoltage => Sys2Proof.Machine.execIsolationOvervoltage s
  | .refclkLoss => Sys2Proof.Machine.execRefclkLoss s
  | .readReg g inst off => Sys2Proof.Machine.execReadReg g inst off s
  | .inputRead => Sys2Proof.Machine.execInput s
  | .alertStatus => Sys2Proof.Machine.execAlertStatus s
  | .alertClear v => Sys2Proof.Machine.execAlertClear v s
  | .ident => Sys2Proof.Machine.execIdent s
  | .tapInstruction op pins => Sys2Proof.Machine.execTapInstruction op pins s
  | .trstNReset => Sys2Proof.Machine.execTrstNReset s
  | .cxlLinkUp port width rate cxl => Sys2Proof.Machine.execCxlLinkUp port width rate cxl s
  | .managementPortDown port => Sys2Proof.Machine.execManagementPortDown port s
  | .controlChipletRestart cc => Sys2Proof.Machine.execControlChipletRestart cc s
  | .sequencerParityError site => Sys2Proof.Machine.execSequencerParityError site s

end Sys2Proof.Machine
end

