-- ==== Sys2Proof/Safety.lean ====
section
/-! DEFINITION. The words of the statements: a sound state, a core site that can issue, and what a command leaves
alone. -/

namespace Sys2Proof.Machine

/-! ### Sound states -/

/-- The device memory is in its canonical form, so that equal memories are equal data. -/
def State.canonical (s : State) : Prop := Memory.wf s.mem = true

/-- Every SVN floor fits the 6 bits of SEC.SVN_FLOORn (R392, R400). -/
def State.floorsFit (s : State) : Prop := ∀ cc t, s.svnFloor cc t ≤ 63

/-- What outlives every loss of power: the root public keys in flash stay (R377, R410), and no SVN floor falls
(R392). -/
def State.trusts (s t : State) : Prop :=
  t.flash0.rootKey = s.flash0.rootKey ∧ t.flash1.rootKey = s.flash1.rootKey ∧ ∀ cc k, s.svnFloor cc k ≤ t.svnFloor cc k

/-! ### Core sites -/

/-- The site can issue `w`, a word of opcode `op`, and every one of its units is idle (R88, R94, R118). -/
structure State.ready (s : State) (site : Nat) (w : IWord) (op : Nat) : Prop where
  issuing : s.issuing site = true
  drain   : (s.core site).drain = .none
  idle    : (s.core site).fly = []
  word    : opcode w = op

/-- The same, and no command of its sparse engine is under way, whose ranges the instruction could touch (R155). -/
structure State.quiet (s : State) (site : Nat) (w : IWord) (op : Nat) : Prop extends s.ready site w op where
  engine : (s.core site).spe = none

/-- The state after an instruction that the sequencer executes itself: the core site becomes `c`, and one more
instruction counts as issued (R118). Nothing else differs. -/
def State.ran (s : State) (site : Nat) (c : CoreSite) : State := (s.setCore site c).countInstr site

/-- The state after an instruction with the events `ev` went to a unit: the core site becomes `c`, and one more
instruction counts as issued. Nothing but the core site, its counts, the free-value counter, the cluster's
pending contributions and reports differs. -/
def State.queued (s : State) (site : Nat) (c : CoreSite) (fr : Nat) (ev : List Ev) : State :=
  (({ s.setCore site c with free := fr }).applyEvs site (s.core site).pc ev).countInstr site

/-- The run that the issue of an instruction at a site starts from. -/
def State.runAt (s : State) (site : Nat) : Run := { c := s.core site, ev := [], fr := s.free }

/-! ### What a command leaves alone -/

/-- Registers other than those under the given keys are unchanged. -/
def State.regsBut (s t : State) (ks : List Nat) : Prop := ∀ k, k ∉ ks → Tab.get 0 t.regs k = Tab.get 0 s.regs k

/-- Core sites other than the given ones are unchanged. -/
def State.coresBut (s t : State) (l : List Nat) : Prop := ∀ i, i ∉ l → t.core i = s.core i

/-- Of the clusters, only what cluster `cl` still has to contribute to the tally may differ (R275). -/
def State.tallied (s t : State) (cl : Nat) : Prop :=
  ∀ i, t.cluster i = { s.cluster i with pend := (t.cluster i).pend } ∧ (i ≠ cl → t.cluster i = s.cluster i)

/-- Every byte of device memory outside a range reads as before (R192, R200). -/
def State.memBut (s t : State) (a n : Nat) : Prop := ∀ b, ¬ (a ≤ b ∧ b < a + n) → Tab.get 0 t.mem b = Tab.get 0 s.mem b

/-- The same, for a range in the reserved region of HBM, whose addresses may be those of a spare frame (R194, R207). -/
def State.canonBut (s t : State) (a n : Nat) : Prop :=
  ∀ b, (∀ i, i < n → s.canon (a + i) ≠ b) → Tab.get 0 t.mem b = Tab.get 0 s.mem b

/-- Beside the records of the error ring, where it is enabled, every byte of device memory reads as before (R298). -/
def State.ringBut (s t : State) : Prop :=
  ∀ b, (s.ringOn = true → ∀ i, i < 0x40000 → s.canon (s.ringAt 0 + i) ≠ b) → Tab.get 0 t.mem b = Tab.get 0 s.mem b

/-- The class, code and unit of the reports made since (R293). -/
def State.newReports (s t : State) : List (Nat × Nat × Nat) :=
  (t.errs.reports.drop s.errs.reports.length).map fun r => (r.cls, r.code, r.unit)

end Sys2Proof.Machine
end

