-- ==== Sys2Proof/Certificates/Slice0/Obligations.lean ====
section
/-! DEFINITION. The statements for the provers. A next state that a statement gives whole says the frame with it:
what it does not name is unchanged. -/

open Sys2Proof Sys2Proof.Machine

/-- For every command c and state s, a step of s with c at the front of its queue is exec c on s with the queue's
rest. (95_what_each_step_holds.md) -/
def Obligations.StepTakesFront : Prop :=
  ∀ (c : Instr) (rest : List Instr) (s : State),
    step { s with pending := c :: rest } = exec c { s with pending := rest }

/-- The model's choice (log entry 3): with no command waiting and 36 V present, and no recovery to time, no front
under way and no step gate open, a step advances DEV_TIME by one 10 ns reference cycle at the rate in force, at
most 100 ppm off, and ends the cycle of what was set or refused; without 36 V nothing changes. No command and no
step ever stops: each answers a next state. R331 gives the cycle, R332 the rate. (R331, R332) -/
def Obligations.IdleTick : Prop :=
  (∀ (s : State), (∀ c, ∃ (t : State), exec c s = .next t) ∧ ∃ t, step s = .next t) ∧
  ∀ s : State, s.pending = [] →
    (s.module_.v36 = false → step s = .next s) ∧
    (s.module_.v36 = true → (∀ c, c < 24 → s.regained c = false) → s.frontPending = false → s.tally.gate.active = false →
      ∃ d : Nat, step s = .next { s with time := s.time + d, fresh := [], ctl := { s.ctl with busErr := none } } ∧
      (s.rate = 0 → d = 10 * 2 ^ 32) ∧ 10 * 2 ^ 32 * 999900 ≤ 1000000 * d + 1000000 ∧ 1000000 * d ≤ 10 * 2 ^ 32 * 1000100)

/-- NOP only moves to the next address. SETI writes IMM to GD. ALU writes the function of GA and the second operand
to GD. CHKG whose condition holds only moves on. A write to G0 is ignored. The next state is given whole, so
nothing else changes. Each ALU function code and condition code of R97, said by its value as an unsigned or
signed number; codes outside the table have none. (R84, R96, R97, R103) -/
def Obligations.ScalarInstructions : Prop :=
  (∀ (s : State) (site : Fin 672) (w : IWord),
    (s.ready site w 0x00 →
      exec (.nop site w) s = .next (s.ran site { s.core site with pc := nextPc (s.core site).pc })) ∧
    (s.ready site w 0x10 → ∃ (g : _), exec (.seti site w) s =
        .next (s.ran site { s.core site with g := g, pc := nextPc (s.core site).pc }) ∧
      ∀ r, ({ s.core site with g := g } : CoreSite).greg r =
        if r = wf w 111 107 ∧ r ≠ 0 then BitVec.ofNat 64 (wf w 63 0) else (s.core site).greg r) ∧
    (∀ v, s.ready site w 0x11 → aluFn (wf w 96 93) ((s.core site).greg (wf w 106 102)) (aluSecond w (s.core site)) = some v →
      ∃ (g : _), exec (.alu site w) s = .next (s.ran site { s.core site with g := g, pc := nextPc (s.core site).pc }) ∧
        ∀ r, ({ s.core site with g := g } : CoreSite).greg r =
          if r = wf w 111 107 ∧ r ≠ 0 then v else (s.core site).greg r) ∧
    (s.ready site w 0xC1 →
      condHolds (wf w 106 104) ((s.core site).greg (wf w 111 107)) (BitVec.ofInt 64 (sext 32 (wf w 31 0))) = some true →
      exec (.chkg site w) s = .next (s.ran site { s.core site with pc := nextPc (s.core site).pc }))) ∧
  (∀ a b : GWord,
    (∃ v, aluFn 0 a b = some v ∧ v.toNat = (a.toNat + b.toNat) % 2 ^ 64) ∧
    (∃ v, aluFn 1 a b = some v ∧ v.toNat = (2 ^ 64 + a.toNat - b.toNat) % 2 ^ 64) ∧
    (∃ v, aluFn 2 a b = some v ∧ v.toNat = (a.toNat * b.toNat) % 2 ^ 64) ∧
    (∃ v, aluFn 3 a b = some v ∧ ∀ i, v.getLsbD i = (a.getLsbD i && b.getLsbD i)) ∧
    (∃ v, aluFn 4 a b = some v ∧ ∀ i, v.getLsbD i = (a.getLsbD i || b.getLsbD i)) ∧
    (∃ v, aluFn 5 a b = some v ∧ ∀ i, v.getLsbD i = (a.getLsbD i != b.getLsbD i)) ∧
    (∃ v, aluFn 6 a b = some v ∧ v.toNat = a.toNat * 2 ^ (b.toNat % 64) % 2 ^ 64) ∧
    (∃ v, aluFn 7 a b = some v ∧ v.toNat = a.toNat / 2 ^ (b.toNat % 64)) ∧
    (∃ v, aluFn 8 a b = some v ∧ v.toInt = a.toInt / 2 ^ (b.toNat % 64)) ∧
    (∃ v, aluFn 9 a b = some v ∧ v.toInt = min a.toInt b.toInt) ∧
    (∃ v, aluFn 10 a b = some v ∧ v.toInt = max a.toInt b.toInt) ∧
    (∀ n, 11 ≤ n → aluFn n a b = none) ∧
    (condHolds 0 a b = some (decide (a.toNat = b.toNat)) ∧ condHolds 1 a b = some (decide (a.toNat ≠ b.toNat)) ∧
      condHolds 2 a b = some (decide (a.toInt < b.toInt)) ∧ condHolds 3 a b = some (decide (b.toInt ≤ a.toInt)) ∧
      condHolds 4 a b = some (decide (a.toNat < b.toNat)) ∧ condHolds 5 a b = some (decide (b.toNat ≤ a.toNat)) ∧
      ∀ n, 6 ≤ n → condHolds n a b = none))

/-- A branch whose target lies in 0 to 16,383 goes to its own address plus OFF; BR only when GA COND GB holds; LOOP
subtracts 1 from GA and branches when the result is not zero; CALL pushes the next address on a return stack of
8, which RET pops. The next state is given whole. A word whose opcode R96 does not list, given to any
instruction row at an idle site that runs no kernel of a job partition: the sequencer stops where it stands,
CORE.SEQ_FAULT shows the address, KIND 1 and the opcode, a class 0x4 code 0x01 report names the site and the
address, and no instruction counts as issued. (R83, R94, R96, R97, R118) -/
def Obligations.BranchInstructions : Prop :=
  (∀ (s : State) (site : Fin 672) (w : IWord), let c := s.core site
    (∀ t : Nat, s.ready site w 0x02 → (c.pc : Int) + sext 20 (wf w 111 92) = t → t < 16384 →
      exec (.jmp site w) s = .next (s.ran site { c with pc := t })) ∧
    (∀ (t : Nat) (b : Bool), s.ready site w 0x03 → (c.pc : Int) + sext 20 (wf w 98 79) = t → t < 16384 →
      condHolds (wf w 101 99) (c.greg (wf w 111 107)) (c.greg (wf w 106 102)) = some b →
      exec (.br site w) s = .next (s.ran site { c with pc := if b then t else nextPc c.pc })) ∧
    (∀ t : Nat, s.ready site w 0x04 → (c.pc : Int) + sext 20 (wf w 106 87) = t → t < 16384 →
      let v := c.greg (wf w 111 107) - 1
      exec (.loop site w) s = .next (s.ran site { c.setG (wf w 111 107) v with pc := if v = 0 then nextPc c.pc else t })) ∧
    (∀ t : Nat, s.ready site w 0x05 → (c.pc : Int) + sext 20 (wf w 111 92) = t → t < 16384 → c.ret.length < 8 →
      exec (.call site w) s = .next (s.ran site { c with ret := nextPc c.pc :: c.ret, pc := t })) ∧
    (∀ (t : Nat) (r : List Nat), s.ready site w 0x06 → c.ret = t :: r →
      exec (.ret site w) s = .next (s.ran site { c with ret := r, pc := t }))) ∧
  (∀ (s : State) (site : Fin 672) (w : IWord) (op : Nat), s.ready site w op → listedOpcode op = false →
    (s.core site).pc < 2 ^ 14 → s.jobOf (clusterOf site) = none → s.liveSites [clusterOf site] = [] →
    ∀ i ∈ ([.nop, .fin, .jmp, .br, .loop, .call, .ret, .wait, .fence, .seti, .alu, .ldg, .stg, .movd, .movl, .movs, .movr, .send,
        .wld, .wswp, .mm, .accmrg, .accpart, .accrnd, .accclr, .chset, .chfin, .vop, .vfn, .vred, .vacc, .vcvt, .vld, .vst, .qnt,
        .smld, .smclr, .tsig, .twait, .tmark, .rmark, .chkeq, .chkg] : List (Fin 672 → IWord → Instr)),
    ∃ (t : State), exec (i site w) s = .next t ∧ (t.core site).st = .stopped ∧ (t.core site).pc = (s.core site).pc ∧
      t.getF R.CORE.SEQ_FAULT.FAULT_PC site = (s.core site).pc ∧ t.getF R.CORE.SEQ_FAULT.KIND site = 1 ∧
      t.getF R.CORE.SEQ_FAULT.OPCODE site = op ∧ t.getF R.CORE.INSTR_CNT.COUNT site = s.getF R.CORE.INSTR_CNT.COUNT site ∧
      ∃ r ∈ t.errs.reports, r.cls = 4 ∧ r.code = 1 ∧ r.unit = wholeUnit 2 site ∧ r.pc = (s.core site).pc)

/-- WAIT U, N and TWAIT TOKEN, COUNT take the count at once when it is there, else stall; the stall ends when the
count has come, and N is subtracted. The router then delivers what it held in excess of the token. A stall of
2^WAIT_LIMIT cycles, at least 2^16, is a sequencing fault. With every unit idle, and no replay or reset waiting
for its group, END ends the kernel: its completion word holds CODE, STATE 2 and the launch's SEQ, the event
counter takes 1 and the sequencer is idle. FENCE goes on. RMARK stands at its MARK_ID and writes its mark record
where the program gives an area. TMARK on the designated core stands at the mark and sends it to the tally unit;
one that a replay repeats sends no second mark: it goes on at once where its mark has completed, and else stands
at the mark, held where the device is held at it (the model's reading of R323, log entry 5); elsewhere it is an
illegal instruction. (R89, R95, R96, R98, R102, R116, R234, R271, R300, R303) -/
def Obligations.WaitInstructions : Prop :=
  (∀ (s : State) (site : Fin 672) (w : IWord), let c := s.core site
    (s.ready site w 0x07 → let u := wf w 111 109; let n := wf w 108 93
      exec (.wait site w) s = .next (if n ≤ c.ctr u
        then s.ran site { c.setCtr u (c.ctr u - n) with pc := nextPc c.pc, waitAt := s.now }
        else s.setCore site { c with st := .inWait, wait := .ctr u n, waitAt := s.now })) ∧
    (s.ready site w 0xA1 → let k := wf w 111 104; let n := wf w 103 88
      exec (.twait site w) s = .next ((if n ≤ c.token k
        then s.ran site { c.setToken k (c.token k - n) with pc := nextPc c.pc, waitAt := s.now }
        else s.setCore site { c with st := .inTwait, wait := .token k n, waitAt := s.now }).deliverExcess site k)) ∧
    (∀ u n, c.st = .inWait → c.wait = .ctr u n → c.lull = none → n ≤ c.ctr u →
      exec (.waitSatisfied site) s = .next (s.ran site { c.setCtr u (c.ctr u - n) with
        st := .issuing, drain := .none, wait := .none, atMark := none, pc := nextPc c.pc })) ∧
    (∀ k n, c.st = .inTwait → c.wait = .token k n → c.lull = none → n ≤ c.token k →
      exec (.twaitSatisfied site) s = .next ((s.ran site { c.setToken k (c.token k - n) with
        st := .issuing, drain := .none, wait := .none, atMark := none, pc := nextPc c.pc }).deliverExcess site k)) ∧
    (∀ cycles, c.fly = [] → 2 ^ (max 16 (s.getF R.CORE.SEQ_CTL.WAIT_LIMIT site)) ≤ cycles → (c.st = .inWait ∨ c.st = .inTwait) →
      let op := if c.st = .inWait then 0x07 else 0xA1
      exec (.waitLimitExpiry site cycles) s = .next ((((s.faultAt site c.pc 3 op).faultReport site c.pc 3 op).setCore site
        { c with st := .stopped }).groupStop (clusterOf site)))) ∧
  (∀ (s : State) (site : Fin 672) (w : IWord), let c := s.core site
    (∀ r, s.ready site w 0x01 → s.run site = some r → (s.cluster (clusterOf site)).want = none →
      exec (.fin site w) s = .next ((((s.ran site { c with st := .idle }).memWrite (corePort site) (r.area + 8 * r.lcore)
        (natLE 8 (wf w 111 96 + 2 * 2 ^ 16 + r.seq * 2 ^ 32))).atomicAdd (corePort site) r.ctr 1).setRun site none)) ∧
    (s.ready site w 0x08 → exec (.fence site w) s =
      .next (s.ran site { c with st := .issuing, wait := .none, atMark := none, pc := nextPc c.pc })) ∧
    (s.ready site w 0xB1 → (∀ r j, s.run site = some r → s.job r.job = some j → j.markAddr (wf w 111 96 % 2) r.lcore = none) → exec (.rmark site w) s =
      .next (s.setCore site { c with st := .draining, atMark := some (wf w 111 96) })) ∧
    (∀ r j a, s.ready site w 0xB1 → s.run site = some r → s.job r.job = some j → j.markAddr (wf w 111 96 % 2) r.lcore = some a →
      exec (.rmark site w) s = .next ((s.setCore site { c with st := .draining, atMark := some (wf w 111 96) }).memWrite
        (corePort site) a (markRecord (wf w 111 96) (nextPc c.pc) c))) ∧
    (s.ready site w 0xB0 → s.designated site = true → s.ledgerAt site c.nTsig false = none → exec (.tmark site w) s =
      .next (((s.setCore site { c with st := .draining, atMark := some tmarkCode, nTsig := c.nTsig + 1 }).setLedger
        ⟨site, c.nTsig, false, .pending, 0, []⟩).modTally fun t => { t with incoming := t.incoming ++ [⟨some site⟩] })) ∧
    (∀ e, s.ready site w 0xB0 → s.designated site = true → s.ledgerAt site c.nTsig false = some e → e.out ≠ .pending →
      exec (.tmark site w) s =
        .next (s.ran site { c with st := .issuing, wait := .none, atMark := none, pc := nextPc c.pc, nTsig := c.nTsig + 1 })) ∧
    (∀ e, s.ready site w 0xB0 → s.designated site = true → s.ledgerAt site c.nTsig false = some e → e.out = .pending →
      exec (.tmark site w) s = .next (s.setCore site { c with atMark := some tmarkCode, nTsig := c.nTsig + 1, st := (if s.tally.heldMark = some ⟨some site.val⟩ ∧ s.getF R.TLY.HOLD.HELD 0 = 1 then .held else .draining) })) ∧
    (s.ready site w 0xB0 → s.designated site = false → exec (.tmark site w) s = .next (s.issueFault site 0xB0 .illegal (s.runAt site))))

/-- An aligned address within one area: LDG reads 8 bytes into GD and STG writes GS; VLD and VST move the 512 bytes
of a vector register and stand in the vector unit until they complete. The next state is given whole. (R2, R84,
R85, R88, R96) -/
def Obligations.LocalMemoryInstructions : Prop :=
  ∀ (s : State) (site : Fin 672) (w : IWord), let c := s.core site
    (s.quiet site w 0x12 → let a := c.la (wf w 106 83)
      a % 8 = 0 → rdOk a 8 = true → exec (.ldg site w) s =
        .next (s.ran site { c.setG (wf w 111 107) (BitVec.ofNat 64 (leNat (c.rdLm a 8))) with pc := nextPc c.pc })) ∧
    (s.quiet site w 0x13 → let a := c.la (wf w 106 83)
      a % 8 = 0 → wrOk a 8 = true → ∃ (l : _), exec (.stg site w) s = .next (s.ran site { c with lm := l, pc := nextPc c.pc }) ∧
        leNat (({ c with lm := l } : CoreSite).rdLm a 8) = (c.greg (wf w 111 107)).toNat ∧
        ∀ b, ¬ (a ≤ b ∧ b < a + 8) → Tab.get 0 l b = Tab.get 0 c.lm b) ∧
    (s.quiet site w 0x75 → let a := c.la (wf w 105 82)
      a % 16 = 0 → rdOk a 512 = true → ∃ (v : _) (f : _), exec (.vld site w) s =
          .next (s.ran site { c with v := v, pc := nextPc c.pc, fly := [f] }) ∧
        f.unit = .vector ∧ f.ctr = completion w ∧ f.ready = true ∧
        ({ c with v := v } : CoreSite).vreg (wf w 111 106) = c.rdLm a 512 ∧
        ∀ r, r ≠ wf w 111 106 → ({ c with v := v } : CoreSite).vreg r = c.vreg r) ∧
    (s.quiet site w 0x76 → let a := c.la (wf w 105 82)
      a % 16 = 0 → wrOk a 512 = true → ∃ (l : _) (f : _), exec (.vst site w) s =
          .next (s.ran site { c with lm := l, pc := nextPc c.pc, fly := [f] }) ∧
        f.unit = .vector ∧ f.ctr = completion w ∧ f.ready = true ∧
        ({ c with lm := l } : CoreSite).rdLm a 512 = c.vreg (wf w 111 106) ∧
        ∀ b, ¬ (a ≤ b ∧ b < a + 512) → Tab.get 0 l b = Tab.get 0 c.lm b)

/-- A move instruction whose operands R99 and R85 accept goes to the idle move unit, which acts at once; the next
state is given whole. MOVD moves its rows in order, each an access of its own, and is ready; a row that meets
poison resets the cluster partition. MOVL copies its rows and is ready. MOVS on a valid send entry puts on its
route what the far buffer and the path into the mesh have room for and keeps the rest. MOVR on a valid receive
entry takes LEN units once they are there, else waits. CHKEQ on equal ranges is ready with no other effect; on
unequal ones it is also counted and reported, and with STOP it stops the core. (R85, R88, R99, R103, R212, R226,
R227, R339) -/
def Obligations.MoveInstructions : Prop :=
  ∀ (s : State) (site : Fin 672) (w : IWord), let c := s.core site; let cl := clusterOf site
    (s.quiet site w 0x20 →
      let la := c.la (wf w 111 88); let lp := bits (c.gn (wf w 82 78)) 63 32; let dp := bits (c.gn (wf w 82 78)) 31 0
      let dev := (c.gn (wf w 87 83) : Int) + sext 20 (wf w 49 30); let rows := wf w 77 66 + 1; let n := wf w 65 50 + 1
      let rs := rowRngs la lp rows n
      let op : MoveOp := .movd (wb w 112) la lp dev dp rows n; let rw := if wb w 112 then (rs, []) else ([], rs)
      let f : Fly := { unit := .move, opc := 0x20, pc := c.pc, ctr := completion w, rd := rw.1, wr := rw.2, mv := some op, ready := false }
      let u := (s.ran site { c with pc := nextPc c.pc, fly := [f] }).movdRows site c.pc (wb w 112) la lp dev dp n 0 rows
      dev % 8 = 0 → dp % 8 = 0 → n % 8 = 0 → la % 8 = 0 → lp % 8 = 0 →
      (if wb w 112 then rngsRd rs else rngsWr rs) = true →
      (u.2 = false → exec (.movd site w) s = .next (u.1.moveDone site 0 true)) ∧
      (u.2 = true → s.mesh.fill = [] → exec (.movd site w) s = .next ((u.1.clusterReset site).afterDrain site))) ∧
    (s.quiet site w 0x21 →
      let src := c.la (wf w 111 88); let dst := c.la (wf w 87 64); let n := wf w 63 48 + 1; let rows := wf w 47 36 + 1
      let sp := wf w 35 18; let dp := wf w 17 0
      src % 8 = 0 → dst % 8 = 0 → n % 8 = 0 → sp % 8 = 0 → dp % 8 = 0 →
      rngsRd (rowRngs src sp rows n) = true → rngsWr (rowRngs dst dp rows n) = true →
      ∃ (f : _), exec (.movl site w) s = .next (s.ran site { copyRows c src dst n sp dp 0 rows with pc := nextPc c.pc, fly := [f] }) ∧
        f.unit = .move ∧ f.mv = none ∧ f.ready = true ∧ f.ctr = completion w) ∧
    (s.quiet site w 0x22 →
      let la := c.la (wf w 111 88); let route := wf w 87 82; let len := wf w 81 62 + 1; let p := s.routePeer cl route
      let room := min (s.routeRoom p.1 p.2) (128 * s.bytesFree cl)
      let bk := if wb w 112 then packFit c la room len else (c.rdLm la (16 * min len (room / 16)), min len (room / 16))
      la % 16 = 0 → rdOk la (lenBytes (wb w 112) len) = true → s.routeOk site route 0 = true →
      ∃ (f : _), exec (.movs site w) s = .next (if bk.2 = 0 then s.ran site { c with pc := nextPc c.pc, fly := [f] }
          else (s.ran site { c with pc := nextPc c.pc, fly := [f] }).routePut cl route bk.1) ∧
        f.unit = .move ∧ f.ready = false ∧ f.ctr = completion w ∧
        f.mv = some (.movs (la + (if wb w 112 then 96 else 16) * bk.2) route (len - bk.2) (wb w 112))) ∧
    (s.quiet site w 0x23 →
      let la := c.la (wf w 111 88); let route := wf w 87 82; let len := wf w 81 62 + 1; let b := s.routeFill cl route
      la % 16 = 0 → wrOk la (16 * len) = true → s.routeOk site route 1 = true →
      (16 * len ≤ b.length → (s.core (s.routeSender cl route)).fly = [] → ∃ (f : _), exec (.movr site w) s =
        .next ((s.ran site { c.wrLm la (b.take (16 * len)) with pc := nextPc c.pc, fly := [f] }).modMesh fun m =>
          { m with fill := Tab.set [] m.fill (64 * cl + route) (b.drop (16 * len)) }) ∧
        f.unit = .move ∧ f.mv = none ∧ f.ready = true ∧ f.ctr = completion w) ∧
      (b.length < 16 * len → ∃ (f : _), exec (.movr site w) s = .next (s.ran site { c with pc := nextPc c.pc, fly := [f] }) ∧
        f.unit = .move ∧ f.mv = some (.movr la route len) ∧ f.ready = false ∧ f.ctr = completion w)) ∧
    (s.quiet site w 0xC0 → let a := c.la (wf w 111 88); let b := c.la (wf w 87 64); let n := wf w 63 48 + 1
      rdOk a n = true → rdOk b n = true → ∃ (f : _), exec (.chkeq site w) s =
          .next (if c.rdLm a n = c.rdLm b n then s.ran site { c with pc := nextPc c.pc, fly := [f] }
            else (s.ran site { c with pc := nextPc c.pc, fly := [f] }).checkFail site c.pc (wb w 112)) ∧
        f.unit = .move ∧ f.mv = none ∧ f.ready = true ∧ f.ctr = completion w)

/-- The n-th route bytes under way, first of their route, join the receive buffer behind what it holds; nothing else
changes where neither end has a move instruction waiting and the path into the mesh was not full. The n-th
signal, first of its source and target, raises the target core's token count, where that does not pass 65,535
and the router holds no excess; a signal to a bound mover list raises its units. A SEND of a defined class and
readable bytes takes the site's next number, is recorded in the ledger as pending, forms its packets for its
target, or for each of its multicast group as it stands, and waits for their answers; one that a replay repeats
after its delivery sends nothing and is ready. A TSIG that finds room on the path into the mesh is ready: token
0xFE adds COUNT to what the sparse engine has waiting; a target outside the map, or token 0xFF, is dropped,
counted and recorded; a target inside the group gets its token; any other is numbered, recorded in the ledger
and sent, but not sent again by a replay. (R85, R88, R101, R102, R227, R228, R229, R230, R248, R264, R302, R339) -/
def Obligations.MeshArrivals : Prop :=
  (∀ (s : State) (n : Nat),
    (∀ b, s.mesh.bytes[n]? = some b → ((s.mesh.bytes.take n).any fun x => x.dstC == b.dstC && x.dstR == b.dstR) = false →
      (s.core (28 * b.srcC + s.effF (R.CL.ROUTE_LOn.SITE.at 8 b.srcR) b.srcC)).fly = [] →
      (s.core (28 * b.dstC + s.effF (R.CL.ROUTE_LOn.SITE.at 8 b.dstR) b.dstC)).fly = [] → s.bytesFree b.srcC ≠ 0 →
      ∃ (t : State), exec (.routeDataArrival n) s = .next t ∧
      t = { s with mesh := t.mesh } ∧ t.mesh.bytes = s.mesh.bytes.eraseIdx n ∧ t.mesh.toks = s.mesh.toks ∧
      ∀ c r, c < 24 → r < 64 → t.routeFill c r = s.routeFill c r ++ (if c = b.dstC ∧ r = b.dstR then b.data else [])) ∧
    (∀ k i tok, s.mesh.toks[n]? = some k → ((s.mesh.toks.take n).any fun x => x.src == k.src && x.target == k.target) = false →
      k.target = .core i tok → Tab.get 0 (s.cluster (clusterOf i)).excess (tokKey i tok) = 0 →
      (k.src < 1000 → s.toksFree (clusterOf k.src) ≠ 0) →
      (s.core i).token tok + k.count ≤ 65535 → ∃ (t : State), exec (.tokenArrival n) s = .next t ∧
      t = { s with mesh := t.mesh, cores := t.cores, clusters := t.clusters } ∧ t.mesh = { s.mesh with toks := s.mesh.toks.eraseIdx n } ∧
      t.core i = (s.core i).setToken tok ((s.core i).token tok + k.count) ∧ s.coresBut t [i]) ∧
    (∀ k m l o c, s.mesh.toks[n]? = some k → ((s.mesh.toks.take n).any fun x => x.src == k.src && x.target == k.target) = false →
      k.target = .list m l o → s.listOwner m l = some c → (k.src < 1000 → s.toksFree (clusterOf k.src) ≠ 0) →
      ∃ (t : State), exec (.tokenArrival n) s = .next t ∧
      t = { s with mesh := t.mesh, movers := t.movers } ∧ t.mesh = { s.mesh with toks := s.mesh.toks.eraseIdx n } ∧
      t.mover m l = { s.mover m l with units := (s.mover m l).units + k.count })) ∧
  (∀ (s : State) (site : Fin 672) (w : IWord), let c := s.core site; let cl := clusterOf site
    (s.quiet site w 0x24 → let la := c.la (wf w 111 88); let len := wf w 50 31 + 1; let num := c.nSend; let no := s.fab.nextSend
      let tg := if wb w 113 then s.groupTargets (wf w 87 76 % 256) else [(wf w 87 76, wf w 75 66, wf w 65 58)]
      la % 16 = 0 → wf w 52 51 ≠ 3 → rdOk la (lenBytes (wb w 112) len) = true →
      (s.ledgerAt site num true = none → ∃ (f : _), exec (.send site w) s =
          .next ((((s.ran site { c with pc := nextPc c.pc, nSend := num + 1, fly := [f] }).setLedger
            ⟨site, num, true, .pending, no, []⟩).startSend site num la (c.gn (wf w 57 53)) (wf w 52 51) len (wb w 112) tg).1) ∧
        f.unit = .move ∧ f.mv = none ∧ f.ready = false ∧ f.sendNo = some no ∧ f.ctr = completion w) ∧
      (∀ e, s.ledgerAt site num true = some e → e.out = .delivered → ∃ (f : _), exec (.send site w) s =
          .next (s.ran site { c with pc := nextPc c.pc, nSend := num + 1, fly := [f] }) ∧
        f.unit = .move ∧ f.mv = none ∧ f.ready = true ∧ f.ctr = completion w)) ∧
    (s.quiet site w 0xA0 → 0 < s.toksFree cl → let tok := wf w 111 104; let n := wf w 103 88; let num := c.nTsig
      let goal := s.signalTarget cl (leNat (c.rdLm (0x3FC00 + 4 * tok) 4))
      ∃ f, f.unit = .move ∧ f.mv = none ∧ f.ready = true ∧ f.ctr = completion w ∧
        (tok = 0xFE → exec (.tsig site w) s = .next (s.ran site { c with pc := nextPc c.pc, speWait := c.speWait + n, fly := [f] })) ∧
        (tok = 0xFF ∨ (tok < 0xFE ∧ goal = none) → exec (.tsig site w) s =
          .next ((s.ran site { c with pc := nextPc c.pc, fly := [f] }).dropToken cl (some (site.val, c.pc)))) ∧
        (∀ i k, tok < 0xFE → goal = some (.core i k) → (s.groupOf cl).contains (clusterOf i) = true → exec (.tsig site w) s =
          .next ((s.ran site { c with pc := nextPc c.pc, fly := [f] }).modMesh fun m =>
            { m with toks := m.toks ++ [⟨site, .core i k, n, s.now, c.pc⟩] })) ∧
        (∀ t, tok < 0xFE → goal = some t → (∀ i k, t = .core i k → (s.groupOf cl).contains (clusterOf i) = false) →
          (s.ledgerAt site num false = none → exec (.tsig site w) s =
            .next (((s.ran site { c with pc := nextPc c.pc, nTsig := num + 1, fly := [f] }).setLedger
              ⟨site, num, false, .delivered, 0, []⟩).modMesh fun m => { m with toks := m.toks ++ [⟨site, t, n, s.now, c.pc⟩] })) ∧
          ((s.ledgerAt site num false).isSome → exec (.tsig site w) s =
            .next (s.ran site { c with pc := nextPc c.pc, nTsig := num + 1, fly := [f] })))))

/-- A WLD whose operands R104 accepts is queued with its tile. When its last column lands, the shadow planes, if
free, take the tile with the residue column and row of its elements. WSWP, after a WLD since the launch, is
queued; once every earlier MM has entered it exchanges the planes, the shadow planes are free, and the cycles
waited are counted. The next state is given whole. (R55, R67, R68, R81, R90, R104) -/
def Obligations.WeightInstructions : Prop :=
  ∀ (s : State) (site : Fin 672) (w : IWord), let c := s.core site
    (∀ o, s.quiet site w 0x30 → wldOps w c = .inr o → ∃ (f : _), exec (.wld site w) s =
        .next { s.ran site { c with pc := nextPc c.pc, wldEver := true, fly := [f] } with free := s.free + 2 * o.kblk } ∧
      f.unit = .weight ∧ f.ready = false ∧ f.wop = some (.load (c.tile o s.free)) ∧ f.ctr = completion w) ∧
    (s.quiet site w 0x31 → c.wldEver = true → ∃ (f : _), exec (.wswp site w) s =
        .next (s.ran site { c with pc := nextPc c.pc, wswpEver := true, fly := [f] }) ∧
      f.unit = .weight ∧ f.ready = false ∧ f.wop = some .swap ∧ f.ctr = completion w) ∧
    (∀ i p, c.nextWop = some (i, .load p) → c.shdFull = false →
      exec (.weightLoadComplete site) s = .next (s.setCore site
        { c with shd := p.filled, shdFull := true, fly := c.fly.modify i fun f => { f with wop := none, ready := true } }) ∧
      ∀ k, k < 32 * p.kblk → p.filled.rho[k]? = some (((p.columns.map fun bs => (bs.flatMap DBlk.residues).getD k 0).sum) % 8191)) ∧
    (∀ i waited, c.nextWop = some (i, .swap) → ((c.fly.take i).all fun f => f.unit != .array || f.entered) = true →
      exec (.planeSwap site waited) s = .next ((s.setCore site
        { c with act := c.shd, shd := c.act, shdFull := false, fly := c.fly.modify i fun f => { f with wop := none, ready := true } }).addF R.CORE.LOAD_WAIT_CYC.CYCLES site waited))

/-- An MM whose operands pass the checks of R105 and R106 and that finds its long slots, with no injection armed and
no replay under way, issues at an idle site with the pass's effect on the core's storage and its events.
MM_ENTRY_SIGNAL marks the oldest MM entered and raises its entry counter. INSTRUCTION_COMPLETE removes the
oldest ready instruction of a unit and raises its counter below 65,535, where no move instruction waits and the
sequencer does not drain. (R88, R89, R105, R107) -/
def Obligations.PassAndCompletion : Prop :=
  ∀ (s : State) (site : Fin 672) (w : IWord), let c := s.core site
    (∀ o, s.quiet site w 0x40 → mmOps w c = .inr o →
      let z := ({ s.runAt site with c := c.advance } : Run).mm o (s.resCtl site)
      z.cap = false → s.getF R.CORE.RES_CTL.INJ_ARM site ≠ 1 → (s.cluster (clusterOf site)).recov = none →
      ∃ (f : _), exec (.mm site w) s = .next (s.queued site { z.c with fly := z.c.fly ++ [f] } z.fr z.ev) ∧
        f.unit = .array ∧ f.ctr = completion w ∧ f.ent = o.ent ∧ f.entered = false) ∧
    (∀ i f, c.fly.zipIdx.find? (fun p => p.1.unit == .array && !p.1.entered) = some (f, i) →
      ((c.fly.take i).any fun g => g.wop == some .swap) = false →
      let s1 := s.setCore site { c with fly := c.fly.modify i fun g => { g with entered := true } }
      (f.ent = none → exec (.mmEntrySignal site) s = .next s1) ∧
      (∀ u, f.ent = some u → c.ctr u < 65535 → exec (.mmEntrySignal site) s = .next (s.setCore site
        (({ c with fly := c.fly.modify i fun g => { g with entered := true } } : CoreSite).setCtr u (c.ctr u + 1))))) ∧
    (∀ u i f, c.fly.zipIdx.find? (fun p => p.1.unit == u) = some (f, i) → c.canComplete i f = true →
      ((c.fly.eraseIdx i).all fun g => g.mv.isNone) = true → c.drain = .none →
      (f.ctr = none → exec (.instructionComplete site u) s = .next (s.setCore site { c with fly := c.fly.eraseIdx i })) ∧
      (∀ k, f.ctr = some k → c.ctr k < 65535 → exec (.instructionComplete site u) s = .next (s.setCore site
        (({ c with fly := c.fly.eraseIdx i } : CoreSite).setCtr k (c.ctr k + 1)))))

/-- ACCCLR zeroes its slots and leaves every other byte. ACCPART writes the partials, or cells, of its slots, and
keeps them unless REL = 1. ACCRND without an epilogue, and ACCRND and ACCMRG of every form whose operands pass
the checks and whose slots find long slots, and CHFIN whose descriptor, scales and ranges R141 accepts, issue
with their effect on the core's storage and their events. CHSET loads a descriptor that R119 accepts. (R46, R85,
R109, R110, R119, R141) -/
def Obligations.AccumulatorInstructions : Prop :=
  ∀ (s : State) (site : Fin 672) (w : IWord), let c := s.core site; let n := wf w 70 59 + 1; let lo := 16 * wf w 87 71
    (s.quiet site w 0x53 → wrOk lo (16 * n) = true → ∃ y : CoreSite, exec (.accclr site w) s = .next (s.ran site y) ∧
      y = { c with lm := y.lm, longs := y.longs, slotArr := y.slotArr, pc := nextPc c.pc, fly := y.fly } ∧
      (∀ i, i < 16 * n → Tab.get 0 y.lm (lo + i) = 0) ∧ (∀ b, ¬ (lo ≤ b ∧ b < lo + 16 * n) → Tab.get 0 y.lm b = Tab.get 0 c.lm b)) ∧
    (s.quiet site w 0x51 → wrOk lo (16 * n) = true →
      let bs := partBytes (wb w 112) ((s.runAt site).readSlots lo n).2
      wrOk (c.la (wf w 111 88)) bs.length = true → ∃ y, coreAccpart (s.accOff site) w (s.runAt site) = .ok y ∧
        exec (.accpart site w) s = .next (s.queued site y.c y.fr y.ev) ∧
        (wb w 113 = false → y.c.rdLm (c.la (wf w 111 88)) bs.length = bs ∧ y.c.longs = c.longs)) ∧
    (s.quiet site w 0x52 → namedDesc c (wf w 58 55) = some none → (c.scale (wf w 54 50)).isSome → (c.scale (wf w 49 45)).isSome →
      wrOk lo (16 * n) = true → rngsWr ((accRows n).map fun r => (⟨c.la (wf w 111 88) + r.1 * outPitch none 128, outSize none r.2⟩ : Rng)) = true →
      ∃ y, coreAccrnd (s.accOff site) w (s.runAt site) = .ok y) ∧
    (∀ y, s.quiet site w 0x52 → coreAccrnd (s.accOff site) w (s.runAt site) = .ok y →
      exec (.accrnd site w) s = .next (s.queued site y.c y.fr y.ev)) ∧
    (s.quiet site w 0x50 → wb w 112 = true → rdOk (c.la (wf w 111 88)) (96 * n) = true → wrOk lo (16 * n) = true →
      let z := ({ s.runAt site with c := c.advance } : Run).mergeAll (wb w 114) lo (c.partials (c.la (wf w 111 88)) (List.replicate n 96))
      z.cap = false → ∃ (f : _), exec (.accmrg site w) s = .next (s.queued site { z.c with fly := z.c.fly ++ [f] } z.fr z.ev) ∧
        f.unit = .accum ∧ f.ctr = completion w) ∧
    (∀ y, s.quiet site w 0x50 → coreAccmrg w (s.runAt site) = .ok y → exec (.accmrg site w) s = .next (s.queued site y.c y.fr y.ev)) ∧
    (s.quiet site w 0x60 → let a := c.la (wf w 111 88); let m := 16 * (bits (leNat (c.rdLm a 16)) 11 8 + 1)
      a % 16 = 0 → rdOk a 16 = true → rdOk a m = true → descOk (leNat (c.rdLm a m)) = true → ∃ d,
        exec (.chset site w) s = .next (s.ran site { c with d := d, pc := nextPc c.pc }) ∧
        ∀ r, ({ c with d := d } : CoreSite).desc r = if r = wf w 87 85 then leNat (c.rdLm a m) else c.desc r) ∧
    (s.quiet site w 0x61 → let d := c.desc (wf w 43 41); let g := wf w 53 44 + 1; let f := OFmt.ofCode (bits d 27 24)
      dKind d = 3 → (c.scale (bits d 54 50)).isSome → (bits d 27 24 < 13 → (c.scale (bits d 49 45)).isSome) →
      rngsRd ((List.range g).map fun r => (⟨c.la (bits d 185 162) + 8 * r, 8⟩ : Rng)) = true →
      rngsWr ((List.range g).map fun r => (⟨c.la (wf w 111 88) + r * f.pitch 128, f.size 128⟩ : Rng)) = true →
      rngsWr ((List.range g).flatMap fun r => [(⟨16 * (wf w 87 71 + 128 * r), 2048⟩ : Rng), ⟨16 * (wf w 70 54 + r), 16⟩]) = true →
      ∃ y, coreChfin (s.accOff site) w (s.runAt site) = .ok y ∧ exec (.chfin site w) s = .next (s.queued site y.c y.fr y.ev))

/-- Every form whose format, rounding and function codes are defined, and whose operands lie as R85 asks, issues,
and of the core's storage changes only its destination: VOP, VFN and VCVT write into V[VD], element by element,
the rounded function of the operands' elements; VRED adds the terms of each lane group to its lane; VACC writes
the lanes' cells (PART = 1) or their roundings, and clears the lanes unless KEEP = 1. QNT quantises its source.
SMLD leaves the table that R160 takes from the list, and SMCLR an empty table. (R79, R85, R111, R113, R114,
R160) -/
def Obligations.VectorInstructions : Prop :=
  ∀ (s : State) (site : Fin 672) (w : IWord), let c := s.core site
    (∀ f m, s.quiet site w 0x70 → IFmt.ofCode (wf w 82 81) = some f → Rnd.ofCode (wf w 80 79) = some m → wf w 87 83 ≤ 9 →
      ∃ y : Run, exec (.vop site w) s = .next (s.queued site y.c s.free y.ev) ∧
        y.c = { c with v := y.c.v, pc := nextPc c.pc, fly := y.c.fly } ∧ (∀ r, r ≠ wf w 111 106 → y.c.vreg r = c.vreg r) ∧
        let el := fun (r : Nat) => (vecElems f (c.vreg r)).map (ieeeDecode f ·)
        let d := vecDraw c m (wf w 78 74) (wf w 73 69) (wf w 68 64)
        vecElems f (y.c.vreg (wf w 111 106)) = (el (wf w 105 100)).mapIdx fun i a => (vecRound ((vopFn' (wf w 87 83) a
          ((el (wf w 99 94)).getD i .nan) ((el (wf w 93 88)).getD i .nan)).getD .nan) f m (d.bits16 i)).code % 256 ^ f.bytes) ∧
    (∀ f, s.quiet site w 0x71 → IFmt.ofCode (wf w 97 96) = some f →
      ∃ y : Run, exec (.vfn site w) s = .next (s.queued site y.c s.free y.ev) ∧
        y.c = { c with v := y.c.v, pc := nextPc c.pc, fly := y.c.fly } ∧ (∀ r, r ≠ wf w 111 106 → y.c.vreg r = c.vreg r) ∧
        vecElems f (y.c.vreg (wf w 111 106)) =
          (vecElems f (c.vreg (wf w 105 100))).map fun b => (vfnApply (VFun.ofCode (wf w 99 98)) f b).code % 256 ^ f.bytes) ∧
    (∀ f, s.quiet site w 0x72 → IFmt.ofCode (wf w 91 90) = some f → wf w 93 92 ≤ 2 →
      ∃ y : Run, exec (.vred site w) s = .next (s.queued site y.c s.free y.ev) ∧
        y.c = { c with lanes := y.c.lanes, pc := nextPc c.pc, fly := y.c.fly } ∧
        let el := fun (r : Nat) => (vecElems f (c.vreg r)).map (ieeeDecode f ·)
        let as := el (wf w 105 100)
        let ts := if wf w 93 92 = 0 then as else if wf w 93 92 = 1 then as.map fun a => a.mul a else List.zipWith Sys2Proof.Machine.Num.mul as (el (wf w 99 94))
        ∀ g, g < 8 → y.c.lane g = (laneElems f g ts).foldl Acc.addNum (if wb w 113 then {} else c.lane g)) ∧
    (∀ m, s.quiet site w 0x73 → Rnd.ofCode (wf w 81 80) = some m →
      let la := c.la (wf w 105 82); let accs := (List.range 8).map c.lane
      (wb w 113 = true → la % 16 = 0 → wrOk la 768 = true →
        ∃ y : Run, exec (.vacc site w) s = .next (s.queued site y.c s.free y.ev) ∧
          y.c = { c with lm := y.c.lm, lanes := (if wb w 114 then c.lanes else []), pc := nextPc c.pc, fly := y.c.fly } ∧
          y.c.rdLm la 768 = accs.flatMap Acc.toCell ∧ ∀ b, ¬ (la ≤ b ∧ b < la + 768) → Tab.get 0 y.c.lm b = Tab.get 0 c.lm b) ∧
      (wb w 113 = false → ∃ y : Run, exec (.vacc site w) s = .next (s.queued site y.c s.free y.ev) ∧
          y.c = { c with v := y.c.v, lanes := (if wb w 114 then c.lanes else []), pc := nextPc c.pc, fly := y.c.fly } ∧
          (vecElems .fp32 (y.c.vreg (wf w 111 106))).take 8 = accs.mapIdx fun i a =>
            (roundNum a.num .fp32 m ((vecDraw c m (wf w 79 75) (wf w 74 70) (wf w 69 65)).bits16 i)).code % 256 ^ 4)) ∧
    (∀ fr tf m, s.quiet site w 0x74 → IFmt.ofCode (wf w 99 98) = some fr → IFmt.ofCode (wf w 97 96) = some tf →
      Rnd.ofCode (wf w 95 94) = some m → ∃ y : Run, exec (.vcvt site w) s = .next (s.queued site y.c s.free y.ev) ∧
        y.c = { c with v := y.c.v, pc := nextPc c.pc, fly := y.c.fly } ∧ (∀ r, r ≠ wf w 111 106 → y.c.vreg r = c.vreg r) ∧
        (vecElems tf (y.c.vreg (wf w 111 106))).take (512 / max fr.bytes tf.bytes) =
          ((vecElems fr (c.vreg (wf w 105 100))).take (512 / max fr.bytes tf.bytes)).mapIdx fun i b =>
            (vecRound (ieeeDecode fr b) tf m ((vecDraw c m (wf w 93 89) (wf w 88 84) (wf w 83 79)).bits16 i)).code % 256 ^ tf.bytes) ∧
    (∀ q, s.quiet site w 0x80 → qntOps w c = .inr q → let z := ({ s.runAt site with c := c.advance } : Run).qnt q
      ∃ (f : _), exec (.qnt site w) s = .next (s.queued site { z.c with fly := z.c.fly ++ [f] } z.fr z.ev) ∧
        f.unit = .quant ∧ f.ready = true ∧ f.ctr = completion w) ∧
    (s.quiet site w 0x90 → let la := c.la (wf w 111 88); let n := wf w 87 78
      la % 2 = 0 → rdOk la (2 * n) = true → ∃ y : Run, exec (.smld site w) s = .next (s.queued site y.c s.free y.ev) ∧
        y.c = { c with mt := (matchLoad (wf w 77 62) (c.words16 la n)).tab, mtCount := n, pc := nextPc c.pc, fly := y.c.fly }) ∧
    (s.quiet site w 0x91 → ∃ (f : _), exec (.smclr site w) s = .next (s.ran site { c with pc := nextPc c.pc, mt := [], fly := [f] }) ∧
      f.unit = .matcher ∧ f.ready = true ∧ f.ctr = completion w)

/-- SPARSE_COMMAND_START at a site that is on, with a unit of token 0xFE and no command under way: the block at
CMD_LA + 64·NEXT is read, NEXT moves on and BUSY is set; with an OP of 1 to 4 the command is under way, with any
other it has ended with STATUS 0x03 and a record of class 0x4, code 0x06; a ring outside local data space or
misaligned gives a record of class 0x4, code 0x02 and a unit of token 0xFF. In every other case nothing happens.
SPARSE_COMMAND_COMPLETE of a command that has ended writes STATUS, and its results unless STATUS is 0x02 or
0x03, makes free what program accesses left undefined (log entry 6), clears BUSY and adds 1 to token 0xFF; with
none ended it does nothing. (R154, R156, R171) -/
def Obligations.SparseCommandRing : Prop :=
  ∀ (s : State) (site : Fin 672), let c := s.core site; let la := s.getF R.CORE.SPE_CTL.CMD_LA site
    let i := s.getF R.CORE.SPE_CTL.NEXT site; let b := leNat (c.rdLm (la + 64 * i) 64)
    (0 < c.speWait → c.spe = none → s.regionOn (clusterOf site) = true →
      (la % 64 = 0 → 0x40000 ≤ la → la + 1024 ≤ 0x200000 → ∃ (t : State), exec (.sparseCommandStart site) s = .next t ∧
        t = { s with cores := t.cores, regs := t.regs, errs := t.errs } ∧ s.coresBut t [site] ∧
        t.getF R.CORE.SPE_CTL.NEXT site = (i + 1) % 16 ∧ t.getF R.CORE.SPE_CTL.BUSY site = 1 ∧
        s.regsBut t [R.CORE.SPE_CTL.NEXT.key site, R.CORE.SPE_CTL.BUSY.key site] ∧
        ∃ d : SpeCmd, t.core site = { c with speWait := c.speWait - 1, spe := some d } ∧
          d.idx = i ∧ d.block = b ∧ d.addr = la + 64 * i ∧
          (1 ≤ bits b 7 0 ∧ bits b 7 0 ≤ 4 → t.errs = s.errs ∧ d.done = false) ∧
          (¬ (1 ≤ bits b 7 0 ∧ bits b 7 0 ≤ 4) → d.done = true ∧ d.status = 3 ∧
            ∃ r, t.errs = { s.errs with reports := s.errs.reports ++ [r] } ∧ r.cls = 4 ∧ r.code = 6)) ∧
      (la % 64 ≠ 0 ∨ la < 0x40000 ∨ 0x200000 < la + 1024 → exec (.sparseCommandStart site) s = .next
        (((s.setCore site { c with speWait := c.speWait - 1 }).reportSite site 4 2 0x3FFF c.pc 0 0 0).deliver site site 0xFF 1))) ∧
    (c.speWait = 0 ∨ c.spe.isSome = true ∨ s.regionOn (clusterOf site) = false → exec (.sparseCommandStart site) s = .next s) ∧
    (∀ d, c.spe = some d → d.done = true → ∃ (x : _), exec (.sparseCommandComplete site) s = .next
        ((((s.setCore site x).freeHurt site d).setF R.CORE.SPE_CTL.BUSY site 0).deliver site site 0xFF 1) ∧
      x = { c with spe := none, lm := x.lm } ∧ Tab.get 0 x.lm (d.addr + 1) = BitVec.ofNat 8 d.status ∧
      (d.status ≠ 2 → d.status ≠ 3 → x.rdLm (d.addr + 4) 8 = natLE 4 d.r0 ++ natLE 4 d.r1 ∧
        ∀ b, b ≠ d.addr + 1 → ¬ (d.addr + 4 ≤ b ∧ b < d.addr + 12) → Tab.get 0 x.lm b = Tab.get 0 c.lm b) ∧
      (d.status = 2 ∨ d.status = 3 → ∀ b, b ≠ d.addr + 1 → Tab.get 0 x.lm b = Tab.get 0 c.lm b)) ∧
    ((∀ d, c.spe = some d → d.done = false) → exec (.sparseCommandComplete site) s = .next s)

/-- A PACK whose format, positions, alignment and reads are in order and whose destination may be written: of the
listed in-range positions, each by its first listing, those whose block is not absent in every row are present;
the row takes the smallest of the three encodings for that many; RESULT0 is its size, RESULT1 the number present
and STATUS 0. Into local space its header stands at DST and every byte beside the row is unchanged; into device
memory no byte of local space changes. Only the site, its two drop counts, its cluster's contributions and, for
device memory, the destination change. (R147, R148, R149, R151, R152, R157, R159) -/
def Obligations.PackCommand : Prop :=
  ∀ (s : State) (site : Fin 672) (c : SpeCmd) (f : EFmt), let lm := s.core site; let loc := flag c.block 180
    let dst := if loc then c.f 151 128 else c.f 179 128; let src := c.f 215 192; let plist := c.f 239 216; let gb := c.f 245 244 + 1; let n := (c.f 255 246 + 1) * gb
    let npos := c.f 271 256; let rows := c.f 303 288 + 1; let pitch := rowPitch f gb
    let off := fun (i : Nat) => leNat (lm.rdLm (plist + 2 * i) 2)
    let blk := fun (i rho : Nat) => rowBlock f gb (i % gb) (lm.rdLm (src + (i / gb * rows + rho) * pitch) pitch)
    let k := (List.range npos).countP fun p => ((List.range n).find? fun i => off i == p).any fun i =>
      (List.range rows).any fun rho => !absentRaw f (blk i rho)
    let h0 : THdr := { enc := 0, efmt := c.f 243 240, act := true, sq := false, nblk := 1, npos := npos, npres := k, base := c.f 287 272, rows := rows, size := 0, rsv := false }
    let size := h0.sizeIn h0.choose
    s.speOf site 1 = some c → EFmt.ofCode (c.f 243 240) = some f → 0 < npos → c.f 287 272 + npos ≤ 65535 →
    src % 8 = 0 → dst % 16 = 0 → rdOk src ((c.f 255 246 + 1) * rows * pitch) = true → rdOk plist (2 * n) = true →
    s.speMay site dst size loc = true → ∃ (t : State), exec (.pack site) s = .next t ∧ s.coresBut t [site] ∧ s.tallied t (clusterOf site) ∧
      t.core site = { s.core site with lm := (t.core site).lm, spe := some { c with status := 0, r0 := size % 2 ^ 32, r1 := k % 2 ^ 32, done := true } } ∧
      h0.sizeIn h0.choose ≤ h0.sizeIn 0 ∧ h0.sizeIn h0.choose ≤ h0.sizeIn 1 ∧ h0.sizeIn h0.choose ≤ h0.sizeIn 2 ∧
      (loc = true → t = { s with cores := t.cores, regs := t.regs, clusters := t.clusters } ∧
        s.regsBut t [R.CORE.SPARSE_DROPS.OUT_OF_RANGE.key site, R.CORE.SPARSE_DROPS.DUPLICATE.key site] ∧
        (t.core site).rdLm dst 32 = ({ h0 with enc := h0.choose, size := size } : THdr).toBytes ∧
        ∀ b, ¬ (dst ≤ b ∧ b < dst + size) → Tab.get 0 (t.core site).lm b = Tab.get 0 lm.lm b) ∧
      (loc = false → t = { s with cores := t.cores, regs := t.regs, clusters := t.clusters, mem := t.mem, deck := t.deck, poison := t.poison, errs := t.errs } ∧
        (t.core site).lm = lm.lm ∧ s.regsBut t [R.CORE.SPARSE_DROPS.OUT_OF_RANGE.key site,
          R.CORE.SPARSE_DROPS.DUPLICATE.key site, R.PCH.T2_EVENTS.LINK_DOWN_DROPS.key 0])

/-- An UNPACK of a tile row that R150 allows, in local space or in readable device memory free of poison: its stored
blocks, in body order, but for those out of range or repeated, which are counted. Of an activation row it takes
N from START on: the activation rows at DST hold them, zeros beyond; LIST gives each position, 0xFFFF beyond. Of
a weight row it takes, from START on, KBLK tiles that have a present block: their codes stand at DST and their
indices at SDST + 2048. RESULT0 is how many it took, RESULT1 where the next command starts. An activation row
whose header or map R150 does not allow is a row with no block: HDR_ERR is counted, LIST holds 0xFFFF and STATUS
is 0x01. (R149, R150, R158, R159, R164) -/
def Obligations.UnpackCommand : Prop :=
  ∀ (s : State) (site : Fin 672) (c : SpeCmd), let lm := s.core site; let loc := flag c.block 180
    let src := if loc then c.f 151 128 else c.f 179 128; let dst := c.f 215 192; let list := c.f 239 216; let n := c.f 249 240; let kb := c.f 253 250 + 1
    let start := c.f 271 256; let h := THdr.ofBytes (s.speBytes site src 32 loc); let f := h.fmt; let p := rowPitch f n; let bs := s.speBytes site src h.size loc
    let kod := keepBlocks h.ng 0 [] (h.stored bs)
    s.speOf site 2 = some c → (loc = true → rdOk src 32 = true ∧ (h.ok = true → rdOk src h.size = true)) →
    (loc = false → s.deck.gather = [] ∧ ∀ k j, k + j ≤ max 32 h.size → s.fenceOk (clusterOf site) false (src + k) j = true ∧ s.poisonIn (src + k) j = []) →
    (h.act = true → 0 < n → wrOk dst (h.rows * p) = true → wrOk list (2 * n) = true → dst + h.rows * p ≤ list ∨ list + 2 * n ≤ dst →
      (h.ok = true → h.mapOk bs = true → ∃ (t : State), exec (.unpack site) s = .next t ∧
        t = { s with cores := t.cores, regs := t.regs, clusters := t.clusters } ∧ s.coresBut t [site] ∧ s.tallied t (clusterOf site) ∧
        s.regsBut t [R.CORE.SPARSE_DROPS.OUT_OF_RANGE.key site, R.CORE.SPARSE_DROPS.DUPLICATE.key site] ∧
        t.core site = { lm with lm := (t.core site).lm, spe := some { c with status := 0, r0 := (min n (kod.1.length - start)) % 2 ^ 32, r1 := (min kod.1.length (start + n)) % 2 ^ 32, done := true } } ∧
        (∀ e, e < n → leNat ((t.core site).rdLm (list + 2 * e) 2) =
          match kod.1[start + e]? with | some k => (h.base + k.1) % 65536 | none => 0xFFFF) ∧
        (∀ e rho, e < n → rho < h.rows → rowBlock f n e ((t.core site).rdLm (dst + rho * p) p) =
          match kod.1[start + e]? with
          | some k => let nb := if h.enc = 0 then h.ng else h.npres
              rowBlock f nb k.2 ((bs.drop (32 + mapBytes h.enc h.ng h.npres + rho * rowPitch f nb)).take (rowPitch f nb))
          | none => (List.replicate f.blockBytes 0, 0)) ∧
        (∀ b, ¬ (dst ≤ b ∧ b < dst + h.rows * p) → ¬ (list ≤ b ∧ b < list + 2 * n) → Tab.get 0 (t.core site).lm b = Tab.get 0 lm.lm b) ∧
        (0 < kod.2.1 → t.getF R.CORE.SPARSE_DROPS.OUT_OF_RANGE site = min 255 (s.getF R.CORE.SPARSE_DROPS.OUT_OF_RANGE site + kod.2.1)) ∧
        (0 < kod.2.2 → t.getF R.CORE.SPARSE_DROPS.DUPLICATE site = min 255 (s.getF R.CORE.SPARSE_DROPS.DUPLICATE site + kod.2.2))) ∧
      (h.ok = false ∨ h.mapOk bs = false → ∃ (t : State), exec (.unpack site) s = .next t ∧ (t.core site).spe = some { c with status := 1, r0 := 0, r1 := 0, done := true } ∧
        t.getF R.CORE.SPARSE_DROPS.HDR_ERR site = min 255 (s.getF R.CORE.SPARSE_DROPS.HDR_ERR site + 1) ∧
        ∀ e, e < n → leNat ((t.core site).rdLm (list + 2 * e) 2) = 0xFFFF)) ∧
    (h.act = false → h.ok = true → h.mapOk bs = true → let m := h.nblk * kb; let cb := f.blockBytes
      stagingBase ≤ dst → dst + 32 * m * cb ≤ 0x250000 → stagingBase ≤ list → list + 32 * m ≤ 0x250000 → list + 2048 + 2 * kb ≤ 0x250000 →
      dst + 32 * m * cb ≤ list ∨ list + 2048 + 2 * kb ≤ dst →
      let kept := kod.1.filter fun k => h.present bs k.2
      let live := (List.range h.npos).filter fun t => decide (start ≤ t) && kept.any fun k => k.1 / h.nblk == t
      ∃ (t : State), exec (.unpack site) s = .next t ∧ t = { s with cores := t.cores, regs := t.regs, clusters := t.clusters } ∧
        s.coresBut t [site] ∧ s.tallied t (clusterOf site) ∧
        s.regsBut t [R.CORE.SPARSE_DROPS.OUT_OF_RANGE.key site, R.CORE.SPARSE_DROPS.DUPLICATE.key site] ∧
        t.core site = { lm with lm := (t.core site).lm, spe := some { c with status := 0, r0 := (min kb live.length) % 2 ^ 32, r1 := ((live[kb]?).getD h.npos) % 2 ^ 32, done := true } } ∧
        (∀ j, j < kb → leNat ((t.core site).rdLm (list + 2048 + 2 * j) 2) = match live[j]? with | some i => (h.base + i) % 65536 | none => 0xFFFF) ∧
        (∀ q j, q < 32 * h.nblk → j < kb → (t.core site).rdLm (dst + (q * kb + j) * cb) cb =
          match (live[j]?).bind fun i => kept.find? fun k => k.1 == i * h.nblk + q / 32 with
          | some k => ((h.weightRaw bs k.2).getD (q % 32) ([], 0)).1
          | none => List.replicate cb 0))

/-- PREDICT whose operands are in order: a block is active when some row's logit is NaN or at least its threshold;
the others are skipped. RESULT0 and RESULT1 count the two, SKIPPED adds the second, the two lists hold them in
rising order where outputs do not overlap, and the core's local space changes only in the two lists and the row
bounds. SCOUT judges NENT entries: in counted mode it writes no local byte and adds the blocks that may be
active to PROBABLE_MISS; else it lists them, adds them to MAKEUP and gives their number as RESULT0. RESULT1, and
RESULT0 in counted mode, are free (log entry 6). (R166, R167, R168, R169) -/
def Obligations.ForecastCommands : Prop :=
  ∀ (s : State) (site : Fin 672) (c : SpeCmd), let lm := s.core site
    (∀ f, let log := c.f 151 128; let theta := c.f 175 152; let act := c.f 199 176; let skip := c.f 223 200
      let norm := c.f 295 272; let nb := c.f 305 296 + 1; let kb := c.f 315 306 + 1; let rows := c.f 335 320 + 1
      let on := fun (n : Nat) => (List.range rows).any fun rho =>
        let z := ieeeDecode .fp32 (tileMajor lm log rows rho n); let th := ieeeDecode .fp32 (leNat (lm.rdLm (theta + 4 * n) 4))
        z == .nan || (th != .nan && !(z.lt th))
      let nOn := (List.range nb).countP on
      s.speOf site 3 = some c → EFmt.ofCode (c.f 319 316) = some f → scaleOk (c.f 367 336) = true → scaleOk (c.f 399 368) = true →
      rdOk log (ceilDiv nb 128 * rows * 512) = true → rdOk theta (4 * nb) = true → rdOk (c.f 247 224) (rows * rowPitch f kb) = true →
      rdOk (c.f 271 248) (rows * rowPitch .int2 kb) = true → wrOk norm (8 * rows) = true → wrOk act (2 * nb) = true → wrOk skip (2 * nb) = true →
      ∃ (t : State), exec (.predict site) s = .next t ∧ t = { s with cores := t.cores, regs := t.regs, clusters := t.clusters } ∧
      s.coresBut t [site] ∧ s.tallied t (clusterOf site) ∧ s.regsBut t [R.CORE.FORECAST_STATS.SKIPPED.key site] ∧
      t.core site = { lm with lm := (t.core site).lm, spe := some { c with status := 0, r0 := nOn, r1 := nb - nOn, done := true } } ∧
      t.getF R.CORE.FORECAST_STATS.SKIPPED site = min (2 ^ 32 - 1) (s.getF R.CORE.FORECAST_STATS.SKIPPED site + (nb - nOn)) ∧
      (act + 2 * nb ≤ skip ∨ skip + 2 * nb ≤ act → (act + 2 * nb ≤ norm ∨ norm + 8 * rows ≤ act) → (skip + 2 * nb ≤ norm ∨ norm + 8 * rows ≤ skip) →
        (t.core site).rdLm act (2 * nOn) = ((List.range nb).filter on).flatMap (natLE 2) ∧
        (t.core site).rdLm skip (2 * (nb - nOn)) = ((List.range nb).filter fun n => !on n).flatMap (natLE 2)) ∧
      ∀ b, ¬ (act ≤ b ∧ b < act + 2 * nOn) → ¬ (skip ≤ b ∧ b < skip + 2 * (nb - nOn)) → ¬ (norm ≤ b ∧ b < norm + 8 * rows) →
        Tab.get 0 (t.core site).lm b = Tab.get 0 lm.lm b) ∧
    (let sc := c.f 151 128; let skip := c.f 175 152; let mk := c.f 199 176; let norm := c.f 223 200; let wl1 := c.f 247 224
      let delta := c.f 271 248; let first := c.f 281 272; let nent := c.f 291 282 + 1; let rows := c.f 307 292 + 1
      let ent := fun (i : Nat) => leNat (lm.rdLm (skip + 2 * (first + i)) 2)
      let w4 := fun (a : Nat) => ieeeDecode .fp32 (leNat (lm.rdLm a 4))
      let may := fun (i : Nat) => (List.range rows).any fun rho => (List.range 32).any fun j =>
        possiblyActive (ieeeDecode .fp32 (tileMajor lm sc rows rho (i / 4 * 128 + 32 * (i % 4) + j)))
          (w4 (norm + 8 * rho)) (w4 (norm + 8 * rho + 4)) (w4 (wl1 + 4 * (32 * ent i + j))) (w4 (delta + 4 * (32 * ent i + j)))
          (ieeeDecode .fp32 (c.f 351 320))
      let m := (List.range nent).countP may
      s.speOf site 4 = some c → rdOk sc (ceilDiv nent 4 * rows * 512) = true → rdOk skip (2 * (first + nent)) = true →
      rdOk norm (8 * rows) = true → (∀ i, i < nent → rdOk (wl1 + 128 * ent i) 128 = true ∧ rdOk (delta + 128 * ent i) 128 = true) →
      (flag c.block 308 = true → ∃ t r0 r1, exec (.scout site) s = .next t ∧
        t = { s with cores := t.cores, regs := t.regs, clusters := t.clusters, free := t.free } ∧ s.coresBut t [site] ∧
        t.core site = { lm with spe := some { c with status := 0, r0 := r0, r1 := r1, done := true } } ∧
        s.regsBut t [R.CORE.FORECAST_STATS.PROBABLE_MISS.key site] ∧ t.getF R.CORE.FORECAST_STATS.PROBABLE_MISS site =
          min 65535 (s.getF R.CORE.FORECAST_STATS.PROBABLE_MISS site + m)) ∧
      (flag c.block 308 = false → wrOk mk (2 * nent) = true → ∃ t r1, exec (.scout site) s = .next t ∧
        t = { s with cores := t.cores, regs := t.regs, clusters := t.clusters, free := t.free } ∧ s.coresBut t [site] ∧
        t.core site = { lm with lm := (t.core site).lm, spe := some { c with status := 0, r0 := m, r1 := r1, done := true } } ∧
        (t.core site).rdLm mk (2 * m) = (((List.range nent).filter may).map ent).flatMap (natLE 2) ∧
        (∀ b, ¬ (mk ≤ b ∧ b < mk + 2 * m) → Tab.get 0 (t.core site).lm b = Tab.get 0 lm.lm b) ∧
        s.regsBut t [R.CORE.FORECAST_STATS.MAKEUP.key site] ∧ t.getF R.CORE.FORECAST_STATS.MAKEUP site =
          min 65535 (s.getF R.CORE.FORECAST_STATS.MAKEUP site + m)))

/-- Spread address a holds line L = a >> 9 at byte a & 0x1FF, in slice L mod 24 as slice line L div 24; offset o of
slice n in the home view is slice line o >> 9 at byte o & 0x1FF, spread line 24j + n; slice line j of every
slice is stripe j of 12 KiB, of 1,310,720 stripes. A read within a line gives the same bytes through either
view. (R193) -/
def Obligations.AddressViews : Prop :=
  ∀ s : State,
    (∀ a, a < spreadSize → s.place a = some (.chip a) ∧ sliceOf a = (a >>> 9) % 24 ∧ sliceLine a = (a >>> 9) / 24 ∧
      sliceLine a = a / 12288 ∧ sliceLine a < 1310720 ∧ a = (24 * sliceLine a + sliceOf a) * 512 + a % 512) ∧
    (∀ n o, n < 24 → o < 640 * 2 ^ 20 → ∃ b, s.place (homeBase + n * 2 ^ 30 + o) = some (.chip b) ∧ b < spreadSize ∧
      b >>> 9 = 24 * (o >>> 9) + n ∧ b % 512 = o % 512 ∧ sliceOf b = n ∧ sliceLine b = o >>> 9 ∧
      ∀ m, o % 512 + m ≤ 512 → s.memRead (homeBase + n * 2 ^ 30 + o) m = s.memRead b m)

/-- Bytes written within one line of mapped memory whose tier-2 link, if any, is up: every later read of that range
returns them, through either view, and every other byte reads as before (R200). Beside memory only gather
buffers, poison and the list of met poison change. (R192, R193, R199, R200, R211) -/
def Obligations.WriteThenRead : Prop :=
  ∀ (s : State) (port a : Nat) (bs : List Byte), (s.place a).isSome = true → s.t2Down a = false → 0 < bs.length →
    a % 512 + bs.length ≤ 512 → let t := s.memWrite port a bs
    t = { s with mem := t.mem, deck := t.deck, poison := t.poison, errs := t.errs } ∧ t.memRead a bs.length = bs ∧
    s.memBut t (s.canon a) bs.length ∧ t.errs = { s.errs with met := t.errs.met } ∧
    (∀ x n, (∀ i, i < n → s.canon (x + i) < s.canon a ∨ s.canon a + bs.length ≤ s.canon (x + i)) → t.memRead x n = s.memRead x n) ∧
    (∀ k, Tab.get false t.poison k = true → Tab.get false s.poison k = true)

/-- DECK_LINE_OPERATION in its slot, on a slice that is on and a port that is free: a write sets the masked bytes of
the line, but for those that a higher port has written in the same cycle, and nothing else; a clean read returns
the line's bytes, with its gather entries written first, and changes no byte; outside the fences the operation
is refused whole, a read delivering zeros; else nothing happens. GATHER_BUFFER_TIMEOUT writes an entry not
merged for 32 deck cycles, GATHER_BUFFER_DRAIN every entry of the slice. ATOMIC_ADD on an aligned mapped word
sums modulo 2^64, and on an unmapped one is refused. DECK_SCRUB, enabled and due, goes one line on and counts a
pass after 1,311,744 lines. (R192, R195, R196, R199, R200, R201, R202, R213, R214, R216, R218) -/
def Obligations.DeckCommands : Prop :=
  ∀ (s : State) (slice : Fin 24) (port : Fin 8),
    (∀ (cl : Option (Fin 24)) (t0 : Nat) (line : Fin 1310720) (wr : Bool) (mask : BitVec 512) (data : List Byte) (err : MemErr),
      let a := (24 * line.val + slice.val) * 512
      let run := exec (.deckLineOperation cl t0 slice port line wr mask data err) s
      ((∀ c, cl = some c → (c.val + t0) % 24 = slice.val ∧ port.val < 5) → s.hosted 3 slice = true →
        s.deck.portFree t0 slice port = true →
        ((∀ c, cl = some c → s.fenceOk c wr a 512 = true) →
          (wr = true → ∃ t, run = .next t ∧ t = { s with mem := t.mem, deck := t.deck, poison := t.poison, errs := t.errs } ∧
            s.memBut t a 512 ∧ ∀ i, i < 512 → Tab.get 0 t.mem (a + i) =
              if mask.getLsbD i && !(s.deck.covered t0 slice port line).testBit i then data.getD i 0 else Tab.get 0 s.mem (a + i)) ∧
          (wr = false → (∀ x ∈ err.bad, x = 0) → s.poisonIn a 512 = [] → ∃ d, run = .next { s with deck := d } ∧
            d.out = s.memRead a 512 ∧ d.err = false ∧
            d.gather = s.deck.gather.filter fun e => !(e.slice == slice.val && e.line == line.val))) ∧
        (∀ c, cl = some c → s.fenceOk c wr a 512 = false → run = .next ((if wr then s else
          { s with deck := { s.deck with out := List.replicate 512 0, err := false } }).refuse c wr none))) ∧
      ((∃ c, cl = some c ∧ ¬ ((c.val + t0) % 24 = slice.val ∧ port.val < 5)) ∨ s.hosted 3 slice = false ∨
        s.deck.portFree t0 slice port = false → run = .next s)) ∧
    (∀ line e, s.deck.gather.find? (fun e => e.slice == slice.val && e.port == port.val && e.line == line) = some e →
      (h : line < 1310720) → e.since + 32 ≤ s.now → ∃ (t : State), exec (.gatherBufferTimeout slice port ⟨line, h⟩) s = .next t ∧
      t = { s with deck := { s.deck with gather := s.deck.gather.filter (· != e) }, poison := t.poison, errs := t.errs }) ∧
    (∃ (t : State), exec (.gatherBufferDrain slice) s = .next t ∧ t = 
      { s with deck := { s.deck with gather := s.deck.gather.filter fun e => e.slice != slice.val }, poison := t.poison, errs := t.errs }) ∧
    (∀ (a : Nat) (v : BitVec 64), a % 8 = 0 → s.memRange a 8 = true → s.t2Down a = false → ∃ (t : State), exec (.atomicAdd a v) s = .next t ∧
      t = { s with mem := t.mem, deck := t.deck, poison := t.poison, errs := t.errs } ∧
      leNat (t.memRead a 8) = (leNat (s.memRead a 8) + v.toNat) % 2 ^ 64 ∧ s.memBut t (s.canon a) 8) ∧
    (∀ (a : Nat) (v : BitVec 64), a % 8 = 0 → s.place a = none → exec (.atomicAdd a v) s = .next s.refuseUnmapped) ∧
    (∀ err : MemErr, s.getF R.DSL.SCRUB.EN slice ≠ 0 → s.hosted 3 slice = true → s.scrubDue slice = true → err.bad = [] →
      let at_ := Tab.get 0 s.deck.scrub slice.val
      ∃ (t : State), exec (.deckScrub slice err) s = .next t ∧ t = { s with deck := t.deck, regs := t.regs, poison := t.poison, errs := t.errs } ∧
        Tab.get 0 t.deck.scrub slice.val = (at_ + 1) % 1311744 ∧ t.getF R.DSL.SCRUB.PASSES slice =
          if at_ + 1 = 1311744 then min 65535 (s.getF R.DSL.SCRUB.PASSES slice + 1) else s.getF R.DSL.SCRUB.PASSES slice)

/-- An HBM address lies where R194 says. HBM_ACCESS within a frame of a stack that is on: a write stores its bytes
and nothing else, a read of clean sectors returns the bytes and changes no byte; three wrong symbols of a sector
not yet poisoned poison it, count and return no data. HBM_PATROL_SCRUB goes one sector on, in turn over 2^30
sectors. HBM_RETRAIN_START sets BUSY for the channel; one that software asks for while BUSY is ignored.
HBM_RETRAIN_STEP_END of the last step of a stack's only retraining clears BUSY and counts it; of another step it
changes nothing. (R194, R205, R206, R207, R208, R211) -/
def Obligations.HbmCommands : Prop :=
  ∀ (s : State),
    (∀ a, hbmBase ≤ a → a < hbmBase + hbmSize → let h := a - 0x10000000000
      hbmAt a = ((h >>> 12) % 16, h >>> 16, h % 4096) ∧ (hbmAt a).2.1 ≤ 16252927) ∧
    (∀ a, resBase ≤ a → a < resBase + resSize → let r := (a - resBase) % 2 ^ 31
      hbmAt a = ((a - resBase) / 2 ^ 31, 16252928 + (r >>> 12), r % 4096) ∧ (hbmAt a).2.1 ≤ 16777215) ∧
    (∀ (a : Nat) (data : List Byte) (len : Nat) (err : MemErr), (s.place a = some .hbm ∨ s.place a = some .hbmRes) →
      s.hosted 4 (hbmAt a).1 = true →
      (0 < data.length → (hbmAt a).2.2 + data.length ≤ 4096 → ∃ (t : State), exec (.hbmAccess a true data len err) s = .next t ∧
        t = { s with mem := t.mem, poison := t.poison, errs := t.errs } ∧ t.memRead a data.length = data ∧
        s.memBut t (s.canon a) data.length) ∧
      (0 < len → (hbmAt a).2.2 + len ≤ 4096 → err.bad = [] → s.poisonIn a len = [] → ∃ (t : State), exec (.hbmAccess a false data len err) s = .next t ∧
        t = { s with hbm := { s.hbm with out := s.memRead a len }, regs := t.regs } ∧
        s.regsBut t [R.HBM.ECC_STATUS.ODECC_REPORTS.key (hbmAt a).1] ∧
        t.getF R.HBM.ECC_STATUS.ODECC_REPORTS (hbmAt a).1 = min 255 (s.getF R.HBM.ECC_STATUS.ODECC_REPORTS (hbmAt a).1 + err.od)) ∧
      (∀ k, 3 ≤ k → 0 < len → (hbmAt a).2.2 + len ≤ 4096 → err.bad = [k] → Tab.get false s.poison (s.canon a / 64) = false →
        ∃ (t : State), exec (.hbmAccess a false data len err) s = .next t ∧ t.mem = s.mem ∧ t.hbm.out = [] ∧
        Tab.get false t.poison (s.canon a / 64) = true ∧ t.getF R.HBM.ECC_STATUS.UNCORRECTED (hbmAt a).1 =
          min 255 (s.getF R.HBM.ECC_STATUS.UNCORRECTED (hbmAt a).1 + 1))) ∧
    (∀ (stack : Fin 16) (err : MemErr), s.hosted 4 stack = true → err.bad = [] → ∃ (t : State), exec (.hbmPatrolScrub stack err) s = .next t ∧
      t = { s with hbm := { s.hbm with patrol := t.hbm.patrol }, regs := t.regs } ∧
      Tab.get 0 t.hbm.patrol stack.val = (Tab.get 0 s.hbm.patrol stack.val + 1) % 2 ^ 30) ∧
    (∀ stack : Fin 16, s.hosted 4 stack = true →
      (s.getF R.HBM.RETRAIN_CTL.BUSY stack = 1 → exec (.hbmRetrainStart stack none) s = .next s) ∧
      (∀ auto : Option (Fin 32), let ch := match auto with | some c => c.val | none => s.getF R.HBM.RETRAIN_CTL.CHANNEL stack
        (auto = none → s.getF R.HBM.RETRAIN_CTL.BUSY stack ≠ 1) → (stack.val, ch) ∉ s.hbm.retrain →
        ∃ (r : _), exec (.hbmRetrainStart stack auto) s =
          .next { s with hbm := { s.hbm with retrain := s.hbm.retrain ++ [(stack.val, ch)] }, regs := r } ∧
        ({ s with regs := r } : State).getF R.HBM.RETRAIN_CTL.BUSY stack = 1)) ∧
    (∀ (stack : Fin 16) (ch : Nat), s.hbm.retrain = [(stack.val, ch)] →
      exec (.hbmRetrainStepEnd stack false) s = .next s ∧
      ∃ (r : _), exec (.hbmRetrainStepEnd stack true) s = .next { s with hbm := { s.hbm with retrain := [] }, regs := r } ∧
        ({ s with regs := r } : State).getF R.HBM.RETRAIN_CTL.BUSY stack = 0 ∧ ({ s with regs := r } : State).getF R.HBM.RETRAIN_CTL.RETRAINS stack =
          min 65535 (s.getF R.HBM.RETRAIN_CTL.RETRAINS stack + 1))

/-- HDM_DECODER_PROGRAM gives each port with a link its capacity and plans a window of the lesser of licence and
decoded capacity, in four ways over four equal ports, which does not act yet. CXL_LINK_DOWN of a link that is up
shows width 0, trains the link again, and a tier-2 address whose port it is reads as poisoned from then on;
CXL_LINK_UP shows the link's width and rate, and it no longer trains. (R209, R218) -/
def Obligations.CxlCommands : Prop :=
  ∀ s : State,
    (∀ caps : List Nat, let cap := fun (p : Nat) => if s.cxl.up.contains p then caps.getD p 0 % 4096 else 0
      ∃ (t : State) (w : _), exec (.hdmDecoderProgram caps) s = .next t ∧ t = { s with regs := t.regs, cxl := t.cxl } ∧
        t.cxl.winNext = some (min s.licensedGib (cap 0 + cap 1 + cap 2 + cap 3), w) ∧ t.t2Size = s.t2Size ∧
        (0 < cap 0 → cap 0 = cap 1 → cap 1 = cap 2 → cap 2 = cap 3 → w = 2) ∧
        t.getF R.PCH.PORT_STATUS0.CAP_GIB 0 = cap 0 ∧ t.getF R.PCH.PORT_STATUS1.CAP_GIB 0 = cap 1 ∧
        t.getF R.PCH.PORT_STATUS0.CAP_GIB 1 = cap 2 ∧ t.getF R.PCH.PORT_STATUS1.CAP_GIB 1 = cap 3) ∧
    (∀ port : Fin 4, s.cxl.up.contains port.val = true → ∃ (t : State), exec (.cxlLinkDown port) s = .next t ∧
      t = { s with regs := t.regs, errs := t.errs, cxl := { s.cxl with up := s.cxl.up.filter (· != port.val), training := s.cxl.training ++ [port.val] } } ∧
      t.getF (portStatus port R.PCH.PORT_STATUS0.WIDTH R.PCH.PORT_STATUS1.WIDTH) (port.val / 2) = 0 ∧
      ∀ a, s.place a = some .tier2 → let ways := s.getF R.PCH.T2_CTL.WAYS 0
        (ways = 0 → s.cxl.ports = [port.val] → a - t2Base < s.cxl.caps.getD port 0 * 2 ^ 30 → t.t2Down a = true) ∧
        (ways ≠ 0 → s.cxl.ports[(a - t2Base) / 4096 % (if ways = 1 then 2 else 4)]? = some port.val → t.t2Down a = true)) ∧
    (∀ port : Fin 4, s.cxl.up.contains port.val = false → exec (.cxlLinkDown port) s = .next s) ∧
    (∀ (port : Fin 4) (width : Fin 6) (rate : Fin 7) (cxl : Bool), s.module_.v36 = true → width.val ≠ 0 →
      ∃ (t : State), exec (.cxlLinkUp port width rate cxl) s = .next t ∧
      t = { s with regs := t.regs, cxl := { s.cxl with up := t.cxl.up, training := s.cxl.training.filter (· != port.val) } } ∧
      t.cxl.up.contains port.val = true ∧
      t.getF (portStatus port R.PCH.PORT_STATUS0.WIDTH R.PCH.PORT_STATUS1.WIDTH) (port.val / 2) = width ∧
      t.getF (portStatus port R.PCH.PORT_STATUS0.RATE R.PCH.PORT_STATUS1.RATE) (port.val / 2) = rate)

/-- On a port whose link is up: a request that lies wholly in the HBM reserved region is served: a read returns its
bytes, a write stores them (each of its addresses a byte of its own, which fails only where one is the spare
frame of another) and changes no other byte; every other target is refused and counted, and nothing else
changes. (R210) -/
def Obligations.InboundRequests : Prop :=
  ∀ (s : State) (port : Fin 4) (a : Nat) (data : List Byte) (len : Nat), s.cxl.up.contains port.val = true →
    (resBase ≤ a → a + len ≤ resBase + resSize → exec (.cxlInboundRequest port a false data len) s =
      .next { s with cxl := { s.cxl with out := s.memRead a len } }) ∧
    (resBase ≤ a → a + data.length ≤ resBase + resSize →
      ∃ (t : State), exec (.cxlInboundRequest port a true data len) s = .next t ∧
        t = { s with mem := t.mem, poison := t.poison, errs := t.errs } ∧
        ((∀ i j, i < data.length → j < data.length → s.canon (a + i) = s.canon (a + j) → i = j) → t.memRead a data.length = data) ∧
        ∀ b, (∀ i, i < data.length → s.canon (a + i) ≠ b) → Tab.get 0 t.mem b = Tab.get 0 s.mem b) ∧
    (∀ wr : Bool, (a < resBase ∨ resBase + resSize < a + (if wr then data.length else len)) →
      ∃ (r : _), exec (.cxlInboundRequest port a wr data len) s = .next { s with regs := r } ∧
        ({ s with regs := r } : State).getF R.PCH.T2_EVENTS.INBOUND_REFUSED 0 = min 255 (s.getF R.PCH.T2_EVENTS.INBOUND_REFUSED 0 + 1) ∧
        s.regsBut { s with regs := r } [R.PCH.T2_EVENTS.INBOUND_REFUSED.key 0])

/-- MOVER_COMMAND_START: a waiting unit of a list whose mover is on, whose ring is known and that runs no command
starts the next block, read as it starts. MOVER_COPY of one row into chip memory, under the owner's fences or on
a control list, from clean sectors, gives the destination the source's bytes, changes no other byte and ends
with STATUS 0; a block that is no copy in multiples of 8 bytes ends with STATUS 3 and moves nothing.
MOVER_COPY_COMPLETE writes STATUS and adds 1 at COMPL unless it is zero. CTL_MOVER_GO, while a control chiplet
is active, adds a unit to a control list whose ring is known and is ignored else. (R203, R204, R212, R214, R230) -/
def Obligations.MoverCommands : Prop :=
  ∀ (s : State) (m : Fin 6) (l : Fin 16), let x := s.mover m l
    (∀ base, x.cmd = none → 0 < x.units → s.regionOn (netRegion m) = true → s.ringBase m l = some base →
      let a := base + 64 * x.next
      ∃ (t : State), exec (.moverCommandStart m l) s = .next t ∧
        t = { s with movers := t.movers, deck := t.deck, poison := t.poison, errs := t.errs } ∧
        t.mover m l = { units := x.units - 1, next := (x.next + 1) % 16, cmd := some ⟨a, leNat (s.memRead a 64), 0, false⟩ }) ∧
    (x.cmd.isSome = true ∨ x.units = 0 ∨ s.regionOn (netRegion m) = false ∨ s.ringBase m l = none → exec (.moverCommandStart m l) s = .next s) ∧
    (∀ c, x.cmd = some c → c.done = false → let b := MovBlock.of c.block
      (b.ok = false → ∃ (t : State), exec (.moverCopy m l) s = .next t ∧ t = { s with movers := t.movers, errs := t.errs } ∧
        t.mover m l = { x with cmd := some { c with status := 3, done := true } }) ∧
      (b.ok = true → b.rows = 1 → b.dst + b.bytes ≤ spreadSize → s.poisonIn b.src b.bytes = [] → s.poisonedAt b.src b.bytes = [] →
        (l.val = 15 → s.memRange b.src b.bytes = true) →
        (l.val ≠ 15 → ∃ o, s.listOwner m l = some o ∧ s.fenceOk o false b.src b.bytes = true ∧ s.fenceOk o true b.dst b.bytes = true) →
        ∃ (t : State), exec (.moverCopy m l) s = .next t ∧
          t = { s with movers := t.movers, mem := t.mem, deck := t.deck, poison := t.poison, errs := t.errs } ∧
          t.mover m l = { x with cmd := some { c with status := 0, done := true } } ∧
          t.memRead b.dst b.bytes = s.memRead b.src b.bytes ∧ s.memBut t b.dst b.bytes)) ∧
    (∀ c, x.cmd = some c → c.done = true → let q := c.addr + 1; let compl := (MovBlock.of c.block).compl; let a := compl / 8 * 8
      (s.place q).isSome = true → s.t2Down q = false → (compl ≠ 0 → s.memRange a 8 = true ∧ s.t2Down a = false) →
      (∀ i, i < 8 → s.canon (a + i) ≠ s.canon q) → ∃ (t : State), exec (.moverCopyComplete m l) s = .next t ∧
        t = { s with movers := t.movers, mem := t.mem, deck := t.deck, poison := t.poison, errs := t.errs } ∧
        t.mover m l = { x with cmd := none } ∧ Tab.get 0 t.mem (s.canon q) = BitVec.ofNat 8 c.status ∧
        (compl = 0 → s.memBut t (s.canon q) 1) ∧
        (compl ≠ 0 → leNat (t.memRead a 8) = (leNat (s.memRead a 8) + 1) % 2 ^ 64 ∧
          ∀ k, k ≠ s.canon q → ¬ (s.canon a ≤ k ∧ k < s.canon a + 8) → Tab.get 0 t.mem k = Tab.get 0 s.mem k)) ∧
    (s.active.isSome = true →
      ((s.ctlRing m).isSome = true → ∃ (t : State), exec (.ctlMoverGo ⟨m, by omega⟩) s = .next t ∧ t = { s with movers := t.movers } ∧
        t.mover m 15 = { s.mover m 15 with units := (s.mover m 15).units + 1 }) ∧
      (s.ctlRing m = none → exec (.ctlMoverGo ⟨m, by omega⟩) s = .next s) ∧
      exec (.ctlMoverGo 6) s = .next s ∧ exec (.ctlMoverGo 7) s = .next s)

/-- A mover copy on a bound list: while rows pass the owner's fences they are copied in order. At the first row k
that a fence refuses, the rows before it are complete, the refusal is counted and reported as R216 says, no
further row is performed and STATUS is 0x02; when no row is refused every row is copied and STATUS is 0x00.
(R231) -/
def Obligations.MoverStopsAtRefusedRow : Prop :=
  ∀ (s : State) (m : Fin 6) (l : Fin 16) (c : MovCmd) (o : Nat), (s.mover m l).cmd = some c → c.done = false → l.val ≠ 15 →
    s.listOwner m l = some o → let b := MovBlock.of c.block; b.ok = true →
    let after := fun (k : Nat) => each (List.range k) s fun s r =>
      s.copyRow (servicePort m) (b.src + r * b.sp) (b.dst + r * b.dp) b.bytes
    let done := fun (t : State) (st : Nat) => t.modMover m l fun x => { x with cmd := some { c with status := st, done := true } }
    let passes := fun (r : Nat) => s.fenceOk o false (b.src + r * b.sp) b.bytes = true ∧ s.fenceOk o true (b.dst + r * b.dp) b.bytes = true
    ((∀ r, r < b.rows → passes r) → exec (.moverCopy m l) s = .next (done (after b.rows) 0)) ∧
    (∀ k, k < b.rows → (∀ r, r < k → passes r) →
      (s.fenceOk o false (b.src + k * b.sp) b.bytes = false → exec (.moverCopy m l) s =
        .next (done (((after k).refuse o false none).reportUnit 4 6 (wholeUnit 8 (netRegion m)) 0) 2)) ∧
      (s.fenceOk o false (b.src + k * b.sp) b.bytes = true → s.fenceOk o true (b.dst + k * b.dp) b.bytes = false → exec (.moverCopy m l) s =
        .next (done (((after k).refuse o true none).reportUnit 4 6 (wholeUnit 8 (netRegion m)) 0) 2)))

/-- An admission record is 16 bytes: the code in bits [7:0], UNIT in [31:16], the quantity needed in [63:32], the
quantity available in [95:64], every other bit zero. A program whose every binding fails a check changes nothing
but the record, which reports a code that is not 0x00; one that passes is reported with code 0x00, zero
quantities and the job partition id as UNIT. (R236) -/
def Obligations.AdmissionRecords : Prop :=
  (∀ r : AdmRec, r.code < 256 → r.unit < 65536 → r.need < 2 ^ 32 → r.avail < 2 ^ 32 → r.bytes.length = 16 ∧
      bits (leNat r.bytes) 7 0 = r.code ∧ bits (leNat r.bytes) 15 8 = 0 ∧ bits (leNat r.bytes) 31 16 = r.unit ∧
      bits (leNat r.bytes) 63 32 = r.need ∧ bits (leNat r.bytes) 95 64 = r.avail ∧ bits (leNat r.bytes) 127 96 = 0) ∧
    (∀ (s : State) (p : Program), s.module_.v36 = true → s.ctl.holdAdm = false → s.module_.idle = false → s.leaderless = false →
      let t := s.applyWindow
      ((∀ cl ∈ t.bindings p, t.admCheck p cl ≠ none) → ∃ r : AdmRec, r.code ≠ 0 ∧
        exec (.admission p) s = .next { s with ctl := { s.ctl with admission := r.bytes } }) ∧
      (∀ cl id, (t.bindings p).find? (fun cl => (t.admCheck p cl).isNone) = some cl → id < 256 → t.job id = none →
        (∀ k, k < id → t.job k ≠ none) → ∃ (u : State), exec (.admission p) s = .next u ∧
        u.ctl.admission = ({ code := 0, unit := id, need := 0, avail := 0 } : AdmRec).bytes ∧ (u.job id).map (·.prog) = some p))

/-- ADMISSION of a program that passes under a binding makes the lowest free job partition: its clusters show
ACTIVE, the id and their logical numbers. Its deck regions lie below the firmware staging area, aligned, apart
from each other and from every range in use. JOB_PARTITION_RELEASE waits while kernels of the partition are busy
or packets land in its windows; else its windows are closed, its clusters belong to no partition, and no byte
and no core site changes. (R217, R220, R221, R235, R237) -/
def Obligations.AdmissionBindsClusters : Prop :=
  (∀ (s : State) (p : Program) (cl : List Nat) (id : Nat), s.module_.v36 = true → s.ctl.holdAdm = false → s.module_.idle = false →
      s.leaderless = false → let t := s.applyWindow
      (t.bindings p).find? (fun cl => (t.admCheck p cl).isNone) = some cl → id < 256 → t.job id = none → (∀ k, k < id → t.job k ≠ none) →
      ∃ (u : State), exec (.admission p) s = .next u ∧ u.job id = some (t.makeJob p cl) ∧ (t.makeJob p cl).clusters = cl ∧ cl.length = p.nclusters ∧
        ∀ i c, cl[i]? = some c → u.getF R.CL.JOB.ACTIVE c = 1 ∧ u.getF R.CL.JOB.JOB_ID c = id ∧ u.getF R.CL.JOB.LOGICAL c = i) ∧
    (∀ (used : List (Nat × Nat)) (top : Nat) (rs : List PRegion) (bases : List Nat), (∀ r ∈ rs, r.space = 0) →
      placeRegions 0 top used rs = some bases → bases.length = rs.length ∧
      (∀ (i : Nat) (r : PRegion) (b : Nat), rs[i]? = some r → bases[i]? = some b → b % 12288 = 0 ∧ b + r.size ≤ top ∧
        ∀ u ∈ used, b + roundUnit 0 r.size ≤ u.1 ∨ u.1 + u.2 ≤ b) ∧
      ∀ (i j : Nat) (r q : PRegion) (b c : Nat), i ≠ j → rs[i]? = some r → rs[j]? = some q → bases[i]? = some b → bases[j]? = some c →
        b + roundUnit 0 r.size ≤ c ∨ c + roundUnit 0 q.size ≤ b) ∧
    (∀ (s : State) (job : Fin 256) (j : Job), s.job job = some j → (∀ c ∈ j.clusters, c < 24) → (∀ n ∈ j.trips, n < 16) →
      (s.jobBusy j = true → exec (.jobPartitionRelease job) s = .next (s.setJob job (some { j with releasing := true }))) ∧
      (s.jobBusy j = false → (∃ w ∈ j.windows, (s.window w).st ≠ 0 ∧ s.landing w = true) → ∃ (t : State), exec (.jobPartitionRelease job) s = .next t ∧
        t.job job = some { j with releasing := true } ∧ t.regs = s.regs ∧ t.mem = s.mem ∧ t.cores = s.cores) ∧
      (s.jobBusy j = false → (∀ w ∈ j.windows, (s.window w).st = 0 ∨ s.landing w = false) → ∃ (t : State), exec (.jobPartitionRelease job) s = .next t ∧
        t.job job = none ∧ t.mem = s.mem ∧ t.cores = s.cores ∧ (∀ w ∈ j.windows, (t.window w).st = 0) ∧
        ∀ c ∈ j.clusters, t.getF R.CL.JOB.ACTIVE c = 0))

/-- LAUNCH issued in time for a partition that may launch: each cluster's sequence number rises by 1 modulo 2^32 and
shows T_L; each core of the kind has the launch waiting, and one that runs no kernel and waits for no launch up
to T_L stands at its entry with its initial registers, its counters and tokens zero. One not ahead by 20 µs, or
while the marking partition is held, is not issued. KERNEL_START at T_L: a free core issues from its entry,
loaded now if it was not before, and writes STATE 1 with its sequence number to its completion word; a core that
runs a kernel goes on and writes STATE 4; before T_L nothing happens. CL.TSIG, while a control chiplet is
active, sends one unit to a token of an in-service core or to a mover list that the cluster binds, and drops any
other. (R215, R230, R232, R233, R234, R238, R284) -/
def Obligations.LaunchCommands : Prop :=
  ∀ s : State,
    (∀ (a : LaunchArgs) (j : Job), s.job a.job = some j → s.leaderless = false →
      (s.launchOk j a = false → exec (.launch a) s = .next s) ∧
      (s.now + 20000 > a.tl → s.launchOk j a = false) ∧
      (s.marking a.job = true → s.getF R.TLY.HOLD.HELD 0 = 1 → s.launchOk j a = false) ∧
      (s.launchOk j a = true → j.clusters.Nodup → (∀ c ∈ j.clusters, c < 24) → (∀ e ∈ j.sites, e.2 < 672) →
        (j.prog.kernels.filterMap fun k => j.siteOf k.lcore).Nodup →
        ∃ (t : State), exec (.launch a) s = .next t ∧ (s.marking a.job = false → t.mem = s.mem) ∧ t.running = s.running ∧
        (∀ c ∈ j.clusters, t.getF R.CL.LAUNCH_SEQ.SEQ c = (s.getF R.CL.LAUNCH_SEQ.SEQ c + 1) % 2 ^ 32 ∧
          t.getF R.CL.LAUNCH_TIME.T_L c = a.tl % 2 ^ 64) ∧
        ∀ k q i, k ∈ j.prog.kernels → k.kinds.find? (fun q => q.kind == a.kind) = some q → j.siteOf k.lcore = some i →
          let free := s.coreFree i && (s.waitingAt i).all fun r => decide (a.tl < r.tl)
          (∃ r ∈ t.waitingAt i, r.job = a.job ∧ r.tl = a.tl ∧ r.lcore = k.lcore ∧ r.entry = q.entry % 16384 ∧ r.gregs = j.gregs q ∧
            r.area = a.area ∧ r.ctr = a.ctr ∧ r.seq = t.getF R.CL.LAUNCH_SEQ.SEQ (clusterOf i)) ∧
          (free = true → t.core i = { s.core i with g := j.gregs q, u := [], tok := [], mt := [], mtCount := 0, pc := q.entry % 16384, ret := [], passes := 0, nSend := 0, nTsig := 0, atMark := none, rot := false, mark0 := s.getF R.CORE.INSTR_CNT.COUNT i }) ∧
          (s.coreFree i = false → t.core i = s.core i))) ∧
    (∀ (site : Fin 672) (r : LaunchRec), s.launchOf site = some r →
      (s.now < r.tl → exec (.kernelStart site) s = .next s) ∧
      (r.tl ≤ s.now → s.regionOn (clusterOf site) = true → (s.core site).dead = false → r.resume = false →
        let w := r.area + 8 * r.lcore; let u := s.yieldSlice site; let c := u.core site
        w % 8 = 0 → w + 8 ≤ spreadSize →
        (s.run site = none → ∃ (t : State), exec (.kernelStart site) s = .next t ∧ t.run site = some r ∧ t.waitingAt site = s.laterOf site ∧
          t.core site = { (if r.loaded then c else { c with g := r.gregs, u := [], tok := [], mt := [], mtCount := 0, ret := [], passes := 0, nSend := 0, nTsig := 0, atMark := none, rot := false, mark0 := s.getF R.CORE.INSTR_CNT.COUNT site }) with st := .issuing, drain := .none, wait := .none, pc := r.entry, wldEver := false, wswpEver := false, haz := s.getF R.CORE.SEQ_CTL.HAZ_CHK site == 1 } ∧
          s.coresBut t [site.val] ∧ t.memRead w 8 = natLE 8 (1 * 2 ^ 16 + r.seq * 2 ^ 32) ∧ s.memBut t w 8) ∧
        (∀ q, s.run site = some q → r.ctr % 8 = 0 → w + 8 ≤ r.ctr → r.ctr + 8 ≤ spreadSize → ∃ (t : State), exec (.kernelStart site) s = .next t ∧
          t.run site = some q ∧ t.waitingAt site = s.laterOf site ∧ t.cores = u.cores ∧ t.memRead w 8 = natLE 8 (4 * 2 ^ 16 + r.seq * 2 ^ 32) ∧
          leNat (t.memRead r.ctr 8) = (leNat (s.memRead r.ctr 8) + 1) % 2 ^ 64))) ∧
    (∀ (c : Fin 24) (v : BitVec 32), s.active.isSome = true → s.hosted 1 c = true → let tok := bits v.toNat 7 0; let k := bits v.toNat 12 8
      let m := bits v.toNat 18 16; let l := bits v.toNat 22 19
      let send := fun (d : TokTo) => { s with mesh := { s.mesh with toks := s.mesh.toks ++ [⟨1000 + c, d, 1, s.now, 0⟩] } }
      (v.getLsbD 13 = false → k ≤ 27 → tok ≤ 0xFD → s.siteInService (28 * c + k) = true →
        exec (.clTsig c v) s = .next (send (.core (28 * c + k) tok))) ∧
      (v.getLsbD 13 = true → s.bindsList c m l = true → exec (.clTsig c v) s = .next (send (.list m l c))) ∧
      (v.getLsbD 13 = true ∧ s.bindsList c m l = false ∨ v.getLsbD 13 = false ∧ (27 < k ∨ 0xFD < tok ∨ s.siteInService (28 * c + k) = false) →
        exec (.clTsig c v) s = .next (s.dropToken c none)))

/-- A port trains on the first 8, 4 or 2 of the lanes that pass, or stays down; TRAIN_STATUS shows width, lanes and
whether the spare is used, and a port below x8 gives a record. PORT_TRAINING starts the port anew, with nothing
in flight. LPT_RETRAIN counts; a port that trains again keeps its unacknowledged flits for replay, and one that
trains on no lanes with nothing in flight keeps only its lanes. LANE_FAILURE of a lane in use that is lost, or
beyond LANE_LIMIT, counts: at x8 the lowest good lane free takes over, with the width and the flits as they are,
else the port retrains on what is left. PORT_DOWN of a port that is up shows width 0 and gives a record; its
packets are answered or resent (R242). (R240, R241, R242) -/
def Obligations.PortCommands : Prop :=
  (∀ pass : Nat, pass < 512 → let n := popCount 9 pass; let m := (trainOn pass).1
      (trainOn pass).2 = (if 8 ≤ n then 3 else if 4 ≤ n then 2 else if 2 ≤ n then 1 else 0) ∧
      popCount 9 m = (if 8 ≤ n then 8 else if 4 ≤ n then 4 else if 2 ≤ n then 2 else 0) ∧ m &&& pass = m) ∧
    (∀ (s : State) (p : Fin 40) (lanes : BitVec 9), let q := s.port p
      let shows := fun (t : State) =>
        t.getF R.LPT.TRAIN_STATUS.WIDTH p = (trainOn lanes.toNat).2 ∧ t.getF R.LPT.TRAIN_STATUS.LANES p = (trainOn lanes.toNat).1 ∧
        t.getF R.LPT.TRAIN_STATUS.SPARE_USED p = (trainOn lanes.toNat).1 / 256 ∧
        ((trainOn lanes.toNat).2 = 3 → t.errs = s.errs) ∧ ((trainOn lanes.toNat).2 ≠ 3 → ∃ r, t.errs.reports = s.errs.reports ++ [r] ∧ r.cls = 6 ∧ r.code = 1);
      (∀ (sw : Bool) (far : Fin 4096), s.hosted 6 p = true → ∃ (t : State), exec (.portTraining p lanes sw far) s = .next t ∧
        t = { s with regs := t.regs, errs := t.errs, fab := { s.fab with ports := t.fab.ports } } ∧ shows t ∧
        (t.port p).good = lanes.toNat ∧ (t.port p).unacked = [] ∧ (t.port p).waiting = [] ∧ (t.port p).txSeq = 0 ∧ (t.port p).expect = 0 ∧
        t.getF R.LPT.TRAIN_STATUS.FAR_SWITCH p = (if sw then 1 else 0) ∧ t.getF R.LPT.TRAIN_STATUS.FAR_ID p = (if sw then 0 else far.val) ∧
        ∀ k, k ≠ p.val → t.port k = s.port k) ∧
      (s.hosted 6 p = true → (trainOn lanes.toNat).2 ≠ 0 → ∃ (t : State), exec (.lptRetrain p lanes) s = .next t ∧
        t = { s with regs := t.regs, errs := t.errs, fab := { s.fab with ports := t.fab.ports } } ∧ shows t ∧
        (t.port p).replay = (!q.unacked.isEmpty) ∧ (t.port p).exch = true ∧ (∃ l, (t.port p).unacked = q.unacked ++ l) ∧
        (∀ k, k ≠ p.val → t.port k = s.port k) ∧
        t.getF R.LPT.LINK_EVENTS.RETRAINS p = min 255 (s.getF R.LPT.LINK_EVENTS.RETRAINS p + 1)) ∧
      (s.hosted 6 p = true → (trainOn lanes.toNat).2 = 0 → q.unacked = [] → q.waiting = [] → ∃ (t : State), exec (.lptRetrain p lanes) s = .next t ∧
        t = { s with regs := t.regs, errs := t.errs, fab := { s.fab with ports := t.fab.ports } } ∧ shows t ∧
        t.port p = { good := lanes.toNat, line := q.line } ∧
        t.getF R.LPT.LINK_EVENTS.RETRAINS p = min 255 (s.getF R.LPT.LINK_EVENTS.RETRAINS p + 1)) ∧
      (∀ (lane : Fin 9) (errs : Option Nat), let used := s.getF R.LPT.TRAIN_STATUS.LANES p
        let free := ((maskList 9 q.good).filter fun i => i != lane.val).find? (fun i => !flag used i)
        s.portUp p = true → flag used lane = true → (∀ n, errs = some n → s.getF R.LPT.RETRAIN_CTL.LANE_LIMIT p < n) →
        (∀ spare, s.getF R.LPT.TRAIN_STATUS.WIDTH p = 3 → used < 512 → free = some spare →
          ∃ (t : State), exec (.laneFailure p lane lanes errs) s = .next t ∧ t = { s with regs := t.regs, errs := t.errs, fab := t.fab, sec := t.sec } ∧
          t.getF R.LPT.TRAIN_STATUS.WIDTH p = 3 ∧ t.getF R.LPT.TRAIN_STATUS.LANES p = used - 2 ^ lane.val + 2 ^ spare ∧
          t.getF R.LPT.LINK_EVENTS.LANE_FAILS p = min 255 (s.getF R.LPT.LINK_EVENTS.LANE_FAILS p + 1) ∧
          t.port p = { q with good := (t.port p).good }) ∧
        (s.getF R.LPT.TRAIN_STATUS.WIDTH p ≠ 3 ∨ free = none → ∃ (u : State) (pass : _), exec (.laneFailure p lane lanes errs) s = .next (u.retrain p pass) ∧
          u = { s with regs := u.regs, errs := u.errs, fab := u.fab, sec := u.sec } ∧ (∀ i, flag pass i = true → flag lanes.toNat i = true ∧ i ≠ lane.val) ∧
          u.getF R.LPT.LINK_EVENTS.LANE_FAILS p = min 255 (s.getF R.LPT.LINK_EVENTS.LANE_FAILS p + 1) ∧ u.port p = { q with good := (u.port p).good })) ∧
      (s.portUp p = true → ∃ (u : State), exec (.portDown p) s = .next (u.dropPort p) ∧ u = { s with regs := u.regs, errs := u.errs } ∧
        u.getF R.LPT.TRAIN_STATUS.WIDTH p = 0 ∧ u.getF R.LPT.TRAIN_STATUS.LANES p = 0 ∧
        (∃ r : Report, u.errs = { s.errs with reports := s.errs.reports ++ [r] } ∧ r.cls = 6 ∧ r.code = 3) ∧
        (q.unacked = [] → q.waiting = [] → (u.dropPort p).port p = { good := q.good, line := q.line } ∧ (u.dropPort p).regs = u.regs)))

/-- FLIT_RECEIVE on a port that is up: a flit that is not 256 bytes or fails its CRC-32, or a data flit out of
sequence, is dropped, and a replay is asked for, once, on a port that is not retraining; the next data flit in
sequence raises the expected number by 1 modulo 4,096, and the packets that its payload completes join what the
link chiplet has received, but for well-formed control messages; an idle flit is not numbered. LINK_REPLAY, once
the ends have exchanged their numbers, puts every unacknowledged flit on the line again and counts once.
ACK_TIMEOUT: 10 µs without an acknowledgement ask for one. (R243, R244, R245, R247) -/
def Obligations.FlitCommands : Prop :=
  ∀ (s : State) (p : Fin 40),
    (∀ (flit : List Byte) (corr unc : Nat), s.portUp p = true → let h := leNat (flit.take 10); let vc := bits h 28 26; let q := s.port p
      let good := flit.length = 256 ∧ crc32 (flit.take 252) = leNat (flit.drop 252) ∧ bits h 25 24 ≠ 3 ∧ vc ≠ 5 ∧ vc ≠ 6
      (¬ good ∨ (vc ≠ 7 ∧ bits h 11 0 ≠ q.expect) → ∃ (t : State), exec (.flitReceive p flit corr unc) s = .next t ∧
        t = { s with regs := t.regs, fab := { s.fab with ports := t.fab.ports } } ∧
        (t.port p).gapAsked = true ∧ (t.port p).expect = q.expect ∧ (t.port p).rx = q.rx ∧
        (q.gapAsked = false → s.getF R.LPT.RETRAIN_CTL.BUSY p ≠ 1 → (t.port p).askDue = false ∧ q.line.length < (t.port p).line.length) ∧
        ∀ k, k ≠ p.val → t.port k = s.port k) ∧
      (good → vc = 7 → ∃ (t : State), exec (.flitReceive p flit corr unc) s = .next t ∧
        t = { s with regs := t.regs, fab := { s.fab with ports := t.fab.ports } } ∧ (t.port p).expect = q.expect ∧ (t.port p).rx = q.rx ∧
        ∀ k, k ≠ p.val → t.port k = s.port k) ∧
      (good → vc ≠ 7 → bits h 11 0 = q.expect → ∃ (t : State), exec (.flitReceive p flit corr unc) s = .next t ∧
        t = { s with regs := t.regs, tally := t.tally, fab := { s.fab with ports := t.fab.ports, chips := t.fab.chips } } ∧
        (t.port p).expect = (q.expect + 1) % 4096 ∧ (t.port p).gapAsked = false ∧
        (t.chip (p.val / 4)).inbox = (s.chip (p.val / 4)).inbox ++
          (takePayload vc p (Tab.get [] q.rx vc) ((flit.drop 10).take 242) (bits h 47 40)).1.filter (fun k => !(k.type == 4 && !k.broken)) ∧
        t.getF R.LPT.FEC_CORR.CORRECTED p = min (2 ^ 32 - 1) (s.getF R.LPT.FEC_CORR.CORRECTED p + corr) ∧
        ∀ k, k ≠ p.val → t.port k = s.port k)) ∧
    (s.portUp p = false → ∀ flit corr unc, exec (.flitReceive p flit corr unc) s = .next s) ∧
    ((s.port p).replay = true → (s.port p).exch = false → ∃ (t : State) (l : _), exec (.linkReplay p) s = .next t ∧
      t = { s with regs := t.regs, tally := t.tally, fab := { s.fab with ports := t.fab.ports } } ∧
      (t.port p).replay = false ∧ (t.port p).unacked = (s.port p).unacked ∧ (t.port p).waiting = (s.port p).waiting ∧ (t.port p).ackAt = s.now ∧
      (t.port p).line = (s.port p).line ++ l ∧ l.length = (s.port p).unacked.length ∧
      t.getF R.LPT.LINK_EVENTS.REPLAYS p = min 65535 (s.getF R.LPT.LINK_EVENTS.REPLAYS p + 1)) ∧
    ((s.port p).replay = false ∨ (s.port p).exch = true → exec (.linkReplay p) s = .next s) ∧
    ((s.port p).unacked ≠ [] → (s.port p).ackAt + 10000 ≤ s.now → ∃ (t : State), exec (.ackTimeout p) s = .next t ∧
      t = { s with fab := { s.fab with ports := t.fab.ports } } ∧ t.port p = { s.port p with replay := true }) ∧
    ((s.port p).unacked = [] ∨ s.now < (s.port p).ackAt + 10000 → exec (.ackTimeout p) s = .next s)

/-- The first reason of R252's list refuses a data packet: a window that is not open, another generation, cells that
do not parse, bytes beyond the window, a tag that is not the window's, a full landing buffer; it is answered
with that code. With none of them it takes landing buffer space. A packet of age 9,900 µs or more is discarded
and counted, one with a broken header or another destination is dropped and counted. No byte of memory changes.
(R247, R252, R253, R258, R266) -/
def Obligations.DataPacketArrivals : Prop :=
  ∀ (s : State) (lc : Fin 10) (n : Nat), ((s.chip lc).inbox[n]? = none → exec (.dataPacketArrival lc n) s = .next s) ∧
    ∀ p : Packet, (s.chip lc).inbox[n]? = some p → p.type = 1 → let w := s.window p.window
    let taken := { s.chip lc with inbox := (s.chip lc).inbox.eraseIdx n }
    let bs := if p.cells then parseCells p.data.length p.data else some p.data
    let code : Nat := if w.st ≠ 1 then 1 else if w.gen ≠ p.gen then 2 else match bs with
      | none => 6
      | some b => if w.size < p.off + b.length then 3 else if w.tag = 0 ∨ w.tag ≠ p.tag then 4
        else if 524288 < (s.chip lc).inUse + p.data.length then 5 else 0
    (9900 ≤ s.age p.birth → ∃ (t : State), exec (.dataPacketArrival lc n) s = .next t ∧ t = { s with regs := t.regs, fab := t.fab, tally := t.tally } ∧
      t.chip lc = taken ∧ t.getF R.LCH.LIFETIME_DROPS.DROPS lc = min (2 ^ 32 - 1) (s.getF R.LCH.LIFETIME_DROPS.DROPS lc + 1)) ∧
    (s.age p.birth < 9900 → p.broken = true ∨ p.dst ≠ s.devId → ∃ (t : State), exec (.dataPacketArrival lc n) s = .next t ∧
      t = { s with regs := t.regs, fab := t.fab } ∧ t.chip lc = taken ∧
      t.getF R.LWT.DROPS2.MISROUTE 0 = min 65535 (s.getF R.LWT.DROPS2.MISROUTE 0 + 1)) ∧
    (s.age p.birth < 9900 → p.broken = false → p.dst = s.devId →
      (code = 0 → ∃ (t : State) (b : _), exec (.dataPacketArrival lc n) s = .next t ∧ bs = some b ∧ t = { s with regs := t.regs, fab := t.fab } ∧
        t.chip lc = { taken with landed := (s.chip lc).landed ++ [⟨p, w.base + p.off, b, p.data.length⟩] }) ∧
      (code ≠ 0 → ∃ (t : State) (a : Packet), exec (.dataPacketArrival lc n) s = .next t ∧
        t = { s with regs := t.regs, fab := t.fab, tally := t.tally } ∧ a.type = 2 ∧ a.code = code ∧ a.dst = p.src ∧ a.slot = p.slot ∧
        (p.src ≠ s.devId → t.chip lc = taken ∧ t.fab.sent = s.fab.sent ++ [a]) ∧
        (p.src = s.devId → (t.chip (p.slot / 4096)).inbox =
          (if p.slot / 4096 = lc.val then taken else s.chip (p.slot / 4096)).inbox ++ [a])))

/-- LANDING_WRITE_ACCEPTED: a landed packet's bytes stand at its address, no other byte changes, its space is free
and OK is answered. ANSWER_ARRIVAL: NO_BUFFER below age 9,000 µs is tried again after a back-off that doubles up
to 128 µs; every other code is final; the last OK answer of a SEND to one target frees the slot, completes the
SEND and sends the target's notice. NO_BUFFER_RETRY, when its time has come, counts where the packet is sent
again. PACKET_TIMEOUT: 20 ms without an answer make an active partner suspect. LIFETIME_DISCARD: a packet of age
9,900 µs, received or in a port, is discarded and counted. (R251, R252, R253, R254, R256, R258) -/
def Obligations.LandingAndAnswers : Prop :=
  ∀ (s : State) (lc : Fin 10), let c := s.chip lc
    (∀ n l, c.landed[n]? = some l → let m := l.bytes.length; (∀ i, i < m → (s.place (l.addr + i)).isSome = true ∧ s.t2Down (l.addr + i) = false) →
      (∀ i j, i < m → j < m → s.canon (l.addr + i) = s.canon (l.addr + j) → i = j) →
      ∃ (t : State) (a : Packet), exec (.landingWriteAccepted lc n) s = .next t ∧ t = { s with mem := t.mem, deck := t.deck, poison := t.poison, errs := t.errs, fab := t.fab } ∧
        t.memRead l.addr m = l.bytes ∧ (∀ b, (∀ i, i < m → s.canon (l.addr + i) ≠ b) → Tab.get 0 t.mem b = Tab.get 0 s.mem b) ∧
        (t.chip lc).landed = c.landed.eraseIdx n ∧ a.type = 2 ∧ a.code = 0 ∧ a.dst = l.pkt.src ∧
        (l.pkt.src ≠ s.devId → t.fab.sent = s.fab.sent ++ [a]) ∧
        (l.pkt.src = s.devId → (t.chip (l.pkt.slot / 4096)).inbox = (s.chip (l.pkt.slot / 4096)).inbox ++ [a])) ∧
    (∀ n p o, c.inbox[n]? = some p → p.type = 2 → s.age p.birth < 9900 → p.broken = false → p.dst = s.devId →
      p.slot / 4096 = lc.val → c.unans.find? (fun o => o.slot == p.slot % 4096) = some o →
      (p.code = 5 → s.age o.pkt.birth < 9000 → ∃ (t : State), exec (.answerArrival lc n) s = .next t ∧ t = { s with fab := { s.fab with chips := t.fab.chips } } ∧
        (t.chip lc).unans = c.unans.map fun x => if x.slot = p.slot % 4096 then
          { x with retryAt := some (s.now + 1000 * o.backoff), backoff := min 128 (2 * o.backoff) } else x) ∧
      (p.code ≠ 5 ∨ 9000 ≤ s.age o.pkt.birth → exec (.answerArrival lc n) s =
        .next ((s.modChip lc fun c => { c with inbox := c.inbox.eraseIdx n }).finalAnswer lc (p.slot % 4096) p.code)) ∧
      (∀ r g, p.code = 0 → s.fab.sends = [r] → o.send = r.no → o.target = 0 → r.queued = [] → r.targets = [g] → g.left = 1 →
        g.good = true → g.done = false → g.dev ≠ s.devId → (s.partner g.dev).unacked.length < 1024 →
        ∃ (t : State), exec (.answerArrival lc n) s = .next t ∧ t.fab.sends = [] ∧ (t.chip lc).unans = c.unans.filter (fun x => x.slot != p.slot % 4096) ∧
          (t.partner g.dev).unacked = (s.partner g.dev).unacked ++ [⟨(s.partner g.dev).txSeq, g.window, s.now⟩] ∧
          t.core r.site = { s.core r.site with fly := (s.core r.site).fly.map fun f => if f.sendNo = some r.no then { f with ready := true } else f } ∧
          t.mem = s.mem)) ∧
    (∀ (slot : Fin 4096) o, c.unans.find? (fun o => o.slot == slot.val) = some o →
      (∀ u, o.retryAt = some u → let v := s.modChip lc fun c => { c with unans := c.unans.map fun x => if x.slot = slot.val then { x with retryAt := none } else x }
        (s.now < u → exec (.noBufferRetry lc slot) s = .next s) ∧
        (u ≤ s.now → 9000 ≤ s.age o.pkt.birth → exec (.noBufferRetry lc slot) s = .next (s.finalAnswer lc slot 5)) ∧
        (u ≤ s.now → s.age o.pkt.birth < 9000 → o.pkt.dst ≠ s.devId → exec (.noBufferRetry lc slot) s =
          .next ((if s.portsTo o.pkt.dst = [] then v else v.addF R.MCG.RETRIES.RETRIES 0 1).resend o.pkt.slot)) ∧
        (u ≤ s.now → s.age o.pkt.birth < 9000 → o.pkt.dst = s.devId → ∃ (t : State), exec (.noBufferRetry lc slot) s = .next t ∧
          t.getF R.MCG.RETRIES.RETRIES 0 = min (2 ^ 32 - 1) (s.getF R.MCG.RETRIES.RETRIES 0 + 1) ∧
          (t.chip lc).inbox.length = c.inbox.length + 1)) ∧
      (s.now < o.firstAt + 20000000 → exec (.packetTimeout lc slot) s = .next s) ∧
      (o.firstAt + 20000000 ≤ s.now → (s.partner o.pkt.dst).st ≠ 1 → exec (.packetTimeout lc slot) s = .next (s.finalAnswer lc slot 8)) ∧
      (o.firstAt + 20000000 ≤ s.now → (s.partner o.pkt.dst).st = 1 → ∃ (u : State) (r : Report), exec (.packetTimeout lc slot) s = .next (u.finalAnswer lc slot 8) ∧
        u = { s with errs := u.errs, fab := { s.fab with partners := u.fab.partners } } ∧
        (u.partner o.pkt.dst).st = 2 ∧ u.errs.reports = s.errs.reports ++ [r] ∧ r.cls = 6 ∧ r.code = 4 ∧ r.dev = o.pkt.dst)) ∧
    (∀ n p, c.inbox[n]? = some p → (s.age p.birth < 9900 → exec (.lifetimeDiscard lc n) s = .next s) ∧
      (9900 ≤ s.age p.birth → ∃ (t : State), exec (.lifetimeDiscard lc n) s = .next t ∧
        t = { s with regs := t.regs, fab := t.fab, tally := t.tally } ∧ t.chip lc = { c with inbox := c.inbox.eraseIdx n } ∧
        t.getF R.LCH.LIFETIME_DROPS.DROPS lc = min (2 ^ 32 - 1) (s.getF R.LCH.LIFETIME_DROPS.DROPS lc + 1))) ∧
    (∀ n k, c.inbox[n]? = none → (s.overdue lc)[n - c.inbox.length]? = some k → ∃ (t : State), exec (.lifetimeDiscard lc n) s = .next t ∧
      t = { s with regs := t.regs, fab := { s.fab with ports := t.fab.ports }, tally := t.tally } ∧ t.port k.1 = (s.port k.1).discard k.2.1 ∧
      t.getF R.LCH.LIFETIME_DROPS.DROPS lc = min (2 ^ 32 - 1) (s.getF R.LCH.LIFETIME_DROPS.DROPS lc + 1))

/-- NOTICE_ARRIVAL from another device: the number awaited, with none held, raises that number by 1 modulo 65,536,
adds 1 to the window's NOTIFY token and is acknowledged; one up to 1,023 ahead is held and adds nothing; one
behind is only acknowledged. NOTICE_RETRANSMIT: 20 µs without an acknowledgement send a notice again.
NOTICE_ACK_ARRIVAL frees the notice's slot, and a waiting notice goes out. PARTNER_PROBE: a suspect partner is
probed each 1 ms; PROBE_ANSWER makes it active. (R254, R256) -/
def Obligations.NoticeCommands : Prop :=
  ∀ (s : State),
    (∀ (lc : Fin 10) (n : Nat) (p : Packet), (s.chip lc).inbox[n]? = some p → p.type = 3 → s.age p.birth < 9900 → p.broken = false →
      p.dst = s.devId → p.src ≠ s.devId → let c := s.partner p.src; let w := s.window p.window; let site := 28 * w.ncl + w.nsite
      let ack := fun (t : State) => ∃ a, t.fab.sent = s.fab.sent ++ [a] ∧ a.type = 4 ∧ a.dst = p.src ∧ a.nseq = p.nseq
      (p.nseq = c.rxSeq → c.held = [] → p.nseq < 65536 → w.nvalid = true →
        Tab.get 0 (s.cluster (clusterOf site)).excess (tokKey site w.ntok) = 0 →
        (s.core site).token w.ntok < 65535 →
        ∃ (t : State), exec (.noticeArrival lc n) s = .next t ∧ (t.partner p.src).rxSeq = (c.rxSeq + 1) % 65536 ∧ (t.partner p.src).held = [] ∧ ack t ∧
        (t.core site).token w.ntok = (s.core site).token w.ntok + 1 ∧ s.coresBut t [site] ∧ t.mem = s.mem) ∧
      (∀ k, 0 < k → k < 1024 → p.nseq = (c.rxSeq + k) % 65536 → c.rxSeq < 65536 → c.held = [] →
        ∃ (t : State), exec (.noticeArrival lc n) s = .next t ∧ t.partner p.src = { c with held := [(p.nseq, p.window)] } ∧ ack t ∧ t.cores = s.cores) ∧
      (∀ k, 0 < k → k ≤ 64512 → p.nseq = (c.rxSeq + 65536 - k) % 65536 → c.rxSeq < 65536 →
        ∃ (t : State), exec (.noticeArrival lc n) s = .next t ∧ t.partner p.src = c ∧ ack t ∧ t.cores = s.cores)) ∧
    (∀ (dev : Fin 4096) (k : Fin 65536), let c := s.partner dev
      (∀ x, c.unacked.find? (fun x => x.nseq == k.val) = some x →
        (s.now < x.at_ + 20000 → exec (.noticeRetransmit dev k) s = .next s) ∧
        (x.at_ + 20000 ≤ s.now → ∃ (t : State) (a : _), exec (.noticeRetransmit dev k) s = .next t ∧ a.type = 3 ∧ a.nseq = k.val ∧ a.window = x.window ∧
          (dev.val ≠ s.devId → t.fab.sent = s.fab.sent ++ [a]) ∧ (dev.val = s.devId → (t.chip 0).inbox = (s.chip 0).inbox ++ [a]) ∧
          (t.partner dev).unacked = c.unacked.map fun y => if y.nseq = k.val then { y with at_ := s.now } else y) ∧
        (c.queued = [] → ∃ (t : State), exec (.noticeAckArrival dev k) s = .next t ∧ t = { s with fab := { s.fab with partners := t.fab.partners } } ∧
          t.partner dev = { c with unacked := c.unacked.filter fun x => x.nseq != k.val }) ∧
        (∀ w l, c.queued = w :: l → exec (.noticeAckArrival dev k) s = .next (((s.modPartner dev fun c =>
          { c with unacked := c.unacked.filter fun x => x.nseq != k.val }).modPartner dev fun c => { c with queued := l }).sendNotice dev w))) ∧
      (c.unacked.find? (fun x => x.nseq == k.val) = none → exec (.noticeRetransmit dev k) s = .next s ∧ exec (.noticeAckArrival dev k) s = .next s)) ∧
    (∀ dev : Fin 4096, let c := s.partner dev
      (c.st = 2 → (c.probeAt + 1000000 ≤ s.now → ∃ (t : State) (a : _), exec (.partnerProbe dev) s = .next t ∧ t.fab.sent = s.fab.sent ++ [a] ∧
          a.type = 4 ∧ a.dst = dev.val ∧ t.partner dev = { c with probeAt := s.now }) ∧
        ∃ (t : State), exec (.probeAnswer dev) s = .next t ∧ t = { s with fab := { s.fab with partners := t.fab.partners } } ∧
          t.partner dev = { c with st := 1 }) ∧
      (c.st ≠ 2 → exec (.partnerProbe dev) s = .next s ∧ exec (.probeAnswer dev) s = .next s))

/-- PLANE_JOIN with an id outside the plane space or in use is refused; a join that the members refuse is reported
with its cause and changes nothing else; one that is accepted waits for a tally mark, or without marks, none
waiting, makes the device a member, with a fresh partner context where it is another device. PLANE_LEAVE of a
member waits likewise, or empties the context. PORT_SET_UPDATE: a partner's port set holds exactly the ports
that are up, reach it and are not out for an update. JOB_TAG_REQUEST at the root: a job keeps the tag it holds,
or takes the lowest free one, and a tag that a device reports is held; elsewhere this device uses the tag it is
given. JOB_TAG_RELEASE: the tag is free again when its last device releases it. (R18, R255, R256, R257, R261) -/
def Obligations.PlaneCommands : Prop :=
  ∀ s : State,
    (∀ q : JoinReq,
      (4096 ≤ q.id → s.joinRefusal q = some 1) ∧
      (q.id < 2048 → (s.fab.members.any fun m => m.1 == q.id) = true → s.joinRefusal q = some 2) ∧
      (∀ cause, s.joinRefusal q = some cause → ∃ (r : Report), exec (.planeJoin q) s =
        .next { s with errs := { s.errs with reports := s.errs.reports ++ [r] } } ∧ r.cls = 6 ∧ r.code = 5 ∧ r.detail = q.id % 4096 + cause * 2 ^ 16) ∧
      (s.joinRefusal q = none → let lic := (s.fab.pairLic.filter (· != q.id)) ++ if q.lic then [q.id] else []
        (s.marks = true → exec (.planeJoin q) s = .next { s with fab := { s.fab with pairLic := lic, joins := s.fab.joins ++ [(q.id, some q.limit)] } }) ∧
        (s.marks = false → s.fab.joins = [] → ∃ (t : State), exec (.planeJoin q) s = .next t ∧
          t.fab.members = (s.fab.members.filter fun m => m.1 != q.id) ++ [(q.id, q.limit)] ∧ t.fab.joins = [] ∧ t.fab.pairLic = lic ∧
          (q.id ≠ s.devId → t = { s with fab := t.fab, tally := t.tally } ∧ ∃ k, t.partner q.id = { st := 1, ports := k }) ∧
          (q.id = s.devId → t = { s with fab := t.fab, tally := t.tally, regs := t.regs } ∧ t.getF R.LCH.FABRIC_ID.JOINED 0 = 1)))) ∧
    (∀ dev : Fin 4096,
      ((s.fab.members.any fun m => m.1 == dev.val) = false → exec (.planeLeave dev) s = .next s) ∧
      ((s.fab.members.any fun m => m.1 == dev.val) = true →
        (s.marks = true → exec (.planeLeave dev) s = .next { s with fab := { s.fab with joins := s.fab.joins ++ [(dev.val, none)] } }) ∧
        (s.marks = false → s.fab.joins = [] → ∃ (t : State), exec (.planeLeave dev) s = .next t ∧
          t.fab.members = (s.fab.members.filter fun m => m.1 != dev.val) ∧
          (dev.val ≠ s.devId → t = { s with fab := t.fab } ∧ t.partner dev = {}) ∧
          (dev.val = s.devId → t = { s with fab := t.fab, regs := t.regs } ∧ t.getF R.LCH.FABRIC_ID.JOINED 0 = 0)))) ∧
    (∀ reach : List (Nat × Nat), ∃ (t : State), exec (.portSetUpdate reach) s = .next t ∧
      t = { s with fab := { s.fab with reach := reach, partners := t.fab.partners } } ∧
      ∀ d p, (s.partner d).st ≠ 0 → p < 40 → flag (t.partner d).ports p = (s.portUp p && !s.fab.out.contains p &&
        (if s.getF R.LPT.TRAIN_STATUS.FAR_SWITCH p = 0 then s.getF R.LPT.TRAIN_STATUS.FAR_ID p == d else reach.contains (p, d)))) ∧
    (∀ (dev : Fin 4096) (hash : List Byte) (ident : Nat) (given : Fin 65536),
      (s.isRoot = true → given.val = 0 → dev.val ≠ s.devId →
        (∀ g, s.fab.tags.find? (fun t => t.hash == hash && t.ident == ident) = some g → ∃ (t : State), exec (.jobTagRequest dev hash ident given) s = .next t ∧
          t = { s with fab := { s.fab with tags := t.fab.tags } } ∧ t.fab.tags.map (·.tag) = s.fab.tags.map (·.tag) ∧
          ∃ h ∈ t.fab.tags, h.tag = g.tag ∧ h.devs.contains dev.val = true) ∧
        (∀ n, s.fab.tags.find? (fun t => t.hash == hash && t.ident == ident) = none → 0 < n → n < 65536 → (∀ t ∈ s.fab.tags, t.tag ≠ n) →
          (∀ k, 0 < k → k < n → ∃ t ∈ s.fab.tags, t.tag = k) → exec (.jobTagRequest dev hash ident given) s =
            .next { s with fab := { s.fab with tags := s.fab.tags ++ [⟨n, hash, ident, [dev.val]⟩] } })) ∧
      (s.isRoot = true → given.val = 0 → dev.val = s.devId → let g := s.giveTag dev hash ident
        exec (.jobTagRequest dev hash ident given) s = .next (if g.2 = 0 then g.1 else g.1.useTag hash ident g.2)) ∧
      (s.isRoot = true → given.val ≠ 0 → ∃ (t : State), exec (.jobTagRequest dev hash ident given) s = .next t ∧
        t = { s with fab := { s.fab with tags := t.fab.tags } } ∧
        ∃ h ∈ t.fab.tags, h.tag = given.val ∧ h.hash = hash ∧ h.ident = ident ∧ h.devs.contains dev.val = true) ∧
      (s.isRoot = false → exec (.jobTagRequest dev hash ident given) s =
        .next (if dev.val = s.devId ∧ given.val ≠ 0 then s.useTag hash ident given else s))) ∧
    (∀ (dev : Fin 4096) (tag : Fin 65536), ∃ (t : State), exec (.jobTagRelease dev tag) s = .next t ∧ t = { s with fab := { s.fab with tags := t.fab.tags } } ∧
      (∀ g ∈ s.fab.tags, g.tag = tag.val → g.devs = [dev.val] → s.fab.tags.countP (fun x => x.tag == tag.val) = 1 → ∀ h ∈ t.fab.tags, h.tag ≠ tag.val) ∧
      ∀ g ∈ s.fab.tags, g.tag ≠ tag.val → g.devs ≠ [] → g ∈ t.fab.tags)

/-- While a control chiplet is active: WINDOW_OPEN and WINDOW_CLOSE do nothing while a close is under way;
WINDOW_OPEN with both bits gives RESULT 6, RESULT 1 for a window that is not closed, 2 within 50 µs of its
close, 3 for a range outside a writable fence of the owner, 4 for a wrong notice target; else it raises GEN by 1
modulo 256 and opens the window. WINDOW_CLOSE of an open window makes it CLOSING and BUSY; of any other it gives
RESULT 5. WINDOW_CLOSE_COMPLETE: the window is CLOSED, with its time, once nothing of it is on its way into
memory. WINDOW_NOTIFY_CHANGE sets a closed window's notice entry, of another only a target inside the owner;
else RESULT 4. While a control chiplet is active, MULTICAST_ENTRY_WRITE with a device of this device's plane
sets the selected entry of the selected group and clears REFUSED; one with a device of the other plane sets
REFUSED and leaves every entry as it is. (R259, R260, R262, R263, R264, R422) -/
def Obligations.WindowCommands : Prop :=
  (∀ s : State, s.hosted 12 0 = true → let n := s.getF R.LWT.SEL.WINDOW 0; let w := s.window n
    let only := fun (o : Ans) (x : Window) (r : Nat) => ∃ t : State, o = .next t ∧
      t = { s with regs := t.regs, fab := { s.fab with windows := t.fab.windows } } ∧ t.window n = x ∧
      (∀ k, k ≠ n → t.window k = s.window k) ∧ t.getF R.LWT.CMD.RESULT 0 = r ∧ s.regsBut t [R.LWT.CMD.RESULT.key 0];
    (∀ v : BitVec 32, s.active.isSome = true → s.getF R.LWT.CMD.BUSY 0 = 1 → exec (.windowOpen v) s = .next s ∧ exec (.windowClose v) s = .next s) ∧
    (∀ v : BitVec 32, s.active.isSome = true → s.getF R.LWT.CMD.BUSY 0 ≠ 1 →
      (v.getLsbD 0 = true → v.getLsbD 1 = true → only (exec (.windowOpen v) s) w 6) ∧
      (v.getLsbD 0 = true → v.getLsbD 1 = false → let own := s.owners w.tag
        (w.st ≠ 0 → only (exec (.windowOpen v) s) w 1) ∧
        (∀ u, w.st = 0 → w.closedAt = some u → s.now < u + 50000 → only (exec (.windowOpen v) s) w 2) ∧
        (w.st = 0 → (∀ u, w.closedAt = some u → u + 50000 ≤ s.now) →
          (2 ^ 32 < w.size ∨ w.size = 0 ∨ (∀ c ∈ own, s.rangeFenced c w.base w.size = false) → only (exec (.windowOpen v) s) w 3) ∧
          (∀ c ∈ own, 0 < w.size → w.size ≤ 2 ^ 32 → s.rangeFenced c w.base w.size = true →
            (w.nvalid = true ∧ s.targetOk own w.ncl w.nsite w.ntok = false → only (exec (.windowOpen v) s) w 4) ∧
            (¬ (w.nvalid = true ∧ s.targetOk own w.ncl w.nsite w.ntok = false) →
              only (exec (.windowOpen v) s) { w with st := 1, gen := (w.gen + 1) % 256 } 0)))) ∧
      (v.getLsbD 0 = false → v.getLsbD 1 = true →
        (w.st ≠ 1 → only (exec (.windowClose v) s) w 5) ∧
        (w.st = 1 → ∃ (t : State), exec (.windowClose v) s = .next t ∧ t = { s with regs := t.regs, fab := { s.fab with windows := t.fab.windows, closing := some n } } ∧
          t.window n = { w with st := 2 } ∧ t.getF R.LWT.CMD.BUSY 0 = 1 ∧ s.regsBut t [R.LWT.CMD.BUSY.key 0]))) ∧
    (s.fab.closing = none → exec .windowCloseComplete s = .next s) ∧
    (∀ k, s.fab.closing = some k →
      (s.landing k = true → exec .windowCloseComplete s = .next s) ∧
      (s.landing k = false → ∃ (t : State), exec .windowCloseComplete s = .next t ∧
        t = { s with regs := t.regs, fab := { s.fab with windows := t.fab.windows, closing := none } } ∧
        t.window k = { s.window k with st := 0, closedAt := some s.now } ∧
        t.getF R.LWT.CMD.BUSY 0 = 0 ∧ t.getF R.LWT.CMD.RESULT 0 = 0 ∧ s.regsBut t [R.LWT.CMD.BUSY.key 0, R.LWT.CMD.RESULT.key 0])) ∧
    (∀ v : BitVec 32, s.active.isSome = true → let cl := bits v.toNat 5 1; let site := bits v.toNat 10 6; let tok := bits v.toNat 18 11
      (w.st = 0 → only (exec (.windowNotifyChange v) s) { w with nvalid := v.getLsbD 0, ncl := cl, nsite := site, ntok := tok } (s.getF R.LWT.CMD.RESULT 0)) ∧
      (w.st ≠ 0 → s.targetOk (s.owners w.tag) cl site tok = true →
        only (exec (.windowNotifyChange v) s) { w with ncl := cl, nsite := site, ntok := tok } (s.getF R.LWT.CMD.RESULT 0)) ∧
      (w.st ≠ 0 → s.targetOk (s.owners w.tag) cl site tok = false → only (exec (.windowNotifyChange v) s) w 4))) ∧
  (∀ (s : State) (v : BitVec 32), s.active.isSome = true → s.hosted 13 0 = true → let g := s.getF R.MCG.SEL.GROUP 0; let e := s.getF R.MCG.SEL.ENTRY 0
    ∃ (t : State), exec (.multicastEntryWrite v) s = .next t ∧ t = { s with fab := { s.fab with mcast := t.fab.mcast, mcRefused := t.fab.mcRefused } } ∧
      (v.toNat % 4096 / 2048 = s.devId / 2048 → Tab.get 0 t.fab.mcRefused g = 0 ∧
        Tab.get 0 (Tab.get {} t.fab.mcast g).entries e = v.toNat % 2 ^ 31 ∧
        ∀ h k, h ≠ g ∨ k ≠ e → Tab.get 0 (Tab.get {} t.fab.mcast h).entries k = Tab.get 0 (Tab.get {} s.fab.mcast h).entries k) ∧
      (v.toNat % 4096 / 2048 ≠ s.devId / 2048 → Tab.get 0 t.fab.mcRefused g = 1 ∧ t.fab.mcast = s.fab.mcast))

/-- MARK_CMD_MARK, while a control chiplet is active, sends a mark only while SOURCE is 2 and none waits.
MARK_ARRIVAL: the oldest mark under way is taken by a free tally unit, which is then BUSY, else it waits; where
one waits already, one of the control complex is dropped. RANGE_FINGERPRINT_READ adds the terms of the words
outside poisoned sectors modulo 2^64 to FP, their number to FP_COUNT and the number of poisoned sectors to NAN
of the range's set, and changes no byte. TALLY_CONTRIBUTION_ARRIVAL: the oldest contribution adds each of its
entries. (R271, R273, R274, R278, R280, R423) -/
def Obligations.MarkCommands : Prop :=
  ∀ s : State,
    (s.active.isSome = true → s.hosted 10 0 = true →
      (s.getF R.TLY.MARK_CTL.SOURCE 0 ≠ 2 ∨ s.tally.waiting ≠ none → exec .markCmdMark s = .next s) ∧
      (s.getF R.TLY.MARK_CTL.SOURCE 0 = 2 → s.tally.waiting = none →
        exec .markCmdMark s = .next { s with tally := { s.tally with incoming := s.tally.incoming ++ [⟨none⟩] } })) ∧
    (s.tally.incoming = [] → exec .markArrival s = .next s) ∧
    (∀ m r, s.tally.incoming = m :: r → let free := s.tally.taken = none ∧ s.getF R.TLY.HOLD.HELD 0 = 0 ∧ s.tally.heldMark = none
      (s.tally.waiting = none → free → ∃ (t : State), exec .markArrival s = .next t ∧ t = { s with regs := t.regs, tally := t.tally } ∧
        t.tally.taken = some m ∧ t.tally.takenAt = s.now ∧ t.tally.incoming = r ∧ t.tally.sets = s.tally.sets ∧ t.getF R.TLY.MARK_CMD.BUSY 0 = 1) ∧
      (s.tally.waiting = none → ¬ free → exec .markArrival s = .next { s with tally := { s.tally with incoming := r, waiting := some m } }) ∧
      (s.tally.waiting ≠ none → exec .markArrival s =
        .next (if m.site = none then { s with tally := { s.tally with incoming := r } } else s))) ∧
    (∀ (n : Fin 16) m, s.tally.taken = some m → s.tally.rangesLeft.contains n.val = true →
      let g := fun (f : Fld) => s.getF (f.at 32 n) 0; let base := g R.TLY.RANGE_BASEn.BASE * 4; let words := g R.TLY.RANGE_LENn.WORDS
      let cset := g R.TLY.RANGE_CTLn.CSET; let old := fun (e : CEnt) => Tab.get 0 s.tally.sets (setKey cset e)
      let bad := ((s.flushRange base (4 * words)).poisonIn base (4 * words)).dedup
      let clean := (List.range words).filter fun j => !bad.contains (s.canon (base + 4 * j) / 64)
      cset < 256 → ∃ (t : State), exec (.rangeFingerprintRead n) s = .next t ∧ t.mem = s.mem ∧ t.cores = s.cores ∧
        t.tally.rangesLeft = s.tally.rangesLeft.erase n ∧ t.tally.taken = some m ∧
        Tab.get 0 t.tally.sets (setKey cset .nan) = min (2 ^ 32 - 1) (old .nan + bad.length) ∧
        Tab.get 0 t.tally.sets (setKey cset .fpCount) = min (2 ^ 64 - 1) (old .fpCount + clean.length) ∧
        Tab.get 0 t.tally.sets (setKey cset .fp) = (old .fp + (clean.map fun j =>
          fpTerm (g R.TLY.RANGE_TIDn.TID) j (leNat (s.memRead (base + 4 * j) 4))).sum) % 2 ^ 64 ∧
        ∀ k, k ≠ setKey cset .fpCount → k ≠ setKey cset .fp → k ≠ setKey cset .nan → Tab.get 0 t.tally.sets k = Tab.get 0 s.tally.sets k) ∧
    (∀ c r, s.tally.transit = c :: r → ∃ (t : State), exec .tallyContributionArrival s = .next t ∧
      t = { s with regs := t.regs, tally := t.tally, fresh := t.fresh } ∧
      t.tally.transit = r ∧ t.tally.dev = s.tally.dev ∧ t.tally.sets = c.sets.foldl addEntry s.tally.sets)

/-- At the latch, every entry of every counter set and every device count restarts at zero, AMAX at +0; each set's
latched AMAX is kept for the growth tripwire, TW_FIRED is not cleared, and the step number advances by 1 under
R272, with WRAP after 0xFFFF_FFFF. (R275) -/
def Obligations.LatchRestartsCounts : Prop :=
  ∀ (s : State) (m : Mark), s.tally.taken = some m → s.tally.rangesLeft = [] → s.tally.takenAt + 1000 ≤ s.now →
    let due := s.tally.transit.filter fun c => decide (c.at_ + 1000 ≤ s.now)
    let u := (each due { s with tally := { s.tally with transit := s.tally.transit.filter fun c => decide (s.now < c.at_ + 1000) } }
      fun s c => s.contribute c.sets).tripAll
    ∃ (t : State), exec .tallyLatch s = .next t ∧ (∀ k, Tab.get 0 t.tally.sets k = 0 ∧ Tab.get 0 t.tally.dev k = 0) ∧
      (∀ k, k < 256 → Tab.get 0 t.tally.prevAmax k = Tab.get 0 u.tally.sets (setKey k .amax)) ∧
      t.getF R.TLY.TW_FIRED.FIRED 0 = u.getF R.TLY.TW_FIRED.FIRED 0 ∧
      (∀ n, flag (s.getF R.TLY.TW_FIRED.FIRED 0) n = true → n < 16 → flag (t.getF R.TLY.TW_FIRED.FIRED 0) n = true) ∧
      (s.getF R.TLY.STEP.STEP 0 < 0xFFFFFFFF → t.getF R.TLY.STEP.STEP 0 = s.getF R.TLY.STEP.STEP 0 + 1 ∧
        t.getF R.TLY.WRAP.WRAP 0 = s.getF R.TLY.WRAP.WRAP 0 % 2 ^ 16) ∧
      (s.getF R.TLY.STEP.STEP 0 = 0xFFFFFFFF → t.getF R.TLY.STEP.STEP 0 = 0 ∧
        t.getF R.TLY.WRAP.WRAP 0 = (s.getF R.TLY.WRAP.WRAP 0 + 1) % 2 ^ 16)

/-- With no contribution still to arrive and no mark waiting: the record of 36,864 bytes stands at its place of the
ring of 1,024, with STEP, STATE 2 and the DIGEST of its counter sets, and no other byte of memory changes. On a
single device the marking core goes on without a hold, and with one the device holds at the step and the core
does not go on; where the program spans devices the mark waits for the gate. Before its time the latch does
nothing. (R274, R276, R281, R283, R284, R285) -/
def Obligations.LatchWritesRecord : Prop :=
  ∀ s : State, (s.tally.taken = none ∨ s.tally.rangesLeft ≠ [] ∨ s.now < s.tally.takenAt + 1000 → exec .tallyLatch s = .next s) ∧
    ∀ site : Nat, s.tally.taken = some ⟨some site⟩ → s.tally.rangesLeft = [] → s.tally.takenAt + 1000 ≤ s.now →
    s.tally.transit = [] → s.tally.waiting = none → let u := s.tripAll; let held := u.getF R.TLY.HOLD.REQUESTED 0 == 1; let r := u.tallyRecord held
    let step := s.getF R.TLY.STEP.STEP 0; step < 2 ^ 32 → ∃ (t : State), exec .tallyLatch s = .next t ∧
      r.length = 36864 ∧ leNat (r.take 4) = step ∧ r[6]? = some 2 ∧ (r.drop 0x40).take 64 = sha3_512 (setsArea s.tally.sets) ∧
      t.memRead (recordAddr s.extStep) 36864 = r ∧ s.memBut t (recordAddr s.extStep) 36864 ∧
      0x3BDC00000 ≤ recordAddr s.extStep ∧ recordAddr s.extStep + 36864 ≤ 0x3C0000000 ∧ t.tally.taken = none ∧
      (s.tally.gate.span = false → held = false → (s.core site).atMark = some tmarkCode → t.core site = (s.core site).goOn) ∧
      (s.tally.gate.span = false → held = true → (s.core site).atMark = some tmarkCode → t.core site = { s.core site with st := .held } ∧
        t.getF R.TLY.HOLD.HELD 0 = 1 ∧ t.getF R.TLY.HOLD_STEP.STEP 0 = step ∧ t.tally.heldMark = some ⟨some site⟩) ∧
      (s.tally.gate.span = true → t.tally.heldMark = some ⟨some site⟩ ∧ t.tally.gate.active = true ∧ t.tally.gate.step = step)

/-- STEP_GATE_DECISION: the root, every input of its tree there, decides GO exactly when its own and every child's
input and, in a pair, the other root's result is favourable; another device takes the decision it is given; each
tells its children. A GO ends a hold and lets the waiting TMARK go on; a HOLD holds the device at the step, sets
FLAGS[1] of that step's record and changes no other byte, with CAUSE_GATE where the cause is another device's; a
later GO ends that hold. STEP_GATE_INPUT keeps a child's input for the step under the gate, or early for the
open one. GATE_INPUT_TIMEOUT: a child late by 1 ms, or suspect, is named in a class 0x6 code 0x04 record.
GATE_DECISION_TIMEOUT: a parent that gives no decision for 1 ms leaves the tree. While a control chiplet is
active: HOLD_REQ requests a hold of the open window and shows its cause; with a step gate open, this device's
input may go again. RELEASE on a single held device ends the hold and the held TMARK goes on; on a single device
that is not held it releases nothing. In a plane the root's RELEASE, once its gate has decided a hold, goes to
its children and ends the hold; any other does nothing. (R283, R284, R285, R286) -/
def Obligations.GateCommands : Prop :=
  (∀ s : State, let g := s.tally.gate; let rec_ := recordAddr (s.extStep + 2 ^ 48 - 1) + 7
    (∀ go : Bool, g.active = true →
      (s.gateParent = none → s.gateReady = true → let d := s.gateGood && (s.getF R.LCH.FABRIC_ID.PAIR 0 == 0 || g.alone || go)
        exec (.stepGateDecision go) s = .next ((s.tellChildren d).gateDecide d)) ∧
      (s.gateParent.isSome = true → g.sentAt.isSome = true → exec (.stepGateDecision go) s = .next ((s.tellChildren go).gateDecide go)) ∧
      (s.gateParent = none ∧ s.gateReady = false ∨ s.gateParent.isSome = true ∧ g.sentAt = none → exec (.stepGateDecision go) s = .next s)) ∧
    (g.active = false →
      (g.decided = true → g.go = false → g.span = true → exec (.stepGateDecision true) s =
        .next (((s.modGate fun g => { g with go := true }).tellChildren true).releaseHold)) ∧
      exec (.stepGateDecision false) s = .next s) ∧
    (s.getF R.LCH.FABRIC_ID.PAIR 0 = 0 →
      (s.gateGood = true ↔ s.getF R.TLY.HOLD.REQUESTED 0 = 0 ∧ g.missing = [] ∧ ∀ c ∈ g.children, c.2 = true)) ∧
    (∀ d : Bool, s.tally.waiting = none → let t := (s.tellChildren d).gateDecide d
      t.tally.gate.active = false ∧ t.tally.gate.go = d ∧
      (d = true → t = { s with regs := t.regs, tally := t.tally, fab := t.fab, cores := t.cores, clusters := t.clusters } ∧ t.getF R.TLY.HOLD.HELD 0 = 0 ∧
        ∀ site, s.tally.heldMark = some ⟨some site⟩ → (s.core site).atMark = some tmarkCode → t.core site = (s.core site).goOn ∧ s.coresBut t [site]) ∧
      (d = false → s.memBut t rec_ 1 ∧ flag (leNat (t.memRead rec_ 1)) 1 = true ∧ t.getF R.TLY.HOLD.HELD 0 = 1 ∧
        t.getF R.TLY.HOLD_STEP.STEP 0 = g.step % 2 ^ 32 ∧ t.getF R.TLY.HOLD.REQUESTED 0 = 0 ∧
        (∀ site, s.tally.heldMark = some ⟨some site⟩ → (s.core site).atMark = some tmarkCode → t.core site = { s.core site with st := .held }) ∧
        (s.getF R.TLY.HOLD.REQUESTED 0 ≠ 1 → g.twin.differs = false → t.getF R.TLY.HOLD.CAUSE_GATE 0 % 2 = 1))) ∧
    (∀ (dev : Fin 4096) (step : BitVec 32) (good : Bool), s.gateChildren.contains dev.val = true →
      (g.active = true → g.step = step.toNat → ∃ (t : State), exec (.stepGateInput dev step good) s = .next t ∧ t = { s with tally := t.tally, fab := t.fab } ∧
        (dev.val, good) ∈ t.tally.gate.children ∧ t.tally.gate.since = some (g.since.getD s.now)) ∧
      (¬ (g.active = true ∧ g.step = step.toNat) → step.toNat = s.getF R.TLY.STEP.STEP 0 → exec (.stepGateInput dev step good) s =
        .next { s with tally := { s.tally with gate := { g with early := g.early ++ [(dev.val, step.toNat, good)] } } })) ∧
    (∀ (dev : Fin 4096) (step : BitVec 32) (good : Bool), s.gateChildren.contains dev.val = false → exec (.stepGateInput dev step good) s = .next s) ∧
    (∀ dev : Fin 4096, s.gateChildren.contains dev.val = true → g.active = true → (g.children.any fun c => c.1 == dev.val) = false →
      g.missing.contains dev.val = false → ((∃ u, g.since = some u ∧ u + 1000000 ≤ s.now) ∨ (s.partner dev).st = 2) → ∃ (t : State) (r : Report), exec (.gateInputTimeout dev) s = .next t ∧
        t = { s with tally := t.tally, fab := t.fab, errs := t.errs } ∧ t.tally.gate.missing = g.missing ++ [dev.val] ∧ t.tally.gate.out = g.out ++ [dev.val] ∧
        t.errs.reports = s.errs.reports ++ [r] ∧ r.cls = 6 ∧ r.code = 4 ∧ r.dev = dev.val) ∧
    (∀ u d, g.sentAt = some u → s.gateParent = some d → g.active = true → u + 1000000 ≤ s.now → ∃ (t : State), exec .gateDecisionTimeout s = .next t ∧
      t = { s with tally := t.tally, fab := t.fab } ∧ t.tally.gate.out = g.out ++ [d])) ∧
  (∀ s : State, s.active.isSome = true → s.hosted 10 0 = true →
    (∃ (t : State), exec .holdReq s = .next t ∧ t = { s with regs := t.regs, tally := t.tally, fab := t.fab, fresh := t.fresh } ∧
      t.getF R.TLY.HOLD.REQUESTED 0 = 1 ∧ t.getF R.TLY.HOLD.CAUSE_CONTROL 0 = 1 ∧ t.tally = { s.tally with gate := t.tally.gate } ∧
      (s.tally.gate.active = false → t.tally = s.tally ∧ t.fab = s.fab) ∧
      s.regsBut t [R.TLY.HOLD.REQUESTED.key 0, R.TLY.HOLD.CAUSE_CONTROL.key 0]) ∧
    (s.tally.gate.span = false → s.tally.waiting = none →
      (∀ site, s.getF R.TLY.HOLD.HELD 0 ≠ 0 → s.tally.heldMark = some ⟨some site⟩ → (s.core site).atMark = some tmarkCode →
        ∃ (t : State), exec .release s = .next t ∧ t = { s with regs := t.regs, tally := t.tally, cores := t.cores, clusters := t.clusters } ∧
        t.getF R.TLY.HOLD.HELD 0 = 0 ∧ t.core site = (s.core site).goOn ∧ s.coresBut t [site] ∧ t.tally.sets = s.tally.sets) ∧
      (s.getF R.TLY.HOLD.HELD 0 = 0 → s.tally.heldMark = none → ∃ (g : _), exec .release s = .next { s with tally := { s.tally with gate := g } })) ∧
    (s.tally.gate.span = true →
      (s.isRoot = true → s.tally.gate.active = false → s.getF R.TLY.HOLD.HELD 0 ≠ 0 → exec .release s =
        .next (((s.modGate fun g => { g with decided := true, go := true }).tellChildren true).releaseHold)) ∧
      (s.isRoot = false ∨ s.tally.gate.active = true ∨ s.getF R.TLY.HOLD.HELD 0 = 0 → exec .release s = .next s)))

/-- In a mirrored pair. TWIN_DIGEST_ARRIVAL, the first of the step, keeps the digest; against this device's own an
equal one settles the comparison, a different one counts in MISMATCHES, sets CAUSE_PAIR and is reported.
TWIN_REPLAY_COMPLETE after a mismatch: three of the four digests that agree settle it, this device, where its
original is the other, counting a transient and taking the replay's memory; without them UNRESOLVED counts and a
hold is requested. TWIN_DIGEST_TIMEOUT: a digest missing for 1 ms quarantines the device whose it is.
PLANE_REJOIN at a hold, with the digest of the last step, ends the hold. (R289, R291, R320, R321) -/
def Obligations.TwinCommands : Prop :=
  ∀ s : State, s.getF R.LCH.FABRIC_ID.PAIR 0 = 1 → let tw := s.tally.gate.twin
    (∀ d, (s.tally.gate.alone = true ∨ tw.other.isSome = true) → exec (.twinDigestArrival d) s = .next s) ∧
    (∀ d, tw.other = none → s.tally.gate.alone = false → ∃ (t : State), exec (.twinDigestArrival d) s = .next t ∧ t.tally.gate.twin.other = some d ∧ t.mem = s.mem ∧
      (tw.own = none → t.regs = s.regs ∧ t.tally.gate.twin.ok = tw.ok) ∧
      ∀ a, tw.own = some a → tw.ok = false → tw.differs = false → tw.late = false → (∀ c, tw.since = some c → c.1 = false) →
        (d = a → t.tally.gate.twin.ok = true ∧ t.regs = s.regs) ∧
        (d ≠ a → t.tally.gate.twin.ok = false ∧ t.tally.gate.twin.differs = true ∧ t.getF R.TLY.HOLD.CAUSE_PAIR 0 % 2 = 1 ∧
          t.getF R.TLY.PAIR_STATUS.MISMATCHES 0 = min 65535 (s.getF R.TLY.PAIR_STATUS.MISMATCHES 0 + 1) ∧
          ∃ r : Report, t.errs.reports = s.errs.reports ++ [r] ∧ r.cls = 6 ∧ r.code = 6)) ∧
    (∀ a b own twin state, tw.own = some a → tw.other = some b → tw.differs = true → tw.ok = false → a ≠ b →
      (own = some b → twin = some b → ∃ (t : State), exec (.twinReplayComplete own twin state) s = .next t ∧ t.tally.gate.twin.ok = true ∧ t.tally.gate.alone = s.tally.gate.alone ∧
        t.getF R.TLY.PAIR_STATUS.TRANSIENTS 0 = min 255 (s.getF R.TLY.PAIR_STATUS.TRANSIENTS 0 + 1) ∧
        ∀ x bs, state = [(x, bs)] → s.memRange x bs.length = true → x + bs.length ≤ spreadSize → t.memRead x bs.length = bs ∧ s.memBut t x bs.length) ∧
      (own = some a → twin = some a → ∃ (t : State), exec (.twinReplayComplete own twin state) s = .next t ∧ t.tally.gate.twin.ok = true ∧ t.regs = s.regs ∧
        t.mem = s.mem ∧ t.tally.gate.alone = s.tally.gate.alone) ∧
      (¬ (own = some a ∧ twin = some a) → ¬ (own = some b ∧ twin = some b) → ∃ (t : State), exec (.twinReplayComplete own twin state) s = .next t ∧
        t.tally.gate.twin.ok = false ∧ t.mem = s.mem ∧
        t.getF R.TLY.PAIR_STATUS.UNRESOLVED 0 = min 255 (s.getF R.TLY.PAIR_STATUS.UNRESOLVED 0 + 1) ∧ t.getF R.TLY.HOLD.REQUESTED 0 = 1)) ∧
    (∀ c, tw.since = some c → s.tally.gate.alone = false → tw.late = false →
      (s.now < c.2 + 1000000 → exec .twinDigestTimeout s = .next s) ∧
      (c.2 + 1000000 ≤ s.now → ∀ a, tw.own = some a → tw.other = none → ∃ (t : State) (r : Report), exec .twinDigestTimeout s = .next t ∧
        t.tally.gate.alone = true ∧ t.tally.gate.twin.ok = true ∧ t.errs.reports = s.errs.reports ++ [r] ∧ r.cls = 8 ∧ r.code = 6 ∧ r.dev = s.devId ^^^ 0x800) ∧
      (c.2 + 1000000 ≤ s.now → tw.own = none → ∃ (t : State) (r : Report), exec .twinDigestTimeout s = .next t ∧ t.tally.gate.twin.late = true ∧
        t.getF R.TLY.HOLD.REQUESTED 0 = 1 ∧ t.errs.reports = s.errs.reports ++ [r] ∧ r.cls = 8 ∧ r.code = 6 ∧ r.dev = s.devId)) ∧
    (∀ d, s.tally.gate.alone = true ∨ s.module_.quarantined.contains rootUnit = true → s.getF R.TLY.HOLD.HELD 0 ≠ 0 →
      (d ≠ s.lastDigest → exec (.planeRejoin d) s = .next s) ∧
      (d = s.lastDigest → ∃ (t : State), exec (.planeRejoin d) s = .next t ∧ t.tally.gate.alone = false ∧ t.getF R.TLY.HOLD.HELD 0 = 0 ∧
        t.module_.quarantined.contains rootUnit = false ∧ t.mem = s.mem))

/-- CLUSTER_COMMIT, when every running core of the group stands at one MARK_ID and nothing stands in the way: with
no recovery under way, each cluster's contributions go to the tally unit, its ledger restarts, its token
snapshot is taken, MARK_ID is shown and every core goes on; where a core's site is quarantined the group stops
there; else nothing happens. GROUP_REPLAY of a program in replay mode whose cores live and whose march is done
discards the pending contributions, counts in each cluster and relaunches each core, 20 µs on, with its
snapshot's tokens and those logged since; outside replay mode the job partition is reset.
RESIDUE_REPLAY_COMPLETE, a rotated replay for the site under way: where the mismatch came again, class 0x2 code
0x03 is reported and the site dies; where the group stands at a mark without one, the mismatch is confirmed
against the site and its arrays are no longer rotated; else nothing happens. (R273, R299, R303, R304, R305,
R306, R312, R320) -/
def Obligations.CommitAndReplay : Prop :=
  (∀ (s : State) (c : Fin 24), let g := s.groupOf c; g.Nodup → (∀ d ∈ g, d < 24) →
    (s.groupMark g = none → exec (.clusterCommit c) s = .next s) ∧
    (∀ id, s.groupMark g = some id →
      (s.mayCommit g = false → exec (.clusterCommit c) s = .next s) ∧
      (s.mayCommit g = true → s.quarantinedIn g = true → exec (.clusterCommit c) s = .next (s.commitHeld g c id)) ∧
      (s.mayCommit g = true → s.quarantinedIn g = false → (∀ d ∈ g, (s.cluster d).recov = none) → ∃ (t : State), exec (.clusterCommit c) s = .next t ∧
        t.mem = s.mem ∧ t.tally = { s.tally with transit := s.tally.transit ++ (g.filter fun d => !(s.cluster d).pend.isEmpty).map (fun d => ⟨(s.cluster d).pend, s.now⟩) } ∧
        (∀ d ∈ g, t.cluster d = { s.cluster d with pend := [], snap := s.tokenKeys d, ext := [], ledger := [], markBank := id % 2, marked := true } ∧
          t.getF R.CL.REPLAY_STATUS.MARK_ID d = id) ∧
        ∀ i, t.core i = if i ∈ s.liveSites g then { (s.core i).goOn with nSend := 0, nTsig := 0, passes := 0, mark0 := min (2 ^ 64 - 1) (s.getF R.CORE.INSTR_CNT.COUNT i + 1) }
          else s.core i)) ∧
    (s.jobOf c = none → exec (.groupReplay c) s = .next (if (s.cluster c).want.isSome then s.dropWant g else s)) ∧
    (∀ id j, s.jobOf c = some id → s.job id = some j →
      (s.replayOf c j = none → exec (.groupReplay c) s = .next s) ∧
      (∀ w, s.replayOf c j = some w →
        let blocked := (∃ d ∈ g, (s.cluster d).march ≠ none) ∨ ∃ i ∈ s.liveSites g, (s.core i).dead = true ∨ w.held = true ∧ s.siteState i = 3
        (j.prog.replay = false → exec (.groupReplay c) s = .next (s.resetJob id)) ∧
        (j.prog.replay = true → blocked → exec (.groupReplay c) s = .next s) ∧
        (j.prog.replay = true → ¬ blocked → s.liveSites g = [] → exec (.groupReplay c) s = .next ((s.dropWant g).reloadGroup g)) ∧
        (j.prog.replay = true → ¬ blocked → s.liveSites g ≠ [] → ∃ (t : State), exec (.groupReplay c) s = .next t ∧ t.mem = s.mem ∧
          (∀ d ∈ g, (t.cluster d).pend = [] ∧ (t.cluster d).want = none ∧
            (t.cluster d).recov = some { w with rotated := w.spin && w.site.any (s.liveSites g).contains } ∧
            t.getF R.CL.REPLAY_STATUS.STATE d = 2 ∧ t.getF R.CL.REPLAY_COUNT.REPLAYS d = min 65535 (s.getF R.CL.REPLAY_COUNT.REPLAYS d + 1)) ∧
          ∀ i ∈ s.liveSites g, (t.core i).st = .idle ∧ (t.core i).fly = [] ∧
            (∃ q, t.launchOf i = some q ∧ t.run i = some q ∧ q.resume = true ∧ q.tl = s.now + 20000) ∧
            ∀ k, k < 256 → (t.core i).token k = min 65535
              (Tab.get 0 (s.cluster (clusterOf i)).snap (tokKey i k) + Tab.get 0 (s.cluster (clusterOf i)).ext (tokKey i k)))))) ∧
  (∀ (s : State) (site : Fin 672), let c := clusterOf site; let g := s.groupOf c; let run := exec (.residueReplayComplete site) s
    ((s.cluster c).recov = none → run = .next s) ∧
    (∀ r, (s.cluster c).recov = some r →
      (r.rotated = false ∨ r.site ≠ some site.val → run = .next s) ∧
      (r.rotated = true → r.site = some site.val →
        (r.again = true → (s.core site).dead = false → ∃ t l, run = .next t ∧
          s.newReports t = (2, 3, unitCode 2 site r.sub) :: (8, 1, wholeUnit 2 site) :: l ∧ (t.core site).dead = true ∧ s.ringBut t) ∧
        (r.again = false → s.groupMark g = none ∨ s.mayCommit g = false → run = .next s) ∧
        (r.again = false → (s.groupMark g).isSome = true → s.mayCommit g = true → (∀ d ∈ g, (s.cluster d).recov = some r) →
          ∃ t, run = .next t ∧ t.errs.confirmed = s.errs.confirmed ++ [(site.val, s.now)] ∧ s.ringBut t ∧
            t.core site = { s.core site with rot := false } ∧ s.coresBut t [site.val] ∧
            ∀ d ∈ g, t.cluster d = { s.cluster d with recov := some { r with rotated := false } }))))

/-- HEARTBEAT of a living site that is on sets its time. HEARTBEAT_TIMEOUT after 8 µs without one, and
SEQUENCER_PARITY_ERROR, kill a living site once: class 0x8 code 0x01 is reported, the site is out of service and
a running group waits for its replay. CLUSTER_PARTITION_RESET: its cores keep their memories and tokens and lose
their kernels, a march starts and RESETS counts. MEMORY_MARCH_COMPLETE ends the march, and one that fails kills
the site. (R198, R311, R312, R314) -/
def Obligations.DeathsAndResets : Prop :=
  ∀ (s : State) (site : Fin 672), let c := clusterOf site
    let dies := fun (t : State) (since : Nat) => (∃ l, s.newReports t = (8, 1, wholeUnit 2 site) :: l) ∧ s.ringBut t ∧ 2 ≤ t.siteState site ∧
      ((s.core site).lull = none → t.core site = { s.core site with dead := true, goal := (t.core site).goal }) ∧
      (∀ i, i ≠ site.val → t.core i = { s.core i with goal := (t.core i).goal }) ∧
      ((s.siteJob site).isSome = true → (s.cluster c).stopped = false → (s.cluster c).want = none →
        (t.cluster c).want = some { since := since, kind := 1, site := some site.val } ∧ t.getF R.CL.REPLAY_STATUS.STATE c = 1)
    (s.regionOn c = true → (s.core site).dead = false → exec (.heartbeat site) s = .next (s.setCore site { s.core site with hbAt := s.now })) ∧
    (s.regionOn c = false ∨ (s.core site).dead = true → exec (.heartbeat site) s = .next s) ∧
    (s.watched c = false ∨ s.now < (s.core site).hbAt + 8000 ∨ (s.core site).dead = true → exec (.heartbeatTimeout site) s = .next s) ∧
    (s.watched c = true → (s.core site).hbAt + 8000 ≤ s.now → (s.core site).dead = false →
      ∃ (t : State), exec (.heartbeatTimeout site) s = .next t ∧ dies t (s.core site).hbAt) ∧
    (s.regionOn c = false ∨ (s.core site).dead = true → exec (.sequencerParityError site) s = .next s) ∧
    (s.regionOn c = true → (s.core site).dead = false → ∃ (t : State), exec (.sequencerParityError site) s = .next t ∧ dies t s.now) ∧
    (s.regionOn c = false → exec (.clusterPartitionReset site) s = .next s) ∧
    (s.regionOn c = true → ∃ (t : State) (l : _), exec (.clusterPartitionReset site) s = .next t ∧ s.newReports t = (1, 2, wholeUnit 2 site) :: l ∧ s.ringBut t ∧
      (∀ i, clusterOf i = c → t.core i = { lm := (s.core i).lm, tok := (s.core i).tok, rot := (s.core i).rot, dead := (s.core i).dead, mark0 := (s.core i).mark0, hbAt := s.now, goal := (t.core i).goal }) ∧
      (∀ i, clusterOf i ≠ c → t.core i = { s.core i with goal := (t.core i).goal }) ∧ (t.cluster c).march = some site.val ∧
      t.getF R.CL.REPLAY_COUNT.RESETS c = min 255 (s.getF R.CL.REPLAY_COUNT.RESETS c + 1)) ∧
    (∀ pass : Bool, (s.cluster c).march ≠ some site.val → exec (.memoryMarchComplete site pass) s = .next s) ∧
    ((s.cluster c).march = some site.val →
      exec (.memoryMarchComplete site true) s = .next (s.modCluster c fun x => { x with march := none }) ∧
      ((s.core site).dead = false → ∃ (t : State) (l : _), exec (.memoryMarchComplete site false) s = .next t ∧ s.newReports t = (8, 1, wholeUnit 2 site) :: l ∧
        (t.core site).dead = true ∧ (t.cluster c).march = none ∧ s.ringBut t ∧ ∀ w, (t.cluster c).want = some w → w.kind = 5))

/-- CORE_SUBSTITUTION of a dead site of a program in replay mode, or of a quarantined one whose group does not run,
no march under way: a healthy spare of its row is in service and takes the logical core and its kernel, every
other binding stays, the substitution counts and is reported; with no spare the logical cluster moves to the
free standby cluster; with neither the job partition is reset, as it is at a death outside replay mode. A site
that is neither, is in no job partition or whose cluster marches stays. JOB_PARTITION_RESET stops every core of
the partition, resets its clusters, frees it once its windows are closed and raises class 0x8 code 0x05. (R305,
R312, R318, R320) -/
def Obligations.SubstitutionAndJobReset : Prop :=
  ∀ (s : State),
    (∀ (site : Fin 672), let c := clusterOf site; let run := exec (.coreSubstitution site) s; let dead := (s.core site).dead
      (s.siteJob site = none ∨ dead = false ∧ s.siteState site ≠ 3 ∨ (s.cluster c).march.isSome = true → run = .next s) ∧
      ∀ (id : Nat) (j : Job) (l : Nat), s.siteJob site = some (id, j, l) → (s.cluster c).march = none →
        (dead = true → j.prog.replay = false → run = .next (s.resetJob id)) ∧
        (dead = false → s.atCommit (s.groupOf c) = false → run = .next s) ∧
        (dead = true ∧ j.prog.replay = true ∨ dead = false ∧ s.siteState site = 3 ∧ s.liveSites (s.groupOf c) = [] →
          (∀ e ∈ j.sites, e.2 < 672) → (∀ d ∈ s.groupOf c, d < 24) → (∀ r ∈ j.prog.routes, r.srcR < 64 ∧ r.dstR < 64) →
          let u := each (s.liveSites (s.groupOf c)) s fun s i => if i = site.val then s else s.stopForReplay i
          (∀ n, s.rowSpare site = some n → (∀ m ∈ s.mesh.toks, ∀ k, m.target ≠ .core site k) → ∃ t r, run = .next t ∧ t.siteState n = 0 ∧
            t.run n = s.run site ∧ t.run site = none ∧
            t.job id = some { j with sites := j.sites.map fun e => if e.1 = l then (e.1, n) else e } ∧
            t.getF R.CL.REPLAY_COUNT.SUBSTITUTIONS c = min 255 (s.getF R.CL.REPLAY_COUNT.SUBSTITUTIONS c + 1) ∧
            t.errs.reports = s.errs.reports ++ [r] ∧ r.cls = 8 ∧ r.code = 2 ∧ t.mem = s.mem) ∧
          (∀ d i, s.rowSpare site = none → s.freeStandby = some d → j.clusters.idxOf? c = some i → ∃ t, run = .next t ∧
            t.role d = 0 ∧ t.role c = 2 ∧ (t.job id).map (·.clusters) = some (j.clusters.set i d)) ∧
          (s.rowSpare site = none → s.freeStandby = none → run = .next (u.resetJob id)))) ∧
    (∀ job : Fin 256, let run := exec (.jobPartitionReset job) s
      (s.job job = none → run = .next s) ∧
      ∀ j : Job, s.job job = some j → (∀ d ∈ j.clusters, d < 24) → ∃ t r, run = .next t ∧
        (∀ e ∈ j.sites, t.run e.2 = none ∧ t.launchOf e.2 = none) ∧ (∀ d ∈ j.clusters, t.cluster d = {}) ∧
        t.errs.reports = s.errs.reports ++ [r] ∧ r.cls = 8 ∧ r.code = 5 ∧
        ((∀ w ∈ j.windows, (s.window w).st = 0) → t.job job = none ∧ ∀ d ∈ j.clusters, t.getF R.CL.JOB.ACTIVE d = 0) ∧
        ((∃ w ∈ j.windows, (s.window w).st ≠ 0 ∧ s.landing w = true) → t.job job = some { j with releasing := true, failed := true }))

/-- LULL_SLICE_START of the site whose turn it is, in a cluster where lull tests are on and none is active: ACTIVE
and SITE show the slice, it counts, and what it disturbs is saved in the cluster's area of memory;
LULL_SLICE_YIELD then gives every byte of local space and the vector registers its value from before. A first
failure is reported as class 0x3 code 0x02, and one at the site's next turn counts in FAILS. In every other case
neither does anything. (R308, R309, R310) -/
def Obligations.LullSlices : Prop :=
  ∀ (s : State) (site : Fin 672) (array outcome : Fin 4) (buddy : Fin 672), let c := clusterOf site; let x := s.core site
    let failed := Tab.get 0 (s.cluster c).lullFail (site.val % 28)
    (s.getF R.CL.LULL_CTL.EN c = 0 ∨ s.getF R.CL.LULL_STATUS.ACTIVE c = 1 ∨ s.lullTurn c ≠ some site.val →
      exec (.lullSliceStart site array outcome buddy) s = .next s) ∧
    (x.lull = none → exec (.lullSliceYield site) s = .next s) ∧
    (s.getF R.CL.LULL_CTL.EN c ≠ 0 → s.getF R.CL.LULL_STATUS.ACTIVE c ≠ 1 → s.lullTurn c = some site.val →
      (∃ (t : State), exec (.lullSliceStart site array outcome buddy) s = .next t ∧ t.getF R.CL.LULL_STATUS.ACTIVE c = 1 ∧
        t.getF R.CL.LULL_STATUS.SITE c = site.val % 28 ∧ t.getF R.CL.LULL_STATUS.SLICES c = min 65535 (s.getF R.CL.LULL_STATUS.SLICES c + 1) ∧
        (outcome = 0 → t.errs = { s.errs with met := t.errs.met }) ∧
        (outcome = 1 → failed = 0 → ∃ r, t.errs.reports = s.errs.reports ++ [r] ∧ r.cls = 3 ∧ r.code = 2 ∧
          Tab.get 0 (t.cluster c).lullFail (site.val % 28) = 1 ∧ t.getF R.CL.LULL_STATUS.FAILS c = s.getF R.CL.LULL_STATUS.FAILS c) ∧
        (outcome = 1 → failed ≠ 0 → ∃ l, s.newReports t = (3, 2, wholeUnit 2 site) :: l ∧
          Tab.get 0 (t.cluster c).lullFail (site.val % 28) = 0 ∧ t.getF R.CL.LULL_STATUS.FAILS c = min 255 (s.getF R.CL.LULL_STATUS.FAILS c + 1))) ∧
      (x.lull = none → ∃ (t : State) (u : State), exec (.lullSliceStart site array 0 buddy) s = .next t ∧ exec (.lullSliceYield site) t = .next u ∧
        s.coresBut t [site.val] ∧ s.canonBut t (lullArea c) (27648 + x.shd.codes.length + x.shd.scales.length) ∧ u.mem = t.mem ∧
        u.core site = { x with lm := (u.core site).lm, v := (u.core site).v } ∧ u.getF R.CL.LULL_STATUS.ACTIVE c = 0 ∧
        ∀ b, Tab.get 0 (u.core site).lm b = Tab.get 0 x.lm b ∧ Tab.get 0 (u.core site).v b = Tab.get 0 x.v b))

/-- ERROR_REPORT of this device's oldest report: one whose key an open record of its aggregator holds adds 1 to its
ECHO; another opens a record, which at the device aggregator takes the next RSEQ and its place in the ring, or
waits in the early store while the ring is disabled; a full early store counts it as lost. A cluster's new
record passes to the device aggregator too. A record from another device is folded at the plane root only.
RECORD_CLOSE closes a record 100 ms after it opened. While a control chiplet is active, RING_BASE_WRITE of a
valid base writes the early store into the ring, and CAPTURE_SLOT_FREE clears the slots written as 1 that were
not set in the same cycle. (R293, R296, R297, R298, R325) -/
def Obligations.ErrorAggregation : Prop :=
  ∀ s : State,
    (s.errs.reports = [] → exec (.errorReport .own) s = .next s) ∧
    (∀ r rest, s.errs.reports = r :: rest → aggregatorOf r = 24 → r.remote = false →
      (∀ e, (s.aggOf 24).find? (sameKey r 1) = some e → ∃ (t : State), exec (.errorReport .own) s = .next t ∧ t = { s with regs := t.regs, errs := t.errs } ∧
        t.errs.reports = rest ∧ (let e' := { e with echo := min (2 ^ 32 - 1) (e.echo + 1) }
          t.aggOf 24 = ((s.aggOf 24).map fun x => if x = e then e' else x) ∧
          t.errs.early = s.errs.early.map fun x => if x.rseq = e.rseq then e' else x) ∧
        t.getF R.ERR.REPORTS.REPORTS 24 = min (2 ^ 32 - 1) (s.getF R.ERR.REPORTS.REPORTS 24 + 1)) ∧
      ((s.aggOf 24).find? (sameKey r 1) = none → (s.aggOf 24).length < 256 → let head := s.getF R.ERR.RING_HEAD.RSEQ 24
        (s.ringOn = false → s.errs.early.length < 64 → ∃ (t : State) (e : _), exec (.errorReport .own) s = .next t ∧ t = { s with regs := t.regs, errs := t.errs } ∧
          e.rep = r ∧ e.echo = 0 ∧ e.tier = 1 ∧ e.rseq = some head ∧ t.aggOf 24 = s.aggOf 24 ++ [e] ∧ t.errs.early = s.errs.early ++ [e] ∧
          t.getF R.ERR.RING_HEAD.RSEQ 24 = (head + 1) % 2 ^ 32) ∧
        (s.ringOn = false → 64 ≤ s.errs.early.length → ∃ (t : State) (e : _), exec (.errorReport .own) s = .next t ∧ e.rep = r ∧ e.rseq = none ∧
          t.aggOf 24 = s.aggOf 24 ++ [e] ∧ t.errs.early = s.errs.early ∧ t.mem = s.mem ∧
          t.getF R.ERR.RING_STATUS.OVERFLOW 24 = min 65535 (s.getF R.ERR.RING_STATUS.OVERFLOW 24 + 1) ∧ t.getF R.ERR.RING_HEAD.RSEQ 24 = head) ∧
        (s.ringOn = true → (head + 2 ^ 32 - s.getF R.ERR.RING_TAIL.RSEQ 24) % 2 ^ 32 ≠ 4096 → ∃ (t : State) (e : _), exec (.errorReport .own) s = .next t ∧
          e.rep = r ∧ e.rseq = some head ∧ t.aggOf 24 = s.aggOf 24 ++ [e] ∧ t.memRead (s.ringAt head) 64 = e.bytes ∧ s.canonBut t (s.ringAt head) 64 ∧
          t.getF R.ERR.RING_HEAD.RSEQ 24 = (head + 1) % 2 ^ 32))) ∧
    (∀ r rest k, s.errs.reports = r :: rest → aggregatorOf r = k → k ≠ 24 →
      (∀ e, (s.aggOf k).find? (sameKey r 0) = some e → ∃ (t : State), exec (.errorReport .own) s = .next t ∧ t = { s with regs := t.regs, errs := t.errs } ∧
        t.errs.reports = rest ∧ t.aggOf k = (s.aggOf k).map fun x => if x = e then { e with echo := min (2 ^ 32 - 1) (e.echo + 1) } else x) ∧
      ((s.aggOf k).find? (sameKey r 0) = none → (s.aggOf k).length < 32 → ∃ (t : State) (e : _), exec (.errorReport .own) s = .next t ∧
        t.errs.reports = rest ∧ t.aggOf k = s.aggOf k ++ [e] ∧ e.rep = r ∧ e.echo = 0 ∧ e.tier = 0 ∧ s.ringBut t ∧
        t.getF R.ERR.REPORTS.REPORTS 24 = min (2 ^ 32 - 1) (s.getF R.ERR.REPORTS.REPORTS 24 + 1))) ∧
    (∀ b : List Byte, (s.isRoot = false → exec (.errorReport (.remote b)) s = .next s) ∧
      (s.isRoot = true → exec (.errorReport (.remote b)) s = .next (s.foldDevice (Report.ofRecord b).1 2 ((Report.ofRecord b).2 + 1)))) ∧
    (∀ (site : Fin 672) (sym : BitVec 32), (s.regionOn (clusterOf site) = false → exec (.errorReport (.corrected site sym)) s = .next s) ∧
      (s.regionOn (clusterOf site) = true → exec (.errorReport (.corrected site sym)) s =
        .next (s.reportSite site 1 1 0x3FFF 0 0 0 sym.toNat).takeReport)) ∧
    (∀ (agg : Fin 25) n, ((s.aggOf agg)[n]? = none ∨ ∃ e, (s.aggOf agg)[n]? = some e ∧ s.now < e.since + 100000000) →
      exec (.recordClose agg n) s = .next s) ∧
    (∀ (agg : Fin 25) n e, (s.aggOf agg)[n]? = some e → e.since + 100000000 ≤ s.now →
      (agg.val = 24 → e.rseq = none → ∃ (t : State), exec (.recordClose agg n) s = .next t ∧ t = { s with errs := t.errs } ∧ t.aggOf 24 = (s.aggOf 24).eraseIdx n) ∧
      (agg.val = 24 → ∀ q, e.rseq = some q → (∃ x ∈ s.errs.early, x.rseq = some q) → ∃ (t : State), exec (.recordClose agg n) s = .next t ∧ t = { s with errs := t.errs } ∧
        t.aggOf 24 = (s.aggOf 24).eraseIdx n ∧
        t.errs.early = s.errs.early.map fun x => if x.rseq = some q then { e with flags := e.flags ||| 1, open_ := false } else x) ∧
      (agg.val ≠ 24 → e.echo = 0 → ∃ (t : State), exec (.recordClose agg n) s = .next t ∧ t = { s with errs := t.errs } ∧ t.aggOf agg = (s.aggOf agg).eraseIdx n) ∧
      (agg.val ≠ 24 → e.echo ≠ 0 → exec (.recordClose agg n) s = .next ((s.setAgg agg ((s.aggOf agg).eraseIdx n)).deviceReport e.rep e.echo))) ∧
    (s.active.isSome = true → s.hosted 9 24 = true →
      (∀ v : BitVec 64, v.toNat < 2 ^ 52 → ringOk (v.toNat / 4096) = true → let at_ := v.toNat / 4096 * 4096
        ∃ (t : State), exec (.ringBaseWrite v) s = .next t ∧ t.errs.early = [] ∧ t.getF R.ERR.RING_BASE.BASE 24 = v.toNat / 4096 ∧
          (s.errs.early = [] → t.mem = s.mem) ∧ ∀ e q, s.errs.early = [e] → e.rseq = some q →
            t.memRead (at_ + 64 * (q % 4096)) 64 = e.bytes ∧ s.canonBut t (at_ + 64 * (q % 4096)) 64) ∧
      (∀ v : BitVec 16, ∃ (t : State), exec (.captureSlotFree v) s = .next t ∧ t = { s with regs := t.regs } ∧ ∀ i, i < 16 → s.getF R.ERR.CAPTURE.IN_USE 24 < 65536 →
        flag (t.getF R.ERR.CAPTURE.IN_USE 24) i = (flag (s.getF R.ERR.CAPTURE.IN_USE 24) i &&
          !(v.getLsbD i && !flag (Tab.get 0 s.fresh (R.ERR.CAPTURE.IN_USE.key 24)) i)))) ∧
    (s.active.isSome = true → s.hosted 9 24 = false → (∀ v, exec (.ringBaseWrite v) s = .next s) ∧ ∀ v, exec (.captureSlotFree v) s = .next s)

/-- REFERENCE_SWITCH moves a region that is on, its generator's regions together, to the first live source of its
list and counts it; REFERENCE_LOSS, with none, puts it on the tree and raises class 0x7 code 0x09.
TREE_CLOCK_SET of a powered compute region returns it to its forwarded reference, its DEV_TIME set.
DEV_TIME_STEP, while a control chiplet is active, steps forward, with no job partition and not joined, once
before the first compute region is powered or in a re-base; else DEV_TIME is unchanged. RATE_WORD_CHANGE takes
effect at its count. PTP_SYNC_RECEIVE on a running chiplet's port shows there, and on the steering port, which
is the active chiplet's, sets the bound and, with DEV_TIME synchronized, steers. PTP_OFFSET_BOUND_EXCEEDED over
40 µs raises class 0x7 code 0x0B and requests a hold; PTP_SYNC_LOSS after 1 s moves steering to the other port.
(R328, R330, R332, R333, R362) -/
def Obligations.ClockCommands : Prop :=
  ∀ (s : State),
    (∀ (r : Fin 36) (live : BitVec 38), let ok := fun k => liveSource live.toNat k && s.sourceOn k
      (s.regionOn r = false ∨ (refSources r).find? ok = none → exec (.referenceSwitch r live) s = .next s) ∧
      (s.regionOn r = false ∨ (refSources r).any ok = true → exec (.referenceLoss r live) s = .next s) ∧
      (∀ k, s.regionOn r = true → (refSources r).find? ok = some k →
        (s.getF R.RGN.REF.SRC r = k → s.getF R.RGN.REF.TREE r = 0 → exec (.referenceSwitch r live) s = .next s) ∧
        (s.getF R.RGN.REF.SRC r ≠ k ∨ s.getF R.RGN.REF.TREE r ≠ 0 → ∃ (t : State), exec (.referenceSwitch r live) s = .next t ∧
          t = { s with regs := t.regs } ∧ ∀ g ∈ generator r, t.getF R.RGN.REF.SRC g = k ∧ t.getF R.RGN.REF.LOCKED g = 1 ∧
            t.getF R.RGN.REF.TREE g = 0 ∧ t.getF R.RGN.REF.SWITCHES g = min 255 (s.getF R.RGN.REF.SWITCHES g + 1))) ∧
      (s.regionOn r = true → (refSources r).any ok = false → ∃ (t : State) (x : Report), exec (.referenceLoss r live) s = .next t ∧
        t = { s with regs := t.regs, errs := t.errs, regions := t.regions } ∧ t.errs.reports = s.errs.reports ++ [x] ∧ x.cls = 7 ∧ x.code = 9 ∧
        ∀ g ∈ generator r, t.getF R.RGN.REF.LOCKED g = 1 ∧ t.getF R.RGN.REF.TREE g = 1 ∧ t.region g = { s.region g with timeSet := false })) ∧
    (∀ r : Fin 36, let st := s.getF R.RGN.POWER_CTL.STATE r; let may := r.val < 30 ∧ s.module_.v36 = true ∧ 3 ≤ st ∧ st ≤ 5
      (¬ may → exec (.treeClockSet r) s = .next s) ∧
      (may → ∃ (t : State), exec (.treeClockSet r) s = .next t ∧ t = { s with regs := t.regs, regions := t.regions } ∧
        t.region r = { s.region r with timeSet := true } ∧ t.getF R.RGN.REF.LOCKED r = 1 ∧
        ∀ k, (refSources r).find? s.sourceOn = some k → t.getF R.RGN.REF.SRC r = k ∧ t.getF R.RGN.REF.TREE r = 0)) ∧
    (∀ v : BitVec 64, s.active.isSome = true → let may := s.allJobs = [] ∧ s.joined = false ∧ s.now ≤ v.toNat ∧
        (s.ctl.stepped = false ∧ s.ctl.everOn = false ∨ s.ctl.holdAdm = true ∧ s.synced = false)
      (¬ may → exec (.devTimeStep v) s = .next s) ∧
      (may → ∃ (t : State), exec (.devTimeStep v) s = .next t ∧ t = { s with time := t.time, regs := t.regs, ctl := { s.ctl with stepped := true } } ∧
        t.now = v.toNat ∧ s.regsBut t [R.SEC.BOOT_STATUS.SYNCED.key 0] ∧ (s.ptpSeen = true → s.ctl.holdAdm = false → t.synced = true))) ∧
    (let due := s.module_.v36 = true ∧ s.ctl.rateAt ≠ 0 ∧ s.ctl.rateAt ≤ s.now;
      (¬ due → exec .rateWordChange s = .next s) ∧
      (due → exec .rateWordChange s = .next { s with rate := s.getF R.ROOT.TIME_RATE.ADJ 0, ctl := { s.ctl with rateAt := 0 } })) ∧
    (∀ (p : Fin 2) (gm : BitVec 64) (bound : Nat),
      (s.module_.v36 = false ∨ (s.cc p).running = false → exec (.ptpSyncReceive p gm bound) s = .next s) ∧
      (s.module_.v36 = true → (s.cc p).running = true → ∃ (t : State), exec (.ptpSyncReceive p gm bound) s = .next t ∧
        t = { s with regs := t.regs, ctl := { s.ctl with syncAt := t.ctl.syncAt, rateAt := t.ctl.rateAt } } ∧
        t.getF (mgmtUp p) 0 = 1 ∧ t.getF (mgmtSeen p) 0 = 1 ∧ Tab.get 0 t.ctl.syncAt p = s.now ∧
        (s.active = some p.val ∨ s.getF R.ROOT.PTP_STATUS.PORT 0 = p.val → t.getF R.ROOT.PTP_STATUS.PORT 0 = p.val ∧
          t.getF R.ROOT.PTP_STATUS.BOUND 0 = min 65535 ((bound + 9) / 10) ∧ (t.getF R.ROOT.PTP_STATUS.LOCKED 0 = 1 ↔ bound ≤ 1000) ∧
          (s.synced = true → t.ctl.rateAt = (s.now / 10000 + 1) * 10000) ∧ (s.synced = false → t.ctl.rateAt = s.ctl.rateAt)) ∧
        (s.active ≠ some p.val → s.getF R.ROOT.PTP_STATUS.PORT 0 ≠ p.val → t.ctl.rateAt = s.ctl.rateAt ∧
          s.regsBut t [(mgmtUp p).key 0, (mgmtSeen p).key 0]))) ∧
    (∀ bound : Nat, (s.module_.v36 = false ∨ bound ≤ 40000 → exec (.ptpOffsetBoundExceeded bound) s = .next s) ∧
      (40000 < bound → s.module_.v36 = true → ∃ (t : State) (x : Report), exec (.ptpOffsetBoundExceeded bound) s = .next t ∧
        t = { s with regs := t.regs, errs := t.errs, fresh := t.fresh, tally := t.tally, fab := t.fab } ∧
        t.errs.reports = s.errs.reports ++ [x] ∧ x.cls = 7 ∧ x.code = 0xB ∧ flag (t.getF (R.PAGE_EVENT.EVENT 0) 0) 3 = true ∧
        (s.hosted 10 0 = true → t.getF R.TLY.HOLD.REQUESTED 0 = 1))) ∧
    (∀ p : Fin 2, s.getF R.ROOT.PTP_STATUS.PORT 0 = p.val →
      let lost := s.module_.v36 = true ∧ s.getF (mgmtSeen p) 0 ≠ 0 ∧ Tab.get 0 s.ctl.syncAt p + 1000000000 ≤ s.now
      (¬ lost → exec .ptpSyncLoss s = .next s) ∧
      (lost → ∃ (t : State) (x : Report), exec .ptpSyncLoss s = .next t ∧ t = { s with regs := t.regs, errs := t.errs } ∧
        t.errs.reports = s.errs.reports ++ [x] ∧ x.cls = 9 ∧ x.code = 8 ∧ t.getF (mgmtSeen p) 0 = 0 ∧
        t.getF R.ROOT.PTP_STATUS.PORT 0 = 1 - p.val))

/-- FRONT_ARM, while a control chiplet is active: a front is refused while one is pending, closer than 100 µs,
during a switch-on and for an undefined point, in that order, and RESULT shows which; else it is pending.
FRONT_CANCEL before the ramp's time withdraws it, and every region that is on runs at the old point; later it
does nothing. FRONT_RAMP_START gives every compute bank that is on its target voltage, a rising front's at T_F
less 50 ns per mV and 5 µs, a lowering one's 1 µs after T_F and only with every region at the target, which
completes it. FRONT_DIVIDER_CHANGE at or after T_F, of a rising front only after the ramp began, gives the
region its operating point; with the last one, 1 µs after T_F, the front completes. (R334, R335, R336) -/
def Obligations.FrontCommands : Prop :=
  ∀ (s : State), let tf := s.getF R.RGN.FRONT_TIME.T_F 0; let up := opVolt s.ctl.front - opVolt (s.getF R.RGN.FRONT_CTL.CURRENT 0)
    let start := if up = 0 then tf + 1000 else tf - (50 * up + 5000)
    let done := fun (t : State) => t.getF R.RGN.FRONT_CTL.PENDING 0 = 0 ∧ t.getF R.RGN.FRONT_CTL.RESULT 0 = 0 ∧ t.getF R.RGN.FRONT_CTL.CURRENT 0 = s.ctl.front
    let same := fun (t : State) => t.getF R.RGN.FRONT_CTL.PENDING 0 = s.getF R.RGN.FRONT_CTL.PENDING 0 ∧
      t.getF R.RGN.FRONT_CTL.CURRENT 0 = s.getF R.RGN.FRONT_CTL.CURRENT 0
    (∀ v : BitVec 32, s.active.isSome = true → (flag v.toNat 3 = false → exec (.frontArm v) s = .next s) ∧
      (flag v.toNat 3 = true → flag v.toNat 4 = true → exec (.frontArm v) s =
        .next ((s.setF R.RGN.FRONT_CTL.TARGET 0 v.toNat).frontCancel.frontArm (bits v.toNat 2 0))) ∧
      (flag v.toNat 3 = true → flag v.toNat 4 = false → let g := bits v.toNat 2 0
        ∃ (t : State), exec (.frontArm v) s = .next t ∧ t = { s with regs := t.regs, ctl := t.ctl } ∧ t.getF R.RGN.FRONT_CTL.TARGET 0 = g ∧
        (s.frontPending = true → t.getF R.RGN.FRONT_CTL.RESULT 0 = 1 ∧ t.ctl = s.ctl) ∧
        (s.frontPending = false → tf < s.now + 100000 → t.getF R.RGN.FRONT_CTL.RESULT 0 = 2 ∧ t.ctl = s.ctl) ∧
        (s.frontPending = false → s.now + 100000 ≤ tf →
          ((∃ r, r < 30 ∧ 1 ≤ s.getF R.RGN.POWER_CTL.STATE r ∧ s.getF R.RGN.POWER_CTL.STATE r ≤ 3) → t.getF R.RGN.FRONT_CTL.RESULT 0 = 3 ∧ t.ctl = s.ctl) ∧
          ((∀ r, r < 30 → s.getF R.RGN.POWER_CTL.STATE r = 0 ∨ 4 ≤ s.getF R.RGN.POWER_CTL.STATE r) →
            (g = 0 ∨ 4 < g → t.getF R.RGN.FRONT_CTL.RESULT 0 = 4 ∧ t.ctl = s.ctl) ∧
            (1 ≤ g → g ≤ 4 → t.getF R.RGN.FRONT_CTL.PENDING 0 = 1 ∧ t.ctl = { s.ctl with front := g, ramp := false }))))) ∧
    (s.active.isSome = true →
      (s.frontPending = false ∨ s.ctl.ramp = true ∨ start ≤ s.now → exec .frontCancel s = .next s) ∧
      (s.frontPending = true → s.ctl.ramp = false → s.now < start → ∃ (t : State), exec .frontCancel s = .next t ∧ t = { s with regs := t.regs } ∧
        t.getF R.RGN.FRONT_CTL.PENDING 0 = 0 ∧ t.getF R.RGN.FRONT_CTL.RESULT 0 = 5 ∧
        ∀ r ∈ s.onRegions, t.getF R.RGN.OP_STATUS.OP r = s.getF R.RGN.FRONT_CTL.CURRENT 0 % 8)) ∧
    (let changed := ∀ r ∈ s.onRegions, s.getF R.RGN.OP_STATUS.OP r = s.ctl.front;
      (s.frontPending = false ∨ s.now < start ∨ up = 0 ∧ ¬ changed → exec .frontRampStart s = .next s) ∧
      (s.frontPending = true → start ≤ s.now → up ≠ 0 ∨ changed → ∃ (t : State), exec .frontRampStart s = .next t ∧
        t = { s with regs := t.regs, ctl := { s.ctl with ramp := true } } ∧
        (∀ r ∈ s.onRegions, ((t.getF R.RGN.OP_STATUS.VTARGET r : Nat) : Int) = max 0 ((opVolt s.ctl.front : Int) + s.trim r)) ∧
        (changed → tf + 1000 ≤ s.now → s.ctl.front < 8 → done t) ∧ (¬ changed ∨ s.now < tf + 1000 → same t))) ∧
    (∀ r : Fin 30, let may := s.frontPending = true ∧ tf ≤ s.now ∧ s.regionOn r = true ∧ (up = 0 ∨ s.ctl.ramp = true)
      (¬ may → exec (.frontDividerChange r) s = .next s) ∧
      (may → s.ctl.front < 8 → ∃ (t : State), exec (.frontDividerChange r) s = .next t ∧ t = { s with regs := t.regs } ∧
        t.getF R.RGN.OP_STATUS.OP r = s.ctl.front ∧ (let last := ∀ q ∈ s.onRegions, q ≠ r.val → s.getF R.RGN.OP_STATUS.OP q = s.ctl.front;
          (s.ctl.ramp = true → tf + 1000 ≤ s.now → last → done t) ∧
          (s.ctl.ramp = false ∨ s.now < tf + 1000 ∨ ¬ last → same t))))

/-- In a region that is on: DROOP_STRETCH stretches the next period unless one of the last 3 was stretched or 12 of
the last 95 were, and counts it. PACE_GROUP_START takes the largest request, and a group at level p paces p of
its 16 cycles. SQUALL_TRIGGER above the threshold raises its request to LEVEL and counts; SQUALL_DECAY lowers it
by 1 after 1 µs below the threshold. CURRENT_GOVERNOR_TICK notes the current and, in a cluster region, moves its
request by 1 within 0 to 15, up above the limit and down below 90 % of it; THERMAL_PACE_TICK does so around
PACE_C. In a region that is off they do nothing. THERMAL_SAMPLE shows the highest reading and keeps the peak.
(R337, R343, R344, R345, R346, R348) -/
def Obligations.PaceCommands : Prop :=
  ∀ (s : State),
    (∀ r : Fin 30, s.regionOn r = false → (∀ mv, exec (.droopStretch r mv) s = .next s) ∧ exec (.paceGroupStart r) s = .next s ∧
      (∀ a, exec (.squallTrigger r a) s = .next s) ∧ (∀ a, exec (.squallDecay r a) s = .next s) ∧
      (∀ a, exec (.currentGovernorTick r a) s = .next s) ∧ exec (.thermalPaceTick r) s = .next s) ∧
    (∀ r : Fin 30, s.regionOn r = true →
      (∀ mv : Nat, let past := (s.region r).stretch; let vt := s.getF R.RGN.OP_STATUS.VTARGET r
        let no := vt ≤ mv + 35 ∨ (∃ i : Nat, i < 3 ∧ past[i]? = some true) ∨ 12 ≤ (past.take 95).countP id
        (no → ∃ (t : State), exec (.droopStretch r mv) s = .next t ∧ t = { s with regions := t.regions } ∧
          t.region r = { s.region r with stretch := (false :: past).take 95 }) ∧
        (¬ no → ∃ (t : State), exec (.droopStretch r mv) s = .next t ∧ t = { s with regs := t.regs, regions := t.regions, tally := { s.tally with dev := t.tally.dev } } ∧
          t.region r = { s.region r with stretch := (true :: past).take 95 } ∧
          t.getF R.RGN.STRETCH.COUNT r = min (2 ^ 32 - 1) (s.getF R.RGN.STRETCH.COUNT r + 1) ∧
          Tab.get 0 t.tally.dev 0xAC = min (2 ^ 32 - 1) (Tab.get 0 s.tally.dev 0xAC + 1))) ∧
      (∃ (t : State) (p : _), exec (.paceGroupStart r) s = .next t ∧ t = { s with regions := t.regions } ∧ t.region r = { s.region r with level := p } ∧
        (∀ f ∈ [R.RGN.PACE.SQUALL, R.RGN.PACE.CURRENT, R.RGN.PACE.THERMAL, R.RGN.PACE.MODULE, R.RGN.PACE.ADMIT, R.RGN.PACE_FORCE.LEVEL],
          s.getF f r ≤ p) ∧
        (p = 0 ∨ ∃ f ∈ [R.RGN.PACE.SQUALL, R.RGN.PACE.CURRENT, R.RGN.PACE.THERMAL, R.RGN.PACE.MODULE, R.RGN.PACE.ADMIT, R.RGN.PACE_FORCE.LEVEL],
          s.getF f r = p) ∧ (p ≤ 15 → (List.range 16).countP (paced p) = p)) ∧
      (∀ slope : Nat, let th := max 1 (s.getF R.RGN.SQUALL.THRESH r); let q := s.getF R.RGN.PACE.SQUALL r
        (th < slope → ∃ (t : State), exec (.squallTrigger r slope) s = .next t ∧ t = { s with regs := t.regs, regions := t.regions } ∧
          t.getF R.RGN.PACE.SQUALL r = max q (s.getF R.RGN.SQUALL.LEVEL r) % 16 ∧
          t.getF R.RGN.SQUALL.EVENTS r = min 65535 (s.getF R.RGN.SQUALL.EVENTS r + 1) ∧ t.region r = { s.region r with lowSince := none }) ∧
        (slope ≤ th → exec (.squallTrigger r slope) s = .next s) ∧
        (th ≤ slope → exec (.squallDecay r slope) s = .next (s.modRegion r fun x => { x with lowSince := none })) ∧
        (slope < th → (s.region r).lowSince = none → exec (.squallDecay r slope) s = .next (s.modRegion r fun x => { x with lowSince := some s.now })) ∧
        (∀ t0, slope < th → (s.region r).lowSince = some t0 →
          (s.now < t0 + 1000 → exec (.squallDecay r slope) s = .next s) ∧
          (t0 + 1000 ≤ s.now → q < 16 → ∃ (t : State), exec (.squallDecay r slope) s = .next t ∧ t = { s with regs := t.regs, regions := t.regions } ∧
            t.getF R.RGN.PACE.SQUALL r = q - 1 ∧ s.regsBut t [R.RGN.PACE.SQUALL.key r]))) ∧
      (∀ amps : Nat, s.getF R.RGN.PACE.CURRENT r < 16 → let most := if r.val < 24 then 528 else 264; let lim := min most (12 * s.getF R.RGN.PHASES.HEALTHY r)
        ∃ (t : State), exec (.currentGovernorTick r amps) s = .next t ∧ t = { s with regs := t.regs, regions := t.regions } ∧
          t.region r = { s.region r with amps := amps, lastHigh := if 9 * most < amps then some s.now else (s.region r).lastHigh } ∧
          s.regsBut t [R.RGN.PACE.CURRENT.key r] ∧ t.getF R.RGN.PACE.CURRENT r =
            if r.val < 24 ∧ 10 * lim < amps then min 15 (s.getF R.RGN.PACE.CURRENT r + 1)
            else if r.val < 24 ∧ amps < 9 * lim then s.getF R.RGN.PACE.CURRENT r - 1 else s.getF R.RGN.PACE.CURRENT r) ∧
      (s.getF R.RGN.PACE.THERMAL r < 16 → let p : Int := 16 * ((min (s.getF R.RGN.THERM_CTL.PACE_C r) (s.tripC - 1) : Nat) : Int)
        ∃ (t : State), exec (.thermalPaceTick r) s = .next t ∧ t = { s with regs := t.regs, regions := t.regions } ∧
          s.regsBut t [R.RGN.PACE.THERMAL.key r] ∧ t.getF R.RGN.PACE.THERMAL r =
            if p < s.temp r then min 15 (s.getF R.RGN.PACE.THERMAL r + 1)
            else if s.temp r < p - 48 then s.getF R.RGN.PACE.THERMAL r - 1 else s.getF R.RGN.PACE.THERMAL r)) ∧
    (∀ (r : Fin 36) (l : List Int), (s.module_.v36 = false ∨ l = [] → exec (.thermalSample r l) s = .next s) ∧
      (s.module_.v36 = true → l ≠ [] → l.length ≤ sensorsOf r → (∀ x ∈ l, -2 ^ 15 ≤ x ∧ x < 2 ^ 15) → (s.region r).calib = none →
        ∃ (t : State), exec (.thermalSample r l) s = .next t ∧ t = { s with regs := t.regs, regions := t.regions } ∧ t.temp r ∈ l ∧ (∀ x ∈ l, x ≤ t.temp r) ∧
          sext 16 (t.getF R.RGN.THERM.PEAK r) =
            if (s.region r).sampled then max (t.temp r) (sext 16 (s.getF R.RGN.THERM.PEAK r)) else t.temp r))

/-- SWITCH_ON_REQUEST, while a control chiplet is active, of a region that may be asked on is granted when no front
is pending, the module has 150 W below the governor's threshold and no neighbour was over 90 % of its maximum in
the last 10 µs or has a squall request; it ramps for 50 µs, else it is deferred. SWITCH_ON_RECHECK every 10 µs
grants it or defers it again, and after 1 ms asks each blocking neighbour for a pace of at least 4 with class
0x7 code 0x0A. REGION_RAMP_END locks the clock; REGION_READY with its DEV_TIME set turns it on. HEAT_SWITCH_OFF
of a region too hot raises class 0x7 code 0x05 and turns it off, its logical cluster or rank going to the free
standby cluster; with none it stays on, and a job partition's region drains until its group commits. (R346,
R347, R349) -/
def Obligations.SwitchOnCommands : Prop :=
  ∀ (s : State),
    (∀ r : Fin 30, s.active.isSome = true →
      let ok := s.frontPending = false ∧ s.module_.power + 150 ≤ s.governor ∧ ∀ n ∈ neighbours r, s.blocks n = false
      (s.mayAsk r = false → ∃ (t : State), exec (.switchOnRequest r) s = .next t ∧ t = { s with regs := t.regs } ∧ s.regsBut t [R.RGN.POWER_CTL.ON_REQ.key r]) ∧
      (s.mayAsk r = true → ok → ∃ (t : State), exec (.switchOnRequest r) s = .next t ∧
        t = { s with regs := t.regs, regions := t.regions, ctl := { s.ctl with everOn := true } } ∧
        t.getF R.RGN.POWER_CTL.STATE r = 2 ∧ (t.region r).rampEnd = some (s.now + 50000) ∧ (t.region r).ask = none) ∧
      (s.mayAsk r = true → ¬ ok → ∃ (t : State), exec (.switchOnRequest r) s = .next t ∧ t = { s with regs := t.regs, regions := t.regions } ∧
        t.getF R.RGN.POWER_CTL.STATE r = 1 ∧ t.getF R.RGN.POWER_CTL.DEFERS r = 1 ∧ (t.region r).ask = some s.now)) ∧
    (∀ r : Fin 30, (s.region r).ask = none → exec (.switchOnRecheck r) s = .next (s.releaseAdmit r)) ∧
    (∀ (r : Fin 30) (t0 : Nat), (s.region r).ask = some t0 → let n := s.getF R.RGN.POWER_CTL.DEFERS r
      (n < 255 → s.now < t0 + 10000 * n → exec (.switchOnRecheck r) s = .next s) ∧
      (255 ≤ n ∨ t0 + 10000 * n ≤ s.now →
        (s.mayGrant r = true → ∃ (t : State), exec (.switchOnRecheck r) s = .next t ∧ t.getF R.RGN.POWER_CTL.STATE r = 2 ∧
          (t.region r).ask = none ∧ t.mem = s.mem ∧ t.cores = s.cores) ∧
        (s.mayGrant r = false → ∃ (t : State), exec (.switchOnRecheck r) s = .next t ∧ t = { s with regs := t.regs, regions := t.regions, errs := t.errs } ∧
          t.getF R.RGN.POWER_CTL.STATE r = 1 ∧ t.getF R.RGN.POWER_CTL.DEFERS r = min 255 (n + 1) ∧ (t.region r).ask = some t0 ∧
          (s.now < t0 + 1000000 ∨ (s.region r).late = true → t.errs = s.errs) ∧
          (t0 + 1000000 ≤ s.now → (s.region r).late = false → (∃ x, t.errs.reports = s.errs.reports ++ [x] ∧ x.cls = 7 ∧ x.code = 0xA) ∧
            ∀ k ∈ neighbours r, s.getF R.RGN.PACE.ADMIT k < 16 →
              t.getF R.RGN.PACE.ADMIT k = if s.blocks k then max 4 (s.getF R.RGN.PACE.ADMIT k) else s.getF R.RGN.PACE.ADMIT k)))) ∧
    (∀ r : Fin 30, let st := s.getF R.RGN.POWER_CTL.STATE r
      (st ≠ 2 ∨ (s.region r).rampEnd = none → exec (.regionRampEnd r) s = .next s) ∧
      (∀ t0, (s.region r).rampEnd = some t0 → (s.now < t0 → exec (.regionRampEnd r) s = .next s) ∧
        (st = 2 → t0 ≤ s.now → ∃ (t : State), exec (.regionRampEnd r) s = .next t ∧ t = { s with regs := t.regs } ∧
          t.getF R.RGN.POWER_CTL.STATE r = 3 ∧ t.getF R.RGN.REF.LOCKED r = 1)) ∧
      (st ≠ 3 ∨ (s.region r).timeSet = false → exec (.regionReady r) s = .next s) ∧
      (st = 3 → (s.region r).timeSet = true → (s.region r).paced = [] →
        s.getF R.RGN.FRONT_CTL.CURRENT 0 ≤ 4 → ∃ (t : State), exec (.regionReady r) s = .next t ∧
          t = { s with regs := t.regs, regions := t.regions, cores := t.cores } ∧ t.getF R.RGN.POWER_CTL.STATE r = 4 ∧
          t.getF R.RGN.OP_STATUS.OP r = (if s.getF R.RGN.FRONT_CTL.CURRENT 0 = 0 then 4 else s.getF R.RGN.FRONT_CTL.CURRENT 0) ∧
          t.region r = { s.region r with resetOn := false, hotSince := none, fullSince := none } ∧
          ∀ i, t.core i = if r.val < 24 ∧ clusterOf i = r.val then { s.core i with hbAt := s.now } else s.core i)) ∧
    (∀ r : Fin 24, let st := s.getF R.RGN.POWER_CTL.STATE r; let run := exec (.heatSwitchOff r) s; let hot := s.regionOn r = true ∧ (st = 5 ∨ s.tooHot r = true)
      let off := fun (t : State) => t.getF R.RGN.POWER_CTL.STATE r = 0 ∧ (t.region r).offAt = some s.now
      (¬ hot → run = .next s) ∧
      (hot → s.freeStandby = none → s.jobOf r ≠ none ∨ s.role r = 0 → run = .next (s.setF R.RGN.POWER_CTL.STATE r 4)) ∧
      (hot → s.jobOf r = none → s.role r ≠ 0 → ∃ t, run = .next t ∧ off t ∧ t.mem = s.mem ∧ t.module_ = s.module_ ∧ t.sec = s.sec ∧
        (∀ i, clusterOf i ≠ r.val → t.core i = s.core i) ∧
        (st = 4 → ∃ x : Report, t.errs.reports = s.errs.reports ++ [x] ∧ x.cls = 7 ∧ x.code = 5) ∧ (st = 5 → t.errs = s.errs)) ∧
      (∀ d, hot → s.jobOf r = none → s.role r = 0 → s.freeStandby = some d → ∃ t, run = .next t ∧ off t ∧ t.role r = 1 ∧ t.role d = 0 ∧
        (st = 4 → ∃ x : Report, t.errs.reports = s.errs.reports ++ [x] ∧ x.cls = 7 ∧ x.code = 5)) ∧
      (hot → st = 4 → s.jobOf r ≠ none → s.freeStandby ≠ none → s.atCommit (s.groupOf r) = false → ∃ t x, run = .next t ∧
        t = { s with regs := t.regs, errs := t.errs } ∧ t.errs.reports = s.errs.reports ++ [x] ∧ x.cls = 7 ∧ x.code = 5 ∧
        t.getF R.RGN.POWER_CTL.STATE r = 5) ∧
      (∀ d i id j, hot → s.jobOf r = some id → s.job id = some j → s.freeStandby = some d → j.clusters.idxOf? r.val = some i →
        s.liveSites (s.groupOf r) = [] → ∃ t, run = .next t ∧ off t ∧ t.role r = 1 ∧ t.role d = 0 ∧ (t.job id).map (·.clusters) = some (j.clusters.set i d)))

/-- With 36 V present. THERMAL_TRIP of a powered region at the trip temperature: a cluster region or network domain
goes dark, a deck domain trips the module; else nothing happens. PHASE_FAILURE counts with class 0x7 code 0x01;
in a powered region below the need code 0x02 follows, and below the minimum 0x03 with the same outcomes.
CONVERTER_FAILURE counts once with code 0x04. MODULE_POWER_GOVERNOR raises every cluster region's MODULE request
at most once in 100 µs above its threshold and lowers it once in 1 ms below 13,500 W. MODULE_POWER_TRIP above
its limit, INPUT_UNDERVOLTAGE, INPUT_OVERVOLTAGE and REFCLK_LOSS trip the module, which loses what the compute
die and deck hold; MODULE_RESTART comes no sooner than 1 s later, nor than 100 ms after the input was out of its
range. TELEMETRY_INTERVAL adds each domain's energy. (R341, R342, R350, R351, R352, R354, R404, R408, R413) -/
def Obligations.PowerLossCommands : Prop :=
  ∀ (s : State), s.module_.v36 = true →
    let trips := fun (t : State) (cause : Nat) => (∃ l x, t.errs.reports = l ++ [x] ∧ x.cls = 7 ∧ x.code = 8 ∧ x.detail = cause) ∧ t.module_.tripped = some s.now ∧
      t.module_.tripCause = cause ∧ t.module_.faultN = true ∧ t.mem = [] ∧ t.cores = [] ∧ t.jobs = [] ∧ t.time = s.time ∧
      (∀ r, r < 36 → t.regionOn r = false) ∧ t.getF R.ROOT.SEAL.SEALED 0 = s.getF R.ROOT.SEAL.SEALED 0 ∧ t.ctl = s.ctl
    (∀ r : Fin 36, let run := exec (.thermalTrip r) s
      (s.module_.tripped.isSome = true ∨ s.powered r = false ∨ s.temp r < 16 * (s.tripC : Int) → run = .next s) ∧
      (s.module_.tripped = none → s.powered r = true → 16 * (s.tripC : Int) ≤ s.temp r → ∃ t l, run = .next t ∧
        s.newReports t = (7, 6, wholeUnit 8 r) :: l ∧ t.module_.thermN = true ∧ flag t.module_.alerts 1 = true ∧
        (r.val < 30 → t.getF R.RGN.POWER_CTL.STATE r = 6 ∧ t.regionOn r = false) ∧
        (r.val < 24 → l = [(8, 6, wholeUnit 1 r)] ∧ s.ringBut t ∧ (s.getF R.ERR.QUAR_CTL.AUTO 24 ≠ 0 → t.role r = 2)) ∧
        (24 ≤ r.val → r.val < 30 → t.module_.idle = true) ∧
        (30 ≤ r.val → t.module_.tripped = some s.now ∧ t.module_.tripCause = 0))) ∧
    (∀ (r : Fin 36) (p : Fin 48), let run := exec (.phaseFailure r p) s; let total := if r.val < 24 then 48 else if r.val < 30 then 24 else 16
      let need := if r.val < 24 then 44 else if r.val < 30 then 22 else 12; let least := if r.val < 24 then 24 else 12
      (total ≤ p.val ∨ p.val ∈ (s.region r).phases → run = .next s) ∧
      (p.val < total → p.val ∉ (s.region r).phases → let n := total - ((s.region r).phases.length + 1)
        (need ≤ n ∨ s.powered r = false → ∃ t, run = .next t ∧ s.newReports t = [(7, 1, unitCode 8 r p)] ∧
          t = { s with regs := t.regs, errs := t.errs, regions := t.regions, sec := t.sec } ∧ t.getF R.RGN.PHASES.HEALTHY r = n ∧
          t.getF R.RGN.PHASES.FAILED r = min 255 (s.getF R.RGN.PHASES.FAILED r + 1)) ∧
        (s.powered r = true → least ≤ n → n < need → ∃ t, run = .next t ∧ s.newReports t = [(7, 1, unitCode 8 r p), (7, 2, wholeUnit 8 r)] ∧
          t.powered r = true ∧ t.getF R.RGN.PHASES.HEALTHY r = n) ∧
        (s.powered r = true → n < least → n < need → ∃ t l, run = .next t ∧ s.newReports t = (7, 1, unitCode 8 r p) :: (7, 3, wholeUnit 8 r) :: l ∧
          (r.val < 24 → l = [(8, 6, wholeUnit 1 r)] ∧ (s.getF R.ERR.QUAR_CTL.AUTO 24 ≠ 0 → t.role r = 2)) ∧
          (r.val < 30 → t.getF R.RGN.POWER_CTL.STATE r = 6) ∧ (24 ≤ r.val → r.val < 30 → t.module_.idle = true) ∧
          (30 ≤ r.val → s.module_.tripped = none → t.module_.tripped = some s.now)))) ∧
    (∀ n : Fin 72, (n.val ∈ s.module_.convBad → exec (.converterFailure n) s = .next s) ∧
      (n.val ∉ s.module_.convBad → ∃ (t : State), exec (.converterFailure n) s = .next t ∧
        t = { s with module_ := t.module_, errs := t.errs, sec := t.sec, fresh := t.fresh } ∧
        t.module_ = { s.module_ with convBad := s.module_.convBad ++ [n.val], alerts := s.module_.alerts ||| 4 } ∧
        s.newReports t = [(7, 4, unitCode 0 0 n)] ∧
        (s.module_.convBad.length < 72 → 4 ≤ s.module_.convBad.length → t.governor + 200 = s.governor))) ∧
    (∀ w : Nat, let high := s.governor < w; let up := high ∧ ∀ u, s.module_.govUp = some u → u + 100000 ≤ s.now
      let low := ¬ high ∧ w < 13500; let down := low ∧ ∃ u, s.module_.govLow = some u ∧ u + 1000000 ≤ s.now
      ∃ (t : State), exec (.modulePowerGovernor w) s = .next t ∧ t = { s with regs := t.regs, errs := t.errs, module_ := t.module_ } ∧ t.module_.power = w ∧
        (∀ r, r < 24 → s.getF R.RGN.PACE.MODULE r < 16 → (up → t.getF R.RGN.PACE.MODULE r = min 15 (s.getF R.RGN.PACE.MODULE r + 1)) ∧
          (down → t.getF R.RGN.PACE.MODULE r = s.getF R.RGN.PACE.MODULE r - 1) ∧ (¬ up → ¬ down → t.getF R.RGN.PACE.MODULE r = s.getF R.RGN.PACE.MODULE r)) ∧
        (up → t.module_.govUp = some s.now) ∧ (¬ up → t.module_.govUp = s.module_.govUp) ∧ (¬ low → t.module_.govLow = none) ∧
        (down → t.module_.govLow = some s.now) ∧ (low → ¬ down → t.module_.govLow = some (s.module_.govLow.getD s.now)) ∧
        (high → s.module_.govSince = false → s.newReports t = [(7, 7, rootUnit)]) ∧ (¬ high ∨ s.module_.govSince = true → t.errs = s.errs)) ∧
    (s.module_.tripped = none →
      (∀ w, w ≤ min 14500 (s.getF R.ROOT.POWER_TRIP.WATTS 0) → exec (.modulePowerTrip w) s = .next s) ∧
      (∀ w, min 14500 (s.getF R.ROOT.POWER_TRIP.WATTS 0) < w → ∃ (t : State), exec (.modulePowerTrip w) s = .next t ∧ trips t 0) ∧
      (∃ (t : State), exec .inputUndervoltage s = .next t ∧ trips t 1 ∧ flag t.module_.alerts 6 = true ∧ t.module_.inputAt = some s.now) ∧
      (∃ (t : State), exec .inputOvervoltage s = .next t ∧ trips t 2 ∧ flag t.module_.alerts 6 = true ∧ t.module_.inputAt = some s.now) ∧
      (∃ (t : State), exec .refclkLoss s = .next t ∧ trips t 3) ∧ exec .moduleRestart s = .next s) ∧
    (∀ t0, s.module_.tripped = some t0 → let seen := { s.module_ with alerts := s.module_.alerts ||| 64, inputAt := some s.now }
      let wait := ∃ u, s.module_.inputAt = some u ∧ s.now < u + 100000000
      (∀ w, exec (.modulePowerTrip w) s = .next s) ∧ (∃ (t : State), exec .inputUndervoltage s = .next t ∧ t = { s with module_ := seen, fresh := t.fresh }) ∧
      (∃ (t : State), exec .inputOvervoltage s = .next t ∧ t = { s with module_ := seen, fresh := t.fresh }) ∧ exec .refclkLoss s = .next { s with module_ := { s.module_ with refclk0 := false, refclk1 := false } } ∧
      (s.now < t0 + 1000000000 ∨ wait → exec .moduleRestart s = .next s) ∧
      (t0 + 1000000000 ≤ s.now → ¬ wait → ∃ (t : State), exec .moduleRestart s = .next t ∧ t = { s with regs := t.regs, module_ := t.module_ } ∧
        t.module_ = { s.module_ with tripped := none, refclk0 := s.module_.refclk0 || !s.module_.refclk1 } ∧ t.getF R.SEC.BOOT_STATUS.STAGE 0 = 2)) ∧
    (∀ l : List (Nat × Nat), s.now < s.module_.nextPower → exec (.telemetryInterval l) s = .next s) ∧
    (∀ (l : List (Nat × Nat)) (i a v : Nat), s.module_.nextPower ≤ s.now → l.length ≤ 66 → l[i]? = some (a, v) → i < 36 → a < 65536 → v < 4096 →
      ∃ (t : State) (e : _), exec (.telemetryInterval l) s = .next t ∧ t = { s with regs := t.regs, tally := { s.tally with energy := t.tally.energy }, module_ := t.module_ } ∧
        (e = a * v / 10 ∨ (e = a * v / 10 + 1 ∧ a * v % 10 ≠ 0)) ∧ t.getF R.RGN.SUPPLY.CURRENT i = a ∧ t.getF R.RGN.SUPPLY.VOLT i = v ∧
        t.getF R.RGN.ENERGY.UJ i = min (2 ^ 64 - 1) (s.getF R.RGN.ENERGY.UJ i + e) ∧
        Tab.get 0 t.tally.energy i = min (2 ^ 64 - 1) (Tab.get 0 s.tally.energy i + e) ∧ s.now < t.module_.nextPower)

/-- With 36 V present. CTRL_CLAIM is granted for 400 µs by each powered port chiplet whose lease is free, expired or
the claimer's, and by none that the other holds; one that takes the role over from another chiplet is a
failover. CTRL_RELEASE frees the claimer's. FAILOVER, the active lease expired and a running standby: it takes
over, counts with class 0x9 code 0x01, and a journalled admission is released whole. JOURNAL_ENTRY of the active
chiplet waits for its acknowledgement; JOURNAL_ACK_TIMEOUT after 1 ms raises class 0x9 code 0x03. SEAL_SET seals
for the active chiplet only. EXPERT_ENABLE opens only with its licence, with code 0x05, and each change extends
MEAS6. MGMT_FRAME_SEND beyond the 1 MiB queue is dropped and counted; MANAGEMENT_PORT_DOWN raises code 0x06.
(R357, R358, R359, R360, R361, R363, R367, R368, R374) -/
def Obligations.ControlPairCommands : Prop :=
  ∀ (s : State), s.module_.v36 = true →
    (∀ c : Fin 2, ((s.cc c).failed = true → s.active ≠ some c.val → exec (.ctrlClaim c) s = .next s) ∧
      ((s.cc c).failed = false → s.ctl.powered ≠ [] →
        ((∀ p ∈ s.ctl.powered, ∀ l, s.leaseOf p = some l → l.holder = c.val) → let held := s.ctl.leases.filter fun e => e.2.holder == s.activeCc
          (s.activeCc = c.val ∨ held = [] → ∃ (t : State), exec (.ctrlClaim c) s = .next t ∧ t = { s with regs := t.regs, ctl := { s.ctl with leases := t.ctl.leases } } ∧
            t.active = some c.val ∧ t.getF R.ROOT.CTRL_STATUS.ACTIVE 0 = c.val ∧ ∀ p ∈ s.ctl.powered, t.leaseOf p = some ⟨c.val, s.now + 400000, false⟩) ∧
          (s.activeCc ≠ c.val → held ≠ [] → ∃ (t : State) (l : _), exec (.ctrlClaim c) s = .next t ∧ t.active = some c.val ∧ t.getF R.ROOT.CTRL_STATUS.ACTIVE 0 = c.val ∧
            s.newReports t = (9, 1, unitCode 0 0 c) :: l ∧ t.getF R.ROOT.CTRL_STATUS.FAILOVERS 0 = min 255 (s.getF R.ROOT.CTRL_STATUS.FAILOVERS 0 + 1))) ∧
        ((∀ p ∈ s.ctl.powered, ∃ l, s.leaseOf p = some l ∧ l.holder = 1 - c.val) → ∃ (t : State), exec (.ctrlClaim c) s = .next t ∧
          t = { s with regs := t.regs } ∧ s.regsBut t [R.ROOT.CTRL_STATUS.ACTIVE.key 0, R.ROOT.PTP_STATUS.PORT.key 0]))) ∧
    (∀ c : Fin 2, ∃ (t : State), exec (.ctrlRelease c) s = .next t ∧ t = { s with ctl := { s.ctl with leases := t.ctl.leases } } ∧
      ∀ p l, s.leaseOf p = some l → t.leaseOf p = if l.holder = c.val then none else some l) ∧
    (∀ old : Fin 2, s.activeCc = old.val → let new := 1 - old.val
      ((∃ p ∈ s.ctl.powered, ∃ l, s.leaseOf p = some l ∧ l.holder = old.val) ∨ (s.cc new).running = false ∨ (s.cc new).failed = true ∨ s.active ≠ none →
        exec .failover s = .next s) ∧
      ((∀ p ∈ s.ctl.powered, s.leaseOf p = none) → s.ctl.powered ≠ [] → (s.cc new).running = true → (s.cc new).failed = false →
        ∃ (t : State) (l : _), exec .failover s = .next t ∧ t.active = some new ∧ (t.cc old).failed = true ∧ (t.cc old).running = false ∧ t.ctl.journal = [] ∧
          t.getF R.ROOT.CTRL_STATUS.FAILOVERS 0 = min 255 (s.getF R.ROOT.CTRL_STATUS.FAILOVERS 0 + 1) ∧
          s.newReports t = (9, 1, unitCode 0 0 new) :: l ∧ flag t.module_.alerts 4 = true ∧ t.time = s.time ∧ t.rate = s.rate ∧
          (s.journal = [] → l = [] ∧ t.jobs = s.jobs ∧ t.cores = s.cores ∧ t.mem = s.mem) ∧
          ∀ id k, s.journal = [⟨.admission, id, k⟩] → (∀ j, s.job id = some j → ∀ w ∈ j.windows, (s.window w).st = 0) →
            t.job id = none ∧ t.ctl.admission = [] ∧ t.cores = s.cores ∧ ∀ i, i ≠ id → t.job i = s.job i)) ∧
    (∀ (op : JOp) (arg : Nat) (done ack : Bool) (step : Nat), (s.active = none → exec (.journalEntry op arg done ack step) s = .next s) ∧
      (s.active ≠ none → ∃ (t : State), exec (.journalEntry op arg done ack step) s = .next t ∧
        t = { s with regs := t.regs, ctl := { s.ctl with journal := t.ctl.journal, unacked := t.ctl.unacked } } ∧
        ((⟨op, arg, step⟩ ∈ t.ctl.journal) ↔ done = false) ∧ (∀ e ∈ s.ctl.journal, e.op ≠ op ∨ e.arg ≠ arg → e ∈ t.ctl.journal) ∧
        (ack = true → (s.cc (1 - s.activeCc)).running = true → t.ctl.unacked = none ∧ t.getF R.ROOT.CTRL_STATUS.STANDBY_READY 0 = 1) ∧
        (ack = false ∨ (s.cc (1 - s.activeCc)).running = false → t.ctl.unacked = some (s.ctl.unacked.getD s.now) ∧ t.regs = s.regs))) ∧
    (s.ctl.unacked = none → exec .journalAckTimeout s = .next s) ∧
    (∀ t0, s.ctl.unacked = some t0 → (s.now < t0 + 1000000 → exec .journalAckTimeout s = .next s) ∧
      (t0 + 1000000 ≤ s.now → ∃ (t : State) (x : Report), exec .journalAckTimeout s = .next t ∧ t = { s with regs := t.regs, errs := t.errs, ctl := { s.ctl with unacked := none } } ∧
        t.errs.reports = s.errs.reports ++ [x] ∧ x.cls = 9 ∧ x.code = 3 ∧ t.getF R.ROOT.CTRL_STATUS.STANDBY_READY 0 = 0)) ∧
    (∀ c : Fin 2,
      (s.active = some c.val → ∃ (t : State), exec (.sealSet c) s = .next t ∧ t = { s with regs := t.regs, fresh := t.fresh } ∧ t.getF R.ROOT.SEAL.SEALED 0 = 1 ∧
        (s.getF R.ROOT.SEAL.SEALED 0 ≠ 1 → flag (t.getF (R.PAGE_EVENT.EVENT 0) 0) 1 = true)) ∧
      (s.active ≠ some c.val → exec (.sealSet c) s = .next (s.refuseWrite c))) ∧
    (∀ v : BitVec 32, s.active.isSome = true → let en := s.getF R.ROOT.EXPERT_CTL.EN 0; let lic := s.getF R.ROOT.EXPERT_CTL.LICENSED 0
      let extends_ := fun (t : State) => ∃ d, t.measOf s.activeCc 6 = sha3_512 (s.measOf s.activeCc 6 ++ d) ∧ d.length = 64
      (v.getLsbD 0 = true → en = 1 ∨ lic = 0 → exec (.expertEnable v) s = .next s) ∧
      (v.getLsbD 0 = true → en ≠ 1 → lic ≠ 0 → ∃ (t : State) (x : Report), exec (.expertEnable v) s = .next t ∧
        t = { s with regs := t.regs, errs := t.errs, fresh := t.fresh, free := t.free, ctl := { s.ctl with chips := t.ctl.chips } } ∧
        t.getF R.ROOT.EXPERT_CTL.EN 0 = 1 ∧ t.getF R.ROOT.EXPERT_CTL.EVER 0 = 1 ∧ t.errs.reports = s.errs.reports ++ [x] ∧ x.cls = 9 ∧ x.code = 5 ∧
        flag (t.getF (R.PAGE_EVENT.EVENT 0) 0) 2 = true ∧ extends_ t) ∧
      (v.getLsbD 0 = false → en = 0 → exec (.expertEnable v) s = .next s) ∧
      (v.getLsbD 0 = false → en ≠ 0 → ∃ (t : State), exec (.expertEnable v) s = .next t ∧
        t = { s with regs := t.regs, free := t.free, ctl := { s.ctl with chips := t.ctl.chips } } ∧ t.getF R.ROOT.EXPERT_CTL.EN 0 = 0 ∧
        s.regsBut t [R.ROOT.EXPERT_CTL.EN.key 0] ∧ extends_ t)) ∧
    (∀ (p : Fin 2) (n : Nat), exec (.mgmtFrameSend p n true) s = .next s ∧
      (s.active ≠ some p.val → exec (.mgmtFrameSend p n false) s = .next s) ∧
      (s.active = some p.val → let q := s.mgmtBacklog p
        (q + 80 * n ≤ 80 * 2 ^ 20 → ∃ (t : State), exec (.mgmtFrameSend p n false) s = .next t ∧ t.mgmtBacklog p = q + 80 * n ∧
          t = { s with ctl := { s.ctl with mgmtQ := t.ctl.mgmtQ, mgmtAt := t.ctl.mgmtAt } }) ∧
        (80 * 2 ^ 20 < q + 80 * n → ∃ (t : State), exec (.mgmtFrameSend p n false) s = .next t ∧ t.ctl.mgmtQ = s.ctl.mgmtQ ∧
          t.getF (mgmtDrops p) 0 = min 65535 (s.getF (mgmtDrops p) 0 + 1) ∧
          (Tab.get 0 s.ctl.mgmtDrop p = 0 → s.newReports t = [(9, 7, unitCode 0 0 p)])))) ∧
    (∀ p : Fin 2, (s.getF (mgmtUp p) 0 = 0 → exec (.managementPortDown p) s = .next s) ∧
      (s.getF (mgmtUp p) 0 ≠ 0 → ∃ (t : State), exec (.managementPortDown p) s = .next t ∧ t = { s with regs := t.regs, errs := t.errs, fresh := t.fresh } ∧
        t.getF (mgmtUp p) 0 = 0 ∧ s.newReports t = [(9, 6, unitCode 0 0 p)] ∧ flag (t.getF (R.PAGE_EVENT.EVENT 0) 0) 4 = true))

/-- A write outside control space changes nothing; one that is misaligned or of another size gives the issuing
chiplet a bus error and changes nothing else; one of a page whose domain is off or of an offset without a
register changes nothing. For a region's page: PACE_C and OFF_C take what is written and leave the other fields,
but in a deck domain, which has neither; TRIP_C, read-only, does not change; an event bit is cleared by writing
1 unless it was set in the same cycle; PACE_FORCE changes only while the expert level is open; the power trip
only before the seal. An aligned read of 64 bits gives the two registers of that instant, any misaligned one
none. REGISTER_WRITE by a chiplet that is not active, other than of CTRL_CLAIM, is refused, and so is every
command that writes a register while no chiplet is active; a refused write adds 1 to
ROOT.CTRL_STATUS.REFUSED_WRITES, raises class 0x9 code 0x04, and changes no register but that and the PAGE_EVENT
bit of ROOT that shows it. (R4, R5, R7, R8, R9, R358, R364, R366, R368) -/
def Obligations.RegisterAccess : Prop :=
  (∀ (s : State) (c : Fin 2) (v : BitVec 64), s.module_.v36 = true →
    (∀ a size, a < ctlBase ∨ ctlBase + 0x10000000 ≤ a → exec (.registerWrite c a size v) s = .next s ∧ s.ctlRead a size = none) ∧
    (∀ a size, ctlBase ≤ a → a < ctlBase + 0x10000000 → (size ≠ 4 ∧ size ≠ 8) ∨ a % size ≠ 0 →
      exec (.registerWrite c a size v) s = .next { s with ctl := { s.ctl with busErr := some c.val } } ∧ s.ctlRead a size = none) ∧
    (∀ a, ctlBase ≤ a → a < ctlBase + 0x10000000 → a % 8 = 0 → ∃ lo hi, s.ctlRead a 4 = some lo ∧ s.ctlRead (a + 4) 4 = some hi ∧
      s.ctlRead a 8 = some (lo + hi * 2 ^ 32)) ∧
    (s.active = some c.val →
      (∀ r, r < 672 → s.hosted 2 r = false → ∀ off, off % 4 = 0 → off < 0x1000 →
        exec (.registerWrite c (ctlBase + 2 * 0x400000 + r * 0x1000 + off) 4 v) s = .next s) ∧
      (∀ r, r < 36 → let page := ctlBase + 8 * 0x400000 + r * 0x1000
        exec (.registerWrite c (page + 0x800) 4 v) s = .next s ∧
        (30 ≤ r → exec (.registerWrite c (page + 0x64) 4 v) s = .next s ∧ exec (.registerWrite c (page + 0x400) 4 v) s = .next s) ∧
        (r < 30 → ∃ (t : State), exec (.registerWrite c (page + 0x64) 4 v) s = .next t ∧ t = { s with regs := t.regs } ∧
          t.getF R.RGN.THERM_CTL.PACE_C r = v.toNat % 256 ∧ t.getF R.RGN.THERM_CTL.OFF_C r = v.toNat / 256 % 256 ∧
          s.regsBut t [R.RGN.THERM_CTL.PACE_C.key r, R.RGN.THERM_CTL.OFF_C.key r]) ∧
        (s.getF (R.PAGE_EVENT.EVENT 8) r < 2 ^ 32 → ∃ (t : State), exec (.registerWrite c (page + 8) 4 v) s = .next t ∧ t = { s with regs := t.regs } ∧
          (∀ i, i < 32 → flag (t.getF (R.PAGE_EVENT.EVENT 8) r) i = (flag (s.getF (R.PAGE_EVENT.EVENT 8) r) i &&
            !(v.getLsbD i && !flag (Tab.get 0 s.fresh ((R.PAGE_EVENT.EVENT 8).key r)) i))) ∧
          s.regsBut t [(R.PAGE_EVENT.EVENT 8).key r]) ∧
        (r < 30 → s.getF R.ROOT.EXPERT_CTL.EN 0 ≠ 1 → exec (.registerWrite c (page + 0x400) 4 v) s = .next s) ∧
        (r < 30 → s.getF R.ROOT.EXPERT_CTL.EN 0 = 1 → ∃ (t : State), exec (.registerWrite c (page + 0x400) 4 v) s = .next t ∧ t = { s with regs := t.regs } ∧
          t.getF R.RGN.PACE_FORCE.LEVEL r = v.toNat % 16 ∧ s.regsBut t [R.RGN.PACE_FORCE.LEVEL.key r])) ∧
      (s.getF R.ROOT.SEAL.SEALED 0 ≠ 0 → exec (.registerWrite c (ctlBase + 0x38) 4 v) s = .next s) ∧
      (s.getF R.ROOT.SEAL.SEALED 0 = 0 → ∃ (t : State), exec (.registerWrite c (ctlBase + 0x38) 4 v) s = .next t ∧ t = { s with regs := t.regs } ∧
        t.getF R.ROOT.POWER_TRIP.WATTS 0 = v.toNat % 65536 ∧ s.regsBut t [R.ROOT.POWER_TRIP.WATTS.key 0]))) ∧
  (∀ (s : State), s.module_.v36 = true →
    (∀ (c : Fin 2) (a size : Nat) (v : BitVec 64), s.active ≠ some c.val → size = 4 ∨ size = 8 →
      ctlBase ≤ a → a < ctlBase + 0x10000000 → a % size = 0 → a ≠ ctlBase + 0x24 → (a = ctlBase + 0x20 → size = 4) →
      exec (.registerWrite c a size v) s = .next (s.refuseWrite c)) ∧
    (s.active = none → let no : Ans := .next (s.refuseWrite s.activeCc)
      (∀ v, exec (.devTimeStep v) s = no) ∧ (∀ v, exec (.frontArm v) s = no) ∧ exec .frontCancel s = no ∧ (∀ v, exec (.expertEnable v) s = no) ∧
      (∀ v, exec (.ringBaseWrite v) s = no) ∧ (∀ v, exec (.captureSlotFree v) s = no) ∧ (∀ v, exec (.windowOpen v) s = no) ∧
      (∀ v, exec (.windowClose v) s = no) ∧ (∀ v, exec (.windowNotifyChange v) s = no) ∧ (∀ v, exec (.multicastEntryWrite v) s = no) ∧
      (∀ c v, exec (.clTsig c v) s = no) ∧ (∀ m, exec (.ctlMoverGo m) s = no) ∧ (∀ r, exec (.switchOnRequest r) s = no) ∧
      exec .markCmdMark s = no ∧ exec .holdReq s = no ∧ exec .release s = no ∧ exec .installLicence s = no ∧ exec .attest s = no ∧
      exec .extendMeas s = no ∧ exec .signBlazeMap s = no ∧ exec .raiseSvnFloor s = no) ∧
    (∀ c : Fin 2, let t := s.refuseWrite c
      t = { s with regs := t.regs, errs := t.errs, fresh := t.fresh } ∧ s.newReports t = [(9, 4, unitCode 0 0 c)] ∧
      t.getF R.ROOT.CTRL_STATUS.REFUSED_WRITES 0 = min 65535 (s.getF R.ROOT.CTRL_STATUS.REFUSED_WRITES 0 + 1) ∧
      flag (t.getF (R.PAGE_EVENT.EVENT 0) 0) 5 = true ∧
      s.regsBut t [R.ROOT.CTRL_STATUS.REFUSED_WRITES.key 0, (R.PAGE_EVENT.EVENT 0).key 0]))

/-- POWER_ARRIVAL starts both ROMs from a device that keeps only its flash and floors; while 36 V is present or
MOD_RST_N is low it does nothing, and with JTAG_EN high no ROM starts; a chiplet whose root key is not the fused
one accepts no key and starts nothing. CONTROL_CHIPLET_RESTART restarts a chiplet that is stopped or out of
service. STAGE1_IMAGE_RECEIVE starts at a waiting ROM a stage 1 that verifies and measures it in MEAS0, else
shows its code. PTP_WAIT_TIMEOUT ends the wait with no Sync for 10 s; DEV_TIME_REBASE steps DEV_TIME once no job
partition is admitted. COMPUTE_POWER_UP switches on every region that its bank and R346 allow. (R347, R374,
R376, R377, R378, R379, R380, R391, R394, R397) -/
def Obligations.BootCommands : Prop :=
  ∀ (s : State),
    (s.module_.v36 = true ∨ s.module_.rstN = false → exec .powerArrival s = .next s) ∧
    (s.module_.v36 = false → s.module_.rstN = true → ∃ (t : State), exec .powerArrival s = .next t ∧ t.module_.v36 = true ∧ t.mem = [] ∧ t.jobs = [] ∧
      t.sec.lics = [] ∧ t.now = 0 ∧ t.flash0 = s.flash0 ∧ t.flash1 = s.flash1 ∧ (∀ c k, t.svnFloor c k = s.svnFloor c k) ∧
      (s.module_.jtagEn = true → ∀ c : Fin 2, (t.cc c).started = false ∧ t.active = none) ∧
      (s.module_.jtagEn = false → ∀ c : Fin 2, sha3_512 (s.flash c).rootKey ≠ Config.rootDigest c → (t.cc c).keys = [] ∧ (t.cc c).started = false ∧
        (t.cc c).running = false)) ∧
    (∀ c : Fin 2, let stopped := (s.cc c).running = false ∨ (s.cc c).failed = true
      (s.module_.v36 = false ∨ s.module_.jtagEn = true ∨ ¬ stopped → exec (.controlChipletRestart c) s = .next s) ∧
      (s.module_.v36 = true → s.module_.jtagEn = false → stopped → exec (.controlChipletRestart c) s = .next (s.romBoot c) ∧
        (sha3_512 (s.flash c).rootKey ≠ Config.rootDigest c → let t := s.romBoot c
          (t.cc c).keys = [] ∧ (t.cc c).running = false ∧ (t.cc c).meas = (s.cc c).meas ∧
          ((t.cc c).failed = true ∨ (t.cc c).waiting = true) ∧ t.mem = s.mem ∧ t.jobs = s.jobs ∧ t.sec = s.sec))) ∧
    (∀ (c : Fin 2) (obj : List Byte), let run := exec (.stage1ImageReceive c obj) s; let code := s.verify c 2 obj
      (s.module_.v36 = false ∨ (s.cc c).waiting = false → run = .next s) ∧
      (s.module_.v36 = true → (s.cc c).waiting = true →
        (code ≠ 0 → ∃ t, run = .next t ∧ t = { s with regs := t.regs } ∧ t.getF R.SEC.BOOT_STATUS.FAIL_OBJ 0 = 2 ∧ t.getF R.SEC.BOOT_STATUS.FAIL_CODE 0 = code ∧
          t.getF R.SEC.VERIFY_FAILS.COUNT 0 = min (2 ^ 32 - 1) (s.getF R.SEC.VERIFY_FAILS.COUNT 0 + 1)) ∧
        (code = 0 → ∃ t, run = .next t ∧ t.mem = s.mem ∧ (t.cc c).started = true ∧ t.measOf c 0 = sha3_512 (s.measOf c 0 ++ padTo 64 (objDigest obj))))) ∧
    (let c := s.cc s.activeCc; let up := s.module_.v36 = true ∧ c.running = true;
      (¬ up ∨ s.ptpSeen = true ∨ c.waitUntil = 0 ∨ s.now < c.waitUntil → exec .ptpWaitTimeout s = .next s) ∧
      (up → s.ptpSeen = false → c.waitUntil ≠ 0 → c.waitUntil ≤ s.now → ∃ (t : State), exec .ptpWaitTimeout s = .next t ∧
        t = { s with ctl := { s.ctl with chips := t.ctl.chips } } ∧ t.cc s.activeCc = { c with waitUntil := 0 }) ∧
      (∀ gm : BitVec 64, (¬ up ∨ s.ptpSeen = false ∨ s.synced = true → exec (.devTimeRebase gm) s = .next s) ∧
        (up → s.ptpSeen = true → s.synced = false → let may := s.allJobs = [] ∧ s.joined = false ∧ s.now ≤ gm.toNat
          (¬ may → exec (.devTimeRebase gm) s = .next { s with ctl := { s.ctl with holdAdm := true } }) ∧
          (may → ∃ (t : State), exec (.devTimeRebase gm) s = .next t ∧ t = { s with regs := t.regs, time := t.time, ctl := { s.ctl with holdAdm := false, stepped := true } } ∧
            t.now = gm.toNat ∧ t.synced = true))) ∧
      (let may := up ∧ s.module_.tripped = none ∧ s.getF R.SEC.BOOT_STATUS.STAGE 0 = 2 ∧ (s.synced = true ∨ c.waitUntil = 0);
        (¬ may → exec .computePowerUp s = .next s) ∧
        (may → ∃ (t : State), exec .computePowerUp s = .next t ∧ t.getF R.SEC.BOOT_STATUS.STAGE 0 = 4 ∧ t.module_.hbmOn = List.range 16 ∧
          t.module_.lchOn = List.range 10 ∧ t.getF R.RGN.FRONT_CTL.CURRENT 0 = 4 ∧ t.mem = s.mem ∧ t.time = s.time ∧
          ∀ r, r < 36 → s.getF R.RGN.POWER_CTL.STATE r = 0 → s.bankOk r = true →
            (30 ≤ r ∨ s.mayGrant r = true → t.getF R.RGN.POWER_CTL.STATE r = 4) ∧
            (r < 30 → s.mayGrant r = false → t.getF R.RGN.POWER_CTL.STATE r = 1))))

/-- CRUISE at STAGE 4 ends with the device serviceable or in STAGE 7: every site that failed is defective, at most
22 clusters are ranked and 2 stand by, each has 6 sites in service in every row and its region on, and every
byte of the flight recorder is zero and no other byte changed. BLAZE_MAP_REVISION of a changed map gives it the
next version, writes it into every bank of both flash devices and extends MEAS4. FIRMWARE_BROADCAST at STAGE 5
of firmware that verifies writes it into its staging area and into the clusters that are on, measures it in
MEAS2 and makes the device ready, without the clusters that failed; else its code is shown. At another stage, or
with nothing changed, they do nothing. (R281, R381, R382, R383, R385, R387, R391, R394) -/
def Obligations.CruiseAndFirmware : Prop :=
  ∀ (s : State), s.module_.v36 = true →
    (∀ q : CruiseResult, (s.getF R.SEC.BOOT_STATUS.STAGE 0 ≠ 4 → exec (.cruise q) s = .next s) ∧
      (s.getF R.SEC.BOOT_STATUS.STAGE 0 = 4 → ∃ (t : State), exec (.cruise q) s = .next t ∧ t.time = s.time ∧
        (∀ k, Tab.get 0 t.mem k = if inRecorder k then 0 else Tab.get 0 s.mem k) ∧
        (t.getF R.SEC.BOOT_STATUS.STAGE 0 = 5 ∨ (t.getF R.SEC.BOOT_STATUS.STAGE 0 = 7 ∧ flag t.module_.alerts 5 = true ∧ t.module_.faultN = true)) ∧
        ((∃ u ∈ q.badUnits, fatalUnit u = true) → t.getF R.SEC.BOOT_STATUS.STAGE 0 = 7) ∧
        (∀ i ∈ q.badSites, i < 672 → t.siteState i = 2) ∧ t.sec.blaze.ranked ≤ 22 ∧ t.sec.blaze.standby ≤ 2 ∧
        (∀ c, c < 24 → t.role c < 2 → t.regionOn c = true ∧ ∀ w, w < 4 → (t.rowSites c w).length = 6) ∧
        (s.synced = false → t.getF R.SEC.BOOT_STATUS.QUICK 0 = 0 ∧ t.module_.quarantined = [] ∧ t.sec.blaze.cruise = s.now))) ∧
    (let b := s.sec.blaze;
      ((s.cc s.activeCc).running = false ∨ b.dirty = false → exec .blazeMapRevision s = .next s) ∧
      ((s.cc s.activeCc).running = true → b.dirty = true → ∃ (t : State), exec .blazeMapRevision s = .next t ∧
        t = { s with regs := t.regs, ctl := { s.ctl with chips := t.ctl.chips }, sec := { s.sec with blaze := t.sec.blaze }, flash0 := t.flash0, flash1 := t.flash1, free := s.free + 1 } ∧
        t.sec.blaze = { b with version := b.version + 1, dirty := false, digest := t.sec.blaze.digest } ∧
        t.getF R.SEC.BLAZE_VERSION.VERSION 0 = (b.version + 1) % 2 ^ 64 ∧ t.flash0.bank0.blaze = t.flash0.bank1.blaze ∧
        t.flash1.bank0.blaze = t.flash0.bank0.blaze ∧ t.flash1.bank1.blaze = t.flash0.bank0.blaze ∧
        t.measOf s.activeCc 4 = sha3_512 (s.measOf s.activeCc 4 ++ padTo 64 t.sec.blaze.digest))) ∧
    (∀ (obj : List Byte) (bad : List Nat), let cc := s.activeCc; let code := s.verify cc 4 obj; let run := exec (.firmwareBroadcast obj bad) s;
      (s.getF R.SEC.BOOT_STATUS.STAGE 0 ≠ 5 → run = .next s) ∧
      (s.getF R.SEC.BOOT_STATUS.STAGE 0 = 5 →
        (code ≠ 0 → ∃ t, run = .next t ∧ t = { s with regs := t.regs } ∧ t.getF R.SEC.BOOT_STATUS.FAIL_OBJ 0 = 4 ∧
          t.getF R.SEC.BOOT_STATUS.FAIL_CODE 0 = code ∧ t.getF R.SEC.BOOT_STATUS.STAGE 0 = 5) ∧
        (code = 0 → ∃ t, run = .next t ∧ t.getF R.SEC.BOOT_STATUS.STAGE 0 = 6 ∧ t.memRead stagingArea (objBody obj).length = objBody obj ∧
          s.memBut t stagingArea (objBody obj).length ∧ t.measOf cc 2 = sha3_512 (s.measOf cc 2 ++ padTo 64 (objDigest obj)) ∧
          (∀ c, c < 24 → s.regionOn c = true → c ∉ bad → t.cluster c = { s.cluster c with firmware := objBody obj }) ∧
          (bad = [] → t.sec.blaze = s.sec.blaze) ∧ ∀ c ∈ bad, c < 24 → t.role c = 2)))

/-- While a control chiplet is active and its engine works. INSTALL_LICENCE of one that verifies installs it, or
cancels its identifier, and measures it in MEAS5; else RESULT shows the code and nothing else but the failure
count changes. ATTEST writes the report, with the nonce of CMD_DATA, at an aligned address of the reserved
region; elsewhere RESULT is 1 and no byte changes. EXTEND_MEAS extends the register of INDEX and no other, but
not MEAS0 once stage 1 has started. SIGN_BLAZE_MAP writes the signature of a map that the chiplet may sign.
RAISE_SVN_FLOOR raises a floor to the SVN of the image in force. LICENCE_EXPIRY removes a licence past NOT_AFTER
and no other. (R385, R391, R392, R394, R395, R396, R397, R400) -/
def Obligations.SecurityCommands : Prop :=
  ∀ (s : State), let cc := s.activeCc; let a := s.getF R.SEC.CMD_ADDR.ADDR 0; let o := s.cmdObject; let i := s.getF R.SEC.CMD.INDEX 0
    let answers := fun (c : Instr) (code : Nat) => ∃ (t : State), exec c s = .next t ∧ t = { s with regs := t.regs } ∧ t.getF R.SEC.CMD.RESULT 0 = code ∧ s.regsBut t [R.SEC.CMD.RESULT.key 0]
    (s.active.isSome = true → s.engine = false → exec .installLicence s = .next s ∧ exec .attest s = .next s ∧ exec .extendMeas s = .next s ∧
      exec .signBlazeMap s = .next s ∧ exec .raiseSvnFloor s = .next s) ∧
    (s.active.isSome = true → s.engine = true →
      (let code := s.verify cc 9 o
       let id := fieldAt (objBody o) 8 8
       (code ≠ 0 → ∃ (t : State), exec .installLicence s = .next t ∧ t = { s with regs := t.regs } ∧ t.getF R.SEC.CMD.RESULT 0 = code ∧
          t.getF R.SEC.VERIFY_FAILS.COUNT 0 = min (2 ^ 32 - 1) (s.getF R.SEC.VERIFY_FAILS.COUNT 0 + 1) ∧
          s.regsBut t [R.SEC.CMD.RESULT.key 0, R.SEC.VERIFY_FAILS.COUNT.key 0]) ∧
       (code = 0 → ∃ (t : State), exec .installLicence s = .next t ∧ t.getF R.SEC.CMD.RESULT 0 = 0 ∧
          t = { s with regs := t.regs, sec := { s.sec with lics := t.sec.lics, cancelled := t.sec.cancelled }, ctl := { s.ctl with chips := t.ctl.chips } } ∧
          t.measOf cc 5 = sha3_512 (s.measOf cc 5 ++ padTo 64 (objDigest o)) ∧
          (t.getF R.ROOT.EXPERT_CTL.LICENSED 0 = 1 ↔ ∃ l ∈ t.sec.lics, l.cap = 6) ∧
          (flag (fieldAt (objBody o) 1 1) 0 = true → id ∈ t.sec.cancelled ∧ t.sec.lics = s.sec.lics.filter fun l => l.id != id) ∧
          (flag (fieldAt (objBody o) 1 1) 0 = false → ∃ l, t.sec.lics = s.sec.lics ++ [l] ∧ l.id = id ∧ l.cap = fieldAt (objBody o) 0 1))) ∧
      (a % 8 ≠ 0 ∨ a < resBase ∨ resBase + resSize < a + 5619 → answers .attest 1) ∧
      (a % 8 = 0 → resBase ≤ a → a + 5619 ≤ resBase + resSize → ∃ (t : State), exec .attest s = .next t ∧ t.getF R.SEC.CMD.RESULT 0 = 0 ∧
        s.canonBut t a 5619 ∧ t.sec = s.sec ∧ t.ctl = s.ctl ∧ s.regsBut t [R.SEC.CMD.RESULT.key 0] ∧
        ((∀ j k, j < 5619 → k < 5619 → s.canon (a + j) = s.canon (a + k) → j = k) → leNat (t.memRead a 4) = 0x4F53574E ∧
          t.memRead (a + 4) 1 = [0x0C] ∧ t.memRead (a + 128) 64 = s.cmdData)) ∧
      (8 ≤ i ∨ (i = 0 ∧ (s.cc cc).started = true) → answers .extendMeas 1) ∧
      (i < 8 → i ≠ 0 ∨ (s.cc cc).started = false → ∃ (t : State), exec .extendMeas s = .next t ∧ t = { s with regs := t.regs, ctl := { s.ctl with chips := t.ctl.chips } } ∧
        t.getF R.SEC.CMD.RESULT 0 = 0 ∧ t.measOf cc i = sha3_512 (s.measOf cc i ++ s.cmdData) ∧ ∀ c k, c ≠ cc ∨ k ≠ i → t.measOf c k = s.measOf c k) ∧
      (i = 0 ∨ 7 < i → answers .raiseSvnFloor 1) ∧
      (1 ≤ i → i ≤ 7 → ∃ (t : State), exec .raiseSvnFloor s = .next t ∧ t = { s with regs := t.regs, sec := { s.sec with floors := t.sec.floors } } ∧
        t.getF R.SEC.CMD.RESULT 0 = 0 ∧ ∀ c k, t.svnFloor c k = if k = i then max (s.svnFloor c i) (min 63 (Tab.get 0 s.sec.image i)) else s.svnFloor c k) ∧
      (let bad := fieldAt o 0 4 ≠ 0x4F53574E ∨ objType o ≠ 8 ∨ bodyLenOk 8 (objLen o) (objBody o) = false
       let other := objSigner o ≠ 4 + cc ∨ (o.drop 0x40).take 64 ≠ sha3_512 (Config.idKey cc)
       (bad → answers .signBlazeMap 1) ∧ (¬ bad → other → answers .signBlazeMap 2) ∧
       (¬ bad → ¬ other → ∃ (t : State), exec .signBlazeMap s = .next t ∧ t.getF R.SEC.CMD.RESULT 0 = 0 ∧ s.regsBut t [R.SEC.CMD.RESULT.key 0] ∧
        s.canonBut t (a + 128 + ceilTo 8 (objLen o)) 4627 ∧ t.sec = s.sec))) ∧
    ∀ id : BitVec 64,
     ((∀ l ∈ s.sec.lics, l.id = id.toNat → s.now ≤ l.after) → exec (.licenceExpiry id) s = .next s) ∧
     (∀ l ∈ s.sec.lics, l.id = id.toNat → l.after < s.now → ∃ (t : State), exec (.licenceExpiry id) s = .next t ∧
      t = { s with regs := t.regs, sec := { s.sec with lics := t.sec.lics } } ∧ l ∉ t.sec.lics ∧
      (∀ k ∈ s.sec.lics, k.id ≠ id.toNat ∨ s.now ≤ k.after → k ∈ t.sec.lics) ∧ (t.getF R.ROOT.EXPERT_CTL.LICENSED 0 = 1 ↔ ∃ k ∈ t.sec.lics, k.cap = 6))

/-- No update starts while another is in progress, and an image that does not verify is only counted.
CLUSTER_FIRMWARE_UPDATE of a cluster outside every job partition is done in place; one inside waits for two free
standby clusters and for its group's commit, and its logical cluster moves to the first of them.
CONTROL_FIRMWARE_UPDATE puts both images into the bank not booted from. LINK_CHIPLET_UPDATE shows a chiplet that
still holds packets as in progress, its ports out of the port sets; drained, it is reloaded and its ports
retrain. LANE_CALIBRATION gives the lane's place to the free spare, and gives it back. PORT_CHIPLET_UPDATE,
unless tier 2 is in use, takes the chiplet down without its lease, its root ports in reset, and loads it.
SENSOR_CALIBRATION sets and releases a sensor. (R240, R241, R391, R394, R398, R399, R400, R409) -/
def Obligations.ServiceCommands : Prop :=
  ∀ (s : State),
    (∀ (c : Fin 24) (obj : List Byte), let code := s.verify s.activeCc 4 obj; let run := exec (.clusterFirmwareUpdate c obj) s
      (s.mayServe 2 c = false ∨ s.regionOn c = false → run = .next s) ∧
      (s.mayServe 2 c = true → s.regionOn c = true →
        (code ≠ 0 → ∃ t, run = .next t ∧ t = { s with regs := t.regs } ∧ t.getF R.SEC.VERIFY_FAILS.COUNT 0 = min (2 ^ 32 - 1) (s.getF R.SEC.VERIFY_FAILS.COUNT 0 + 1)) ∧
        (code = 0 → s.jobOf c = none → ∃ t, run = .next t ∧ t.cluster c = { s.cluster c with firmware := objBody obj } ∧ t.getF R.SEC.SERVICE.PART 0 = 0 ∧
          t.sec.blaze = s.sec.blaze ∧ t.jobs = s.jobs ∧ t.cores = s.cores ∧
          t.memRead stagingArea (objBody obj).length = objBody obj ∧ s.memBut t stagingArea (objBody obj).length) ∧
        (∀ id j, code = 0 → s.jobOf c = some id → s.job id = some j →
          (s.standbys.length < 2 → run = .next s) ∧
          (2 ≤ s.standbys.length → s.atCommit (s.groupOf c) = false → ∃ t, run = .next t ∧ t = { s with regs := t.regs } ∧
            t.getF R.SEC.SERVICE.PART 0 = 2 ∧ t.getF R.SEC.SERVICE.STATE 0 = 1 ∧ t.getF R.SEC.SERVICE.INDEX 0 = c.val) ∧
          (∀ d e l i, s.standbys = d :: e :: l → s.liveSites (s.groupOf c) = [] → j.clusters.idxOf? c.val = some i → ∃ t, run = .next t ∧
            t.role c = 1 ∧ t.role d = 0 ∧ (t.job id).map (·.clusters) = some (j.clusters.set i d) ∧ t.getF R.SEC.SERVICE.PART 0 = 0 ∧
            t.sec.blaze.version = s.sec.blaze.version + 1 ∧ (t.cluster c).firmware = objBody obj)))) ∧
    (∀ stage1 os : List Byte, (s.active = none → exec (.controlFirmwareUpdate stage1 os) s = .next s) ∧
      (∀ old : Fin 2, s.active = some old.val → let new := 1 - old.val; let run := exec (.controlFirmwareUpdate stage1 os) s
        (s.mayServe 1 new = false ∨ (s.cc new).running = false → run = .next s) ∧
        (s.mayServe 1 new = true → (s.cc new).running = true →
          (s.verify new 2 stage1 ≠ 0 ∨ s.verify new 3 os ≠ 0 → ∃ t, run = .next t ∧ t = { s with regs := t.regs } ∧
            t.getF R.SEC.VERIFY_FAILS.COUNT 0 = min (2 ^ 32 - 1) (s.getF R.SEC.VERIFY_FAILS.COUNT 0 + 1)) ∧
          (s.verify new 2 stage1 = 0 → s.verify new 3 os = 0 → ∃ t, run = .next t ∧ (let bank := 1 - s.getF R.SEC.BOOT_STATUS.BANK 0
            t.getF R.SEC.BOOT_CTL.PREF_BANK 0 = bank ∧ ((t.flash new).bank bank).stage1 = stage1 ∧ ((t.flash new).bank bank).os = os ∧
            (t.flash new).bank (1 - bank) = (s.flash new).bank (1 - bank)))))) ∧
    (∀ (lc : Fin 10) (obj : List Byte) (lanes : List Nat), let code := s.verify s.activeCc 5 obj; let run := exec (.linkChipletUpdate lc obj lanes) s
      (s.mayServe 3 lc = false ∨ s.hosted 5 lc = false → run = .next s) ∧
      (s.mayServe 3 lc = true → s.hosted 5 lc = true →
        (code ≠ 0 → ∃ t, run = .next t ∧ t = { s with regs := t.regs }) ∧
        (code = 0 → s.serving 3 = false → s.chipDrained lc = false → ∃ t, run = .next t ∧ t = { s with regs := t.regs, fab := t.fab } ∧
          t.getF R.SEC.SERVICE.PART 0 = 3 ∧ t.getF R.SEC.SERVICE.STATE 0 = 1 ∧
          t.getF R.SEC.SERVICE.INDEX 0 = lc.val ∧ t.fab.out = s.fab.out ++ portsOfChip lc) ∧
        (code = 0 → s.serving 3 = true → s.chipDrained lc = false → run = .next s) ∧
        (code = 0 → s.serving 3 = true → s.chipDrained lc = true → ∃ t, run = .next t ∧ t.mem = s.mem ∧ t.cores = s.cores ∧
          t.getF R.SEC.SERVICE.PART 0 = 0 ∧ ∀ k : Fin 4, ∃ m w,
          trainOn (lanes.getD k.val 0x1FF % 512) = (m, w) ∧ t.getF R.LPT.TRAIN_STATUS.LANES (4 * lc.val + k.val) = m ∧
          t.getF R.LPT.TRAIN_STATUS.WIDTH (4 * lc.val + k.val) = w ∧ (t.port (4 * lc.val + k.val)).good = lanes.getD k.val 0x1FF % 512))) ∧
    (∀ (p : Fin 40) (lane : Fin 9), let run := exec (.laneCalibration p lane) s
      (s.mayServe 4 p = false ∨ s.portUp p = false → run = .next s) ∧
      (s.mayServe 4 p = true → s.portUp p = true → let used := s.getF R.LPT.TRAIN_STATUS.LANES p; used < 512 →
        ((s.port p).calib = none → s.getF R.LPT.TRAIN_STATUS.WIDTH p ≠ 3 ∨ flag used lane = false → run = .next s) ∧
        ∀ spare : Fin 9,
          ((s.port p).calib = none → s.getF R.LPT.TRAIN_STATUS.WIDTH p = 3 → flag used lane = true →
            (maskList 9 (s.port p).good).find? (fun i => !flag used i) = some spare.val → ∃ t, run = .next t ∧
              t = { s with regs := t.regs, fab := { s.fab with ports := t.fab.ports } } ∧ t.getF R.SEC.SERVICE.PART 0 = 4 ∧
              (t.port p).calib = some (lane.val + 16 * spare.val) ∧ ∀ i, i < 9 → flag (t.getF R.LPT.TRAIN_STATUS.LANES p) i =
                if i = lane.val then false else if i = spare.val then true else flag used i) ∧
          ((s.port p).calib = some (lane.val + 16 * spare.val) → flag used spare = true → flag used lane = false → ∃ t, run = .next t ∧
              t = { s with regs := t.regs, fab := { s.fab with ports := t.fab.ports } } ∧ t.getF R.SEC.SERVICE.PART 0 = 0 ∧ (t.port p).calib = none ∧
              ∀ i, i < 9 → flag (t.getF R.LPT.TRAIN_STATUS.LANES p) i = if i = lane.val then true else if i = spare.val then false else flag used i))) ∧
    (∀ (pc : Fin 2) (obj : List Byte), let code := s.verify s.activeCc 6 obj; let run := exec (.portChipletUpdate pc obj) s
      (s.mayServe 5 pc = false ∨ s.t2InUse pc = true → run = .next s) ∧
      (s.mayServe 5 pc = true → s.t2InUse pc = false →
        (code ≠ 0 → ∃ t, run = .next t ∧ t = { s with regs := t.regs }) ∧
        (code = 0 → s.serving 5 = false → s.ctl.powered = [0, 1] → ∃ t, run = .next t ∧ t.mem = s.mem ∧ t.ctl.powered = [1 - pc.val] ∧
          t.getF R.SEC.SERVICE.PART 0 = 5 ∧ t.leaseOf pc = none ∧ t.leaseOf (1 - pc.val) = s.leaseOf (1 - pc.val) ∧
          (∀ q ∈ t.cxl.up, q / 2 ≠ pc.val) ∧ ∀ k, k / 2 = pc.val → t.peRstN k = false) ∧
        (code = 0 → s.serving 5 = true → ∃ t, run = .next t ∧ t.mem = s.mem ∧ t.ctl.powered = s.ctl.powered ++ [pc.val] ∧ t.getF R.SEC.SERVICE.PART 0 = 0 ∧
          t.measOf s.activeCc 3 = sha3_512 (s.measOf s.activeCc 3 ++ padTo 64 (objDigest obj)) ∧ ∀ k, k / 2 = pc.val → t.peRstN k = false))) ∧
    (∀ (r : Fin 36) (n : Fin 8), let run := exec (.sensorCalibration r n) s
      (s.module_.v36 = false ∨ sensorsOf r ≤ n.val → run = .next s) ∧
      (s.module_.v36 = true → n.val < sensorsOf r →
        (∀ k, (s.region r).calib = some k → k ≠ n.val → run = .next s) ∧
        ((s.region r).calib = none → ∃ t, run = .next t ∧ t = { s with regs := t.regs, regions := t.regions } ∧
          t.region r = { s.region r with calib := some n.val } ∧ (s.getF R.SEC.SERVICE.PART 0 = 0 → t.getF R.SEC.SERVICE.PART 0 = 6)) ∧
        ((s.region r).calib = some n.val → ∃ t, run = .next t ∧ t = { s with regs := t.regs, regions := t.regions } ∧
          t.region r = { s.region r with calib := none } ∧ (s.getF R.SEC.SERVICE.PART 0 = 6 → t.getF R.SEC.SERVICE.PART 0 = 0))))

/-- MOD_RST_N_ASSERT, and with 36 V present CONTROL_UNDERVOLTAGE and ISOLATION_OVERVOLTAGE, open the isolation: all
but flash, fused floors and pin levels is as at reset. MOD_RST_N_RELEASE is the arrival of 36 V. Once SMBus
answers: READ_REG answers 0 and the register for the ROOT and RGN pages, 1 for another group and 2 for another
instance or offset, and changes nothing else; INPUT, ALERT_STATUS and IDENT answer with their values,
ALERT_CLEAR clears the bits written 1 that were not set in the same cycle. Before, there is no answer.
TAP_INSTRUCTION accepts IDCODE and BYPASS always, EXTEST and SAMPLE/PRELOAD only with JTAG_EN high; TRST_N_RESET
selects IDCODE. (R365, R369, R374, R404, R405, R411, R412, R413, R414) -/
def Obligations.ModuleInterface : Prop :=
  ∀ (s : State),
    (let opened := fun (t : State) => t.module_.v36 = false ∧ t.flash0 = s.flash0 ∧ t.flash1 = s.flash1 ∧
        (∀ c k, t.svnFloor c k = s.svnFloor c k) ∧ t.module_.jtagEn = s.module_.jtagEn ∧ t.pending = s.pending ∧ t.regs = [] ∧ t.mem = [] ∧ t.cores = [] ∧
        t.jobs = [] ∧ t.errs = {} ∧ t.ctl = {} ∧ t.fab = {} ∧ t.tally = {} ∧ t.time = 0 ∧ t.sec.blaze = {} ∧ t.sec.lics = [];
      (∃ (t : State), exec .modRstNAssert s = .next t ∧ opened t ∧ t.module_.rstN = false) ∧
      (s.module_.v36 = true → (∃ (t : State), exec .controlUndervoltage s = .next t ∧ opened t ∧ t.module_.rstN = s.module_.rstN) ∧
        ∃ (t : State), exec .isolationOvervoltage s = .next t ∧ opened t ∧ t.module_.rstN = s.module_.rstN) ∧
      (s.module_.v36 = false → exec .controlUndervoltage s = .next s ∧ exec .isolationOvervoltage s = .next s)) ∧
    (s.module_.rstN = true → exec .modRstNRelease s = .next s) ∧
    (s.module_.rstN = false → let u := { s with module_ := { s.module_ with rstN := true } }; exec .modRstNRelease s = .next u.powerOn ∧
      exec .powerArrival u = .next u.powerOn) ∧
    (s.smbusUp = (s.module_.v36 && !s.module_.jtagEn && decide (52000000 ≤ s.now))) ∧
    (s.smbusUp = true →
      (∀ (g : BitVec 8) (i off : BitVec 16), ∃ (t : State), exec (.readReg g i off) s = .next t ∧ t = { s with free := t.free, module_ := { s.module_ with response := t.module_.response } } ∧
        (g ≠ 0 → g ≠ 8 → t.module_.response.take 1 = [1]) ∧
        (g = 8 → i.toNat < 36 → off.toNat % 4 = 0 → off.toNat < 0x1000 → t.free = s.free ∧
          t.module_.response = 0 :: natLE 4 (s.regRead 8 i.toNat off.toNat) ∧
          (off = 0 → t.module_.response = [0, 1, BitVec.ofNat 8 (i.toNat % 4 * 64), BitVec.ofNat 8 (i.toNat / 4), 8]) ∧
          (off = 0x60 → leNat (t.module_.response.drop 1) % 65536 = s.getF R.RGN.THERM.TEMP i.toNat % 65536)) ∧
        (g = 8 → 36 ≤ i.toNat ∨ off.toNat % 4 ≠ 0 ∨ 0x1000 ≤ off.toNat → t.module_.response.take 1 = [2])) ∧
      exec .inputRead s = .next { s with module_ := { s.module_ with response := natLE 2 s.module_.volt ++ natLE 2 s.module_.amps ++ natLE 2 s.module_.power } } ∧
      exec .alertStatus s = .next { s with module_ := { s.module_ with response := natLE 2 s.module_.alerts } } ∧
      (∀ v : BitVec 16, s.module_.alerts < 65536 → ∃ (t : State), exec (.alertClear v) s = .next t ∧ t = { s with module_ := { s.module_ with alerts := t.module_.alerts } } ∧
        ∀ i, i < 16 → flag t.module_.alerts i = (flag s.module_.alerts i && !(v.getLsbD i && !flag (Tab.get 0 s.fresh alertKey) i))) ∧
      (∃ (t : State), exec .ident s = .next t ∧ t = { s with module_ := { s.module_ with response := t.module_.response } } ∧ t.module_.response.length = 16 ∧
        t.module_.response.take 4 = natLE 4 (s.getF R.ROOT.DEV_ID.ID 0))) ∧
    (s.smbusUp = false → let none_ := { s with module_ := { s.module_ with response := [] } }
      exec .alertStatus s = .next none_ ∧ exec .inputRead s = .next none_ ∧ exec .ident s = .next none_ ∧ (∀ v, exec (.alertClear v) s = .next s) ∧
      ∀ g i off, ∃ (fr : _), exec (.readReg g i off) s = .next { none_ with free := fr }) ∧
    (∀ pins : List Nat, exec (.tapInstruction .idcode pins) s = .next { s with module_ := { s.module_ with tap := .idcode, tapOut := [0xB726093B] } } ∧
      exec (.tapInstruction .bypass pins) s = .next { s with module_ := { s.module_ with tap := .bypass, tapOut := [] } } ∧
      (s.module_.jtagEn = false → exec (.tapInstruction .extest pins) s = .next s ∧ exec (.tapInstruction .samplePreload pins) s = .next s) ∧
      (s.module_.jtagEn = true → exec (.tapInstruction .extest pins) s = .next { s with module_ := { s.module_ with tap := .extest, tapOut := pins } } ∧
        exec (.tapInstruction .samplePreload pins) s = .next { s with module_ := { s.module_ with tap := .samplePreload, tapOut := pins } })) ∧
    exec .trstNReset s = .next { s with module_ := { s.module_ with tap := .idcode, tapOut := [] } }

/-- At reset 36 V is absent, no command waits, every register field reads as its table gives it, the memory is in
canonical form, and every SVN floor fits its field. The device identity, the trips at their hardware maxima and
the squall guard's threshold show the values of the tables. Each bank of both flash devices holds the blaze map
as shipped, which ranks 22 clusters, gives 2 the standby role and has 6 sites of every row in service. What a
field without a stated reset value holds is the model's choice (log entry 2), and so is the rest of flash (log
entry 58). (R14, R356, R369, R374, R384, R392) -/
def Obligations.ResetState : Prop :=
  State.reset.canonical ∧ State.reset.floorsFit ∧ State.reset.module_.v36 = false ∧ State.reset.pending = [] ∧
    (∀ (f : Fld) (i : Nat), State.reset.getF f i = f.reset) ∧ State.reset.getF R.ROOT.DEV_ID.ID 0 = 0x4E577260 ∧
    State.reset.getF R.ROOT.POWER_TRIP.WATTS 0 = 14500 ∧ State.reset.getF R.ROOT.THERM_TRIP.TRIP_C 0 = 105 ∧
    State.reset.getF R.ROOT.SEAL.SEALED 0 = 0 ∧ (∀ r, r < 36 → State.reset.getF R.RGN.SQUALL.THRESH r = 2000 ∧ State.reset.regionOn r = false) ∧
    (∀ cc b, ((State.reset.flash cc).bank b).blaze = shippedMap) ∧ objBody shippedMap = Blaze.shipped.body ∧
    Blaze.shipped.ranked = 22 ∧ Blaze.shipped.standby = 2 ∧
    (List.range 24).countP (fun c => Tab.get 2 Blaze.shipped.roles c == 0) = 22 ∧ (List.range 24).countP (fun c => Tab.get 2 Blaze.shipped.roles c == 1) = 2 ∧
    ∀ c r, c < 24 → r < 4 → (List.range 7).countP (fun k => Tab.get 1 Blaze.shipped.sites (28 * c + 7 * r + k) == 0) = 6

/-- From every state whose device memory is listed in canonical form, strictly rising and without default bytes,
every step that answers a next state answers one whose memory is so too. (R192, R200) -/
def Obligations.StepKeepsCanonicalMemory : Prop :=
  ∀ s t : State, s.canonical → step s = .next t → t.canonical

/-- Whatever command a step takes, the root public keys in flash stay, no SVN floor falls, not even by the removal
of 36 V, and every floor still fits the 6 bits of its register. (R377, R392, R400) -/
def Obligations.StepKeepsTrust : Prop :=
  ∀ s t : State, step s = .next t → s.trusts t ∧ (s.floorsFit → t.floorsFit)

/-- From every state with 36 V, a step either loses 36 V or leaves DEV_TIME no lower; and if the device was sealed
it stays sealed, with the power trip, the thermal trip, the management egress cap, the record of the limits and
their digest at the values they had: neither firmware nor an expert-bank field nor a reset short of removing 36
V changes them. (R332, R352, R374, R375) -/
def Obligations.StepKeepsSealAndTime : Prop :=
  ∀ s t : State, s.module_.v36 = true → step s = .next t → t.module_.v36 = false ∨ (s.now ≤ t.now ∧
    (s.getF R.ROOT.SEAL.SEALED 0 = 1 → t.getF R.ROOT.SEAL.SEALED 0 = 1 ∧ t.sec.limits = s.sec.limits ∧
      ∀ f ∈ [R.ROOT.POWER_TRIP.WATTS, R.ROOT.THERM_TRIP.TRIP_C, R.ROOT.MGMT_EGRESS_CAP.CAP, R.ROOT.LIMITS_ID.DIGEST], t.getF f 0 = s.getF f 0))
end

