-- ==== Sys2Proof/Laws/Tab.lean ====
section
/-! SUPPORT. The laws of sparse tables: a read after a write, and the canonical form that every write keeps. -/

namespace Sys2Proof.Tab
variable {α : Type}

theorem get_append (d : α) (s t : Tab α) (k : Nat) :
    get d (s ++ t) k = if s.any (fun e => e.1 == k) then get d s k else get d t k := by
  induction s with
  | nil => simp
  | cons e s ih =>
    obtain ⟨j, v⟩ := e
    by_cases h : j = k
    · simp [get, h]
    · have hb : (j == k) = false := by simpa using h
      simp only [List.cons_append, get, if_neg h, List.any_cons, hb, Bool.false_or, ih]

theorem get_filter_of (d : α) (t : Tab α) (p : Nat → Bool) (k : Nat) (h : p k = true) :
    get d (t.filter fun e => p e.1) k = get d t k := by
  induction t with
  | nil => rfl
  | cons e t ih =>
    obtain ⟨j, v⟩ := e
    by_cases hj : j = k
    · subst hj; simp [h, get]
    · by_cases hp : p j = true
      · simp [hp, get, hj, ih]
      · simp [hp, get, hj, ih]

theorem get_filter_not (d : α) (t : Tab α) (p : Nat → Bool) (k : Nat) (h : p k = false) :
    get d (t.filter fun e => p e.1) k = d := by
  induction t with
  | nil => rfl
  | cons e t ih =>
    obtain ⟨j, v⟩ := e
    by_cases hp : p j = true
    · have : j ≠ k := fun hj => by subst hj; simp [h] at hp
      simp [hp, get, this, ih]
    · simp [hp, ih]

theorem any_filter_of (t : Tab α) (p : Nat → Bool) (k : Nat) (h : p k = true) :
    (t.filter fun e => p e.1).any (fun e => e.1 == k) = t.any fun e => e.1 == k := by
  rw [Bool.eq_iff_iff]
  simp only [List.any_eq_true, List.mem_filter, beq_iff_eq]
  constructor
  · rintro ⟨e, ⟨he, _⟩, hk⟩; exact ⟨e, he, hk⟩
  · rintro ⟨e, he, hk⟩; exact ⟨e, ⟨he, by rw [hk]; exact h⟩, hk⟩

theorem any_filter_not (t : Tab α) (p : Nat → Bool) (k : Nat) (h : p k = false) :
    (t.filter fun e => p e.1).any (fun e => e.1 == k) = false := by
  rw [List.any_eq_false]
  intro e he
  simp only [List.mem_filter] at he
  intro hk
  rw [beq_iff_eq] at hk
  rw [hk, h] at he
  exact absurd he.2 (by simp)

theorem get_none (d : α) (t : Tab α) (k : Nat) (h : t.any (fun e => e.1 == k) = false) : get d t k = d := by
  induction t with
  | nil => rfl
  | cons e t ih =>
    obtain ⟨j, v⟩ := e
    simp only [List.any_cons, Bool.or_eq_false_iff, beq_eq_false_iff_ne] at h
    simp [get, h.1, ih h.2]

variable [DecidableEq α]

theorem entries_any (d : α) (vs : List α) (a k : Nat) (h : k < a ∨ a + vs.length ≤ k) :
    (entries d a vs).any (fun e => e.1 == k) = false := by
  induction vs generalizing a with
  | nil => rfl
  | cons v vs ih =>
    simp only [List.length_cons] at h
    have h1 := ih (a + 1) (by omega)
    unfold entries
    split
    · exact h1
    · simp only [List.any_cons, h1, Bool.or_false, beq_eq_false_iff_ne]; omega

theorem get_entries (d : α) (vs : List α) (a k : Nat) (h : a ≤ k) (h2 : k < a + vs.length) :
    get d (entries d a vs) k = vs.getD (k - a) d := by
  induction vs generalizing a with
  | nil => simp at h2; omega
  | cons v vs ih =>
    simp only [List.length_cons] at h2
    by_cases hk : k = a
    · subst hk
      unfold entries
      split
      · rename_i hv
        rw [get_none d _ _ (entries_any d vs _ _ (by omega))]; simp [hv]
      · simp [get]
    · have h3 := ih (a + 1) (by omega) (by omega)
      have e : k - a = (k - (a + 1)) + 1 := by omega
      unfold entries
      split
      · rw [h3, e]; simp
      · rw [get, if_neg (by omega), h3, e]; simp

/-- A read after a write of consecutive values. -/
theorem get_write (d : α) (t : Tab α) (a : Nat) (vs : List α) (k : Nat) :
    get d (write d t a vs) k = if a ≤ k ∧ k < a + vs.length then vs.getD (k - a) d else get d t k := by
  unfold write
  rw [get_append, get_append, List.any_append]
  by_cases h1 : k < a
  · have p1 : (fun n : Nat => decide (n < a)) k = true := by simpa using h1
    have p2 : (fun n : Nat => decide (a + vs.length ≤ n)) k = false := by simp; omega
    rw [any_filter_of t (fun n => decide (n < a)) k p1, get_filter_of d t (fun n => decide (n < a)) k p1,
      get_filter_not d t (fun n => decide (a + vs.length ≤ n)) k p2,
      entries_any d vs a k (Or.inl h1), Bool.or_false, if_neg (show ¬ (a ≤ k ∧ k < a + vs.length) by omega)]
    cases h : t.any (fun e => e.1 == k) with
    | true => rfl
    | false => exact (get_none d t k h).symm
  · have p1 : (fun n : Nat => decide (n < a)) k = false := by simpa using h1
    rw [any_filter_not t (fun n => decide (n < a)) k p1, Bool.false_or, if_neg (show ¬ (false = true) by simp)]
    by_cases h2 : k < a + vs.length
    · have p2 : (fun n : Nat => decide (a + vs.length ≤ n)) k = false := by simp; omega
      rw [get_filter_not d t (fun n => decide (a + vs.length ≤ n)) k p2, if_pos (show a ≤ k ∧ k < a + vs.length by omega),
        ← get_entries d vs a k (by omega) h2]
      cases h : (entries d a vs).any (fun e => e.1 == k) with
      | true => rfl
      | false => exact (get_none d _ k h).symm
    · have p2 : (fun n : Nat => decide (a + vs.length ≤ n)) k = true := by simp; omega
      rw [entries_any d vs a k (Or.inr (by omega)), if_neg (show ¬ (false = true) by simp),
        get_filter_of d t (fun n => decide (a + vs.length ≤ n)) k p2, if_neg (by omega)]

@[simp] theorem get_set (d : α) (t : Tab α) (k j : Nat) (v : α) :
    get d (set d t k v) j = if j = k then v else get d t j := by
  unfold set
  rw [get_write]
  by_cases h : j = k
  · subst h; simp
  · have : ¬ (k ≤ j ∧ j < k + [v].length) := by simp; omega
    rw [if_neg this, if_neg h]

/-- The later of two writes of a key stands. -/
theorem set_set (d : α) (t : Tab α) (k : Nat) (a b : α) : set d (set d t k a) k b = set d t k b := by
  unfold set write
  simp only [List.filter_append, List.filter_filter, List.length_singleton]
  have e1 : (entries d k [a]).filter (fun e => decide (e.1 < k)) = [] := by
    unfold entries; split <;> simp [entries]
  have e2 : (entries d k [a]).filter (fun e => decide (k + 1 ≤ e.1)) = [] := by
    unfold entries; split <;> simp [entries]
  rw [e1, e2]
  congr 1
  · congr 1
    rw [List.append_nil]
    have : (List.filter (fun a => decide (a.1 < k) && decide (k + 1 ≤ a.1)) t) = [] := by
      rw [List.filter_eq_nil_iff]; intro x _; simp; omega
    rw [this, List.append_nil]
    apply List.filter_congr; intro x _; simp
  · rw [List.append_nil]
    have : (List.filter (fun a => decide (k + 1 ≤ a.1) && decide (a.1 < k)) t) = [] := by
      rw [List.filter_eq_nil_iff]; intro x _; simp; omega
    rw [this, List.nil_append]
    apply List.filter_congr; intro x _; simp

/-! ### The canonical form -/

theorem wfFrom_mono (d : α) (t : Tab α) (a b : Nat) (h : a ≤ b) (w : wfFrom d b t = true) : wfFrom d a t = true := by
  cases t with
  | nil => rfl
  | cons e t =>
    obtain ⟨k, v⟩ := e
    simp only [wfFrom, Bool.and_eq_true, decide_eq_true_eq] at w ⊢
    exact ⟨⟨by omega, w.1.2⟩, w.2⟩

theorem wfFrom_filter (d : α) (t : Tab α) (p : Nat → Bool) (b : Nat) (w : wfFrom d b t = true) :
    wfFrom d b (t.filter fun e => p e.1) = true := by
  induction t generalizing b with
  | nil => rfl
  | cons e t ih =>
    obtain ⟨k, v⟩ := e
    simp only [wfFrom, Bool.and_eq_true, decide_eq_true_eq] at w
    by_cases hp : p k = true
    · simp only [hp, List.filter_cons_of_pos, wfFrom, Bool.and_eq_true, decide_eq_true_eq]
      exact ⟨w.1, ih _ w.2⟩
    · simp only [hp, Bool.false_eq_true, not_false_eq_true, List.filter_cons_of_neg]
      exact wfFrom_mono d _ b (k + 1) (by omega) (ih _ w.2)

theorem wfFrom_filter_ge (d : α) (t : Tab α) (b n : Nat) (w : wfFrom d b t = true) :
    wfFrom d n (t.filter fun e => decide (n ≤ e.1)) = true := by
  induction t generalizing b with
  | nil => rfl
  | cons e t ih =>
    obtain ⟨k, v⟩ := e
    simp only [wfFrom, Bool.and_eq_true, decide_eq_true_eq] at w
    by_cases hp : n ≤ k
    · have := wfFrom_filter d t (fun j => decide (n ≤ j)) (k + 1) w.2
      simp only [hp, decide_true, List.filter_cons_of_pos, wfFrom, Bool.and_eq_true, decide_eq_true_eq]
      exact ⟨⟨trivial, w.1.2⟩, this⟩
    · simp only [hp, decide_false, Bool.false_eq_true, not_false_eq_true, List.filter_cons_of_neg]
      exact ih _ w.2

theorem wfFrom_append (d : α) (s t : Tab α) (b n : Nat) (hb : b ≤ n) (hs : wfFrom d b s = true)
    (lt : ∀ e ∈ s, e.1 < n) (ht : wfFrom d n t = true) : wfFrom d b (s ++ t) = true := by
  induction s generalizing b with
  | nil => exact wfFrom_mono d t b n hb ht
  | cons e s ih =>
    obtain ⟨k, v⟩ := e
    simp only [wfFrom, Bool.and_eq_true, decide_eq_true_eq] at hs
    have hk : k < n := lt (k, v) (by simp)
    simp only [List.cons_append, wfFrom, Bool.and_eq_true, decide_eq_true_eq]
    exact ⟨hs.1, ih (k + 1) (by omega) hs.2 (fun e he => lt e (by simp [he]))⟩

theorem wfFrom_entries (d : α) (vs : List α) (a : Nat) : wfFrom d a (entries d a vs) = true := by
  induction vs generalizing a with
  | nil => rfl
  | cons v vs ih =>
    unfold entries
    split
    · exact wfFrom_mono d _ a (a + 1) (by omega) (ih _)
    · rename_i h
      simp only [wfFrom, Bool.and_eq_true, decide_eq_true_eq]
      exact ⟨⟨le_refl _, h⟩, ih _⟩

theorem entries_lt (d : α) (vs : List α) (a : Nat) : ∀ e ∈ entries d a vs, e.1 < a + vs.length := by
  induction vs generalizing a with
  | nil => simp [entries]
  | cons v vs ih =>
    intro e he
    unfold entries at he
    have := ih (a + 1) e
    simp only [List.length_cons]
    split at he
    · have := this he; omega
    · rcases List.mem_cons.1 he with h | h
      · subst h; simp
      · have := this h; omega

/-- A write keeps the canonical form. -/
theorem wf_write (d : α) (t : Tab α) (a : Nat) (vs : List α) (w : wf d t = true) : wf d (write d t a vs) = true := by
  unfold wf write at *
  rw [List.append_assoc]
  refine wfFrom_append d _ _ 0 a (by omega) (wfFrom_filter d t (fun n => decide (n < a)) 0 w) ?_ ?_
  · intro e he; simpa using (List.mem_filter.1 he).2
  · exact wfFrom_append d _ _ a (a + vs.length) (by omega) (wfFrom_entries d vs a) (entries_lt d vs a)
      (wfFrom_filter_ge d t 0 _ w)

theorem wf_set (d : α) (t : Tab α) (k : Nat) (v : α) (w : wf d t = true) : wf d (set d t k v) = true := wf_write d t k [v] w

theorem wf_clear (d : α) (t : Tab α) (a n : Nat) (w : wf d t = true) : wf d (clear t a n) = true :=
  wfFrom_filter d t (fun k => !(decide (a ≤ k) && decide (k < a + n))) 0 w

end Sys2Proof.Tab
end

