-- ==== Sys2Proof/Laws/State.lean ====
section
/-! SUPPORT. For each update of the state, the fields it leaves alone; what a register, a core, a job, a
kernel record and a run reads as after its own write. -/

namespace Sys2Proof.Machine

variable (s : State)

@[simp] theorem State.setF_eff (f : Fld) (i v : Nat) : (s.setF f i v).eff = s.eff := rfl
@[simp] theorem State.setF_mem (f : Fld) (i v : Nat) : (s.setF f i v).mem = s.mem := rfl
@[simp] theorem State.setF_poison (f : Fld) (i v : Nat) : (s.setF f i v).poison = s.poison := rfl
@[simp] theorem State.setF_cores (f : Fld) (i v : Nat) : (s.setF f i v).cores = s.cores := rfl
@[simp] theorem State.setF_clusters (f : Fld) (i v : Nat) : (s.setF f i v).clusters = s.clusters := rfl
@[simp] theorem State.setF_launches (f : Fld) (i v : Nat) : (s.setF f i v).launches = s.launches := rfl
@[simp] theorem State.setF_later (f : Fld) (i v : Nat) : (s.setF f i v).later = s.later := rfl
@[simp] theorem State.setF_running (f : Fld) (i v : Nat) : (s.setF f i v).running = s.running := rfl
@[simp] theorem State.setF_deck (f : Fld) (i v : Nat) : (s.setF f i v).deck = s.deck := rfl
@[simp] theorem State.setF_hbm (f : Fld) (i v : Nat) : (s.setF f i v).hbm = s.hbm := rfl
@[simp] theorem State.setF_cxl (f : Fld) (i v : Nat) : (s.setF f i v).cxl = s.cxl := rfl
@[simp] theorem State.setF_mesh (f : Fld) (i v : Nat) : (s.setF f i v).mesh = s.mesh := rfl
@[simp] theorem State.setF_movers (f : Fld) (i v : Nat) : (s.setF f i v).movers = s.movers := rfl
@[simp] theorem State.setF_jobs (f : Fld) (i v : Nat) : (s.setF f i v).jobs = s.jobs := rfl
@[simp] theorem State.setF_fab (f : Fld) (i v : Nat) : (s.setF f i v).fab = s.fab := rfl
@[simp] theorem State.setF_tally (f : Fld) (i v : Nat) : (s.setF f i v).tally = s.tally := rfl
@[simp] theorem State.setF_errs (f : Fld) (i v : Nat) : (s.setF f i v).errs = s.errs := rfl
@[simp] theorem State.setF_regions (f : Fld) (i v : Nat) : (s.setF f i v).regions = s.regions := rfl
@[simp] theorem State.setF_module_ (f : Fld) (i v : Nat) : (s.setF f i v).module_ = s.module_ := rfl
@[simp] theorem State.setF_ctl (f : Fld) (i v : Nat) : (s.setF f i v).ctl = s.ctl := rfl
@[simp] theorem State.setF_sec (f : Fld) (i v : Nat) : (s.setF f i v).sec = s.sec := rfl
@[simp] theorem State.setF_flash0 (f : Fld) (i v : Nat) : (s.setF f i v).flash0 = s.flash0 := rfl
@[simp] theorem State.setF_flash1 (f : Fld) (i v : Nat) : (s.setF f i v).flash1 = s.flash1 := rfl
@[simp] theorem State.setF_time (f : Fld) (i v : Nat) : (s.setF f i v).time = s.time := rfl
@[simp] theorem State.setF_rate (f : Fld) (i v : Nat) : (s.setF f i v).rate = s.rate := rfl
@[simp] theorem State.setF_fresh (f : Fld) (i v : Nat) : (s.setF f i v).fresh = s.fresh := rfl
@[simp] theorem State.setF_free (f : Fld) (i v : Nat) : (s.setF f i v).free = s.free := rfl
@[simp] theorem State.setF_pending (f : Fld) (i v : Nat) : (s.setF f i v).pending = s.pending := rfl

@[simp] theorem State.addF_eff (f : Fld) (i n : Nat) : (s.addF f i n).eff = s.eff := rfl
@[simp] theorem State.addF_mem (f : Fld) (i n : Nat) : (s.addF f i n).mem = s.mem := rfl
@[simp] theorem State.addF_poison (f : Fld) (i n : Nat) : (s.addF f i n).poison = s.poison := rfl
@[simp] theorem State.addF_cores (f : Fld) (i n : Nat) : (s.addF f i n).cores = s.cores := rfl
@[simp] theorem State.addF_clusters (f : Fld) (i n : Nat) : (s.addF f i n).clusters = s.clusters := rfl
@[simp] theorem State.addF_launches (f : Fld) (i n : Nat) : (s.addF f i n).launches = s.launches := rfl
@[simp] theorem State.addF_later (f : Fld) (i n : Nat) : (s.addF f i n).later = s.later := rfl
@[simp] theorem State.addF_running (f : Fld) (i n : Nat) : (s.addF f i n).running = s.running := rfl
@[simp] theorem State.addF_deck (f : Fld) (i n : Nat) : (s.addF f i n).deck = s.deck := rfl
@[simp] theorem State.addF_hbm (f : Fld) (i n : Nat) : (s.addF f i n).hbm = s.hbm := rfl
@[simp] theorem State.addF_cxl (f : Fld) (i n : Nat) : (s.addF f i n).cxl = s.cxl := rfl
@[simp] theorem State.addF_mesh (f : Fld) (i n : Nat) : (s.addF f i n).mesh = s.mesh := rfl
@[simp] theorem State.addF_movers (f : Fld) (i n : Nat) : (s.addF f i n).movers = s.movers := rfl
@[simp] theorem State.addF_jobs (f : Fld) (i n : Nat) : (s.addF f i n).jobs = s.jobs := rfl
@[simp] theorem State.addF_fab (f : Fld) (i n : Nat) : (s.addF f i n).fab = s.fab := rfl
@[simp] theorem State.addF_tally (f : Fld) (i n : Nat) : (s.addF f i n).tally = s.tally := rfl
@[simp] theorem State.addF_errs (f : Fld) (i n : Nat) : (s.addF f i n).errs = s.errs := rfl
@[simp] theorem State.addF_regions (f : Fld) (i n : Nat) : (s.addF f i n).regions = s.regions := rfl
@[simp] theorem State.addF_module_ (f : Fld) (i n : Nat) : (s.addF f i n).module_ = s.module_ := rfl
@[simp] theorem State.addF_ctl (f : Fld) (i n : Nat) : (s.addF f i n).ctl = s.ctl := rfl
@[simp] theorem State.addF_sec (f : Fld) (i n : Nat) : (s.addF f i n).sec = s.sec := rfl
@[simp] theorem State.addF_flash0 (f : Fld) (i n : Nat) : (s.addF f i n).flash0 = s.flash0 := rfl
@[simp] theorem State.addF_flash1 (f : Fld) (i n : Nat) : (s.addF f i n).flash1 = s.flash1 := rfl
@[simp] theorem State.addF_time (f : Fld) (i n : Nat) : (s.addF f i n).time = s.time := rfl
@[simp] theorem State.addF_rate (f : Fld) (i n : Nat) : (s.addF f i n).rate = s.rate := rfl
@[simp] theorem State.addF_fresh (f : Fld) (i n : Nat) : (s.addF f i n).fresh = s.fresh := rfl
@[simp] theorem State.addF_free (f : Fld) (i n : Nat) : (s.addF f i n).free = s.free := rfl
@[simp] theorem State.addF_pending (f : Fld) (i n : Nat) : (s.addF f i n).pending = s.pending := rfl

@[simp] theorem State.peakF_eff (f : Fld) (i v : Nat) : (s.peakF f i v).eff = s.eff := rfl
@[simp] theorem State.peakF_mem (f : Fld) (i v : Nat) : (s.peakF f i v).mem = s.mem := rfl
@[simp] theorem State.peakF_poison (f : Fld) (i v : Nat) : (s.peakF f i v).poison = s.poison := rfl
@[simp] theorem State.peakF_cores (f : Fld) (i v : Nat) : (s.peakF f i v).cores = s.cores := rfl
@[simp] theorem State.peakF_clusters (f : Fld) (i v : Nat) : (s.peakF f i v).clusters = s.clusters := rfl
@[simp] theorem State.peakF_launches (f : Fld) (i v : Nat) : (s.peakF f i v).launches = s.launches := rfl
@[simp] theorem State.peakF_later (f : Fld) (i v : Nat) : (s.peakF f i v).later = s.later := rfl
@[simp] theorem State.peakF_running (f : Fld) (i v : Nat) : (s.peakF f i v).running = s.running := rfl
@[simp] theorem State.peakF_deck (f : Fld) (i v : Nat) : (s.peakF f i v).deck = s.deck := rfl
@[simp] theorem State.peakF_hbm (f : Fld) (i v : Nat) : (s.peakF f i v).hbm = s.hbm := rfl
@[simp] theorem State.peakF_cxl (f : Fld) (i v : Nat) : (s.peakF f i v).cxl = s.cxl := rfl
@[simp] theorem State.peakF_mesh (f : Fld) (i v : Nat) : (s.peakF f i v).mesh = s.mesh := rfl
@[simp] theorem State.peakF_movers (f : Fld) (i v : Nat) : (s.peakF f i v).movers = s.movers := rfl
@[simp] theorem State.peakF_jobs (f : Fld) (i v : Nat) : (s.peakF f i v).jobs = s.jobs := rfl
@[simp] theorem State.peakF_fab (f : Fld) (i v : Nat) : (s.peakF f i v).fab = s.fab := rfl
@[simp] theorem State.peakF_tally (f : Fld) (i v : Nat) : (s.peakF f i v).tally = s.tally := rfl
@[simp] theorem State.peakF_errs (f : Fld) (i v : Nat) : (s.peakF f i v).errs = s.errs := rfl
@[simp] theorem State.peakF_regions (f : Fld) (i v : Nat) : (s.peakF f i v).regions = s.regions := rfl
@[simp] theorem State.peakF_module_ (f : Fld) (i v : Nat) : (s.peakF f i v).module_ = s.module_ := rfl
@[simp] theorem State.peakF_ctl (f : Fld) (i v : Nat) : (s.peakF f i v).ctl = s.ctl := rfl
@[simp] theorem State.peakF_sec (f : Fld) (i v : Nat) : (s.peakF f i v).sec = s.sec := rfl
@[simp] theorem State.peakF_flash0 (f : Fld) (i v : Nat) : (s.peakF f i v).flash0 = s.flash0 := rfl
@[simp] theorem State.peakF_flash1 (f : Fld) (i v : Nat) : (s.peakF f i v).flash1 = s.flash1 := rfl
@[simp] theorem State.peakF_time (f : Fld) (i v : Nat) : (s.peakF f i v).time = s.time := rfl
@[simp] theorem State.peakF_rate (f : Fld) (i v : Nat) : (s.peakF f i v).rate = s.rate := rfl
@[simp] theorem State.peakF_fresh (f : Fld) (i v : Nat) : (s.peakF f i v).fresh = s.fresh := rfl
@[simp] theorem State.peakF_free (f : Fld) (i v : Nat) : (s.peakF f i v).free = s.free := rfl
@[simp] theorem State.peakF_pending (f : Fld) (i v : Nat) : (s.peakF f i v).pending = s.pending := rfl

@[simp] theorem State.orF_eff (f : Fld) (i v : Nat) : (s.orF f i v).eff = s.eff := rfl
@[simp] theorem State.orF_mem (f : Fld) (i v : Nat) : (s.orF f i v).mem = s.mem := rfl
@[simp] theorem State.orF_poison (f : Fld) (i v : Nat) : (s.orF f i v).poison = s.poison := rfl
@[simp] theorem State.orF_cores (f : Fld) (i v : Nat) : (s.orF f i v).cores = s.cores := rfl
@[simp] theorem State.orF_clusters (f : Fld) (i v : Nat) : (s.orF f i v).clusters = s.clusters := rfl
@[simp] theorem State.orF_launches (f : Fld) (i v : Nat) : (s.orF f i v).launches = s.launches := rfl
@[simp] theorem State.orF_later (f : Fld) (i v : Nat) : (s.orF f i v).later = s.later := rfl
@[simp] theorem State.orF_running (f : Fld) (i v : Nat) : (s.orF f i v).running = s.running := rfl
@[simp] theorem State.orF_deck (f : Fld) (i v : Nat) : (s.orF f i v).deck = s.deck := rfl
@[simp] theorem State.orF_hbm (f : Fld) (i v : Nat) : (s.orF f i v).hbm = s.hbm := rfl
@[simp] theorem State.orF_cxl (f : Fld) (i v : Nat) : (s.orF f i v).cxl = s.cxl := rfl
@[simp] theorem State.orF_mesh (f : Fld) (i v : Nat) : (s.orF f i v).mesh = s.mesh := rfl
@[simp] theorem State.orF_movers (f : Fld) (i v : Nat) : (s.orF f i v).movers = s.movers := rfl
@[simp] theorem State.orF_jobs (f : Fld) (i v : Nat) : (s.orF f i v).jobs = s.jobs := rfl
@[simp] theorem State.orF_fab (f : Fld) (i v : Nat) : (s.orF f i v).fab = s.fab := rfl
@[simp] theorem State.orF_tally (f : Fld) (i v : Nat) : (s.orF f i v).tally = s.tally := rfl
@[simp] theorem State.orF_errs (f : Fld) (i v : Nat) : (s.orF f i v).errs = s.errs := rfl
@[simp] theorem State.orF_regions (f : Fld) (i v : Nat) : (s.orF f i v).regions = s.regions := rfl
@[simp] theorem State.orF_module_ (f : Fld) (i v : Nat) : (s.orF f i v).module_ = s.module_ := rfl
@[simp] theorem State.orF_ctl (f : Fld) (i v : Nat) : (s.orF f i v).ctl = s.ctl := rfl
@[simp] theorem State.orF_sec (f : Fld) (i v : Nat) : (s.orF f i v).sec = s.sec := rfl
@[simp] theorem State.orF_flash0 (f : Fld) (i v : Nat) : (s.orF f i v).flash0 = s.flash0 := rfl
@[simp] theorem State.orF_flash1 (f : Fld) (i v : Nat) : (s.orF f i v).flash1 = s.flash1 := rfl
@[simp] theorem State.orF_time (f : Fld) (i v : Nat) : (s.orF f i v).time = s.time := rfl
@[simp] theorem State.orF_rate (f : Fld) (i v : Nat) : (s.orF f i v).rate = s.rate := rfl
@[simp] theorem State.orF_free (f : Fld) (i v : Nat) : (s.orF f i v).free = s.free := rfl
@[simp] theorem State.orF_pending (f : Fld) (i v : Nat) : (s.orF f i v).pending = s.pending := rfl

@[simp] theorem State.event_eff (p i n : Nat) : (s.event p i n).eff = s.eff := rfl
@[simp] theorem State.event_mem (p i n : Nat) : (s.event p i n).mem = s.mem := rfl
@[simp] theorem State.event_poison (p i n : Nat) : (s.event p i n).poison = s.poison := rfl
@[simp] theorem State.event_cores (p i n : Nat) : (s.event p i n).cores = s.cores := rfl
@[simp] theorem State.event_clusters (p i n : Nat) : (s.event p i n).clusters = s.clusters := rfl
@[simp] theorem State.event_launches (p i n : Nat) : (s.event p i n).launches = s.launches := rfl
@[simp] theorem State.event_later (p i n : Nat) : (s.event p i n).later = s.later := rfl
@[simp] theorem State.event_running (p i n : Nat) : (s.event p i n).running = s.running := rfl
@[simp] theorem State.event_deck (p i n : Nat) : (s.event p i n).deck = s.deck := rfl
@[simp] theorem State.event_hbm (p i n : Nat) : (s.event p i n).hbm = s.hbm := rfl
@[simp] theorem State.event_cxl (p i n : Nat) : (s.event p i n).cxl = s.cxl := rfl
@[simp] theorem State.event_mesh (p i n : Nat) : (s.event p i n).mesh = s.mesh := rfl
@[simp] theorem State.event_movers (p i n : Nat) : (s.event p i n).movers = s.movers := rfl
@[simp] theorem State.event_jobs (p i n : Nat) : (s.event p i n).jobs = s.jobs := rfl
@[simp] theorem State.event_fab (p i n : Nat) : (s.event p i n).fab = s.fab := rfl
@[simp] theorem State.event_tally (p i n : Nat) : (s.event p i n).tally = s.tally := rfl
@[simp] theorem State.event_errs (p i n : Nat) : (s.event p i n).errs = s.errs := rfl
@[simp] theorem State.event_regions (p i n : Nat) : (s.event p i n).regions = s.regions := rfl
@[simp] theorem State.event_module_ (p i n : Nat) : (s.event p i n).module_ = s.module_ := rfl
@[simp] theorem State.event_ctl (p i n : Nat) : (s.event p i n).ctl = s.ctl := rfl
@[simp] theorem State.event_sec (p i n : Nat) : (s.event p i n).sec = s.sec := rfl
@[simp] theorem State.event_flash0 (p i n : Nat) : (s.event p i n).flash0 = s.flash0 := rfl
@[simp] theorem State.event_flash1 (p i n : Nat) : (s.event p i n).flash1 = s.flash1 := rfl
@[simp] theorem State.event_time (p i n : Nat) : (s.event p i n).time = s.time := rfl
@[simp] theorem State.event_rate (p i n : Nat) : (s.event p i n).rate = s.rate := rfl
@[simp] theorem State.event_free (p i n : Nat) : (s.event p i n).free = s.free := rfl
@[simp] theorem State.event_pending (p i n : Nat) : (s.event p i n).pending = s.pending := rfl

@[simp] theorem State.clearF_eff (f : Fld) (i v : Nat) : (s.clearF f i v).eff = s.eff := rfl
@[simp] theorem State.clearF_mem (f : Fld) (i v : Nat) : (s.clearF f i v).mem = s.mem := rfl
@[simp] theorem State.clearF_poison (f : Fld) (i v : Nat) : (s.clearF f i v).poison = s.poison := rfl
@[simp] theorem State.clearF_cores (f : Fld) (i v : Nat) : (s.clearF f i v).cores = s.cores := rfl
@[simp] theorem State.clearF_clusters (f : Fld) (i v : Nat) : (s.clearF f i v).clusters = s.clusters := rfl
@[simp] theorem State.clearF_launches (f : Fld) (i v : Nat) : (s.clearF f i v).launches = s.launches := rfl
@[simp] theorem State.clearF_later (f : Fld) (i v : Nat) : (s.clearF f i v).later = s.later := rfl
@[simp] theorem State.clearF_running (f : Fld) (i v : Nat) : (s.clearF f i v).running = s.running := rfl
@[simp] theorem State.clearF_deck (f : Fld) (i v : Nat) : (s.clearF f i v).deck = s.deck := rfl
@[simp] theorem State.clearF_hbm (f : Fld) (i v : Nat) : (s.clearF f i v).hbm = s.hbm := rfl
@[simp] theorem State.clearF_cxl (f : Fld) (i v : Nat) : (s.clearF f i v).cxl = s.cxl := rfl
@[simp] theorem State.clearF_mesh (f : Fld) (i v : Nat) : (s.clearF f i v).mesh = s.mesh := rfl
@[simp] theorem State.clearF_movers (f : Fld) (i v : Nat) : (s.clearF f i v).movers = s.movers := rfl
@[simp] theorem State.clearF_jobs (f : Fld) (i v : Nat) : (s.clearF f i v).jobs = s.jobs := rfl
@[simp] theorem State.clearF_fab (f : Fld) (i v : Nat) : (s.clearF f i v).fab = s.fab := rfl
@[simp] theorem State.clearF_tally (f : Fld) (i v : Nat) : (s.clearF f i v).tally = s.tally := rfl
@[simp] theorem State.clearF_errs (f : Fld) (i v : Nat) : (s.clearF f i v).errs = s.errs := rfl
@[simp] theorem State.clearF_regions (f : Fld) (i v : Nat) : (s.clearF f i v).regions = s.regions := rfl
@[simp] theorem State.clearF_module_ (f : Fld) (i v : Nat) : (s.clearF f i v).module_ = s.module_ := rfl
@[simp] theorem State.clearF_ctl (f : Fld) (i v : Nat) : (s.clearF f i v).ctl = s.ctl := rfl
@[simp] theorem State.clearF_sec (f : Fld) (i v : Nat) : (s.clearF f i v).sec = s.sec := rfl
@[simp] theorem State.clearF_flash0 (f : Fld) (i v : Nat) : (s.clearF f i v).flash0 = s.flash0 := rfl
@[simp] theorem State.clearF_flash1 (f : Fld) (i v : Nat) : (s.clearF f i v).flash1 = s.flash1 := rfl
@[simp] theorem State.clearF_time (f : Fld) (i v : Nat) : (s.clearF f i v).time = s.time := rfl
@[simp] theorem State.clearF_rate (f : Fld) (i v : Nat) : (s.clearF f i v).rate = s.rate := rfl
@[simp] theorem State.clearF_fresh (f : Fld) (i v : Nat) : (s.clearF f i v).fresh = s.fresh := rfl
@[simp] theorem State.clearF_free (f : Fld) (i v : Nat) : (s.clearF f i v).free = s.free := rfl
@[simp] theorem State.clearF_pending (f : Fld) (i v : Nat) : (s.clearF f i v).pending = s.pending := rfl

@[simp] theorem State.alert_regs (i : Nat) : (s.alert i).regs = s.regs := rfl
@[simp] theorem State.alert_eff (i : Nat) : (s.alert i).eff = s.eff := rfl
@[simp] theorem State.alert_mem (i : Nat) : (s.alert i).mem = s.mem := rfl
@[simp] theorem State.alert_poison (i : Nat) : (s.alert i).poison = s.poison := rfl
@[simp] theorem State.alert_cores (i : Nat) : (s.alert i).cores = s.cores := rfl
@[simp] theorem State.alert_clusters (i : Nat) : (s.alert i).clusters = s.clusters := rfl
@[simp] theorem State.alert_launches (i : Nat) : (s.alert i).launches = s.launches := rfl
@[simp] theorem State.alert_later (i : Nat) : (s.alert i).later = s.later := rfl
@[simp] theorem State.alert_running (i : Nat) : (s.alert i).running = s.running := rfl
@[simp] theorem State.alert_deck (i : Nat) : (s.alert i).deck = s.deck := rfl
@[simp] theorem State.alert_hbm (i : Nat) : (s.alert i).hbm = s.hbm := rfl
@[simp] theorem State.alert_cxl (i : Nat) : (s.alert i).cxl = s.cxl := rfl
@[simp] theorem State.alert_mesh (i : Nat) : (s.alert i).mesh = s.mesh := rfl
@[simp] theorem State.alert_movers (i : Nat) : (s.alert i).movers = s.movers := rfl
@[simp] theorem State.alert_jobs (i : Nat) : (s.alert i).jobs = s.jobs := rfl
@[simp] theorem State.alert_fab (i : Nat) : (s.alert i).fab = s.fab := rfl
@[simp] theorem State.alert_tally (i : Nat) : (s.alert i).tally = s.tally := rfl
@[simp] theorem State.alert_errs (i : Nat) : (s.alert i).errs = s.errs := rfl
@[simp] theorem State.alert_regions (i : Nat) : (s.alert i).regions = s.regions := rfl
@[simp] theorem State.alert_ctl (i : Nat) : (s.alert i).ctl = s.ctl := rfl
@[simp] theorem State.alert_sec (i : Nat) : (s.alert i).sec = s.sec := rfl
@[simp] theorem State.alert_flash0 (i : Nat) : (s.alert i).flash0 = s.flash0 := rfl
@[simp] theorem State.alert_flash1 (i : Nat) : (s.alert i).flash1 = s.flash1 := rfl
@[simp] theorem State.alert_time (i : Nat) : (s.alert i).time = s.time := rfl
@[simp] theorem State.alert_rate (i : Nat) : (s.alert i).rate = s.rate := rfl
@[simp] theorem State.alert_free (i : Nat) : (s.alert i).free = s.free := rfl
@[simp] theorem State.alert_pending (i : Nat) : (s.alert i).pending = s.pending := rfl

@[simp] theorem State.setWaiting_regs (i : Nat) (l : List LaunchRec) : (s.setWaiting i l).regs = s.regs := rfl
@[simp] theorem State.setWaiting_eff (i : Nat) (l : List LaunchRec) : (s.setWaiting i l).eff = s.eff := rfl
@[simp] theorem State.setWaiting_mem (i : Nat) (l : List LaunchRec) : (s.setWaiting i l).mem = s.mem := rfl
@[simp] theorem State.setWaiting_poison (i : Nat) (l : List LaunchRec) : (s.setWaiting i l).poison = s.poison := rfl
@[simp] theorem State.setWaiting_cores (i : Nat) (l : List LaunchRec) : (s.setWaiting i l).cores = s.cores := rfl
@[simp] theorem State.setWaiting_clusters (i : Nat) (l : List LaunchRec) : (s.setWaiting i l).clusters = s.clusters := rfl
@[simp] theorem State.setWaiting_running (i : Nat) (l : List LaunchRec) : (s.setWaiting i l).running = s.running := rfl
@[simp] theorem State.setWaiting_deck (i : Nat) (l : List LaunchRec) : (s.setWaiting i l).deck = s.deck := rfl
@[simp] theorem State.setWaiting_hbm (i : Nat) (l : List LaunchRec) : (s.setWaiting i l).hbm = s.hbm := rfl
@[simp] theorem State.setWaiting_cxl (i : Nat) (l : List LaunchRec) : (s.setWaiting i l).cxl = s.cxl := rfl
@[simp] theorem State.setWaiting_mesh (i : Nat) (l : List LaunchRec) : (s.setWaiting i l).mesh = s.mesh := rfl
@[simp] theorem State.setWaiting_movers (i : Nat) (l : List LaunchRec) : (s.setWaiting i l).movers = s.movers := rfl
@[simp] theorem State.setWaiting_jobs (i : Nat) (l : List LaunchRec) : (s.setWaiting i l).jobs = s.jobs := rfl
@[simp] theorem State.setWaiting_fab (i : Nat) (l : List LaunchRec) : (s.setWaiting i l).fab = s.fab := rfl
@[simp] theorem State.setWaiting_tally (i : Nat) (l : List LaunchRec) : (s.setWaiting i l).tally = s.tally := rfl
@[simp] theorem State.setWaiting_errs (i : Nat) (l : List LaunchRec) : (s.setWaiting i l).errs = s.errs := rfl
@[simp] theorem State.setWaiting_regions (i : Nat) (l : List LaunchRec) : (s.setWaiting i l).regions = s.regions := rfl
@[simp] theorem State.setWaiting_module_ (i : Nat) (l : List LaunchRec) : (s.setWaiting i l).module_ = s.module_ := rfl
@[simp] theorem State.setWaiting_ctl (i : Nat) (l : List LaunchRec) : (s.setWaiting i l).ctl = s.ctl := rfl
@[simp] theorem State.setWaiting_sec (i : Nat) (l : List LaunchRec) : (s.setWaiting i l).sec = s.sec := rfl
@[simp] theorem State.setWaiting_flash0 (i : Nat) (l : List LaunchRec) : (s.setWaiting i l).flash0 = s.flash0 := rfl
@[simp] theorem State.setWaiting_flash1 (i : Nat) (l : List LaunchRec) : (s.setWaiting i l).flash1 = s.flash1 := rfl
@[simp] theorem State.setWaiting_time (i : Nat) (l : List LaunchRec) : (s.setWaiting i l).time = s.time := rfl
@[simp] theorem State.setWaiting_rate (i : Nat) (l : List LaunchRec) : (s.setWaiting i l).rate = s.rate := rfl
@[simp] theorem State.setWaiting_fresh (i : Nat) (l : List LaunchRec) : (s.setWaiting i l).fresh = s.fresh := rfl
@[simp] theorem State.setWaiting_free (i : Nat) (l : List LaunchRec) : (s.setWaiting i l).free = s.free := rfl
@[simp] theorem State.setWaiting_pending (i : Nat) (l : List LaunchRec) : (s.setWaiting i l).pending = s.pending := rfl

@[simp] theorem State.setEff_regs (f : Fld) (i v : Nat) : (s.setEff f i v).regs = s.regs := rfl
@[simp] theorem State.setEff_mem (f : Fld) (i v : Nat) : (s.setEff f i v).mem = s.mem := rfl
@[simp] theorem State.setEff_poison (f : Fld) (i v : Nat) : (s.setEff f i v).poison = s.poison := rfl
@[simp] theorem State.setEff_cores (f : Fld) (i v : Nat) : (s.setEff f i v).cores = s.cores := rfl
@[simp] theorem State.setEff_clusters (f : Fld) (i v : Nat) : (s.setEff f i v).clusters = s.clusters := rfl
@[simp] theorem State.setEff_launches (f : Fld) (i v : Nat) : (s.setEff f i v).launches = s.launches := rfl
@[simp] theorem State.setEff_later (f : Fld) (i v : Nat) : (s.setEff f i v).later = s.later := rfl
@[simp] theorem State.setEff_running (f : Fld) (i v : Nat) : (s.setEff f i v).running = s.running := rfl
@[simp] theorem State.setEff_deck (f : Fld) (i v : Nat) : (s.setEff f i v).deck = s.deck := rfl
@[simp] theorem State.setEff_hbm (f : Fld) (i v : Nat) : (s.setEff f i v).hbm = s.hbm := rfl
@[simp] theorem State.setEff_cxl (f : Fld) (i v : Nat) : (s.setEff f i v).cxl = s.cxl := rfl
@[simp] theorem State.setEff_mesh (f : Fld) (i v : Nat) : (s.setEff f i v).mesh = s.mesh := rfl
@[simp] theorem State.setEff_movers (f : Fld) (i v : Nat) : (s.setEff f i v).movers = s.movers := rfl
@[simp] theorem State.setEff_jobs (f : Fld) (i v : Nat) : (s.setEff f i v).jobs = s.jobs := rfl
@[simp] theorem State.setEff_fab (f : Fld) (i v : Nat) : (s.setEff f i v).fab = s.fab := rfl
@[simp] theorem State.setEff_tally (f : Fld) (i v : Nat) : (s.setEff f i v).tally = s.tally := rfl
@[simp] theorem State.setEff_errs (f : Fld) (i v : Nat) : (s.setEff f i v).errs = s.errs := rfl
@[simp] theorem State.setEff_regions (f : Fld) (i v : Nat) : (s.setEff f i v).regions = s.regions := rfl
@[simp] theorem State.setEff_module_ (f : Fld) (i v : Nat) : (s.setEff f i v).module_ = s.module_ := rfl
@[simp] theorem State.setEff_ctl (f : Fld) (i v : Nat) : (s.setEff f i v).ctl = s.ctl := rfl
@[simp] theorem State.setEff_sec (f : Fld) (i v : Nat) : (s.setEff f i v).sec = s.sec := rfl
@[simp] theorem State.setEff_flash0 (f : Fld) (i v : Nat) : (s.setEff f i v).flash0 = s.flash0 := rfl
@[simp] theorem State.setEff_flash1 (f : Fld) (i v : Nat) : (s.setEff f i v).flash1 = s.flash1 := rfl
@[simp] theorem State.setEff_time (f : Fld) (i v : Nat) : (s.setEff f i v).time = s.time := rfl
@[simp] theorem State.setEff_rate (f : Fld) (i v : Nat) : (s.setEff f i v).rate = s.rate := rfl
@[simp] theorem State.setEff_fresh (f : Fld) (i v : Nat) : (s.setEff f i v).fresh = s.fresh := rfl
@[simp] theorem State.setEff_free (f : Fld) (i v : Nat) : (s.setEff f i v).free = s.free := rfl
@[simp] theorem State.setEff_pending (f : Fld) (i v : Nat) : (s.setEff f i v).pending = s.pending := rfl

@[simp] theorem State.setCore_regs (i : Nat) (c : CoreSite) : (s.setCore i c).regs = s.regs := rfl
@[simp] theorem State.setCore_eff (i : Nat) (c : CoreSite) : (s.setCore i c).eff = s.eff := rfl
@[simp] theorem State.setCore_mem (i : Nat) (c : CoreSite) : (s.setCore i c).mem = s.mem := rfl
@[simp] theorem State.setCore_poison (i : Nat) (c : CoreSite) : (s.setCore i c).poison = s.poison := rfl
@[simp] theorem State.setCore_clusters (i : Nat) (c : CoreSite) : (s.setCore i c).clusters = s.clusters := rfl
@[simp] theorem State.setCore_launches (i : Nat) (c : CoreSite) : (s.setCore i c).launches = s.launches := rfl
@[simp] theorem State.setCore_later (i : Nat) (c : CoreSite) : (s.setCore i c).later = s.later := rfl
@[simp] theorem State.setCore_running (i : Nat) (c : CoreSite) : (s.setCore i c).running = s.running := rfl
@[simp] theorem State.setCore_deck (i : Nat) (c : CoreSite) : (s.setCore i c).deck = s.deck := rfl
@[simp] theorem State.setCore_hbm (i : Nat) (c : CoreSite) : (s.setCore i c).hbm = s.hbm := rfl
@[simp] theorem State.setCore_cxl (i : Nat) (c : CoreSite) : (s.setCore i c).cxl = s.cxl := rfl
@[simp] theorem State.setCore_mesh (i : Nat) (c : CoreSite) : (s.setCore i c).mesh = s.mesh := rfl
@[simp] theorem State.setCore_movers (i : Nat) (c : CoreSite) : (s.setCore i c).movers = s.movers := rfl
@[simp] theorem State.setCore_jobs (i : Nat) (c : CoreSite) : (s.setCore i c).jobs = s.jobs := rfl
@[simp] theorem State.setCore_fab (i : Nat) (c : CoreSite) : (s.setCore i c).fab = s.fab := rfl
@[simp] theorem State.setCore_tally (i : Nat) (c : CoreSite) : (s.setCore i c).tally = s.tally := rfl
@[simp] theorem State.setCore_errs (i : Nat) (c : CoreSite) : (s.setCore i c).errs = s.errs := rfl
@[simp] theorem State.setCore_regions (i : Nat) (c : CoreSite) : (s.setCore i c).regions = s.regions := rfl
@[simp] theorem State.setCore_module_ (i : Nat) (c : CoreSite) : (s.setCore i c).module_ = s.module_ := rfl
@[simp] theorem State.setCore_ctl (i : Nat) (c : CoreSite) : (s.setCore i c).ctl = s.ctl := rfl
@[simp] theorem State.setCore_sec (i : Nat) (c : CoreSite) : (s.setCore i c).sec = s.sec := rfl
@[simp] theorem State.setCore_flash0 (i : Nat) (c : CoreSite) : (s.setCore i c).flash0 = s.flash0 := rfl
@[simp] theorem State.setCore_flash1 (i : Nat) (c : CoreSite) : (s.setCore i c).flash1 = s.flash1 := rfl
@[simp] theorem State.setCore_time (i : Nat) (c : CoreSite) : (s.setCore i c).time = s.time := rfl
@[simp] theorem State.setCore_rate (i : Nat) (c : CoreSite) : (s.setCore i c).rate = s.rate := rfl
@[simp] theorem State.setCore_fresh (i : Nat) (c : CoreSite) : (s.setCore i c).fresh = s.fresh := rfl
@[simp] theorem State.setCore_free (i : Nat) (c : CoreSite) : (s.setCore i c).free = s.free := rfl
@[simp] theorem State.setCore_pending (i : Nat) (c : CoreSite) : (s.setCore i c).pending = s.pending := rfl

@[simp] theorem State.modCore_regs (i : Nat) (g : CoreSite → CoreSite) : (s.modCore i g).regs = s.regs := rfl
@[simp] theorem State.modCore_eff (i : Nat) (g : CoreSite → CoreSite) : (s.modCore i g).eff = s.eff := rfl
@[simp] theorem State.modCore_mem (i : Nat) (g : CoreSite → CoreSite) : (s.modCore i g).mem = s.mem := rfl
@[simp] theorem State.modCore_poison (i : Nat) (g : CoreSite → CoreSite) : (s.modCore i g).poison = s.poison := rfl
@[simp] theorem State.modCore_clusters (i : Nat) (g : CoreSite → CoreSite) : (s.modCore i g).clusters = s.clusters := rfl
@[simp] theorem State.modCore_launches (i : Nat) (g : CoreSite → CoreSite) : (s.modCore i g).launches = s.launches := rfl
@[simp] theorem State.modCore_later (i : Nat) (g : CoreSite → CoreSite) : (s.modCore i g).later = s.later := rfl
@[simp] theorem State.modCore_running (i : Nat) (g : CoreSite → CoreSite) : (s.modCore i g).running = s.running := rfl
@[simp] theorem State.modCore_deck (i : Nat) (g : CoreSite → CoreSite) : (s.modCore i g).deck = s.deck := rfl
@[simp] theorem State.modCore_hbm (i : Nat) (g : CoreSite → CoreSite) : (s.modCore i g).hbm = s.hbm := rfl
@[simp] theorem State.modCore_cxl (i : Nat) (g : CoreSite → CoreSite) : (s.modCore i g).cxl = s.cxl := rfl
@[simp] theorem State.modCore_mesh (i : Nat) (g : CoreSite → CoreSite) : (s.modCore i g).mesh = s.mesh := rfl
@[simp] theorem State.modCore_movers (i : Nat) (g : CoreSite → CoreSite) : (s.modCore i g).movers = s.movers := rfl
@[simp] theorem State.modCore_jobs (i : Nat) (g : CoreSite → CoreSite) : (s.modCore i g).jobs = s.jobs := rfl
@[simp] theorem State.modCore_fab (i : Nat) (g : CoreSite → CoreSite) : (s.modCore i g).fab = s.fab := rfl
@[simp] theorem State.modCore_tally (i : Nat) (g : CoreSite → CoreSite) : (s.modCore i g).tally = s.tally := rfl
@[simp] theorem State.modCore_errs (i : Nat) (g : CoreSite → CoreSite) : (s.modCore i g).errs = s.errs := rfl
@[simp] theorem State.modCore_regions (i : Nat) (g : CoreSite → CoreSite) : (s.modCore i g).regions = s.regions := rfl
@[simp] theorem State.modCore_module_ (i : Nat) (g : CoreSite → CoreSite) : (s.modCore i g).module_ = s.module_ := rfl
@[simp] theorem State.modCore_ctl (i : Nat) (g : CoreSite → CoreSite) : (s.modCore i g).ctl = s.ctl := rfl
@[simp] theorem State.modCore_sec (i : Nat) (g : CoreSite → CoreSite) : (s.modCore i g).sec = s.sec := rfl
@[simp] theorem State.modCore_flash0 (i : Nat) (g : CoreSite → CoreSite) : (s.modCore i g).flash0 = s.flash0 := rfl
@[simp] theorem State.modCore_flash1 (i : Nat) (g : CoreSite → CoreSite) : (s.modCore i g).flash1 = s.flash1 := rfl
@[simp] theorem State.modCore_time (i : Nat) (g : CoreSite → CoreSite) : (s.modCore i g).time = s.time := rfl
@[simp] theorem State.modCore_rate (i : Nat) (g : CoreSite → CoreSite) : (s.modCore i g).rate = s.rate := rfl
@[simp] theorem State.modCore_fresh (i : Nat) (g : CoreSite → CoreSite) : (s.modCore i g).fresh = s.fresh := rfl
@[simp] theorem State.modCore_free (i : Nat) (g : CoreSite → CoreSite) : (s.modCore i g).free = s.free := rfl
@[simp] theorem State.modCore_pending (i : Nat) (g : CoreSite → CoreSite) : (s.modCore i g).pending = s.pending := rfl

@[simp] theorem State.modCluster_regs (i : Nat) (g : Cluster → Cluster) : (s.modCluster i g).regs = s.regs := rfl
@[simp] theorem State.modCluster_eff (i : Nat) (g : Cluster → Cluster) : (s.modCluster i g).eff = s.eff := rfl
@[simp] theorem State.modCluster_mem (i : Nat) (g : Cluster → Cluster) : (s.modCluster i g).mem = s.mem := rfl
@[simp] theorem State.modCluster_poison (i : Nat) (g : Cluster → Cluster) : (s.modCluster i g).poison = s.poison := rfl
@[simp] theorem State.modCluster_cores (i : Nat) (g : Cluster → Cluster) : (s.modCluster i g).cores = s.cores := rfl
@[simp] theorem State.modCluster_launches (i : Nat) (g : Cluster → Cluster) : (s.modCluster i g).launches = s.launches := rfl
@[simp] theorem State.modCluster_later (i : Nat) (g : Cluster → Cluster) : (s.modCluster i g).later = s.later := rfl
@[simp] theorem State.modCluster_running (i : Nat) (g : Cluster → Cluster) : (s.modCluster i g).running = s.running := rfl
@[simp] theorem State.modCluster_deck (i : Nat) (g : Cluster → Cluster) : (s.modCluster i g).deck = s.deck := rfl
@[simp] theorem State.modCluster_hbm (i : Nat) (g : Cluster → Cluster) : (s.modCluster i g).hbm = s.hbm := rfl
@[simp] theorem State.modCluster_cxl (i : Nat) (g : Cluster → Cluster) : (s.modCluster i g).cxl = s.cxl := rfl
@[simp] theorem State.modCluster_mesh (i : Nat) (g : Cluster → Cluster) : (s.modCluster i g).mesh = s.mesh := rfl
@[simp] theorem State.modCluster_movers (i : Nat) (g : Cluster → Cluster) : (s.modCluster i g).movers = s.movers := rfl
@[simp] theorem State.modCluster_jobs (i : Nat) (g : Cluster → Cluster) : (s.modCluster i g).jobs = s.jobs := rfl
@[simp] theorem State.modCluster_fab (i : Nat) (g : Cluster → Cluster) : (s.modCluster i g).fab = s.fab := rfl
@[simp] theorem State.modCluster_tally (i : Nat) (g : Cluster → Cluster) : (s.modCluster i g).tally = s.tally := rfl
@[simp] theorem State.modCluster_errs (i : Nat) (g : Cluster → Cluster) : (s.modCluster i g).errs = s.errs := rfl
@[simp] theorem State.modCluster_regions (i : Nat) (g : Cluster → Cluster) : (s.modCluster i g).regions = s.regions := rfl
@[simp] theorem State.modCluster_module_ (i : Nat) (g : Cluster → Cluster) : (s.modCluster i g).module_ = s.module_ := rfl
@[simp] theorem State.modCluster_ctl (i : Nat) (g : Cluster → Cluster) : (s.modCluster i g).ctl = s.ctl := rfl
@[simp] theorem State.modCluster_sec (i : Nat) (g : Cluster → Cluster) : (s.modCluster i g).sec = s.sec := rfl
@[simp] theorem State.modCluster_flash0 (i : Nat) (g : Cluster → Cluster) : (s.modCluster i g).flash0 = s.flash0 := rfl
@[simp] theorem State.modCluster_flash1 (i : Nat) (g : Cluster → Cluster) : (s.modCluster i g).flash1 = s.flash1 := rfl
@[simp] theorem State.modCluster_time (i : Nat) (g : Cluster → Cluster) : (s.modCluster i g).time = s.time := rfl
@[simp] theorem State.modCluster_rate (i : Nat) (g : Cluster → Cluster) : (s.modCluster i g).rate = s.rate := rfl
@[simp] theorem State.modCluster_fresh (i : Nat) (g : Cluster → Cluster) : (s.modCluster i g).fresh = s.fresh := rfl
@[simp] theorem State.modCluster_free (i : Nat) (g : Cluster → Cluster) : (s.modCluster i g).free = s.free := rfl
@[simp] theorem State.modCluster_pending (i : Nat) (g : Cluster → Cluster) : (s.modCluster i g).pending = s.pending := rfl

@[simp] theorem State.modRegion_regs (i : Nat) (g : Region → Region) : (s.modRegion i g).regs = s.regs := rfl
@[simp] theorem State.modRegion_eff (i : Nat) (g : Region → Region) : (s.modRegion i g).eff = s.eff := rfl
@[simp] theorem State.modRegion_mem (i : Nat) (g : Region → Region) : (s.modRegion i g).mem = s.mem := rfl
@[simp] theorem State.modRegion_poison (i : Nat) (g : Region → Region) : (s.modRegion i g).poison = s.poison := rfl
@[simp] theorem State.modRegion_cores (i : Nat) (g : Region → Region) : (s.modRegion i g).cores = s.cores := rfl
@[simp] theorem State.modRegion_clusters (i : Nat) (g : Region → Region) : (s.modRegion i g).clusters = s.clusters := rfl
@[simp] theorem State.modRegion_launches (i : Nat) (g : Region → Region) : (s.modRegion i g).launches = s.launches := rfl
@[simp] theorem State.modRegion_later (i : Nat) (g : Region → Region) : (s.modRegion i g).later = s.later := rfl
@[simp] theorem State.modRegion_running (i : Nat) (g : Region → Region) : (s.modRegion i g).running = s.running := rfl
@[simp] theorem State.modRegion_deck (i : Nat) (g : Region → Region) : (s.modRegion i g).deck = s.deck := rfl
@[simp] theorem State.modRegion_hbm (i : Nat) (g : Region → Region) : (s.modRegion i g).hbm = s.hbm := rfl
@[simp] theorem State.modRegion_cxl (i : Nat) (g : Region → Region) : (s.modRegion i g).cxl = s.cxl := rfl
@[simp] theorem State.modRegion_mesh (i : Nat) (g : Region → Region) : (s.modRegion i g).mesh = s.mesh := rfl
@[simp] theorem State.modRegion_movers (i : Nat) (g : Region → Region) : (s.modRegion i g).movers = s.movers := rfl
@[simp] theorem State.modRegion_jobs (i : Nat) (g : Region → Region) : (s.modRegion i g).jobs = s.jobs := rfl
@[simp] theorem State.modRegion_fab (i : Nat) (g : Region → Region) : (s.modRegion i g).fab = s.fab := rfl
@[simp] theorem State.modRegion_tally (i : Nat) (g : Region → Region) : (s.modRegion i g).tally = s.tally := rfl
@[simp] theorem State.modRegion_errs (i : Nat) (g : Region → Region) : (s.modRegion i g).errs = s.errs := rfl
@[simp] theorem State.modRegion_module_ (i : Nat) (g : Region → Region) : (s.modRegion i g).module_ = s.module_ := rfl
@[simp] theorem State.modRegion_ctl (i : Nat) (g : Region → Region) : (s.modRegion i g).ctl = s.ctl := rfl
@[simp] theorem State.modRegion_sec (i : Nat) (g : Region → Region) : (s.modRegion i g).sec = s.sec := rfl
@[simp] theorem State.modRegion_flash0 (i : Nat) (g : Region → Region) : (s.modRegion i g).flash0 = s.flash0 := rfl
@[simp] theorem State.modRegion_flash1 (i : Nat) (g : Region → Region) : (s.modRegion i g).flash1 = s.flash1 := rfl
@[simp] theorem State.modRegion_time (i : Nat) (g : Region → Region) : (s.modRegion i g).time = s.time := rfl
@[simp] theorem State.modRegion_rate (i : Nat) (g : Region → Region) : (s.modRegion i g).rate = s.rate := rfl
@[simp] theorem State.modRegion_fresh (i : Nat) (g : Region → Region) : (s.modRegion i g).fresh = s.fresh := rfl
@[simp] theorem State.modRegion_free (i : Nat) (g : Region → Region) : (s.modRegion i g).free = s.free := rfl
@[simp] theorem State.modRegion_pending (i : Nat) (g : Region → Region) : (s.modRegion i g).pending = s.pending := rfl

@[simp] theorem State.setJob_regs (i : Nat) (x : Option Job) : (s.setJob i x).regs = s.regs := rfl
@[simp] theorem State.setJob_eff (i : Nat) (x : Option Job) : (s.setJob i x).eff = s.eff := rfl
@[simp] theorem State.setJob_mem (i : Nat) (x : Option Job) : (s.setJob i x).mem = s.mem := rfl
@[simp] theorem State.setJob_poison (i : Nat) (x : Option Job) : (s.setJob i x).poison = s.poison := rfl
@[simp] theorem State.setJob_cores (i : Nat) (x : Option Job) : (s.setJob i x).cores = s.cores := rfl
@[simp] theorem State.setJob_clusters (i : Nat) (x : Option Job) : (s.setJob i x).clusters = s.clusters := rfl
@[simp] theorem State.setJob_launches (i : Nat) (x : Option Job) : (s.setJob i x).launches = s.launches := rfl
@[simp] theorem State.setJob_later (i : Nat) (x : Option Job) : (s.setJob i x).later = s.later := rfl
@[simp] theorem State.setJob_running (i : Nat) (x : Option Job) : (s.setJob i x).running = s.running := rfl
@[simp] theorem State.setJob_deck (i : Nat) (x : Option Job) : (s.setJob i x).deck = s.deck := rfl
@[simp] theorem State.setJob_hbm (i : Nat) (x : Option Job) : (s.setJob i x).hbm = s.hbm := rfl
@[simp] theorem State.setJob_cxl (i : Nat) (x : Option Job) : (s.setJob i x).cxl = s.cxl := rfl
@[simp] theorem State.setJob_mesh (i : Nat) (x : Option Job) : (s.setJob i x).mesh = s.mesh := rfl
@[simp] theorem State.setJob_movers (i : Nat) (x : Option Job) : (s.setJob i x).movers = s.movers := rfl
@[simp] theorem State.setJob_fab (i : Nat) (x : Option Job) : (s.setJob i x).fab = s.fab := rfl
@[simp] theorem State.setJob_tally (i : Nat) (x : Option Job) : (s.setJob i x).tally = s.tally := rfl
@[simp] theorem State.setJob_errs (i : Nat) (x : Option Job) : (s.setJob i x).errs = s.errs := rfl
@[simp] theorem State.setJob_regions (i : Nat) (x : Option Job) : (s.setJob i x).regions = s.regions := rfl
@[simp] theorem State.setJob_module_ (i : Nat) (x : Option Job) : (s.setJob i x).module_ = s.module_ := rfl
@[simp] theorem State.setJob_ctl (i : Nat) (x : Option Job) : (s.setJob i x).ctl = s.ctl := rfl
@[simp] theorem State.setJob_sec (i : Nat) (x : Option Job) : (s.setJob i x).sec = s.sec := rfl
@[simp] theorem State.setJob_flash0 (i : Nat) (x : Option Job) : (s.setJob i x).flash0 = s.flash0 := rfl
@[simp] theorem State.setJob_flash1 (i : Nat) (x : Option Job) : (s.setJob i x).flash1 = s.flash1 := rfl
@[simp] theorem State.setJob_time (i : Nat) (x : Option Job) : (s.setJob i x).time = s.time := rfl
@[simp] theorem State.setJob_rate (i : Nat) (x : Option Job) : (s.setJob i x).rate = s.rate := rfl
@[simp] theorem State.setJob_fresh (i : Nat) (x : Option Job) : (s.setJob i x).fresh = s.fresh := rfl
@[simp] theorem State.setJob_free (i : Nat) (x : Option Job) : (s.setJob i x).free = s.free := rfl
@[simp] theorem State.setJob_pending (i : Nat) (x : Option Job) : (s.setJob i x).pending = s.pending := rfl

@[simp] theorem State.setRun_regs (i : Nat) (r : Option LaunchRec) : (s.setRun i r).regs = s.regs := rfl
@[simp] theorem State.setRun_eff (i : Nat) (r : Option LaunchRec) : (s.setRun i r).eff = s.eff := rfl
@[simp] theorem State.setRun_mem (i : Nat) (r : Option LaunchRec) : (s.setRun i r).mem = s.mem := rfl
@[simp] theorem State.setRun_poison (i : Nat) (r : Option LaunchRec) : (s.setRun i r).poison = s.poison := rfl
@[simp] theorem State.setRun_cores (i : Nat) (r : Option LaunchRec) : (s.setRun i r).cores = s.cores := rfl
@[simp] theorem State.setRun_clusters (i : Nat) (r : Option LaunchRec) : (s.setRun i r).clusters = s.clusters := rfl
@[simp] theorem State.setRun_launches (i : Nat) (r : Option LaunchRec) : (s.setRun i r).launches = s.launches := rfl
@[simp] theorem State.setRun_later (i : Nat) (r : Option LaunchRec) : (s.setRun i r).later = s.later := rfl
@[simp] theorem State.setRun_deck (i : Nat) (r : Option LaunchRec) : (s.setRun i r).deck = s.deck := rfl
@[simp] theorem State.setRun_hbm (i : Nat) (r : Option LaunchRec) : (s.setRun i r).hbm = s.hbm := rfl
@[simp] theorem State.setRun_cxl (i : Nat) (r : Option LaunchRec) : (s.setRun i r).cxl = s.cxl := rfl
@[simp] theorem State.setRun_mesh (i : Nat) (r : Option LaunchRec) : (s.setRun i r).mesh = s.mesh := rfl
@[simp] theorem State.setRun_movers (i : Nat) (r : Option LaunchRec) : (s.setRun i r).movers = s.movers := rfl
@[simp] theorem State.setRun_jobs (i : Nat) (r : Option LaunchRec) : (s.setRun i r).jobs = s.jobs := rfl
@[simp] theorem State.setRun_fab (i : Nat) (r : Option LaunchRec) : (s.setRun i r).fab = s.fab := rfl
@[simp] theorem State.setRun_tally (i : Nat) (r : Option LaunchRec) : (s.setRun i r).tally = s.tally := rfl
@[simp] theorem State.setRun_errs (i : Nat) (r : Option LaunchRec) : (s.setRun i r).errs = s.errs := rfl
@[simp] theorem State.setRun_regions (i : Nat) (r : Option LaunchRec) : (s.setRun i r).regions = s.regions := rfl
@[simp] theorem State.setRun_module_ (i : Nat) (r : Option LaunchRec) : (s.setRun i r).module_ = s.module_ := rfl
@[simp] theorem State.setRun_ctl (i : Nat) (r : Option LaunchRec) : (s.setRun i r).ctl = s.ctl := rfl
@[simp] theorem State.setRun_sec (i : Nat) (r : Option LaunchRec) : (s.setRun i r).sec = s.sec := rfl
@[simp] theorem State.setRun_flash0 (i : Nat) (r : Option LaunchRec) : (s.setRun i r).flash0 = s.flash0 := rfl
@[simp] theorem State.setRun_flash1 (i : Nat) (r : Option LaunchRec) : (s.setRun i r).flash1 = s.flash1 := rfl
@[simp] theorem State.setRun_time (i : Nat) (r : Option LaunchRec) : (s.setRun i r).time = s.time := rfl
@[simp] theorem State.setRun_rate (i : Nat) (r : Option LaunchRec) : (s.setRun i r).rate = s.rate := rfl
@[simp] theorem State.setRun_fresh (i : Nat) (r : Option LaunchRec) : (s.setRun i r).fresh = s.fresh := rfl
@[simp] theorem State.setRun_free (i : Nat) (r : Option LaunchRec) : (s.setRun i r).free = s.free := rfl
@[simp] theorem State.setRun_pending (i : Nat) (r : Option LaunchRec) : (s.setRun i r).pending = s.pending := rfl

@[simp] theorem State.setLaunch_regs (i : Nat) (r : Option LaunchRec) : (s.setLaunch i r).regs = s.regs := rfl
@[simp] theorem State.setLaunch_eff (i : Nat) (r : Option LaunchRec) : (s.setLaunch i r).eff = s.eff := rfl
@[simp] theorem State.setLaunch_mem (i : Nat) (r : Option LaunchRec) : (s.setLaunch i r).mem = s.mem := rfl
@[simp] theorem State.setLaunch_poison (i : Nat) (r : Option LaunchRec) : (s.setLaunch i r).poison = s.poison := rfl
@[simp] theorem State.setLaunch_cores (i : Nat) (r : Option LaunchRec) : (s.setLaunch i r).cores = s.cores := rfl
@[simp] theorem State.setLaunch_clusters (i : Nat) (r : Option LaunchRec) : (s.setLaunch i r).clusters = s.clusters := rfl
@[simp] theorem State.setLaunch_later (i : Nat) (r : Option LaunchRec) : (s.setLaunch i r).later = s.later := rfl
@[simp] theorem State.setLaunch_running (i : Nat) (r : Option LaunchRec) : (s.setLaunch i r).running = s.running := rfl
@[simp] theorem State.setLaunch_deck (i : Nat) (r : Option LaunchRec) : (s.setLaunch i r).deck = s.deck := rfl
@[simp] theorem State.setLaunch_hbm (i : Nat) (r : Option LaunchRec) : (s.setLaunch i r).hbm = s.hbm := rfl
@[simp] theorem State.setLaunch_cxl (i : Nat) (r : Option LaunchRec) : (s.setLaunch i r).cxl = s.cxl := rfl
@[simp] theorem State.setLaunch_mesh (i : Nat) (r : Option LaunchRec) : (s.setLaunch i r).mesh = s.mesh := rfl
@[simp] theorem State.setLaunch_movers (i : Nat) (r : Option LaunchRec) : (s.setLaunch i r).movers = s.movers := rfl
@[simp] theorem State.setLaunch_jobs (i : Nat) (r : Option LaunchRec) : (s.setLaunch i r).jobs = s.jobs := rfl
@[simp] theorem State.setLaunch_fab (i : Nat) (r : Option LaunchRec) : (s.setLaunch i r).fab = s.fab := rfl
@[simp] theorem State.setLaunch_tally (i : Nat) (r : Option LaunchRec) : (s.setLaunch i r).tally = s.tally := rfl
@[simp] theorem State.setLaunch_errs (i : Nat) (r : Option LaunchRec) : (s.setLaunch i r).errs = s.errs := rfl
@[simp] theorem State.setLaunch_regions (i : Nat) (r : Option LaunchRec) : (s.setLaunch i r).regions = s.regions := rfl
@[simp] theorem State.setLaunch_module_ (i : Nat) (r : Option LaunchRec) : (s.setLaunch i r).module_ = s.module_ := rfl
@[simp] theorem State.setLaunch_ctl (i : Nat) (r : Option LaunchRec) : (s.setLaunch i r).ctl = s.ctl := rfl
@[simp] theorem State.setLaunch_sec (i : Nat) (r : Option LaunchRec) : (s.setLaunch i r).sec = s.sec := rfl
@[simp] theorem State.setLaunch_flash0 (i : Nat) (r : Option LaunchRec) : (s.setLaunch i r).flash0 = s.flash0 := rfl
@[simp] theorem State.setLaunch_flash1 (i : Nat) (r : Option LaunchRec) : (s.setLaunch i r).flash1 = s.flash1 := rfl
@[simp] theorem State.setLaunch_time (i : Nat) (r : Option LaunchRec) : (s.setLaunch i r).time = s.time := rfl
@[simp] theorem State.setLaunch_rate (i : Nat) (r : Option LaunchRec) : (s.setLaunch i r).rate = s.rate := rfl
@[simp] theorem State.setLaunch_fresh (i : Nat) (r : Option LaunchRec) : (s.setLaunch i r).fresh = s.fresh := rfl
@[simp] theorem State.setLaunch_free (i : Nat) (r : Option LaunchRec) : (s.setLaunch i r).free = s.free := rfl
@[simp] theorem State.setLaunch_pending (i : Nat) (r : Option LaunchRec) : (s.setLaunch i r).pending = s.pending := rfl

@[simp] theorem State.modChip_regs (i : Nat) (g : LinkChip → LinkChip) : (s.modChip i g).regs = s.regs := rfl
@[simp] theorem State.modChip_eff (i : Nat) (g : LinkChip → LinkChip) : (s.modChip i g).eff = s.eff := rfl
@[simp] theorem State.modChip_mem (i : Nat) (g : LinkChip → LinkChip) : (s.modChip i g).mem = s.mem := rfl
@[simp] theorem State.modChip_poison (i : Nat) (g : LinkChip → LinkChip) : (s.modChip i g).poison = s.poison := rfl
@[simp] theorem State.modChip_cores (i : Nat) (g : LinkChip → LinkChip) : (s.modChip i g).cores = s.cores := rfl
@[simp] theorem State.modChip_clusters (i : Nat) (g : LinkChip → LinkChip) : (s.modChip i g).clusters = s.clusters := rfl
@[simp] theorem State.modChip_launches (i : Nat) (g : LinkChip → LinkChip) : (s.modChip i g).launches = s.launches := rfl
@[simp] theorem State.modChip_later (i : Nat) (g : LinkChip → LinkChip) : (s.modChip i g).later = s.later := rfl
@[simp] theorem State.modChip_running (i : Nat) (g : LinkChip → LinkChip) : (s.modChip i g).running = s.running := rfl
@[simp] theorem State.modChip_deck (i : Nat) (g : LinkChip → LinkChip) : (s.modChip i g).deck = s.deck := rfl
@[simp] theorem State.modChip_hbm (i : Nat) (g : LinkChip → LinkChip) : (s.modChip i g).hbm = s.hbm := rfl
@[simp] theorem State.modChip_cxl (i : Nat) (g : LinkChip → LinkChip) : (s.modChip i g).cxl = s.cxl := rfl
@[simp] theorem State.modChip_mesh (i : Nat) (g : LinkChip → LinkChip) : (s.modChip i g).mesh = s.mesh := rfl
@[simp] theorem State.modChip_movers (i : Nat) (g : LinkChip → LinkChip) : (s.modChip i g).movers = s.movers := rfl
@[simp] theorem State.modChip_jobs (i : Nat) (g : LinkChip → LinkChip) : (s.modChip i g).jobs = s.jobs := rfl
@[simp] theorem State.modChip_tally (i : Nat) (g : LinkChip → LinkChip) : (s.modChip i g).tally = s.tally := rfl
@[simp] theorem State.modChip_errs (i : Nat) (g : LinkChip → LinkChip) : (s.modChip i g).errs = s.errs := rfl
@[simp] theorem State.modChip_regions (i : Nat) (g : LinkChip → LinkChip) : (s.modChip i g).regions = s.regions := rfl
@[simp] theorem State.modChip_module_ (i : Nat) (g : LinkChip → LinkChip) : (s.modChip i g).module_ = s.module_ := rfl
@[simp] theorem State.modChip_ctl (i : Nat) (g : LinkChip → LinkChip) : (s.modChip i g).ctl = s.ctl := rfl
@[simp] theorem State.modChip_sec (i : Nat) (g : LinkChip → LinkChip) : (s.modChip i g).sec = s.sec := rfl
@[simp] theorem State.modChip_flash0 (i : Nat) (g : LinkChip → LinkChip) : (s.modChip i g).flash0 = s.flash0 := rfl
@[simp] theorem State.modChip_flash1 (i : Nat) (g : LinkChip → LinkChip) : (s.modChip i g).flash1 = s.flash1 := rfl
@[simp] theorem State.modChip_time (i : Nat) (g : LinkChip → LinkChip) : (s.modChip i g).time = s.time := rfl
@[simp] theorem State.modChip_rate (i : Nat) (g : LinkChip → LinkChip) : (s.modChip i g).rate = s.rate := rfl
@[simp] theorem State.modChip_fresh (i : Nat) (g : LinkChip → LinkChip) : (s.modChip i g).fresh = s.fresh := rfl
@[simp] theorem State.modChip_free (i : Nat) (g : LinkChip → LinkChip) : (s.modChip i g).free = s.free := rfl
@[simp] theorem State.modChip_pending (i : Nat) (g : LinkChip → LinkChip) : (s.modChip i g).pending = s.pending := rfl

@[simp] theorem State.modPort_regs (i : Nat) (g : Port → Port) : (s.modPort i g).regs = s.regs := rfl
@[simp] theorem State.modPort_eff (i : Nat) (g : Port → Port) : (s.modPort i g).eff = s.eff := rfl
@[simp] theorem State.modPort_mem (i : Nat) (g : Port → Port) : (s.modPort i g).mem = s.mem := rfl
@[simp] theorem State.modPort_poison (i : Nat) (g : Port → Port) : (s.modPort i g).poison = s.poison := rfl
@[simp] theorem State.modPort_cores (i : Nat) (g : Port → Port) : (s.modPort i g).cores = s.cores := rfl
@[simp] theorem State.modPort_clusters (i : Nat) (g : Port → Port) : (s.modPort i g).clusters = s.clusters := rfl
@[simp] theorem State.modPort_launches (i : Nat) (g : Port → Port) : (s.modPort i g).launches = s.launches := rfl
@[simp] theorem State.modPort_later (i : Nat) (g : Port → Port) : (s.modPort i g).later = s.later := rfl
@[simp] theorem State.modPort_running (i : Nat) (g : Port → Port) : (s.modPort i g).running = s.running := rfl
@[simp] theorem State.modPort_deck (i : Nat) (g : Port → Port) : (s.modPort i g).deck = s.deck := rfl
@[simp] theorem State.modPort_hbm (i : Nat) (g : Port → Port) : (s.modPort i g).hbm = s.hbm := rfl
@[simp] theorem State.modPort_cxl (i : Nat) (g : Port → Port) : (s.modPort i g).cxl = s.cxl := rfl
@[simp] theorem State.modPort_mesh (i : Nat) (g : Port → Port) : (s.modPort i g).mesh = s.mesh := rfl
@[simp] theorem State.modPort_movers (i : Nat) (g : Port → Port) : (s.modPort i g).movers = s.movers := rfl
@[simp] theorem State.modPort_jobs (i : Nat) (g : Port → Port) : (s.modPort i g).jobs = s.jobs := rfl
@[simp] theorem State.modPort_tally (i : Nat) (g : Port → Port) : (s.modPort i g).tally = s.tally := rfl
@[simp] theorem State.modPort_errs (i : Nat) (g : Port → Port) : (s.modPort i g).errs = s.errs := rfl
@[simp] theorem State.modPort_regions (i : Nat) (g : Port → Port) : (s.modPort i g).regions = s.regions := rfl
@[simp] theorem State.modPort_module_ (i : Nat) (g : Port → Port) : (s.modPort i g).module_ = s.module_ := rfl
@[simp] theorem State.modPort_ctl (i : Nat) (g : Port → Port) : (s.modPort i g).ctl = s.ctl := rfl
@[simp] theorem State.modPort_sec (i : Nat) (g : Port → Port) : (s.modPort i g).sec = s.sec := rfl
@[simp] theorem State.modPort_flash0 (i : Nat) (g : Port → Port) : (s.modPort i g).flash0 = s.flash0 := rfl
@[simp] theorem State.modPort_flash1 (i : Nat) (g : Port → Port) : (s.modPort i g).flash1 = s.flash1 := rfl
@[simp] theorem State.modPort_time (i : Nat) (g : Port → Port) : (s.modPort i g).time = s.time := rfl
@[simp] theorem State.modPort_rate (i : Nat) (g : Port → Port) : (s.modPort i g).rate = s.rate := rfl
@[simp] theorem State.modPort_fresh (i : Nat) (g : Port → Port) : (s.modPort i g).fresh = s.fresh := rfl
@[simp] theorem State.modPort_free (i : Nat) (g : Port → Port) : (s.modPort i g).free = s.free := rfl
@[simp] theorem State.modPort_pending (i : Nat) (g : Port → Port) : (s.modPort i g).pending = s.pending := rfl

@[simp] theorem State.modPartner_regs (i : Nat) (g : Partner → Partner) : (s.modPartner i g).regs = s.regs := rfl
@[simp] theorem State.modPartner_eff (i : Nat) (g : Partner → Partner) : (s.modPartner i g).eff = s.eff := rfl
@[simp] theorem State.modPartner_mem (i : Nat) (g : Partner → Partner) : (s.modPartner i g).mem = s.mem := rfl
@[simp] theorem State.modPartner_poison (i : Nat) (g : Partner → Partner) : (s.modPartner i g).poison = s.poison := rfl
@[simp] theorem State.modPartner_cores (i : Nat) (g : Partner → Partner) : (s.modPartner i g).cores = s.cores := rfl
@[simp] theorem State.modPartner_clusters (i : Nat) (g : Partner → Partner) : (s.modPartner i g).clusters = s.clusters := rfl
@[simp] theorem State.modPartner_launches (i : Nat) (g : Partner → Partner) : (s.modPartner i g).launches = s.launches := rfl
@[simp] theorem State.modPartner_later (i : Nat) (g : Partner → Partner) : (s.modPartner i g).later = s.later := rfl
@[simp] theorem State.modPartner_running (i : Nat) (g : Partner → Partner) : (s.modPartner i g).running = s.running := rfl
@[simp] theorem State.modPartner_deck (i : Nat) (g : Partner → Partner) : (s.modPartner i g).deck = s.deck := rfl
@[simp] theorem State.modPartner_hbm (i : Nat) (g : Partner → Partner) : (s.modPartner i g).hbm = s.hbm := rfl
@[simp] theorem State.modPartner_cxl (i : Nat) (g : Partner → Partner) : (s.modPartner i g).cxl = s.cxl := rfl
@[simp] theorem State.modPartner_mesh (i : Nat) (g : Partner → Partner) : (s.modPartner i g).mesh = s.mesh := rfl
@[simp] theorem State.modPartner_movers (i : Nat) (g : Partner → Partner) : (s.modPartner i g).movers = s.movers := rfl
@[simp] theorem State.modPartner_jobs (i : Nat) (g : Partner → Partner) : (s.modPartner i g).jobs = s.jobs := rfl
@[simp] theorem State.modPartner_tally (i : Nat) (g : Partner → Partner) : (s.modPartner i g).tally = s.tally := rfl
@[simp] theorem State.modPartner_errs (i : Nat) (g : Partner → Partner) : (s.modPartner i g).errs = s.errs := rfl
@[simp] theorem State.modPartner_regions (i : Nat) (g : Partner → Partner) : (s.modPartner i g).regions = s.regions := rfl
@[simp] theorem State.modPartner_module_ (i : Nat) (g : Partner → Partner) : (s.modPartner i g).module_ = s.module_ := rfl
@[simp] theorem State.modPartner_ctl (i : Nat) (g : Partner → Partner) : (s.modPartner i g).ctl = s.ctl := rfl
@[simp] theorem State.modPartner_sec (i : Nat) (g : Partner → Partner) : (s.modPartner i g).sec = s.sec := rfl
@[simp] theorem State.modPartner_flash0 (i : Nat) (g : Partner → Partner) : (s.modPartner i g).flash0 = s.flash0 := rfl
@[simp] theorem State.modPartner_flash1 (i : Nat) (g : Partner → Partner) : (s.modPartner i g).flash1 = s.flash1 := rfl
@[simp] theorem State.modPartner_time (i : Nat) (g : Partner → Partner) : (s.modPartner i g).time = s.time := rfl
@[simp] theorem State.modPartner_rate (i : Nat) (g : Partner → Partner) : (s.modPartner i g).rate = s.rate := rfl
@[simp] theorem State.modPartner_fresh (i : Nat) (g : Partner → Partner) : (s.modPartner i g).fresh = s.fresh := rfl
@[simp] theorem State.modPartner_free (i : Nat) (g : Partner → Partner) : (s.modPartner i g).free = s.free := rfl
@[simp] theorem State.modPartner_pending (i : Nat) (g : Partner → Partner) : (s.modPartner i g).pending = s.pending := rfl

@[simp] theorem State.modWindow_regs (i : Nat) (g : Window → Window) : (s.modWindow i g).regs = s.regs := rfl
@[simp] theorem State.modWindow_eff (i : Nat) (g : Window → Window) : (s.modWindow i g).eff = s.eff := rfl
@[simp] theorem State.modWindow_mem (i : Nat) (g : Window → Window) : (s.modWindow i g).mem = s.mem := rfl
@[simp] theorem State.modWindow_poison (i : Nat) (g : Window → Window) : (s.modWindow i g).poison = s.poison := rfl
@[simp] theorem State.modWindow_cores (i : Nat) (g : Window → Window) : (s.modWindow i g).cores = s.cores := rfl
@[simp] theorem State.modWindow_clusters (i : Nat) (g : Window → Window) : (s.modWindow i g).clusters = s.clusters := rfl
@[simp] theorem State.modWindow_launches (i : Nat) (g : Window → Window) : (s.modWindow i g).launches = s.launches := rfl
@[simp] theorem State.modWindow_later (i : Nat) (g : Window → Window) : (s.modWindow i g).later = s.later := rfl
@[simp] theorem State.modWindow_running (i : Nat) (g : Window → Window) : (s.modWindow i g).running = s.running := rfl
@[simp] theorem State.modWindow_deck (i : Nat) (g : Window → Window) : (s.modWindow i g).deck = s.deck := rfl
@[simp] theorem State.modWindow_hbm (i : Nat) (g : Window → Window) : (s.modWindow i g).hbm = s.hbm := rfl
@[simp] theorem State.modWindow_cxl (i : Nat) (g : Window → Window) : (s.modWindow i g).cxl = s.cxl := rfl
@[simp] theorem State.modWindow_mesh (i : Nat) (g : Window → Window) : (s.modWindow i g).mesh = s.mesh := rfl
@[simp] theorem State.modWindow_movers (i : Nat) (g : Window → Window) : (s.modWindow i g).movers = s.movers := rfl
@[simp] theorem State.modWindow_jobs (i : Nat) (g : Window → Window) : (s.modWindow i g).jobs = s.jobs := rfl
@[simp] theorem State.modWindow_tally (i : Nat) (g : Window → Window) : (s.modWindow i g).tally = s.tally := rfl
@[simp] theorem State.modWindow_errs (i : Nat) (g : Window → Window) : (s.modWindow i g).errs = s.errs := rfl
@[simp] theorem State.modWindow_regions (i : Nat) (g : Window → Window) : (s.modWindow i g).regions = s.regions := rfl
@[simp] theorem State.modWindow_module_ (i : Nat) (g : Window → Window) : (s.modWindow i g).module_ = s.module_ := rfl
@[simp] theorem State.modWindow_ctl (i : Nat) (g : Window → Window) : (s.modWindow i g).ctl = s.ctl := rfl
@[simp] theorem State.modWindow_sec (i : Nat) (g : Window → Window) : (s.modWindow i g).sec = s.sec := rfl
@[simp] theorem State.modWindow_flash0 (i : Nat) (g : Window → Window) : (s.modWindow i g).flash0 = s.flash0 := rfl
@[simp] theorem State.modWindow_flash1 (i : Nat) (g : Window → Window) : (s.modWindow i g).flash1 = s.flash1 := rfl
@[simp] theorem State.modWindow_time (i : Nat) (g : Window → Window) : (s.modWindow i g).time = s.time := rfl
@[simp] theorem State.modWindow_rate (i : Nat) (g : Window → Window) : (s.modWindow i g).rate = s.rate := rfl
@[simp] theorem State.modWindow_fresh (i : Nat) (g : Window → Window) : (s.modWindow i g).fresh = s.fresh := rfl
@[simp] theorem State.modWindow_free (i : Nat) (g : Window → Window) : (s.modWindow i g).free = s.free := rfl
@[simp] theorem State.modWindow_pending (i : Nat) (g : Window → Window) : (s.modWindow i g).pending = s.pending := rfl

@[simp] theorem State.modMover_regs (mv l : Nat) (g : MovList → MovList) : (s.modMover mv l g).regs = s.regs := rfl
@[simp] theorem State.modMover_eff (mv l : Nat) (g : MovList → MovList) : (s.modMover mv l g).eff = s.eff := rfl
@[simp] theorem State.modMover_mem (mv l : Nat) (g : MovList → MovList) : (s.modMover mv l g).mem = s.mem := rfl
@[simp] theorem State.modMover_poison (mv l : Nat) (g : MovList → MovList) : (s.modMover mv l g).poison = s.poison := rfl
@[simp] theorem State.modMover_cores (mv l : Nat) (g : MovList → MovList) : (s.modMover mv l g).cores = s.cores := rfl
@[simp] theorem State.modMover_clusters (mv l : Nat) (g : MovList → MovList) : (s.modMover mv l g).clusters = s.clusters := rfl
@[simp] theorem State.modMover_launches (mv l : Nat) (g : MovList → MovList) : (s.modMover mv l g).launches = s.launches := rfl
@[simp] theorem State.modMover_later (mv l : Nat) (g : MovList → MovList) : (s.modMover mv l g).later = s.later := rfl
@[simp] theorem State.modMover_running (mv l : Nat) (g : MovList → MovList) : (s.modMover mv l g).running = s.running := rfl
@[simp] theorem State.modMover_deck (mv l : Nat) (g : MovList → MovList) : (s.modMover mv l g).deck = s.deck := rfl
@[simp] theorem State.modMover_hbm (mv l : Nat) (g : MovList → MovList) : (s.modMover mv l g).hbm = s.hbm := rfl
@[simp] theorem State.modMover_cxl (mv l : Nat) (g : MovList → MovList) : (s.modMover mv l g).cxl = s.cxl := rfl
@[simp] theorem State.modMover_mesh (mv l : Nat) (g : MovList → MovList) : (s.modMover mv l g).mesh = s.mesh := rfl
@[simp] theorem State.modMover_jobs (mv l : Nat) (g : MovList → MovList) : (s.modMover mv l g).jobs = s.jobs := rfl
@[simp] theorem State.modMover_fab (mv l : Nat) (g : MovList → MovList) : (s.modMover mv l g).fab = s.fab := rfl
@[simp] theorem State.modMover_tally (mv l : Nat) (g : MovList → MovList) : (s.modMover mv l g).tally = s.tally := rfl
@[simp] theorem State.modMover_errs (mv l : Nat) (g : MovList → MovList) : (s.modMover mv l g).errs = s.errs := rfl
@[simp] theorem State.modMover_regions (mv l : Nat) (g : MovList → MovList) : (s.modMover mv l g).regions = s.regions := rfl
@[simp] theorem State.modMover_module_ (mv l : Nat) (g : MovList → MovList) : (s.modMover mv l g).module_ = s.module_ := rfl
@[simp] theorem State.modMover_ctl (mv l : Nat) (g : MovList → MovList) : (s.modMover mv l g).ctl = s.ctl := rfl
@[simp] theorem State.modMover_sec (mv l : Nat) (g : MovList → MovList) : (s.modMover mv l g).sec = s.sec := rfl
@[simp] theorem State.modMover_flash0 (mv l : Nat) (g : MovList → MovList) : (s.modMover mv l g).flash0 = s.flash0 := rfl
@[simp] theorem State.modMover_flash1 (mv l : Nat) (g : MovList → MovList) : (s.modMover mv l g).flash1 = s.flash1 := rfl
@[simp] theorem State.modMover_time (mv l : Nat) (g : MovList → MovList) : (s.modMover mv l g).time = s.time := rfl
@[simp] theorem State.modMover_rate (mv l : Nat) (g : MovList → MovList) : (s.modMover mv l g).rate = s.rate := rfl
@[simp] theorem State.modMover_fresh (mv l : Nat) (g : MovList → MovList) : (s.modMover mv l g).fresh = s.fresh := rfl
@[simp] theorem State.modMover_free (mv l : Nat) (g : MovList → MovList) : (s.modMover mv l g).free = s.free := rfl
@[simp] theorem State.modMover_pending (mv l : Nat) (g : MovList → MovList) : (s.modMover mv l g).pending = s.pending := rfl

@[simp] theorem State.modCc_regs (i : Nat) (g : CtlChip → CtlChip) : (s.modCc i g).regs = s.regs := rfl
@[simp] theorem State.modCc_eff (i : Nat) (g : CtlChip → CtlChip) : (s.modCc i g).eff = s.eff := rfl
@[simp] theorem State.modCc_mem (i : Nat) (g : CtlChip → CtlChip) : (s.modCc i g).mem = s.mem := rfl
@[simp] theorem State.modCc_poison (i : Nat) (g : CtlChip → CtlChip) : (s.modCc i g).poison = s.poison := rfl
@[simp] theorem State.modCc_cores (i : Nat) (g : CtlChip → CtlChip) : (s.modCc i g).cores = s.cores := rfl
@[simp] theorem State.modCc_clusters (i : Nat) (g : CtlChip → CtlChip) : (s.modCc i g).clusters = s.clusters := rfl
@[simp] theorem State.modCc_launches (i : Nat) (g : CtlChip → CtlChip) : (s.modCc i g).launches = s.launches := rfl
@[simp] theorem State.modCc_later (i : Nat) (g : CtlChip → CtlChip) : (s.modCc i g).later = s.later := rfl
@[simp] theorem State.modCc_running (i : Nat) (g : CtlChip → CtlChip) : (s.modCc i g).running = s.running := rfl
@[simp] theorem State.modCc_deck (i : Nat) (g : CtlChip → CtlChip) : (s.modCc i g).deck = s.deck := rfl
@[simp] theorem State.modCc_hbm (i : Nat) (g : CtlChip → CtlChip) : (s.modCc i g).hbm = s.hbm := rfl
@[simp] theorem State.modCc_cxl (i : Nat) (g : CtlChip → CtlChip) : (s.modCc i g).cxl = s.cxl := rfl
@[simp] theorem State.modCc_mesh (i : Nat) (g : CtlChip → CtlChip) : (s.modCc i g).mesh = s.mesh := rfl
@[simp] theorem State.modCc_movers (i : Nat) (g : CtlChip → CtlChip) : (s.modCc i g).movers = s.movers := rfl
@[simp] theorem State.modCc_jobs (i : Nat) (g : CtlChip → CtlChip) : (s.modCc i g).jobs = s.jobs := rfl
@[simp] theorem State.modCc_fab (i : Nat) (g : CtlChip → CtlChip) : (s.modCc i g).fab = s.fab := rfl
@[simp] theorem State.modCc_tally (i : Nat) (g : CtlChip → CtlChip) : (s.modCc i g).tally = s.tally := rfl
@[simp] theorem State.modCc_errs (i : Nat) (g : CtlChip → CtlChip) : (s.modCc i g).errs = s.errs := rfl
@[simp] theorem State.modCc_regions (i : Nat) (g : CtlChip → CtlChip) : (s.modCc i g).regions = s.regions := rfl
@[simp] theorem State.modCc_module_ (i : Nat) (g : CtlChip → CtlChip) : (s.modCc i g).module_ = s.module_ := rfl
@[simp] theorem State.modCc_sec (i : Nat) (g : CtlChip → CtlChip) : (s.modCc i g).sec = s.sec := rfl
@[simp] theorem State.modCc_flash0 (i : Nat) (g : CtlChip → CtlChip) : (s.modCc i g).flash0 = s.flash0 := rfl
@[simp] theorem State.modCc_flash1 (i : Nat) (g : CtlChip → CtlChip) : (s.modCc i g).flash1 = s.flash1 := rfl
@[simp] theorem State.modCc_time (i : Nat) (g : CtlChip → CtlChip) : (s.modCc i g).time = s.time := rfl
@[simp] theorem State.modCc_rate (i : Nat) (g : CtlChip → CtlChip) : (s.modCc i g).rate = s.rate := rfl
@[simp] theorem State.modCc_fresh (i : Nat) (g : CtlChip → CtlChip) : (s.modCc i g).fresh = s.fresh := rfl
@[simp] theorem State.modCc_free (i : Nat) (g : CtlChip → CtlChip) : (s.modCc i g).free = s.free := rfl
@[simp] theorem State.modCc_pending (i : Nat) (g : CtlChip → CtlChip) : (s.modCc i g).pending = s.pending := rfl

@[simp] theorem State.modTally_regs (g : Tally → Tally) : (s.modTally g).regs = s.regs := rfl
@[simp] theorem State.modTally_eff (g : Tally → Tally) : (s.modTally g).eff = s.eff := rfl
@[simp] theorem State.modTally_mem (g : Tally → Tally) : (s.modTally g).mem = s.mem := rfl
@[simp] theorem State.modTally_poison (g : Tally → Tally) : (s.modTally g).poison = s.poison := rfl
@[simp] theorem State.modTally_cores (g : Tally → Tally) : (s.modTally g).cores = s.cores := rfl
@[simp] theorem State.modTally_clusters (g : Tally → Tally) : (s.modTally g).clusters = s.clusters := rfl
@[simp] theorem State.modTally_launches (g : Tally → Tally) : (s.modTally g).launches = s.launches := rfl
@[simp] theorem State.modTally_later (g : Tally → Tally) : (s.modTally g).later = s.later := rfl
@[simp] theorem State.modTally_running (g : Tally → Tally) : (s.modTally g).running = s.running := rfl
@[simp] theorem State.modTally_deck (g : Tally → Tally) : (s.modTally g).deck = s.deck := rfl
@[simp] theorem State.modTally_hbm (g : Tally → Tally) : (s.modTally g).hbm = s.hbm := rfl
@[simp] theorem State.modTally_cxl (g : Tally → Tally) : (s.modTally g).cxl = s.cxl := rfl
@[simp] theorem State.modTally_mesh (g : Tally → Tally) : (s.modTally g).mesh = s.mesh := rfl
@[simp] theorem State.modTally_movers (g : Tally → Tally) : (s.modTally g).movers = s.movers := rfl
@[simp] theorem State.modTally_jobs (g : Tally → Tally) : (s.modTally g).jobs = s.jobs := rfl
@[simp] theorem State.modTally_fab (g : Tally → Tally) : (s.modTally g).fab = s.fab := rfl
@[simp] theorem State.modTally_errs (g : Tally → Tally) : (s.modTally g).errs = s.errs := rfl
@[simp] theorem State.modTally_regions (g : Tally → Tally) : (s.modTally g).regions = s.regions := rfl
@[simp] theorem State.modTally_module_ (g : Tally → Tally) : (s.modTally g).module_ = s.module_ := rfl
@[simp] theorem State.modTally_ctl (g : Tally → Tally) : (s.modTally g).ctl = s.ctl := rfl
@[simp] theorem State.modTally_sec (g : Tally → Tally) : (s.modTally g).sec = s.sec := rfl
@[simp] theorem State.modTally_flash0 (g : Tally → Tally) : (s.modTally g).flash0 = s.flash0 := rfl
@[simp] theorem State.modTally_flash1 (g : Tally → Tally) : (s.modTally g).flash1 = s.flash1 := rfl
@[simp] theorem State.modTally_time (g : Tally → Tally) : (s.modTally g).time = s.time := rfl
@[simp] theorem State.modTally_rate (g : Tally → Tally) : (s.modTally g).rate = s.rate := rfl
@[simp] theorem State.modTally_fresh (g : Tally → Tally) : (s.modTally g).fresh = s.fresh := rfl
@[simp] theorem State.modTally_free (g : Tally → Tally) : (s.modTally g).free = s.free := rfl
@[simp] theorem State.modTally_pending (g : Tally → Tally) : (s.modTally g).pending = s.pending := rfl

@[simp] theorem State.modGate_regs (g : Gate → Gate) : (s.modGate g).regs = s.regs := rfl
@[simp] theorem State.modGate_eff (g : Gate → Gate) : (s.modGate g).eff = s.eff := rfl
@[simp] theorem State.modGate_mem (g : Gate → Gate) : (s.modGate g).mem = s.mem := rfl
@[simp] theorem State.modGate_poison (g : Gate → Gate) : (s.modGate g).poison = s.poison := rfl
@[simp] theorem State.modGate_cores (g : Gate → Gate) : (s.modGate g).cores = s.cores := rfl
@[simp] theorem State.modGate_clusters (g : Gate → Gate) : (s.modGate g).clusters = s.clusters := rfl
@[simp] theorem State.modGate_launches (g : Gate → Gate) : (s.modGate g).launches = s.launches := rfl
@[simp] theorem State.modGate_later (g : Gate → Gate) : (s.modGate g).later = s.later := rfl
@[simp] theorem State.modGate_running (g : Gate → Gate) : (s.modGate g).running = s.running := rfl
@[simp] theorem State.modGate_deck (g : Gate → Gate) : (s.modGate g).deck = s.deck := rfl
@[simp] theorem State.modGate_hbm (g : Gate → Gate) : (s.modGate g).hbm = s.hbm := rfl
@[simp] theorem State.modGate_cxl (g : Gate → Gate) : (s.modGate g).cxl = s.cxl := rfl
@[simp] theorem State.modGate_mesh (g : Gate → Gate) : (s.modGate g).mesh = s.mesh := rfl
@[simp] theorem State.modGate_movers (g : Gate → Gate) : (s.modGate g).movers = s.movers := rfl
@[simp] theorem State.modGate_jobs (g : Gate → Gate) : (s.modGate g).jobs = s.jobs := rfl
@[simp] theorem State.modGate_fab (g : Gate → Gate) : (s.modGate g).fab = s.fab := rfl
@[simp] theorem State.modGate_errs (g : Gate → Gate) : (s.modGate g).errs = s.errs := rfl
@[simp] theorem State.modGate_regions (g : Gate → Gate) : (s.modGate g).regions = s.regions := rfl
@[simp] theorem State.modGate_module_ (g : Gate → Gate) : (s.modGate g).module_ = s.module_ := rfl
@[simp] theorem State.modGate_ctl (g : Gate → Gate) : (s.modGate g).ctl = s.ctl := rfl
@[simp] theorem State.modGate_sec (g : Gate → Gate) : (s.modGate g).sec = s.sec := rfl
@[simp] theorem State.modGate_flash0 (g : Gate → Gate) : (s.modGate g).flash0 = s.flash0 := rfl
@[simp] theorem State.modGate_flash1 (g : Gate → Gate) : (s.modGate g).flash1 = s.flash1 := rfl
@[simp] theorem State.modGate_time (g : Gate → Gate) : (s.modGate g).time = s.time := rfl
@[simp] theorem State.modGate_rate (g : Gate → Gate) : (s.modGate g).rate = s.rate := rfl
@[simp] theorem State.modGate_fresh (g : Gate → Gate) : (s.modGate g).fresh = s.fresh := rfl
@[simp] theorem State.modGate_free (g : Gate → Gate) : (s.modGate g).free = s.free := rfl
@[simp] theorem State.modGate_pending (g : Gate → Gate) : (s.modGate g).pending = s.pending := rfl

@[simp] theorem State.modFab_regs (g : Fabric → Fabric) : (s.modFab g).regs = s.regs := rfl
@[simp] theorem State.modFab_eff (g : Fabric → Fabric) : (s.modFab g).eff = s.eff := rfl
@[simp] theorem State.modFab_mem (g : Fabric → Fabric) : (s.modFab g).mem = s.mem := rfl
@[simp] theorem State.modFab_poison (g : Fabric → Fabric) : (s.modFab g).poison = s.poison := rfl
@[simp] theorem State.modFab_cores (g : Fabric → Fabric) : (s.modFab g).cores = s.cores := rfl
@[simp] theorem State.modFab_clusters (g : Fabric → Fabric) : (s.modFab g).clusters = s.clusters := rfl
@[simp] theorem State.modFab_launches (g : Fabric → Fabric) : (s.modFab g).launches = s.launches := rfl
@[simp] theorem State.modFab_later (g : Fabric → Fabric) : (s.modFab g).later = s.later := rfl
@[simp] theorem State.modFab_running (g : Fabric → Fabric) : (s.modFab g).running = s.running := rfl
@[simp] theorem State.modFab_deck (g : Fabric → Fabric) : (s.modFab g).deck = s.deck := rfl
@[simp] theorem State.modFab_hbm (g : Fabric → Fabric) : (s.modFab g).hbm = s.hbm := rfl
@[simp] theorem State.modFab_cxl (g : Fabric → Fabric) : (s.modFab g).cxl = s.cxl := rfl
@[simp] theorem State.modFab_mesh (g : Fabric → Fabric) : (s.modFab g).mesh = s.mesh := rfl
@[simp] theorem State.modFab_movers (g : Fabric → Fabric) : (s.modFab g).movers = s.movers := rfl
@[simp] theorem State.modFab_jobs (g : Fabric → Fabric) : (s.modFab g).jobs = s.jobs := rfl
@[simp] theorem State.modFab_tally (g : Fabric → Fabric) : (s.modFab g).tally = s.tally := rfl
@[simp] theorem State.modFab_errs (g : Fabric → Fabric) : (s.modFab g).errs = s.errs := rfl
@[simp] theorem State.modFab_regions (g : Fabric → Fabric) : (s.modFab g).regions = s.regions := rfl
@[simp] theorem State.modFab_module_ (g : Fabric → Fabric) : (s.modFab g).module_ = s.module_ := rfl
@[simp] theorem State.modFab_ctl (g : Fabric → Fabric) : (s.modFab g).ctl = s.ctl := rfl
@[simp] theorem State.modFab_sec (g : Fabric → Fabric) : (s.modFab g).sec = s.sec := rfl
@[simp] theorem State.modFab_flash0 (g : Fabric → Fabric) : (s.modFab g).flash0 = s.flash0 := rfl
@[simp] theorem State.modFab_flash1 (g : Fabric → Fabric) : (s.modFab g).flash1 = s.flash1 := rfl
@[simp] theorem State.modFab_time (g : Fabric → Fabric) : (s.modFab g).time = s.time := rfl
@[simp] theorem State.modFab_rate (g : Fabric → Fabric) : (s.modFab g).rate = s.rate := rfl
@[simp] theorem State.modFab_fresh (g : Fabric → Fabric) : (s.modFab g).fresh = s.fresh := rfl
@[simp] theorem State.modFab_free (g : Fabric → Fabric) : (s.modFab g).free = s.free := rfl
@[simp] theorem State.modFab_pending (g : Fabric → Fabric) : (s.modFab g).pending = s.pending := rfl

@[simp] theorem State.modModule_regs (g : Module → Module) : (s.modModule g).regs = s.regs := rfl
@[simp] theorem State.modModule_eff (g : Module → Module) : (s.modModule g).eff = s.eff := rfl
@[simp] theorem State.modModule_mem (g : Module → Module) : (s.modModule g).mem = s.mem := rfl
@[simp] theorem State.modModule_poison (g : Module → Module) : (s.modModule g).poison = s.poison := rfl
@[simp] theorem State.modModule_cores (g : Module → Module) : (s.modModule g).cores = s.cores := rfl
@[simp] theorem State.modModule_clusters (g : Module → Module) : (s.modModule g).clusters = s.clusters := rfl
@[simp] theorem State.modModule_launches (g : Module → Module) : (s.modModule g).launches = s.launches := rfl
@[simp] theorem State.modModule_later (g : Module → Module) : (s.modModule g).later = s.later := rfl
@[simp] theorem State.modModule_running (g : Module → Module) : (s.modModule g).running = s.running := rfl
@[simp] theorem State.modModule_deck (g : Module → Module) : (s.modModule g).deck = s.deck := rfl
@[simp] theorem State.modModule_hbm (g : Module → Module) : (s.modModule g).hbm = s.hbm := rfl
@[simp] theorem State.modModule_cxl (g : Module → Module) : (s.modModule g).cxl = s.cxl := rfl
@[simp] theorem State.modModule_mesh (g : Module → Module) : (s.modModule g).mesh = s.mesh := rfl
@[simp] theorem State.modModule_movers (g : Module → Module) : (s.modModule g).movers = s.movers := rfl
@[simp] theorem State.modModule_jobs (g : Module → Module) : (s.modModule g).jobs = s.jobs := rfl
@[simp] theorem State.modModule_fab (g : Module → Module) : (s.modModule g).fab = s.fab := rfl
@[simp] theorem State.modModule_tally (g : Module → Module) : (s.modModule g).tally = s.tally := rfl
@[simp] theorem State.modModule_errs (g : Module → Module) : (s.modModule g).errs = s.errs := rfl
@[simp] theorem State.modModule_regions (g : Module → Module) : (s.modModule g).regions = s.regions := rfl
@[simp] theorem State.modModule_ctl (g : Module → Module) : (s.modModule g).ctl = s.ctl := rfl
@[simp] theorem State.modModule_sec (g : Module → Module) : (s.modModule g).sec = s.sec := rfl
@[simp] theorem State.modModule_flash0 (g : Module → Module) : (s.modModule g).flash0 = s.flash0 := rfl
@[simp] theorem State.modModule_flash1 (g : Module → Module) : (s.modModule g).flash1 = s.flash1 := rfl
@[simp] theorem State.modModule_time (g : Module → Module) : (s.modModule g).time = s.time := rfl
@[simp] theorem State.modModule_rate (g : Module → Module) : (s.modModule g).rate = s.rate := rfl
@[simp] theorem State.modModule_fresh (g : Module → Module) : (s.modModule g).fresh = s.fresh := rfl
@[simp] theorem State.modModule_free (g : Module → Module) : (s.modModule g).free = s.free := rfl
@[simp] theorem State.modModule_pending (g : Module → Module) : (s.modModule g).pending = s.pending := rfl

@[simp] theorem State.modCtl_regs (g : Control → Control) : (s.modCtl g).regs = s.regs := rfl
@[simp] theorem State.modCtl_eff (g : Control → Control) : (s.modCtl g).eff = s.eff := rfl
@[simp] theorem State.modCtl_mem (g : Control → Control) : (s.modCtl g).mem = s.mem := rfl
@[simp] theorem State.modCtl_poison (g : Control → Control) : (s.modCtl g).poison = s.poison := rfl
@[simp] theorem State.modCtl_cores (g : Control → Control) : (s.modCtl g).cores = s.cores := rfl
@[simp] theorem State.modCtl_clusters (g : Control → Control) : (s.modCtl g).clusters = s.clusters := rfl
@[simp] theorem State.modCtl_launches (g : Control → Control) : (s.modCtl g).launches = s.launches := rfl
@[simp] theorem State.modCtl_later (g : Control → Control) : (s.modCtl g).later = s.later := rfl
@[simp] theorem State.modCtl_running (g : Control → Control) : (s.modCtl g).running = s.running := rfl
@[simp] theorem State.modCtl_deck (g : Control → Control) : (s.modCtl g).deck = s.deck := rfl
@[simp] theorem State.modCtl_hbm (g : Control → Control) : (s.modCtl g).hbm = s.hbm := rfl
@[simp] theorem State.modCtl_cxl (g : Control → Control) : (s.modCtl g).cxl = s.cxl := rfl
@[simp] theorem State.modCtl_mesh (g : Control → Control) : (s.modCtl g).mesh = s.mesh := rfl
@[simp] theorem State.modCtl_movers (g : Control → Control) : (s.modCtl g).movers = s.movers := rfl
@[simp] theorem State.modCtl_jobs (g : Control → Control) : (s.modCtl g).jobs = s.jobs := rfl
@[simp] theorem State.modCtl_fab (g : Control → Control) : (s.modCtl g).fab = s.fab := rfl
@[simp] theorem State.modCtl_tally (g : Control → Control) : (s.modCtl g).tally = s.tally := rfl
@[simp] theorem State.modCtl_errs (g : Control → Control) : (s.modCtl g).errs = s.errs := rfl
@[simp] theorem State.modCtl_regions (g : Control → Control) : (s.modCtl g).regions = s.regions := rfl
@[simp] theorem State.modCtl_module_ (g : Control → Control) : (s.modCtl g).module_ = s.module_ := rfl
@[simp] theorem State.modCtl_sec (g : Control → Control) : (s.modCtl g).sec = s.sec := rfl
@[simp] theorem State.modCtl_flash0 (g : Control → Control) : (s.modCtl g).flash0 = s.flash0 := rfl
@[simp] theorem State.modCtl_flash1 (g : Control → Control) : (s.modCtl g).flash1 = s.flash1 := rfl
@[simp] theorem State.modCtl_time (g : Control → Control) : (s.modCtl g).time = s.time := rfl
@[simp] theorem State.modCtl_rate (g : Control → Control) : (s.modCtl g).rate = s.rate := rfl
@[simp] theorem State.modCtl_fresh (g : Control → Control) : (s.modCtl g).fresh = s.fresh := rfl
@[simp] theorem State.modCtl_free (g : Control → Control) : (s.modCtl g).free = s.free := rfl
@[simp] theorem State.modCtl_pending (g : Control → Control) : (s.modCtl g).pending = s.pending := rfl

@[simp] theorem State.modSec_regs (g : Security → Security) : (s.modSec g).regs = s.regs := rfl
@[simp] theorem State.modSec_eff (g : Security → Security) : (s.modSec g).eff = s.eff := rfl
@[simp] theorem State.modSec_mem (g : Security → Security) : (s.modSec g).mem = s.mem := rfl
@[simp] theorem State.modSec_poison (g : Security → Security) : (s.modSec g).poison = s.poison := rfl
@[simp] theorem State.modSec_cores (g : Security → Security) : (s.modSec g).cores = s.cores := rfl
@[simp] theorem State.modSec_clusters (g : Security → Security) : (s.modSec g).clusters = s.clusters := rfl
@[simp] theorem State.modSec_launches (g : Security → Security) : (s.modSec g).launches = s.launches := rfl
@[simp] theorem State.modSec_later (g : Security → Security) : (s.modSec g).later = s.later := rfl
@[simp] theorem State.modSec_running (g : Security → Security) : (s.modSec g).running = s.running := rfl
@[simp] theorem State.modSec_deck (g : Security → Security) : (s.modSec g).deck = s.deck := rfl
@[simp] theorem State.modSec_hbm (g : Security → Security) : (s.modSec g).hbm = s.hbm := rfl
@[simp] theorem State.modSec_cxl (g : Security → Security) : (s.modSec g).cxl = s.cxl := rfl
@[simp] theorem State.modSec_mesh (g : Security → Security) : (s.modSec g).mesh = s.mesh := rfl
@[simp] theorem State.modSec_movers (g : Security → Security) : (s.modSec g).movers = s.movers := rfl
@[simp] theorem State.modSec_jobs (g : Security → Security) : (s.modSec g).jobs = s.jobs := rfl
@[simp] theorem State.modSec_fab (g : Security → Security) : (s.modSec g).fab = s.fab := rfl
@[simp] theorem State.modSec_tally (g : Security → Security) : (s.modSec g).tally = s.tally := rfl
@[simp] theorem State.modSec_errs (g : Security → Security) : (s.modSec g).errs = s.errs := rfl
@[simp] theorem State.modSec_regions (g : Security → Security) : (s.modSec g).regions = s.regions := rfl
@[simp] theorem State.modSec_module_ (g : Security → Security) : (s.modSec g).module_ = s.module_ := rfl
@[simp] theorem State.modSec_ctl (g : Security → Security) : (s.modSec g).ctl = s.ctl := rfl
@[simp] theorem State.modSec_flash0 (g : Security → Security) : (s.modSec g).flash0 = s.flash0 := rfl
@[simp] theorem State.modSec_flash1 (g : Security → Security) : (s.modSec g).flash1 = s.flash1 := rfl
@[simp] theorem State.modSec_time (g : Security → Security) : (s.modSec g).time = s.time := rfl
@[simp] theorem State.modSec_rate (g : Security → Security) : (s.modSec g).rate = s.rate := rfl
@[simp] theorem State.modSec_fresh (g : Security → Security) : (s.modSec g).fresh = s.fresh := rfl
@[simp] theorem State.modSec_free (g : Security → Security) : (s.modSec g).free = s.free := rfl
@[simp] theorem State.modSec_pending (g : Security → Security) : (s.modSec g).pending = s.pending := rfl

@[simp] theorem State.modDeck_regs (g : Deck → Deck) : (s.modDeck g).regs = s.regs := rfl
@[simp] theorem State.modDeck_eff (g : Deck → Deck) : (s.modDeck g).eff = s.eff := rfl
@[simp] theorem State.modDeck_mem (g : Deck → Deck) : (s.modDeck g).mem = s.mem := rfl
@[simp] theorem State.modDeck_poison (g : Deck → Deck) : (s.modDeck g).poison = s.poison := rfl
@[simp] theorem State.modDeck_cores (g : Deck → Deck) : (s.modDeck g).cores = s.cores := rfl
@[simp] theorem State.modDeck_clusters (g : Deck → Deck) : (s.modDeck g).clusters = s.clusters := rfl
@[simp] theorem State.modDeck_launches (g : Deck → Deck) : (s.modDeck g).launches = s.launches := rfl
@[simp] theorem State.modDeck_later (g : Deck → Deck) : (s.modDeck g).later = s.later := rfl
@[simp] theorem State.modDeck_running (g : Deck → Deck) : (s.modDeck g).running = s.running := rfl
@[simp] theorem State.modDeck_hbm (g : Deck → Deck) : (s.modDeck g).hbm = s.hbm := rfl
@[simp] theorem State.modDeck_cxl (g : Deck → Deck) : (s.modDeck g).cxl = s.cxl := rfl
@[simp] theorem State.modDeck_mesh (g : Deck → Deck) : (s.modDeck g).mesh = s.mesh := rfl
@[simp] theorem State.modDeck_movers (g : Deck → Deck) : (s.modDeck g).movers = s.movers := rfl
@[simp] theorem State.modDeck_jobs (g : Deck → Deck) : (s.modDeck g).jobs = s.jobs := rfl
@[simp] theorem State.modDeck_fab (g : Deck → Deck) : (s.modDeck g).fab = s.fab := rfl
@[simp] theorem State.modDeck_tally (g : Deck → Deck) : (s.modDeck g).tally = s.tally := rfl
@[simp] theorem State.modDeck_errs (g : Deck → Deck) : (s.modDeck g).errs = s.errs := rfl
@[simp] theorem State.modDeck_regions (g : Deck → Deck) : (s.modDeck g).regions = s.regions := rfl
@[simp] theorem State.modDeck_module_ (g : Deck → Deck) : (s.modDeck g).module_ = s.module_ := rfl
@[simp] theorem State.modDeck_ctl (g : Deck → Deck) : (s.modDeck g).ctl = s.ctl := rfl
@[simp] theorem State.modDeck_sec (g : Deck → Deck) : (s.modDeck g).sec = s.sec := rfl
@[simp] theorem State.modDeck_flash0 (g : Deck → Deck) : (s.modDeck g).flash0 = s.flash0 := rfl
@[simp] theorem State.modDeck_flash1 (g : Deck → Deck) : (s.modDeck g).flash1 = s.flash1 := rfl
@[simp] theorem State.modDeck_time (g : Deck → Deck) : (s.modDeck g).time = s.time := rfl
@[simp] theorem State.modDeck_rate (g : Deck → Deck) : (s.modDeck g).rate = s.rate := rfl
@[simp] theorem State.modDeck_fresh (g : Deck → Deck) : (s.modDeck g).fresh = s.fresh := rfl
@[simp] theorem State.modDeck_free (g : Deck → Deck) : (s.modDeck g).free = s.free := rfl
@[simp] theorem State.modDeck_pending (g : Deck → Deck) : (s.modDeck g).pending = s.pending := rfl

@[simp] theorem State.modHbm_regs (g : Hbm → Hbm) : (s.modHbm g).regs = s.regs := rfl
@[simp] theorem State.modHbm_eff (g : Hbm → Hbm) : (s.modHbm g).eff = s.eff := rfl
@[simp] theorem State.modHbm_mem (g : Hbm → Hbm) : (s.modHbm g).mem = s.mem := rfl
@[simp] theorem State.modHbm_poison (g : Hbm → Hbm) : (s.modHbm g).poison = s.poison := rfl
@[simp] theorem State.modHbm_cores (g : Hbm → Hbm) : (s.modHbm g).cores = s.cores := rfl
@[simp] theorem State.modHbm_clusters (g : Hbm → Hbm) : (s.modHbm g).clusters = s.clusters := rfl
@[simp] theorem State.modHbm_launches (g : Hbm → Hbm) : (s.modHbm g).launches = s.launches := rfl
@[simp] theorem State.modHbm_later (g : Hbm → Hbm) : (s.modHbm g).later = s.later := rfl
@[simp] theorem State.modHbm_running (g : Hbm → Hbm) : (s.modHbm g).running = s.running := rfl
@[simp] theorem State.modHbm_deck (g : Hbm → Hbm) : (s.modHbm g).deck = s.deck := rfl
@[simp] theorem State.modHbm_cxl (g : Hbm → Hbm) : (s.modHbm g).cxl = s.cxl := rfl
@[simp] theorem State.modHbm_mesh (g : Hbm → Hbm) : (s.modHbm g).mesh = s.mesh := rfl
@[simp] theorem State.modHbm_movers (g : Hbm → Hbm) : (s.modHbm g).movers = s.movers := rfl
@[simp] theorem State.modHbm_jobs (g : Hbm → Hbm) : (s.modHbm g).jobs = s.jobs := rfl
@[simp] theorem State.modHbm_fab (g : Hbm → Hbm) : (s.modHbm g).fab = s.fab := rfl
@[simp] theorem State.modHbm_tally (g : Hbm → Hbm) : (s.modHbm g).tally = s.tally := rfl
@[simp] theorem State.modHbm_errs (g : Hbm → Hbm) : (s.modHbm g).errs = s.errs := rfl
@[simp] theorem State.modHbm_regions (g : Hbm → Hbm) : (s.modHbm g).regions = s.regions := rfl
@[simp] theorem State.modHbm_module_ (g : Hbm → Hbm) : (s.modHbm g).module_ = s.module_ := rfl
@[simp] theorem State.modHbm_ctl (g : Hbm → Hbm) : (s.modHbm g).ctl = s.ctl := rfl
@[simp] theorem State.modHbm_sec (g : Hbm → Hbm) : (s.modHbm g).sec = s.sec := rfl
@[simp] theorem State.modHbm_flash0 (g : Hbm → Hbm) : (s.modHbm g).flash0 = s.flash0 := rfl
@[simp] theorem State.modHbm_flash1 (g : Hbm → Hbm) : (s.modHbm g).flash1 = s.flash1 := rfl
@[simp] theorem State.modHbm_time (g : Hbm → Hbm) : (s.modHbm g).time = s.time := rfl
@[simp] theorem State.modHbm_rate (g : Hbm → Hbm) : (s.modHbm g).rate = s.rate := rfl
@[simp] theorem State.modHbm_fresh (g : Hbm → Hbm) : (s.modHbm g).fresh = s.fresh := rfl
@[simp] theorem State.modHbm_free (g : Hbm → Hbm) : (s.modHbm g).free = s.free := rfl
@[simp] theorem State.modHbm_pending (g : Hbm → Hbm) : (s.modHbm g).pending = s.pending := rfl

@[simp] theorem State.modErrs_regs (g : Errors → Errors) : (s.modErrs g).regs = s.regs := rfl
@[simp] theorem State.modErrs_eff (g : Errors → Errors) : (s.modErrs g).eff = s.eff := rfl
@[simp] theorem State.modErrs_mem (g : Errors → Errors) : (s.modErrs g).mem = s.mem := rfl
@[simp] theorem State.modErrs_poison (g : Errors → Errors) : (s.modErrs g).poison = s.poison := rfl
@[simp] theorem State.modErrs_cores (g : Errors → Errors) : (s.modErrs g).cores = s.cores := rfl
@[simp] theorem State.modErrs_clusters (g : Errors → Errors) : (s.modErrs g).clusters = s.clusters := rfl
@[simp] theorem State.modErrs_launches (g : Errors → Errors) : (s.modErrs g).launches = s.launches := rfl
@[simp] theorem State.modErrs_later (g : Errors → Errors) : (s.modErrs g).later = s.later := rfl
@[simp] theorem State.modErrs_running (g : Errors → Errors) : (s.modErrs g).running = s.running := rfl
@[simp] theorem State.modErrs_deck (g : Errors → Errors) : (s.modErrs g).deck = s.deck := rfl
@[simp] theorem State.modErrs_hbm (g : Errors → Errors) : (s.modErrs g).hbm = s.hbm := rfl
@[simp] theorem State.modErrs_cxl (g : Errors → Errors) : (s.modErrs g).cxl = s.cxl := rfl
@[simp] theorem State.modErrs_mesh (g : Errors → Errors) : (s.modErrs g).mesh = s.mesh := rfl
@[simp] theorem State.modErrs_movers (g : Errors → Errors) : (s.modErrs g).movers = s.movers := rfl
@[simp] theorem State.modErrs_jobs (g : Errors → Errors) : (s.modErrs g).jobs = s.jobs := rfl
@[simp] theorem State.modErrs_fab (g : Errors → Errors) : (s.modErrs g).fab = s.fab := rfl
@[simp] theorem State.modErrs_tally (g : Errors → Errors) : (s.modErrs g).tally = s.tally := rfl
@[simp] theorem State.modErrs_regions (g : Errors → Errors) : (s.modErrs g).regions = s.regions := rfl
@[simp] theorem State.modErrs_module_ (g : Errors → Errors) : (s.modErrs g).module_ = s.module_ := rfl
@[simp] theorem State.modErrs_ctl (g : Errors → Errors) : (s.modErrs g).ctl = s.ctl := rfl
@[simp] theorem State.modErrs_sec (g : Errors → Errors) : (s.modErrs g).sec = s.sec := rfl
@[simp] theorem State.modErrs_flash0 (g : Errors → Errors) : (s.modErrs g).flash0 = s.flash0 := rfl
@[simp] theorem State.modErrs_flash1 (g : Errors → Errors) : (s.modErrs g).flash1 = s.flash1 := rfl
@[simp] theorem State.modErrs_time (g : Errors → Errors) : (s.modErrs g).time = s.time := rfl
@[simp] theorem State.modErrs_rate (g : Errors → Errors) : (s.modErrs g).rate = s.rate := rfl
@[simp] theorem State.modErrs_fresh (g : Errors → Errors) : (s.modErrs g).fresh = s.fresh := rfl
@[simp] theorem State.modErrs_free (g : Errors → Errors) : (s.modErrs g).free = s.free := rfl
@[simp] theorem State.modErrs_pending (g : Errors → Errors) : (s.modErrs g).pending = s.pending := rfl

@[simp] theorem State.modMesh_regs (g : Mesh → Mesh) : (s.modMesh g).regs = s.regs := rfl
@[simp] theorem State.modMesh_eff (g : Mesh → Mesh) : (s.modMesh g).eff = s.eff := rfl
@[simp] theorem State.modMesh_mem (g : Mesh → Mesh) : (s.modMesh g).mem = s.mem := rfl
@[simp] theorem State.modMesh_poison (g : Mesh → Mesh) : (s.modMesh g).poison = s.poison := rfl
@[simp] theorem State.modMesh_cores (g : Mesh → Mesh) : (s.modMesh g).cores = s.cores := rfl
@[simp] theorem State.modMesh_clusters (g : Mesh → Mesh) : (s.modMesh g).clusters = s.clusters := rfl
@[simp] theorem State.modMesh_launches (g : Mesh → Mesh) : (s.modMesh g).launches = s.launches := rfl
@[simp] theorem State.modMesh_later (g : Mesh → Mesh) : (s.modMesh g).later = s.later := rfl
@[simp] theorem State.modMesh_running (g : Mesh → Mesh) : (s.modMesh g).running = s.running := rfl
@[simp] theorem State.modMesh_deck (g : Mesh → Mesh) : (s.modMesh g).deck = s.deck := rfl
@[simp] theorem State.modMesh_hbm (g : Mesh → Mesh) : (s.modMesh g).hbm = s.hbm := rfl
@[simp] theorem State.modMesh_cxl (g : Mesh → Mesh) : (s.modMesh g).cxl = s.cxl := rfl
@[simp] theorem State.modMesh_movers (g : Mesh → Mesh) : (s.modMesh g).movers = s.movers := rfl
@[simp] theorem State.modMesh_jobs (g : Mesh → Mesh) : (s.modMesh g).jobs = s.jobs := rfl
@[simp] theorem State.modMesh_fab (g : Mesh → Mesh) : (s.modMesh g).fab = s.fab := rfl
@[simp] theorem State.modMesh_tally (g : Mesh → Mesh) : (s.modMesh g).tally = s.tally := rfl
@[simp] theorem State.modMesh_errs (g : Mesh → Mesh) : (s.modMesh g).errs = s.errs := rfl
@[simp] theorem State.modMesh_regions (g : Mesh → Mesh) : (s.modMesh g).regions = s.regions := rfl
@[simp] theorem State.modMesh_module_ (g : Mesh → Mesh) : (s.modMesh g).module_ = s.module_ := rfl
@[simp] theorem State.modMesh_ctl (g : Mesh → Mesh) : (s.modMesh g).ctl = s.ctl := rfl
@[simp] theorem State.modMesh_sec (g : Mesh → Mesh) : (s.modMesh g).sec = s.sec := rfl
@[simp] theorem State.modMesh_flash0 (g : Mesh → Mesh) : (s.modMesh g).flash0 = s.flash0 := rfl
@[simp] theorem State.modMesh_flash1 (g : Mesh → Mesh) : (s.modMesh g).flash1 = s.flash1 := rfl
@[simp] theorem State.modMesh_time (g : Mesh → Mesh) : (s.modMesh g).time = s.time := rfl
@[simp] theorem State.modMesh_rate (g : Mesh → Mesh) : (s.modMesh g).rate = s.rate := rfl
@[simp] theorem State.modMesh_fresh (g : Mesh → Mesh) : (s.modMesh g).fresh = s.fresh := rfl
@[simp] theorem State.modMesh_free (g : Mesh → Mesh) : (s.modMesh g).free = s.free := rfl
@[simp] theorem State.modMesh_pending (g : Mesh → Mesh) : (s.modMesh g).pending = s.pending := rfl

@[simp] theorem State.report_regs (r : Report) : (s.report r).regs = s.regs := rfl
@[simp] theorem State.report_eff (r : Report) : (s.report r).eff = s.eff := rfl
@[simp] theorem State.report_mem (r : Report) : (s.report r).mem = s.mem := rfl
@[simp] theorem State.report_poison (r : Report) : (s.report r).poison = s.poison := rfl
@[simp] theorem State.report_cores (r : Report) : (s.report r).cores = s.cores := rfl
@[simp] theorem State.report_clusters (r : Report) : (s.report r).clusters = s.clusters := rfl
@[simp] theorem State.report_launches (r : Report) : (s.report r).launches = s.launches := rfl
@[simp] theorem State.report_later (r : Report) : (s.report r).later = s.later := rfl
@[simp] theorem State.report_running (r : Report) : (s.report r).running = s.running := rfl
@[simp] theorem State.report_deck (r : Report) : (s.report r).deck = s.deck := rfl
@[simp] theorem State.report_hbm (r : Report) : (s.report r).hbm = s.hbm := rfl
@[simp] theorem State.report_cxl (r : Report) : (s.report r).cxl = s.cxl := rfl
@[simp] theorem State.report_mesh (r : Report) : (s.report r).mesh = s.mesh := rfl
@[simp] theorem State.report_movers (r : Report) : (s.report r).movers = s.movers := rfl
@[simp] theorem State.report_jobs (r : Report) : (s.report r).jobs = s.jobs := rfl
@[simp] theorem State.report_fab (r : Report) : (s.report r).fab = s.fab := rfl
@[simp] theorem State.report_tally (r : Report) : (s.report r).tally = s.tally := rfl
@[simp] theorem State.report_regions (r : Report) : (s.report r).regions = s.regions := rfl
@[simp] theorem State.report_module_ (r : Report) : (s.report r).module_ = s.module_ := rfl
@[simp] theorem State.report_ctl (r : Report) : (s.report r).ctl = s.ctl := rfl
@[simp] theorem State.report_sec (r : Report) : (s.report r).sec = s.sec := rfl
@[simp] theorem State.report_flash0 (r : Report) : (s.report r).flash0 = s.flash0 := rfl
@[simp] theorem State.report_flash1 (r : Report) : (s.report r).flash1 = s.flash1 := rfl
@[simp] theorem State.report_time (r : Report) : (s.report r).time = s.time := rfl
@[simp] theorem State.report_rate (r : Report) : (s.report r).rate = s.rate := rfl
@[simp] theorem State.report_fresh (r : Report) : (s.report r).fresh = s.fresh := rfl
@[simp] theorem State.report_free (r : Report) : (s.report r).free = s.free := rfl
@[simp] theorem State.report_pending (r : Report) : (s.report r).pending = s.pending := rfl

@[simp] theorem State.reportUnit_regs (a b c d : Nat) : (s.reportUnit a b c d).regs = s.regs := rfl
@[simp] theorem State.reportUnit_eff (a b c d : Nat) : (s.reportUnit a b c d).eff = s.eff := rfl
@[simp] theorem State.reportUnit_mem (a b c d : Nat) : (s.reportUnit a b c d).mem = s.mem := rfl
@[simp] theorem State.reportUnit_poison (a b c d : Nat) : (s.reportUnit a b c d).poison = s.poison := rfl
@[simp] theorem State.reportUnit_cores (a b c d : Nat) : (s.reportUnit a b c d).cores = s.cores := rfl
@[simp] theorem State.reportUnit_clusters (a b c d : Nat) : (s.reportUnit a b c d).clusters = s.clusters := rfl
@[simp] theorem State.reportUnit_launches (a b c d : Nat) : (s.reportUnit a b c d).launches = s.launches := rfl
@[simp] theorem State.reportUnit_later (a b c d : Nat) : (s.reportUnit a b c d).later = s.later := rfl
@[simp] theorem State.reportUnit_running (a b c d : Nat) : (s.reportUnit a b c d).running = s.running := rfl
@[simp] theorem State.reportUnit_deck (a b c d : Nat) : (s.reportUnit a b c d).deck = s.deck := rfl
@[simp] theorem State.reportUnit_hbm (a b c d : Nat) : (s.reportUnit a b c d).hbm = s.hbm := rfl
@[simp] theorem State.reportUnit_cxl (a b c d : Nat) : (s.reportUnit a b c d).cxl = s.cxl := rfl
@[simp] theorem State.reportUnit_mesh (a b c d : Nat) : (s.reportUnit a b c d).mesh = s.mesh := rfl
@[simp] theorem State.reportUnit_movers (a b c d : Nat) : (s.reportUnit a b c d).movers = s.movers := rfl
@[simp] theorem State.reportUnit_jobs (a b c d : Nat) : (s.reportUnit a b c d).jobs = s.jobs := rfl
@[simp] theorem State.reportUnit_fab (a b c d : Nat) : (s.reportUnit a b c d).fab = s.fab := rfl
@[simp] theorem State.reportUnit_tally (a b c d : Nat) : (s.reportUnit a b c d).tally = s.tally := rfl
@[simp] theorem State.reportUnit_regions (a b c d : Nat) : (s.reportUnit a b c d).regions = s.regions := rfl
@[simp] theorem State.reportUnit_module_ (a b c d : Nat) : (s.reportUnit a b c d).module_ = s.module_ := rfl
@[simp] theorem State.reportUnit_ctl (a b c d : Nat) : (s.reportUnit a b c d).ctl = s.ctl := rfl
@[simp] theorem State.reportUnit_sec (a b c d : Nat) : (s.reportUnit a b c d).sec = s.sec := rfl
@[simp] theorem State.reportUnit_flash0 (a b c d : Nat) : (s.reportUnit a b c d).flash0 = s.flash0 := rfl
@[simp] theorem State.reportUnit_flash1 (a b c d : Nat) : (s.reportUnit a b c d).flash1 = s.flash1 := rfl
@[simp] theorem State.reportUnit_time (a b c d : Nat) : (s.reportUnit a b c d).time = s.time := rfl
@[simp] theorem State.reportUnit_rate (a b c d : Nat) : (s.reportUnit a b c d).rate = s.rate := rfl
@[simp] theorem State.reportUnit_fresh (a b c d : Nat) : (s.reportUnit a b c d).fresh = s.fresh := rfl
@[simp] theorem State.reportUnit_free (a b c d : Nat) : (s.reportUnit a b c d).free = s.free := rfl
@[simp] theorem State.reportUnit_pending (a b c d : Nat) : (s.reportUnit a b c d).pending = s.pending := rfl

@[simp] theorem State.reportSite_regs (a b c d e f g h : Nat) : (s.reportSite a b c d e f g h).regs = s.regs := rfl
@[simp] theorem State.reportSite_eff (a b c d e f g h : Nat) : (s.reportSite a b c d e f g h).eff = s.eff := rfl
@[simp] theorem State.reportSite_mem (a b c d e f g h : Nat) : (s.reportSite a b c d e f g h).mem = s.mem := rfl
@[simp] theorem State.reportSite_poison (a b c d e f g h : Nat) : (s.reportSite a b c d e f g h).poison = s.poison := rfl
@[simp] theorem State.reportSite_cores (a b c d e f g h : Nat) : (s.reportSite a b c d e f g h).cores = s.cores := rfl
@[simp] theorem State.reportSite_clusters (a b c d e f g h : Nat) : (s.reportSite a b c d e f g h).clusters = s.clusters := rfl
@[simp] theorem State.reportSite_launches (a b c d e f g h : Nat) : (s.reportSite a b c d e f g h).launches = s.launches := rfl
@[simp] theorem State.reportSite_later (a b c d e f g h : Nat) : (s.reportSite a b c d e f g h).later = s.later := rfl
@[simp] theorem State.reportSite_running (a b c d e f g h : Nat) : (s.reportSite a b c d e f g h).running = s.running := rfl
@[simp] theorem State.reportSite_deck (a b c d e f g h : Nat) : (s.reportSite a b c d e f g h).deck = s.deck := rfl
@[simp] theorem State.reportSite_hbm (a b c d e f g h : Nat) : (s.reportSite a b c d e f g h).hbm = s.hbm := rfl
@[simp] theorem State.reportSite_cxl (a b c d e f g h : Nat) : (s.reportSite a b c d e f g h).cxl = s.cxl := rfl
@[simp] theorem State.reportSite_mesh (a b c d e f g h : Nat) : (s.reportSite a b c d e f g h).mesh = s.mesh := rfl
@[simp] theorem State.reportSite_movers (a b c d e f g h : Nat) : (s.reportSite a b c d e f g h).movers = s.movers := rfl
@[simp] theorem State.reportSite_jobs (a b c d e f g h : Nat) : (s.reportSite a b c d e f g h).jobs = s.jobs := rfl
@[simp] theorem State.reportSite_fab (a b c d e f g h : Nat) : (s.reportSite a b c d e f g h).fab = s.fab := rfl
@[simp] theorem State.reportSite_tally (a b c d e f g h : Nat) : (s.reportSite a b c d e f g h).tally = s.tally := rfl
@[simp] theorem State.reportSite_regions (a b c d e f g h : Nat) : (s.reportSite a b c d e f g h).regions = s.regions := rfl
@[simp] theorem State.reportSite_module_ (a b c d e f g h : Nat) : (s.reportSite a b c d e f g h).module_ = s.module_ := rfl
@[simp] theorem State.reportSite_ctl (a b c d e f g h : Nat) : (s.reportSite a b c d e f g h).ctl = s.ctl := rfl
@[simp] theorem State.reportSite_sec (a b c d e f g h : Nat) : (s.reportSite a b c d e f g h).sec = s.sec := rfl
@[simp] theorem State.reportSite_flash0 (a b c d e f g h : Nat) : (s.reportSite a b c d e f g h).flash0 = s.flash0 := rfl
@[simp] theorem State.reportSite_flash1 (a b c d e f g h : Nat) : (s.reportSite a b c d e f g h).flash1 = s.flash1 := rfl
@[simp] theorem State.reportSite_time (a b c d e f g h : Nat) : (s.reportSite a b c d e f g h).time = s.time := rfl
@[simp] theorem State.reportSite_rate (a b c d e f g h : Nat) : (s.reportSite a b c d e f g h).rate = s.rate := rfl
@[simp] theorem State.reportSite_fresh (a b c d e f g h : Nat) : (s.reportSite a b c d e f g h).fresh = s.fresh := rfl
@[simp] theorem State.reportSite_free (a b c d e f g h : Nat) : (s.reportSite a b c d e f g h).free = s.free := rfl
@[simp] theorem State.reportSite_pending (a b c d e f g h : Nat) : (s.reportSite a b c d e f g h).pending = s.pending := rfl

@[simp] theorem State.tallyDev_regs (o n : Nat) : (s.tallyDev o n).regs = s.regs := rfl
@[simp] theorem State.tallyDev_eff (o n : Nat) : (s.tallyDev o n).eff = s.eff := rfl
@[simp] theorem State.tallyDev_mem (o n : Nat) : (s.tallyDev o n).mem = s.mem := rfl
@[simp] theorem State.tallyDev_poison (o n : Nat) : (s.tallyDev o n).poison = s.poison := rfl
@[simp] theorem State.tallyDev_cores (o n : Nat) : (s.tallyDev o n).cores = s.cores := rfl
@[simp] theorem State.tallyDev_clusters (o n : Nat) : (s.tallyDev o n).clusters = s.clusters := rfl
@[simp] theorem State.tallyDev_launches (o n : Nat) : (s.tallyDev o n).launches = s.launches := rfl
@[simp] theorem State.tallyDev_later (o n : Nat) : (s.tallyDev o n).later = s.later := rfl
@[simp] theorem State.tallyDev_running (o n : Nat) : (s.tallyDev o n).running = s.running := rfl
@[simp] theorem State.tallyDev_deck (o n : Nat) : (s.tallyDev o n).deck = s.deck := rfl
@[simp] theorem State.tallyDev_hbm (o n : Nat) : (s.tallyDev o n).hbm = s.hbm := rfl
@[simp] theorem State.tallyDev_cxl (o n : Nat) : (s.tallyDev o n).cxl = s.cxl := rfl
@[simp] theorem State.tallyDev_mesh (o n : Nat) : (s.tallyDev o n).mesh = s.mesh := rfl
@[simp] theorem State.tallyDev_movers (o n : Nat) : (s.tallyDev o n).movers = s.movers := rfl
@[simp] theorem State.tallyDev_jobs (o n : Nat) : (s.tallyDev o n).jobs = s.jobs := rfl
@[simp] theorem State.tallyDev_fab (o n : Nat) : (s.tallyDev o n).fab = s.fab := rfl
@[simp] theorem State.tallyDev_errs (o n : Nat) : (s.tallyDev o n).errs = s.errs := rfl
@[simp] theorem State.tallyDev_regions (o n : Nat) : (s.tallyDev o n).regions = s.regions := rfl
@[simp] theorem State.tallyDev_module_ (o n : Nat) : (s.tallyDev o n).module_ = s.module_ := rfl
@[simp] theorem State.tallyDev_ctl (o n : Nat) : (s.tallyDev o n).ctl = s.ctl := rfl
@[simp] theorem State.tallyDev_sec (o n : Nat) : (s.tallyDev o n).sec = s.sec := rfl
@[simp] theorem State.tallyDev_flash0 (o n : Nat) : (s.tallyDev o n).flash0 = s.flash0 := rfl
@[simp] theorem State.tallyDev_flash1 (o n : Nat) : (s.tallyDev o n).flash1 = s.flash1 := rfl
@[simp] theorem State.tallyDev_time (o n : Nat) : (s.tallyDev o n).time = s.time := rfl
@[simp] theorem State.tallyDev_rate (o n : Nat) : (s.tallyDev o n).rate = s.rate := rfl
@[simp] theorem State.tallyDev_fresh (o n : Nat) : (s.tallyDev o n).fresh = s.fresh := rfl
@[simp] theorem State.tallyDev_free (o n : Nat) : (s.tallyDev o n).free = s.free := rfl
@[simp] theorem State.tallyDev_pending (o n : Nat) : (s.tallyDev o n).pending = s.pending := rfl

@[simp] theorem State.pend_regs (c k n : Nat) : (s.pend c k n).regs = s.regs := rfl
@[simp] theorem State.pend_eff (c k n : Nat) : (s.pend c k n).eff = s.eff := rfl
@[simp] theorem State.pend_mem (c k n : Nat) : (s.pend c k n).mem = s.mem := rfl
@[simp] theorem State.pend_poison (c k n : Nat) : (s.pend c k n).poison = s.poison := rfl
@[simp] theorem State.pend_cores (c k n : Nat) : (s.pend c k n).cores = s.cores := rfl
@[simp] theorem State.pend_launches (c k n : Nat) : (s.pend c k n).launches = s.launches := rfl
@[simp] theorem State.pend_later (c k n : Nat) : (s.pend c k n).later = s.later := rfl
@[simp] theorem State.pend_running (c k n : Nat) : (s.pend c k n).running = s.running := rfl
@[simp] theorem State.pend_deck (c k n : Nat) : (s.pend c k n).deck = s.deck := rfl
@[simp] theorem State.pend_hbm (c k n : Nat) : (s.pend c k n).hbm = s.hbm := rfl
@[simp] theorem State.pend_cxl (c k n : Nat) : (s.pend c k n).cxl = s.cxl := rfl
@[simp] theorem State.pend_mesh (c k n : Nat) : (s.pend c k n).mesh = s.mesh := rfl
@[simp] theorem State.pend_movers (c k n : Nat) : (s.pend c k n).movers = s.movers := rfl
@[simp] theorem State.pend_jobs (c k n : Nat) : (s.pend c k n).jobs = s.jobs := rfl
@[simp] theorem State.pend_fab (c k n : Nat) : (s.pend c k n).fab = s.fab := rfl
@[simp] theorem State.pend_tally (c k n : Nat) : (s.pend c k n).tally = s.tally := rfl
@[simp] theorem State.pend_errs (c k n : Nat) : (s.pend c k n).errs = s.errs := rfl
@[simp] theorem State.pend_regions (c k n : Nat) : (s.pend c k n).regions = s.regions := rfl
@[simp] theorem State.pend_module_ (c k n : Nat) : (s.pend c k n).module_ = s.module_ := rfl
@[simp] theorem State.pend_ctl (c k n : Nat) : (s.pend c k n).ctl = s.ctl := rfl
@[simp] theorem State.pend_sec (c k n : Nat) : (s.pend c k n).sec = s.sec := rfl
@[simp] theorem State.pend_flash0 (c k n : Nat) : (s.pend c k n).flash0 = s.flash0 := rfl
@[simp] theorem State.pend_flash1 (c k n : Nat) : (s.pend c k n).flash1 = s.flash1 := rfl
@[simp] theorem State.pend_time (c k n : Nat) : (s.pend c k n).time = s.time := rfl
@[simp] theorem State.pend_rate (c k n : Nat) : (s.pend c k n).rate = s.rate := rfl
@[simp] theorem State.pend_fresh (c k n : Nat) : (s.pend c k n).fresh = s.fresh := rfl
@[simp] theorem State.pend_free (c k n : Nat) : (s.pend c k n).free = s.free := rfl
@[simp] theorem State.pend_pending (c k n : Nat) : (s.pend c k n).pending = s.pending := rfl

/-! ### Registers -/

theorem State.getF_setF (f g : Fld) (i j v : Nat) :
    (s.setF f i v).getF g j = if g.key j = f.key i then ((v % 2 ^ f.width) ^^^ f.reset) ^^^ g.reset else s.getF g j := by
  unfold State.getF State.setF
  simp only [Tab.get_set]
  split <;> rfl

@[simp] theorem State.getF_setF_same (f : Fld) (i v : Nat) : (s.setF f i v).getF f i = v % 2 ^ f.width := by
  rw [State.getF_setF, if_pos rfl, Nat.xor_assoc, Nat.xor_self, Nat.xor_zero]

theorem State.getF_setF_ne (f g : Fld) (i j v : Nat) (h : g.key j ≠ f.key i) : (s.setF f i v).getF g j = s.getF g j := by
  rw [State.getF_setF, if_neg h]

theorem State.getF_addF_ne (f g : Fld) (i j n : Nat) (h : g.key j ≠ f.key i) : (s.addF f i n).getF g j = s.getF g j :=
  State.getF_setF_ne s f g i j _ h

@[simp] theorem State.getF_addF_same (f : Fld) (i n : Nat) :
    (s.addF f i n).getF f i = min (2 ^ f.width - 1) (s.getF f i + n) := by
  unfold State.addF satAdd
  rw [State.getF_setF_same, Nat.mod_eq_of_lt]
  exact lt_of_le_of_lt (Nat.min_le_left _ _) (Nat.sub_lt (Nat.two_pow_pos _) Nat.one_pos)

/-- Two states with the same registers read the same fields. -/
theorem State.getF_congr (t : State) (h : t.regs = s.regs) (f : Fld) (i : Nat) : t.getF f i = s.getF f i := by
  unfold State.getF; rw [h]

@[simp] theorem State.setF_now (f : Fld) (i v : Nat) : (s.setF f i v).now = s.now := rfl
@[simp] theorem State.addF_now (f : Fld) (i n : Nat) : (s.addF f i n).now = s.now := rfl
@[simp] theorem State.peakF_now (f : Fld) (i v : Nat) : (s.peakF f i v).now = s.now := rfl
@[simp] theorem State.orF_now (f : Fld) (i v : Nat) : (s.orF f i v).now = s.now := rfl
@[simp] theorem State.event_now (p i n : Nat) : (s.event p i n).now = s.now := rfl
@[simp] theorem State.clearF_now (f : Fld) (i v : Nat) : (s.clearF f i v).now = s.now := rfl
@[simp] theorem State.alert_getF (i : Nat) (fl : Fld) (m : Nat) : (s.alert i).getF fl m = s.getF fl m := rfl
@[simp] theorem State.alert_now (i : Nat) : (s.alert i).now = s.now := rfl
@[simp] theorem State.setWaiting_getF (i : Nat) (l : List LaunchRec) (fl : Fld) (m : Nat) : (s.setWaiting i l).getF fl m = s.getF fl m := rfl
@[simp] theorem State.setWaiting_now (i : Nat) (l : List LaunchRec) : (s.setWaiting i l).now = s.now := rfl
@[simp] theorem State.setEff_getF (f : Fld) (i v : Nat) (fl : Fld) (m : Nat) : (s.setEff f i v).getF fl m = s.getF fl m := rfl
@[simp] theorem State.setEff_now (f : Fld) (i v : Nat) : (s.setEff f i v).now = s.now := rfl
@[simp] theorem State.setCore_getF (i : Nat) (c : CoreSite) (fl : Fld) (m : Nat) : (s.setCore i c).getF fl m = s.getF fl m := rfl
@[simp] theorem State.setCore_now (i : Nat) (c : CoreSite) : (s.setCore i c).now = s.now := rfl
@[simp] theorem State.modCore_getF (i : Nat) (g : CoreSite → CoreSite) (fl : Fld) (m : Nat) : (s.modCore i g).getF fl m = s.getF fl m := rfl
@[simp] theorem State.modCore_now (i : Nat) (g : CoreSite → CoreSite) : (s.modCore i g).now = s.now := rfl
@[simp] theorem State.modCluster_getF (i : Nat) (g : Cluster → Cluster) (fl : Fld) (m : Nat) : (s.modCluster i g).getF fl m = s.getF fl m := rfl
@[simp] theorem State.modCluster_now (i : Nat) (g : Cluster → Cluster) : (s.modCluster i g).now = s.now := rfl
@[simp] theorem State.modRegion_getF (i : Nat) (g : Region → Region) (fl : Fld) (m : Nat) : (s.modRegion i g).getF fl m = s.getF fl m := rfl
@[simp] theorem State.modRegion_now (i : Nat) (g : Region → Region) : (s.modRegion i g).now = s.now := rfl
@[simp] theorem State.setJob_getF (i : Nat) (x : Option Job) (fl : Fld) (m : Nat) : (s.setJob i x).getF fl m = s.getF fl m := rfl
@[simp] theorem State.setJob_now (i : Nat) (x : Option Job) : (s.setJob i x).now = s.now := rfl
@[simp] theorem State.setRun_getF (i : Nat) (r : Option LaunchRec) (fl : Fld) (m : Nat) : (s.setRun i r).getF fl m = s.getF fl m := rfl
@[simp] theorem State.setRun_now (i : Nat) (r : Option LaunchRec) : (s.setRun i r).now = s.now := rfl
@[simp] theorem State.setLaunch_getF (i : Nat) (r : Option LaunchRec) (fl : Fld) (m : Nat) : (s.setLaunch i r).getF fl m = s.getF fl m := rfl
@[simp] theorem State.setLaunch_now (i : Nat) (r : Option LaunchRec) : (s.setLaunch i r).now = s.now := rfl
@[simp] theorem State.modChip_getF (i : Nat) (g : LinkChip → LinkChip) (fl : Fld) (m : Nat) : (s.modChip i g).getF fl m = s.getF fl m := rfl
@[simp] theorem State.modChip_now (i : Nat) (g : LinkChip → LinkChip) : (s.modChip i g).now = s.now := rfl
@[simp] theorem State.modPort_getF (i : Nat) (g : Port → Port) (fl : Fld) (m : Nat) : (s.modPort i g).getF fl m = s.getF fl m := rfl
@[simp] theorem State.modPort_now (i : Nat) (g : Port → Port) : (s.modPort i g).now = s.now := rfl
@[simp] theorem State.modPartner_getF (i : Nat) (g : Partner → Partner) (fl : Fld) (m : Nat) : (s.modPartner i g).getF fl m = s.getF fl m := rfl
@[simp] theorem State.modPartner_now (i : Nat) (g : Partner → Partner) : (s.modPartner i g).now = s.now := rfl
@[simp] theorem State.modWindow_getF (i : Nat) (g : Window → Window) (fl : Fld) (m : Nat) : (s.modWindow i g).getF fl m = s.getF fl m := rfl
@[simp] theorem State.modWindow_now (i : Nat) (g : Window → Window) : (s.modWindow i g).now = s.now := rfl
@[simp] theorem State.modMover_getF (mv l : Nat) (g : MovList → MovList) (fl : Fld) (m : Nat) : (s.modMover mv l g).getF fl m = s.getF fl m := rfl
@[simp] theorem State.modMover_now (mv l : Nat) (g : MovList → MovList) : (s.modMover mv l g).now = s.now := rfl
@[simp] theorem State.modCc_getF (i : Nat) (g : CtlChip → CtlChip) (fl : Fld) (m : Nat) : (s.modCc i g).getF fl m = s.getF fl m := rfl
@[simp] theorem State.modCc_now (i : Nat) (g : CtlChip → CtlChip) : (s.modCc i g).now = s.now := rfl
@[simp] theorem State.modTally_getF (g : Tally → Tally) (fl : Fld) (m : Nat) : (s.modTally g).getF fl m = s.getF fl m := rfl
@[simp] theorem State.modTally_now (g : Tally → Tally) : (s.modTally g).now = s.now := rfl
@[simp] theorem State.modGate_getF (g : Gate → Gate) (fl : Fld) (m : Nat) : (s.modGate g).getF fl m = s.getF fl m := rfl
@[simp] theorem State.modGate_now (g : Gate → Gate) : (s.modGate g).now = s.now := rfl
@[simp] theorem State.modFab_getF (g : Fabric → Fabric) (fl : Fld) (m : Nat) : (s.modFab g).getF fl m = s.getF fl m := rfl
@[simp] theorem State.modFab_now (g : Fabric → Fabric) : (s.modFab g).now = s.now := rfl
@[simp] theorem State.modModule_getF (g : Module → Module) (fl : Fld) (m : Nat) : (s.modModule g).getF fl m = s.getF fl m := rfl
@[simp] theorem State.modModule_now (g : Module → Module) : (s.modModule g).now = s.now := rfl
@[simp] theorem State.modCtl_getF (g : Control → Control) (fl : Fld) (m : Nat) : (s.modCtl g).getF fl m = s.getF fl m := rfl
@[simp] theorem State.modCtl_now (g : Control → Control) : (s.modCtl g).now = s.now := rfl
@[simp] theorem State.modSec_getF (g : Security → Security) (fl : Fld) (m : Nat) : (s.modSec g).getF fl m = s.getF fl m := rfl
@[simp] theorem State.modSec_now (g : Security → Security) : (s.modSec g).now = s.now := rfl
@[simp] theorem State.modDeck_getF (g : Deck → Deck) (fl : Fld) (m : Nat) : (s.modDeck g).getF fl m = s.getF fl m := rfl
@[simp] theorem State.modDeck_now (g : Deck → Deck) : (s.modDeck g).now = s.now := rfl
@[simp] theorem State.modHbm_getF (g : Hbm → Hbm) (fl : Fld) (m : Nat) : (s.modHbm g).getF fl m = s.getF fl m := rfl
@[simp] theorem State.modHbm_now (g : Hbm → Hbm) : (s.modHbm g).now = s.now := rfl
@[simp] theorem State.modErrs_getF (g : Errors → Errors) (fl : Fld) (m : Nat) : (s.modErrs g).getF fl m = s.getF fl m := rfl
@[simp] theorem State.modErrs_now (g : Errors → Errors) : (s.modErrs g).now = s.now := rfl
@[simp] theorem State.modMesh_getF (g : Mesh → Mesh) (fl : Fld) (m : Nat) : (s.modMesh g).getF fl m = s.getF fl m := rfl
@[simp] theorem State.modMesh_now (g : Mesh → Mesh) : (s.modMesh g).now = s.now := rfl
@[simp] theorem State.report_getF (r : Report) (fl : Fld) (m : Nat) : (s.report r).getF fl m = s.getF fl m := rfl
@[simp] theorem State.report_now (r : Report) : (s.report r).now = s.now := rfl
@[simp] theorem State.reportUnit_getF (a b c d : Nat) (fl : Fld) (m : Nat) : (s.reportUnit a b c d).getF fl m = s.getF fl m := rfl
@[simp] theorem State.reportUnit_now (a b c d : Nat) : (s.reportUnit a b c d).now = s.now := rfl
@[simp] theorem State.reportSite_getF (a b c d e f g h : Nat) (fl : Fld) (m : Nat) : (s.reportSite a b c d e f g h).getF fl m = s.getF fl m := rfl
@[simp] theorem State.reportSite_now (a b c d e f g h : Nat) : (s.reportSite a b c d e f g h).now = s.now := rfl
@[simp] theorem State.tallyDev_getF (o n : Nat) (fl : Fld) (m : Nat) : (s.tallyDev o n).getF fl m = s.getF fl m := rfl
@[simp] theorem State.tallyDev_now (o n : Nat) : (s.tallyDev o n).now = s.now := rfl
@[simp] theorem State.pend_getF (c k n : Nat) (fl : Fld) (m : Nat) : (s.pend c k n).getF fl m = s.getF fl m := rfl
@[simp] theorem State.pend_now (c k n : Nat) : (s.pend c k n).now = s.now := rfl

/-! ### Parts -/

@[simp] theorem State.core_setCore (i j : Nat) (c : CoreSite) : (s.setCore i c).core j = if j = i then c else s.core j := by
  unfold State.core State.setCore; simp

@[simp] theorem State.core_modCore (i j : Nat) (g : CoreSite → CoreSite) :
    (s.modCore i g).core j = if j = i then g (s.core i) else s.core j := by
  unfold State.modCore; simp

@[simp] theorem State.cluster_modCluster (i j : Nat) (g : Cluster → Cluster) :
    (s.modCluster i g).cluster j = if j = i then g (s.cluster i) else s.cluster j := by
  unfold State.cluster State.modCluster; simp [State.cluster]

@[simp] theorem State.region_modRegion (i j : Nat) (g : Region → Region) :
    (s.modRegion i g).region j = if j = i then g (s.region i) else s.region j := by
  unfold State.region State.modRegion; simp [State.region]

@[simp] theorem State.job_setJob (i k : Nat) (j : Option Job) : (s.setJob i j).job k = if k = i then j else s.job k := by
  unfold State.job State.setJob; simp

@[simp] theorem State.run_setRun (i k : Nat) (r : Option LaunchRec) : (s.setRun i r).run k = if k = i then r else s.run k := by
  unfold State.run State.setRun; simp

@[simp] theorem State.launchOf_setLaunch (i k : Nat) (r : Option LaunchRec) :
    (s.setLaunch i r).launchOf k = if k = i then r else s.launchOf k := by
  unfold State.launchOf State.setLaunch; simp

@[simp] theorem State.laterOf_setWaiting (i k : Nat) (l : List LaunchRec) :
    (s.setWaiting i l).laterOf k = if k = i then l.tail else s.laterOf k := by
  unfold State.laterOf State.setWaiting; simp [State.setLaunch]

@[simp] theorem State.launchOf_setWaiting (i k : Nat) (l : List LaunchRec) :
    (s.setWaiting i l).launchOf k = if k = i then l.head? else s.launchOf k := by
  unfold State.launchOf State.setWaiting; simp [State.setLaunch]

/-- The launches that wait at a site are the list that was put there. -/
@[simp] theorem State.waitingAt_setWaiting (i : Nat) (l : List LaunchRec) : (s.setWaiting i l).waitingAt i = l := by
  unfold State.waitingAt; cases l <;> simp

@[simp] theorem State.chip_modChip (i j : Nat) (g : LinkChip → LinkChip) :
    (s.modChip i g).chip j = if j = i then g (s.chip i) else s.chip j := by
  unfold State.chip State.modChip; simp [State.chip]

@[simp] theorem State.port_modPort (i j : Nat) (g : Port → Port) :
    (s.modPort i g).port j = if j = i then g (s.port i) else s.port j := by
  unfold State.port State.modPort; simp [State.port]

@[simp] theorem State.partner_modPartner (i j : Nat) (g : Partner → Partner) :
    (s.modPartner i g).partner j = if j = i then g (s.partner i) else s.partner j := by
  unfold State.partner State.modPartner; simp [State.partner]

@[simp] theorem State.window_modWindow (i j : Nat) (g : Window → Window) :
    (s.modWindow i g).window j = if j = i then g (s.window i) else s.window j := by
  unfold State.window State.modWindow; simp [State.window]

@[simp] theorem State.cc_modCc (i j : Nat) (g : CtlChip → CtlChip) :
    (s.modCc i g).cc j = if j = i then g (s.cc i) else s.cc j := by
  unfold State.cc State.modCc; simp [State.cc]

@[simp] theorem State.setF_core (f : Fld) (i v : Nat) (nn : Nat) : (s.setF f i v).core nn = s.core nn := rfl
@[simp] theorem State.addF_core (f : Fld) (i n : Nat) (nn : Nat) : (s.addF f i n).core nn = s.core nn := rfl
@[simp] theorem State.peakF_core (f : Fld) (i v : Nat) (nn : Nat) : (s.peakF f i v).core nn = s.core nn := rfl
@[simp] theorem State.orF_core (f : Fld) (i v : Nat) (nn : Nat) : (s.orF f i v).core nn = s.core nn := rfl
@[simp] theorem State.event_core (p i n : Nat) (nn : Nat) : (s.event p i n).core nn = s.core nn := rfl
@[simp] theorem State.clearF_core (f : Fld) (i v : Nat) (nn : Nat) : (s.clearF f i v).core nn = s.core nn := rfl
@[simp] theorem State.alert_core (i : Nat) (nn : Nat) : (s.alert i).core nn = s.core nn := rfl
@[simp] theorem State.setWaiting_core (i : Nat) (l : List LaunchRec) (nn : Nat) : (s.setWaiting i l).core nn = s.core nn := rfl
@[simp] theorem State.setEff_core (f : Fld) (i v : Nat) (nn : Nat) : (s.setEff f i v).core nn = s.core nn := rfl
@[simp] theorem State.modCluster_core (i : Nat) (g : Cluster → Cluster) (nn : Nat) : (s.modCluster i g).core nn = s.core nn := rfl
@[simp] theorem State.modRegion_core (i : Nat) (g : Region → Region) (nn : Nat) : (s.modRegion i g).core nn = s.core nn := rfl
@[simp] theorem State.setJob_core (i : Nat) (x : Option Job) (nn : Nat) : (s.setJob i x).core nn = s.core nn := rfl
@[simp] theorem State.setRun_core (i : Nat) (r : Option LaunchRec) (nn : Nat) : (s.setRun i r).core nn = s.core nn := rfl
@[simp] theorem State.setLaunch_core (i : Nat) (r : Option LaunchRec) (nn : Nat) : (s.setLaunch i r).core nn = s.core nn := rfl
@[simp] theorem State.modChip_core (i : Nat) (g : LinkChip → LinkChip) (nn : Nat) : (s.modChip i g).core nn = s.core nn := rfl
@[simp] theorem State.modPort_core (i : Nat) (g : Port → Port) (nn : Nat) : (s.modPort i g).core nn = s.core nn := rfl
@[simp] theorem State.modPartner_core (i : Nat) (g : Partner → Partner) (nn : Nat) : (s.modPartner i g).core nn = s.core nn := rfl
@[simp] theorem State.modWindow_core (i : Nat) (g : Window → Window) (nn : Nat) : (s.modWindow i g).core nn = s.core nn := rfl
@[simp] theorem State.modMover_core (mv l : Nat) (g : MovList → MovList) (nn : Nat) : (s.modMover mv l g).core nn = s.core nn := rfl
@[simp] theorem State.modCc_core (i : Nat) (g : CtlChip → CtlChip) (nn : Nat) : (s.modCc i g).core nn = s.core nn := rfl
@[simp] theorem State.modTally_core (g : Tally → Tally) (nn : Nat) : (s.modTally g).core nn = s.core nn := rfl
@[simp] theorem State.modGate_core (g : Gate → Gate) (nn : Nat) : (s.modGate g).core nn = s.core nn := rfl
@[simp] theorem State.modFab_core (g : Fabric → Fabric) (nn : Nat) : (s.modFab g).core nn = s.core nn := rfl
@[simp] theorem State.modModule_core (g : Module → Module) (nn : Nat) : (s.modModule g).core nn = s.core nn := rfl
@[simp] theorem State.modCtl_core (g : Control → Control) (nn : Nat) : (s.modCtl g).core nn = s.core nn := rfl
@[simp] theorem State.modSec_core (g : Security → Security) (nn : Nat) : (s.modSec g).core nn = s.core nn := rfl
@[simp] theorem State.modDeck_core (g : Deck → Deck) (nn : Nat) : (s.modDeck g).core nn = s.core nn := rfl
@[simp] theorem State.modHbm_core (g : Hbm → Hbm) (nn : Nat) : (s.modHbm g).core nn = s.core nn := rfl
@[simp] theorem State.modErrs_core (g : Errors → Errors) (nn : Nat) : (s.modErrs g).core nn = s.core nn := rfl
@[simp] theorem State.modMesh_core (g : Mesh → Mesh) (nn : Nat) : (s.modMesh g).core nn = s.core nn := rfl
@[simp] theorem State.report_core (r : Report) (nn : Nat) : (s.report r).core nn = s.core nn := rfl
@[simp] theorem State.reportUnit_core (a b c d : Nat) (nn : Nat) : (s.reportUnit a b c d).core nn = s.core nn := rfl
@[simp] theorem State.reportSite_core (a b c d e f g h : Nat) (nn : Nat) : (s.reportSite a b c d e f g h).core nn = s.core nn := rfl
@[simp] theorem State.tallyDev_core (o n : Nat) (nn : Nat) : (s.tallyDev o n).core nn = s.core nn := rfl
@[simp] theorem State.pend_core (c k n : Nat) (nn : Nat) : (s.pend c k n).core nn = s.core nn := rfl

@[simp] theorem State.setF_cluster (f : Fld) (i v : Nat) (nn : Nat) : (s.setF f i v).cluster nn = s.cluster nn := rfl
@[simp] theorem State.addF_cluster (f : Fld) (i n : Nat) (nn : Nat) : (s.addF f i n).cluster nn = s.cluster nn := rfl
@[simp] theorem State.peakF_cluster (f : Fld) (i v : Nat) (nn : Nat) : (s.peakF f i v).cluster nn = s.cluster nn := rfl
@[simp] theorem State.orF_cluster (f : Fld) (i v : Nat) (nn : Nat) : (s.orF f i v).cluster nn = s.cluster nn := rfl
@[simp] theorem State.event_cluster (p i n : Nat) (nn : Nat) : (s.event p i n).cluster nn = s.cluster nn := rfl
@[simp] theorem State.clearF_cluster (f : Fld) (i v : Nat) (nn : Nat) : (s.clearF f i v).cluster nn = s.cluster nn := rfl
@[simp] theorem State.alert_cluster (i : Nat) (nn : Nat) : (s.alert i).cluster nn = s.cluster nn := rfl
@[simp] theorem State.setWaiting_cluster (i : Nat) (l : List LaunchRec) (nn : Nat) : (s.setWaiting i l).cluster nn = s.cluster nn := rfl
@[simp] theorem State.setEff_cluster (f : Fld) (i v : Nat) (nn : Nat) : (s.setEff f i v).cluster nn = s.cluster nn := rfl
@[simp] theorem State.setCore_cluster (i : Nat) (c : CoreSite) (nn : Nat) : (s.setCore i c).cluster nn = s.cluster nn := rfl
@[simp] theorem State.modCore_cluster (i : Nat) (g : CoreSite → CoreSite) (nn : Nat) : (s.modCore i g).cluster nn = s.cluster nn := rfl
@[simp] theorem State.modRegion_cluster (i : Nat) (g : Region → Region) (nn : Nat) : (s.modRegion i g).cluster nn = s.cluster nn := rfl
@[simp] theorem State.setJob_cluster (i : Nat) (x : Option Job) (nn : Nat) : (s.setJob i x).cluster nn = s.cluster nn := rfl
@[simp] theorem State.setRun_cluster (i : Nat) (r : Option LaunchRec) (nn : Nat) : (s.setRun i r).cluster nn = s.cluster nn := rfl
@[simp] theorem State.setLaunch_cluster (i : Nat) (r : Option LaunchRec) (nn : Nat) : (s.setLaunch i r).cluster nn = s.cluster nn := rfl
@[simp] theorem State.modChip_cluster (i : Nat) (g : LinkChip → LinkChip) (nn : Nat) : (s.modChip i g).cluster nn = s.cluster nn := rfl
@[simp] theorem State.modPort_cluster (i : Nat) (g : Port → Port) (nn : Nat) : (s.modPort i g).cluster nn = s.cluster nn := rfl
@[simp] theorem State.modPartner_cluster (i : Nat) (g : Partner → Partner) (nn : Nat) : (s.modPartner i g).cluster nn = s.cluster nn := rfl
@[simp] theorem State.modWindow_cluster (i : Nat) (g : Window → Window) (nn : Nat) : (s.modWindow i g).cluster nn = s.cluster nn := rfl
@[simp] theorem State.modMover_cluster (mv l : Nat) (g : MovList → MovList) (nn : Nat) : (s.modMover mv l g).cluster nn = s.cluster nn := rfl
@[simp] theorem State.modCc_cluster (i : Nat) (g : CtlChip → CtlChip) (nn : Nat) : (s.modCc i g).cluster nn = s.cluster nn := rfl
@[simp] theorem State.modTally_cluster (g : Tally → Tally) (nn : Nat) : (s.modTally g).cluster nn = s.cluster nn := rfl
@[simp] theorem State.modGate_cluster (g : Gate → Gate) (nn : Nat) : (s.modGate g).cluster nn = s.cluster nn := rfl
@[simp] theorem State.modFab_cluster (g : Fabric → Fabric) (nn : Nat) : (s.modFab g).cluster nn = s.cluster nn := rfl
@[simp] theorem State.modModule_cluster (g : Module → Module) (nn : Nat) : (s.modModule g).cluster nn = s.cluster nn := rfl
@[simp] theorem State.modCtl_cluster (g : Control → Control) (nn : Nat) : (s.modCtl g).cluster nn = s.cluster nn := rfl
@[simp] theorem State.modSec_cluster (g : Security → Security) (nn : Nat) : (s.modSec g).cluster nn = s.cluster nn := rfl
@[simp] theorem State.modDeck_cluster (g : Deck → Deck) (nn : Nat) : (s.modDeck g).cluster nn = s.cluster nn := rfl
@[simp] theorem State.modHbm_cluster (g : Hbm → Hbm) (nn : Nat) : (s.modHbm g).cluster nn = s.cluster nn := rfl
@[simp] theorem State.modErrs_cluster (g : Errors → Errors) (nn : Nat) : (s.modErrs g).cluster nn = s.cluster nn := rfl
@[simp] theorem State.modMesh_cluster (g : Mesh → Mesh) (nn : Nat) : (s.modMesh g).cluster nn = s.cluster nn := rfl
@[simp] theorem State.report_cluster (r : Report) (nn : Nat) : (s.report r).cluster nn = s.cluster nn := rfl
@[simp] theorem State.reportUnit_cluster (a b c d : Nat) (nn : Nat) : (s.reportUnit a b c d).cluster nn = s.cluster nn := rfl
@[simp] theorem State.reportSite_cluster (a b c d e f g h : Nat) (nn : Nat) : (s.reportSite a b c d e f g h).cluster nn = s.cluster nn := rfl
@[simp] theorem State.tallyDev_cluster (o n : Nat) (nn : Nat) : (s.tallyDev o n).cluster nn = s.cluster nn := rfl

@[simp] theorem State.setF_region (f : Fld) (i v : Nat) (nn : Nat) : (s.setF f i v).region nn = s.region nn := rfl
@[simp] theorem State.addF_region (f : Fld) (i n : Nat) (nn : Nat) : (s.addF f i n).region nn = s.region nn := rfl
@[simp] theorem State.peakF_region (f : Fld) (i v : Nat) (nn : Nat) : (s.peakF f i v).region nn = s.region nn := rfl
@[simp] theorem State.orF_region (f : Fld) (i v : Nat) (nn : Nat) : (s.orF f i v).region nn = s.region nn := rfl
@[simp] theorem State.event_region (p i n : Nat) (nn : Nat) : (s.event p i n).region nn = s.region nn := rfl
@[simp] theorem State.clearF_region (f : Fld) (i v : Nat) (nn : Nat) : (s.clearF f i v).region nn = s.region nn := rfl
@[simp] theorem State.alert_region (i : Nat) (nn : Nat) : (s.alert i).region nn = s.region nn := rfl
@[simp] theorem State.setWaiting_region (i : Nat) (l : List LaunchRec) (nn : Nat) : (s.setWaiting i l).region nn = s.region nn := rfl
@[simp] theorem State.setEff_region (f : Fld) (i v : Nat) (nn : Nat) : (s.setEff f i v).region nn = s.region nn := rfl
@[simp] theorem State.setCore_region (i : Nat) (c : CoreSite) (nn : Nat) : (s.setCore i c).region nn = s.region nn := rfl
@[simp] theorem State.modCore_region (i : Nat) (g : CoreSite → CoreSite) (nn : Nat) : (s.modCore i g).region nn = s.region nn := rfl
@[simp] theorem State.modCluster_region (i : Nat) (g : Cluster → Cluster) (nn : Nat) : (s.modCluster i g).region nn = s.region nn := rfl
@[simp] theorem State.setJob_region (i : Nat) (x : Option Job) (nn : Nat) : (s.setJob i x).region nn = s.region nn := rfl
@[simp] theorem State.setRun_region (i : Nat) (r : Option LaunchRec) (nn : Nat) : (s.setRun i r).region nn = s.region nn := rfl
@[simp] theorem State.setLaunch_region (i : Nat) (r : Option LaunchRec) (nn : Nat) : (s.setLaunch i r).region nn = s.region nn := rfl
@[simp] theorem State.modChip_region (i : Nat) (g : LinkChip → LinkChip) (nn : Nat) : (s.modChip i g).region nn = s.region nn := rfl
@[simp] theorem State.modPort_region (i : Nat) (g : Port → Port) (nn : Nat) : (s.modPort i g).region nn = s.region nn := rfl
@[simp] theorem State.modPartner_region (i : Nat) (g : Partner → Partner) (nn : Nat) : (s.modPartner i g).region nn = s.region nn := rfl
@[simp] theorem State.modWindow_region (i : Nat) (g : Window → Window) (nn : Nat) : (s.modWindow i g).region nn = s.region nn := rfl
@[simp] theorem State.modMover_region (mv l : Nat) (g : MovList → MovList) (nn : Nat) : (s.modMover mv l g).region nn = s.region nn := rfl
@[simp] theorem State.modCc_region (i : Nat) (g : CtlChip → CtlChip) (nn : Nat) : (s.modCc i g).region nn = s.region nn := rfl
@[simp] theorem State.modTally_region (g : Tally → Tally) (nn : Nat) : (s.modTally g).region nn = s.region nn := rfl
@[simp] theorem State.modGate_region (g : Gate → Gate) (nn : Nat) : (s.modGate g).region nn = s.region nn := rfl
@[simp] theorem State.modFab_region (g : Fabric → Fabric) (nn : Nat) : (s.modFab g).region nn = s.region nn := rfl
@[simp] theorem State.modModule_region (g : Module → Module) (nn : Nat) : (s.modModule g).region nn = s.region nn := rfl
@[simp] theorem State.modCtl_region (g : Control → Control) (nn : Nat) : (s.modCtl g).region nn = s.region nn := rfl
@[simp] theorem State.modSec_region (g : Security → Security) (nn : Nat) : (s.modSec g).region nn = s.region nn := rfl
@[simp] theorem State.modDeck_region (g : Deck → Deck) (nn : Nat) : (s.modDeck g).region nn = s.region nn := rfl
@[simp] theorem State.modHbm_region (g : Hbm → Hbm) (nn : Nat) : (s.modHbm g).region nn = s.region nn := rfl
@[simp] theorem State.modErrs_region (g : Errors → Errors) (nn : Nat) : (s.modErrs g).region nn = s.region nn := rfl
@[simp] theorem State.modMesh_region (g : Mesh → Mesh) (nn : Nat) : (s.modMesh g).region nn = s.region nn := rfl
@[simp] theorem State.report_region (r : Report) (nn : Nat) : (s.report r).region nn = s.region nn := rfl
@[simp] theorem State.reportUnit_region (a b c d : Nat) (nn : Nat) : (s.reportUnit a b c d).region nn = s.region nn := rfl
@[simp] theorem State.reportSite_region (a b c d e f g h : Nat) (nn : Nat) : (s.reportSite a b c d e f g h).region nn = s.region nn := rfl
@[simp] theorem State.tallyDev_region (o n : Nat) (nn : Nat) : (s.tallyDev o n).region nn = s.region nn := rfl
@[simp] theorem State.pend_region (c k n : Nat) (nn : Nat) : (s.pend c k n).region nn = s.region nn := rfl

@[simp] theorem State.setF_job (f : Fld) (i v : Nat) (nn : Nat) : (s.setF f i v).job nn = s.job nn := rfl
@[simp] theorem State.addF_job (f : Fld) (i n : Nat) (nn : Nat) : (s.addF f i n).job nn = s.job nn := rfl
@[simp] theorem State.peakF_job (f : Fld) (i v : Nat) (nn : Nat) : (s.peakF f i v).job nn = s.job nn := rfl
@[simp] theorem State.orF_job (f : Fld) (i v : Nat) (nn : Nat) : (s.orF f i v).job nn = s.job nn := rfl
@[simp] theorem State.event_job (p i n : Nat) (nn : Nat) : (s.event p i n).job nn = s.job nn := rfl
@[simp] theorem State.clearF_job (f : Fld) (i v : Nat) (nn : Nat) : (s.clearF f i v).job nn = s.job nn := rfl
@[simp] theorem State.alert_job (i : Nat) (nn : Nat) : (s.alert i).job nn = s.job nn := rfl
@[simp] theorem State.setWaiting_job (i : Nat) (l : List LaunchRec) (nn : Nat) : (s.setWaiting i l).job nn = s.job nn := rfl
@[simp] theorem State.setEff_job (f : Fld) (i v : Nat) (nn : Nat) : (s.setEff f i v).job nn = s.job nn := rfl
@[simp] theorem State.setCore_job (i : Nat) (c : CoreSite) (nn : Nat) : (s.setCore i c).job nn = s.job nn := rfl
@[simp] theorem State.modCore_job (i : Nat) (g : CoreSite → CoreSite) (nn : Nat) : (s.modCore i g).job nn = s.job nn := rfl
@[simp] theorem State.modCluster_job (i : Nat) (g : Cluster → Cluster) (nn : Nat) : (s.modCluster i g).job nn = s.job nn := rfl
@[simp] theorem State.modRegion_job (i : Nat) (g : Region → Region) (nn : Nat) : (s.modRegion i g).job nn = s.job nn := rfl
@[simp] theorem State.setRun_job (i : Nat) (r : Option LaunchRec) (nn : Nat) : (s.setRun i r).job nn = s.job nn := rfl
@[simp] theorem State.setLaunch_job (i : Nat) (r : Option LaunchRec) (nn : Nat) : (s.setLaunch i r).job nn = s.job nn := rfl
@[simp] theorem State.modChip_job (i : Nat) (g : LinkChip → LinkChip) (nn : Nat) : (s.modChip i g).job nn = s.job nn := rfl
@[simp] theorem State.modPort_job (i : Nat) (g : Port → Port) (nn : Nat) : (s.modPort i g).job nn = s.job nn := rfl
@[simp] theorem State.modPartner_job (i : Nat) (g : Partner → Partner) (nn : Nat) : (s.modPartner i g).job nn = s.job nn := rfl
@[simp] theorem State.modWindow_job (i : Nat) (g : Window → Window) (nn : Nat) : (s.modWindow i g).job nn = s.job nn := rfl
@[simp] theorem State.modMover_job (mv l : Nat) (g : MovList → MovList) (nn : Nat) : (s.modMover mv l g).job nn = s.job nn := rfl
@[simp] theorem State.modCc_job (i : Nat) (g : CtlChip → CtlChip) (nn : Nat) : (s.modCc i g).job nn = s.job nn := rfl
@[simp] theorem State.modTally_job (g : Tally → Tally) (nn : Nat) : (s.modTally g).job nn = s.job nn := rfl
@[simp] theorem State.modGate_job (g : Gate → Gate) (nn : Nat) : (s.modGate g).job nn = s.job nn := rfl
@[simp] theorem State.modFab_job (g : Fabric → Fabric) (nn : Nat) : (s.modFab g).job nn = s.job nn := rfl
@[simp] theorem State.modModule_job (g : Module → Module) (nn : Nat) : (s.modModule g).job nn = s.job nn := rfl
@[simp] theorem State.modCtl_job (g : Control → Control) (nn : Nat) : (s.modCtl g).job nn = s.job nn := rfl
@[simp] theorem State.modSec_job (g : Security → Security) (nn : Nat) : (s.modSec g).job nn = s.job nn := rfl
@[simp] theorem State.modDeck_job (g : Deck → Deck) (nn : Nat) : (s.modDeck g).job nn = s.job nn := rfl
@[simp] theorem State.modHbm_job (g : Hbm → Hbm) (nn : Nat) : (s.modHbm g).job nn = s.job nn := rfl
@[simp] theorem State.modErrs_job (g : Errors → Errors) (nn : Nat) : (s.modErrs g).job nn = s.job nn := rfl
@[simp] theorem State.modMesh_job (g : Mesh → Mesh) (nn : Nat) : (s.modMesh g).job nn = s.job nn := rfl
@[simp] theorem State.report_job (r : Report) (nn : Nat) : (s.report r).job nn = s.job nn := rfl
@[simp] theorem State.reportUnit_job (a b c d : Nat) (nn : Nat) : (s.reportUnit a b c d).job nn = s.job nn := rfl
@[simp] theorem State.reportSite_job (a b c d e f g h : Nat) (nn : Nat) : (s.reportSite a b c d e f g h).job nn = s.job nn := rfl
@[simp] theorem State.tallyDev_job (o n : Nat) (nn : Nat) : (s.tallyDev o n).job nn = s.job nn := rfl
@[simp] theorem State.pend_job (c k n : Nat) (nn : Nat) : (s.pend c k n).job nn = s.job nn := rfl

@[simp] theorem State.setF_run (f : Fld) (i v : Nat) (nn : Nat) : (s.setF f i v).run nn = s.run nn := rfl
@[simp] theorem State.addF_run (f : Fld) (i n : Nat) (nn : Nat) : (s.addF f i n).run nn = s.run nn := rfl
@[simp] theorem State.peakF_run (f : Fld) (i v : Nat) (nn : Nat) : (s.peakF f i v).run nn = s.run nn := rfl
@[simp] theorem State.orF_run (f : Fld) (i v : Nat) (nn : Nat) : (s.orF f i v).run nn = s.run nn := rfl
@[simp] theorem State.event_run (p i n : Nat) (nn : Nat) : (s.event p i n).run nn = s.run nn := rfl
@[simp] theorem State.clearF_run (f : Fld) (i v : Nat) (nn : Nat) : (s.clearF f i v).run nn = s.run nn := rfl
@[simp] theorem State.alert_run (i : Nat) (nn : Nat) : (s.alert i).run nn = s.run nn := rfl
@[simp] theorem State.setWaiting_run (i : Nat) (l : List LaunchRec) (nn : Nat) : (s.setWaiting i l).run nn = s.run nn := rfl
@[simp] theorem State.setEff_run (f : Fld) (i v : Nat) (nn : Nat) : (s.setEff f i v).run nn = s.run nn := rfl
@[simp] theorem State.setCore_run (i : Nat) (c : CoreSite) (nn : Nat) : (s.setCore i c).run nn = s.run nn := rfl
@[simp] theorem State.modCore_run (i : Nat) (g : CoreSite → CoreSite) (nn : Nat) : (s.modCore i g).run nn = s.run nn := rfl
@[simp] theorem State.modCluster_run (i : Nat) (g : Cluster → Cluster) (nn : Nat) : (s.modCluster i g).run nn = s.run nn := rfl
@[simp] theorem State.modRegion_run (i : Nat) (g : Region → Region) (nn : Nat) : (s.modRegion i g).run nn = s.run nn := rfl
@[simp] theorem State.setJob_run (i : Nat) (x : Option Job) (nn : Nat) : (s.setJob i x).run nn = s.run nn := rfl
@[simp] theorem State.setLaunch_run (i : Nat) (r : Option LaunchRec) (nn : Nat) : (s.setLaunch i r).run nn = s.run nn := rfl
@[simp] theorem State.modChip_run (i : Nat) (g : LinkChip → LinkChip) (nn : Nat) : (s.modChip i g).run nn = s.run nn := rfl
@[simp] theorem State.modPort_run (i : Nat) (g : Port → Port) (nn : Nat) : (s.modPort i g).run nn = s.run nn := rfl
@[simp] theorem State.modPartner_run (i : Nat) (g : Partner → Partner) (nn : Nat) : (s.modPartner i g).run nn = s.run nn := rfl
@[simp] theorem State.modWindow_run (i : Nat) (g : Window → Window) (nn : Nat) : (s.modWindow i g).run nn = s.run nn := rfl
@[simp] theorem State.modMover_run (mv l : Nat) (g : MovList → MovList) (nn : Nat) : (s.modMover mv l g).run nn = s.run nn := rfl
@[simp] theorem State.modCc_run (i : Nat) (g : CtlChip → CtlChip) (nn : Nat) : (s.modCc i g).run nn = s.run nn := rfl
@[simp] theorem State.modTally_run (g : Tally → Tally) (nn : Nat) : (s.modTally g).run nn = s.run nn := rfl
@[simp] theorem State.modGate_run (g : Gate → Gate) (nn : Nat) : (s.modGate g).run nn = s.run nn := rfl
@[simp] theorem State.modFab_run (g : Fabric → Fabric) (nn : Nat) : (s.modFab g).run nn = s.run nn := rfl
@[simp] theorem State.modModule_run (g : Module → Module) (nn : Nat) : (s.modModule g).run nn = s.run nn := rfl
@[simp] theorem State.modCtl_run (g : Control → Control) (nn : Nat) : (s.modCtl g).run nn = s.run nn := rfl
@[simp] theorem State.modSec_run (g : Security → Security) (nn : Nat) : (s.modSec g).run nn = s.run nn := rfl
@[simp] theorem State.modDeck_run (g : Deck → Deck) (nn : Nat) : (s.modDeck g).run nn = s.run nn := rfl
@[simp] theorem State.modHbm_run (g : Hbm → Hbm) (nn : Nat) : (s.modHbm g).run nn = s.run nn := rfl
@[simp] theorem State.modErrs_run (g : Errors → Errors) (nn : Nat) : (s.modErrs g).run nn = s.run nn := rfl
@[simp] theorem State.modMesh_run (g : Mesh → Mesh) (nn : Nat) : (s.modMesh g).run nn = s.run nn := rfl
@[simp] theorem State.report_run (r : Report) (nn : Nat) : (s.report r).run nn = s.run nn := rfl
@[simp] theorem State.reportUnit_run (a b c d : Nat) (nn : Nat) : (s.reportUnit a b c d).run nn = s.run nn := rfl
@[simp] theorem State.reportSite_run (a b c d e f g h : Nat) (nn : Nat) : (s.reportSite a b c d e f g h).run nn = s.run nn := rfl
@[simp] theorem State.tallyDev_run (o n : Nat) (nn : Nat) : (s.tallyDev o n).run nn = s.run nn := rfl
@[simp] theorem State.pend_run (c k n : Nat) (nn : Nat) : (s.pend c k n).run nn = s.run nn := rfl

@[simp] theorem State.setF_launchOf (f : Fld) (i v : Nat) (nn : Nat) : (s.setF f i v).launchOf nn = s.launchOf nn := rfl
@[simp] theorem State.addF_launchOf (f : Fld) (i n : Nat) (nn : Nat) : (s.addF f i n).launchOf nn = s.launchOf nn := rfl
@[simp] theorem State.peakF_launchOf (f : Fld) (i v : Nat) (nn : Nat) : (s.peakF f i v).launchOf nn = s.launchOf nn := rfl
@[simp] theorem State.orF_launchOf (f : Fld) (i v : Nat) (nn : Nat) : (s.orF f i v).launchOf nn = s.launchOf nn := rfl
@[simp] theorem State.event_launchOf (p i n : Nat) (nn : Nat) : (s.event p i n).launchOf nn = s.launchOf nn := rfl
@[simp] theorem State.clearF_launchOf (f : Fld) (i v : Nat) (nn : Nat) : (s.clearF f i v).launchOf nn = s.launchOf nn := rfl
@[simp] theorem State.alert_launchOf (i : Nat) (nn : Nat) : (s.alert i).launchOf nn = s.launchOf nn := rfl
@[simp] theorem State.setEff_launchOf (f : Fld) (i v : Nat) (nn : Nat) : (s.setEff f i v).launchOf nn = s.launchOf nn := rfl
@[simp] theorem State.setCore_launchOf (i : Nat) (c : CoreSite) (nn : Nat) : (s.setCore i c).launchOf nn = s.launchOf nn := rfl
@[simp] theorem State.modCore_launchOf (i : Nat) (g : CoreSite → CoreSite) (nn : Nat) : (s.modCore i g).launchOf nn = s.launchOf nn := rfl
@[simp] theorem State.modCluster_launchOf (i : Nat) (g : Cluster → Cluster) (nn : Nat) : (s.modCluster i g).launchOf nn = s.launchOf nn := rfl
@[simp] theorem State.modRegion_launchOf (i : Nat) (g : Region → Region) (nn : Nat) : (s.modRegion i g).launchOf nn = s.launchOf nn := rfl
@[simp] theorem State.setJob_launchOf (i : Nat) (x : Option Job) (nn : Nat) : (s.setJob i x).launchOf nn = s.launchOf nn := rfl
@[simp] theorem State.setRun_launchOf (i : Nat) (r : Option LaunchRec) (nn : Nat) : (s.setRun i r).launchOf nn = s.launchOf nn := rfl
@[simp] theorem State.modChip_launchOf (i : Nat) (g : LinkChip → LinkChip) (nn : Nat) : (s.modChip i g).launchOf nn = s.launchOf nn := rfl
@[simp] theorem State.modPort_launchOf (i : Nat) (g : Port → Port) (nn : Nat) : (s.modPort i g).launchOf nn = s.launchOf nn := rfl
@[simp] theorem State.modPartner_launchOf (i : Nat) (g : Partner → Partner) (nn : Nat) : (s.modPartner i g).launchOf nn = s.launchOf nn := rfl
@[simp] theorem State.modWindow_launchOf (i : Nat) (g : Window → Window) (nn : Nat) : (s.modWindow i g).launchOf nn = s.launchOf nn := rfl
@[simp] theorem State.modMover_launchOf (mv l : Nat) (g : MovList → MovList) (nn : Nat) : (s.modMover mv l g).launchOf nn = s.launchOf nn := rfl
@[simp] theorem State.modCc_launchOf (i : Nat) (g : CtlChip → CtlChip) (nn : Nat) : (s.modCc i g).launchOf nn = s.launchOf nn := rfl
@[simp] theorem State.modTally_launchOf (g : Tally → Tally) (nn : Nat) : (s.modTally g).launchOf nn = s.launchOf nn := rfl
@[simp] theorem State.modGate_launchOf (g : Gate → Gate) (nn : Nat) : (s.modGate g).launchOf nn = s.launchOf nn := rfl
@[simp] theorem State.modFab_launchOf (g : Fabric → Fabric) (nn : Nat) : (s.modFab g).launchOf nn = s.launchOf nn := rfl
@[simp] theorem State.modModule_launchOf (g : Module → Module) (nn : Nat) : (s.modModule g).launchOf nn = s.launchOf nn := rfl
@[simp] theorem State.modCtl_launchOf (g : Control → Control) (nn : Nat) : (s.modCtl g).launchOf nn = s.launchOf nn := rfl
@[simp] theorem State.modSec_launchOf (g : Security → Security) (nn : Nat) : (s.modSec g).launchOf nn = s.launchOf nn := rfl
@[simp] theorem State.modDeck_launchOf (g : Deck → Deck) (nn : Nat) : (s.modDeck g).launchOf nn = s.launchOf nn := rfl
@[simp] theorem State.modHbm_launchOf (g : Hbm → Hbm) (nn : Nat) : (s.modHbm g).launchOf nn = s.launchOf nn := rfl
@[simp] theorem State.modErrs_launchOf (g : Errors → Errors) (nn : Nat) : (s.modErrs g).launchOf nn = s.launchOf nn := rfl
@[simp] theorem State.modMesh_launchOf (g : Mesh → Mesh) (nn : Nat) : (s.modMesh g).launchOf nn = s.launchOf nn := rfl
@[simp] theorem State.report_launchOf (r : Report) (nn : Nat) : (s.report r).launchOf nn = s.launchOf nn := rfl
@[simp] theorem State.reportUnit_launchOf (a b c d : Nat) (nn : Nat) : (s.reportUnit a b c d).launchOf nn = s.launchOf nn := rfl
@[simp] theorem State.reportSite_launchOf (a b c d e f g h : Nat) (nn : Nat) : (s.reportSite a b c d e f g h).launchOf nn = s.launchOf nn := rfl
@[simp] theorem State.tallyDev_launchOf (o n : Nat) (nn : Nat) : (s.tallyDev o n).launchOf nn = s.launchOf nn := rfl
@[simp] theorem State.pend_launchOf (c k n : Nat) (nn : Nat) : (s.pend c k n).launchOf nn = s.launchOf nn := rfl

@[simp] theorem State.setF_laterOf (f : Fld) (i v : Nat) (nn : Nat) : (s.setF f i v).laterOf nn = s.laterOf nn := rfl
@[simp] theorem State.addF_laterOf (f : Fld) (i n : Nat) (nn : Nat) : (s.addF f i n).laterOf nn = s.laterOf nn := rfl
@[simp] theorem State.peakF_laterOf (f : Fld) (i v : Nat) (nn : Nat) : (s.peakF f i v).laterOf nn = s.laterOf nn := rfl
@[simp] theorem State.orF_laterOf (f : Fld) (i v : Nat) (nn : Nat) : (s.orF f i v).laterOf nn = s.laterOf nn := rfl
@[simp] theorem State.event_laterOf (p i n : Nat) (nn : Nat) : (s.event p i n).laterOf nn = s.laterOf nn := rfl
@[simp] theorem State.clearF_laterOf (f : Fld) (i v : Nat) (nn : Nat) : (s.clearF f i v).laterOf nn = s.laterOf nn := rfl
@[simp] theorem State.alert_laterOf (i : Nat) (nn : Nat) : (s.alert i).laterOf nn = s.laterOf nn := rfl
@[simp] theorem State.setEff_laterOf (f : Fld) (i v : Nat) (nn : Nat) : (s.setEff f i v).laterOf nn = s.laterOf nn := rfl
@[simp] theorem State.setCore_laterOf (i : Nat) (c : CoreSite) (nn : Nat) : (s.setCore i c).laterOf nn = s.laterOf nn := rfl
@[simp] theorem State.modCore_laterOf (i : Nat) (g : CoreSite → CoreSite) (nn : Nat) : (s.modCore i g).laterOf nn = s.laterOf nn := rfl
@[simp] theorem State.modCluster_laterOf (i : Nat) (g : Cluster → Cluster) (nn : Nat) : (s.modCluster i g).laterOf nn = s.laterOf nn := rfl
@[simp] theorem State.modRegion_laterOf (i : Nat) (g : Region → Region) (nn : Nat) : (s.modRegion i g).laterOf nn = s.laterOf nn := rfl
@[simp] theorem State.setJob_laterOf (i : Nat) (x : Option Job) (nn : Nat) : (s.setJob i x).laterOf nn = s.laterOf nn := rfl
@[simp] theorem State.setRun_laterOf (i : Nat) (r : Option LaunchRec) (nn : Nat) : (s.setRun i r).laterOf nn = s.laterOf nn := rfl
@[simp] theorem State.setLaunch_laterOf (i : Nat) (r : Option LaunchRec) (nn : Nat) : (s.setLaunch i r).laterOf nn = s.laterOf nn := rfl
@[simp] theorem State.modChip_laterOf (i : Nat) (g : LinkChip → LinkChip) (nn : Nat) : (s.modChip i g).laterOf nn = s.laterOf nn := rfl
@[simp] theorem State.modPort_laterOf (i : Nat) (g : Port → Port) (nn : Nat) : (s.modPort i g).laterOf nn = s.laterOf nn := rfl
@[simp] theorem State.modPartner_laterOf (i : Nat) (g : Partner → Partner) (nn : Nat) : (s.modPartner i g).laterOf nn = s.laterOf nn := rfl
@[simp] theorem State.modWindow_laterOf (i : Nat) (g : Window → Window) (nn : Nat) : (s.modWindow i g).laterOf nn = s.laterOf nn := rfl
@[simp] theorem State.modMover_laterOf (mv l : Nat) (g : MovList → MovList) (nn : Nat) : (s.modMover mv l g).laterOf nn = s.laterOf nn := rfl
@[simp] theorem State.modCc_laterOf (i : Nat) (g : CtlChip → CtlChip) (nn : Nat) : (s.modCc i g).laterOf nn = s.laterOf nn := rfl
@[simp] theorem State.modTally_laterOf (g : Tally → Tally) (nn : Nat) : (s.modTally g).laterOf nn = s.laterOf nn := rfl
@[simp] theorem State.modGate_laterOf (g : Gate → Gate) (nn : Nat) : (s.modGate g).laterOf nn = s.laterOf nn := rfl
@[simp] theorem State.modFab_laterOf (g : Fabric → Fabric) (nn : Nat) : (s.modFab g).laterOf nn = s.laterOf nn := rfl
@[simp] theorem State.modModule_laterOf (g : Module → Module) (nn : Nat) : (s.modModule g).laterOf nn = s.laterOf nn := rfl
@[simp] theorem State.modCtl_laterOf (g : Control → Control) (nn : Nat) : (s.modCtl g).laterOf nn = s.laterOf nn := rfl
@[simp] theorem State.modSec_laterOf (g : Security → Security) (nn : Nat) : (s.modSec g).laterOf nn = s.laterOf nn := rfl
@[simp] theorem State.modDeck_laterOf (g : Deck → Deck) (nn : Nat) : (s.modDeck g).laterOf nn = s.laterOf nn := rfl
@[simp] theorem State.modHbm_laterOf (g : Hbm → Hbm) (nn : Nat) : (s.modHbm g).laterOf nn = s.laterOf nn := rfl
@[simp] theorem State.modErrs_laterOf (g : Errors → Errors) (nn : Nat) : (s.modErrs g).laterOf nn = s.laterOf nn := rfl
@[simp] theorem State.modMesh_laterOf (g : Mesh → Mesh) (nn : Nat) : (s.modMesh g).laterOf nn = s.laterOf nn := rfl
@[simp] theorem State.report_laterOf (r : Report) (nn : Nat) : (s.report r).laterOf nn = s.laterOf nn := rfl
@[simp] theorem State.reportUnit_laterOf (a b c d : Nat) (nn : Nat) : (s.reportUnit a b c d).laterOf nn = s.laterOf nn := rfl
@[simp] theorem State.reportSite_laterOf (a b c d e f g h : Nat) (nn : Nat) : (s.reportSite a b c d e f g h).laterOf nn = s.laterOf nn := rfl
@[simp] theorem State.tallyDev_laterOf (o n : Nat) (nn : Nat) : (s.tallyDev o n).laterOf nn = s.laterOf nn := rfl
@[simp] theorem State.pend_laterOf (c k n : Nat) (nn : Nat) : (s.pend c k n).laterOf nn = s.laterOf nn := rfl

end Sys2Proof.Machine
end

