-- ==== Sys2Proof/Laws/Issue.lean ====
section
/-! SUPPORT. What the issue of an instruction at an idle site comes to, said once (R88, R94, R118). -/

namespace Sys2Proof.Machine

theorem State.setCore_setCore (s : State) (i : Nat) (a b : CoreSite) : (s.setCore i a).setCore i b = s.setCore i b := by
  unfold State.setCore; simp [Tab.set_set]

/-- A site that issues is in state ISSUING. -/
theorem State.issuing_st {s : State} {site : Nat} (h : s.issuing site = true) : (s.core site).st = .issuing := by
  unfold State.issuing at h; simp at h; exact h.2

theorem CoreSite.greg_setG (c : CoreSite) (d r : Nat) (v : GWord) :
    (c.setG d v).greg r = if r = d ∧ r ≠ 0 then v else c.greg r := by
  unfold CoreSite.setG CoreSite.greg
  by_cases hd : d = 0
  · by_cases hr : r = 0
    · simp [hr]
    · simp [hd, hr]
  · by_cases hr : r = 0
    · simp [hr]
    · by_cases hrd : r = d <;> simp [hd, hr, hrd, Tab.get_set]

/-- A register write touches the register table only. -/
theorem CoreSite.setG_eq (c : CoreSite) (d : Nat) (v : GWord) : c.setG d v = { c with g := (c.setG d v).g } := by
  unfold CoreSite.setG; split <;> rfl

/-- A word whose row accepts it issues. -/
theorem issue_ok {s : State} {site : Nat} {w : IWord} {op : Nat} {k : Run → CoreRes} {y : Run} (h : s.ready site w op)
    (hl : listedOpcode op = true) (hk : k (s.runAt site) = .ok y) : issue s site w op k = s.issueOk site y := by
  unfold issue
  have hi := h.issuing
  have hw := h.word
  unfold State.runAt at hk
  simp [hi, hw, hl, hk]

/-- A word whose row turns it away faults. -/
theorem issue_fault {s : State} {site : Nat} {w : IWord} {op : Nat} {k : Run → CoreRes} {f : SeqFault} {y : Run}
    (h : s.ready site w op) (hl : listedOpcode op = true) (hk : k (s.runAt site) = .fault f y) :
    issue s site w op k = s.issueFault site op f y := by
  unfold issue
  have hi := h.issuing
  have hw := h.word
  unfold State.runAt at hk
  simp [hi, hw, hl, hk]

/-- A site whose move unit does nothing takes no bytes from a route either. -/
theorem State.pump_still (s : State) (site : Nat) (h : s.pumpOne site = s) : s.pump site = s := by
  unfold State.pump
  simp [h, each]

/-- With no instruction in flight the move unit has nothing to do. -/
theorem State.pump_idle (s : State) (site : Nat) (h : (s.core site).fly = []) : s.pump site = s :=
  s.pump_still site (by unfold State.pumpOne; rw [h]; rfl)

/-- The sequencer goes on behind an instruction that nothing more is to be done for. -/
theorem State.pump_done (s : State) (site : Nat) (f : Fly) (h : (s.core site).fly = [f]) (hm : f.mv = none) :
    s.pump site = s :=
  s.pump_still site (by unfold State.pumpOne; rw [h]; simp [State.pumpFrom, h, hm])

theorem State.afterDrain_none (s : State) (site : Nat) (h : (s.core site).drain = .none) : s.afterDrain site = s := by
  unfold State.afterDrain; simp only [h]; split <;> rfl

theorem State.afterDrain_busy (s : State) (site : Nat) (h : (s.core site).fly ≠ []) : s.afterDrain site = s := by
  unfold State.afterDrain
  have : (s.core site).fly.isEmpty = false := by cases hf : (s.core site).fly <;> simp_all
  simp [this]

/-- Without events an issued instruction leaves the core site it gives, one count and nothing more. -/
theorem State.issueOk_idle {s : State} {site : Nat} (c : CoreSite) (hf : c.fly = []) (hd : c.drain = .none)
    (hst : c.st = .issuing) : s.issueOk site { c := c, ev := [], fr := s.free } = s.ran site c := by
  unfold State.issueOk State.ran
  show (State.pump (if c.st = .issuing then (s.setCore site c).countInstr site else _) site).afterDrain site = _
  rw [if_pos hst]
  have hc : ((s.setCore site c).countInstr site).core site = c := by simp [State.countInstr]
  rw [State.pump_idle _ _ (by rw [hc, hf]), State.afterDrain_none _ _ (by rw [hc, hd])]

/-- A word whose row gives a core site and no events leaves that core site, and one more instruction issued. -/
theorem issue_ran {s : State} {site : Nat} {w : IWord} {op : Nat} {k : Run → CoreRes} (c : CoreSite)
    (h : s.ready site w op) (hl : listedOpcode op = true) (hk : k (s.runAt site) = .ok { c := c, ev := [], fr := s.free })
    (hf : c.fly = []) (hd : c.drain = .none) (hst : c.st = .issuing) : issue s site w op k = s.ran site c := by
  rw [issue_ok h hl hk]; exact State.issueOk_idle c hf hd hst

/-! ### Instructions with local operands -/

theorem interRngs_nil (l : List Rng) : interRngs l [] = [] := by
  unfold interRngs; induction l with
  | nil => rfl
  | cons a l ih => simp

theorem clashes_nil (f : Fly) : clashes [] f = ([], []) := by
  simp [clashes, interRngs_nil]

theorem CoreSite.hurt_none (c : CoreSite) (l : List Rng) (h : c.spe = none) : c.hurt l = c := by
  unfold CoreSite.hurt; cases c; simp_all

/-- At an idle site nothing stalls and nothing clashes: the instruction has its effect, and a queued one stands in
flight. -/
theorem Run.issueWith_idle (x : Run) (f : Fly) (queued : Bool) (act : Run → CoreRes) (h : x.c.fly = []) (he : x.c.spe = none)
    (hu : queued = true → f.unit ≠ .seq) : x.issueWith f queued act =
      match act x with
      | .ok y => if queued then .ok { y with c := { y.c with fly := y.c.fly ++ [{ f with clash := [] }] } } else .ok y
      | .stall => .stall
      | .fault k y => .fault k y := by
  have hr : (queued && !x.c.room f.unit) = false := by
    cases queued with
    | false => rfl
    | true =>
      have := hu rfl
      simp only [Bool.true_and, Bool.not_eq_false', CoreSite.room, CoreSite.inUnit, h, List.countP_nil, decide_eq_true_eq]
      cases hf : f.unit <;> simp_all [CUnit.depth]
  unfold Run.issueWith
  simp only [hr, h, clashes_nil, he, SpeCmd.clash, CoreSite.hurt_none _ _ he]
  cases hact : act x with
  | stall => simp [Run.freeAll, hact]
  | fault k y => simp [Run.freeAll, hact]
  | ok y => simp [Run.freeAll, hact]

/-- A queued instruction whose effect keeps the core's instructions in flight. -/
theorem Run.queue_idle (x : Run) (f : Fly) (act : Run → Run) (h : x.c.fly = []) (he : x.c.spe = none) (hu : f.unit ≠ .seq) :
    x.queue f act = .ok { act { x with c := x.c.advance } with
      c := { (act { x with c := x.c.advance }).c with fly := (act { x with c := x.c.advance }).c.fly ++ [{ f with clash := [] }] } } := by
  unfold Run.queue
  rw [Run.issueWith_idle x f true _ h he (fun _ => hu)]
  simp

/-- A queued instruction without events that the move unit has no part in. -/
theorem State.issueOk_queued {s : State} {site : Nat} (c : CoreSite) (f : Fly) (hf : c.fly = [f]) (hm : f.mv = none)
    (hst : c.st = .issuing) : s.issueOk site { c := c, ev := [], fr := s.free } = s.ran site c := by
  unfold State.issueOk State.ran
  show (State.pump (if c.st = .issuing then (s.setCore site c).countInstr site else _) site).afterDrain site = _
  rw [if_pos hst]
  have hc : ((s.setCore site c).countInstr site).core site = c := by simp [State.countInstr]
  rw [State.pump_done _ _ f (by rw [hc, hf]) hm, State.afterDrain_busy _ _ (by rw [hc, hf]; simp)]

/-- A word whose row puts an instruction into a unit's queue, without events and without work for the move unit. -/
theorem issue_queued {s : State} {site : Nat} {w : IWord} {op : Nat} {k : Run → CoreRes} (c : CoreSite) (f : Fly)
    (h : s.ready site w op) (hl : listedOpcode op = true) (hk : k (s.runAt site) = .ok { c := c, ev := [], fr := s.free })
    (hf : c.fly = [f]) (hm : f.mv = none) (hst : c.st = .issuing) : issue s site w op k = s.ran site c := by
  rw [issue_ok h hl hk]; exact State.issueOk_queued c f hf hm hst

end Sys2Proof.Machine
end

