-- ==== Sys2Proof/Laws/Memory.lean ====
section
/-! SUPPORT. Every memory operation keeps the canonical form of the device memory, which the memory after reset
has; the operations on gather buffers and poison leave every byte alone. -/

namespace Sys2Proof.Machine

/-- The memory after reset is canonical. -/
theorem State.reset_canonical : State.reset.canonical := rfl

/-- A fold of steps that each leave the memory alone leaves it alone. -/
theorem each_mem {α : Type} (l : List α) (s : State) (f : State → α → State) (h : ∀ s a, (f s a).mem = s.mem) :
    (each l s f).mem = s.mem := by
  induction l generalizing s with
  | nil => rfl
  | cons a l ih => exact (ih (f s a)).trans (h s a)

/-- A fold of steps that each keep the canonical form keeps it. -/
theorem each_canonical {α : Type} (l : List α) (s : State) (f : State → α → State) (h : ∀ s a, s.canonical → (f s a).canonical)
    (hs : s.canonical) : (each l s f).canonical := by
  induction l generalizing s with
  | nil => exact hs
  | cons a l ih => exact ih (f s a) (h s a hs)

theorem State.canonical_of_mem {s t : State} (h : t.mem = s.mem) (hs : s.canonical) : t.canonical := by
  unfold State.canonical; rw [h]; exact hs

@[simp] theorem State.clearPoison_mem (s : State) (k : Nat) : (s.clearPoison k).mem = s.mem := by
  unfold State.clearPoison; split <;> rfl

@[simp] theorem State.writeEntry_mem (s : State) (e : GEntry) : (s.writeEntry e).mem = s.mem :=
  each_mem _ _ _ fun _ _ => State.clearPoison_mem _ _

@[simp] theorem State.flushLine_mem (s : State) (sl ln : Nat) : (s.flushLine sl ln).mem = s.mem :=
  each_mem _ _ _ State.writeEntry_mem

@[simp] theorem State.flushRange_mem (s : State) (a n : Nat) : (s.flushRange a n).mem = s.mem :=
  each_mem _ _ _ fun s g => by split <;> simp

@[simp] theorem State.gatherWrite_mem (s : State) (p b n : Nat) : (s.gatherWrite p b n).mem = s.mem := by
  have h : (each (s.deck.gather.filter fun e => e.slice == sliceOf b && e.line == sliceLine b && e.port != p) s State.writeEntry).mem = s.mem :=
    each_mem _ _ _ State.writeEntry_mem
  unfold State.gatherWrite
  dsimp only
  split
  · split
    · rw [State.writeEntry_mem]; exact h
    · exact h
  · split
    · split
      · exact (State.writeEntry_mem _ _).trans h
      · exact h
    · exact h

@[simp] theorem State.wholeLine_mem (s : State) (b : Nat) : (s.wholeLine b).mem = s.mem :=
  each_mem _ _ _ fun _ _ => State.clearPoison_mem _ _

/-- What a write of one line's bytes makes of the memory: nothing over a link that is down. -/
theorem State.writeSeg_mem (s : State) (p a : Nat) (bs : List Byte) :
    (s.writeSeg p a bs).mem = if s.t2Down a then s.mem else Tab.write 0 s.mem (s.canon a) bs := by
  unfold State.writeSeg
  split
  · rfl
  · dsimp only
    split
    · split
      · rw [State.wholeLine_mem]
      · rw [State.gatherWrite_mem]
    · exact each_mem _ _ _ State.clearPoison_mem

theorem State.writeSeg_canonical (s : State) (p a : Nat) (bs : List Byte) (h : s.canonical) : (s.writeSeg p a bs).canonical := by
  unfold State.canonical Memory.wf at *
  rw [State.writeSeg_mem]
  split
  · exact h
  · exact Tab.wf_write _ _ _ _ h

/-- A write keeps the canonical form. -/
theorem State.memWrite_canonical (s : State) (p a : Nat) (bs : List Byte) (h : s.canonical) : (s.memWrite p a bs).canonical :=
  each_canonical _ _ _ (fun _ _ => State.writeSeg_canonical _ _ _ _) h

/-- An atomic add keeps it. -/
theorem State.atomicAdd_canonical (s : State) (p a v : Nat) (h : s.canonical) : (s.atomicAdd p a v).canonical :=
  State.memWrite_canonical _ _ _ _ (State.canonical_of_mem (State.flushRange_mem s a 8) h)

@[simp] theorem State.poisonTo_mem (s : State) (a n : Nat) (hit : List Nat) : (s.poisonTo a n hit).mem = s.mem := by
  refine (each_mem _ _ State.setPoison fun _ _ => rfl).trans ?_
  split
  · rfl
  · exact State.flushRange_mem _ _ _

@[simp] theorem State.countPoison_mem (s : State) (l : List Nat) : (s.countPoison l).mem = s.mem :=
  each_mem _ _ _ fun s k => by dsimp only; split_ifs <;> rfl

/-- A row of a mover's copy keeps the canonical form. -/
theorem State.copyRow_canonical (s : State) (p a b n : Nat) (h : s.canonical) : (s.copyRow p a b n).canonical :=
  State.canonical_of_mem (State.poisonTo_mem _ _ _ _) (State.memWrite_canonical _ _ _ _
    (State.canonical_of_mem ((State.countPoison_mem _ _).trans (State.flushRange_mem _ _ _)) h))

end Sys2Proof.Machine
end

