-- ==== Sys2Proof/Tests/Slice0.lean ====
section
/-! SUPPORT. The model's own tests: an ill-formed command for each check of WellFormed, examples of the spec, and for
every statement with hypotheses a state and operands that meet them, clause by clause. -/

namespace Sys2Proof.Tests
open Sys2Proof Sys2Proof.Machine

/-! ### Small states -/

/-- 36 V present and the given regions on. -/
def on (l : List Nat) : State :=
  l.foldl (fun s r => s.setF R.RGN.POWER_CTL.STATE r 4) { module_ := { v36 := true } }

/-- Register fields set: field, instance, value. -/
def put (l : List (Fld × Nat × Nat)) (s : State) : State := l.foldl (fun s e => s.setF e.1 e.2.1 e.2.2) s

/-- The same of the values in effect in CL pages. -/
def putEff (l : List (Fld × Nat × Nat)) (s : State) : State := l.foldl (fun s e => s.setEff e.1 e.2.1 e.2.2) s

/-- DEV_TIME at a count in ns. -/
def at_ (ns : Nat) (s : State) : State := { s with time := ns * 2 ^ 32 }

/-- Powered port chiplet 0 holds a lease of control chiplet 0. -/
def led (s : State) : State := { s with ctl := { s.ctl with powered := [0], leases := [(0, ⟨0, s.now + 400000, false⟩)] } }

/-- An instruction word from its fields: lowest bit, value. -/
def iw (op : Nat) (l : List (Nat × Nat)) : IWord := BitVec.ofNat 128 (op * 2 ^ 120 + (l.map fun p => p.2 * 2 ^ p.1).sum)

/-- Core site 0 of a cluster that is on stands as given. -/
def core0 (c : CoreSite) : State := (on [0, 24]).setCore 0 c

/-- A core that issues, with G1 = 5 and G2 = 1.0. -/
def c0 : CoreSite := { st := .issuing, g := [(1, 5), (2, 0x3F800000)] }
def s0 : State := core0 c0

def isReady (s : State) (site : Nat) (w : IWord) (op : Nat) : Bool :=
  s.issuing site && (s.core site).drain == .none && (s.core site).fly.isEmpty && opcode w == op

theorem ready_of {s : State} {site : Nat} {w : IWord} {op : Nat} (h : isReady s site w op = true) : s.ready site w op := by
  simp only [isReady, Bool.and_eq_true, beq_iff_eq, List.isEmpty_iff] at h
  exact ⟨h.1.1.1, h.1.1.2, h.1.2, h.2⟩

theorem ready_iff {s : State} {site : Nat} {w : IWord} {op : Nat} : s.ready site w op ↔ isReady s site w op = true := by
  refine ⟨fun h => ?_, ready_of⟩
  simp [isReady, h.issuing, h.drain, h.idle, h.word]

def isQuiet (s : State) (site : Nat) (w : IWord) (op : Nat) : Bool := isReady s site w op && (s.core site).spe.isNone

theorem quiet_iff {s : State} {site : Nat} {w : IWord} {op : Nat} : s.quiet site w op ↔ isQuiet s site w op = true := by
  simp only [isQuiet, Bool.and_eq_true, Option.isNone_iff_eq_none]
  exact ⟨fun h => ⟨ready_iff.1 h.toready, h.engine⟩, fun h => ⟨ready_iff.2 h.1, h.2⟩⟩

/-! ### Ill-formed commands -/

theorem test_wf_line : Instr.defect (.deckLineOperation none 0 0 0 0 true 0 (List.replicate 511 0) {}) = some .lineLength := by decide +kernel
theorem test_wf_flit : Instr.defect (.flitReceive 0 (List.replicate 255 0) 0 0) = some .flitLength := by decide +kernel
theorem test_wf_digest : Instr.defect (.twinDigestArrival (List.replicate 63 0)) = some .digestLength := by decide
theorem test_wf_ports : Instr.defect (.hdmDecoderProgram [1, 2, 3]) = some .portCount := by decide
theorem test_wf_lanes : Instr.defect (.linkChipletUpdate 0 [] [0x1FF]) = some .laneSets := by decide
theorem test_wf_size : Instr.defect (.registerWrite 0 ctlBase 2 0) = some .accessSize := by decide
theorem test_wf_align : Instr.defect (.registerWrite 0 (ctlBase + 4) 8 0) = some .misaligned := by decide
theorem test_wf_reading : Instr.defect (.thermalSample 0 []) = some .noReading := by decide
theorem test_wf_ok : Instr.wf (.registerWrite 0 (ctlBase + 8) 8 0) = true := by decide

/-! ### Examples of the spec -/

/-- R222: routers stand at (column, row). -/
theorem test_router : routerXY 9 = (5, 0) ∧ routerXY 14 = (0, 3) ∧ routerXY 3 = (1, 1) ∧ routerXY 12 = (0, 2) := by decide
/-- R295: a device-wide unit code. -/
theorem test_unit : unitCode 2 179 0x3FFF = 0xFFFCB302 := by decide
/-- R243: CRC-32 of the check string. -/
theorem test_crc : crc32 ("123456789".toList.map fun c => BitVec.ofNat 8 c.toNat) = 0xCBF43926 := by decide +kernel
/-- R85: an address at the end of an area. -/
theorem test_area : rdOk 0x3FFF8 8 = true ∧ wrOk 0x3FFF8 8 = false ∧ rdOk 0x3FFFC 8 = false := by decide
/-- R343: a level paces as many cycles of 16. -/
theorem test_paced : ((List.range 16).map fun p => (List.range 16).countP (paced p)) = List.range 16 := by decide
/-- R334: the voltage of each operating point. -/
theorem test_volt : [1, 2, 3, 4].map opVolt = [720, 640, 600, 550] := by decide
/-- R366: the read of PAGE_ID gives group, instance and layout. -/
theorem test_page_id : (on []).regRead 2 269 0 = 0x02434001 := by decide +kernel

/-! ### Witnesses: the core sites -/

/-- Cluster 0 active, its sites 0 to 27 in service. -/
def mapped (s : State) : State :=
  { s with sec := { s.sec with blaze := { s.sec.blaze with roles := [(0, 0)], sites := (List.range 28).map fun i => (i, 0) } } }

/-- A completion area at the end of the HBM reserved region, a launch whose kernel writes there, and a job without marks. -/
def r0 : LaunchRec := { job := 0, lcore := 0, tl := 0, entry := 16383, gregs := [], area := resBase, ctr := resBase + 4096, seq := 7 }
def prog0 : Program := {}
def j0 : Job := { prog := prog0, clusters := [0], sites := [(0, 0)], bases := [], lists := [], windows := [], groups := [],
                  sets := [], trips := [], groupOf := [] }
def kern (s : State) : State := { s with running := [(0, some r0)], jobs := [(0, some j0)] }

theorem witness_StepTakesFront : step { State.reset with pending := [.failover] } = exec (.failover) State.reset := by rfl

theorem witness_IdleTick : State.reset.pending = [] ∧ State.reset.module_.v36 = false ∧ (on []).pending = [] ∧
    (on []).module_.v36 = true ∧ (on []).rate = 0 ∧ (∀ c, c < 24 → (on []).regained c = false) ∧ (on []).frontPending = false ∧
    (on []).tally.gate.active = false := by decide +kernel

/-- Each clause of ScalarInstructions, with an ALU code at each end of the table, and CHKG with equal operands. -/
theorem witness_ScalarInstructions :
    s0.ready 0 (iw 0x00 []) 0x00 ∧ s0.ready 0 (iw 0x10 [(107, 31), (0, 2 ^ 64 - 1)]) 0x10 ∧
    (let w := iw 0x11 [(107, 31), (102, 1), (93, 10)];
      s0.ready 0 w 0x11 ∧ aluFn (wf w 96 93) (c0.greg (wf w 106 102)) (aluSecond w c0) = some 5) ∧
    (let w := iw 0xC1 [(107, 1), (104, 5), (0, 5)];
      s0.ready 0 w 0xC1 ∧ condHolds (wf w 106 104) (c0.greg (wf w 111 107)) (BitVec.ofInt 64 (sext 32 (wf w 31 0))) = some true) := by
  simp only [ready_iff]; (repeat' apply And.intro) <;> decide +kernel

/-- Branches to both ends of the address space, LOOP on its last pass, CALL with seven returns held, and an unlisted opcode. -/
theorem witness_BranchInstructions :
    (let w := iw 0x02 [(92, 16383)];
      s0.ready 0 w 0x02 ∧ (c0.pc : Int) + sext 20 (wf w 111 92) = (16383 : Nat)) ∧
    (let c := { c0 with pc := 5 }; let w := iw 0x03 [(107, 1), (99, 1), (79, 2 ^ 20 - 5)];
      (core0 c).ready 0 w 0x03 ∧ (c.pc : Int) + sext 20 (wf w 98 79) = (0 : Nat) ∧
      condHolds (wf w 101 99) (c.greg (wf w 111 107)) (c.greg (wf w 106 102)) = some true) ∧
    (let c := { c0 with g := [(1, 1)] }; let w := iw 0x04 [(107, 1), (87, 0)];
      (core0 c).ready 0 w 0x04 ∧ (c.pc : Int) + sext 20 (wf w 106 87) = (0 : Nat)) ∧
    (let c := { c0 with ret := [1, 2, 3, 4, 5, 6, 7] }; let w := iw 0x05 [(92, 9)];
      (core0 c).ready 0 w 0x05 ∧ (c.pc : Int) + sext 20 (wf w 111 92) = (9 : Nat) ∧ c.ret.length < 8) ∧
    (let c := { c0 with ret := [16383] }; (core0 c).ready 0 (iw 0x06 []) 0x06 ∧ c.ret = 16383 :: []) ∧
    (s0.ready 0 (iw 0x09 []) 0x09 ∧ listedOpcode 0x09 = false ∧ (s0.core 0).pc < 2 ^ 14 ∧ s0.jobOf (clusterOf 0) = none ∧
      s0.liveSites [clusterOf 0] = []) := by
  simp only [ready_iff]; (repeat' apply And.intro) <;> decide +kernel

/-- Waits met and not met, by one; the wait limit; END, RMARK with and without a kernel, TMARK on either kind of core. -/
theorem witness_WaitInstructions :
    s0.ready 0 (iw 0x07 [(109, 7), (93, 65535)]) 0x07 ∧ s0.ready 0 (iw 0xA1 [(104, 255), (88, 0)]) 0xA1 ∧
    (let c := { c0 with st := .inWait, wait := .ctr 7 3, u := [(7, 3)] };
      c.st = .inWait ∧ c.wait = .ctr 7 3 ∧ c.lull = none ∧ 3 ≤ c.ctr 7 ∧ c.fly = [] ∧
      2 ^ (max 16 ((core0 c).getF R.CORE.SEQ_CTL.WAIT_LIMIT 0)) ≤ 2 ^ 40) ∧
    (let c := { c0 with st := .inTwait, wait := .token 255 2, tok := [(255, 2)] };
      c.st = .inTwait ∧ c.wait = .token 255 2 ∧ c.lull = none ∧ 2 ≤ c.token 255) ∧
    ((kern s0).ready 0 (iw 0x01 [(96, 65535)]) 0x01 ∧ (kern s0).run 0 = some r0 ∧ ((kern s0).cluster (clusterOf 0)).want = none) ∧
    s0.ready 0 (iw 0x08 []) 0x08 ∧ (s0.ready 0 (iw 0xB1 []) 0xB1 ∧ s0.run 0 = none) ∧
    (let j := { j0 with prog := { prog0 with markArea := some (0, 0) }, bases := [0] }
     let s := { kern s0 with jobs := [(0, some j)] };
      s.ready 0 (iw 0xB1 [(96, 1)]) 0xB1 ∧ s.run 0 = some r0 ∧ s.job r0.job = some j ∧ (j.markAddr 1 r0.lcore).isSome = true) ∧
    (let s := put [(R.TLY.MARK_CTL.SOURCE, 0, 1)] s0; s.ready 0 (iw 0xB0 []) 0xB0 ∧ s.designated 0 = true ∧ s.ledgerAt 0 0 false = none) ∧
    (let s := (put [(R.TLY.MARK_CTL.SOURCE, 0, 1)] s0).modCluster 0 fun c => { c with ledger := [⟨0, 0, false, .delivered, 0, []⟩] };
      s.ready 0 (iw 0xB0 []) 0xB0 ∧ s.designated 0 = true ∧ s.ledgerAt 0 0 false = some ⟨0, 0, false, .delivered, 0, []⟩) ∧
    (let s := (put [(R.TLY.MARK_CTL.SOURCE, 0, 1)] s0).modCluster 0 fun c => { c with ledger := [⟨0, 0, false, .pending, 0, []⟩] };
      s.ready 0 (iw 0xB0 []) 0xB0 ∧ s.designated 0 = true ∧ s.ledgerAt 0 0 false = some ⟨0, 0, false, .pending, 0, []⟩) ∧
    (s0.ready 0 (iw 0xB0 []) 0xB0 ∧ s0.designated 0 = false) := by
  simp only [ready_iff]; (repeat' apply And.intro) <;> decide +kernel

/-- The last 8 and 512 bytes of the local data space. -/
theorem witness_LocalMemoryInstructions :
    (let w := iw 0x12 [(107, 1), (83, 0x1FFFF8)];
      s0.quiet 0 w 0x12 ∧ c0.la (wf w 106 83) % 8 = 0 ∧ rdOk (c0.la (wf w 106 83)) 8 = true) ∧
    (let w := iw 0x13 [(107, 1), (83, 0x40000)];
      s0.quiet 0 w 0x13 ∧ c0.la (wf w 106 83) % 8 = 0 ∧ wrOk (c0.la (wf w 106 83)) 8 = true) ∧
    (let w := iw 0x75 [(106, 63), (82, 0x1FFE00)];
      s0.quiet 0 w 0x75 ∧ c0.la (wf w 105 82) % 16 = 0 ∧ rdOk (c0.la (wf w 105 82)) 512 = true) ∧
    (let w := iw 0x76 [(106, 63), (82, 0x40000)];
      s0.quiet 0 w 0x76 ∧ c0.la (wf w 105 82) % 16 = 0 ∧ wrOk (c0.la (wf w 105 82)) 512 = true) := by
  simp only [quiet_iff]; (repeat' apply And.intro) <;> decide +kernel

/-- Cluster 0 with route 0 sending, route 1 receiving at site 0, and signal map entries of one core. -/
def routes : State := putEff [(R.CL.ROUTE_LOn.VALID.at 8 0, 0, 1), (R.CL.ROUTE_LOn.VALID.at 8 1, 0, 1),
  (R.CL.ROUTE_LOn.DIR.at 8 1, 0, 1), (R.CL.ROUTE_LOn.PEER_CLUSTER.at 8 0, 0, 1)] s0

/-- MOVD to device memory, and from a poisoned sector; MOVL, MOVS, MOVR with enough and too few bytes, CHKEQ of equal and of unequal
ranges. -/
theorem witness_MoveInstructions :
    (let w := iw 0x20 [(112, 1), (88, 0x40000), (50, 7)]
      let la := c0.la (wf w 111 88); let lp := bits (c0.gn (wf w 82 78)) 63 32; let dp := bits (c0.gn (wf w 82 78)) 31 0
      let dev := (c0.gn (wf w 87 83) : Int) + sext 20 (wf w 49 30); let rows := wf w 77 66 + 1; let n := wf w 65 50 + 1;
      s0.quiet 0 w 0x20 ∧ dev % 8 = 0 ∧ dp % 8 = 0 ∧ n % 8 = 0 ∧ la % 8 = 0 ∧ lp % 8 = 0 ∧
      (if wb w 112 then rngsRd (rowRngs la lp rows n) else rngsWr (rowRngs la lp rows n)) = true ∧
      let f : Fly := { unit := .move, opc := 0x20, pc := c0.pc, ctr := completion w, rd := rowRngs la lp rows n, wr := [], mv := some (.movd true la lp dev dp rows n), ready := false };
      ((s0.ran 0 { c0 with pc := nextPc c0.pc, fly := [f] }).movdRows 0 c0.pc true la lp dev dp n 0 rows).2 = false) ∧
    (let w := iw 0x20 [(88, 0x40000), (50, 7)]; let s := putEff [(R.CL.FENCE_LOn.VALID.at 8 0, 0, 1)] { s0 with poison := [(0, true)] }; let rs := rowRngs 0x40000 0 1 8;
      s.quiet 0 w 0x20 ∧ rngsWr rs = true ∧ s.mesh.fill = [] ∧
      let f : Fly := { unit := .move, opc := 0x20, pc := c0.pc, ctr := completion w, rd := [], wr := rs, mv := some (.movd false 0x40000 0 0 0 1 8), ready := false };
      ((s.ran 0 { c0 with pc := nextPc c0.pc, fly := [f] }).movdRows 0 c0.pc false 0x40000 0 0 0 8 0 1).2 = true) ∧
    (let w := iw 0x21 [(88, 0x40000), (64, 0x1FFFF8), (48, 7)]
      let src := c0.la (wf w 111 88); let dst := c0.la (wf w 87 64); let n := wf w 63 48 + 1; let rows := wf w 47 36 + 1
      let sp := wf w 35 18; let dp := wf w 17 0;
      s0.quiet 0 w 0x21 ∧ src % 8 = 0 ∧ dst % 8 = 0 ∧ n % 8 = 0 ∧ sp % 8 = 0 ∧ dp % 8 = 0 ∧
      rngsRd (rowRngs src sp rows n) = true ∧ rngsWr (rowRngs dst dp rows n) = true) ∧
    (let w := iw 0x22 [(88, 0x40000)]; let la := c0.la (wf w 111 88); let route := wf w 87 82; let len := wf w 81 62 + 1;
      routes.quiet 0 w 0x22 ∧ la % 16 = 0 ∧ rdOk la (lenBytes (wb w 112) len) = true ∧ routes.routeOk 0 route 0 = true ∧
      0 < min (routes.routeRoom (routes.routePeer 0 route).1 (routes.routePeer 0 route).2) (128 * routes.bytesFree 0)) ∧
    (let w := iw 0x23 [(88, 0x40000), (82, 1)]
      let la := c0.la (wf w 111 88); let route := wf w 87 82; let len := wf w 81 62 + 1
      let full := { routes with mesh := { fill := [(1, List.replicate 16 7)] } };
      full.quiet 0 w 0x23 ∧ la % 16 = 0 ∧ wrOk la (16 * len) = true ∧ full.routeOk 0 route 1 = true ∧
      16 * len ≤ (full.routeFill 0 route).length ∧ (full.core (full.routeSender 0 route)).fly = [] ∧ routes.quiet 0 w 0x23 ∧ routes.routeOk 0 route 1 = true ∧
      (routes.routeFill 0 route).length < 16 * len) ∧
    (let w := iw 0xC0 [(88, 0x1FFFFF), (64, 0x40000)]
      let a := c0.la (wf w 111 88); let b := c0.la (wf w 87 64); let n := wf w 63 48 + 1; let c := c0.wrLm a [1];
      s0.quiet 0 w 0xC0 ∧ rdOk a n = true ∧ rdOk b n = true ∧ c0.rdLm a n = c0.rdLm b n ∧
      (core0 c).quiet 0 w 0xC0 ∧ c.rdLm a n ≠ c.rdLm b n ∧ wb w 112 = false) := by
  simp only [quiet_iff]; (repeat' apply And.intro) <;> decide +kernel

/-- A SEND at first and repeated after its delivery; TSIG to the sparse engine, outside the map, with token 0xFF, to a core of the
group, and to a mover list at first and repeated. -/
theorem witness_SendAndSignal :
    (let w := iw 0x24 [(88, 0x40000), (51, 2)]
     let la := c0.la (wf w 111 88); let len := wf w 50 31 + 1
     let again := s0.modCluster 0 fun c => { c with ledger := [⟨0, 0, true, .delivered, 0, []⟩] };
      s0.quiet 0 w 0x24 ∧ la % 16 = 0 ∧ wf w 52 51 ≠ 3 ∧ rdOk la (lenBytes (wb w 112) len) = true ∧ s0.ledgerAt 0 0 true = none ∧
      again.quiet 0 w 0x24 ∧ again.ledgerAt 0 0 true = some ⟨0, 0, true, .delivered, 0, []⟩) ∧
    0 < s0.toksFree 0 ∧ s0.quiet 0 (iw 0xA0 [(104, 0xFE), (88, 1)]) 0xA0 ∧ s0.quiet 0 (iw 0xA0 [(104, 0xFF), (88, 1)]) 0xA0 ∧
    (let w := iw 0xA0 [(104, 0xFD), (88, 1)];
      s0.quiet 0 w 0xA0 ∧ wf w 111 104 < 0xFE ∧ s0.signalTarget 0 (leNat (c0.rdLm (0x3FC00 + 4 * wf w 111 104) 4)) = none) ∧
    (let c := c0.wrLm (0x3FC00 + 4 * 0xFD) (natLE 4 (1 + 0xFD * 4096)); let w := iw 0xA0 [(104, 0xFD), (88, 1)]
     let s := mapped (core0 c);
      s.quiet 0 w 0xA0 ∧ 0 < s.toksFree 0 ∧ s.signalTarget 0 (leNat (c.rdLm (0x3FC00 + 4 * wf w 111 104) 4)) = some (.core 0 0xFD) ∧
      (s.groupOf 0).contains (clusterOf 0) = true) ∧
    (let c := c0.wrLm (0x3FC00 + 4 * 0xFD) (natLE 4 (3 + 5 * 2 ^ 20 + 14 * 2 ^ 23)); let w := iw 0xA0 [(104, 0xFD), (88, 1)]
     let s := putEff [(R.CL.MOVER_LISTn.VALID.at 4 3, 0, 1), (R.CL.MOVER_LISTn.MOVER.at 4 3, 0, 5), (R.CL.MOVER_LISTn.LIST.at 4 3, 0, 14)] (core0 c)
     let again := s.modCluster 0 fun c => { c with ledger := [⟨0, 0, false, .delivered, 0, []⟩] };
      s.quiet 0 w 0xA0 ∧ 0 < s.toksFree 0 ∧ s.signalTarget 0 (leNat (c.rdLm (0x3FC00 + 4 * wf w 111 104) 4)) = some (.list 5 14 0) ∧
      s.ledgerAt 0 0 false = none ∧ again.quiet 0 w 0xA0 ∧ 0 < again.toksFree 0 ∧
      again.signalTarget 0 (leNat (c.rdLm (0x3FC00 + 4 * wf w 111 104) 4)) = some (.list 5 14 0) ∧ (again.ledgerAt 0 0 false).isSome = true) := by
  simp only [quiet_iff]; (repeat' apply And.intro) <;> decide +kernel

theorem witness_MeshArrivals :
    (let b : MeshBytes := ⟨0, 0, 23, 63, [1, 2]⟩; let s := { s0 with mesh := { bytes := [⟨0, 1, 0, 0, []⟩, b] } };
      s.mesh.bytes[1]? = some b ∧ ((s.mesh.bytes.take 1).any fun x => x.dstC == b.dstC && x.dstR == b.dstR) = false ∧
      (s.core (28 * b.srcC + s.effF (R.CL.ROUTE_LOn.SITE.at 8 b.srcR) b.srcC)).fly = [] ∧
      (s.core (28 * b.dstC + s.effF (R.CL.ROUTE_LOn.SITE.at 8 b.dstR) b.dstC)).fly = [] ∧ s.bytesFree b.srcC ≠ 0) ∧
    (let k : MeshTok := ⟨0, .core 671 255, 65534, 0, 0⟩; let c : CoreSite := { tok := [(255, 1)] }
     let s := ({ s0 with mesh := { toks := [k] } } : State).setCore 671 c;
      s.mesh.toks[0]? = some k ∧ ((s.mesh.toks.take 0).any fun x => x.src == k.src && x.target == k.target) = false ∧
      k.target = .core 671 255 ∧ Tab.get 0 (s.cluster (clusterOf 671)).excess (tokKey 671 255) = 0 ∧
      (s.core 671).token 255 + k.count ≤ 65535 ∧ s.toksFree (clusterOf k.src) ≠ 0) ∧
    (let k : MeshTok := ⟨0, .list 5 14 0, 1, 0, 0⟩
     let s := putEff [(R.CL.MOVER_LISTn.VALID.at 4 3, 23, 1), (R.CL.MOVER_LISTn.MOVER.at 4 3, 23, 5), (R.CL.MOVER_LISTn.LIST.at 4 3, 23, 14)]
       { s0 with mesh := { toks := [k] } };
      s.mesh.toks[0]? = some k ∧ k.target = .list 5 14 0 ∧ s.listOwner 5 14 = some 23 ∧ s.toksFree (clusterOf k.src) ≠ 0) := by
  refine ⟨?_, ?_, ?_⟩ <;> decide +kernel

/-- A WLD of one E2M1 tile with Tw = 1.0, a swap behind it, and a load and a swap at the head of the weight unit. -/
theorem witness_WeightInstructions :
    (let w := iw 0x30 [(76, 4), (60, 2)]; s0.quiet 0 w 0x30 ∧ (wldOps w c0).isRight = true) ∧
    (let c := { c0 with wldEver := true }; (core0 c).quiet 0 (iw 0x31 []) 0x31 ∧ c.wldEver = true) ∧
    (let c := { c0 with fly := [{ unit := .weight, opc := 0x30, pc := 0, wop := some (.load {}) }] };
      c.nextWop = some (0, .load {}) ∧ c.shdFull = false) ∧
    (let c := { c0 with fly := [{ unit := .array, opc := 0x40, pc := 0, entered := true }, { unit := .weight, opc := 0x31, pc := 1, wop := some .swap }] };
      c.nextWop = some (1, .swap) ∧ ((c.fly.take 1).all fun f => f.unit != .array || f.entered) = true) := by
  simp only [quiet_iff]; (repeat' apply And.intro) <;> decide +kernel

/-- An MM of one row with FIRST and LAST after a swap, an MM about to enter with and without an entry counter, and a completion with and
without a unit counter. -/
theorem witness_PassAndCompletion :
    (let c := { c0 with wldEver := true, wswpEver := true }; let w := iw 0x40 [(114, 1), (115, 1), (108, 15), (61, 0x4000), (37, 0x40000), (24, 2), (23, 1)]
     let s := core0 c
     let z := fun o => (({ s.runAt 0 with c := c.advance } : Run).mm o (s.resCtl 0)).cap;
      s.quiet 0 w 0x40 ∧ ((mmOps w c).elim (fun _ => true) z) = false ∧ s.getF R.CORE.RES_CTL.INJ_ARM 0 ≠ 1 ∧ (s.cluster (clusterOf 0)).recov = none) ∧
    (∀ e ∈ [none, some 7], let f : Fly := { unit := .array, opc := 0x40, pc := 0, ent := e }; let c := { c0 with fly := [f] }
      c.fly.zipIdx.find? (fun p => p.1.unit == .array && !p.1.entered) = some (f, 0) ∧ ((c.fly.take 0).any fun g => g.wop == some .swap) = false ∧
      c.ctr 7 < 65535) ∧
    (∀ k ∈ [none, some 7], let f : Fly := { unit := .move, opc := 0x21, pc := 0, ctr := k }; let c := { c0 with fly := [f] }
      c.fly.zipIdx.find? (fun p => p.1.unit == .move) = some (f, 0) ∧ c.canComplete 0 f = true ∧ ((c.fly.eraseIdx 0).all fun g => g.mv.isNone) = true ∧
      c.drain = .none ∧ c.ctr 7 < 65535) := by
  simp only [quiet_iff]; (repeat' apply And.intro) <;> decide +kernel

def isOk (r : CoreRes) : Bool := match r with
  | .ok _ => true
  | _ => false

/-- The last slots of the accumulator area for ACCCLR, ACCPART and ACCRND; ACCMRG of one cell; descriptors for CHSET and CHFIN. -/
theorem witness_AccumulatorInstructions :
    (let w := iw 0x53 [(71, 0x8000)]; s0.quiet 0 w 0x53 ∧ wrOk (16 * wf w 87 71) (16 * (wf w 70 59 + 1)) = true) ∧
    (let w := iw 0x51 [(88, 0x40000), (71, 0x8000)]; let bs := partBytes (wb w 112) ((s0.runAt 0).readSlots (16 * wf w 87 71) (wf w 70 59 + 1)).2;
      s0.quiet 0 w 0x51 ∧ wrOk (16 * wf w 87 71) (16 * (wf w 70 59 + 1)) = true ∧ wrOk (c0.la (wf w 111 88)) bs.length = true ∧ wb w 113 = false) ∧
    (let w := iw 0x52 [(88, 0x40000), (71, 0x8000), (50, 2), (45, 2)]; let n := wf w 70 59 + 1;
      s0.quiet 0 w 0x52 ∧ namedDesc c0 (wf w 58 55) = some none ∧ (c0.scale (wf w 54 50)).isSome ∧ (c0.scale (wf w 49 45)).isSome ∧
      wrOk (16 * wf w 87 71) (16 * n) = true ∧
      rngsWr ((accRows n).map fun r => (⟨c0.la (wf w 111 88) + r.1 * outPitch none 128, outSize none r.2⟩ : Rng)) = true ∧
      isOk (coreAccrnd (s0.accOff 0) w (s0.runAt 0)) = true) ∧
    (let w := iw 0x50 [(112, 1), (88, 0x40000), (71, 0x8000)]; let lo := 16 * wf w 87 71; let n := wf w 70 59 + 1;
      s0.quiet 0 w 0x50 ∧ wb w 112 = true ∧ rdOk (c0.la (wf w 111 88)) (96 * n) = true ∧ wrOk lo (16 * n) = true ∧
      (({ s0.runAt 0 with c := c0.advance } : Run).mergeAll (wb w 114) lo (c0.partials (c0.la (wf w 111 88)) (List.replicate n 96))).cap = false ∧
      isOk (coreAccmrg w (s0.runAt 0)) = true) ∧
    (let c := c0.wrLm 0x40000 (natLE 64 (1 + 3 * 2 ^ 8 + 2 ^ 16)); let w := iw 0x60 [(88, 0x40000), (85, 7)]; let a := c.la (wf w 111 88)
     let m := 16 * (bits (leNat (c.rdLm a 16)) 11 8 + 1);
      (core0 c).quiet 0 w 0x60 ∧ a % 16 = 0 ∧ rdOk a 16 = true ∧ rdOk a m = true ∧ descOk (leNat (c.rdLm a m)) = true) ∧
    (let c := { c0 with d := [(7, 3 + 2 * 2 ^ 50 + 2 * 2 ^ 45 + 0x50000 * 2 ^ 162)] }; let w := iw 0x61 [(41, 7), (88, 0x60000), (71, 0x8000), (54, 0x9000)]
     let s := core0 c; let d := c.desc (wf w 43 41); let g := wf w 53 44 + 1; let f := OFmt.ofCode (bits d 27 24);
      s.quiet 0 w 0x61 ∧ dKind d = 3 ∧ (c.scale (bits d 54 50)).isSome ∧ (c.scale (bits d 49 45)).isSome ∧
      rngsRd ((List.range g).map fun r => (⟨c.la (bits d 185 162) + 8 * r, 8⟩ : Rng)) = true ∧
      rngsWr ((List.range g).map fun r => (⟨c.la (wf w 111 88) + r * f.pitch 128, f.size 128⟩ : Rng)) = true ∧
      rngsWr ((List.range g).flatMap fun r => [(⟨16 * (wf w 87 71 + 128 * r), 2048⟩ : Rng), ⟨16 * (wf w 70 54 + r), 16⟩]) = true) := by
  simp only [quiet_iff]; (repeat' apply And.intro) <;> decide +kernel

/-- The last function, format and rounding codes of each vector instruction; QNT; SMLD of 1,023 words and of none. -/
theorem witness_VectorInstructions :
    (let w := iw 0x70 [(83, 9), (81, 2), (79, 2)];
      s0.quiet 0 w 0x70 ∧ (IFmt.ofCode (wf w 82 81)).isSome ∧ (Rnd.ofCode (wf w 80 79)).isSome = true ∧ wf w 87 83 ≤ 9) ∧
    (let w := iw 0x71 [(98, 3), (96, 2)]; s0.quiet 0 w 0x71 ∧ (IFmt.ofCode (wf w 97 96)).isSome) ∧
    (let w := iw 0x72 [(92, 2), (90, 2)]; s0.quiet 0 w 0x72 ∧ (IFmt.ofCode (wf w 91 90)).isSome ∧ wf w 93 92 ≤ 2) ∧
    (let w := iw 0x73 [(113, 1), (82, 0x40000), (80, 2)];
      s0.quiet 0 w 0x73 ∧ (Rnd.ofCode (wf w 81 80)).isSome ∧ c0.la (wf w 105 82) % 16 = 0 ∧ wrOk (c0.la (wf w 105 82)) 768 = true) ∧
    (let w := iw 0x73 [(80, 2)]; s0.quiet 0 w 0x73 ∧ wb w 113 = false ∧ (Rnd.ofCode (wf w 81 80)).isSome) ∧
    (let w := iw 0x74 [(98, 2), (96, 1), (94, 2)];
      s0.quiet 0 w 0x74 ∧ (IFmt.ofCode (wf w 99 98)).isSome ∧ (IFmt.ofCode (wf w 97 96)).isSome ∧ (Rnd.ofCode (wf w 95 94)).isSome) ∧
    (let w := iw 0x80 [(88, 0x40000), (64, 0x50000), (40, 0x60000), (36, 4), (6, 2)]; s0.quiet 0 w 0x80 ∧ (qntOps w c0).isRight = true) ∧
    (∀ n ∈ [0, 1023], let w := iw 0x90 [(88, 0x40000), (78, n), (62, 0xFFFF)]
      s0.quiet 0 w 0x90 ∧ c0.la (wf w 111 88) % 2 = 0 ∧ rdOk (c0.la (wf w 111 88)) (2 * wf w 87 78) = true) ∧
    s0.quiet 0 (iw 0x91 []) 0x91 := by
  simp only [quiet_iff]; (repeat' apply And.intro) <;> decide +kernel

/-! ### Witnesses: the sparse engine -/

/-- A command block from its fields: lowest bit, value. -/
def blk (l : List (Nat × Nat)) : Nat := (l.map fun p => p.2 * 2 ^ p.1).sum

/-- Core site 671, on, with a command under way. -/
def spe (c : SpeCmd) (x : CoreSite := {}) : State := (on [23]).setCore 671 { x with spe := some c }

/-- A ring that ends with the local data space, one that begins too low, a defined and an undefined OP, and a command that has ended. -/
theorem witness_SparseCommandRing :
    (∀ op ∈ [0, 1, 4, 5], ∀ la ∈ [0x1FFC00, 0x3FFC0],
      let c : CoreSite := ({ speWait := 1 } : CoreSite).wrLm (la + 960) [BitVec.ofNat 8 op]
      let s := put [(R.CORE.SPE_CTL.CMD_LA, 671, la), (R.CORE.SPE_CTL.NEXT, 671, 15)] ((on [23]).setCore 671 c);
      0 < (s.core 671).speWait ∧ (s.core 671).spe = none ∧ s.regionOn (clusterOf 671) = true ∧
      s.getF R.CORE.SPE_CTL.CMD_LA 671 = la ∧ s.getF R.CORE.SPE_CTL.NEXT 671 = 15 ∧ la % 64 = 0 ∧ bits (leNat ((s.core 671).rdLm (la + 960) 64)) 7 0 = op) ∧
    (0x40000 ≤ 0x1FFC00 ∧ 0x1FFC00 + 1024 ≤ 0x200000 ∧ 0x3FFC0 < 0x40000) ∧
    (∀ st ∈ [0, 1, 2, 3], let d : SpeCmd := { idx := 15, block := 1, addr := 0x1FFFC0, status := st, done := true }
      ((spe d).core 671).spe = some d ∧ d.done = true ∧ d.status < 256) ∧
    (let d : SpeCmd := { idx := 15, block := 1, addr := 0x1FFFC0 }; ((spe d).core 671).spe = some d ∧ d.done = false) ∧
    ((on [23]).core 671).speWait = 0 := by decide +kernel

/-- All of chip memory under the fences of a cluster. -/
def fenced (c : Nat) (s : State) : State :=
  putEff [(R.CL.FENCE_LOn.VALID.at 8 7, c, 1), (R.CL.FENCE_HIn.LAST.at 8 7, c, 1310719)] s

/-- PACK of two listed positions of two at the end of the position range, into local space and into chip memory. -/
theorem witness_PackCommand :
    ∀ loc ∈ [1, 0],
    let c : SpeCmd := { idx := 0, block := blk [(0, 1), (128, 0x40000), (180, loc), (192, 0x50000), (216, 0x60000), (240, 4), (246, 1), (256, 2), (272, 65533)], addr := 0x40000 }
    let s := fenced 23 (spe c (({} : CoreSite).wrLm 0x60000 [0, 0, 1, 0])); let f := EFmt.e2m1; let lm := s.core 671
    let dst := if flag c.block 180 then c.f 151 128 else c.f 179 128; let src := c.f 215 192; let plist := c.f 239 216; let gb := c.f 245 244 + 1; let n := (c.f 255 246 + 1) * gb
    let npos := c.f 271 256; let rows := c.f 303 288 + 1; let pitch := rowPitch f gb
    let off := fun (i : Nat) => leNat (lm.rdLm (plist + 2 * i) 2)
    let bk := fun (i rho : Nat) => rowBlock f gb (i % gb) (lm.rdLm (src + (i / gb * rows + rho) * pitch) pitch)
    let k := (List.range npos).countP fun p => ((List.range n).find? fun i => off i == p).any fun i =>
      (List.range rows).any fun rho => !absentRaw f (bk i rho)
    let h0 : THdr := { enc := 0, efmt := c.f 243 240, act := true, sq := false, nblk := 1, npos := npos, npres := k, base := c.f 287 272, rows := rows, size := 0, rsv := false };
    s.speOf 671 1 = some c ∧ EFmt.ofCode (c.f 243 240) = some f ∧ 0 < npos ∧ c.f 287 272 + npos ≤ 65535 ∧
    src % 8 = 0 ∧ dst % 16 = 0 ∧ rdOk src ((c.f 255 246 + 1) * rows * pitch) = true ∧ rdOk plist (2 * n) = true ∧
    flag c.block 180 = (loc == 1) ∧ s.speMay 671 dst (h0.sizeIn h0.choose) (flag c.block 180) = true := by decide +kernel

/-- UNPACK of a row of one position that is present, in local space and in chip memory, of a row whose header is all zeros but for ACT, and
of a weight row of one tile of one block into the staging buffer. -/
theorem witness_UnpackCommand :
    let h0 : THdr := { enc := 0, efmt := 4, act := true, sq := false, nblk := 1, npos := 1, npres := 1, base := 65534, rows := 1, size := 0, rsv := false };
    (∀ p ∈ [(({ h0 with size := h0.sizeIn 0 } : THdr).toBytes, 1, true), (({ h0 with size := h0.sizeIn 0 } : THdr).toBytes, 0, true), ([0, 1], 1, false)],
    let c : SpeCmd := { idx := 0, block := blk [(0, 2), (128, 0x40000), (180, p.2.1), (192, 0x50000), (216, 0x60000), (240, 1)], addr := 0x40000 }
    let s := fenced 23 (if p.2.1 = 1 then spe c (({} : CoreSite).wrLm 0x40000 p.1) else { spe c with mem := p.1.zipIdx.filterMap fun e => if e.1 = 0 then none else some (0x40000 + e.2, e.1) })
    let loc := flag c.block 180; let src := if loc then c.f 151 128 else c.f 179 128; let dst := c.f 215 192; let list := c.f 239 216; let n := c.f 249 240
    let h := THdr.ofBytes (s.speBytes 671 src 32 loc); let pt := rowPitch h.fmt n;
    s.speOf 671 2 = some c ∧ loc = (p.2.1 == 1) ∧ (loc = true → rdOk src 32 = true) ∧ (loc = false → s.deck.gather = [] ∧
      s.fenceOk 23 false src 512 = true ∧ s.poisonIn src 512 = [] ∧ src % 512 + max 32 h.size ≤ 512) ∧
    h.act = true ∧ 0 < n ∧ wrOk dst (h.rows * pt) = true ∧ wrOk list (2 * n) = true ∧ dst + h.rows * pt ≤ list ∧ h.ok = p.2.2 ∧
    (p.2.2 = true → (loc = true → rdOk src h.size = true) ∧ h.mapOk (s.speBytes 671 src h.size loc) = true)) ∧
    (let h1 : THdr := { h0 with act := false }
     let c : SpeCmd := { idx := 0, block := blk [(0, 2), (128, 0x40000), (180, 1), (192, stagingBase), (216, 0x248000)], addr := 0x40000 }
     let s := spe c (({} : CoreSite).wrLm 0x40000 ({ h1 with size := h1.sizeIn 0 } : THdr).toBytes)
     let src := c.f 151 128; let dst := c.f 215 192; let list := c.f 239 216; let kb := c.f 253 250 + 1
     let h := THdr.ofBytes (s.speBytes 671 src 32 true); let m := h.nblk * kb; let cb := h.fmt.blockBytes;
     s.speOf 671 2 = some c ∧ flag c.block 180 = true ∧ rdOk src 32 = true ∧ rdOk src h.size = true ∧ h.act = false ∧ h.ok = true ∧
     h.mapOk (s.speBytes 671 src h.size true) = true ∧ stagingBase ≤ dst ∧ dst + 32 * m * cb ≤ 0x250000 ∧ stagingBase ≤ list ∧
     list + 32 * m ≤ 0x250000 ∧ list + 2048 + 2 * kb ≤ 0x250000 ∧ dst + 32 * m * cb ≤ list) := by decide +kernel

/-- PREDICT of one block, one K-block and one row; SCOUT of one entry, listed and counted. -/
theorem witness_ForecastCommands :
    (let c : SpeCmd := { idx := 0, block := blk [(0, 3), (176, 0x40000), (200, 0x50000), (272, 0x60000), (316, 4), (336, 0x3F800000), (368, 0x3F800000)], addr := 0 }
     let s := spe c
     let log := c.f 151 128; let theta := c.f 175 152; let act := c.f 199 176; let skip := c.f 223 200
     let norm := c.f 295 272; let nb := c.f 305 296 + 1; let kb := c.f 315 306 + 1; let rows := c.f 335 320 + 1;
      s.speOf 671 3 = some c ∧ EFmt.ofCode (c.f 319 316) = some .e2m1 ∧ scaleOk (c.f 367 336) = true ∧ scaleOk (c.f 399 368) = true ∧
      rdOk log (ceilDiv nb 128 * rows * 512) = true ∧ rdOk theta (4 * nb) = true ∧ rdOk (c.f 247 224) (rows * rowPitch .e2m1 kb) = true ∧
      rdOk (c.f 271 248) (rows * rowPitch .int2 kb) = true ∧ wrOk norm (8 * rows) = true ∧ wrOk act (2 * nb) = true ∧ wrOk skip (2 * nb) = true) ∧
    (∀ counted ∈ [0, 1], let c : SpeCmd := { idx := 0, block := blk [(0, 4), (176, 0x40000), (272, 1023), (308, counted)], addr := 0 }; let s := spe c
     let sc := c.f 151 128; let skip := c.f 175 152; let mk := c.f 199 176; let norm := c.f 223 200; let wl1 := c.f 247 224
     let delta := c.f 271 248; let first := c.f 281 272; let nent := c.f 291 282 + 1; let rows := c.f 307 292 + 1
     let ent := fun (i : Nat) => leNat ((s.core 671).rdLm (skip + 2 * (first + i)) 2);
      s.speOf 671 4 = some c ∧ rdOk sc (ceilDiv nent 4 * rows * 512) = true ∧ rdOk skip (2 * (first + nent)) = true ∧
      rdOk norm (8 * rows) = true ∧ (∀ i, i < nent → rdOk (wl1 + 128 * ent i) 128 = true ∧ rdOk (delta + 128 * ent i) 128 = true) ∧
      flag c.block 308 = (counted == 1) ∧ wrOk mk (2 * nent) = true) := by decide +kernel

/-! ### Witnesses: memory and movers -/

theorem witness_AddressViews : spreadSize - 1 < spreadSize ∧ 23 < 24 ∧ 640 * 2 ^ 20 - 512 < 640 * 2 ^ 20 ∧
    (640 * 2 ^ 20 - 512) % 512 + 512 ≤ 512 := by decide

/-- A whole line at the end of either view, and the last byte of mapped tier 2. -/
theorem witness_WriteThenRead :
    (∀ p ∈ [(spreadSize - 512, 512), (homeBase + 24 * 2 ^ 30 - 384 * 2 ^ 20 - 512, 512), (resBase + resSize - 1, 1)],
      let bs : List Byte := List.replicate p.2 9;
      (s0.place p.1).isSome = true ∧ s0.t2Down p.1 = false ∧ 0 < bs.length ∧ p.1 % 512 + bs.length ≤ 512 ∧
      (∀ i, i < 1 → s0.canon (0x200 + i) < s0.canon p.1 ∨ s0.canon p.1 + bs.length ≤ s0.canon (0x200 + i))) ∧
    (let s := put [(R.PCH.T2_CTL.WINDOW_GIB, 0, 1)] { s0 with cxl := { up := [0], ports := [0], caps := [1] } };
      (s.place (t2Base + 2 ^ 30 - 1)).isSome = true ∧ s.t2Down (t2Base + 2 ^ 30 - 1) = false) := by decide +kernel

/-- The last line of the last slice: without a cluster, in a cluster's slot under its fences, and refused; a gather entry 32 cycles old; an
atomic add; scrubbing on the last line. -/
theorem witness_DeckCommands :
    (let s := on [35]; s.hosted 3 23 = true ∧ s.deck.portFree 0 23 7 = true ∧ ({} : MemErr).bad = [] ∧ s.poisonIn ((24 * 1310719 + 23) * 512) 512 = []) ∧
    (let s := fenced 23 (on [35]); (23 + 0) % 24 = 23 ∧ 4 < 5 ∧ s.hosted 3 23 = true ∧ s.deck.portFree 0 23 4 = true ∧ s.fenceOk 23 true ((24 * 1310719 + 23) * 512) 512 = true ∧
      (on [35]).fenceOk 23 true ((24 * 1310719 + 23) * 512) 512 = false) ∧
    (let e : GEntry := ⟨23, 7, 1310719, 1, 0⟩; let s := at_ 32 { on [35] with deck := { gather := [e] } };
      s.deck.gather.find? (fun e => e.slice == 23 && e.port == 7 && e.line == 1310719) = some e ∧ 1310719 < 1310720 ∧ e.since + 32 ≤ s.now) ∧
    ((spreadSize - 8) % 8 = 0 ∧ s0.memRange (spreadSize - 8) 8 = true ∧ s0.t2Down (spreadSize - 8) = false ∧ s0.place spreadSize = none ∧ spreadSize % 8 = 0) ∧
    (let s := put [(R.DSL.SCRUB.EN, 23, 1)] { on [35] with deck := { scrub := [(23, 1311743)] } };
      s.getF R.DSL.SCRUB.EN 23 ≠ 0 ∧ s.hosted 3 23 = true ∧ s.scrubDue 23 = true ∧ Tab.get 0 s.deck.scrub 23 + 1 = 1311744) := by decide +kernel

def onHbm (s : State) : State := { s with module_ := { s.module_ with hbmOn := List.range 16 } }

/-- The first and last bytes of both HBM regions. -/
theorem witness_HbmCommands :
    (hbmBase ≤ hbmBase + hbmSize - 1 ∧ hbmBase + hbmSize - 1 < hbmBase + hbmSize ∧ resBase ≤ resBase + resSize - 1 ∧ resBase + resSize - 1 < resBase + resSize) ∧
    (∀ a ∈ [hbmBase, hbmBase + hbmSize - 1, resBase, resBase + resSize - 1], let s := onHbm s0
      (s.place a = some .hbm ∨ s.place a = some .hbmRes) ∧ s.hosted 4 (hbmAt a).1 = true ∧ (hbmAt a).2.2 + 1 ≤ 4096 ∧
      s.poisonIn a 1 = [] ∧ Tab.get false s.poison (s.canon a / 64) = false) ∧
    (let s := onHbm s0; s.hosted 4 15 = true ∧ s.getF R.HBM.RETRAIN_CTL.BUSY 15 ≠ 1 ∧
      (put [(R.HBM.RETRAIN_CTL.BUSY, 15, 1)] s).getF R.HBM.RETRAIN_CTL.BUSY 15 = 1 ∧ (put [(R.HBM.RETRAIN_CTL.BUSY, 15, 1)] s).hosted 4 15 = true) ∧
    ({ s0 with hbm := { retrain := [(15, 31)] } } : State).hbm.retrain = [((15 : Fin 16).val, 31)] := by decide +kernel

/-- Four equal capacities; a link that held the whole window, which goes down; a link that comes up. -/
theorem witness_CxlCommands :
    (let s := { s0 with cxl := { up := [0, 1, 2, 3] } }; let cap := fun (p : Nat) => if s.cxl.up.contains p then [4095, 4095, 4095, 4095].getD p 0 % 4096 else 0;
      0 < cap 0 ∧ cap 0 = cap 1 ∧ cap 1 = cap 2 ∧ cap 2 = cap 3) ∧
    (let s := put [(R.PCH.T2_CTL.WINDOW_GIB, 0, 1)] { s0 with cxl := { up := [3], ports := [3], caps := [0, 0, 0, 1] } };
      s.cxl.up.contains 3 = true ∧ s.place (t2Base + 2 ^ 30 - 1) = some .tier2 ∧ s.cxl.ports = [3] ∧ s.getF R.PCH.T2_CTL.WAYS 0 = 0 ∧
      t2Base + 2 ^ 30 - 1 - t2Base < s.cxl.caps.getD 3 0 * 2 ^ 30) ∧
    s0.module_.v36 = true ∧ s0.cxl.up.contains 3 = false := by decide +kernel

/-- The whole reserved region's last byte, and one byte past either end. -/
theorem witness_InboundRequests :
    ({ s0 with cxl := { up := [3] } } : State).cxl.up.contains 3 = true ∧ (resBase ≤ resBase + resSize - 1 ∧ resBase + resSize - 1 + 1 ≤ resBase + resSize) ∧
    resBase - 1 < resBase ∧ resBase + resSize < resBase + resSize + 1 := by decide

/-- A control ring at the end of the reserved region, with a unit on the control list of mover 5. -/
def ctlMover (x : MovList) : State := { put [(R.ROOT.CTL_MOVER_BASE.BASE, 0, (resBase + resSize) / 1024 - 6)] (on [29]) with movers := [(95, x)] }

/-- A copy of 8 bytes into the last 8 of the spread view. -/
def copyBlk : Nat := blk [(0, 1), (64, 0x1000), (128, spreadSize - 8), (192, 7), (320, spreadSize - 8)]

/-- A block about to start; blocks that are and are not copies, on a control list and on a list of a fenced cluster; a completion. -/
theorem witness_MoverCommands :
    (let s := ctlMover { units := 1, next := 15 }; let x := s.mover 5 15;
      x.cmd = none ∧ 0 < x.units ∧ s.regionOn (netRegion 5) = true ∧ s.ringBase 5 15 = some (resBase + resSize - 1024) ∧ (s.ctlRing 5).isSome = true) ∧
    (let c : MovCmd := ⟨0, blk [(0, 1), (192, 6)], 0, false⟩; ((ctlMover { cmd := some c }).mover 5 15).cmd = some c ∧ c.done = false ∧ (MovBlock.of c.block).ok = false) ∧
    (∀ l ∈ [14, 15], let c : MovCmd := ⟨0, copyBlk, 0, false⟩; let b := MovBlock.of c.block
      let s := putEff [(R.CL.MOVER_LISTn.VALID.at 4 3, 23, 1), (R.CL.MOVER_LISTn.MOVER.at 4 3, 23, 5), (R.CL.MOVER_LISTn.LIST.at 4 3, 23, 14)] <|
        (fenced 23 { ctlMover {} with movers := [(80 + l, { cmd := some c })] });
      (s.mover 5 l).cmd = some c ∧ c.done = false ∧ b.ok = true ∧ b.rows = 1 ∧ b.dst + b.bytes ≤ spreadSize ∧ s.poisonIn b.src b.bytes = [] ∧
      s.poisonedAt b.src b.bytes = [] ∧ (l = 15 → s.memRange b.src b.bytes = true) ∧
      (l ≠ 15 → s.listOwner 5 l = some 23 ∧ s.fenceOk 23 false b.src b.bytes = true ∧ s.fenceOk 23 true b.dst b.bytes = true)) ∧
    (let c : MovCmd := ⟨0x2000, copyBlk, 0, true⟩; let a := (MovBlock.of c.block).compl / 8 * 8;
      ((ctlMover { cmd := some c }).mover 5 15).cmd = some c ∧ c.done = true ∧ (s0.place (c.addr + 1)).isSome = true ∧ s0.t2Down (c.addr + 1) = false ∧ s0.memRange a 8 = true ∧ s0.t2Down a = false ∧
      ∀ i, i < 8 → s0.canon (a + i) ≠ s0.canon (c.addr + 1)) ∧
    (let s := led (ctlMover {}); s.active.isSome = true ∧ (s.ctlRing 5).isSome = true) := by
  decide +kernel

/-- Two rows: both pass; the first passes and the second is refused as a read, or as a write. -/
theorem witness_MoverStopsAtRefusedRow :
    ∀ v ∈ [(0x1000, 0x3000, true, true), (spreadSize - 0x8000, 0x3000, false, true), (0x1000, spreadSize - 0x8000, true, false)],
    let c : MovCmd := ⟨0, blk [(0, 1), (64, v.1), (128, v.2.1), (192, 7), (208, 1), (232, 0x8000), (264, 0x8000)], 0, false⟩; let b := MovBlock.of c.block
    let s := putEff [(R.CL.MOVER_LISTn.VALID.at 4 0, 0, 1), (R.CL.FENCE_LOn.VALID, 0, 1), (R.CL.FENCE_HIn.LAST, 0, 1310719)] { on [24] with movers := [(0, { cmd := some c })] };
    (s.mover 0 0).cmd = some c ∧ c.done = false ∧ s.listOwner 0 0 = some 0 ∧ b.ok = true ∧ b.rows = 2 ∧
    (s.fenceOk 0 false b.src b.bytes = true ∧ s.fenceOk 0 true b.dst b.bytes = true) ∧
    s.fenceOk 0 false (b.src + b.sp) b.bytes = v.2.2.1 ∧ s.fenceOk 0 true (b.dst + b.dp) b.bytes = v.2.2.2 := by decide +kernel

/-! ### Witnesses: jobs, launches and the fabric -/

/-- A sealed device that admits, with cluster 0 free. -/
def admitting : State := mapped (led (put [(R.ROOT.SEAL.SEALED, 0, 1)] (on [0, 24])))

/-- A program of one cluster with one kernel, of kind 9, and one deck region. -/
def prog1 : Program := { nclusters := 1, kernels := [⟨23, [], [], 0, 0x40000, [⟨9, 16383, []⟩]⟩], regions := [⟨0, 4096, 1⟩] }

/-- A record with every field at its greatest; a program with no cluster, which every binding refuses, and one that passes. -/
theorem witness_AdmissionRecords :
    (let r : AdmRec := ⟨255, 65535, 2 ^ 32 - 1, 2 ^ 32 - 1⟩; r.code < 256 ∧ r.unit < 65536 ∧ r.need < 2 ^ 32 ∧ r.avail < 2 ^ 32) ∧
    (let s := admitting; let t := s.applyWindow;
      s.module_.v36 = true ∧ s.ctl.holdAdm = false ∧ s.module_.idle = false ∧ s.leaderless = false ∧
      (∀ cl ∈ t.bindings prog0, t.admCheck prog0 cl ≠ none) ∧
      (t.bindings prog1).find? (fun cl => (t.admCheck prog1 cl).isNone) = some [0] ∧ 0 < 256 ∧ t.job 0 = none) := by decide +kernel

/-- The job partition that prog1 becomes, and the device with it. -/
def job1 : Job := admitting.makeJob prog1 [0]
def admitted : State := match exec (.admission prog1) admitting with
  | .next t => t
  | _ => admitting

theorem witness_AdmissionBindsClusters :
    (let t := admitting.applyWindow; (t.bindings prog1).find? (fun cl => (t.admCheck prog1 cl).isNone) = some [0] ∧ t.job 0 = none) ∧
    (∀ r ∈ prog1.regions, r.space = 0) ∧ (placeRegions 0 (2 ^ 30) [(0, 12288)] (prog1.regions ++ prog1.regions)).isSome = true ∧
    (admitted.job 0 = some job1 ∧ admitted.jobBusy job1 = false ∧ (∀ w ∈ job1.windows, (admitted.window w).st = 0)) ∧
    (let s := admitted.setRun (job1.sites.getD 0 (0, 0)).2 (some r0); s.job 0 = some job1 ∧ s.jobBusy job1 = true) := by decide +kernel

/-- A launch exactly 20 µs ahead, and 1 ns less; a held marking partition; cores that are free and that run a kernel at T_L; CL.TSIG of token
0xFD at site 27. -/
theorem witness_LaunchCommands :
    (let s := admitted; let a : LaunchArgs := ⟨0, 9, 20000, job1.bases.getD 0 0, job1.bases.getD 0 0, 0, 0, 0, 1, [], []⟩;
      s.job a.job = some job1 ∧ s.leaderless = false ∧ s.launchOk job1 a = true ∧ job1.clusters.Nodup ∧ (∀ c ∈ job1.clusters, c < 24) ∧ (∀ e ∈ job1.sites, e.2 < 672) ∧
      (job1.prog.kernels.filterMap fun k => job1.siteOf k.lcore).Nodup ∧ s.launchOk job1 { a with tl := 19999 } = false ∧ s.now + 20000 > 19999 ∧
      (let h := put [(R.TLY.MARK_CTL.SOURCE, 0, 2), (R.TLY.HOLD.HELD, 0, 1)] s; h.marking a.job = true ∧ h.getF R.TLY.HOLD.HELD 0 = 1)) ∧
    (let r : LaunchRec := { r0 with tl := 5, loaded := true, area := spreadSize - 16, ctr := spreadSize - 8 }; let w := r.area + 8 * r.lcore
     let s := at_ 5 ((on [23]).setLaunch 671 (some r));
      s.launchOf 671 = some r ∧ r.tl ≤ s.now ∧ s.regionOn (clusterOf 671) = true ∧ (s.core 671).dead = false ∧ (s.core 671).lull = none ∧
      r.resume = false ∧ w % 8 = 0 ∧ w + 8 ≤ spreadSize ∧ s.run 671 = none ∧ r.loaded = true ∧
      (s.setRun 671 (some r0)).run 671 = some r0 ∧ r.ctr % 8 = 0 ∧ w + 8 ≤ r.ctr ∧ r.ctr + 8 ≤ spreadSize) ∧
    (let s := led (mapped (on [0, 24])); s.active.isSome = true ∧ s.bindsList 0 5 14 = false ∧
      (putEff [(R.CL.MOVER_LISTn.VALID.at 4 3, 0, 1), (R.CL.MOVER_LISTn.MOVER.at 4 3, 0, 5), (R.CL.MOVER_LISTn.LIST.at 4 3, 0, 14)] s).bindsList 0 5 14 = true) ∧
    (let s := led (mapped (on [0, 24])); let v : BitVec 32 := 27 * 256 + 0xFD; let tok := bits v.toNat 7 0; let k := bits v.toNat 12 8;
      s.hosted 1 0 = true ∧ v.getLsbD 13 = false ∧ k ≤ 27 ∧ tok ≤ 0xFD ∧ s.siteInService (28 * 0 + k) = true) := by decide +kernel

def onLch (s : State) : State := { s with module_ := { s.module_ with lchOn := List.range 10 } }

/-- Port 39 of a powered link chiplet, trained to x8 on lanes 0 to 7. -/
def trained : State := put [(R.LPT.TRAIN_STATUS.WIDTH, 39, 3), (R.LPT.TRAIN_STATUS.LANES, 39, 255)] (onLch (on []))

theorem witness_PortCommands :
    511 < 512 ∧ trained.hosted 6 39 = true ∧ (trained.port 39).unacked = [] ∧ (trained.port 39).waiting = [] ∧
    (let s := trained; let used := s.getF R.LPT.TRAIN_STATUS.LANES 39;
      s.getF R.LPT.TRAIN_STATUS.WIDTH 39 = 3 ∧ flag used 7 = true ∧ used < 512 ∧
      ((maskList 9 (s.port 39).good).filter fun i => i != 7).find? (fun i => !flag used i) = some 8 ∧ s.portUp 39 = true ∧ (trainOn 255).2 ≠ 0 ∧
      (trainOn 1).2 = 0 ∧ (put [(R.LPT.TRAIN_STATUS.WIDTH, 39, 2)] s).portUp 39 = true ∧ (put [(R.LPT.TRAIN_STATUS.WIDTH, 39, 2)] s).getF R.LPT.TRAIN_STATUS.WIDTH 39 ≠ 3) := by
  decide +kernel

/-- A flit of channel 4 with sequence number 4095, and its bytes with the CRC. -/
def flit0 : List Byte := let b := natLE 10 (4095 + 4 * 2 ^ 26) ++ List.replicate 242 0; b ++ natLE 4 (crc32 b)

/-- An idle flit. -/
def flit7 : List Byte := let b := natLE 10 (7 * 2 ^ 26) ++ List.replicate 242 0; b ++ natLE 4 (crc32 b)

/-- A good flit in sequence, one byte short, and out of sequence; an idle flit; a port that is down; a replay that is due; an acknowledgement 10 µs late. -/
theorem witness_FlitCommands :
    (let s := trained.modPort 39 fun q => { q with expect := 4095 }; let h := leNat (flit0.take 10); let vc := bits h 28 26;
      s.portUp 39 = true ∧ flit0.length = 256 ∧ crc32 (flit0.take 252) = leNat (flit0.drop 252) ∧ bits h 25 24 ≠ 3 ∧ vc ≠ 5 ∧ vc ≠ 6 ∧ vc ≠ 7 ∧
      bits h 11 0 = (s.port 39).expect ∧ (flit0.take 255).length ≠ 256 ∧ bits h 11 0 ≠ (trained.port 39).expect) ∧
    (let h := leNat (flit7.take 10); flit7.length = 256 ∧ crc32 (flit7.take 252) = leNat (flit7.drop 252) ∧ bits h 25 24 ≠ 3 ∧ bits h 28 26 = 7) ∧
    s0.portUp 39 = false ∧ (trained.modPort 39 fun q => { q with replay := true } : State).port 39 = { replay := true } ∧
    (let s := at_ 10000 (trained.modPort 39 fun q => { q with unacked := [{ vc := 0, slot := none }] });
      (s.port 39).unacked ≠ [] ∧ (s.port 39).ackAt + 10000 ≤ s.now) := by decide +kernel

/-- Link chiplet 9 with one packet received. -/
def inbox (p : Packet) (s : State) : State := s.modChip 9 fun c => { c with inbox := [p] }

/-- A data packet for this device of one byte. -/
def pkt0 : Packet := { type := 1, cls := 0, dst := 0, src := 2047, window := 1023, gen := 255, tag := 65535, off := 511, data := [1] }
/-- Its window. -/
def win0 : Window := { st := 1, gen := 255, base := 0, size := 512, tag := 65535 }

/-- Ages of 9,900 and of 9,899 µs; a broken header; each of the six reasons to refuse, and none. -/
theorem witness_DataPacketArrivals :
    (∀ b ∈ [55636, 55637], let p := { pkt0 with birth := b, rsv := true }; let s := inbox p s0
      (s.chip 9).inbox[0]? = some p ∧ p.type = 1 ∧ (b = 55636 → 9900 ≤ s.age p.birth) ∧ (b = 55637 → s.age p.birth < 9900 ∧ p.broken = true)) ∧
    (∀ v ∈ [(pkt0, { win0 with st := 2 }, 1), ({ pkt0 with gen := 0 }, win0, 2), ({ pkt0 with off := 512 }, win0, 3), ({ pkt0 with tag := 1 }, win0, 4),
        ({ pkt0 with cells := true }, win0, 6), (pkt0, win0, 0)],
      let p := v.1; let s := (inbox p s0).modWindow 1023 fun _ => v.2.1; let w := s.window p.window
      let bs := if p.cells then parseCells p.data.length p.data else some p.data
      let code : Nat := if w.st ≠ 1 then 1 else if w.gen ≠ p.gen then 2 else match bs with
        | none => 6
        | some b => if w.size < p.off + b.length then 3 else if w.tag = 0 ∨ w.tag ≠ p.tag then 4
          else if 524288 < (s.chip 9).inUse + p.data.length then 5 else 0
      (s.chip 9).inbox[0]? = some p ∧ p.type = 1 ∧ s.age p.birth < 9900 ∧ p.broken = false ∧ p.dst = s.devId ∧ p.src ≠ s.devId ∧ code = v.2.2) ∧
    (let s := s0.modChip 9 fun c => { c with landed := [⟨pkt0, 0, [], 524288⟩] }; 524288 < (s.chip 9).inUse + pkt0.data.length) := by decide +kernel

/-- A packet whose answer is awaited. -/
def out0 : OutPkt := { slot := 4095, pkt := { pkt0 with dst := 2047, src := 0 }, send := 5, target := 0, site := 671, la := 0, n := 1, firstAt := 0 }

/-- A landed packet that ends with the spread view; answers of NO_BUFFER and of OK; a retry that is due; 20 ms without an answer. -/
theorem witness_LandingAndAnswers :
    (let l : Landed := ⟨pkt0, spreadSize - 1, [1], 1⟩; let s := s0.modChip 9 fun c => { c with landed := [l] };
      (s.chip 9).landed[0]? = some l ∧ l.pkt.src ≠ s.devId ∧ (∀ i, i < l.bytes.length → (s.place (l.addr + i)).isSome = true ∧ s.t2Down (l.addr + i) = false)) ∧
    (∀ code ∈ [0, 5], let p : Packet := { type := 2, cls := 0, dst := 0, src := 2047, slot := 9 * 4096 + 4095, code := code, vc := 4 }
      let g : SendTgt := ⟨2047, 1, 0, 1, true, false⟩; let r : SendRec := ⟨5, 671, 0, [g], []⟩
      let s := ((inbox p s0).modChip 9 fun c => { c with unans := [out0] }).modFab fun f => { f with sends := [r] };
      (s.chip 9).inbox[0]? = some p ∧ p.type = 2 ∧ s.age p.birth < 9900 ∧ p.broken = false ∧ p.dst = s.devId ∧ p.slot / 4096 = 9 ∧
      (s.chip 9).unans.find? (fun o => o.slot == p.slot % 4096) = some out0 ∧ s.age out0.pkt.birth < 9000 ∧
      s.fab.sends = [r] ∧ out0.send = r.no ∧ out0.target = 0 ∧ r.queued = [] ∧ r.targets = [g] ∧ g.left = 1 ∧ g.good = true ∧ g.done = false ∧
      g.dev ≠ s.devId ∧ (s.partner g.dev).unacked.length < 1024) ∧
    (let o := { out0 with pkt := { pkt0 with dst := 0 }, retryAt := some 1000 }; let s := at_ 1000 (s0.modChip 9 fun c => { c with unans := [o] });
      (s.chip 9).unans.find? (fun o => o.slot == 4095) = some o ∧ o.retryAt = some 1000 ∧ 1000 ≤ s.now ∧ s.age o.pkt.birth < 9000 ∧ o.pkt.dst = s.devId) ∧
    (let s := at_ 20000000 ((s0.modChip 9 fun c => { c with unans := [out0] }).modPartner 2047 fun q => { q with st := 1 });
      (s.chip 9).unans.find? (fun o => o.slot == 4095) = some out0 ∧ out0.firstAt + 20000000 ≤ s.now ∧ (s.partner out0.pkt.dst).st = 1 ∧ s.fab.sends = []) ∧
    (let p := { pkt0 with birth := 55636 }; let s := inbox p s0; (s.chip 9).inbox[0]? = some p ∧ 9900 ≤ s.age p.birth) ∧
    (let f : TxFlit := { vc := 0, slot := none, pid := 3, birth := 55636, pay := [1] }; let s := trained.modPort 39 fun q => { q with waiting := [f] };
      (s.chip 9).inbox[0]? = none ∧ (s.overdue 9)[0]? = some (39, 3, 55636)) := by
  (repeat' apply And.intro) <;> decide +kernel

/-- A notice in turn, the furthest ahead and the furthest behind; a retransmission after 20 µs, an acknowledgement, a probe after 1 ms. -/
theorem witness_NoticeCommands :
    (∀ v ∈ [(65535, 65535), (1022, 65535), (0, 32768)], let p : Packet := { type := 3, cls := 0, dst := 0, src := 2047, window := 1023, nseq := v.1, vc := 3 }
      let s := ((inbox p s0).modPartner 2047 fun q => { q with rxSeq := v.2 }).modWindow 1023 fun _ => { win0 with nvalid := true, ncl := 23, nsite := 27, ntok := 253 }
      let c := s.partner p.src; let w := s.window p.window;
      (s.chip 9).inbox[0]? = some p ∧ p.type = 3 ∧ s.age p.birth < 9900 ∧ p.broken = false ∧ p.dst = s.devId ∧ p.src ≠ s.devId ∧ c.held = [] ∧
      p.nseq < 65536 ∧ c.rxSeq < 65536 ∧ w.nvalid = true ∧
      Tab.get 0 (s.cluster (clusterOf (28 * w.ncl + w.nsite))).excess (tokKey (28 * w.ncl + w.nsite) w.ntok) = 0 ∧
      (s.core (28 * w.ncl + w.nsite)).token w.ntok < 65535 ∧
      (v = (65535, 65535) → p.nseq = c.rxSeq) ∧ (v = (1022, 65535) → p.nseq = (c.rxSeq + 1023) % 65536) ∧ (v = (0, 32768) → p.nseq = (c.rxSeq + 65536 - 32768) % 65536)) ∧
    (let x : Notice := ⟨65535, 1023, 0⟩; let s := at_ 20000 (s0.modPartner 4095 fun q => { q with unacked := [x] });
      (s.partner 4095).unacked.find? (fun x => x.nseq == 65535) = some x ∧ 4095 ≠ s.devId ∧ x.at_ + 20000 ≤ s.now ∧ (s.partner 4095).queued = [] ∧
      (s.modPartner 4095 fun q => { q with queued := [7] } : State).partner 4095 = { unacked := [x], queued := 7 :: [] }) ∧
    (let s := at_ 1000000 (s0.modPartner 4095 fun q => { q with st := 2 }); (s.partner 4095).st = 2 ∧ (s.partner 4095).probeAt + 1000000 ≤ s.now) := by
  decide +kernel

/-- Joins that are refused and accepted, with marks and without; a leave; a tag held, and the lowest free one. -/
theorem witness_PlaneCommands :
    (let s := { s0 with fab := { members := [(2047, 64)] } }; let q : JoinReq := { id := 2046 };
      4096 ≤ 4096 ∧ 2047 < 2048 ∧ (s.fab.members.any fun m => m.1 == 2047) = true ∧ s.joinRefusal { id := 4096 } = some 1 ∧
      s.joinRefusal q = none ∧ s.marks = false ∧ (put [(R.TLY.MARK_CTL.SOURCE, 0, 1)] s).marks = true ∧
      (put [(R.TLY.MARK_CTL.SOURCE, 0, 1)] s).joinRefusal q = none ∧ s.fab.joins = [] ∧ q.id ≠ s.devId ∧ 2047 ≠ s.devId) ∧
    (let s := s0.modPartner 9 fun q => { q with st := 1 }; (s.partner 9).st ≠ 0 ∧ 39 < 40) ∧
    (let g : TagRec := ⟨1, [], 7, [5]⟩; let s := { s0 with fab := { tags := [g] } };
      s.isRoot = true ∧ 4095 ≠ s.devId ∧ s.fab.tags.find? (fun t => t.hash == [] && t.ident == 7) = some g ∧
      s.fab.tags.find? (fun t => t.hash == [] && t.ident == 8) = none ∧ (∀ t ∈ s.fab.tags, t.tag ≠ 2) ∧ (∀ k, k < 2 → 0 < k → ∃ t ∈ s.fab.tags, t.tag = k) ∧
      g.devs = [5] ∧ s.fab.tags.countP (fun x => x.tag == 1) = 1) ∧
    (let s := put [(R.LCH.FABRIC_ID.ID, 0, 9)] { s0 with fab := { members := [(8, 1)] } }; s.isRoot = false) := by decide +kernel

/-- LWT with a window of job tag 5 owned by cluster 0, all of the deck fenced for it. -/
def lwt (w : Window) (l : List (Fld × Nat × Nat)) : State :=
  putEff [(R.CL.JOB.ACTIVE, 0, 1)] <| put ([(R.CL.FENCE_LOn.VALID, 0, 1), (R.CL.FENCE_HIn.LAST, 0, 1310719), (R.LWT.CL_TAGn.JOB_TAG, 0, 5),
    (R.LWT.SEL.WINDOW, 0, 1023)] ++ l) (led (at_ 50000 ((onLch (mapped (on [0, 24]))).modWindow 1023 fun _ => w)))

/-- Each result of OPEN and of CLOSE, a close that waits and one that ends, a notify change of an open and of a closed window, and entries of
either plane. -/
theorem witness_WindowCommands :
    (let s := lwt {} [(R.LWT.CMD.BUSY, 0, 1)]; s.hosted 12 0 = true ∧ s.getF R.LWT.CMD.BUSY 0 = 1) ∧
    (let s := lwt {} []; s.hosted 12 0 = true ∧ s.active.isSome = true ∧ s.getF R.LWT.CMD.BUSY 0 ≠ 1 ∧ s.getF R.LWT.SEL.WINDOW 0 = 1023 ∧ s.owners 5 = [0]) ∧
    ((lwt win0 []).window 1023).st ≠ 0 ∧
    (let s := lwt { closedAt := some 1 } []; (s.window 1023).st = 0 ∧ (s.window 1023).closedAt = some 1 ∧ s.now < 1 + 50000) ∧
    (let s := lwt { closedAt := some 0, tag := 5, size := 2 ^ 32 + 1 } []; (s.window 1023).st = 0 ∧ 0 + 50000 ≤ s.now ∧ 2 ^ 32 < (s.window 1023).size) ∧
    (∀ tok ∈ [253, 254], let s := lwt { tag := 5, size := 2 ^ 32, nvalid := true, ncl := 0, nsite := 27, ntok := tok } []; let w := s.window 1023
      w.st = 0 ∧ w.closedAt = none ∧ 0 ∈ s.owners w.tag ∧ 0 < w.size ∧ w.size ≤ 2 ^ 32 ∧ s.rangeFenced 0 w.base w.size = true ∧ w.nvalid = true ∧
      s.targetOk (s.owners w.tag) w.ncl w.nsite w.ntok = (tok == 253)) ∧
    (((lwt {} []).window 1023).st ≠ 1 ∧ ((lwt win0 []).window 1023).st = 1) ∧
    (let s := (lwt win0 []).modFab fun f => { f with closing := some 1023 }
     let l := s.modChip 9 fun c => { c with landed := [⟨pkt0, 0, [1], 1⟩] };
      s.fab.closing = some 1023 ∧ s.landing 1023 = false ∧ l.fab.closing = some 1023 ∧ l.landing 1023 = true) ∧
    (let s := lwt { win0 with tag := 5 } []; (s.window 1023).st ≠ 0 ∧ s.targetOk (s.owners 5) 0 27 253 = true ∧ s.targetOk (s.owners 5) 1 27 253 = false) ∧
    (led (onLch (on []))).active.isSome = true ∧ ((led (onLch (on []))).hosted 13 0 = true ∧ 2047 % 4096 / 2048 = (onLch (on [])).devId / 2048 ∧ 2048 % 4096 / 2048 ≠ (onLch (on [])).devId / 2048) := by
  (repeat' apply And.intro) <;> decide +kernel

/-- The tally unit on, with a mark source. -/
def tally (src : Nat) (t : Tally) : State := put [(R.TLY.MARK_CTL.SOURCE, 0, src)] { on [25] with tally := t }

theorem witness_MarkCommands :
    (led (tally 1 {})).active.isSome = true ∧ ((tally 1 {}).hosted 10 0 = true ∧ (tally 1 {}).getF R.TLY.MARK_CTL.SOURCE 0 ≠ 2 ∧ (tally 2 {}).hosted 10 0 = true ∧
      (tally 2 {}).getF R.TLY.MARK_CTL.SOURCE 0 = 2 ∧ (tally 2 {}).tally.waiting = none) ∧
    (let m : Mark := ⟨none⟩; let s := tally 2 { incoming := [m] };
      s.tally.incoming = m :: [] ∧ s.tally.waiting = none ∧ s.tally.taken = none ∧ s.getF R.TLY.HOLD.HELD 0 = 0 ∧ s.tally.heldMark = none ∧
      (tally 2 { incoming := [m], taken := some m }).tally.taken ≠ none) ∧
    (let m : Mark := ⟨none⟩; let s := put [(R.TLY.RANGE_LENn.WORDS.at 32 15, 0, 2), (R.TLY.RANGE_CTLn.CSET.at 32 15, 0, 255)] (tally 2 { taken := some m, rangesLeft := [15] });
      s.tally.taken = some m ∧ s.tally.rangesLeft.contains 15 = true ∧ s.getF (R.TLY.RANGE_CTLn.CSET.at 32 15) 0 < 256 ∧
      (let t := tally 2 { incoming := [m], waiting := some m }; t.tally.incoming = m :: [] ∧ t.tally.waiting ≠ none)) ∧
    (tally 2 { transit := [⟨[(3, 4)], 0⟩] }).tally.transit = ⟨[(3, 4)], 0⟩ :: [] := by decide +kernel

/-! ### Witnesses: tally, gate, recovery and errors -/

theorem witness_LatchRestartsCounts :
    ∀ step ∈ [0xFFFFFFFE, 0xFFFFFFFF], let s := put [(R.TLY.STEP.STEP, 0, step)] (at_ 1000 (tally 2 { taken := some ⟨none⟩, transit := [⟨[], 0⟩, ⟨[], 1⟩] }))
      s.tally.taken = some ⟨none⟩ ∧ s.tally.rangesLeft = [] ∧ s.tally.takenAt + 1000 ≤ s.now ∧ s.getF R.TLY.STEP.STEP 0 = step := by decide +kernel

/-- A latch with and without a hold, of a TMARK of the last site. -/
theorem witness_LatchWritesRecord :
    ∀ held ∈ [0, 1], let s := put [(R.TLY.STEP.STEP, 0, 2 ^ 32 - 1), (R.TLY.HOLD.REQUESTED, 0, held)] <|
        ((at_ 1000 (tally 1 { taken := some ⟨some 671⟩ })).setCore 671 { atMark := some tmarkCode });
      s.tally.taken = some ⟨some 671⟩ ∧ s.tally.rangesLeft = [] ∧ s.tally.takenAt + 1000 ≤ s.now ∧ s.tally.transit = [] ∧ s.tally.waiting = none ∧
      s.getF R.TLY.STEP.STEP 0 < 2 ^ 32 ∧ (s.getF R.TLY.HOLD.REQUESTED 0 == 1) = (held == 1) ∧ (s.core 671).atMark = some tmarkCode ∧
      s.tally.gate.span = false ∧
      (let p := { s with tally := { s.tally with gate := { s.tally.gate with span := true } } }; p.tally.gate.span = true ∧ p.tally.taken = some ⟨some 671⟩ ∧ p.tally.rangesLeft = []) := by
  decide +kernel

/-- A device and its plane of three: this one the root, or a child of device 1. -/
def plane (id : Nat) (g : Gate) : State :=
  put [(R.LCH.FABRIC_ID.ID, 0, id)] (at_ 1000000 { on [25] with fab := { members := [(1, 64), (5, 64), (2047, 64)] }, tally := { gate := g } })

/-- A root with every input there, good and not; an input to come; one late by 1 ms; a parent late by 1 ms; HOLD_REQ and RELEASE. -/
theorem witness_GateCommands :
    (∀ good ∈ [true, false], let s := plane 1 { active := true, tree := [1, 5, 2047], children := [(5, good), (2047, true)] }; let g := s.tally.gate
      g.active = true ∧ s.gateParent = none ∧ s.gateReady = true ∧ s.getF R.LCH.FABRIC_ID.PAIR 0 = 0 ∧ s.tally.heldMark = none ∧
      s.tally.waiting = none ∧ s.gateGood = good ∧ s.getF R.TLY.HOLD.REQUESTED 0 ≠ 1 ∧ g.twin.differs = false) ∧
    (let s := plane 1 { active := true, tree := [1, 5, 2047], step := 2 ^ 32 - 1, since := some 0 }; let g := s.tally.gate;
      s.gateChildren.contains 2047 = true ∧ g.active = true ∧ g.step = (2 ^ 32 - 1 : BitVec 32).toNat ∧ (g.children.any fun c => c.1 == 2047) = false ∧
      g.missing.contains 2047 = false ∧ g.since = some 0 ∧ 0 + 1000000 ≤ s.now ∧ s.gateChildren.contains 6 = false ∧ s.gateReady = false ∧ s.gateParent = none) ∧
    (let s := plane 1 {}; s.tally.gate.active = false ∧ s.gateChildren.contains 2047 = true ∧ (0 : BitVec 32).toNat = s.getF R.TLY.STEP.STEP 0) ∧
    (let g := ({ active := false, decided := true, go := false, span := true } : Gate); g.active = false ∧ g.decided = true ∧ g.go = false ∧ g.span = true) ∧
    (let s := plane 5 { active := true, tree := [1, 5, 2047], sentAt := some 0 }; let g := s.tally.gate;
      g.sentAt = some 0 ∧ s.gateParent = some 1 ∧ g.active = true ∧ 0 + 1000000 ≤ s.now) := by decide +kernel

/-- HOLD_REQ; RELEASE of a device that is held, of one that is not, and of the root of a plane. -/
theorem witness_HoldCommands :
    (let s := led (put [(R.TLY.HOLD.HELD, 0, 1)] ((tally 1 { heldMark := some ⟨some 671⟩ }).setCore 671 { atMark := some tmarkCode }));
      s.active.isSome = true ∧ s.hosted 10 0 = true ∧ s.tally.gate.span = false ∧ s.tally.waiting = none ∧ s.getF R.TLY.HOLD.HELD 0 ≠ 0 ∧
      s.tally.heldMark = some ⟨some 671⟩ ∧ (s.core 671).atMark = some tmarkCode) ∧
    (let s := led (tally 1 {}); s.active.isSome = true ∧ s.hosted 10 0 = true ∧ s.getF R.TLY.HOLD.HELD 0 = 0 ∧ s.tally.heldMark = none ∧
      s.tally.gate.span = false ∧ s.tally.gate.active = false ∧ s.tally.waiting = none) ∧
    (let s := led (put [(R.TLY.HOLD.HELD, 0, 1)] (plane 1 { span := true })); s.active.isSome = true ∧ s.hosted 10 0 = true ∧ s.tally.gate.span = true ∧
      s.isRoot = true ∧ s.tally.gate.active = false ∧ s.getF R.TLY.HOLD.HELD 0 ≠ 0) ∧
    (let s := plane 5 { span := true }; s.tally.gate.span = true ∧ s.isRoot = false) := by decide +kernel

/-- A paired device whose own digest is latched. -/
def pair (tw : Twin) (alone : Bool := false) : State :=
  put [(R.LCH.FABRIC_ID.PAIR, 0, 1), (R.TLY.HOLD.HELD, 0, 1)] (at_ 1000000 { on [25] with tally := { gate := { twin := tw, alone := alone } } })

theorem witness_TwinCommands :
    (let s := pair { own := some [1], since := some (true, 0) }; let tw := s.tally.gate.twin;
      s.getF R.LCH.FABRIC_ID.PAIR 0 = 1 ∧ tw.own = some [1] ∧ tw.other = none ∧ s.tally.gate.alone = false ∧ tw.ok = false ∧ tw.differs = false ∧
      tw.since = some (true, 0) ∧ tw.late = false ∧ 0 + 1000000 ≤ s.now) ∧
    (let s := pair { own := some [1] }; let tw := s.tally.gate.twin; tw.other = none ∧ s.tally.gate.alone = false ∧ tw.own = some [1] ∧ tw.ok = false ∧ tw.differs = false ∧ tw.late = false ∧ tw.since = none) ∧
    (let s := pair { since := some (false, 0) }; let tw := s.tally.gate.twin; tw.since = some (false, 0) ∧ tw.own = none ∧ s.tally.gate.alone = false ∧ tw.late = false ∧ 0 + 1000000 ≤ s.now) ∧
    (let s := pair { own := some [1], other := some [2], differs := true }; let tw := s.tally.gate.twin;
      tw.own = some [1] ∧ tw.other = some [2] ∧ tw.differs = true ∧ tw.ok = false ∧ ([1] : List Byte) ≠ [2]) ∧
    (let s := pair { own := some [1] } true;
      s.tally.gate.twin.own = some [1] ∧ s.tally.gate.alone = true ∧ s.getF R.TLY.HOLD.HELD 0 ≠ 0 ∧ [] ≠ s.lastDigest ∧ List.replicate 64 0 = s.lastDigest ∧
      s.tally.waiting = none) := by decide +kernel

/-- Cluster 0 alone in a job, site 0 running. -/
def grp (c : CoreSite) (cl : Cluster) (replay : Bool := true) : State :=
  putEff [(R.CL.JOB.ACTIVE, 0, 1)] { (kern (core0 c)) with clusters := [(0, cl)], jobs := [(0, some { j0 with prog := { prog0 with replay := replay } })] }

/-- No mark and a mark; a wanted replay held up, within and outside replay mode; a rotated replay that fails again and one that passes. -/
theorem witness_CommitAndReplay :
    (let s := grp c0 {}; let g := s.groupOf 0; g = [0] ∧ g.Nodup ∧ (∀ d ∈ g, d < 24) ∧ s.groupMark g = none) ∧
    (let s := grp { c0 with st := .draining, atMark := some 65535 } {}; let g := s.groupOf 0;
      g.Nodup ∧ (∀ d ∈ g, d < 24) ∧ s.groupMark g = some 65535 ∧ s.mayCommit g = true ∧ s.quarantinedIn g = false ∧ (∀ d ∈ g, (s.cluster d).recov = none) ∧
      (let q := { s with sec := { s.sec with blaze := { s.sec.blaze with sites := [(0, 3)] } } }; q.groupMark g = some 65535 ∧ q.mayCommit g = true ∧ q.quarantinedIn g = true)) ∧
    (let s := core0 c0; s.jobOf 0 = none) ∧
    (let w : Recovery := { since := 0, kind := 0, site := some 0 }
     let blocked := grp c0 { want := some w, march := some 0 };
      ((blocked.cluster 0).want = some w ∧ blocked.liveSites (blocked.groupOf 0) ≠ [] ∧ ∃ d ∈ blocked.groupOf 0, (blocked.cluster d).march ≠ none) ∧
      ∀ replay ∈ [true, false], let s := grp c0 { want := some w } replay; let g := s.groupOf 0
        (s.cluster 0).want = some w ∧ s.liveSites g ≠ [] ∧ (∀ d ∈ g, (s.cluster d).march = none) ∧ (∀ i ∈ s.liveSites g, (s.core i).dead = false) ∧
        s.jobOf 0 = some 0 ∧ (s.job 0).map (·.prog.replay) = some replay ∧ s.replayOf 0 ((s.job 0).getD j0) = some w) ∧
    (let s := grp c0 {}; s.jobOf 0 = some 0 ∧ s.replayOf 0 ((s.job 0).getD j0) = none) ∧
    (∀ again ∈ [true, false], let r : Recovery := { since := 0, kind := 0, site := some 0, rotated := true, again := again }; let s := grp { c0 with atMark := some 1 } { recov := some r }
      (s.cluster (clusterOf 0)).recov = some r ∧ r.rotated = true ∧ r.site = some 0 ∧ (s.core 0).dead = false ∧ s.groupOf (clusterOf 0) = [clusterOf 0] ∧
      (s.groupMark [clusterOf 0]).isSome = true ∧ (again = false → s.mayCommit [clusterOf 0] = true) ∧ (∀ d ∈ [clusterOf 0], (s.cluster d).recov = some r)) := by
  refine ⟨?_, ?_, ?_, ?_, ?_, ?_⟩ <;> decide +kernel

/-- A heartbeat 8 µs old and one younger, a dead and a living site, and a march under way at a living site. -/
theorem witness_DeathsAndResets :
    (let s := at_ 8000 (on [23]); s.regionOn (clusterOf 671) = true ∧ (s.core 671).dead = false ∧ s.watched (clusterOf 671) = true ∧ (s.core 671).hbAt + 8000 ≤ s.now) ∧
    (let s := at_ 7999 (on [23]); (s.core 671).hbAt + 8000 > s.now) ∧ ((at_ 8000 (on [23])).setCore 671 { dead := true } : State).core 671 = { dead := true } ∧
    (let s := { on [23] with clusters := [(23, { march := some 671 })] }; (s.cluster (clusterOf 671)).march = some 671 ∧ (s.core 671).dead = false) := by decide +kernel

/-- A dead site with a row spare, and one without; a job partition to reset. -/
theorem witness_SubstitutionAndJobReset :
    let j1 : Job := { j0 with prog := { prog0 with replay := true } }
    let s := putEff [(R.CL.JOB.ACTIVE, 0, 1)] { core0 { dead := true } with jobs := [(0, some j1)], sec := { blaze := { roles := [(0, 0)], sites := [(0, 2)] } } };
    s.siteJob 0 = some (0, j1, 0) ∧ (s.core 0).dead = true ∧ (s.cluster (clusterOf 0)).march = none ∧ s.liveSites (s.groupOf (clusterOf 0)) = [] ∧
    s.mesh.toks = [] ∧ (∀ r ∈ j0.prog.routes, r.srcR < 64 ∧ r.dstR < 64) ∧ s.rowSpare 0 = some 1 ∧ (mapped s).rowSpare 0 = none ∧ (mapped s).freeStandby = none ∧
    (mapped s).siteJob 0 = some (0, j1, 0) ∧ s.job 0 = some j1 ∧ (∀ w ∈ j1.windows, (s.window w).st = 0) ∧ (∀ d ∈ j1.clusters, d < 24) ∧ j1.prog.replay = true ∧
    (∀ e ∈ j1.sites, e.2 < 672) ∧ (∀ d ∈ s.groupOf (clusterOf 0), d < 24) ∧
    (let q := putEff [(R.CL.JOB.ACTIVE, 0, 1)] { core0 {} with jobs := [(0, some j1)], sec := { blaze := { roles := [(0, 0)], sites := [(0, 3)] } } };
      q.siteJob 0 = some (0, j1, 0) ∧ (q.core 0).dead = false ∧ q.siteState 0 = 3 ∧ (q.cluster (clusterOf 0)).march = none ∧ q.liveSites (q.groupOf (clusterOf 0)) = []) ∧
    (let q := putEff [(R.CL.JOB.ACTIVE, 0, 1)] { ((on [0, 5, 24]).setCore 0 { dead := true }) with jobs := [(0, some j1)], sec := { blaze := { roles := [(0, 0), (5, 1)], sites := [(0, 2)] ++ ((List.range 27).map fun i => (i + 1, 0)) ++ (List.range 28).map fun i => (i + 140, 0) } } };
      q.rowSpare 0 = none ∧ q.freeStandby = some 5 ∧ j1.clusters.idxOf? (clusterOf 0) = some 0) := by
  (repeat' apply And.intro) <;> decide +kernel

theorem witness_LullSlices :
    let s := put [(R.CL.LULL_CTL.EN, 0, 1)] (mapped { on [0, 24] with clusters := [(0, { lullNext := 27 })] });
    s.getF R.CL.LULL_CTL.EN 0 ≠ 0 ∧ s.getF R.CL.LULL_STATUS.ACTIVE 0 ≠ 1 ∧ s.lullTurn 0 = some 27 ∧ (s.core 27).lull = none ∧ (∀ f ∈ [0, 1], Tab.get 0 (({ lullFail := [(27, f)] } : Cluster).lullFail) (27 % 28) = f) := by decide +kernel

/-- A report whose key is open and one whose key is new, with room for one more record and with none; a record 100 ms old; the last ring of the
reserved region. -/
theorem witness_ErrorAggregation :
    (let r : Report := { cls := 7, code := 8, dev := 0, unit := rootUnit, repo := rootUnit }
     let e : ErrRec := { rep := r, tier := 1 }
     let s := fun (es : List ErrRec) (k : Nat) => { on [25] with errs := { reports := [r], aggs := [(24, es)], early := List.replicate k e } };
      aggregatorOf r = 24 ∧ r.remote = false ∧ ((s [e] 0).aggOf 24).find? (sameKey r 1) = some e ∧
      ∀ k ∈ [63, 64], (s [] k).errs.reports = r :: [] ∧ ((s [] k).aggOf 24).find? (sameKey r 1) = none ∧ ((s [] k).aggOf 24).length < 256 ∧
        (s [] k).ringOn = false ∧ (s [] k).errs.early.length = k) ∧
    (let e : ErrRec := { rep := { cls := 7, code := 8, dev := 0, unit := 0, repo := 0 } }; let s := at_ 100000000 { on [25] with errs := { aggs := [(24, [e])] } };
      (s.aggOf 24)[0]? = some e ∧ s.ringOn = false ∧ e.rseq = none ∧ e.since + 100000000 ≤ s.now) ∧
    (let r : Report := { cls := 7, code := 8, dev := 0, unit := rootUnit, repo := rootUnit }
      let s := put [(R.ERR.RING_BASE.BASE, 24, (resBase + resSize - 2304 * 1024) / 4096)] { on [25] with errs := { reports := [r] } };
      s.errs.reports = r :: [] ∧ aggregatorOf r = 24 ∧ s.ringOn = true ∧ (s.getF R.ERR.RING_HEAD.RSEQ 24 + 2 ^ 32 - s.getF R.ERR.RING_TAIL.RSEQ 24) % 2 ^ 32 ≠ 4096) ∧
    (let r : Report := { cls := 4, code := 1, dev := 0, unit := wholeUnit 2 671, repo := wholeUnit 2 671 }; let e : ErrRec := { rep := r };
      aggregatorOf r = 23 ∧ (∀ l ∈ [[e], []], let s := { on [23] with errs := { reports := [r], aggs := [(23, l)] } }; s.errs.reports = r :: [] ∧
        (s.aggOf 23).find? (sameKey r 0) = l.head? ∧ (s.aggOf 23).length < 32)) ∧
    (∀ echo ∈ [0, 1], let e : ErrRec := { rep := { cls := 4, code := 1, dev := 0, unit := 0, repo := 0 }, echo := echo }; let s := at_ 100000000 { on [25] with errs := { aggs := [(23, [e])] } };
      (s.aggOf 23)[0]? = some e ∧ e.since + 100000000 ≤ s.now) ∧
    (let e : ErrRec := { rep := { cls := 4, code := 1, dev := 0, unit := 0, repo := 0 }, rseq := some 7 }; let s := at_ 100000000 { on [25] with errs := { aggs := [(24, [e])], early := [e] } };
      (s.aggOf 24)[0]? = some e ∧ e.since + 100000000 ≤ s.now ∧ e.rseq = some 7 ∧ ∃ x ∈ s.errs.early, x.rseq = some 7) ∧
    (s0.isRoot = true ∧ (plane 5 {}).isRoot = false ∧ s0.regionOn (clusterOf 0) = true) ∧
    ((led (on [25])).active.isSome = true ∧ (on [25]).hosted 9 24 = true ∧ ringOk ((resBase + resSize - 2304 * 1024) / 4096) = true ∧ resBase + resSize - 2304 * 1024 < 2 ^ 52) := by decide +kernel

/-! ### Witnesses: clocks, power, control, boot, service and the module -/

/-- A region on its source, and on another; no live source; a region about to take its time; steps of DEV_TIME refused and accepted; a rate word
due and not; a Sync; a bound of 40,001 ns; Sync lost for 1 s. -/
theorem witness_ClockCommands :
    (let s := on [24, 23]; let live : BitVec 38 := 1 * 2 ^ 29 + 2 ^ 36 + 2 ^ 22;
      s.regionOn 23 = true ∧ (refSources 23).find? (fun k => liveSource live.toNat k && s.sourceOn k) = none ∧
      (refSources 24).find? (fun k => liveSource live.toNat k && s.sourceOn k) = some 0x3E ∧ s.getF R.RGN.REF.SRC 24 ≠ 0x3E ∧
      (put [(R.RGN.REF.SRC, 24, 0x3E)] s).getF R.RGN.REF.SRC 24 = 0x3E ∧ s.getF R.RGN.REF.TREE 24 = 0 ∧ s.regionOn 24 = true ∧
      (refSources 24).any (fun k => liveSource live.toNat k && s.sourceOn k) = true ∧ (refSources 23).any (fun k => liveSource live.toNat k && s.sourceOn k) = false) ∧
    (let s := put [(R.RGN.POWER_CTL.STATE, 0, 3)] (on [24]); 0 < 30 ∧ s.module_.v36 = true ∧ s.getF R.RGN.POWER_CTL.STATE 0 = 3 ∧ (refSources 0).find? s.sourceOn = some 24) ∧
    (let s := led (at_ 5 (on [])); s.active.isSome = true ∧ s.ctl.stepped = false ∧ s.ctl.everOn = false ∧ 4 < s.now ∧ s.allJobs = [] ∧ s.joined = false ∧ s.now ≤ 5 ∧ s.synced = false ∧ (∀ r, r < 30 → s.getF R.RGN.POWER_CTL.STATE r = 0) ∧
      (kern s).allJobs ≠ [] ∧ (put [(R.LCH.FABRIC_ID.JOINED, 0, 1)] s).joined = true) ∧
    (let s := at_ 5 { on [] with ctl := { rateAt := 5 } }; s.module_.v36 = true ∧ s.ctl.rateAt ≠ 0 ∧ s.ctl.rateAt ≤ s.now ∧
      (at_ 4 { on [] with ctl := { rateAt := 5 } }).now < 5) ∧
    (let s := on [25]; (s.modCc 1 fun c => { c with running := true } : State).cc 1 = { running := true } ∧ 40000 < 40001 ∧ s.module_.v36 = true ∧ s.hosted 10 0 = true ∧
      s.active ≠ some 1 ∧ (led s).active = some 0 ∧ (put [(R.SEC.BOOT_STATUS.SYNCED, 0, 1)] s).synced = true ∧ s.synced = false ∧
      (put [(R.ROOT.PTP_STATUS.PORT, 0, 1)] s).getF R.ROOT.PTP_STATUS.PORT 0 = (1 : Fin 2).val ∧ s.getF R.ROOT.PTP_STATUS.PORT 0 = (0 : Fin 2).val) ∧
    (let s := put [(mgmtSeen 0, 0, 1)] (at_ 1000000000 (on [])); s.module_.v36 = true ∧ s.getF R.ROOT.PTP_STATUS.PORT 0 = (0 : Fin 2).val ∧ s.getF (mgmtSeen 0) 0 ≠ 0 ∧
      Tab.get 0 s.ctl.syncAt 0 + 1000000000 ≤ s.now) := by decide +kernel

/-- A front from one point to another at T_F = 100 µs. -/
def front (now cur targ : Nat) (ramp : Bool) : State :=
  put [(R.RGN.FRONT_CTL.PENDING, 0, 1), (R.RGN.FRONT_TIME.T_F, 0, 100000), (R.RGN.FRONT_CTL.CURRENT, 0, cur), (R.RGN.OP_STATUS.OP, 29, cur)] <|
    at_ now { on [29] with ctl := { front := targ, ramp := ramp } }

/-- R336: from point 4 to point 1 the voltage rises by 170 mV, so the ramp starts 13.5 µs before T_F. -/
theorem witness_FrontCommands :
    (let v : BitVec 32 := 8 + 4; flag v.toNat 3 = true ∧ flag v.toNat 4 = false ∧ bits v.toNat 2 0 = 4 ∧ bits (8 + 5 : BitVec 32).toNat 2 0 = 5 ∧ flag (16 + 8 : BitVec 32).toNat 4 = true) ∧ (led (on [])).active.isSome = true ∧
    (front 0 4 1 false).frontPending = true ∧
    (let s := put [(R.RGN.FRONT_TIME.T_F, 0, 100000)] (on []); s.frontPending = false ∧ s.now + 100000 ≤ s.getF R.RGN.FRONT_TIME.T_F 0 ∧
      (at_ 1 s).getF R.RGN.FRONT_TIME.T_F 0 < (at_ 1 s).now + 100000 ∧ (∀ r, r < 30 → s.getF R.RGN.POWER_CTL.STATE r = 0 ∨ 4 ≤ s.getF R.RGN.POWER_CTL.STATE r) ∧
      (put [(R.RGN.POWER_CTL.STATE, 29, 3)] s).getF R.RGN.POWER_CTL.STATE 29 = 3) ∧
    (let s := front 101000 4 4 false; s.frontPending = true ∧ opVolt s.ctl.front - opVolt (s.getF R.RGN.FRONT_CTL.CURRENT 0) = 0 ∧ s.getF R.RGN.FRONT_TIME.T_F 0 + 1000 ≤ s.now ∧
      (∀ r ∈ s.onRegions, s.getF R.RGN.OP_STATUS.OP r = s.ctl.front) ∧ s.ctl.front < 8) ∧
    (∀ v ∈ [(86499, true), (86500, false)], let s := front v.1 4 1 false; let tf := s.getF R.RGN.FRONT_TIME.T_F 0
      let up := opVolt s.ctl.front - opVolt (s.getF R.RGN.FRONT_CTL.CURRENT 0); let start := if up = 0 then tf + 1000 else tf - (50 * up + 5000);
      s.frontPending = true ∧ start = 86500 ∧ up = 170 ∧ s.ctl.ramp = false ∧ decide (s.now < start) = v.2 ∧ s.now < tf ∧ s.regionOn 29 = true ∧ s.ctl.front < 8) ∧
    (let s := front 100000 1 4 false; opVolt s.ctl.front - opVolt (s.getF R.RGN.FRONT_CTL.CURRENT 0) = 0 ∧ (∃ r ∈ s.onRegions, s.getF R.RGN.OP_STATUS.OP r ≠ s.ctl.front) ∧
      s.getF R.RGN.FRONT_TIME.T_F 0 ≤ s.now ∧ s.regionOn 29 = true) ∧
    (let s := front 100000 4 1 true; s.ctl.ramp = true ∧ s.getF R.RGN.FRONT_TIME.T_F 0 ≤ s.now ∧ s.regionOn 29 = true ∧
      (∀ q ∈ s.onRegions, q ≠ 29 → s.getF R.RGN.OP_STATUS.OP q = s.ctl.front)) := by decide +kernel

/-- A droop of 36 mV and of 35 mV; a slope over, at and under the threshold; readings at the ends of their range. -/
theorem witness_PaceCommands :
    (on []).regionOn 23 = false ∧ (let s := put [(R.RGN.OP_STATUS.VTARGET, 23, 720)] (on [23]); let past := (s.region 23).stretch; let vt := s.getF R.RGN.OP_STATUS.VTARGET 23
      s.regionOn 23 = true ∧ vt ≤ 685 + 35 ∧ ¬ (vt ≤ 684 + 35 ∨ (∃ i ∈ List.range 3, past[i]? = some true) ∨ 12 ≤ (past.take 95).countP id)) ∧
    (let s := at_ 1000 (on [23]); let th := max 1 (s.getF R.RGN.SQUALL.THRESH 23);
      th < 2001 ∧ 2000 ≤ th ∧ 1999 < th ∧ (s.modRegion 23 fun x => { x with lowSince := some 0 } : State).region 23 = { lowSince := some 0 } ∧ 0 + 1000 ≤ s.now ∧
      s.getF R.RGN.PACE.SQUALL 23 < 16) ∧
    (let s := (on [23]).modRegion 23 fun x => { x with lowSince := some 0 }; (s.region 23).lowSince = some 0 ∧ s.now < 0 + 1000 ∧ ((on [23]).region 23).lowSince = none) ∧
    ((23 : Fin 24).val = (23 : Fin 30).val ∧ (on [23]).getF R.RGN.PACE.CURRENT 23 < 16 ∧ (on [23]).getF R.RGN.PACE.THERMAL 23 < 16) ∧
    (let l : List Int := [-2 ^ 15, 2 ^ 15 - 1]; l ≠ [] ∧ l.length ≤ sensorsOf 23 ∧ (∀ x ∈ l, -2 ^ 15 ≤ x ∧ x < 2 ^ 15) ∧ ((on [23]).region 23).calib = none) := by
  decide +kernel

/-- A region off for 100 ms; a request granted, blocked by power and by a front; a recheck 10 µs and 1 ms after it; the end of a ramp; a region
that is ready; a hot region with and without a job. -/
theorem witness_SwitchOnCommands :
    (let s := led (at_ 100000000 ((on [24]).modRegion 0 fun x => { x with offAt := some 0 }));
      s.active.isSome = true ∧ s.mayAsk 0 = true ∧ (at_ 99999999 s).mayAsk 0 = false ∧
      s.frontPending = false ∧ s.module_.power + 150 ≤ s.governor ∧ (∀ n ∈ neighbours 0, s.blocks n = false) ∧
      ¬ ({ s with module_ := { s.module_ with power := 13851 } } : State).module_.power + 150 ≤ s.governor) ∧
    (∀ v ∈ [(9999, 0), (10000, 0), (10000, 15), (1000000, 15)], let s := put [(R.RGN.POWER_CTL.DEFERS, 0, 1), (R.RGN.PACE.SQUALL, 24, v.2)] <|
        (at_ v.1 ((on [24]).modRegion 0 fun x => { x with ask := some 0 }));
      (s.region 0).ask = some 0 ∧ s.getF R.RGN.POWER_CTL.DEFERS 0 < 255 ∧ decide (0 + 10000 * s.getF R.RGN.POWER_CTL.DEFERS 0 ≤ s.now) = decide (v.1 ≠ 9999) ∧
      s.mayGrant 0 = (v.2 == 0) ∧ (s.region 0).late = false ∧ s.getF R.RGN.PACE.ADMIT 24 < 16) ∧
    (let s := put [(R.RGN.POWER_CTL.STATE, 0, 2)] (at_ 50000 ((on [24]).modRegion 0 fun x => { x with rampEnd := some 50000 }));
      (s.region 0).rampEnd = some 50000 ∧ s.getF R.RGN.POWER_CTL.STATE 0 = 2 ∧ 50000 ≤ s.now) ∧
    (let s := put [(R.RGN.POWER_CTL.STATE, 0, 3)] ((on [24]).modRegion 0 fun x => { x with timeSet := true });
      s.getF R.RGN.POWER_CTL.STATE 0 = 3 ∧ (s.region 0).timeSet = true ∧ (s.region 0).paced = [] ∧ s.getF R.RGN.FRONT_CTL.CURRENT 0 ≤ 4) ∧
    (let s := at_ 1000000 ((on [0]).modRegion 0 fun x => { x with hotSince := some 0 }); let q := { s with sec := { blaze := { roles := [(0, 0)] } } }
     let b := { s with sec := { blaze := { roles := [(0, 0), (1, 1)], sites := (List.range 28).map fun k => (28 + k, 0) } } };
      s.getF R.RGN.POWER_CTL.STATE 0 = 4 ∧ s.regionOn 0 = true ∧ s.tooHot 0 = true ∧ (on [0]).tooHot 0 = false ∧ s.jobOf 0 = none ∧ s.role 0 ≠ 0 ∧
      (putEff [(R.CL.JOB.ACTIVE, 0, 1)] s).jobOf 0 ≠ none ∧ (putEff [(R.CL.JOB.ACTIVE, 0, 1)] s).freeStandby = none ∧
      q.role 0 = 0 ∧ q.freeStandby = none ∧ (put [(R.RGN.POWER_CTL.STATE, 1, 4)] b).freeStandby = some 1 ∧ b.role 0 = 0 ∧ b.jobOf 0 = none) ∧
    (∀ live ∈ [true, false], let s := putEff [(R.CL.JOB.ACTIVE, 0, 1)] (at_ 1000000 (((if live then kern else id) (on [0, 1])).modRegion 0 fun x => { x with hotSince := some 0 }))
     let s := { s with sec := { blaze := { roles := [(1, 1)], sites := (List.range 28).map fun k => (28 + k, 0) } }, jobs := [(0, some j0)] };
      s.tooHot 0 = true ∧ s.regionOn 0 = true ∧ s.jobOf 0 = some 0 ∧ s.job 0 = some j0 ∧ s.freeStandby = some 1 ∧ j0.clusters.idxOf? 0 = some 0 ∧
      (live = true → s.atCommit (s.groupOf 0) = false) ∧ (live = false → s.liveSites (s.groupOf 0) = [])) := by
  refine ⟨?_, ?_, ?_, ?_, ?_, ?_⟩ <;> decide +kernel

/-- Below and at the trip; phases that leave enough, too few and less than the least; converters; governor, trips, restart and telemetry. -/
theorem witness_PowerLossCommands :
    (∀ r ∈ [0, 24, 30], let s := on [0, 24, 30]; s.module_.tripped = none ∧ s.powered r = true ∧ s.temp r < 16 * (s.tripC : Int) ∧
      16 * ((put [(R.RGN.THERM.TEMP, r, 16 * 105)] s).tripC : Int) ≤ (put [(R.RGN.THERM.TEMP, r, 16 * 105)] s).temp r) ∧
    (∀ n ∈ [3, 4, 23, 24], let s := (on [23]).modRegion 23 fun x => { x with phases := List.range n }
      47 < 48 ∧ 47 ∉ (s.region 23).phases ∧ s.powered 23 = true ∧ 0 ∈ (s.region 23).phases ∧
      (n = 3 → 44 ≤ 48 - ((s.region 23).phases.length + 1)) ∧ (n = 4 → 48 - ((s.region 23).phases.length + 1) < 44) ∧
      (n = 23 → 24 ≤ 48 - ((s.region 23).phases.length + 1)) ∧ (n = 24 → 48 - ((s.region 23).phases.length + 1) < 24)) ∧
    (let s := { on [] with module_ := { (on []).module_ with convBad := [0, 1, 2, 3] } }; 0 ∈ s.module_.convBad ∧ 71 ∉ s.module_.convBad ∧
      s.module_.convBad.length < 72 ∧ 4 ≤ s.module_.convBad.length) ∧
    (∀ r, r < 24 → (on []).getF R.RGN.PACE.MODULE r < 16) ∧
    (let s := at_ 1000000 { on [] with module_ := { v36 := true, govUp := some 900000, govLow := some 0 } }; s.governor < 14001 ∧ ¬ s.governor < 13499 ∧ 900000 + 100000 ≤ s.now ∧
      0 + 1000000 ≤ s.now ∧ s.module_.govSince = false) ∧
    ((on []).module_.tripped = none ∧ (on []).powerTrip < 14501 ∧ 14500 ≤ min 14500 ((on []).getF R.ROOT.POWER_TRIP.WATTS 0)) ∧
    (let s := at_ 1000000000 { on [] with module_ := { v36 := true, tripped := some 0 } }; s.module_.tripped = some 0 ∧ 0 + 1000000000 ≤ s.now ∧ (at_ 999999999 s).now < 0 + 1000000000 ∧ s.module_.inputAt = none ∧
      (let q := { s with module_ := { s.module_ with inputAt := some 900000001 } }; q.module_.inputAt = some 900000001 ∧ q.now < 900000001 + 100000000)) ∧
    (let l := [(0, 0), (65535, 4095)]; (on []).module_.nextPower ≤ (on []).now ∧ l.length ≤ 66 ∧ l[1]? = some (65535, 4095)) := by
  (repeat' apply And.intro) <;> decide +kernel

/-- Control chiplet 0 with the lease, 1 standing by, both running. -/
def ruled (s : State) : State := ((led s).modCc 0 fun c => { c with running := true }).modCc 1 fun c => { c with running := true }

/-- A claim that is granted and one that is not; an expired lease; a journalled operation without its acknowledgement; seal, expert level and
management ports. -/
theorem witness_ControlPairCommands :
    (let s := ruled (on []); s.module_.v36 = true ∧ (s.cc 0).failed = false ∧ (s.cc 1).failed = false ∧ s.ctl.powered ≠ [] ∧
      (∀ p ∈ s.ctl.powered, s.leaseOf p = some ⟨0, 400000, false⟩) ∧ s.active = some 0 ∧ s.active ≠ some 1 ∧ s.active ≠ none ∧ s.activeCc = 0 ∧
      (s.ctl.leases.filter fun e => e.2.holder == s.activeCc) ≠ [] ∧ s.journal = [] ∧ (on []).active = none) ∧
    (let s := at_ 400000 { ruled (on []) with jobs := [(0, some j0)], ctl := { (ruled (on [])).ctl with journal := [⟨.admission, 0, 0⟩] } };
      s.journal = [⟨.admission, 0, 0⟩] ∧ s.job 0 = some j0 ∧ (∀ w ∈ j0.windows, (s.window w).st = 0) ∧ s.activeCc = 0 ∧ (∀ p ∈ s.ctl.powered, s.leaseOf p = none)) ∧
    (let s := at_ 400000 (ruled (on [])); s.activeCc = 0 ∧ (∀ p ∈ s.ctl.powered, s.leaseOf p = none) ∧ s.ctl.powered ≠ [] ∧ (s.cc 1).running = true ∧
      (s.cc 1).failed = false) ∧
    (let s := at_ 1000000 { ruled (on []) with ctl := { unacked := some 0 } }; s.ctl.unacked = some 0 ∧ 0 + 1000000 ≤ s.now ∧ (at_ 999999 s).now < 0 + 1000000) ∧
    ((on []).getF R.ROOT.SEAL.SEALED 0 = 0 ∧ (on []).getF R.ROOT.EXPERT_CTL.EN 0 = 0 ∧ (on []).getF R.ROOT.EXPERT_CTL.LICENSED 0 = 0 ∧
      (put [(R.ROOT.EXPERT_CTL.LICENSED, 0, 1)] (on [])).getF R.ROOT.EXPERT_CTL.LICENSED 0 = 1 ∧ (1 : BitVec 32).getLsbD 0 = true ∧ (0 : BitVec 32).getLsbD 0 = false ∧
      (put [(R.ROOT.EXPERT_CTL.EN, 0, 1)] (on [])).getF R.ROOT.EXPERT_CTL.EN 0 = 1) ∧
    (let s := ruled (on []); s.mgmtBacklog 0 + 80 * 2 ^ 20 ≤ 80 * 2 ^ 20 ∧ 80 * 2 ^ 20 < s.mgmtBacklog 0 + 80 * (2 ^ 20 + 1) ∧ Tab.get 0 s.ctl.mgmtDrop 0 = 0 ∧
      s.getF (mgmtUp 0) 0 = 0 ∧ (put [(mgmtUp 1, 0, 1)] s).getF (mgmtUp 1) 0 = 1) := by decide +kernel

theorem witness_RegisterAccess :
    (let s := ruled (on []); s.module_.v36 = true ∧ s.active = some 0 ∧ ctlBase - 1 < ctlBase ∧ ctlBase + 0x10000000 ≤ ctlBase + 0x10000000 ∧ (ctlBase + 4) % 8 ≠ 0 ∧
      671 < 672 ∧ s.hosted 2 671 = false ∧ 0xFFC % 4 = 0 ∧ 0xFFC < 0x1000 ∧ s.getF (R.PAGE_EVENT.EVENT 8) 35 < 2 ^ 32 ∧ s.getF R.ROOT.EXPERT_CTL.EN 0 = 0 ∧
      (put [(R.ROOT.EXPERT_CTL.EN, 0, 1)] s).getF R.ROOT.EXPERT_CTL.EN 0 = 1 ∧ (put [(R.ROOT.SEAL.SEALED, 0, 1)] s).getF R.ROOT.SEAL.SEALED 0 = 1) ∧
    ((on []).module_.v36 = true ∧ (on []).active ≠ some 0 ∧ ctlBase ≤ ctlBase + 0xFFFFFF8 ∧ ctlBase + 0xFFFFFF8 < ctlBase + 0x10000000 ∧ (ctlBase + 0xFFFFFF8) % 8 = 0 ∧
      ctlBase + 0xFFFFFF8 ≠ ctlBase + 0x24 ∧ ctlBase + 0xFFFFFF8 ≠ ctlBase + 0x20) := by decide +kernel

/-- FIPS 202: SHA3-512 of the empty message begins A6 9F 73 CC; that of one zero byte differs. -/
theorem test_sha3 : (sha3_512 []).take 4 = [0xA6, 0x9F, 0x73, 0xCC] ∧ (sha3_512 []).length = 64 ∧ sha3_512 [] ≠ sha3_512 [0] := by decide +kernel

/-- Whatever digest is fused, one of two root keys is not its own. -/
theorem witness_BootCommands_root (c : Fin 2) : ∃ k : List Byte, sha3_512 k ≠ Config.rootDigest c := by
  by_cases h : sha3_512 [] = Config.rootDigest c
  · exact ⟨[0], fun e => test_sha3.2.2 (h.trans e.symm)⟩
  · exact ⟨[], h⟩

/-- 36 V absent and present, MOD_RST_N low, JTAG_EN; a waiting ROM; the end of the wait for Sync; a re-base; the power-up of stage 2. -/
theorem witness_BootCommands :
    ((on []).module_.v36 = true ∧ ({ module_ := { rstN := false } } : State).module_.rstN = false ∧ State.reset.module_.v36 = false ∧ State.reset.module_.rstN = true ∧
      State.reset.module_.jtagEn = false ∧ ({ module_ := { jtagEn := true } } : State).module_.jtagEn = true) ∧
    ((ruled (on [])).cc 1 = { running := true } ∧ ((on []).cc 1).running = false ∧ ((on []).modCc 1 fun c => { c with waiting := true } : State).cc 1 = { waiting := true }) ∧
    (let s := at_ 5 (ruled (on [])); let w := s.modCc 0 fun c => { c with waitUntil := 5 };
      (s.cc s.activeCc).running = true ∧ s.ptpSeen = false ∧ (w.cc w.activeCc).waitUntil ≠ 0 ∧ (w.cc w.activeCc).waitUntil ≤ w.now ∧ (w.cc w.activeCc).running = true ∧
      (at_ 4 w).now < (w.cc w.activeCc).waitUntil ∧ (put [(mgmtSeen 0, 0, 1)] s).ptpSeen = true ∧ s.synced = false ∧ (kern s).allJobs ≠ [] ∧ s.allJobs = [] ∧
      s.joined = false ∧ s.now ≤ 5) ∧
    (let s := put [(R.SEC.BOOT_STATUS.STAGE, 0, 2)] (ruled (on [])); s.module_.tripped = none ∧ s.getF R.SEC.BOOT_STATUS.STAGE 0 = 2 ∧ (s.cc s.activeCc).waitUntil = 0 ∧
      s.getF R.RGN.POWER_CTL.STATE 35 = 0 ∧ s.bankOk 35 = true ∧ s.mayGrant 0 = true ∧ (put [(R.RGN.FRONT_CTL.PENDING, 0, 1)] s).mayGrant 0 = false) := by decide +kernel

theorem witness_CruiseAndFirmware :
    (let s := put [(R.SEC.BOOT_STATUS.STAGE, 0, 4)] (on []); s.module_.v36 = true ∧ s.getF R.SEC.BOOT_STATUS.STAGE 0 = 4 ∧ fatalUnit (wholeUnit 3 23) = true ∧ s.synced = false) ∧
    (let s := ruled (on []); (s.cc s.activeCc).running = true ∧ s.sec.blaze.dirty = false ∧
      ({ s with sec := { blaze := { dirty := true } } } : State).sec.blaze.dirty = true) ∧
    (put [(R.SEC.BOOT_STATUS.STAGE, 0, 5)] (on [])).getF R.SEC.BOOT_STATUS.STAGE 0 = 5 := by decide +kernel

/-- A report at the end of the reserved region and 8 bytes further; the first, the last and no measurement register; an empty object; a licence
past its time. What an object that verifies or carries a chiplet's own key holds is Config's. -/
theorem witness_SecurityCommands :
    (let s := put [(R.SEC.CMD_ADDR.ADDR, 0, resBase + resSize - 5624)] (ruled (on [])); let a := s.getF R.SEC.CMD_ADDR.ADDR 0;
      s.engine = true ∧ a % 8 = 0 ∧ resBase ≤ a ∧ a + 5619 ≤ resBase + resSize ∧ resBase + resSize < a + 8 + 5619) ∧
    (∀ i ∈ [0, 7, 8], let s := put [(R.SEC.CMD.INDEX, 0, i)] (ruled (on [])); s.engine = true ∧ s.getF R.SEC.CMD.INDEX 0 = i ∧ (s.cc s.activeCc).started = false) ∧
    fieldAt (ruled (on [])).cmdObject 0 4 ≠ 0x4F53574E ∧
    (let l : Licence := ⟨6, 0, 7, 4, []⟩; let s := at_ 5 { ruled (on []) with sec := { lics := [l] } }; s.engine = true ∧ l ∈ s.sec.lics ∧ l.id = (7 : BitVec 64).toNat ∧
      l.after < s.now ∧ (at_ 4 s).now ≤ l.after) := by decide +kernel

/-- Each operation may begin, or stands between its two commands. -/
def serve (part index : Nat) (s : State) : State := put [(R.SEC.SERVICE.PART, 0, part), (R.SEC.SERVICE.INDEX, 0, index)] s

theorem witness_ServiceCommands :
    (let s := ruled (on [23]); s.mayServe 2 23 = true ∧ s.regionOn 23 = true ∧ (serve 3 0 s).mayServe 2 23 = false ∧ s.jobOf 23 = none ∧ s.standbys.length < 2 ∧
      (∀ live ∈ [true, false], let q := putEff [(R.CL.JOB.ACTIVE, 0, 1)] { (if live then kern else id) (ruled (on [0, 1, 2])) with jobs := [(0, some j0)], sec := { blaze := { roles := [(0, 0), (1, 1), (2, 1)], sites := (List.range 56).map fun k => (28 + k, 0) } } }
        q.mayServe 2 0 = true ∧ q.regionOn 0 = true ∧ q.jobOf 0 = some 0 ∧ q.job 0 = some j0 ∧ q.standbys = [1, 2] ∧ j0.clusters.idxOf? 0 = some 0 ∧
        (live = true → q.atCommit (q.groupOf 0) = false) ∧ (live = false → q.liveSites (q.groupOf 0) = []))) ∧
    (let s := ruled (on []); s.active = some 0 ∧ s.mayServe 1 1 = true ∧ (s.cc 1).running = true ∧ (on []).active = none) ∧
    (let s := ruled (onLch (on [])); s.mayServe 3 9 = true ∧ s.hosted 5 9 = true ∧ s.serving 3 = false ∧ (s.modPort 39 fun q => { q with waiting := [{ vc := 0, slot := none }] }).chipDrained 9 = false ∧
      (serve 3 9 s).serving 3 = true ∧ (serve 3 9 s).mayServe 3 9 = true ∧ s.chipDrained 9 = true) ∧
    (let s := ruled trained; let used := s.getF R.LPT.TRAIN_STATUS.LANES 39;
      s.mayServe 4 39 = true ∧ s.portUp 39 = true ∧ used < 512 ∧ (s.port 39).calib = none ∧ s.getF R.LPT.TRAIN_STATUS.WIDTH 39 = 3 ∧ flag used 7 = true ∧
      (maskList 9 (s.port 39).good).find? (fun i => !flag used i) = some 8) ∧
    (let s := put [(R.LPT.TRAIN_STATUS.LANES, 39, 256 + 127)] ((serve 4 39 (ruled trained)).modPort 39 fun q => { q with calib := some (7 + 16 * 8) })
     let used := s.getF R.LPT.TRAIN_STATUS.LANES 39;
      s.mayServe 4 39 = true ∧ s.portUp 39 = true ∧ used < 512 ∧ (s.port 39).calib = some (7 + 16 * 8) ∧ flag used 8 = true ∧ flag used 7 = false) ∧
    (let s := ruled (on []); s.mayServe 5 1 = true ∧ s.t2InUse 1 = false ∧ s.serving 5 = false ∧ (serve 3 0 s).mayServe 5 1 = false ∧
      (let u := { s with ctl := { s.ctl with powered := [0, 1] } }; u.ctl.powered = [0, 1] ∧ u.mayServe 5 1 = true) ∧ (serve 5 1 s).serving 5 = true ∧
      (serve 5 1 s).mayServe 5 1 = true) ∧
    (let s := on []; s.module_.v36 = true ∧ 7 < sensorsOf 23 ∧ (s.region 23).calib = none ∧ (s.modRegion 23 fun x => { x with calib := some 7 } : State).region 23 = { calib := some 7 } ∧
      s.getF R.SEC.SERVICE.PART 0 = 0 ∧ (serve 6 23 s).getF R.SEC.SERVICE.PART 0 = 6) := by
  (repeat' apply And.intro) <;> decide +kernel

theorem witness_ModuleInterface :
    ((on []).module_.v36 = true ∧ State.reset.module_.v36 = false ∧ State.reset.module_.rstN = true ∧
      ({ module_ := { rstN := false } } : State).module_.rstN = false ∧ ({ module_ := { v36 := true, jtagEn := true } } : State).module_.jtagEn = true) ∧
    ((at_ 52000000 (on [])).smbusUp = true ∧ (at_ 51999999 (on [])).smbusUp = false) ∧
    (35 < 36 ∧ 0xFFC % 4 = 0 ∧ 0xFFC < 0x1000 ∧ (on []).module_.alerts < 65536) := by decide +kernel

theorem witness_StepKeepsCanonicalMemory : (on []).canonical ∧ step (on []) = .next { on [] with time := 10 * 2 ^ 32 } :=
  ⟨rfl, rfl⟩

theorem witness_StepKeepsTrust : step (on []) = .next { on [] with time := 10 * 2 ^ 32 } ∧ (on []).floorsFit := by
  refine ⟨rfl, fun cc t => ?_⟩
  have := (Config.svnFloor cc t).isLt
  simp [State.svnFloor, on, Tab.get]; omega

theorem witness_StepKeepsSealAndTime : (on []).module_.v36 = true ∧ step (on []) = .next { on [] with time := 10 * 2 ^ 32 } ∧
    (put [(R.ROOT.SEAL.SEALED, 0, 1)] (on [])).getF R.ROOT.SEAL.SEALED 0 = 1 := ⟨rfl, rfl, by decide +kernel⟩

/-! ### Worked examples of the spec -/

/-- The row of 32 FP32 values of the worked example of 02_narrow_formats.md. -/
def row32 : List Byte := [0x41500000, 0xC0280000, 0x3EC00000, 0x40C00000].flatMap (natLE 4) ++ List.replicate 112 0

/-- 02_narrow_formats.md, worked example: QNT of the block to E2M1 in RNE and in SR gives its element bytes and scale. -/
theorem test_qnt : ∀ v ∈ [(0, [0x95, 0x30, 0]), (2, [0x96, 0x30, 0])],
    let w := iw 0x80 [(88, 0x40000), (64, 0x50000), (40, 0x60000), (36, 4), (34, v.1), (6, 2)];
    (match coreQnt w ((core0 (c0.wrLm 0x40000 row32)).runAt 0) with
      | .ok y => (y.c.rdLm 0x50000 3, y.c.rdLm 0x60000 1) | _ => ([], [])) = (v.2, [0x81]) := by decide +kernel

/-- R25: trits (+1, −1, 0, 0, +1) are byte 0x58 (digit 2 is −1). -/
theorem test_trits : packTern ([1, 2, 0, 0, 1] ++ List.replicate 27 0) = [0x58, 0, 0, 0, 0, 0, 0] := by decide +kernel

/-- 03_exact_accumulation.md, worked example: two block sums, the exact partial on the wire, its residue. -/
theorem test_partial : let a := (Acc.zero.addAt 19 297).addAt (-70) 302
    a.toPartial = [0xF4, 0xFF, 0x01, 0x02, 0, 0, 0, 0, 0x00, 0xA6, 0xEE, 0xFF] ∧ a.res = 2794 ∧ a.mismatch = false := by decide +kernel

/-- R70: the example of a decode projection of four passes of one row takes 818 cycles. -/
theorem test_product_cycles : productCycles 4 1 1 = 818 := by decide

/-- 07_sparsity_forecast.md: SMLD of 3, 7, 7, 70, 12, 0xFFFF. -/
theorem test_smld : matchLoad 64 [3, 7, 7, 70, 12, 0xFFFF] = ⟨[(3, 0), (7, 1), (12, 4)], 1, 1, 0⟩ := by decide

/-- 07_sparsity_forecast.md: the forecast up-projection's row takes the bitmap, and these header words. -/
theorem test_pack_sizes : let h : THdr := { enc := 1, efmt := 4, act := true, sq := false, nblk := 1, npos := 256, npres := 51, base := 0, rows := 512, size := 446528, rsv := false }
    [h.sizeIn 0, h.sizeIn 1, h.sizeIn 2] = [2228256, 446528, 446608] ∧ h.choose = 1 ∧
    (List.range 4).map (fun i => leNat ((h.toBytes.drop (4 * i)).take 4)) = [0x01000141, 0x33, 0x1FF, 0x6D040] := by decide +kernel

/-- 09_memory.md, worked example: one spread address, its home view, and an HBM address. -/
theorem test_addresses : sliceOf 0x123456780 = 3 ∧ sliceLine 0x123456780 = 397682 ∧ s0.canon 0x4CC22E580 = 0x123456780 ∧
    hbmAt 0x0112_3456_7C40 = (7, 0x123456, 0xC40) ∧ pseudoChannel 0x123456 = 22 := by decide

/-- 10_placement_admission.md, worked example: routes of 8 and 2 links that share the link from cluster 2 to cluster 12; bound to cluster 13
instead they share none. -/
theorem test_routes : (meshPath 9 14 8).length = 8 ∧ (meshPath 3 12 8).length = 2 ∧
    ((routeLinks 9 14).filter fun l => (routeLinks 3 12).contains l) = [.hop 2 12] ∧
    ((routeLinks 9 14).filter fun l => (routeLinks 3 13).contains l) = [] := by decide

/-- 15_control_registers.md: CORE.ACC_STATUS of site 269. -/
theorem test_page : pageOf 0xF0090D180 = (2, 269, 0x180) := by decide

/-! ### One step of a command -/

/-- R97: SUB wraps, and the program counter wraps after its last address (the model's reading). -/
theorem test_alu_wraps : (match exec (.alu 0 (iw 0x11 [(107, 3), (102, 0), (97, 1), (93, 1)])) (core0 { c0 with pc := 16383 }) with
    | .next t => ((t.core 0).gn 3, (t.core 0).pc) | _ => (0, 1)) = (2 ^ 64 - 5, 0) := by decide +kernel

/-- R94, R97: ALU with a function code outside the table is an illegal instruction. -/
theorem test_alu_illegal : (match exec (.alu 0 (iw 0x11 [(93, 11)])) s0 with
    | .next t => ((t.core 0).st, t.getF R.CORE.SEQ_FAULT.KIND 0) | _ => (.idle, 0)) = (.stopped, 1) := by decide +kernel

/-- R331: a tick without a command is 10 ns. -/
theorem test_tick : (match step (on []) with | .next t => t.now | _ => 0) = 10 := by decide +kernel

/-- The rows of the table give no bits, so no word spells a command. -/
theorem test_no_bits : decodeTableWord 0 0 = none ∧ decodeTableWord 128 (2 ^ 127) = none := by decide

/-! ### Worked examples of rows -/

/-- 08_precision_safeguards.md, worked example: QNT with MON escalates block 0 of four. -/
theorem test_tagged : let c := ({ c0 with g := [(2, 0x000014003F800000)] }).wrLm 0x40000 (row32 ++ List.replicate 384 0)
    let w := iw 0x80 [(112, 1), (88, 0x40000), (64, 0x50000), (36, 9), (26, 3), (6, 2)];
    (match coreQnt w ((core0 c).runAt 0) with | .ok y => y.c.rdLm 0x50000 88 | _ => []) =
      [0x7D, 0xEA, 0x54, 0x74] ++ List.replicate 76 0 ++ [0x7A, 0, 0, 0, 1, 0, 0, 0] := by decide +kernel

/-- A score tile of 32 keys: 06_fused_chains.md, worked attention tile. -/
def scores (l : List (Nat × Rat)) : List Acc :=
  (List.range 32).map fun i => { a := ((((l.find? fun p => p.1 == i).map (·.2)).getD (-100)) * pow2 300).num, cnt := 1 }
/-- Its chain descriptor: PFMT E4M3, MASK 1, query 63 in G3, keys from G4, ANCHOR 6 where bound. -/
def chain (run : Nat) : Nat := blk [(0, 3), (20, run), (21, 1), (24, 13), (55, 3), (60, 4), (128, 0x9000), (145, 0x9001), (162, 0x50000), (186, 0x51000)]

/-- The P row of tile 0 and its row state in either anchor mode. -/
theorem test_score_row : ∀ v ∈ [(0, 0x75, List.replicate 8 0), (1, 0x78, [3, 0, 3, 0, 1, 0, 0, 0])],
    let x := ({ c := ({ c0 with g := [(3, 63)] }).wrLm 0x51000 [6, 0], ev := [], fr := 0 } : Run).scoreRow (chain v.1) 0 (scores [(0, 7 / 2), (1, 9 / 4)]) 1 1 0x60000 0;
    x.c.rdLm 0x60000 33 = [0x73, 0x6A] ++ List.replicate 30 0 ++ [v.2.1] ∧ x.c.rdLm 0x50000 8 = v.2.2 := by decide +kernel

/-- R141: 17/24 in both anchor modes. -/
theorem test_chain_value : (finValue false false { a := 17 * 2 ^ 295 } { a := 3 * 2 ^ 298 } 0x3F800000 0x3F800000).fp32 = 0x3F355555 ∧
    (finValue false false { a := 17 * 2 ^ 296 } { a := 3 * 2 ^ 299 } 0x3F800000 0x3F800000).fp32 = 0x3F355555 := by decide +kernel

end Sys2Proof.Tests
end

section
/-! Proofs. Local bytes and vector registers: what they read as after a write, and the four instructions that move
them between local space, a general register and a vector register (R84, R85, R96). -/

namespace Sys2Proof.Tab
variable {α : Type}

/-- A block read looks each key up in the table itself. -/
theorem read_eq (d : α) (t : Tab α) (a n : Nat) : read d t a n = (List.range n).map fun i => get d t (a + i) := by
  unfold read
  refine List.map_congr_left fun i hi => ?_
  have hin : (fun k => decide (a ≤ k) && decide (k < a + n)) (a + i) = true := by
    simpa using List.mem_range.1 hi
  exact get_filter_of d t (fun k => decide (a ≤ k) && decide (k < a + n)) (a + i) hin

theorem read_congr (d : α) (s t : Tab α) (a n : Nat) (h : ∀ i, i < n → get d s (a + i) = get d t (a + i)) :
    read d s a n = read d t a n := by
  simp only [read_eq]
  exact List.map_congr_left fun i hi => h i (List.mem_range.1 hi)

@[simp] theorem length_read (d : α) (t : Tab α) (a n : Nat) : (read d t a n).length = n := by
  simp [read_eq]

variable [DecidableEq α]

/-- A key outside the written block reads as before. -/
theorem get_write_outside (d : α) (t : Tab α) (a : Nat) (vs : List α) (k : Nat) (h : ¬ (a ≤ k ∧ k < a + vs.length)) :
    get d (write d t a vs) k = get d t k := by
  rw [get_write, if_neg h]

/-- A block reads back as it was written. -/
theorem read_write_same (d : α) (t : Tab α) (a n : Nat) (vs : List α) (h : vs.length = n) :
    read d (write d t a vs) a n = vs := by
  subst h
  rw [read_eq]
  refine List.ext_getElem (by simp) fun i h1 h2 => ?_
  simp [get_write, h2]

/-- A block that shares no key with the written one reads as before. -/
theorem read_write_disjoint (d : α) (t : Tab α) (a b n : Nat) (vs : List α) (h : b + n ≤ a ∨ a + vs.length ≤ b) :
    read d (write d t a vs) b n = read d t b n :=
  read_congr d _ _ _ _ fun i hi => get_write_outside d t a vs (b + i) (by omega)

end Sys2Proof.Tab

namespace Sys2Proof.Machine

@[simp] theorem length_natLE (n v : Nat) : (natLE n v).length = n := by
  induction n generalizing v with
  | zero => rfl
  | succ n ih => simp [natLE, ih]

/-- R2: n bytes hold a number modulo 256^n. -/
theorem leNat_natLE (n v : Nat) : leNat (natLE n v) = v % 256 ^ n := by
  induction n generalizing v with
  | zero => simp [natLE, leNat, Nat.mod_one]
  | succ n ih =>
    rw [natLE, leNat, ih, BitVec.toNat_ofNat, pow_succ' 256 n, Nat.mod_mul]

@[simp] theorem CoreSite.length_vreg (c : CoreSite) (r : Nat) : (c.vreg r).length = 512 := Tab.length_read _ _ _ _

@[simp] theorem CoreSite.length_rdLm (c : CoreSite) (a n : Nat) : (c.rdLm a n).length = n := Tab.length_read _ _ _ _

@[simp] theorem CoreSite.setG_pc (c : CoreSite) (d : Nat) (v : GWord) : (c.setG d v).pc = c.pc := by
  rw [CoreSite.setG_eq]

@[simp] theorem CoreSite.setG_fly (c : CoreSite) (d : Nat) (v : GWord) : (c.setG d v).fly = c.fly := by
  rw [CoreSite.setG_eq]

@[simp] theorem CoreSite.setG_drain (c : CoreSite) (d : Nat) (v : GWord) : (c.setG d v).drain = c.drain := by
  rw [CoreSite.setG_eq]

@[simp] theorem CoreSite.setG_st (c : CoreSite) (d : Nat) (v : GWord) : (c.setG d v).st = c.st := by
  rw [CoreSite.setG_eq]

/-- Local bytes read back as they were written. -/
theorem CoreSite.rdLm_wrLm_same (c : CoreSite) (a n : Nat) (bs : List Byte) (h : bs.length = n) :
    (c.wrLm a bs).rdLm a n = bs := Tab.read_write_same 0 c.lm a n bs h

/-- A write of 512 bytes to a vector register stores just them. -/
theorem CoreSite.setVreg_of_length (c : CoreSite) (r : Nat) (bs : List Byte) (h : bs.length = 512) :
    c.setVreg r bs = { c with v := Tab.write 0 c.v (512 * r) bs } := by
  unfold CoreSite.setVreg
  rw [List.take_of_length_le h.le, h]
  simp

theorem CoreSite.vreg_setVreg_same (c : CoreSite) (r : Nat) (bs : List Byte) (h : bs.length = 512) :
    (c.setVreg r bs).vreg r = bs := by
  rw [CoreSite.setVreg_of_length c r bs h]
  exact Tab.read_write_same 0 c.v (512 * r) 512 bs h

theorem CoreSite.vreg_setVreg_ne (c : CoreSite) (r q : Nat) (bs : List Byte) (h : bs.length = 512) (hq : q ≠ r) :
    (c.setVreg r bs).vreg q = c.vreg q := by
  rw [CoreSite.setVreg_of_length c r bs h]
  exact Tab.read_write_disjoint 0 c.v (512 * r) (512 * q) 512 bs (by omega)

/-! ### The instructions at an idle site -/

variable {s : State} {site : Fin 672} {w : IWord}

/-- LDG of an aligned address within one area (R96). -/
theorem exec_ldg_quiet (h : s.quiet site w 0x12) (ha : (s.core site).la (wf w 106 83) % 8 = 0)
    (hr : rdOk ((s.core site).la (wf w 106 83)) 8 = true) :
    exec (.ldg site w) s = .next (s.ran site { (s.core site).setG (wf w 111 107)
      (BitVec.ofNat 64 (leNat ((s.core site).rdLm ((s.core site).la (wf w 106 83)) 8))) with pc := nextPc (s.core site).pc }) := by
  refine congrArg Host.Outcome.next (issue_ran _ h.toready rfl ?_ ?_ ?_ ?_)
  · unfold seqLdg State.runAt
    simp only [ha, hr, decide_true, Bool.and_true, if_true]
    rw [Run.issueWith_idle _ _ _ _ h.idle h.engine (by simp)]
    simp [CoreSite.advance]
  · simpa using h.idle
  · simpa using h.drain
  · simpa using State.issuing_st h.issuing

/-- STG of an aligned address within one area but the instruction region (R96). -/
theorem exec_stg_quiet (h : s.quiet site w 0x13) (ha : (s.core site).la (wf w 106 83) % 8 = 0)
    (hr : wrOk ((s.core site).la (wf w 106 83)) 8 = true) :
    exec (.stg site w) s = .next (s.ran site { (s.core site).wrLm ((s.core site).la (wf w 106 83))
      (natLE 8 ((s.core site).gn (wf w 111 107))) with pc := nextPc (s.core site).pc }) := by
  refine congrArg Host.Outcome.next (issue_ran _ h.toready rfl ?_ h.idle h.drain (State.issuing_st h.issuing))
  unfold seqStg State.runAt
  simp only [ha, hr, decide_true, Bool.and_true, if_true]
  rw [Run.issueWith_idle _ _ _ _ h.idle h.engine (by simp)]
  rfl

/-- VLD of an aligned address within one area: the register holds its bytes, and the instruction stands in the vector
unit (R88, R96). -/
theorem exec_vld_quiet (h : s.quiet site w 0x75) (ha : (s.core site).la (wf w 105 82) % 16 = 0)
    (hr : rdOk ((s.core site).la (wf w 105 82)) 512 = true) :
    exec (.vld site w) s = .next (s.ran site { (s.core site).setVreg (wf w 111 106)
      ((s.core site).rdLm ((s.core site).la (wf w 105 82)) 512) with
        pc := nextPc (s.core site).pc
        fly := [{ unit := .vector, opc := 0x75, pc := (s.core site).pc, ctr := completion w,
                  rd := [⟨(s.core site).la (wf w 105 82), 512⟩], vd := some (wf w 111 106) }] }) := by
  refine congrArg Host.Outcome.next (issue_queued _ _ h.toready rfl ?_ rfl rfl (State.issuing_st h.issuing))
  unfold coreVld State.runAt
  simp only [ha, hr, decide_true, Bool.and_true, if_true]
  rw [Run.queue_idle _ _ _ h.idle h.engine (by simp)]
  simp [Run.setC, CoreSite.advance, CoreSite.setVreg, CoreSite.rdLm, h.idle]

/-- VST of an aligned address within one area but the instruction region: the bytes are the register's, and the
instruction stands in the vector unit (R88, R96). -/
theorem exec_vst_quiet (h : s.quiet site w 0x76) (ha : (s.core site).la (wf w 105 82) % 16 = 0)
    (hr : wrOk ((s.core site).la (wf w 105 82)) 512 = true) :
    exec (.vst site w) s = .next (s.ran site { (s.core site).wrLm ((s.core site).la (wf w 105 82))
      ((s.core site).vreg (wf w 111 106)) with
        pc := nextPc (s.core site).pc
        fly := [{ unit := .vector, opc := 0x76, pc := (s.core site).pc, ctr := completion w,
                  wr := [⟨(s.core site).la (wf w 105 82), 512⟩] }] }) := by
  refine congrArg Host.Outcome.next (issue_queued _ _ h.toready rfl ?_ rfl rfl (State.issuing_st h.issuing))
  unfold coreVst State.runAt
  simp only [ha, hr, decide_true, Bool.and_true, if_true]
  rw [Run.queue_idle _ _ _ h.idle h.engine (by simp)]
  simp [Run.setC, CoreSite.advance, CoreSite.wrLm, CoreSite.vreg, h.idle]

/-- Settles O6: each instruction's next state, then what the written register or bytes read as. -/
theorem localMemoryInstructions : Obligations.LocalMemoryInstructions := by
  unfold Obligations.LocalMemoryInstructions
  intro s site w c
  refine ⟨fun h => ?_, fun h => ?_, fun h => ?_, fun h => ?_⟩
  · exact exec_ldg_quiet h
  · intro a ha hr
    refine ⟨_, exec_stg_quiet h ha hr, ?_, fun b hb => Tab.get_write_outside _ _ _ _ _ (by simpa using hb)⟩
    calc leNat ((c.wrLm a (natLE 8 (c.gn (wf w 111 107)))).rdLm a 8)
        = leNat (natLE 8 (c.gn (wf w 111 107))) := by rw [CoreSite.rdLm_wrLm_same _ _ _ _ (length_natLE _ _)]
      _ = (c.greg (wf w 111 107)).toNat := by
          rw [leNat_natLE]; exact Nat.mod_eq_of_lt (c.greg (wf w 111 107)).isLt
  · intro a ha hr
    exact ⟨_, _, exec_vld_quiet h ha hr, rfl, rfl, rfl, CoreSite.vreg_setVreg_same c _ _ (by simp),
      fun r hne => CoreSite.vreg_setVreg_ne c _ r _ (by simp) hne⟩
  · intro a ha hr
    exact ⟨_, _, exec_vst_quiet h ha hr, rfl, rfl, rfl, CoreSite.rdLm_wrLm_same c a 512 _ (by simp),
      fun b hb => Tab.get_write_outside _ _ _ _ _ (by simpa using hb)⟩

end Sys2Proof.Machine
end

section
/-! Proofs. Register fields: what a write puts into a field, what it leaves of the others, and which bits of an event
field it clears (R5, R7, R8). -/

namespace Sys2Proof.Machine

theorem flag_eq_testBit (w i : Nat) : flag w i = w.testBit i := by
  rw [flag, Nat.testBit_eq_decide_div_mod_eq, Nat.shiftRight_eq_div_pow]
  rfl

/-- Taking the bits of `b` out of a number. -/
theorem flag_sub_and (a b i : Nat) : flag (a - (a &&& b)) i = (flag a i && !flag b i) := by
  simp only [flag_eq_testBit]
  induction i generalizing a b with
  | zero =>
    have hle : a &&& b ≤ a := Nat.and_le_left
    have hodd : (a &&& b) % 2 = 1 ↔ a % 2 = 1 ∧ b % 2 = 1 := Nat.and_mod_two_eq_one
    rw [Bool.eq_iff_iff]
    simp only [Nat.testBit_zero, Bool.and_eq_true, Bool.not_eq_true', decide_eq_true_eq, decide_eq_false_iff_not]
    omega
  | succ i ih =>
    have hle : a &&& b ≤ a := Nat.and_le_left
    have hodd : (a &&& b) % 2 = 1 ↔ a % 2 = 1 ∧ b % 2 = 1 := Nat.and_mod_two_eq_one
    have hhalf : (a - (a &&& b)) / 2 = a / 2 - (a / 2 &&& b / 2) := by
      rw [← Nat.and_div_two]; omega
    rw [Nat.testBit_succ, Nat.testBit_succ, Nat.testBit_succ, hhalf, ih]

theorem flag_mod_two_pow (w n i : Nat) (h : i < n) : flag (w % 2 ^ n) i = flag w i := by
  simp [flag_eq_testBit, h]

/-! ### A write of `size` bytes at `off` and a field -/

/-- The field lies within the bytes written. -/
structure Fld.Within (f : Fld) (off size : Nat) : Prop where
  lo  : 8 * off ≤ 8 * f.off + f.lo
  hi  : 8 * f.off + f.lo + f.width ≤ 8 * off + 8 * size
  pos : 0 < f.width

/-- A write that covers a field whole gives it its own bits, whatever it held. -/
theorem mergeField_mod {f : Fld} {off size : Nat} (h : f.Within off size) (cur v : Nat) :
    mergeField f cur off size v % 2 ^ f.width = v / 2 ^ (8 * f.off + f.lo - 8 * off) % 2 ^ f.width := by
  obtain ⟨hlo, hhi, hpos⟩ := h
  have elo : max (8 * f.off + f.lo) (8 * off) = 8 * f.off + f.lo := by omega
  have ehi : min (8 * f.off + f.lo + f.width) (8 * off + 8 * size) = 8 * f.off + f.lo + f.width := by omega
  have hcur : cur - cur % 2 ^ f.width = 2 ^ f.width * (cur / 2 ^ f.width) := by
    have := Nat.div_add_mod cur (2 ^ f.width); omega
  unfold mergeField
  simp only [elo, ehi, if_neg (show ¬ 8 * f.off + f.lo + f.width ≤ 8 * f.off + f.lo by omega),
    Nat.add_sub_cancel_left, Nat.sub_self, Nat.pow_zero, Nat.div_one, Nat.mul_one, hcur, Nat.mul_add_mod, Nat.mod_mod]

/-- So the field reads as its own bits. -/
theorem State.getF_setF_mergeField (s : State) (i v : Nat) {f : Fld} {off size : Nat} (h : f.Within off size) (cur : Nat) :
    (s.setF f i (mergeField f cur off size v)).getF f i = v / 2 ^ (8 * f.off + f.lo - 8 * off) % 2 ^ f.width := by
  rw [State.getF_setF_same, mergeField_mod h]

/-- The bits that such a write gives the field. -/
theorem flag_mergeField {f : Fld} {off size : Nat} (h : f.Within off size) (cur v n : Nat) (hn : n < f.width) :
    flag (mergeField f cur off size v) n = flag v (8 * f.off + f.lo - 8 * off + n) := by
  rw [← flag_mod_two_pow _ f.width n hn, mergeField_mod h, flag_mod_two_pow _ _ _ hn]
  simp [flag, Nat.shiftRight_eq_div_pow, Nat.div_div_eq_div_mul, Nat.pow_add]

/-- The write reaches no bit of the field. -/
theorem touches_eq_false {f : Fld} {off size : Nat}
    (h : 8 * off + 8 * size ≤ 8 * f.off + f.lo ∨ 8 * f.off + f.lo + f.width ≤ 8 * off) : touches f off size = false := by
  unfold touches
  rw [decide_eq_false_iff_not]
  omega

/-- The write does not hold the register's 32 bits. -/
theorem partAt_eq_none {off size reg : Nat} (v : Nat) (h : reg < off ∨ off + size < reg + 4) : partAt off size v reg = none := by
  unfold partAt
  rw [if_neg]
  simp only [Bool.and_eq_true, decide_eq_true_eq]
  omega

@[simp] theorem State.when_none (s : State) (f : State → Nat → State) : s.when_ none f = s := rfl

/-! ### What an access code lets a write do (R7, R8) -/

section
variable (s : State) {f : Fld} (i off size v : Nat)

theorem State.writeField_ro (h : f.acc = .ro) : s.writeField f i off size v = s := by
  simp [State.writeField, h]

theorem State.writeField_rw (h : f.acc = .rw) (hcl : f.page ≠ 1) (hlch : f.page ≠ 5) :
    s.writeField f i off size v = s.setF f i (mergeField f (s.getF f i) off size v) := by
  simp [State.writeField, h, hcl, hlch]

theorem State.writeField_w1c (h : f.acc = .w1c) (hlch : f.page ≠ 5) :
    s.writeField f i off size v = s.clearF f i (mergeField f 0 off size v) := by
  simp [State.writeField, h, hlch]

theorem State.writeField_rwl (h : f.acc = .rwl) (hlch : f.page ≠ 5) : s.writeField f i off size v =
    if s.getF R.ROOT.SEAL.SEALED 0 = 0 then s.setF f i (mergeField f (s.getF f i) off size v) else s := by
  simp [State.writeField, h, hlch]

theorem State.writeField_rwx (h : f.acc = .rwx) (hlch : f.page ≠ 5) : s.writeField f i off size v =
    if s.getF R.ROOT.EXPERT_CTL.EN 0 = 1 then s.setF f i (mergeField f (s.getF f i) off size v) else s := by
  simp [State.writeField, h, hlch]

end

section
variable (s : State) (f : Fld) (i v : Nat)

/-- A write of a field changes no register of another key. -/
theorem State.regsBut_setF : s.regsBut (s.setF f i v) [f.key i] := fun k hk => by
  rw [State.setF, Tab.get_set, if_neg (by simpa using hk)]

theorem State.regsBut_clearF : s.regsBut (s.clearF f i v) [f.key i] := State.regsBut_setF s f i _

theorem State.regsBut_addF : s.regsBut (s.addF f i v) [f.key i] := State.regsBut_setF s f i _

theorem State.regsBut_orF : s.regsBut (s.orF f i v) [f.key i] := State.regsBut_setF s f i _

theorem State.regsBut_trans {s t u : State} {ks ls : List Nat} (h : s.regsBut t ks) (h' : t.regsBut u ls) :
    s.regsBut u (ks ++ ls) := fun k hk => by
  rw [List.mem_append, not_or] at hk
  rw [h' k hk.2, h k hk.1]

@[simp] theorem State.getF_orF_same : (s.orF f i v).getF f i = (s.getF f i ||| v) % 2 ^ f.width := by
  rw [State.orF]; exact State.getF_setF_same s f i _

theorem State.getF_orF_ne (g : Fld) (j : Nat) (h : g.key j ≠ f.key i) : (s.orF f i v).getF g j = s.getF g j :=
  State.getF_setF_ne s f g i j _ h

/-- R8: a bit is cleared by a 1 written to it, but not one that was set in the same cycle. -/
theorem State.flag_clearF (n : Nat) (h : n < f.width) : flag ((s.clearF f i v).getF f i) n =
    (flag (s.getF f i) n && !(flag v n && !flag (Tab.get 0 s.fresh (f.key i)) n)) := by
  rw [State.clearF, State.getF_setF_same, flag_mod_two_pow _ _ _ h, flag_sub_and, flag_sub_and]

/-- An event of a page is shown by its bit. -/
theorem State.flag_event (page n : Nat) (h : n < 32) : flag ((s.event page i n).getF (R.PAGE_EVENT.EVENT page) i) n = true := by
  rw [State.event, State.getF_orF_same, flag_mod_two_pow _ (R.PAGE_EVENT.EVENT page).width n h, flag_eq_testBit]
  simp

end

end Sys2Proof.Machine
end

section
/-! Proofs. Accesses to control space: which of the outcomes of REGISTER_WRITE an access has, what a write does to a
region's page and to the module power trip, and what a read returns (R3 to R9, R358, R366). -/

namespace Sys2Proof.Machine

/-! ### Addresses -/

theorem pageOf_page (g i off : Nat) (hi : i < 1024) (ho : off < 0x1000) :
    pageOf (ctlBase + g * 0x400000 + i * 0x1000 + off) = (g, i, off) := by
  simp only [pageOf, Prod.mk.injEq]
  omega

/-- The second register of an aligned pair lies in the same page. -/
theorem pageOf_add_four (a : Nat) (h : ctlBase ≤ a) (ha : a % 8 = 0) :
    pageOf (a + 4) = ((pageOf a).1, (pageOf a).2.1, (pageOf a).2.2 + 4) := by
  have hb : ctlBase % 8 = 0 := rfl
  simp only [pageOf, Prod.mk.injEq]
  omega

/-- An access of 32 or 64 bits within control space, aligned (R5). -/
structure AlignedAccess (a size : Nat) : Prop where
  lo     : ctlBase ≤ a
  hi     : a < ctlBase + 0x10000000
  width  : size = 4 ∨ size = 8
  align  : a % size = 0

/-- The access does not reach ROOT.CTRL_CLAIM, the one register that any chiplet may write (R358). -/
def claimless (a size : Nat) : Prop := a ≠ ctlBase + 0x24 ∧ (a = ctlBase + 0x20 → size = 4)

/-- A 32-bit register of a page. -/
theorem AlignedAccess.page {g i off : Nat} (hg : g < 64) (hi : i < 1024) (ho : off < 0x1000) (h4 : off % 4 = 0) :
    AlignedAccess (ctlBase + g * 0x400000 + i * 0x1000 + off) 4 := by
  have hb : ctlBase % 4 = 0 := rfl
  exact ⟨by omega, by omega, .inl rfl, by omega⟩

/-- Such an access leaves the offset of CTRL_CLAIM out when it is one of the ROOT page. -/
theorem claimless.root_offset {a size off : Nat} (hc : claimless a size) (h : AlignedAccess a size)
    (hp : pageOf a = (0, 0, off)) : off + size ≤ 0x24 ∨ 0x24 < off := by
  obtain ⟨hlo, hhi, hsize, halign⟩ := h
  obtain ⟨hne, h32⟩ := hc
  have hb : ctlBase % 8 = 0 := rfl
  simp only [pageOf, Prod.mk.injEq] at hp
  rcases hsize with rfl | rfl <;> omega

/-! ### The outcomes of REGISTER_WRITE -/

section
variable {s : State} {c : Fin 2} {a size : Nat} {v : BitVec 64}

theorem exec_registerWrite_outside (h : a < ctlBase ∨ ctlBase + 0x10000000 ≤ a) :
    exec (.registerWrite c a size v) s = .next s := by
  refine if_pos ?_
  rcases h with h | h <;> simp [h]

theorem exec_registerWrite_busErr (hv : s.module_.v36 = true) (hlo : ctlBase ≤ a) (hhi : a < ctlBase + 0x10000000)
    (h : (size ≠ 4 ∧ size ≠ 8) ∨ a % size ≠ 0) :
    exec (.registerWrite c a size v) s = .next { s with ctl := { s.ctl with busErr := some c.val } } := by
  refine (if_neg ?_).trans (if_pos ?_)
  · simp [hv]; omega
  · rcases h with ⟨h4, h8⟩ | h
    · simp [h4, h8]
    · simp [h]

/-- A well-formed access but to CTRL_CLAIM: the active chiplet's is performed, any other refused (R358). -/
theorem exec_registerWrite_aligned (hv : s.module_.v36 = true) (h : AlignedAccess a size) (hc : claimless a size) :
    exec (.registerWrite c a size v) s = .next (if s.active = some c.val
      then s.pageWrite (pageOf a).1 (pageOf a).2.1 (pageOf a).2.2 size (v.toNat % 2 ^ (8 * size))
      else s.refuseWrite c) := by
  have hroot := fun off => hc.root_offset (off := off) h
  obtain ⟨hlo, hhi, hsize, halign⟩ := h
  rcases hp : pageOf a with ⟨g, i, off⟩
  have hpart : (if decide (g = 0) && decide (i = 0) then partAt off size (v.toNat % 2 ^ (8 * size)) 0x024 else none) = none := by
    split
    · rename_i hg
      simp only [Bool.and_eq_true, decide_eq_true_eq] at hg
      obtain ⟨rfl, rfl⟩ := hg
      exact partAt_eq_none _ (by have := hroot off hp; omega)
    · rfl
  have hclaim : (decide (g = 0) && decide (i = 0) && (off == 0x024 && size == 4)) = false := by
    rw [Bool.eq_false_iff]
    intro hg
    simp only [Bool.and_eq_true, decide_eq_true_eq, beq_iff_eq] at hg
    obtain ⟨⟨rfl, rfl⟩, hoff, h4⟩ := hg
    have := hroot off hp
    omega
  show execRegisterWrite c a size v s = _
  unfold execRegisterWrite
  rw [if_neg (by simp [hv]; omega), if_neg (by rcases hsize with rfl | rfl <;> simp [halign])]
  simp only [hp, hpart, State.when_none, hclaim, Bool.false_eq_true, if_false]
  exact (apply_ite Host.Outcome.next _ _ _).symm

/-- A 32-bit write of the active chiplet to a page. -/
theorem exec_registerWrite_page {g i off : Nat} (hv : s.module_.v36 = true) (hact : s.active = some c.val) (hg : g < 64)
    (hi : i < 1024) (ho : off < 0x1000) (h4 : off % 4 = 0) (hc : claimless (ctlBase + g * 0x400000 + i * 0x1000 + off) 4) :
    exec (.registerWrite c (ctlBase + g * 0x400000 + i * 0x1000 + off) 4 v) s =
      .next (s.pageWrite g i off 4 (v.toNat % 2 ^ 32)) := by
  rw [exec_registerWrite_aligned hv (AlignedAccess.page hg hi ho h4) hc, if_pos hact, pageOf_page g i off hi ho]

end

/-! ### Writes of a page -/

section
variable (s : State)

/-- R366: a page whose domain is off takes no write. -/
theorem State.pageWrite_unhosted {g i : Nat} (off size v : Nat) (h : s.hosted g i = false) : s.pageWrite g i off size v = s := by
  simp [State.pageWrite, h]

/-- A page whose domain is on takes a write field by field. -/
theorem State.pageWrite_hosted {g i : Nat} (off size v : Nat) (hi : i < pageInstances g) (h : s.hosted g i = true) (l : List Fld)
    (hl : ((plainFields g off size).filter fun f => !onlyErr24 g i f.off && !noDeck f i) = l) :
    s.pageWrite g i off size v = (each l s fun s f => s.writeField f i off size v).special g i off size v := by
  subst hl
  simp [State.pageWrite, h, hi]

/-- The registers of a region's page that act beyond their fields: POWER_CTL, FRONT_CTL, FRONT_TIME and VTRIM. -/
theorem State.special_region (i off v : Nat) (h : off + 4 ≤ 0x040 ∨ (0x058 ≤ off ∧ (off + 4 ≤ 0x404 ∨ 0x405 ≤ off))) :
    s.special 8 i off 4 v = s := by
  have htf : touches R.RGN.FRONT_TIME.T_F off 4 = false := touches_eq_false (by simp only [R.RGN.FRONT_TIME.T_F]; omega)
  have hvt : touches R.RGN.VTRIM.TRIM off 4 = false := touches_eq_false (by simp only [R.RGN.VTRIM.TRIM]; omega)
  have hpc : partAt off 4 v 0x040 = none := partAt_eq_none v (by omega)
  have hfc : partAt off 4 v 0x048 = none := partAt_eq_none v (by omega)
  simp [State.special, State.newVal, htf, hvt, hpc, hfc]

/-- A write of a region's page that none of those registers is part of. -/
theorem State.pageWrite_region {i off : Nat} (v : Nat) (l : List Fld) (hv : s.module_.v36 = true) (hi : i < 36)
    (ho : off + 4 ≤ 0x040 ∨ (0x058 ≤ off ∧ (off + 4 ≤ 0x404 ∨ 0x405 ≤ off)))
    (hl : ((plainFields 8 off 4).filter fun f => !noDeck f i) = l) :
    s.pageWrite 8 i off 4 v = each l s fun s f => s.writeField f i off 4 v := by
  rw [s.pageWrite_hosted (g := 8) off 4 v hi hv l (by simpa [onlyErr24] using hl), State.special_region _ _ _ _ ho]

/-- The registers of the ROOT page between SEAL and EXPERT_CTL act by their fields alone. -/
theorem State.special_root (i off v : Nat) (h : 0x02C ≤ off ∧ off + 4 ≤ 0x040) : s.special 0 i off 4 v = s := by
  have hdt : touches R.ROOT.DEV_TIME.NS off 4 = false := touches_eq_false (by simp only [R.ROOT.DEV_TIME.NS]; omega)
  have htr : touches R.ROOT.TIME_RATE.ADJ off 4 = false := touches_eq_false (by simp only [R.ROOT.TIME_RATE.ADJ]; omega)
  have hta : touches R.ROOT.TIME_RATE_AT.T off 4 = false := touches_eq_false (by simp only [R.ROOT.TIME_RATE_AT.T]; omega)
  have hse : partAt off 4 v 0x028 = none := partAt_eq_none v (by omega)
  have hex : partAt off 4 v 0x040 = none := partAt_eq_none v (by omega)
  have hgo : partAt off 4 v 0x078 = none := partAt_eq_none v (by omega)
  simp [State.special, hdt, htr, hta, hse, hex, hgo]

end

/-! ### The registers of a region's page and the module power trip -/

theorem plainFields_region_none : plainFields 8 0x800 4 = [] := by decide +kernel
theorem plainFields_thermCtl :
    plainFields 8 0x064 4 = [R.RGN.THERM_CTL.PACE_C, R.RGN.THERM_CTL.OFF_C, R.RGN.THERM_CTL.TRIP_C] := by decide +kernel
theorem plainFields_regionEvent : plainFields 8 0x008 4 = [R.PAGE_EVENT.EVENT 8] := by decide +kernel
theorem plainFields_paceForce : plainFields 8 0x400 4 = [R.RGN.PACE_FORCE.LEVEL] := by decide +kernel
theorem plainFields_powerTrip : plainFields 0 0x038 4 = [R.ROOT.POWER_TRIP.WATTS] := by decide +kernel

/-! Each of these fields lies within its register. -/

theorem paceC_within : (R.RGN.THERM_CTL.PACE_C).Within 0x064 4 := ⟨by decide, by decide, by decide⟩
theorem offC_within : (R.RGN.THERM_CTL.OFF_C).Within 0x064 4 := ⟨by decide, by decide, by decide⟩
theorem regionEvent_within : (R.PAGE_EVENT.EVENT 8).Within 0x008 4 := ⟨by decide, by decide, by decide⟩
theorem paceForce_within : (R.RGN.PACE_FORCE.LEVEL).Within 0x400 4 := ⟨by decide, by decide, by decide⟩
theorem powerTrip_within : (R.ROOT.POWER_TRIP.WATTS).Within 0x038 4 := ⟨by decide, by decide, by decide⟩

/-- R356: a deck domain has no heat thresholds and no pace. -/
theorem noDeck_deck {f : Fld} {i : Nat} (hp : f.page = 8) (hf : f.off ∈ [0x058, 0x05C, 0x064, 0x078, 0x400, 0x404]) (hi : 30 ≤ i) :
    noDeck f i = true := by
  simp [noDeck, hp, hi, hf]

/-- Every other domain has all the fields. -/
theorem noDeck_front {i : Nat} (f : Fld) (hi : i < 30) : noDeck f i = false := by
  simp [noDeck, hi]

section
variable {s : State} {i : Nat} (v : Nat) (hv : s.module_.v36 = true)
include hv

theorem State.pageWrite_region_none (hi : i < 36) : s.pageWrite 8 i 0x800 4 v = s := by
  rw [s.pageWrite_region v [] hv hi (by omega) (by rw [plainFields_region_none]; rfl)]
  rfl

theorem State.pageWrite_thermCtl_deck (hi : i < 36) (hd : 30 ≤ i) : s.pageWrite 8 i 0x064 4 v = s := by
  rw [s.pageWrite_region v [] hv hi (by omega)]
  · rfl
  · rw [plainFields_thermCtl, List.filter_eq_nil_iff]
    intro f hf
    obtain ⟨hpage, hoff⟩ : f.page = 8 ∧ f.off = 0x064 := by
      simp only [List.mem_cons, List.not_mem_nil, or_false] at hf
      rcases hf with rfl | rfl | rfl <;> exact ⟨rfl, rfl⟩
    simp [noDeck_deck hpage (by simp [hoff]) hd]

theorem State.pageWrite_paceForce_deck (hi : i < 36) (hd : 30 ≤ i) : s.pageWrite 8 i 0x400 4 v = s := by
  rw [s.pageWrite_region v [] hv hi (by omega)]
  · rfl
  · rw [plainFields_paceForce]
    simp [noDeck_deck (f := R.RGN.PACE_FORCE.LEVEL) rfl (by decide) hd]

/-- The two heat thresholds are written, one after the other; TRIP_C is read-only. -/
theorem State.pageWrite_thermCtl (hi : i < 30) : s.pageWrite 8 i 0x064 4 v =
    (s.setF R.RGN.THERM_CTL.PACE_C i (mergeField R.RGN.THERM_CTL.PACE_C (s.getF R.RGN.THERM_CTL.PACE_C i) 0x064 4 v)).setF
      R.RGN.THERM_CTL.OFF_C i (mergeField R.RGN.THERM_CTL.OFF_C (s.getF R.RGN.THERM_CTL.OFF_C i) 0x064 4 v) := by
  rw [s.pageWrite_region v _ hv (by omega) (by omega) (by simp only [plainFields_thermCtl, noDeck_front _ hi]; rfl)]
  change ((s.writeField R.RGN.THERM_CTL.PACE_C i 0x064 4 v).writeField R.RGN.THERM_CTL.OFF_C i 0x064 4 v).writeField
    R.RGN.THERM_CTL.TRIP_C i 0x064 4 v = _
  rw [State.writeField_ro _ _ _ _ _ rfl, State.writeField_rw _ _ _ _ _ rfl (by decide) (by decide),
    State.writeField_rw _ _ _ _ _ rfl (by decide) (by decide), State.getF_setF_ne]
  simp only [Fld.key, R.RGN.THERM_CTL.PACE_C, R.RGN.THERM_CTL.OFF_C]
  omega

theorem State.pageWrite_regionEvent (hi : i < 36) : s.pageWrite 8 i 0x008 4 v =
    s.clearF (R.PAGE_EVENT.EVENT 8) i (mergeField (R.PAGE_EVENT.EVENT 8) 0 0x008 4 v) := by
  have hkept : noDeck (R.PAGE_EVENT.EVENT 8) i = false := by
    have hon : R.PAGE_EVENT.EVENT 8 ≠ R.RGN.POWER_CTL.ON_REQ := by decide
    have hdf : R.PAGE_EVENT.EVENT 8 ≠ R.RGN.POWER_CTL.DEFERS := by decide
    have hoff : (R.PAGE_EVENT.EVENT 8).off = 8 := rfl
    simp [noDeck, hon, hdf, hoff]
  rw [s.pageWrite_region v [R.PAGE_EVENT.EVENT 8] hv hi (by omega) (by simp [plainFields_regionEvent, hkept])]
  exact s.writeField_w1c (f := R.PAGE_EVENT.EVENT 8) i 0x008 4 v rfl (by decide)

theorem State.pageWrite_paceForce (hi : i < 30) : s.pageWrite 8 i 0x400 4 v =
    if s.getF R.ROOT.EXPERT_CTL.EN 0 = 1 then
      s.setF R.RGN.PACE_FORCE.LEVEL i (mergeField R.RGN.PACE_FORCE.LEVEL (s.getF R.RGN.PACE_FORCE.LEVEL i) 0x400 4 v)
    else s := by
  rw [s.pageWrite_region v [R.RGN.PACE_FORCE.LEVEL] hv (by omega) (by omega)
    (by simp [plainFields_paceForce, noDeck_front _ hi])]
  exact s.writeField_rwx (f := R.RGN.PACE_FORCE.LEVEL) i 0x400 4 v rfl (by decide)

theorem State.pageWrite_powerTrip : s.pageWrite 0 0 0x038 4 v =
    if s.getF R.ROOT.SEAL.SEALED 0 = 0 then
      s.setF R.ROOT.POWER_TRIP.WATTS 0 (mergeField R.ROOT.POWER_TRIP.WATTS (s.getF R.ROOT.POWER_TRIP.WATTS 0) 0x038 4 v)
    else s := by
  have hl : ((plainFields 0 0x038 4).filter fun f => !onlyErr24 0 0 f.off && !noDeck f 0) = [R.ROOT.POWER_TRIP.WATTS] := by
    rw [plainFields_powerTrip]; decide
  rw [s.pageWrite_hosted (g := 0) 0x038 4 v (by decide) hv _ hl, State.special_root _ _ _ _ (by omega)]
  exact s.writeField_rwl (f := R.ROOT.POWER_TRIP.WATTS) 0 0x038 4 v rfl (by decide)

end

/-! ### Reads -/

section
variable (s : State) {a size : Nat}

theorem State.ctlRead_outside (h : a < ctlBase ∨ ctlBase + 0x10000000 ≤ a) : s.ctlRead a size = none := by
  refine if_pos ?_
  rcases h with h | h <;> simp [h]

theorem State.ctlRead_misaligned (h : (size ≠ 4 ∧ size ≠ 8) ∨ a % size ≠ 0) : s.ctlRead a size = none := by
  refine if_pos ?_
  rcases h with ⟨h4, h8⟩ | h
  · simp [h4, h8]
  · simp [h]

theorem State.ctlRead_aligned (h : AlignedAccess a size) : s.ctlRead a size =
    some (s.regRead (pageOf a).1 (pageOf a).2.1 (pageOf a).2.2 +
      if size = 8 then s.regRead (pageOf a).1 (pageOf a).2.1 ((pageOf a).2.2 + 4) * 2 ^ 32 else 0) := by
  obtain ⟨hlo, hhi, hsize, halign⟩ := h
  refine if_neg ?_
  rcases hsize with rfl | rfl
  all_goals simp [halign]; omega

theorem State.ctlRead_32 (h : AlignedAccess a 4) :
    s.ctlRead a 4 = some (s.regRead (pageOf a).1 (pageOf a).2.1 (pageOf a).2.2) := by
  rw [s.ctlRead_aligned h]; simp

/-- An aligned read of 64 bits gives the two registers of that instant. -/
theorem State.ctlRead_pair (hlo : ctlBase ≤ a) (hhi : a < ctlBase + 0x10000000) (h : a % 8 = 0) :
    ∃ lo hi, s.ctlRead a 4 = some lo ∧ s.ctlRead (a + 4) 4 = some hi ∧ s.ctlRead a 8 = some (lo + hi * 2 ^ 32) := by
  have hb : ctlBase % 8 = 0 := rfl
  have hsecond : s.ctlRead (a + 4) 4 = some (s.regRead (pageOf a).1 (pageOf a).2.1 ((pageOf a).2.2 + 4)) := by
    rw [s.ctlRead_32 ⟨by omega, by omega, .inl rfl, by omega⟩]
    simp only [pageOf_add_four a hlo h]
  refine ⟨_, _, s.ctlRead_32 ⟨hlo, hhi, .inl rfl, by omega⟩, hsecond, ?_⟩
  rw [s.ctlRead_aligned ⟨hlo, hhi, .inr rfl, h⟩, if_pos rfl]

end

/-! ### Refused writes (R358, R368) -/

section
variable {s : State}

/-- While no chiplet is active, what a command would write is refused. -/
theorem State.asActive_refused (f : State → State) (hv : s.module_.v36 = true) (h : s.active = none) :
    s.asActive f = s.refuseWrite s.activeCc := by
  simp [State.asActive, h, hv]

/-- What a refused write changes. -/
theorem State.refuseWrite_spec (c : Nat) : let t := s.refuseWrite c
    t = { s with regs := t.regs, errs := t.errs, fresh := t.fresh } ∧ s.newReports t = [(9, 4, unitCode 0 0 c)] ∧
    t.getF R.ROOT.CTRL_STATUS.REFUSED_WRITES 0 = min 65535 (s.getF R.ROOT.CTRL_STATUS.REFUSED_WRITES 0 + 1) ∧
    flag (t.getF (R.PAGE_EVENT.EVENT 0) 0) 5 = true ∧
    s.regsBut t [R.ROOT.CTRL_STATUS.REFUSED_WRITES.key 0, (R.PAGE_EVENT.EVENT 0).key 0] := by
  refine ⟨rfl, ?_, ?_, State.flag_event _ 0 0 5 (by omega), ?_⟩
  · simp [State.newReports, State.refuseWrite, State.reportUnit, State.report, State.modErrs]
  · rw [State.refuseWrite, State.event, State.getF_orF_ne _ _ _ _ _ _ (by decide), State.reportUnit_getF]
    exact State.getF_addF_same s R.ROOT.CTRL_STATUS.REFUSED_WRITES 0 1
  · exact State.regsBut_trans (State.regsBut_addF s R.ROOT.CTRL_STATUS.REFUSED_WRITES 0 1)
      (State.regsBut_orF _ (R.PAGE_EVENT.EVENT 0) 0 _)

end

/-! ### Writes of the active chiplet -/

section
variable {s : State} {c : Fin 2} {r : Nat} (v : BitVec 64) (hv : s.module_.v36 = true) (hact : s.active = some c.val)
include hv hact

/-- A write of the active chiplet to a register of a region's page. -/
theorem exec_registerWrite_region {off : Nat} (hr : r < 36) (ho : off < 0x1000) (h4 : off % 4 = 0) :
    exec (.registerWrite c (ctlBase + 8 * 0x400000 + r * 0x1000 + off) 4 v) s =
      .next (s.pageWrite 8 r off 4 (v.toNat % 2 ^ 32)) :=
  exec_registerWrite_page hv hact (by omega) (by omega) ho h4 ⟨by omega, by omega⟩

theorem exec_registerWrite_thermCtl (hr : r < 30) : ∃ (t : State),
    exec (.registerWrite c (ctlBase + 8 * 0x400000 + r * 0x1000 + 0x64) 4 v) s = .next t ∧ t = { s with regs := t.regs } ∧
    t.getF R.RGN.THERM_CTL.PACE_C r = v.toNat % 256 ∧ t.getF R.RGN.THERM_CTL.OFF_C r = v.toNat / 256 % 256 ∧
    s.regsBut t [R.RGN.THERM_CTL.PACE_C.key r, R.RGN.THERM_CTL.OFF_C.key r] := by
  have hne : R.RGN.THERM_CTL.PACE_C.key r ≠ R.RGN.THERM_CTL.OFF_C.key r := by
    simp only [Fld.key, R.RGN.THERM_CTL.PACE_C, R.RGN.THERM_CTL.OFF_C]; omega
  refine ⟨_, (exec_registerWrite_region v hv hact (by omega) (by omega) rfl).trans
    (congrArg Host.Outcome.next (State.pageWrite_thermCtl _ hv hr)), rfl, ?_, ?_, ?_⟩
  · rw [State.getF_setF_ne _ _ _ _ _ _ hne, State.getF_setF_mergeField _ _ _ paceC_within]
    simp [R.RGN.THERM_CTL.PACE_C]
  · rw [State.getF_setF_mergeField _ _ _ offC_within]
    simp [R.RGN.THERM_CTL.OFF_C]
    omega
  · exact State.regsBut_trans (State.regsBut_setF s _ r _) (State.regsBut_setF _ _ r _)

theorem exec_registerWrite_regionEvent (hr : r < 36) : ∃ (t : State),
    exec (.registerWrite c (ctlBase + 8 * 0x400000 + r * 0x1000 + 8) 4 v) s = .next t ∧ t = { s with regs := t.regs } ∧
    (∀ i, i < 32 → flag (t.getF (R.PAGE_EVENT.EVENT 8) r) i = (flag (s.getF (R.PAGE_EVENT.EVENT 8) r) i &&
      !(v.getLsbD i && !flag (Tab.get 0 s.fresh ((R.PAGE_EVENT.EVENT 8).key r)) i))) ∧
    s.regsBut t [(R.PAGE_EVENT.EVENT 8).key r] := by
  refine ⟨_, (exec_registerWrite_region v hv hact hr (by omega) rfl).trans
    (congrArg Host.Outcome.next (State.pageWrite_regionEvent _ hv hr)), rfl, fun i hi => ?_, State.regsBut_clearF s _ r _⟩
  have hbit : flag (mergeField (R.PAGE_EVENT.EVENT 8) 0 8 4 (v.toNat % 2 ^ 32)) i = v.getLsbD i := by
    rw [flag_mergeField regionEvent_within _ _ _ hi]
    simp only [R.PAGE_EVENT.EVENT, Nat.add_zero, Nat.sub_self, Nat.zero_add]
    rw [flag_mod_two_pow _ _ _ hi, flag_eq_testBit]
    rfl
  rw [State.flag_clearF _ _ _ _ _ hi, hbit]

theorem exec_registerWrite_paceForce_open (hr : r < 30) (he : s.getF R.ROOT.EXPERT_CTL.EN 0 = 1) : ∃ (t : State),
    exec (.registerWrite c (ctlBase + 8 * 0x400000 + r * 0x1000 + 0x400) 4 v) s = .next t ∧ t = { s with regs := t.regs } ∧
    t.getF R.RGN.PACE_FORCE.LEVEL r = v.toNat % 16 ∧ s.regsBut t [R.RGN.PACE_FORCE.LEVEL.key r] := by
  refine ⟨_, (exec_registerWrite_region v hv hact (by omega) (by omega) rfl).trans
    (congrArg Host.Outcome.next ((State.pageWrite_paceForce _ hv hr).trans (if_pos he))), rfl, ?_, State.regsBut_setF s _ r _⟩
  rw [State.getF_setF_mergeField _ _ _ paceForce_within]
  simp [R.RGN.PACE_FORCE.LEVEL]

theorem exec_registerWrite_powerTrip : exec (.registerWrite c (ctlBase + 0x38) 4 v) s =
    .next (s.pageWrite 0 0 0x038 4 (v.toNat % 2 ^ 32)) :=
  exec_registerWrite_page (g := 0) (i := 0) hv hact (by omega) (by omega) (by omega) rfl ⟨by decide, by decide⟩

theorem exec_registerWrite_powerTrip_unsealed (h : s.getF R.ROOT.SEAL.SEALED 0 = 0) : ∃ (t : State),
    exec (.registerWrite c (ctlBase + 0x38) 4 v) s = .next t ∧ t = { s with regs := t.regs } ∧
    t.getF R.ROOT.POWER_TRIP.WATTS 0 = v.toNat % 65536 ∧ s.regsBut t [R.ROOT.POWER_TRIP.WATTS.key 0] := by
  refine ⟨_, (exec_registerWrite_powerTrip v hv hact).trans
    (congrArg Host.Outcome.next ((State.pageWrite_powerTrip _ hv).trans (if_pos h))), rfl, ?_, State.regsBut_setF s _ 0 _⟩
  rw [State.getF_setF_mergeField _ _ _ powerTrip_within]
  simp [R.ROOT.POWER_TRIP.WATTS]

end

/-- Settles O51: an access by its place and form, then a write by its page's domain and its field's access code, then
what the refusal of a write changes. -/
theorem registerAccess : Obligations.RegisterAccess := by
  unfold Obligations.RegisterAccess
  refine ⟨fun s c v hv => ⟨fun a size h => ⟨exec_registerWrite_outside h, s.ctlRead_outside h⟩,
      fun a size hlo hhi h => ⟨exec_registerWrite_busErr hv hlo hhi h, s.ctlRead_misaligned h⟩,
      fun a hlo hhi h => s.ctlRead_pair hlo hhi h, fun hact => ⟨?unhosted, ?region, ?sealed, ?unsealed⟩⟩,
    fun s hv => ⟨?standby, ?inactive, fun c => s.refuseWrite_spec c⟩⟩
  case unhosted =>
    intro r hr hoff off h4 ho
    rw [exec_registerWrite_page hv hact (by omega) (by omega) ho h4 ⟨by omega, by omega⟩, s.pageWrite_unhosted _ _ _ hoff]
  case region =>
    intro r hr page
    refine ⟨?_, fun hd => ⟨?_, ?_⟩, exec_registerWrite_thermCtl v hv hact, fun _ => exec_registerWrite_regionEvent v hv hact hr,
      fun hf he => ?_, exec_registerWrite_paceForce_open v hv hact⟩
    · rw [exec_registerWrite_region v hv hact hr (by omega) rfl, State.pageWrite_region_none _ hv hr]
    · rw [exec_registerWrite_region v hv hact hr (by omega) rfl, State.pageWrite_thermCtl_deck _ hv hr hd]
    · rw [exec_registerWrite_region v hv hact hr (by omega) rfl, State.pageWrite_paceForce_deck _ hv hr hd]
    · rw [exec_registerWrite_region v hv hact hr (by omega) rfl, State.pageWrite_paceForce _ hv hf, if_neg he]
  case sealed =>
    intro h
    rw [exec_registerWrite_powerTrip v hv hact, State.pageWrite_powerTrip _ hv, if_neg h]
  case unsealed => exact exec_registerWrite_powerTrip_unsealed v hv hact
  case standby =>
    intro c a size v hact hsize hlo hhi halign hne h32
    rw [exec_registerWrite_aligned hv ⟨hlo, hhi, hsize, halign⟩ ⟨hne, h32⟩, if_neg hact]
  case inactive =>
    intro hnone no
    have refused (f : State → State) : Host.Outcome.next (s.asActive f) = no :=
      congrArg Host.Outcome.next (State.asActive_refused f hv hnone)
    exact ⟨fun _ => refused _, fun _ => refused _, refused _, fun _ => refused _, fun _ => refused _, fun _ => refused _,
      fun _ => refused _, fun _ => refused _, fun _ => refused _, fun _ => refused _, fun _ _ => refused _, fun _ => refused _,
      fun _ => refused _, refused _, refused _, refused _, refused _, refused _, refused _, refused _, refused _⟩

end Sys2Proof.Machine
end

section
/-! Proofs. Plane membership, port sets and job tags: what a join, a leave and a port set update make of the partner
contexts, and how the plane root keeps the tags of jobs (R18, R255 to R257, R261). -/

namespace Sys2Proof.Machine

/-! ### Port sets (R257) -/

/-- A sum of distinct powers of two is below the next. -/
theorem sum_two_pow_lt (p : Nat → Bool) (n : Nat) : ((List.range n).map fun k => if p k then 2 ^ k else 0).sum < 2 ^ n := by
  induction n with
  | zero => simp
  | succ n ih =>
    rw [List.range_succ, List.map_append, List.sum_append, pow_succ]
    simp only [List.map_cons, List.map_nil, List.sum_cons, List.sum_nil]
    split <;> omega

/-- A sum of distinct powers of two has just their bits. -/
theorem flag_sum_two_pow (p : Nat → Bool) {n i : Nat} (h : i < n) :
    flag ((List.range n).map fun k => if p k then 2 ^ k else 0).sum i = p i := by
  rw [flag_eq_testBit]
  induction n with
  | zero => omega
  | succ n ih =>
    have hlt := sum_two_pow_lt p n
    rw [List.range_succ, List.map_append, List.sum_append, Nat.add_comm]
    simp only [List.map_cons, List.map_nil, List.sum_cons, List.sum_nil, Nat.add_zero]
    rcases Nat.lt_succ_iff_lt_or_eq.1 h with hi | rfl
    · cases p n
      · simpa using ih hi
      · rw [if_pos rfl, Nat.testBit_two_pow_add_gt hi, ih hi]
    · cases p i
      · simpa using Nat.testBit_lt_two_pow hlt
      · rw [if_pos rfl, Nat.testBit_two_pow_add_eq, Nat.testBit_lt_two_pow hlt, Bool.not_false]

section
variable (s : State)

theorem State.flag_portSet (d : Nat) {p : Nat} (h : p < 40) : flag (s.portSet d) p =
    (s.portUp p && !s.fab.out.contains p && (if s.getF R.LPT.TRAIN_STATUS.FAR_SWITCH p = 0
      then s.getF R.LPT.TRAIN_STATUS.FAR_ID p == d else s.fab.reach.contains (p, d))) := by
  rw [State.portSet, flag_sum_two_pow _ h, Bool.and_right_comm]

theorem State.portSet_modPartner (i : Nat) (g : Partner → Partner) (d : Nat) : (s.modPartner i g).portSet d = s.portSet d := rfl

/-- A partner context with the port set that the ports of now give it. -/
def State.withPorts (d : Nat) : Partner :=
  { s.partner d with ports := if (s.partner d).st = 0 then 0 else s.portSet d }

/-- The computation of one partner's port set changes no other input of it. -/
theorem State.withPorts_modPartner (i d : Nat) : (s.modPartner i fun _ => s.withPorts i).withPorts d = s.withPorts d := by
  unfold State.withPorts
  rw [State.partner_modPartner, State.portSet_modPartner]
  by_cases hd : d = i
  · subst hd; simp
  · simp [hd]

theorem each_withPorts_partner (l : List Nat) (d : Nat) :
    (each l s fun s i => s.modPartner i fun _ => s.withPorts i).partner d = if d ∈ l then s.withPorts d else s.partner d := by
  induction l generalizing s with
  | nil => rfl
  | cons i l ih =>
    refine (ih (s.modPartner i fun _ => s.withPorts i)).trans ?_
    rw [State.withPorts_modPartner, State.partner_modPartner]
    by_cases hd : d = i <;> simp [hd]

theorem State.updatePorts_eq : s.updatePorts = each (s.fab.partners.map (·.1)) s fun s i => s.modPartner i fun _ => s.withPorts i := rfl

/-- A context that the table does not list is empty. -/
theorem State.partner_unlisted {d : Nat} (h : d ∉ s.fab.partners.map (·.1)) : s.partner d = {} := by
  refine Tab.get_none _ _ _ ?_
  rw [List.any_eq_false]
  intro e he hk
  exact h (List.mem_map.2 ⟨e, he, by simpa using hk⟩)

/-- R257: every partner's port set is the one of now. -/
theorem State.updatePorts_partner (d : Nat) : s.updatePorts.partner d = s.withPorts d := by
  rw [State.updatePorts_eq, each_withPorts_partner]
  split_ifs with h
  · rfl
  · rw [State.withPorts, s.partner_unlisted h]
    rfl

/-- An update of the port sets changes only partner contexts. -/
theorem State.updatePorts_frame : ∃ ps, s.updatePorts = s.modFab fun f => { f with partners := ps } := by
  rw [State.updatePorts_eq]
  generalize s.fab.partners.map (·.1) = l
  induction l generalizing s with
  | nil => exact ⟨_, rfl⟩
  | cons i l ih =>
    obtain ⟨ps, h⟩ := ih (s.modPartner i fun _ => s.withPorts i)
    exact ⟨ps, h⟩

/-- PORT_SET_UPDATE (R257). -/
theorem exec_portSetUpdate (reach : List (Nat × Nat)) : ∃ (t : State), exec (.portSetUpdate reach) s = .next t ∧
    t = { s with fab := { s.fab with reach := reach, partners := t.fab.partners } } ∧
    ∀ d p, (s.partner d).st ≠ 0 → p < 40 → flag (t.partner d).ports p = (s.portUp p && !s.fab.out.contains p &&
      (if s.getF R.LPT.TRAIN_STATUS.FAR_SWITCH p = 0 then s.getF R.LPT.TRAIN_STATUS.FAR_ID p == d else reach.contains (p, d))) := by
  refine ⟨(s.modFab fun f => { f with reach := reach }).updatePorts, rfl, ?_, fun d p hst hp => ?_⟩
  · obtain ⟨ps, h⟩ := (s.modFab fun f => { f with reach := reach }).updatePorts_frame
    rw [h]
    rfl
  · rw [State.updatePorts_partner, State.withPorts]
    exact (congrArg (flag · p) (if_neg hst)).trans (State.flag_portSet _ d hp)

end

/-! ### Joins and leaves (R255, R256) -/

theorem State.modFab_modFab (s : State) (g h : Fabric → Fabric) : (s.modFab g).modFab h = s.modFab fun f => h (g f) := rfl

section
variable {s : State} {d lim : Nat}

theorem State.rebuildTags_frame (s t : State) : ∃ tags, s.rebuildTags t = t.modFab fun f => { f with tags := tags } := by
  unfold State.rebuildTags
  split_ifs
  · exact ⟨_, rfl⟩
  · exact ⟨_, rfl⟩

theorem State.applyJoin_other (h : d ≠ s.devId) : s.applyJoin (d, some lim) =
    ((s.modFab fun f => { f with members := (f.members.filter fun m => m.1 != d) ++ [(d, lim)] }).modGate fun g =>
      { g with out := g.out.filter (· != d) }).modPartner d fun _ => { st := 1 } := if_neg h

theorem State.applyJoin_self (h : d = s.devId) : s.applyJoin (d, some lim) =
    ((s.modFab fun f => { f with members := (f.members.filter fun m => m.1 != d) ++ [(d, lim)] }).modGate fun g =>
      { g with out := g.out.filter (· != d) }).setF R.LCH.FABRIC_ID.JOINED 0 1 := if_pos h

theorem State.applyLeave_other (h : d ≠ s.devId) : s.applyJoin (d, none) =
    (s.modFab fun f => { f with members := f.members.filter fun m => m.1 != d }).modPartner d fun _ => {} := if_neg h

theorem State.applyLeave_self (h : d = s.devId) : s.applyJoin (d, none) =
    (s.modFab fun f => { f with members := f.members.filter fun m => m.1 != d }).setF R.LCH.FABRIC_ID.JOINED 0 0 := if_pos h

/-- The state in which one more join or leave waits. -/
def State.withJoin (s : State) (j : Nat × Option Nat) : State := { s with fab := { s.fab with joins := s.fab.joins ++ [j] } }

theorem State.queueJoin_marks (j : Nat × Option Nat) (hm : s.marks = true) : s.queueJoin j = s.withJoin j := if_pos hm

theorem State.queueJoin_noMarks (j : Nat × Option Nat) (hm : s.marks = false) : s.queueJoin j = (s.withJoin j).applyJoins := by
  have hm' : ¬ (s.withJoin j).marks = true := by
    rw [Bool.not_eq_true]
    exact hm
  exact if_neg hm'

/-- The ports that stay out for an update of their link chiplet (R398). -/
def State.stayOut (s : State) : List Nat :=
  s.fab.out.filter fun p => s.getF R.SEC.SERVICE.PART 0 == 3 && s.getF R.SEC.SERVICE.INDEX 0 == p / 4

/-- The one join or leave that waits takes effect, then the port sets and the root's tags follow. -/
theorem State.applyJoins_single {j : Nat × Option Nat} (h : s.fab.joins = [j]) : ∃ tags, s.applyJoins =
    ((s.applyJoin j).modFab fun f => { f with joins := [], out := s.stayOut }).updatePorts.modFab fun f => { f with tags := tags } := by
  have hone : each s.fab.joins s State.applyJoin = s.applyJoin j := by
    rw [h]
    rfl
  have hwaits : ¬ (s.fab.joins.isEmpty && s.stayOut.length == s.fab.out.length) = true := by simp [h]
  obtain ⟨tags, htags⟩ := s.rebuildTags_frame ((s.applyJoin j).modFab fun f => { f with joins := [], out := s.stayOut }).updatePorts
  refine ⟨tags, (if_neg hwaits).trans ?_⟩
  rw [hone]
  exact htags

/-- Without marks and with none waiting, a join or leave takes effect at once. Beside its own effect, no join waits
then, and the ports out for an update, the root's tags and the port sets are those of now. -/
theorem State.queueJoin_atOnce (j : Nat × Option Nat) (hm : s.marks = false) (hj : s.fab.joins = []) :
    let u := (s.withJoin j).applyJoin j
    (∃ out tags ps, s.queueJoin j = u.modFab fun f => { f with joins := [], out := out, tags := tags, partners := ps }) ∧
      ∀ d, ∃ k, (s.queueJoin j).partner d = { u.partner d with ports := k } ∧ ((u.partner d).st = 0 → k = 0) := by
  intro u
  let v := u.modFab fun f => { f with joins := [], out := (s.withJoin j).stayOut }
  obtain ⟨tags, hat⟩ : ∃ tags, s.queueJoin j = v.updatePorts.modFab fun f => { f with tags := tags } := by
    rw [State.queueJoin_noMarks j hm]
    exact State.applyJoins_single (by simp [State.withJoin, hj])
  refine ⟨?_, fun d => ?_⟩
  · obtain ⟨ps, hps⟩ := v.updatePorts_frame
    exact ⟨_, tags, ps, by rw [hat, hps, State.modFab_modFab, State.modFab_modFab]⟩
  · have hpartner : (s.queueJoin j).partner d = v.withPorts d := by
      rw [hat]
      exact v.updatePorts_partner d
    exact ⟨_, hpartner, fun hst => if_pos hst⟩

/-- A join without marks, none waiting (R255). -/
theorem State.queueJoin_join (d lim : Nat) (hm : s.marks = false) (hj : s.fab.joins = []) : ∃ t, s.queueJoin (d, some lim) = t ∧
    t.fab.members = (s.fab.members.filter fun m => m.1 != d) ++ [(d, lim)] ∧ t.fab.joins = [] ∧ t.fab.pairLic = s.fab.pairLic ∧
    (d ≠ s.devId → t = { s with fab := t.fab, tally := t.tally } ∧ ∃ k, t.partner d = { st := 1, ports := k }) ∧
    (d = s.devId → t = { s with fab := t.fab, tally := t.tally, regs := t.regs } ∧ t.getF R.LCH.FABRIC_ID.JOINED 0 = 1) := by
  obtain ⟨⟨out, tags, ps, ht⟩, hpartner⟩ := State.queueJoin_atOnce (s := s) (d, some lim) hm hj
  by_cases hd : d = s.devId
  · have hu := State.applyJoin_self (s := s.withJoin (d, some lim)) (lim := lim) hd
    rw [hu] at ht
    refine ⟨_, ht, rfl, rfl, rfl, fun h => absurd hd h, fun _ => ⟨?_, ?_⟩⟩
    · simp only [State.modFab, State.setF, State.modGate, State.withJoin]
    · exact (State.modFab_getF _ _ _ _).trans (State.getF_setF_same _ R.LCH.FABRIC_ID.JOINED 0 1)
  · have hu := State.applyJoin_other (s := s.withJoin (d, some lim)) (lim := lim) hd
    rw [hu] at ht hpartner
    obtain ⟨k, hk, -⟩ := hpartner d
    rw [ht, State.partner_modPartner, if_pos rfl] at hk
    refine ⟨_, ht, rfl, rfl, rfl, fun _ => ⟨?_, k, hk⟩, fun h => absurd h hd⟩
    simp only [State.modFab, State.modPartner, State.modGate, State.withJoin]

/-- A leave without marks, none waiting (R255, R256). -/
theorem State.queueJoin_leave (d : Nat) (hm : s.marks = false) (hj : s.fab.joins = []) : ∃ t, s.queueJoin (d, none) = t ∧
    t.fab.members = (s.fab.members.filter fun m => m.1 != d) ∧
    (d ≠ s.devId → t = { s with fab := t.fab } ∧ t.partner d = {}) ∧
    (d = s.devId → t = { s with fab := t.fab, regs := t.regs } ∧ t.getF R.LCH.FABRIC_ID.JOINED 0 = 0) := by
  obtain ⟨⟨out, tags, ps, ht⟩, hpartner⟩ := State.queueJoin_atOnce (s := s) (d, none) hm hj
  by_cases hd : d = s.devId
  · have hu := State.applyLeave_self (s := s.withJoin (d, none)) hd
    rw [hu] at ht
    refine ⟨_, ht, rfl, fun h => absurd hd h, fun _ => ⟨?_, ?_⟩⟩
    · simp only [State.modFab, State.setF, State.withJoin]
    · exact (State.modFab_getF _ _ _ _).trans (State.getF_setF_same _ R.LCH.FABRIC_ID.JOINED 0 0)
  · have hu := State.applyLeave_other (s := s.withJoin (d, none)) hd
    rw [hu] at ht hpartner
    obtain ⟨k, hk, hst⟩ := hpartner d
    rw [State.partner_modPartner, if_pos rfl] at hk hst
    rw [hst rfl, ht] at hk
    refine ⟨_, ht, rfl, fun _ => ⟨?_, hk⟩, fun h => absurd h hd⟩
    simp only [State.modFab, State.modPartner, State.withJoin]

end

/-! ### PLANE_JOIN and PLANE_LEAVE -/

section
variable (s : State) (q : JoinReq)

theorem State.joinRefusal_id (h : 4096 ≤ q.id) : s.joinRefusal q = some 1 := if_pos (by simp [h])

theorem State.joinRefusal_used (h : q.id < 2048) (hused : (s.fab.members.any fun m => m.1 == q.id) = true) :
    s.joinRefusal q = some 2 := by
  have h4 : ¬ 4096 ≤ q.id := by omega
  have h2 : ¬ 2048 ≤ q.id := by omega
  simp [State.joinRefusal, h4, h2, hused]

theorem exec_planeJoin_refused {cause : Nat} (h : s.joinRefusal q = some cause) : ∃ (r : Report), exec (.planeJoin q) s =
    .next { s with errs := { s.errs with reports := s.errs.reports ++ [r] } } ∧ r.cls = 6 ∧ r.code = 5 ∧
      r.detail = q.id % 4096 + cause * 2 ^ 16 := by
  have hexec : exec (.planeJoin q) s = execPlaneJoin q s := rfl
  rw [hexec, execPlaneJoin, h]
  exact ⟨_, rfl, rfl, rfl, rfl⟩

/-- The state with what a join says of the mirrored-pair licence. -/
def State.noteLicence : State :=
  s.modFab fun f => { f with pairLic := (f.pairLic.filter (· != q.id)) ++ if q.lic then [q.id] else [] }

theorem exec_planeJoin_accepted (h : s.joinRefusal q = none) :
    exec (.planeJoin q) s = .next ((s.noteLicence q).queueJoin (q.id, some q.limit)) := by
  have hexec : exec (.planeJoin q) s = execPlaneJoin q s := rfl
  rw [hexec, execPlaneJoin, h]
  rfl

theorem exec_planeLeave_member (dev : Fin 4096) (h : (s.fab.members.any fun m => m.1 == dev.val) = true) :
    exec (.planeLeave dev) s = .next (s.queueJoin (dev.val, none)) := congrArg Host.Outcome.next (if_pos h)

theorem exec_planeLeave_other (dev : Fin 4096) (h : (s.fab.members.any fun m => m.1 == dev.val) = false) :
    exec (.planeLeave dev) s = .next s := congrArg Host.Outcome.next (if_neg (by simp [h]))

end

/-! ### Job tags (R261) -/

/-- The tag that the root gives next, where one is free. -/
def lowestFree (tags : List TagRec) : Option Nat :=
  ((List.range 65535).map (· + 1)).find? fun n => !tags.any fun t => t.tag == n

/-- It is the tag that no record holds, below which every one is held. -/
theorem lowestFree_eq_some {tags : List TagRec} {n : Nat} (h0 : 0 < n) (h1 : n < 65536) (hfree : ∀ t ∈ tags, t.tag ≠ n)
    (hheld : ∀ k, 0 < k → k < n → ∃ t ∈ tags, t.tag = k) : lowestFree tags = some n := by
  have hn : n - 1 + 1 = n := by omega
  rw [lowestFree, List.find?_map, Option.map_eq_some_iff]
  refine ⟨n - 1, List.find?_range_eq_some.2 ⟨?_, ?_, fun j hj => ?_⟩, hn⟩
  · simpa [hn] using hfree
  · exact List.mem_range.2 (by omega)
  · obtain ⟨t, ht, htag⟩ := hheld (j + 1) (by omega) (by omega)
    simpa using ⟨t, ht, htag⟩

section
variable {s : State} {dev : Fin 4096} {hash : List Byte} {ident : Nat} {given : Fin 65536}

/-- The record of a tag that one more device uses. -/
def TagRec.withDev (t : TagRec) (dev : Nat) : TagRec := { t with devs := if t.devs.contains dev then t.devs else t.devs ++ [dev] }

theorem TagRec.withDev_devs (t : TagRec) (dev : Nat) : (t.withDev dev).devs.contains dev = true := by
  unfold TagRec.withDev
  split_ifs with h
  · exact h
  · simp

theorem State.giveTag_held {g : TagRec} (dev : Nat) (h : s.fab.tags.find? (fun t => t.hash == hash && t.ident == ident) = some g) :
    s.giveTag dev hash ident =
      (s.modFab fun f => { f with tags := f.tags.map fun x => if x.tag = g.tag then g.withDev dev else x }, g.tag) := by
  unfold State.giveTag
  rw [h]
  rfl

theorem State.giveTag_new {n : Nat} (dev : Nat) (h : s.fab.tags.find? (fun t => t.hash == hash && t.ident == ident) = none)
    (hn : lowestFree s.fab.tags = some n) :
    s.giveTag dev hash ident = (s.modFab fun f => { f with tags := f.tags ++ [⟨n, hash, ident, [dev]⟩] }, n) := by
  unfold lowestFree at hn
  unfold State.giveTag
  rw [h, hn]

theorem State.giveTag_full (dev : Nat) (h : s.fab.tags.find? (fun t => t.hash == hash && t.ident == ident) = none)
    (hn : lowestFree s.fab.tags = none) :
    s.giveTag dev hash ident = (s, 0) := by
  unfold lowestFree at hn
  unfold State.giveTag
  rw [h, hn]

theorem State.giveTag_devId (dev : Nat) : (s.giveTag dev hash ident).1.devId = s.devId := by
  cases h : s.fab.tags.find? (fun t => t.hash == hash && t.ident == ident) with
  | some g => rw [State.giveTag_held dev h]; exact State.modFab_getF ..
  | none =>
    cases hn : lowestFree s.fab.tags with
    | some n => rw [State.giveTag_new dev h hn]; exact State.modFab_getF ..
    | none => rw [State.giveTag_full dev h hn]

/-- At the root, a request without a tag is given one, and this device uses its own. -/
theorem exec_jobTagRequest_root (hr : s.isRoot = true) (hg : given.val = 0) : let g := s.giveTag dev hash ident
    exec (.jobTagRequest dev hash ident given) s =
      .next (if dev.val = s.devId ∧ g.2 ≠ 0 then g.1.useTag hash ident g.2 else g.1) := by
  have hexec : exec (.jobTagRequest dev hash ident given) s = execJobTagRequest dev hash ident given s := rfl
  simp [hexec, execJobTagRequest, hr, hg, State.giveTag_devId]

theorem exec_jobTagRequest_elsewhere (hr : s.isRoot = false) : exec (.jobTagRequest dev hash ident given) s =
    .next (if dev.val = s.devId ∧ given.val ≠ 0 then s.useTag hash ident given else s) := by
  have hexec : exec (.jobTagRequest dev hash ident given) s = execJobTagRequest dev hash ident given s := rfl
  simp [hexec, execJobTagRequest, hr]

/-- A job of another device that holds a tag keeps it. -/
theorem exec_jobTagRequest_held {g : TagRec} (hr : s.isRoot = true) (hg : given.val = 0) (hd : dev.val ≠ s.devId)
    (h : s.fab.tags.find? (fun t => t.hash == hash && t.ident == ident) = some g) : ∃ (t : State),
    exec (.jobTagRequest dev hash ident given) s = .next t ∧ t = { s with fab := { s.fab with tags := t.fab.tags } } ∧
    t.fab.tags.map (·.tag) = s.fab.tags.map (·.tag) ∧ ∃ h ∈ t.fab.tags, h.tag = g.tag ∧ h.devs.contains dev.val = true := by
  have hexec := exec_jobTagRequest_root (dev := dev) (hash := hash) (ident := ident) hr hg
  rw [State.giveTag_held _ h] at hexec
  refine ⟨_, hexec.trans (congrArg Host.Outcome.next (if_neg fun hboth => hd hboth.1)), rfl, ?_, ?_⟩
  · refine (List.map_map ..).trans (List.map_congr_left fun x _ => ?_)
    simp only [Function.comp_apply]
    split_ifs with hx
    · exact hx.symm
    · rfl
  · exact ⟨g.withDev dev, List.mem_map.2 ⟨g, List.mem_of_find?_eq_some h, if_pos rfl⟩, rfl, g.withDev_devs dev⟩

/-- A job of another device that holds none takes the lowest free tag. -/
theorem exec_jobTagRequest_new {n : Nat} (hr : s.isRoot = true) (hg : given.val = 0) (hd : dev.val ≠ s.devId)
    (h : s.fab.tags.find? (fun t => t.hash == hash && t.ident == ident) = none) (h0 : 0 < n) (h1 : n < 65536)
    (hfree : ∀ t ∈ s.fab.tags, t.tag ≠ n) (hheld : ∀ k, 0 < k → k < n → ∃ t ∈ s.fab.tags, t.tag = k) :
    exec (.jobTagRequest dev hash ident given) s =
      .next { s with fab := { s.fab with tags := s.fab.tags ++ [⟨n, hash, ident, [dev.val]⟩] } } := by
  have hexec := exec_jobTagRequest_root (dev := dev) (hash := hash) (ident := ident) hr hg
  rw [State.giveTag_new _ h (lowestFree_eq_some h0 h1 hfree hheld)] at hexec
  exact hexec.trans (congrArg Host.Outcome.next (if_neg fun hboth => hd hboth.1))

/-- A tag that a device reports is held by its job, for that device too. -/
theorem exec_jobTagRequest_given (hr : s.isRoot = true) (hg : given.val ≠ 0) : ∃ (t : State),
    exec (.jobTagRequest dev hash ident given) s = .next t ∧ t = { s with fab := { s.fab with tags := t.fab.tags } } ∧
    ∃ h ∈ t.fab.tags, h.tag = given.val ∧ h.hash = hash ∧ h.ident = ident ∧ h.devs.contains dev.val = true := by
  have hexec : exec (.jobTagRequest dev hash ident given) s = .next (s.reportTag dev hash ident given) :=
    if_pos (by simp [hr, hg])
  by_cases hany : (s.fab.tags.any fun t => t.tag == given.val && t.hash == hash && t.ident == ident) = true
  · obtain ⟨g, hmem, hown⟩ := List.any_eq_true.1 hany
    refine ⟨_, hexec.trans (congrArg Host.Outcome.next (if_pos hany)), rfl, _, List.mem_map_of_mem hmem, ?_⟩
    simp only [Bool.and_eq_true, beq_iff_eq] at hown
    obtain ⟨⟨htag, hhash⟩, hident⟩ := hown
    by_cases hdev : dev.val ∈ g.devs
    · simp [htag, hhash, hident, hdev]
    · simp [htag, hhash, hident, hdev]
  · exact ⟨_, hexec.trans (congrArg Host.Outcome.next (if_neg hany)), rfl, _,
      List.mem_append_right _ (List.mem_singleton_self _), rfl, rfl, rfl, by simp⟩

/-- What a list holds just once is one. -/
theorem eq_of_countP_eq_one {α : Type} {p : α → Bool} {l : List α} {a b : α} (h : l.countP p = 1) (ha : a ∈ l)
    (hpa : p a = true) (hb : b ∈ l) (hpb : p b = true) : a = b := by
  rw [List.countP_eq_length_filter, List.length_eq_one_iff] at h
  obtain ⟨c, hc⟩ := h
  have hac : a ∈ l.filter p := List.mem_filter.2 ⟨ha, hpa⟩
  have hbc : b ∈ l.filter p := List.mem_filter.2 ⟨hb, hpb⟩
  rw [hc, List.mem_singleton] at hac hbc
  rw [hac, hbc]

/-- JOB_TAG_RELEASE: a tag whose last device releases it is held no more, and other tags in use stay. -/
theorem exec_jobTagRelease (tag : Fin 65536) : ∃ (t : State), exec (.jobTagRelease dev tag) s = .next t ∧
    t = { s with fab := { s.fab with tags := t.fab.tags } } ∧
    (∀ g ∈ s.fab.tags, g.tag = tag.val → g.devs = [dev.val] → s.fab.tags.countP (fun x => x.tag == tag.val) = 1 →
      ∀ h ∈ t.fab.tags, h.tag ≠ tag.val) ∧
    ∀ g ∈ s.fab.tags, g.tag ≠ tag.val → g.devs ≠ [] → g ∈ t.fab.tags := by
  refine ⟨_, rfl, rfl, fun g hg htag hdevs hone h hh hsame => ?_, fun g hg htag hdevs => ?_⟩
  · obtain ⟨hmem, hused⟩ := List.mem_filter.1 hh
    obtain ⟨x, hx, rfl⟩ := List.mem_map.1 hmem
    by_cases hxtag : x.tag = tag.val
    · have hxg : x = g := eq_of_countP_eq_one hone hx (by simp [hxtag]) hg (by simp [htag])
      simp [hxg, htag, hdevs] at hused
    · rw [if_neg hxtag] at hsame
      exact hxtag hsame
  · exact List.mem_filter.2 ⟨List.mem_map.2 ⟨g, hg, if_neg htag⟩, by simpa using hdevs⟩

end

/-- Settles O33: each command by the lemma of its case above. -/
theorem planeCommands : Obligations.PlaneCommands := by
  unfold Obligations.PlaneCommands
  intro s
  refine ⟨fun q => ⟨s.joinRefusal_id q, s.joinRefusal_used q, fun _ => exec_planeJoin_refused s q,
      fun h => ⟨fun hm => ?joinWaits, fun hm hj => ?joinAtOnce⟩⟩,
    fun dev => ⟨exec_planeLeave_other s dev, fun h => ⟨fun hm => ?leaveWaits, fun hm hj => ?leaveAtOnce⟩⟩,
    exec_portSetUpdate s,
    fun dev hash ident given => ⟨fun hr hg hd => ⟨fun _ h => exec_jobTagRequest_held hr hg hd h,
      fun n h h0 h1 => exec_jobTagRequest_new hr hg hd h h0 h1⟩, fun hr hg hd => ?ownTag,
      exec_jobTagRequest_given, exec_jobTagRequest_elsewhere⟩,
    fun _ => exec_jobTagRelease⟩
  case joinWaits =>
    rw [exec_planeJoin_accepted s q h, State.queueJoin_marks (s := s.noteLicence q) _ hm]
    rfl
  case joinAtOnce =>
    obtain ⟨t, ht, hjoin⟩ := State.queueJoin_join (s := s.noteLicence q) q.id q.limit hm hj
    exact ⟨t, (exec_planeJoin_accepted s q h).trans (congrArg _ ht), hjoin⟩
  case leaveWaits =>
    rw [exec_planeLeave_member s dev h, State.queueJoin_marks _ hm]
    rfl
  case leaveAtOnce =>
    obtain ⟨t, ht, hleave⟩ := State.queueJoin_leave dev.val hm hj
    exact ⟨t, (exec_planeLeave_member s dev h).trans (congrArg _ ht), hleave⟩
  case ownTag =>
    intro g
    rw [exec_jobTagRequest_root hr hg]
    by_cases hnone : g.2 = 0
    · rw [if_pos hnone, if_neg fun hboth => hboth.2 hnone]
    · rw [if_neg hnone, if_pos ⟨hd, hnone⟩]

end Sys2Proof.Machine
end

section
/-! Proofs. The device at reset: what a table of all its places reads as, the bodies of signed objects (R388), and the
blaze map as shipped (R14, R384). -/

namespace Sys2Proof.Tab
variable {α : Type} [DecidableEq α]

/-- A table with every place below `n` written once. -/
theorem get_foldl_set_range (d : α) (f : Nat → α) (n k : Nat) :
    get d ((List.range n).foldl (fun t i => set d t i (f i)) []) k = if k < n then f k else d := by
  induction n with
  | zero => rfl
  | succ n ih =>
    rw [List.range_succ, List.foldl_append]
    simp only [List.foldl_cons, List.foldl_nil, get_set, ih]
    by_cases hk : k = n
    · simp [hk]
    · have : k < n + 1 ↔ k < n := by omega
      simp [hk, this]

end Sys2Proof.Tab

namespace Sys2Proof.Machine

/-! ### Signed objects (R388) -/

theorem length_padTo (n : Nat) (l : List Byte) : (padTo n l).length = n := by
  simp [padTo]

/-- Filling up with zeros leaves the bytes that were there. -/
theorem take_padTo {n : Nat} {l : List Byte} (h : l.length ≤ n) : (padTo n l).take l.length = l := by
  simp [padTo, List.take_take, h]

theorem le_ceilTo {m : Nat} (a : Nat) (hm : 0 < m) : a ≤ ceilTo m a := by
  have hdiv := Nat.div_add_mod (a + m - 1) m
  have hmod := Nat.mod_lt (a + m - 1) hm
  rw [ceilTo, ceilDiv, Nat.mul_comm]
  omega

theorem length_objHeader (type signer len serial : Nat) (key : List Byte) :
    (objHeader type signer len serial key).length = 128 := by
  simp [objHeader, length_padTo]

/-- The length field of a header. -/
theorem objLen_objHeader (type signer serial : Nat) {len : Nat} (key rest : List Byte) (h : len < 2 ^ 32) :
    objLen (objHeader type signer len serial key ++ rest) = len := by
  have hfront : (natLE 4 0x4F53574E ++ natLE 1 type ++ natLE 1 signer ++ natLE 2 0 ++ natLE 4 0).length = 0xC := by simp
  rw [objLen, fieldAt]
  simp only [objHeader, List.append_assoc] at hfront ⊢
  rw [← List.append_assoc (natLE 2 0), ← List.append_assoc (natLE 1 signer), ← List.append_assoc (natLE 1 type),
    ← List.append_assoc (natLE 4 0x4F53574E), List.drop_left' (by simp), List.take_left' (length_natLE 4 len), leNat_natLE]
  exact Nat.mod_eq_of_lt h

/-- The body of an object reads back from its bytes. -/
theorem objBody_object (type signer serial : Nat) (key sig : List Byte) {body : List Byte} (h : body.length < 2 ^ 32) :
    objBody (objHeader type signer body.length serial key ++ padTo (ceilTo 8 body.length) body ++ sig) = body := by
  have hle := le_ceilTo body.length (m := 8) (by decide)
  rw [objBody, List.append_assoc, objLen_objHeader _ _ _ _ _ h,
    List.drop_left' (length_objHeader type signer body.length serial key),
    List.take_append_of_le_length (by rw [length_padTo]; exact hle), take_padTo hle]

/-! ### The blaze map as shipped -/

theorem length_shipped_body : Blaze.shipped.body.length = 720 := by
  simp [Blaze.body, Blaze.shipped]

theorem objBody_shippedMap : objBody shippedMap = Blaze.shipped.body :=
  objBody_object 8 3 _ _ _ (by rw [length_shipped_body]; decide)

/-- The two standby clusters are two. -/
theorem shippedStandby_spec : shippedStandby.1 < 24 ∧ shippedStandby.2 < 24 ∧ shippedStandby.1 ≠ shippedStandby.2 := by
  have h1 := Config.standby.1.isLt
  have h2 := Config.standby.2.isLt
  simp only [shippedStandby]
  omega

theorem shipped_role {c : Nat} (h : c < 24) :
    Tab.get 2 Blaze.shipped.roles c = if c = shippedStandby.1 ∨ c = shippedStandby.2 then 1 else 0 := by
  simp [Blaze.shipped, Tab.get_foldl_set_range, h]

/-- A count over the places below `n` is the size of the set of those that are counted. -/
theorem countP_range_eq_card (p : Nat → Bool) (n : Nat) :
    (List.range n).countP p = ((Finset.range n).filter fun c => p c = true).card := by
  rw [List.countP_eq_length_filter, Finset.card_def, Finset.filter_val, Finset.range_val, Multiset.range,
    Multiset.filter_coe, Multiset.coe_card]
  simp

theorem countP_shipped_standby : (List.range 24).countP (fun c => Tab.get 2 Blaze.shipped.roles c == 1) = 2 := by
  obtain ⟨h1, h2, hne⟩ := shippedStandby_spec
  have hset : ((Finset.range 24).filter fun c => (Tab.get 2 Blaze.shipped.roles c == 1) = true) =
      {shippedStandby.1, shippedStandby.2} := by
    ext c
    simp only [Finset.mem_filter, Finset.mem_range, Finset.mem_insert, Finset.mem_singleton, beq_iff_eq]
    constructor
    · rintro ⟨hc, hrole⟩
      by_contra h
      rw [shipped_role hc, if_neg h] at hrole
      exact absurd hrole (by decide)
    · intro h
      have hc : c < 24 := by rcases h with rfl | rfl <;> assumption
      exact ⟨hc, by rw [shipped_role hc, if_pos h]⟩
  rw [countP_range_eq_card, hset, Finset.card_pair hne]

/-- Every cluster that is not standby is ranked. -/
theorem countP_shipped_ranked : (List.range 24).countP (fun c => Tab.get 2 Blaze.shipped.roles c == 0) = 22 := by
  have hsplit := List.length_eq_countP_add_countP (l := List.range 24) fun c => Tab.get 2 Blaze.shipped.roles c == 1
  have hranked : (List.range 24).countP (fun c => Tab.get 2 Blaze.shipped.roles c == 0) =
      (List.range 24).countP (fun c => decide ¬ (Tab.get 2 Blaze.shipped.roles c == 1) = true) := by
    refine List.countP_congr fun c hc => ?_
    rw [shipped_role (List.mem_range.1 hc)]
    split_ifs <;> simp
  rw [countP_shipped_standby, List.length_range, ← hranked] at hsplit
  omega

/-- Site `k` of row `r` of cluster `c` is out of service when it is the row's spare one. -/
theorem shipped_site {c r k : Nat} (hc : c < 24) (hr : r < 4) (hk : k < 7) :
    Tab.get 1 Blaze.shipped.sites (28 * c + 7 * r + k) =
      if k = (Config.spareSite c r).1 then (if (Config.spareSite c r).2 then 2 else 1) else 0 := by
  have hlt : 28 * c + 7 * r + k < 672 := by omega
  have hcl : (28 * c + 7 * r + k) / 28 = c := by omega
  have hrow : (28 * c + 7 * r + k) % 28 / 7 = r := by omega
  have hcol : (28 * c + 7 * r + k) % 7 = k := by omega
  simp only [Blaze.shipped, Tab.get_foldl_set_range, if_pos hlt, shippedSite, hcl, hrow, hcol]

theorem countP_shipped_sites {c r : Nat} (hc : c < 24) (hr : r < 4) :
    (List.range 7).countP (fun k => Tab.get 1 Blaze.shipped.sites (28 * c + 7 * r + k) == 0) = 6 := by
  have hspare : (Config.spareSite c r).1.val ∈ Finset.range 7 := Finset.mem_range.2 (Config.spareSite c r).1.isLt
  have hset : ((Finset.range 7).filter fun k => (Tab.get 1 Blaze.shipped.sites (28 * c + 7 * r + k) == 0) = true) =
      (Finset.range 7).erase (Config.spareSite c r).1 := by
    ext k
    simp only [Finset.mem_filter, Finset.mem_range, Finset.mem_erase, And.comm (a := k ≠ _)]
    refine and_congr_right fun hk => ?_
    rw [shipped_site hc hr hk]
    split_ifs <;> simp [*]
  rw [countP_range_eq_card, hset, Finset.card_erase_of_mem hspare, Finset.card_range]

/-! ### Registers and SVN floors at reset -/

theorem State.getF_reset (f : Fld) (i : Nat) : State.reset.getF f i = f.reset := Nat.zero_xor _

theorem State.reset_floorsFit : State.reset.floorsFit := fun cc t =>
  max_le (Nat.le_of_lt_succ (Config.svnFloor cc t).isLt) (Nat.zero_le _)

theorem State.reset_blaze (cc b : Nat) : ((State.reset.flash cc).bank b).blaze = shippedMap := by
  have hflash : State.reset.flash cc = Flash.shipped := ite_self _
  have hbank : Flash.shipped.bank b = shippedBank := ite_self _
  rw [hflash, hbank, shippedBank]

/-- Settles O57: the parts of the reset state by its definition, then what the blaze map as shipped holds. -/
theorem resetState : Obligations.ResetState := by
  unfold Obligations.ResetState
  refine ⟨rfl, State.reset_floorsFit, rfl, rfl, State.getF_reset, State.getF_reset _ _, State.getF_reset _ _,
    State.getF_reset _ _, State.getF_reset _ _, fun r _ => ⟨State.getF_reset _ _, rfl⟩, State.reset_blaze,
    objBody_shippedMap, rfl, rfl, countP_shipped_ranked, countP_shipped_standby, fun c r hc hr => countP_shipped_sites hc hr⟩

end Sys2Proof.Machine
end

section
/-! Proofs. The weight unit: the issue of WLD and WSWP, the landing of a tile in the shadow planes with its residue
column, and the exchange of the planes (R55, R67, R68, R81, R90, R104). -/

namespace Sys2Proof.Machine

/-! ### Issue of an instruction that draws free values -/

/-- A queued instruction may have drawn free values: the counter stands where its row left it. -/
theorem issue_queued_free {s : State} {site : Nat} {w : IWord} {op fr : Nat} {k : Run → CoreRes} (c : CoreSite) (f : Fly)
    (h : s.ready site w op) (hl : listedOpcode op = true) (hk : k (s.runAt site) = .ok { c := c, ev := [], fr := fr })
    (hf : c.fly = [f]) (hm : f.mv = none) (hst : c.st = .issuing) :
    issue s site w op k = { s.ran site c with free := fr } := by
  rw [issue_ok h hl hk]
  exact State.issueOk_queued (s := { s with free := fr }) c f hf hm hst

section
variable {s : State} {site : Fin 672} {w : IWord}

/-- WLD with accepted operands at an idle site: the instruction holds its tile in the weight unit (R67, R104). -/
theorem exec_wld_quiet {o : WldOps} (h : s.quiet site w 0x30) (ho : wldOps w (s.core site) = .inr o) :
    exec (.wld site w) s = .next { s.ran site { s.core site with
      pc := nextPc (s.core site).pc
      wldEver := true
      fly := [{ unit := .weight, opc := 0x30, pc := (s.core site).pc, ctr := completion w,
                rd := [⟨o.stg, o.ncode⟩, ⟨o.sstg, o.nscale⟩], wop := some (.load ((s.core site).tile o s.free)),
                ready := false }] } with free := s.free + 2 * o.kblk } := by
  refine congrArg Host.Outcome.next (issue_queued_free _ _ h.toready rfl ?_ rfl rfl (State.issuing_st h.issuing))
  have hroom : (s.core site).room .weight = true := by simp [CoreSite.room, CoreSite.inUnit, h.idle, CUnit.depth]
  unfold coreWld State.runAt
  simp only [ho]
  rw [Run.issueWith_idle _ _ _ _ h.idle h.engine (by simp)]
  simp [hroom, h.idle, CoreSite.advance]

/-- WSWP behind a WLD at an idle site: the swap stands in the weight unit (R68, R94). -/
theorem exec_wswp_quiet (h : s.quiet site w 0x31) (hw : (s.core site).wldEver = true) :
    exec (.wswp site w) s = .next (s.ran site { s.core site with
      pc := nextPc (s.core site).pc
      wswpEver := true
      fly := [{ unit := .weight, opc := 0x31, pc := (s.core site).pc, ctr := completion w, wop := some .swap,
                ready := false }] }) := by
  refine congrArg Host.Outcome.next (issue_queued _ _ h.toready rfl ?_ rfl rfl (State.issuing_st h.issuing))
  unfold coreWswp State.runAt
  simp only [hw, Bool.not_true, Bool.false_eq_true, if_false]
  rw [Run.queue_idle _ _ _ h.idle h.engine (by simp)]
  simp [Run.setC, CoreSite.advance, h.idle, hw]

end

/-! ### Landing and exchange -/

/-- A load at the head of the weight unit lands in free shadow planes (R67). -/
theorem CoreSite.landTile_of_load {c : CoreSite} {i : Nat} {p : Plane} (h : c.nextWop = some (i, .load p))
    (hs : c.shdFull = false) : c.landTile = some { c.wopDone i with shd := p.filled, shdFull := true } := by
  simp [CoreSite.landTile, h, hs]

/-- A swap at the head of the weight unit takes effect once every earlier MM has entered (R68, R90). -/
theorem CoreSite.swapPlanes_of_swap {c : CoreSite} {i : Nat} (h : c.nextWop = some (i, .swap))
    (he : ((c.fly.take i).all fun f => f.unit != .array || f.entered) = true) :
    c.swapPlanes = some { c.wopDone i with act := c.shd, shd := c.act, shdFull := false } := by
  simp only [CoreSite.swapPlanes, h, he, if_true]

theorem exec_weightLoadComplete_of_landTile {s : State} {site : Fin 672} {c : CoreSite}
    (h : (s.core site).landTile = some c) : exec (.weightLoadComplete site) s = .next (s.setCore site c) := by
  show execWeightLoadComplete site s = _
  simp only [execWeightLoadComplete, h]

theorem exec_planeSwap_of_swapPlanes {s : State} {site : Fin 672} {c : CoreSite} (waited : Nat)
    (h : (s.core site).swapPlanes = some c) :
    exec (.planeSwap site waited) s = .next ((s.setCore site c).addF R.CORE.LOAD_WAIT_CYC.CYCLES site waited) := by
  show execPlaneSwap site waited s = _
  simp only [execPlaneSwap, h]

/-! ### The residue column (R55) -/

/-- ρ_k sums the k-th residue of every column modulo 8,191. -/
theorem Plane.filled_rho_getElem? (p : Plane) {k : Nat} (hk : k < 32 * p.kblk) :
    p.filled.rho[k]? = some (((p.columns.map fun bs => (bs.flatMap DBlk.residues).getD k 0).sum) % 8191) := by
  have hr : (List.range (32 * p.kblk))[k]? = some k := List.getElem?_range hk
  simp only [Plane.filled, List.getElem?_map, hr, Option.map_some, List.map_map]
  rfl

/-- Settles O9: the issue of WLD and of WSWP, the landing with the residue column, and the exchange. -/
theorem weightInstructions : Obligations.WeightInstructions := by
  unfold Obligations.WeightInstructions
  intro s site w c
  refine ⟨fun o h ho => ⟨_, exec_wld_quiet h ho, rfl, rfl, rfl, rfl⟩,
    fun h hw => ⟨_, exec_wswp_quiet h hw, rfl, rfl, rfl, rfl⟩, fun i p hn hs => ⟨?_, fun k hk => p.filled_rho_getElem? hk⟩,
    fun i waited hn he => ?_⟩
  · exact exec_weightLoadComplete_of_landTile (CoreSite.landTile_of_load hn hs)
  · exact exec_planeSwap_of_swapPlanes waited (CoreSite.swapPlanes_of_swap hn he)

end Sys2Proof.Machine
end


section
/-! Proofs. The instructions that the sequencer executes at once on registers (R84, R96, R97, R103): the value of each
ALU function and condition as an unsigned or signed number, and what each instruction leaves of its core site. -/

namespace Sys2Proof.Machine

/-! ### Condition and function codes (R97) -/

theorem beq_eq_decide_toNat (a b : GWord) : (a == b) = decide (a.toNat = b.toNat) := by
  rw [Bool.beq_eq_decide_eq]
  exact decide_eq_decide.2 BitVec.toNat_inj.symm

/-- What each condition code compares. -/
theorem condHolds_values (a b : GWord) :
    condHolds 0 a b = some (decide (a.toNat = b.toNat)) ∧ condHolds 1 a b = some (decide (a.toNat ≠ b.toNat)) ∧
      condHolds 2 a b = some (decide (a.toInt < b.toInt)) ∧ condHolds 3 a b = some (decide (b.toInt ≤ a.toInt)) ∧
      condHolds 4 a b = some (decide (a.toNat < b.toNat)) ∧ condHolds 5 a b = some (decide (b.toNat ≤ a.toNat)) ∧
      ∀ n, 6 ≤ n → condHolds n a b = none := by
  refine ⟨?_, ?_, rfl, ?_, rfl, ?_, fun n hn => ?_⟩
  · simp [condHolds, beq_eq_decide_toNat]
  · simp [condHolds, bne, beq_eq_decide_toNat]
  · simp [condHolds, BitVec.slt, ← decide_not]
  · simp [condHolds, BitVec.ult, ← decide_not]
  · match n, hn with
    | _ + 6, _ => rfl

theorem aluFn_add (a b : GWord) : ∃ v, aluFn 0 a b = some v ∧ v.toNat = (a.toNat + b.toNat) % 2 ^ 64 :=
  ⟨_, rfl, BitVec.toNat_add a b⟩

theorem aluFn_sub (a b : GWord) : ∃ v, aluFn 1 a b = some v ∧ v.toNat = (2 ^ 64 + a.toNat - b.toNat) % 2 ^ 64 := by
  refine ⟨_, rfl, ?_⟩
  rw [BitVec.toNat_sub]
  have := b.isLt
  congr 1
  omega

theorem aluFn_mul (a b : GWord) : ∃ v, aluFn 2 a b = some v ∧ v.toNat = (a.toNat * b.toNat) % 2 ^ 64 :=
  ⟨_, rfl, BitVec.toNat_mul a b⟩

theorem aluFn_and (a b : GWord) : ∃ v, aluFn 3 a b = some v ∧ ∀ i, v.getLsbD i = (a.getLsbD i && b.getLsbD i) :=
  ⟨_, rfl, fun _ => BitVec.getLsbD_and⟩

theorem aluFn_or (a b : GWord) : ∃ v, aluFn 4 a b = some v ∧ ∀ i, v.getLsbD i = (a.getLsbD i || b.getLsbD i) :=
  ⟨_, rfl, fun _ => BitVec.getLsbD_or⟩

theorem aluFn_xor (a b : GWord) : ∃ v, aluFn 5 a b = some v ∧ ∀ i, v.getLsbD i = (a.getLsbD i != b.getLsbD i) :=
  ⟨_, rfl, fun _ => BitVec.getLsbD_xor⟩

theorem aluFn_shl (a b : GWord) : ∃ v, aluFn 6 a b = some v ∧ v.toNat = a.toNat * 2 ^ (b.toNat % 64) % 2 ^ 64 :=
  ⟨_, rfl, by rw [BitVec.toNat_shiftLeft, Nat.shiftLeft_eq]⟩

theorem aluFn_shr (a b : GWord) : ∃ v, aluFn 7 a b = some v ∧ v.toNat = a.toNat / 2 ^ (b.toNat % 64) :=
  ⟨_, rfl, by rw [BitVec.toNat_ushiftRight, Nat.shiftRight_eq_div_pow]⟩

theorem aluFn_sar (a b : GWord) : ∃ v, aluFn 8 a b = some v ∧ v.toInt = a.toInt / 2 ^ (b.toNat % 64) :=
  ⟨_, rfl, by rw [BitVec.toInt_sshiftRight, Int.shiftRight_eq_div_pow]; norm_cast⟩

theorem aluFn_min (a b : GWord) : ∃ v, aluFn 9 a b = some v ∧ v.toInt = min a.toInt b.toInt := by
  refine ⟨_, rfl, ?_⟩
  simp only [BitVec.slt, decide_eq_true_eq]
  split <;> omega

theorem aluFn_max (a b : GWord) : ∃ v, aluFn 10 a b = some v ∧ v.toInt = max a.toInt b.toInt := by
  refine ⟨_, rfl, ?_⟩
  simp only [BitVec.slt, decide_eq_true_eq]
  split <;> omega

theorem aluFn_undefined (a b : GWord) {n : Nat} (hn : 11 ≤ n) : aluFn n a b = none := by
  match n, hn with
  | _ + 11, _ => rfl

/-! ### The instructions -/

/-- An instruction whose row writes a register and goes on. -/
theorem issue_setG {s : State} {site : Nat} {w : IWord} {op d : Nat} {v : GWord} {k : Run → CoreRes} (h : s.ready site w op)
    (hl : listedOpcode op = true)
    (hk : k (s.runAt site) = .ok { s.runAt site with c := ((s.core site).setG d v).advance }) :
    ∃ (g : _), issue s site w op k = s.ran site { s.core site with g := g, pc := nextPc (s.core site).pc } ∧
      ∀ r, ({ s.core site with g := g } : CoreSite).greg r = if r = d ∧ r ≠ 0 then v else (s.core site).greg r := by
  refine ⟨((s.core site).setG d v).g, issue_ran _ h hl (hk.trans ?_) h.idle h.drain (State.issuing_st h.issuing), fun r => ?_⟩
  · rw [CoreSite.setG_eq]
    rfl
  · rw [← CoreSite.setG_eq]
    exact CoreSite.greg_setG _ _ _ _

section
variable {s : State} {site : Fin 672} {w : IWord}

theorem exec_nop_ready (h : s.ready site w 0x00) :
    exec (.nop site w) s = .next (s.ran site { s.core site with pc := nextPc (s.core site).pc }) :=
  congrArg Host.Outcome.next (issue_ran _ h rfl rfl h.idle h.drain (State.issuing_st h.issuing))

theorem exec_chkg_ready (h : s.ready site w 0xC1)
    (hc : condHolds (wf w 106 104) ((s.core site).greg (wf w 111 107)) (BitVec.ofInt 64 (sext 32 (wf w 31 0))) = some true) :
    exec (.chkg site w) s = .next (s.ran site { s.core site with pc := nextPc (s.core site).pc }) := by
  refine congrArg Host.Outcome.next (issue_ran _ h rfl ?_ h.idle h.drain (State.issuing_st h.issuing))
  simp only [seqChkg, State.runAt, hc]
  rfl

theorem seqAlu_ok {c : CoreSite} {v : GWord} {fr : Nat}
    (hv : aluFn (wf w 96 93) (c.greg (wf w 106 102)) (aluSecond w c) = some v) :
    seqAlu w { c := c, ev := [], fr := fr } = .ok { c := (c.setG (wf w 111 107) v).advance, ev := [], fr := fr } := by
  simp only [seqAlu, hv]

end

/-- Settles O3: NOP, SETI, ALU and CHKG at a ready site, then the table of function and condition codes. -/
theorem scalarInstructions : Obligations.ScalarInstructions := by
  unfold Obligations.ScalarInstructions
  refine ⟨fun s site w => ⟨exec_nop_ready, fun h => ?_, fun v h hv => ?_, exec_chkg_ready⟩, fun a b => ?_⟩
  · obtain ⟨g, hnext, hreg⟩ := issue_setG (k := seqSeti w) h rfl rfl
    exact ⟨g, congrArg Host.Outcome.next hnext, hreg⟩
  · obtain ⟨g, hnext, hreg⟩ := issue_setG h rfl (seqAlu_ok hv)
    exact ⟨g, congrArg Host.Outcome.next hnext, hreg⟩
  · exact ⟨aluFn_add a b, aluFn_sub a b, aluFn_mul a b, aluFn_and a b, aluFn_or a b, aluFn_xor a b, aluFn_shl a b,
      aluFn_shr a b, aluFn_sar a b, aluFn_min a b, aluFn_max a b, fun _ => aluFn_undefined a b, condHolds_values a b⟩

end Sys2Proof.Machine
end


section
/-! Proofs. Branches, calls and returns (R83, R97), and the fault of a word whose opcode R96 does not list, at an idle
site whose group runs no kernel (R94, R118, R319). -/

namespace Sys2Proof.Machine

/-! ### Branches -/

/-- A target within the address space is the branch's. -/
theorem branchTo_eq {pc t : Nat} {off : Int} (h : (pc : Int) + off = t) (ht : t < 16384) : branchTo pc off = some t := by
  unfold branchTo
  rw [h]
  exact if_pos ⟨by omega, by omega⟩

section
variable {s : State} {site : Fin 672} {w : IWord}

theorem exec_jmp_ready {t : Nat} (h : s.ready site w 0x02)
    (ht : ((s.core site).pc : Int) + sext 20 (wf w 111 92) = t) (hlt : t < 16384) :
    exec (.jmp site w) s = .next (s.ran site { s.core site with pc := t }) := by
  refine congrArg Host.Outcome.next (issue_ran _ h rfl ?_ h.idle h.drain (State.issuing_st h.issuing))
  simp only [seqJmp, Run.branch, State.runAt, branchTo_eq ht hlt, if_true]

theorem exec_br_ready {t : Nat} {b : Bool} (h : s.ready site w 0x03)
    (ht : ((s.core site).pc : Int) + sext 20 (wf w 98 79) = t) (hlt : t < 16384)
    (hc : condHolds (wf w 101 99) ((s.core site).greg (wf w 111 107)) ((s.core site).greg (wf w 106 102)) = some b) :
    exec (.br site w) s = .next (s.ran site { s.core site with pc := if b then t else nextPc (s.core site).pc }) := by
  refine congrArg Host.Outcome.next (issue_ran _ h rfl ?_ h.idle h.drain (State.issuing_st h.issuing))
  simp only [seqBr, Run.branch, State.runAt, hc, branchTo_eq ht hlt]
  cases b <;> rfl

theorem exec_loop_ready {t : Nat} (h : s.ready site w 0x04)
    (ht : ((s.core site).pc : Int) + sext 20 (wf w 106 87) = t) (hlt : t < 16384) :
    exec (.loop site w) s = .next (s.ran site
      { (s.core site).setG (wf w 111 107) ((s.core site).greg (wf w 111 107) - 1) with
        pc := if (s.core site).greg (wf w 111 107) - 1 = 0 then nextPc (s.core site).pc else t }) := by
  refine congrArg Host.Outcome.next (issue_ran _ h rfl ?_ ?_ ?_ ?_)
  · simp only [seqLoop, State.runAt, branchTo_eq ht hlt]
    rfl
  · simpa using h.idle
  · simpa using h.drain
  · simpa using State.issuing_st h.issuing

theorem exec_call_ready {t : Nat} (h : s.ready site w 0x05)
    (ht : ((s.core site).pc : Int) + sext 20 (wf w 111 92) = t) (hlt : t < 16384) (hr : (s.core site).ret.length < 8) :
    exec (.call site w) s = .next (s.ran site
      { s.core site with ret := nextPc (s.core site).pc :: (s.core site).ret, pc := t }) := by
  refine congrArg Host.Outcome.next (issue_ran _ h rfl ?_ h.idle h.drain (State.issuing_st h.issuing))
  simp only [seqCall, State.runAt, branchTo_eq ht hlt]
  exact if_neg (Nat.not_le.2 hr)

theorem exec_ret_ready {t : Nat} {r : List Nat} (h : s.ready site w 0x06) (hr : (s.core site).ret = t :: r) :
    exec (.ret site w) s = .next (s.ran site { s.core site with ret := r, pc := t }) := by
  refine congrArg Host.Outcome.next (issue_ran _ h rfl ?_ h.idle h.drain (State.issuing_st h.issuing))
  simp only [seqRet, State.runAt, hr]

end

/-! ### The fault of an instruction -/

/-- Fields of a page with a smaller number stand under smaller keys. -/
theorem Fld.key_lt_of_page_lt {f g : Fld} {i : Nat} (h : f.page < g.page) (hi : i < 1024) (ho : f.off < 4096)
    (hl : f.lo < 64) (j : Nat) : f.key i < g.key j := by
  unfold Fld.key
  omega

theorem Fld.key_ne_of_place {f g : Fld} (i : Nat) (h : 64 * f.off + f.lo ≠ 64 * g.off + g.lo) (hp : f.page = g.page) :
    f.key i ≠ g.key i := by
  unfold Fld.key
  rw [hp]
  omega

/-- CORE.SEQ_FAULT shows the address, the kind and the opcode, each cut to its width (R118). -/
theorem State.faultAt_seqFault (s : State) (site pc kind opc : Nat) :
    (s.faultAt site pc kind opc).getF R.CORE.SEQ_FAULT.FAULT_PC site = pc % 2 ^ 14 ∧
    (s.faultAt site pc kind opc).getF R.CORE.SEQ_FAULT.KIND site = kind % 2 ^ 4 ∧
    (s.faultAt site pc kind opc).getF R.CORE.SEQ_FAULT.OPCODE site = opc % 2 ^ 8 := by
  have hpk : R.CORE.SEQ_FAULT.FAULT_PC.key site ≠ R.CORE.SEQ_FAULT.KIND.key site := Fld.key_ne_of_place _ (by decide) rfl
  have hpo : R.CORE.SEQ_FAULT.FAULT_PC.key site ≠ R.CORE.SEQ_FAULT.OPCODE.key site := Fld.key_ne_of_place _ (by decide) rfl
  have hko : R.CORE.SEQ_FAULT.KIND.key site ≠ R.CORE.SEQ_FAULT.OPCODE.key site := Fld.key_ne_of_place _ (by decide) rfl
  unfold State.faultAt
  refine ⟨?_, ?_, State.getF_setF_same _ _ _ _⟩
  · rw [State.getF_setF_ne _ _ _ _ _ _ hpo, State.getF_setF_ne _ _ _ _ _ _ hpk]
    exact State.getF_setF_same _ _ _ _
  · rw [State.getF_setF_ne _ _ _ _ _ _ hko]
    exact State.getF_setF_same _ _ _ _

/-- A fault counts no instruction. -/
theorem State.faultAt_instrCnt (s : State) (site pc kind opc : Nat) :
    (s.faultAt site pc kind opc).getF R.CORE.INSTR_CNT.COUNT site = s.getF R.CORE.INSTR_CNT.COUNT site := by
  unfold State.faultAt
  rw [State.getF_setF_ne, State.getF_setF_ne, State.getF_setF_ne] <;> exact Fld.key_ne_of_place _ (by decide) rfl

@[simp] theorem State.faultAt_core (s : State) (site pc kind opc i : Nat) :
    (s.faultAt site pc kind opc).core i = s.core i := rfl

/-- A kernel fault's report names the site, the address and the content of CORE.SEQ_FAULT (R94, R293). -/
theorem State.faultReport_eq (s : State) (site pc opc : Nat) {kind : Nat} (h0 : kind ≠ 0) (h5 : kind ≠ 5) :
    s.faultReport site pc kind opc = s.reportSite site 4 kind 0x3FFF pc 0 0 (pc + kind * 2 ^ 16 + opc * 2 ^ 20) := by
  unfold State.faultReport
  rw [if_neg h5, if_neg h0]

/-- A core that issues with idle units stops at once, and its group with it. -/
theorem State.issueFault_idle {s : State} {site op : Nat} {k : SeqFault} (h : (s.core site).fly = []) :
    s.issueFault site op k (s.runAt site) =
      ((((s.setCore site { s.core site with st := .stopped, drain := .fault k, wait := .none }).faultAt site (s.core site).pc
          k.code op).faultReport site (s.core site).pc k.code op).setCore site
        { s.core site with st := .stopped, drain := .none, wait := .none }).groupStop (clusterOf site) := by
  have hcore (t : State) : (t.faultReport site (s.core site).pc k.code op).core site = t.core site := by
    unfold State.faultReport
    split <;> rfl
  unfold State.issueFault
  show State.afterDrain (State.pump (State.faultReport (State.faultAt (s.setCore site
    { s.core site with st := .stopped, drain := .fault k, wait := .none }) site (s.core site).pc k.code op) site
    (s.core site).pc k.code op) site) site = _
  rw [State.pump_idle _ _ (by simp [hcore, h])]
  unfold State.afterDrain
  simp [hcore, h]

/-- A cluster without a job partition stops alone; with no kernel under way no completion word is written (R319). -/
theorem State.groupStop_alone {s : State} {c : Nat} (hj : s.jobOf c = none) (hl : s.liveSites [c] = []) :
    s.groupStop c = (s.modCluster c fun x => { x with pend := [], stopped := true, want := none, recov := none }).setF
      R.CL.REPLAY_STATUS.STATE c 4 := by
  have hg : s.groupOf c = [c] := by
    unfold State.groupOf
    rw [hj]
  simp only [State.groupStop, hg, hl, each, List.foldl_cons, List.foldl_nil]

/-- A word that R96 does not list is an illegal instruction under any row. -/
theorem issue_unlisted {s : State} {site : Nat} {w : IWord} {op : Nat} (h : s.ready site w op)
    (hl : listedOpcode op = false) (row : Nat) (k : Run → CoreRes) :
    issue s site w row k = s.issueFault site op .illegal (s.runAt site) := by
  have hi := h.issuing
  have hw := h.word
  unfold issue
  simp [hi, hw, hl]
  rfl

/-- What an illegal instruction leaves at an idle site whose cluster runs no kernel of a job partition. -/
structure State.IllegalAt (s t : State) (site op : Nat) : Prop where
  core    : t.core site = { s.core site with st := .stopped, drain := .none, wait := .none }
  pc      : t.getF R.CORE.SEQ_FAULT.FAULT_PC site = (s.core site).pc % 2 ^ 14
  kind    : t.getF R.CORE.SEQ_FAULT.KIND site = 1
  opcode  : t.getF R.CORE.SEQ_FAULT.OPCODE site = op % 2 ^ 8
  count   : t.getF R.CORE.INSTR_CNT.COUNT site = s.getF R.CORE.INSTR_CNT.COUNT site
  report  : ∃ r ∈ t.errs.reports, r.cls = 4 ∧ r.code = 1 ∧ r.unit = wholeUnit 2 site ∧ r.pc = (s.core site).pc

theorem State.issueFault_illegalAt {s : State} {site op : Nat} (h : (s.core site).fly = []) (hs : site < 672)
    (hj : s.jobOf (clusterOf site) = none) (hl : s.liveSites [clusterOf site] = []) :
    s.IllegalAt (s.issueFault site op .illegal (s.runAt site)) site op := by
  have hcl : clusterOf site < 1024 := by
    unfold clusterOf
    omega
  have hne (f : Fld) (hf : f.page = 2) : f.key site ≠ R.CL.REPLAY_STATUS.STATE.key (clusterOf site) :=
    (Fld.key_lt_of_page_lt (by rw [hf]; decide) hcl (by decide) (by decide) site).ne'
  rw [State.issueFault_idle h, State.faultReport_eq _ _ _ _ (by decide) (by decide),
    State.groupStop_alone (by exact hj) (by exact hl)]
  obtain ⟨hpc, hkind, hopc⟩ := State.faultAt_seqFault
    (s.setCore site { s.core site with st := .stopped, drain := .fault .illegal, wait := .none }) site (s.core site).pc 1 op
  refine ⟨by simp, ?_, ?_, ?_, ?_, _, List.mem_append_right _ (List.mem_singleton.2 rfl), rfl, rfl, rfl, rfl⟩
  · rw [State.getF_setF_ne _ _ _ _ _ _ (hne _ rfl)]
    exact hpc
  · rw [State.getF_setF_ne _ _ _ _ _ _ (hne _ rfl)]
    exact hkind
  · rw [State.getF_setF_ne _ _ _ _ _ _ (hne _ rfl)]
    exact hopc
  · rw [State.getF_setF_ne _ _ _ _ _ _ (hne _ rfl)]
    exact State.faultAt_instrCnt _ _ _ _ _

/-- Whichever row an unlisted word is given to, the site stops on an illegal instruction. -/
theorem exec_unlisted {s : State} {site : Fin 672} {w : IWord} {op : Nat} (h : s.ready site w op) (hl : listedOpcode op = false)
    (hill : s.IllegalAt (s.issueFault site op .illegal (s.runAt site)) site op) :
    ∀ i ∈ ([.nop, .fin, .jmp, .br, .loop, .call, .ret, .wait, .fence, .seti, .alu, .ldg, .stg, .movd, .movl, .movs, .movr, .send,
      .wld, .wswp, .mm, .accmrg, .accpart, .accrnd, .accclr, .chset, .chfin, .vop, .vfn, .vred, .vacc, .vcvt, .vld, .vst, .qnt,
      .smld, .smclr, .tsig, .twait, .tmark, .rmark, .chkeq, .chkg] : List (Fin 672 → IWord → Instr)),
      exec (i site w) s = .next (s.issueFault site op .illegal (s.runAt site)) := by
  have row {o : Nat} {k : Run → CoreRes} :
      (Host.Outcome.next (issue s site w o k) : Ans) = .next (s.issueFault site op .illegal (s.runAt site)) :=
    congrArg Host.Outcome.next (issue_unlisted h hl o k)
  have mm : execMm site w s = .next (s.issueFault site op .illegal (s.runAt site)) := by
    have hp : ((s.issueFault site op .illegal (s.runAt site)).core site).passes = (s.core site).passes := by
      rw [hill.core]
    simp only [execMm, issue_unlisted h hl]
    exact if_pos hp
  have twait : execTwait site w s = .next (s.issueFault site op .illegal (s.runAt site)) := by
    have hop : (opcode w == 0xA1) = false := by
      rw [h.word]
      exact beq_eq_false_iff_ne.2 fun ho => by simp [ho, listedOpcode] at hl
    simp only [execTwait, issue_unlisted h hl, hop, Bool.and_false]
    rfl
  simp only [List.forall_mem_cons]
  exact ⟨row, row, row, row, row, row, row, row, row, row, row, row, row, row, row, row, row, row, row, row, mm, row, row,
    row, row, row, row, row, row, row, row, row, row, row, row, row, row, row, twait, row, row, row, row, by simp⟩

theorem opcode_lt (w : IWord) : opcode w < 2 ^ 8 := Nat.mod_lt _ (Nat.two_pow_pos _)

/-- Settles O4: each branch at a ready site, then the illegal instruction. -/
theorem branchInstructions : Obligations.BranchInstructions := by
  unfold Obligations.BranchInstructions
  refine ⟨fun s site w => ⟨fun t => exec_jmp_ready, fun t b => exec_br_ready, fun t => exec_loop_ready,
    fun t => exec_call_ready, fun t r => exec_ret_ready⟩, fun s site w op h hl hpc hj hlive i hi => ?_⟩
  have hill := State.issueFault_illegalAt (op := op) h.idle site.isLt hj hlive
  have hop : op % 2 ^ 8 = op := Nat.mod_eq_of_lt (h.word ▸ opcode_lt w)
  refine ⟨_, exec_unlisted h hl hill i hi, ?_, ?_, ?_, hill.kind, hill.opcode.trans hop, hill.count, hill.report⟩
  · rw [hill.core]
  · rw [hill.core]
  · rw [hill.pc, Nat.mod_eq_of_lt hpc]

end Sys2Proof.Machine
end


section
/-! Proofs. What the memory operations leave alone: the core sites and what stands in the mesh (R192 to R216). -/

namespace Sys2Proof.Machine

/-- A part that each step of a fold leaves alone is left alone by the fold. -/
theorem foldl_frame {α β γ : Type} (part : β → γ) {f : β → α → β} (h : ∀ x a, part (f x a) = part x) (l : List α) (x : β) :
    part (l.foldl f x) = part x := by
  induction l generalizing x with
  | nil => rfl
  | cons a l ih => exact (ih (f x a)).trans (h x a)

theorem each_frame {α β : Type} (part : State → β) (l : List α) (s : State) (f : State → α → State)
    (h : ∀ s a, part (f s a) = part s) : part (each l s f) = part s := foldl_frame part h l s

/-- The core sites, and the mesh with its receive buffers: no part of the device's memory. -/
def State.tiles (s : State) : Tab CoreSite × Mesh := (s.cores, s.mesh)

theorem State.core_of_tiles {s t : State} (h : t.tiles = s.tiles) (i : Nat) : t.core i = s.core i := by
  have hc : t.cores = s.cores := congrArg Prod.fst h
  rw [State.core, hc, State.core]

theorem State.routeFill_of_tiles {s t : State} (h : t.tiles = s.tiles) (c n : Nat) : t.routeFill c n = s.routeFill c n := by
  have hm : t.mesh = s.mesh := congrArg Prod.snd h
  rw [State.routeFill, hm, State.routeFill]

@[simp] theorem State.clearPoison_tiles (s : State) (k : Nat) : (s.clearPoison k).tiles = s.tiles := by
  unfold State.clearPoison
  split <;> rfl

@[simp] theorem State.writeEntry_tiles (s : State) (e : GEntry) : (s.writeEntry e).tiles = s.tiles :=
  each_frame State.tiles _ _ _ fun _ _ => State.clearPoison_tiles _ _

@[simp] theorem State.flushLine_tiles (s : State) (sl ln : Nat) : (s.flushLine sl ln).tiles = s.tiles :=
  each_frame State.tiles _ _ _ State.writeEntry_tiles

@[simp] theorem State.flushRange_tiles (s : State) (a n : Nat) : (s.flushRange a n).tiles = s.tiles :=
  each_frame State.tiles _ _ _ fun s g => by split <;> simp

@[simp] theorem State.modDeck_tiles (s : State) (g : Deck → Deck) : (s.modDeck g).tiles = s.tiles := rfl

@[simp] theorem State.gatherWrite_tiles (s : State) (p b n : Nat) : (s.gatherWrite p b n).tiles = s.tiles := by
  have h (l : List GEntry) : (each l s State.writeEntry).tiles = s.tiles := each_frame State.tiles _ _ _ State.writeEntry_tiles
  unfold State.gatherWrite
  dsimp only
  split
  · split <;> simp [h]
  · split
    · split <;> simp [h]
    · simp [h]

@[simp] theorem State.wholeLine_tiles (s : State) (b : Nat) : (s.wholeLine b).tiles = s.tiles :=
  each_frame State.tiles _ _ _ fun _ _ => State.clearPoison_tiles _ _

@[simp] theorem State.writeSeg_tiles (s : State) (p a : Nat) (bs : List Byte) : (s.writeSeg p a bs).tiles = s.tiles := by
  unfold State.writeSeg
  split
  · rfl
  · dsimp only
    split
    · split
      · exact State.wholeLine_tiles _ _
      · exact State.gatherWrite_tiles _ _ _ _
    · exact each_frame State.tiles _ _ _ State.clearPoison_tiles

@[simp] theorem State.memWrite_tiles (s : State) (p a : Nat) (bs : List Byte) : (s.memWrite p a bs).tiles = s.tiles :=
  each_frame State.tiles _ _ _ fun _ _ => State.writeSeg_tiles _ _ _ _

@[simp] theorem State.atomicAdd_tiles (s : State) (p a v : Nat) : (s.atomicAdd p a v).tiles = s.tiles :=
  (State.memWrite_tiles _ _ _ _).trans (State.flushRange_tiles _ _ _)

@[simp] theorem State.countPoison_tiles (s : State) (l : List Nat) : (s.countPoison l).tiles = s.tiles :=
  each_frame State.tiles _ _ _ fun _ _ => by
    dsimp only
    split_ifs <;> rfl

@[simp] theorem State.meetPoison_tiles (s : State) (l : List Nat) : (s.meetPoison l).tiles = s.tiles :=
  (each_frame State.tiles _ _ _ fun _ _ => by split <;> rfl).trans (State.countPoison_tiles _ _)

@[simp] theorem State.reportBy_tiles (s : State) (c : Nat) (src : Option (Nat × Nat)) (cls code detail : Nat) :
    (s.reportBy c src cls code detail).tiles = s.tiles := by
  unfold State.reportBy
  split <;> rfl

@[simp] theorem State.refuse_tiles (s : State) (c : Nat) (wr : Bool) (src : Option (Nat × Nat)) :
    (s.refuse c wr src).tiles = s.tiles := by
  unfold State.refuse
  dsimp only
  split_ifs <;> exact (State.reportBy_tiles _ _ _ _ _ _).trans rfl

end Sys2Proof.Machine
end


section
/-! Proofs. WAIT and TWAIT with their stalls (R89, R95, R102), and the instructions that drain the units first: END,
FENCE, RMARK and TMARK (R96, R98, R116, R234, R300). -/

namespace Sys2Proof.Machine

/-! ### Stalls -/

/-- An instruction that leaves the sequencer in another state than ISSUING, with every unit idle. -/
theorem issue_leaves {s : State} {site : Nat} {w : IWord} {op : Nat} {k : Run → CoreRes} (c : CoreSite) (h : s.ready site w op)
    (hl : listedOpcode op = true) (hk : k (s.runAt site) = .ok { c := c, ev := [], fr := s.free }) (hf : c.fly = [])
    (hst : c.st ≠ .issuing) : issue s site w op k = (s.setCore site c).afterDrain site := by
  rw [issue_ok h hl hk]
  show (State.pump (if c.st = .issuing then (s.setCore site c).countInstr site else s.setCore site c) site).afterDrain site = _
  rw [if_neg hst, State.pump_idle _ _ (by simp [hf])]

/-- WAIT and TWAIT: the count is taken at once, or the site stalls (R89, R102). -/
theorem issue_wait {s : State} {site : Nat} {w : IWord} {op : Nat} {k : Run → CoreRes} {p : Prop} [Decidable p]
    {took : CoreSite} {st : SeqState} {wait : Waiting} (h : s.ready site w op) (hl : listedOpcode op = true)
    (hk : k (s.runAt site) = if p then .ok { s.runAt site with c := took.advance }
      else .ok { s.runAt site with c := { s.core site with st := st, wait := wait } })
    (htook : took.fly = [] ∧ took.drain = .none ∧ took.st = .issuing) (hst : st ≠ .issuing) :
    issue s site w op (waitFrom s k) = if p then s.ran site { took with pc := nextPc took.pc, waitAt := s.now }
      else s.setCore site { s.core site with st := st, wait := wait, waitAt := s.now } := by
  obtain ⟨hf, hd, hi⟩ := htook
  split_ifs at hk ⊢ with hp
  · refine issue_ran _ h hl ?_ hf hd hi
    simp only [waitFrom, hk]
    rfl
  · rw [issue_leaves { s.core site with st := st, wait := wait, waitAt := s.now } h hl ?_ h.idle hst]
    · exact State.afterDrain_none _ _ (by simpa using h.drain)
    · simp only [waitFrom, hk]
      rfl

theorem State.yieldSlice_none {s : State} {site : Nat} (h : (s.core site).lull = none) : s.yieldSlice site = s := by
  simp only [State.yieldSlice, h]

section
variable {s : State} {site : Fin 672} {w : IWord}

theorem exec_wait_ready (h : s.ready site w 0x07) :
    exec (.wait site w) s = .next (if wf w 108 93 ≤ (s.core site).ctr (wf w 111 109)
      then s.ran site { (s.core site).setCtr (wf w 111 109) ((s.core site).ctr (wf w 111 109) - wf w 108 93) with
        pc := nextPc (s.core site).pc, waitAt := s.now }
      else s.setCore site { s.core site with st := .inWait, wait := .ctr (wf w 111 109) (wf w 108 93), waitAt := s.now }) :=
  congrArg Host.Outcome.next (issue_wait (took := (s.core site).setCtr _ _) h rfl rfl
    ⟨h.idle, h.drain, State.issuing_st h.issuing⟩ (by decide))

theorem exec_twait_ready (h : s.ready site w 0xA1) :
    exec (.twait site w) s = .next ((if wf w 103 88 ≤ (s.core site).token (wf w 111 104)
      then s.ran site { (s.core site).setToken (wf w 111 104) ((s.core site).token (wf w 111 104) - wf w 103 88) with
        pc := nextPc (s.core site).pc, waitAt := s.now }
      else s.setCore site { s.core site with
        st := .inTwait, wait := .token (wf w 111 104) (wf w 103 88), waitAt := s.now }).deliverExcess site (wf w 111 104)) := by
  have hop : (s.issuing site && opcode w == 0xA1) = true := by simp [h.issuing, h.word]
  have hissue := issue_wait (k := seqTwait w) (took := (s.core site).setToken (wf w 111 104) _) h rfl rfl
    ⟨h.idle, h.drain, State.issuing_st h.issuing⟩ (by decide)
  show execTwait site w s = _
  simp only [execTwait, hop, if_true]
  rw [hissue]
  rfl

theorem exec_waitSatisfied_of_le {u n : Nat} (hst : (s.core site).st = .inWait) (hw : (s.core site).wait = .ctr u n)
    (hlull : (s.core site).lull = none) (hn : n ≤ (s.core site).ctr u) :
    exec (.waitSatisfied site) s = .next (s.ran site { (s.core site).setCtr u ((s.core site).ctr u - n) with
      st := .issuing, drain := .none, wait := .none, atMark := none, pc := nextPc (s.core site).pc }) := by
  show execWaitSatisfied site s = _
  simp only [execWaitSatisfied, hst, hw, if_neg (Nat.not_lt.2 hn), State.yieldSlice_none hlull]
  rfl

theorem exec_twaitSatisfied_of_le {k n : Nat} (hst : (s.core site).st = .inTwait) (hw : (s.core site).wait = .token k n)
    (hlull : (s.core site).lull = none) (hn : n ≤ (s.core site).token k) :
    exec (.twaitSatisfied site) s = .next ((s.ran site { (s.core site).setToken k ((s.core site).token k - n) with
      st := .issuing, drain := .none, wait := .none, atMark := none, pc := nextPc (s.core site).pc }).deliverExcess site k) := by
  show execTwaitSatisfied site s = _
  simp only [execTwaitSatisfied, hst, hw, if_neg (Nat.not_lt.2 hn), State.yieldSlice_none hlull]
  rfl

end

/-! ### The wait limit (R95) -/

@[simp] theorem State.complete_tiles (s : State) (site : Nat) (r : LaunchRec) (state code kind : Nat) :
    (s.complete site r state code kind).tiles = s.tiles := by
  unfold State.complete
  dsimp only
  split_ifs <;> simp

/-- A core that stops keeps its instructions in flight. -/
theorem State.stopCore_fly (s : State) (site i : Nat) : ((s.stopCore site).core i).fly = (s.core i).fly := by
  unfold State.stopCore
  split
  · rfl
  · next r _ =>
    have hc : (s.complete site r 3 (s.getF R.CORE.SEQ_FAULT.FAULT_PC site) (s.getF R.CORE.SEQ_FAULT.KIND site)).core i =
        s.core i := State.core_of_tiles (State.complete_tiles _ _ _ _ _ _) i
    rw [← hc]
    dsimp only
    rw [State.core_modCore]
    split_ifs with h1 h2 h2 <;> simp [State.popLaunch, h1]

theorem State.groupStop_fly (s : State) (c i : Nat) : ((s.groupStop c).core i).fly = (s.core i).fly := by
  unfold State.groupStop
  refine (each_frame (fun s => (s.core i).fly) _ _ _ ?_).trans
    (each_frame (fun s => (s.core i).fly) _ _ _ fun s j => State.stopCore_fly s j i)
  exact fun _ _ => rfl

/-- A sequencing fault of a stalled core with idle units stops it and its group. -/
theorem State.seqFault_idle {s : State} {site : Nat} (pc opc : Nat) (hst : (s.core site).st ≠ .stopped)
    (hf : (s.core site).fly = []) :
    (s.seqFault site pc opc).pump site = (((s.faultAt site pc 3 opc).faultReport site pc 3 opc).setCore site
      { s.core site with st := .stopped }).groupStop (clusterOf site) := by
  have hfault : s.seqFault site pc opc = (((s.faultAt site pc 3 opc).faultReport site pc 3 opc).setCore site
      { s.core site with st := .stopped }).groupStop (clusterOf site) := by
    have he : (s.core site).fly.isEmpty = true := List.isEmpty_iff.2 hf
    simp only [State.seqFault, if_neg hst, he, if_true]
    rfl
  rw [hfault, State.pump_idle]
  rw [State.groupStop_fly]
  simpa using hf

theorem exec_waitLimitExpiry_of_le {s : State} {site : Fin 672} {cycles : Nat} (hf : (s.core site).fly = [])
    (hn : 2 ^ (max 16 (s.getF R.CORE.SEQ_CTL.WAIT_LIMIT site)) ≤ cycles)
    (hst : (s.core site).st = .inWait ∨ (s.core site).st = .inTwait) :
    exec (.waitLimitExpiry site cycles) s =
      .next ((((s.faultAt site (s.core site).pc 3 (if (s.core site).st = .inWait then 0x07 else 0xA1)).faultReport site
        (s.core site).pc 3 (if (s.core site).st = .inWait then 0x07 else 0xA1)).setCore site
          { s.core site with st := .stopped }).groupStop (clusterOf site)) := by
  show execWaitLimitExpiry site cycles s = _
  simp only [execWaitLimitExpiry, if_neg (Nat.not_lt.2 hn)]
  obtain h | h := hst
  · simp only [h, if_true]
    rw [State.seqFault_idle _ _ (by simp [h]) hf]
  · simp only [h, reduceCtorEq, if_false]
    rw [State.seqFault_idle _ _ (by simp [h]) hf]

/-! ### Draining instructions -/

/-- An instruction that drains takes its step at once where every unit is idle (R96, R98, R116). -/
theorem issue_drainFor {s : State} {site : Nat} {w : IWord} {op : Nat} {k : Run → CoreRes} (d : Drain) (h : s.ready site w op)
    (hl : listedOpcode op = true) (hk : k (s.runAt site) = (s.runAt site).drainFor d) :
    issue s site w op k = (s.setCore site { s.core site with st := .draining, drain := d }).afterDrain site :=
  issue_leaves _ h hl hk h.idle (show SeqState.draining ≠ .issuing by decide)

section
variable {s : State} {site : Fin 672} {w : IWord}

/-- END with the units idle and no replay or reset waiting (R98, R234). -/
theorem exec_fin_ready {r : LaunchRec} (h : s.ready site w 0x01) (hr : s.run site = some r)
    (hw : (s.cluster (clusterOf site)).want = none) :
    exec (.fin site w) s = .next ((((s.ran site { s.core site with st := .idle }).memWrite (corePort site)
      (r.area + 8 * r.lcore) (natLE 8 (wf w 111 96 + 2 * 2 ^ 16 + r.seq * 2 ^ 32))).atomicAdd (corePort site) r.ctr 1).setRun
        site none) := by
  refine congrArg Host.Outcome.next ((issue_drainFor (.fin (wf w 111 96)) h rfl rfl).trans ?_)
  simp [State.afterDrain, h.idle, hw, hr, State.countInstr, State.complete, completionWord, State.setCore_setCore, State.ran,
    h.drain]

theorem exec_fence_ready (h : s.ready site w 0x08) :
    exec (.fence site w) s = .next (s.ran site
      { s.core site with st := .issuing, wait := .none, atMark := none, pc := nextPc (s.core site).pc }) := by
  refine congrArg Host.Outcome.next ((issue_drainFor .fence h rfl rfl).trans ?_)
  simp [State.afterDrain, h.idle, State.setCore_setCore, State.ran, CoreSite.goOn, h.drain]

@[simp] theorem State.setCore_ledgerAt (i : Nat) (c : CoreSite) (j n : Nat) (b : Bool) :
    (s.setCore i c).ledgerAt j n b = s.ledgerAt j n b := rfl

/-- RMARK stands at its mark; no record is written where the kernel's program gives no area (R116, R300). -/
theorem exec_rmark_ready_none (h : s.ready site w 0xB1)
    (hm : ∀ r j, s.run site = some r → s.job r.job = some j → j.markAddr (wf w 111 96 % 2) r.lcore = none) :
    exec (.rmark site w) s = .next (s.setCore site { s.core site with st := .draining, atMark := some (wf w 111 96) }) := by
  refine congrArg Host.Outcome.next ((issue_drainFor (.rmark (wf w 111 96)) h rfl rfl).trans ?_)
  simp only [State.afterDrain, State.core_setCore, if_true, h.idle, List.isEmpty_nil, Bool.not_true, Bool.false_eq_true,
    if_false, State.setCore_setCore, h.drain, State.setCore_run, State.jobOfSite]
  cases hr : s.run site with
  | none => rfl
  | some r =>
    cases hj : s.job r.job with
    | none => simp [hj]
    | some j => simp [hj, hm r j hr hj]

theorem exec_rmark_ready_some {r : LaunchRec} {j : Job} {a : Nat} (h : s.ready site w 0xB1) (hr : s.run site = some r)
    (hj : s.job r.job = some j) (ha : j.markAddr (wf w 111 96 % 2) r.lcore = some a) :
    exec (.rmark site w) s = .next ((s.setCore site
      { s.core site with st := .draining, atMark := some (wf w 111 96) }).memWrite (corePort site) a
        (markRecord (wf w 111 96) (nextPc (s.core site).pc) (s.core site))) := by
  refine congrArg Host.Outcome.next ((issue_drainFor (.rmark (wf w 111 96)) h rfl rfl).trans ?_)
  simp only [State.afterDrain, State.core_setCore, if_true, h.idle, List.isEmpty_nil, Bool.not_true, Bool.false_eq_true,
    if_false, State.setCore_setCore, h.drain, State.jobOfSite, State.setCore_run, hr, Option.bind_some, State.setCore_job, hj, ha]
  rfl

/-- TMARK of the designated core, with the units idle, comes to its mark at once. -/
theorem exec_tmark_ready (h : s.ready site w 0xB0) (hd : s.designated site = true) :
    exec (.tmark site w) s = .next ((s.setCore site { s.core site with st := .draining, drain := .tmark }).sendTmark site) := by
  refine congrArg Host.Outcome.next ((issue_drainFor .tmark h rfl ?_).trans ?_)
  · simp only [seqTmark, hd, if_true]
  · simp [State.afterDrain, h.idle]

theorem exec_tmark_new (h : s.ready site w 0xB0) (hd : s.designated site = true)
    (hl : s.ledgerAt site (s.core site).nTsig false = none) :
    exec (.tmark site w) s = .next (((s.setCore site { s.core site with
      st := .draining, atMark := some tmarkCode, nTsig := (s.core site).nTsig + 1 }).setLedger
        ⟨site, (s.core site).nTsig, false, .pending, 0, []⟩).modTally fun t => { t with incoming := t.incoming ++ [⟨some site⟩] }) := by
  rw [exec_tmark_ready h hd]
  simp [State.sendTmark, hl, State.setCore_setCore, h.drain]

/-- A repeated TMARK whose mark has completed goes on (R323). -/
theorem exec_tmark_done {e : LedgerEnt} (h : s.ready site w 0xB0) (hd : s.designated site = true)
    (hl : s.ledgerAt site (s.core site).nTsig false = some e) (he : e.out ≠ .pending) :
    exec (.tmark site w) s = .next (s.ran site { s.core site with
      st := .issuing, wait := .none, atMark := none, pc := nextPc (s.core site).pc, nTsig := (s.core site).nTsig + 1 }) := by
  rw [exec_tmark_ready h hd]
  simp [State.sendTmark, hl, he, State.modCore, State.setCore_setCore, h.drain, State.ran, CoreSite.goOn]

/-- A repeated TMARK whose mark is pending stands at it, held where the device is held at it (R284, R323). -/
theorem exec_tmark_pending {e : LedgerEnt} (h : s.ready site w 0xB0) (hd : s.designated site = true)
    (hl : s.ledgerAt site (s.core site).nTsig false = some e) (he : e.out = .pending) :
    exec (.tmark site w) s = .next (s.setCore site { s.core site with
      atMark := some tmarkCode, nTsig := (s.core site).nTsig + 1,
      st := (if s.tally.heldMark = some ⟨some site.val⟩ ∧ s.getF R.TLY.HOLD.HELD 0 = 1 then .held else .draining) }) := by
  rw [exec_tmark_ready h hd]
  by_cases hh : s.tally.heldMark = some ⟨some site.val⟩ ∧ s.getF R.TLY.HOLD.HELD 0 = 1
  · simp [State.sendTmark, hl, he, hh.1, hh.2, State.modCore, State.setCore_setCore, h.drain]
  · simp only [State.sendTmark, State.core_setCore, if_true, State.setCore_ledgerAt, hl, he, if_neg hh]
    refine (congrArg Host.Outcome.next (if_neg fun hb => hh ?_)).trans ?_
    · exact (Bool.and_eq_true_iff.1 hb).imp of_decide_eq_true of_decide_eq_true
    · rw [State.setCore_setCore, h.drain]

/-- On any other core TMARK is an illegal instruction (R94, R271). -/
theorem exec_tmark_illegal (h : s.ready site w 0xB0) (hd : s.designated site = false) :
    exec (.tmark site w) s = .next (s.issueFault site 0xB0 .illegal (s.runAt site)) := by
  refine congrArg Host.Outcome.next (issue_fault h rfl ?_)
  simp [seqTmark, hd]

end

/-- Settles O5: the stalls and their end, then the instructions that drain. -/
theorem waitInstructions : Obligations.WaitInstructions := by
  unfold Obligations.WaitInstructions
  refine ⟨fun s site w => ⟨exec_wait_ready, exec_twait_ready, fun _ _ => exec_waitSatisfied_of_le,
    fun _ _ => exec_twaitSatisfied_of_le, fun _ => exec_waitLimitExpiry_of_le⟩, fun s site w => ?_⟩
  exact ⟨fun _ => exec_fin_ready, exec_fence_ready, exec_rmark_ready_none, fun _ _ _ => exec_rmark_ready_some,
    exec_tmark_new, fun _ => exec_tmark_done, fun _ => exec_tmark_pending, exec_tmark_illegal⟩

end Sys2Proof.Machine
end


section
/-! Proofs. The move unit at an idle site: how an instruction that goes to it issues, what one pass of the unit makes of a
single instruction in flight, and the seven instructions that it runs (R88, R90, R99 to R103). -/

namespace Sys2Proof.Machine

/-! ### One instruction in the move unit -/

theorem State.ran_core (s : State) (site : Nat) (c : CoreSite) : (s.ran site c).core site = c := by
  simp [State.ran, State.countInstr]

theorem State.ran_core_eq (s : State) (site i : Nat) (c : CoreSite) :
    (s.ran site c).core i = if i = site then c else s.core i := by
  simp [State.ran, State.countInstr]

theorem State.modMesh_modCore (s : State) (g : Mesh → Mesh) (i : Nat) (f : CoreSite → CoreSite) :
    (s.modMesh g).modCore i f = (s.modCore i f).modMesh g := rfl

theorem State.modMesh_setCore (s : State) (g : Mesh → Mesh) (i : Nat) (c : CoreSite) :
    (s.modMesh g).setCore i c = (s.setCore i c).modMesh g := rfl

theorem State.ran_busy {c : CoreSite} (s : State) (site : Nat) (h : c.fly ≠ []) : ((s.ran site c).core site).fly ≠ [] := by
  rwa [State.ran_core]

/-- What is done to the core site after the issue is done to the site that the issue leaves. -/
theorem State.ran_setCore (s : State) (site : Nat) (c d : CoreSite) : (s.ran site c).setCore site d = s.ran site d := by
  rw [State.ran, State.ran, ← State.setCore_setCore s site c d]
  rfl

theorem State.ran_modCore (s : State) (site : Nat) (c : CoreSite) (g : CoreSite → CoreSite) :
    (s.ran site c).modCore site g = s.ran site (g c) := by
  rw [State.modCore, State.ran_core, State.ran_setCore]

/-- An instruction without events is in flight; the move unit and then the sequencer do what they can. -/
theorem issue_pump {s : State} {site : Nat} {w : IWord} {op : Nat} {k : Run → CoreRes} (c : CoreSite) (h : s.ready site w op)
    (hl : listedOpcode op = true) (hk : k (s.runAt site) = .ok { c := c, ev := [], fr := s.free }) (hst : c.st = .issuing) :
    issue s site w op k = ((s.ran site c).pump site).afterDrain site := by
  rw [issue_ok h hl hk]
  show (State.pump (if c.st = .issuing then (s.setCore site c).countInstr site else _) site).afterDrain site = _
  rw [if_pos hst]
  rfl

/-- The instruction that a move of opcode `op` puts in flight. -/
def moveFly (w : IWord) (op pc : Nat) (rd wr : List Rng) (mv : MoveOp) : Fly :=
  { unit := .move, opc := op, pc := pc, ctr := completion w, rd := rd, wr := wr, mv := some mv, ready := false }

/-- A move instruction whose ranges R85 accepts is in flight with the work it holds (R88). -/
theorem queueMove_quiet {s : State} {site : Nat} {w : IWord} {op : Nat} (rd wr : List Rng) (mv : MoveOp) (h : s.quiet site w op)
    (hr : rngsRd rd = true) (hw : rngsWr wr = true) :
    (s.runAt site).queueMove w rd wr mv = .ok
      { c := { s.core site with pc := nextPc (s.core site).pc, fly := [moveFly w op (s.core site).pc rd wr mv] }, ev := [], fr := s.free } := by
  unfold Run.queueMove
  rw [hr, hw, Run.queue_idle _ _ _ h.idle h.engine (by simp)]
  simp [State.runAt, CoreSite.advance, h.idle, moveFly, h.word]

/-- What the unit reaches acts: nothing else is in flight. -/
theorem State.pumpOne_acted {s t : State} {site : Nat} {f : Fly} {op : MoveOp} (h : (s.core site).fly = [f]) (hm : f.mv = some op)
    (hr : s.reach site 0 f op = .acted t) : s.pumpOne site = t := by
  simp [State.pumpOne, State.pumpFrom, h, hm, hr]

theorem State.pumpOne_holds {s t : State} {site : Nat} {f : Fly} {op : MoveOp} (h : (s.core site).fly = [f]) (hm : f.mv = some op)
    (hr : s.reach site 0 f op = .holds t) : s.pumpOne site = t := by
  simp [State.pumpOne, State.pumpFrom, h, hm, hr]

theorem State.pumpFrom_of_no_moves (s : State) (site k : Nat) (h : ∀ f ∈ (s.core site).fly, f.mv = none) (i : Nat) :
    s.pumpFrom site k i = s := by
  induction k generalizing i with
  | zero => rfl
  | succ k ih =>
    unfold State.pumpFrom
    cases hf : (s.core site).fly[i]? with
    | none => rfl
    | some f => simpa [h f (List.mem_of_getElem? hf)] using ih (i + 1)

/-- A move unit without work does nothing. -/
theorem State.pumpOne_of_no_moves (s : State) (site : Nat) (h : ∀ f ∈ (s.core site).fly, f.mv = none) : s.pumpOne site = s :=
  s.pumpFrom_of_no_moves site _ h 0

/-- The credits of the bytes that a MOVR took go to senders that do nothing with them (R227). -/
theorem State.pump_eq {s t : State} {site : Nat} (ht : s.pumpOne site = t)
    (hf : ∀ n, n < 64 → (t.routeFill (clusterOf site) n).length < (s.routeFill (clusterOf site) n).length →
      t.pumpOne (t.routeSender (clusterOf site) n) = t) : s.pump site = t := by
  have hstill (l : List Nat) (hl : ∀ n ∈ l, t.pumpOne (t.routeSender (clusterOf site) n) = t) :
      each l t (fun t n => t.pumpOne (t.routeSender (clusterOf site) n)) = t := by
    unfold each
    induction l with
    | nil => rfl
    | cons n l ih =>
      rw [List.foldl_cons, hl n (List.mem_cons_self ..)]
      exact ih fun m hm => hl m (List.mem_cons_of_mem _ hm)
  unfold State.pump
  rw [ht]
  refine hstill _ fun n hn => ?_
  obtain ⟨hn, hlt⟩ := List.mem_filter.1 hn
  exact hf n (List.mem_range.1 hn) (of_decide_eq_true hlt)

/-- Where no receive buffer has changed no sender goes on. -/
theorem State.pump_eq_of_fill {s t : State} {site : Nat} (ht : s.pumpOne site = t) (hf : t.mesh.fill = s.mesh.fill) :
    s.pump site = t := by
  refine State.pump_eq ht fun n _ hlt => ?_
  rw [State.routeFill, hf] at hlt
  exact absurd hlt (lt_irrefl _)

/-- The one instruction in flight is done with its work. -/
theorem State.moveDone_single {s : State} {site : Nat} {f : Fly} (ready : Bool) (h : (s.core site).fly = [f]) (hc : f.clash = []) :
    s.moveDone site 0 ready = s.setCore site { s.core site with fly := [{ f with mv := none, ready := ready }] } := by
  simp [State.moveDone, h, hc]
  rfl

/-- The state in which a move instruction that has issued waits for its unit. -/
def State.moving (s : State) (site : Nat) (w : IWord) (op : Nat) (rd wr : List Rng) (mv : MoveOp) : State :=
  s.ran site { s.core site with pc := nextPc (s.core site).pc, fly := [moveFly w op (s.core site).pc rd wr mv] }

section
variable {s : State} {site : Nat} {w : IWord} {op : Nat} {rd wr : List Rng} {mv : MoveOp}

theorem State.moving_core : (s.moving site w op rd wr mv).core site =
    { s.core site with pc := nextPc (s.core site).pc, fly := [moveFly w op (s.core site).pc rd wr mv] } := State.ran_core _ _ _

theorem State.moving_fly : ((s.moving site w op rd wr mv).core site).fly = [moveFly w op (s.core site).pc rd wr mv] := by
  rw [State.moving_core]

/-- The unit is done with the instruction: the core site is otherwise that of the issue. -/
theorem State.moving_done (ready : Bool) : (s.moving site w op rd wr mv).moveDone site 0 ready = s.ran site { s.core site with
    pc := nextPc (s.core site).pc
    fly := [{ moveFly w op (s.core site).pc rd wr mv with mv := none, ready := ready }] } := by
  rw [State.moveDone_single ready State.moving_fly rfl, State.moving_core, State.moving, State.ran_setCore]

/-- A move instruction issues, and what the unit makes of it stands (R88, R90). -/
theorem issue_move {t : State} {k : Run → CoreRes} (h : s.quiet site w op) (hl : listedOpcode op = true)
    (hk : k (s.runAt site) = (s.runAt site).queueMove w rd wr mv) (hr : rngsRd rd = true) (hw : rngsWr wr = true)
    (ht : (s.moving site w op rd wr mv).pump site = t) (hbusy : (t.core site).fly ≠ []) : issue s site w op k = t := by
  rw [issue_pump _ h.toready hl (hk.trans (queueMove_quiet rd wr mv h hr hw)) (State.issuing_st h.issuing)]
  show ((s.moving site w op rd wr mv).pump site).afterDrain site = t
  rw [ht, State.afterDrain_busy _ _ hbusy]

end

/-! ### MOVL -/

/-- Copying rows looks at local memory only. -/
theorem copyRows_frame (c : CoreSite) (src dst n sp dp pc : Nat) (fly : List Fly) (r k : Nat) :
    copyRows { c with pc := pc, fly := fly } src dst n sp dp r k = { copyRows c src dst n sp dp r k with pc := pc, fly := fly } := by
  induction k generalizing c r with
  | zero => rfl
  | succ k ih => exact ih (c.wrLm (dst + r * dp) (c.rdLm (src + r * sp) n)) (r + 1)

theorem exec_movl_quiet {s : State} {site : Fin 672} {w : IWord} {src dst n rows sp dp : Nat} (h : s.quiet site w 0x21)
    (esrc : src = (s.core site).la (wf w 111 88)) (edst : dst = (s.core site).la (wf w 87 64)) (en : n = wf w 63 48 + 1)
    (erows : rows = wf w 47 36 + 1) (esp : sp = wf w 35 18) (edp : dp = wf w 17 0)
    (hal : src % 8 = 0 ∧ dst % 8 = 0 ∧ n % 8 = 0 ∧ sp % 8 = 0 ∧ dp % 8 = 0)
    (hr : rngsRd (rowRngs src sp rows n) = true) (hw : rngsWr (rowRngs dst dp rows n) = true) :
    exec (.movl site w) s = .next (s.ran site { copyRows (s.core site) src dst n sp dp 0 rows with
      pc := nextPc (s.core site).pc
      fly := [{ moveFly w 0x21 (s.core site).pc (rowRngs src sp rows n) (rowRngs dst dp rows n)
        (.movl src dst n rows sp dp) with mv := none, ready := true }] }) := by
  refine congrArg Host.Outcome.next (issue_move (rd := rowRngs src sp rows n) (wr := rowRngs dst dp rows n)
    (mv := .movl src dst n rows sp dp) h rfl ?_ hr hw (State.pump_eq_of_fill ?_ rfl) ?_)
  · subst esrc edst en erows esp edp
    exact if_neg (by simp only [not_or, not_not]; exact hal)
  · refine State.pumpOne_acted State.moving_fly rfl (congrArg Reach.acted ?_)
    rw [State.moving, State.ran_modCore, copyRows_frame, State.moveDone_single true (by rw [State.ran_core]) rfl, State.ran_core,
      State.ran_setCore]
  · rw [State.ran_core]
    exact List.cons_ne_nil _ _

/-! ### MOVS -/

theorem packFit_congr {c d : CoreSite} (h : d.lm = c.lm) (la room k : Nat) : packFit d la room k = packFit c la room k := by
  induction k generalizing la room with
  | zero => rfl
  | succ k ih =>
    have hrd : d.rdLm la 96 = c.rdLm la 96 := by rw [CoreSite.rdLm, h, CoreSite.rdLm]
    simp only [packFit, hrd, ih]

/-- The bytes that a MOVS can put on its route now, and how many units they are: as far as the far buffer and the path into
the mesh have room (R227, R339). -/
def State.movsFit (s : State) (site la route len : Nat) (pack : Bool) : List Byte × Nat :=
  let p := s.routePeer (clusterOf site) route
  let room := min (s.routeRoom p.1 p.2) (128 * s.bytesFree (clusterOf site))
  if pack then packFit (s.core site) la room len
  else ((s.core site).rdLm la (16 * min len (room / 16)), min len (room / 16))

/-- A MOVS with units left puts what fits on its route, and stays in the unit with the rest. -/
theorem State.reach_movs {s : State} {site i la route len : Nat} {f : Fly} {pack : Bool} (hlen : len ≠ 0) :
    s.reach site i f (.movs la route len pack) = .holds (
      if (s.movsFit site la route len pack).2 = 0 then s
      else (s.routePut (clusterOf site) route (s.movsFit site la route len pack).1).modCore site fun c =>
        { c with fly := c.fly.modify i fun f => { f with mv := some (.movs
          (la + (if pack then 96 else 16) * (s.movsFit site la route len pack).2) route
          (len - (s.movsFit site la route len pack).2) pack) } }) := by
  unfold State.reach
  dsimp only
  rw [if_neg hlen]
  exact (apply_ite Reach.holds _ _ _).symm

theorem State.routePut_modCore (s : State) (c n i : Nat) (bs : List Byte) (g : CoreSite → CoreSite) :
    (s.routePut c n bs).modCore i g = (s.modCore i g).routePut c n bs := rfl

theorem State.moving_movsFit {s : State} {site op la route len : Nat} {w : IWord} {rd wr : List Rng} {mv : MoveOp} {pack : Bool} :
    (s.moving site w op rd wr mv).movsFit site la route len pack = s.movsFit site la route len pack := by
  simp only [State.movsFit, State.moving_core]
  congr 1
  refine packFit_congr ?_ _ _ _
  rfl

theorem exec_movs_quiet {s : State} {site : Fin 672} {w : IWord} {la route len : Nat} {pack : Bool} {bk : List Byte × Nat}
    (h : s.quiet site w 0x22) (ela : la = (s.core site).la (wf w 111 88)) (eroute : route = wf w 87 82)
    (elen : len = wf w 81 62 + 1) (epack : pack = wb w 112) (ebk : bk = s.movsFit site la route len pack) (hal : la % 16 = 0)
    (hr : rdOk la (lenBytes pack len) = true) (hroute : s.routeOk site route 0 = true) :
    ∃ f, exec (.movs site w) s = .next (if bk.2 = 0 then
          s.ran site { s.core site with pc := nextPc (s.core site).pc, fly := [f] }
        else (s.ran site { s.core site with pc := nextPc (s.core site).pc, fly := [f] }).routePut (clusterOf site) route bk.1) ∧
      f.unit = .move ∧ f.ready = false ∧ f.ctr = completion w ∧
      f.mv = some (.movs (la + (if pack then 96 else 16) * bk.2) route (len - bk.2) pack) := by
  let mv : MoveOp := .movs la route len pack
  let rest : MoveOp := .movs (la + (if pack then 96 else 16) * bk.2) route (len - bk.2) pack
  let f : Fly := { moveFly w 0x22 (s.core site).pc [⟨la, lenBytes pack len⟩] [] mv with mv := some rest }
  refine ⟨f, congrArg Host.Outcome.next ?_, rfl, rfl, rfl, rfl⟩
  have hreach := State.reach_movs (s := s.moving site w 0x22 [⟨la, lenBytes pack len⟩] [] mv) (site := site) (i := 0) (la := la)
    (route := route) (f := moveFly w 0x22 (s.core site).pc [⟨la, lenBytes pack len⟩] [] mv) (pack := pack)
    (show len ≠ 0 by omega)
  rw [State.moving_movsFit, ← ebk] at hreach
  have hone := State.pumpOne_holds State.moving_fly rfl hreach
  have hk : routed s site w 0 (coreMovs w) (s.runAt site) = (s.runAt site).queueMove w [⟨la, lenBytes pack len⟩] [] mv := by
    subst ela eroute elen epack
    simp only [routed, hroute, if_true, coreMovs]
    exact if_neg (not_not.2 hal)
  have hrng : rngsRd [⟨la, lenBytes pack len⟩] = true := by simpa [rngsRd] using hr
  by_cases hb : bk.2 = 0
  · rw [if_pos hb] at hone ⊢
    have hf : f = moveFly w 0x22 (s.core site).pc [⟨la, lenBytes pack len⟩] [] mv := by simp [f, rest, mv, hb, moveFly]
    rw [hf]
    exact issue_move h rfl hk hrng rfl (State.pump_eq_of_fill hone rfl)
      (State.ran_busy _ _ (List.cons_ne_nil _ _))
  · rw [if_neg hb] at hone ⊢
    have hput : (s.moving site w 0x22 [⟨la, lenBytes pack len⟩] [] mv).pumpOne site =
        (s.ran site { s.core site with pc := nextPc (s.core site).pc, fly := [f] }).routePut (clusterOf site) route bk.1 := by
      rw [hone, State.routePut_modCore, State.moving, State.ran_modCore]
      rfl
    exact issue_move h rfl hk hrng rfl (State.pump_eq_of_fill hput rfl) (State.ran_busy _ _ (List.cons_ne_nil _ _))

/-! ### MOVR -/

theorem State.reach_movr_take {s : State} {site i la route len : Nat} {f : Fly}
    (h : 16 * len ≤ (s.routeFill (clusterOf site) route).length) :
    s.reach site i f (.movr la route len) = .acted (((s.modMesh fun m => { m with
      fill := Tab.set [] m.fill (64 * clusterOf site + route) ((s.routeFill (clusterOf site) route).drop (16 * len)) }).modCore site
        fun c => c.wrLm la ((s.routeFill (clusterOf site) route).take (16 * len))).moveDone site i true) := by
  unfold State.reach
  exact if_pos h

theorem State.reach_movr_wait {s : State} {site i la route len : Nat} {f : Fly}
    (h : (s.routeFill (clusterOf site) route).length < 16 * len) : s.reach site i f (.movr la route len) = .holds s := by
  unfold State.reach
  exact if_neg (Nat.not_le.2 h)

theorem routed_movr {s : State} {site : Fin 672} {w : IWord} {la route len : Nat} (ela : la = (s.core site).la (wf w 111 88))
    (eroute : route = wf w 87 82) (elen : len = wf w 81 62 + 1) (hal : la % 16 = 0) (hroute : s.routeOk site route 1 = true) :
    routed s site w 1 (coreMovr w) (s.runAt site) = (s.runAt site).queueMove w [] [⟨la, 16 * len⟩] (.movr la route len) := by
  subst ela eroute elen
  simp only [routed, hroute, if_true, coreMovr]
  exact if_neg (not_not.2 hal)

/-- The unit of a core that a MOVR leaves done has nothing to do, and neither has its sender (R227). -/
theorem exec_movr_take {s : State} {site : Fin 672} {w : IWord} {la route len : Nat} (h : s.quiet site w 0x23)
    (ela : la = (s.core site).la (wf w 111 88)) (eroute : route = wf w 87 82) (elen : len = wf w 81 62 + 1) (hal : la % 16 = 0)
    (hw : wrOk la (16 * len) = true) (hroute : s.routeOk site route 1 = true)
    (hlen : 16 * len ≤ (s.routeFill (clusterOf site) route).length)
    (hsend : (s.core (s.routeSender (clusterOf site) route)).fly = []) :
    exec (.movr site w) s = .next ((s.ran site
      { (s.core site).wrLm la ((s.routeFill (clusterOf site) route).take (16 * len)) with
        pc := nextPc (s.core site).pc
        fly := [{ moveFly w 0x23 (s.core site).pc [] [⟨la, 16 * len⟩] (.movr la route len) with
          mv := none, ready := true }] }).modMesh fun m => { m with
            fill := Tab.set [] m.fill (64 * clusterOf site + route) ((s.routeFill (clusterOf site) route).drop (16 * len)) }) := by
  refine congrArg Host.Outcome.next (issue_move (rd := []) (wr := [⟨la, 16 * len⟩]) (mv := .movr la route len) h rfl
    (routed_movr ela eroute elen hal hroute) rfl (by simpa [rngsWr] using hw) (State.pump_eq ?_ ?_) ?_)
  · refine State.pumpOne_acted State.moving_fly rfl ((State.reach_movr_take (by exact hlen)).trans (congrArg Reach.acted ?_))
    rw [State.modMesh_modCore, State.moving, State.ran_modCore,
      State.moveDone_single true (by rw [State.modMesh_core, State.ran_core]; rfl) rfl, State.modMesh_core, State.ran_core,
      State.modMesh_setCore, State.ran_setCore]
    rfl
  · intro n _ hlt
    have hn : n = route := by
      by_contra hne
      have hkey : 64 * clusterOf site + n ≠ 64 * clusterOf site + route := by omega
      refine absurd hlt (Nat.not_lt.2 (le_of_eq ?_))
      simp only [State.routeFill, State.modMesh, Tab.get_set, if_neg hkey]
      rfl
    subst hn
    refine State.pumpOne_of_no_moves _ _ fun f hf => ?_
    rw [State.modMesh_core, State.ran_core_eq] at hf
    split_ifs at hf with hsame
    · obtain rfl := List.mem_singleton.1 hf
      rfl
    · have hf : f ∈ (s.core (s.routeSender (clusterOf site) n)).fly := hf
      rw [hsend] at hf
      exact absurd hf List.not_mem_nil
  · exact State.ran_busy _ _ (List.cons_ne_nil _ _)

theorem exec_movr_wait {s : State} {site : Fin 672} {w : IWord} {la route len : Nat} (h : s.quiet site w 0x23)
    (ela : la = (s.core site).la (wf w 111 88)) (eroute : route = wf w 87 82) (elen : len = wf w 81 62 + 1) (hal : la % 16 = 0)
    (hw : wrOk la (16 * len) = true) (hroute : s.routeOk site route 1 = true)
    (hlen : (s.routeFill (clusterOf site) route).length < 16 * len) :
    exec (.movr site w) s = .next (s.moving site w 0x23 [] [⟨la, 16 * len⟩] (.movr la route len)) :=
  congrArg Host.Outcome.next (issue_move h rfl (routed_movr ela eroute elen hal hroute) rfl (by simpa [rngsWr] using hw)
    (State.pump_eq_of_fill (State.pumpOne_holds State.moving_fly rfl (State.reach_movr_wait hlen)) rfl)
    (State.ran_busy _ _ (List.cons_ne_nil _ _)))

/-! ### CHKEQ -/

/-- Comparing two ranges: where they differ the check fails (R103). -/
theorem State.reach_chkeq (s : State) (site i a b n : Nat) (f : Fly) (stop : Bool) :
    s.reach site i f (.chkeq a b n stop) = .acted (
      if (s.core site).rdLm a n = (s.core site).rdLm b n then s.moveDone site i true
      else (if stop then (s.moveDone site i true).dropMoves site i else s.moveDone site i true).checkFail site f.pc stop) := by
  unfold State.reach
  simp only [beq_iff_eq]

/-- No move instruction stands behind the only one. -/
theorem State.ran_dropMoves (s : State) (site : Nat) (c : CoreSite) (f : Fly) (h : c.fly = [f]) :
    (s.ran site c).dropMoves site 0 = s.ran site c := by
  rw [State.dropMoves, State.ran_modCore]
  congr 1
  cases c
  simp_all

theorem State.checkFail_fly (s : State) (site pc i : Nat) (stop : Bool) :
    ((s.checkFail site pc stop).core i).fly = (s.core i).fly := by
  unfold State.checkFail
  dsimp only
  split
  · rfl
  · rw [State.core_modCore]
    split_ifs with h
    · subst h
      rfl
    · rfl

theorem State.checkFail_fill (s : State) (site pc : Nat) (stop : Bool) :
    (s.checkFail site pc stop).mesh.fill = s.mesh.fill := by
  unfold State.checkFail
  dsimp only
  split <;> rfl

theorem exec_chkeq_quiet {s : State} {site : Fin 672} {w : IWord} {a b n : Nat} (h : s.quiet site w 0xC0)
    (ea : a = (s.core site).la (wf w 111 88)) (eb : b = (s.core site).la (wf w 87 64)) (en : n = wf w 63 48 + 1)
    (ha : rdOk a n = true) (hb : rdOk b n = true) : ∃ f, exec (.chkeq site w) s =
      .next (if (s.core site).rdLm a n = (s.core site).rdLm b n then
          s.ran site { s.core site with pc := nextPc (s.core site).pc, fly := [f] }
        else (s.ran site { s.core site with pc := nextPc (s.core site).pc, fly := [f] }).checkFail site (s.core site).pc (wb w 112)) ∧
      f.unit = .move ∧ f.mv = none ∧ f.ready = true ∧ f.ctr = completion w := by
  let f : Fly := { moveFly w 0xC0 (s.core site).pc [⟨a, n⟩, ⟨b, n⟩] [] (.chkeq a b n (wb w 112)) with mv := none, ready := true }
  have hk : coreChkeq w (s.runAt site) = (s.runAt site).queueMove w [⟨a, n⟩, ⟨b, n⟩] [] (.chkeq a b n (wb w 112)) := by
    subst ea eb en
    rfl
  have hreach := State.reach_chkeq (s.moving site w 0xC0 [⟨a, n⟩, ⟨b, n⟩] [] (.chkeq a b n (wb w 112))) site 0 a b n
    (moveFly w 0xC0 (s.core site).pc [⟨a, n⟩, ⟨b, n⟩] [] (.chkeq a b n (wb w 112))) (wb w 112)
  rw [State.moving_core, State.moving_done, State.ran_dropMoves _ _ _ f rfl, ite_self] at hreach
  have hone := State.pumpOne_acted State.moving_fly rfl hreach
  refine ⟨f, congrArg Host.Outcome.next (issue_move h rfl hk (by simp [rngsRd, ha, hb]) rfl (State.pump_eq_of_fill hone ?_) ?_),
    rfl, rfl, rfl, rfl⟩
  · split_ifs
    · rfl
    · exact State.checkFail_fill _ _ _ _
  · split_ifs
    · exact State.ran_busy _ _ (List.cons_ne_nil _ _)
    · rw [State.checkFail_fly]
      exact State.ran_busy _ _ (List.cons_ne_nil _ _)

/-! ### MOVD -/

/-- What no row of a MOVD touches: the mesh, and each site's instructions in flight. -/
def State.flights (s : State) : Mesh × (Nat → List Fly) := (s.mesh, fun i => (s.core i).fly)

theorem State.flights_of_tiles {s t : State} (h : t.tiles = s.tiles) : t.flights = s.flights := by
  have hm : t.mesh = s.mesh := congrArg Prod.snd h
  simp only [State.flights, hm, State.core_of_tiles h]

theorem State.modCore_flights (s : State) (i : Nat) {g : CoreSite → CoreSite} (h : ∀ c, (g c).fly = c.fly) :
    (s.modCore i g).flights = s.flights := by
  have hfly (j : Nat) : ((s.modCore i g).core j).fly = (s.core j).fly := by
    rw [State.core_modCore]
    split_ifs with hj
    · rw [h, hj]
    · rfl
  simp only [State.flights, State.modCore_mesh, hfly]

theorem State.setFree_flights (s : State) (n : Nat) : ({ s with free := n } : State).flights = s.flights := rfl

theorem State.besideEngine_flights (s : State) (site : Nat) (out : Bool) (la a n : Nat) :
    (s.besideEngine site out la a n).flights = s.flights := by
  unfold State.besideEngine
  split
  · rfl
  · dsimp only
    split
    · exact (each_frame State.flights _ _ _ fun _ _ => (State.setFree_flights _ _).trans
        (State.flights_of_tiles (State.memWrite_tiles _ _ _ _))).trans
        (State.modCore_flights _ _ (by intro _; rfl))
    · exact each_frame State.flights _ _ _ fun _ _ => (State.setFree_flights _ _).trans <| State.modCore_flights _ _ (by intro _; rfl)

theorem State.movdRow_flights (s : State) (site pc : Nat) (out : Bool) (la : Nat) (dev : Int) (n : Nat) :
    (s.movdRow site pc out la dev n).1.flights = s.flights := by
  unfold State.movdRow
  dsimp only
  split
  · split
    · exact State.flights_of_tiles (State.refuse_tiles _ _ _ _)
    · exact (State.modCore_flights _ _ (by intro _; rfl)).trans (State.flights_of_tiles (State.refuse_tiles _ _ _ _))
  · split
    · exact (State.besideEngine_flights _ _ _ _ _ _).trans (State.flights_of_tiles (State.memWrite_tiles _ _ _ _))
    · split
      · exact (State.besideEngine_flights _ _ _ _ _ _).trans ((State.modCore_flights _ _ (by intro _; rfl)).trans
          (State.flights_of_tiles (State.flushRange_tiles _ _ _)))
      · exact State.flights_of_tiles ((State.meetPoison_tiles _ _).trans (State.flushRange_tiles _ _ _))

theorem State.movdRows_flights (s : State) (site pc : Nat) (out : Bool) (la lp : Nat) (dev : Int) (dp n r k : Nat) :
    (s.movdRows site pc out la lp dev dp n r k).1.flights = s.flights := by
  induction k generalizing s r with
  | zero => rfl
  | succ k ih =>
    have hrow := s.movdRow_flights site pc out (la + r * lp) (dev + ((r * dp : Nat) : Int)) n
    unfold State.movdRows
    split
    · next t ht => rwa [ht] at hrow
    · next t ht =>
      rw [ht] at hrow
      exact (ih t (r + 1)).trans hrow

/-- The rows of a MOVD move; where one meets poison the cluster partition is reset (R212, R314). -/
theorem State.reach_movd {s : State} {site i pc la lp dp rows n : Nat} {dev : Int} {out : Bool} {f : Fly} {u : State × Bool}
    (hpc : f.pc = pc) (hu : s.movdRows site pc out la lp dev dp n 0 rows = u) :
    s.reach site i f (.movd out la lp dev dp rows n) =
      .acted (if u.2 then u.1.clusterReset site else u.1.moveDone site i true) := by
  subst hpc hu
  unfold State.reach
  dsimp only
  split
  · next t ht => rw [ht]; rfl
  · next t ht => rw [ht]; rfl

/-- The local ranges of a MOVD: read when it writes device memory, written when it reads it (R99). -/
def movdRngs (out : Bool) (rs : List Rng) : List Rng × List Rng := if out then (rs, []) else ([], rs)

theorem coreMovd_eq {s : State} {site : Nat} {w : IWord} {la lp dp rows n : Nat} {dev : Int}
    (ela : la = (s.core site).la (wf w 111 88)) (elp : lp = bits ((s.core site).gn (wf w 82 78)) 63 32)
    (edp : dp = bits ((s.core site).gn (wf w 82 78)) 31 0)
    (edev : dev = ((s.core site).gn (wf w 87 83) : Int) + sext 20 (wf w 49 30)) (erows : rows = wf w 77 66 + 1)
    (en : n = wf w 65 50 + 1) (hal : dev % 8 = 0 ∧ dp % 8 = 0 ∧ n % 8 = 0 ∧ la % 8 = 0 ∧ lp % 8 = 0) :
    coreMovd w (s.runAt site) = (s.runAt site).queueMove w (movdRngs (wb w 112) (rowRngs la lp rows n)).1
      (movdRngs (wb w 112) (rowRngs la lp rows n)).2 (.movd (wb w 112) la lp dev dp rows n) := by
  subst ela elp edp edev erows en
  refine (if_neg (by simp only [not_or, not_not]; exact hal)).trans ?_
  cases wb w 112 <;> rfl

theorem movdRngs_ok {out : Bool} {rs : List Rng} (h : (if out then rngsRd rs else rngsWr rs) = true) :
    rngsRd (movdRngs out rs).1 = true ∧ rngsWr (movdRngs out rs).2 = true := by
  cases out
  · exact ⟨rfl, h⟩
  · exact ⟨h, rfl⟩

theorem exec_movd_quiet {s : State} {site : Fin 672} {w : IWord} {la lp dp rows n : Nat} {dev : Int} {u : State × Bool}
    (h : s.quiet site w 0x20)
    (hk : coreMovd w (s.runAt site) = (s.runAt site).queueMove w (movdRngs (wb w 112) (rowRngs la lp rows n)).1
      (movdRngs (wb w 112) (rowRngs la lp rows n)).2 (.movd (wb w 112) la lp dev dp rows n))
    (hrng : (if wb w 112 then rngsRd (rowRngs la lp rows n) else rngsWr (rowRngs la lp rows n)) = true)
    (eu : (s.moving site w 0x20 (movdRngs (wb w 112) (rowRngs la lp rows n)).1 (movdRngs (wb w 112) (rowRngs la lp rows n)).2
      (.movd (wb w 112) la lp dev dp rows n)).movdRows site (s.core site).pc (wb w 112) la lp dev dp n 0 rows = u) :
    (u.2 = false → exec (.movd site w) s = .next (u.1.moveDone site 0 true)) ∧
    (u.2 = true → s.mesh.fill = [] → exec (.movd site w) s = .next ((u.1.clusterReset site).afterDrain site)) := by
  obtain ⟨hrd, hwr⟩ := movdRngs_ok hrng
  have hone := State.pumpOne_acted State.moving_fly rfl (State.reach_movd rfl eu)
  refine ⟨fun hu => congrArg Host.Outcome.next ?_, fun hu hfill => congrArg Host.Outcome.next ?_⟩
  · rw [if_neg (by simp [hu])] at hone
    have hflights := eu ▸ State.movdRows_flights _ _ _ _ _ _ _ _ _ _ _
    have hfly := (congrFun (congrArg Prod.snd hflights) site).trans State.moving_fly
    refine issue_move h rfl hk hrd hwr (State.pump_eq_of_fill hone ?_) ?_
    · exact congrArg (fun p => p.1.fill) hflights
    · rw [State.moveDone_single true hfly rfl, State.core_setCore, if_pos rfl]
      exact List.cons_ne_nil _ _
  · rw [if_pos hu] at hone
    rw [issue_pump _ h.toready rfl (hk.trans (queueMove_quiet _ _ _ h hrd hwr)) (State.issuing_st h.issuing)]
    show State.afterDrain (State.pump (s.moving _ _ _ _ _ _) site) site = _
    have hempty (c m : Nat) : (s.moving site w 0x20 (movdRngs (wb w 112) (rowRngs la lp rows n)).1
        (movdRngs (wb w 112) (rowRngs la lp rows n)).2 (.movd (wb w 112) la lp dev dp rows n)).routeFill c m = [] := by
      show Tab.get [] s.mesh.fill (64 * c + m) = []
      rw [hfill]
      rfl
    rw [State.pump_eq hone fun m _ hlt => absurd hlt ?_]
    rw [hempty]
    exact Nat.not_lt_zero _

/-! ### The obligation -/

/-- Settles O7: each move instruction at an idle site. -/
theorem moveInstructions : Obligations.MoveInstructions := by
  unfold Obligations.MoveInstructions
  intro s site w c cl
  refine ⟨?_, ?_, ?_, ?_, ?_⟩
  · intro h la lp dp dev rows n rs op rw f u h1 h2 h3 h4 h5 hrng
    exact exec_movd_quiet h (coreMovd_eq rfl rfl rfl rfl rfl rfl ⟨h1, h2, h3, h4, h5⟩) hrng rfl
  · intro h src dst n rows sp dp h1 h2 h3 h4 h5 hr hw
    exact ⟨_, exec_movl_quiet h rfl rfl rfl rfl rfl rfl ⟨h1, h2, h3, h4, h5⟩ hr hw, rfl, rfl, rfl, rfl⟩
  · intro h la route len p room bk hal hr hroute
    exact exec_movs_quiet h rfl rfl rfl rfl rfl hal hr hroute
  · intro h la route len b hal hw hroute
    refine ⟨fun hlen hsend => ⟨_, exec_movr_take h rfl rfl rfl hal hw hroute hlen hsend, rfl, rfl, rfl, rfl⟩, fun hlen => ?_⟩
    exact ⟨_, exec_movr_wait h rfl rfl rfl hal hw hroute hlen, rfl, rfl, rfl, rfl⟩
  · intro h a b n ha hb
    exact exec_chkeq_quiet h rfl rfl rfl ha hb

end Sys2Proof.Machine
end


section
/-! Proofs. Route bytes that arrive at a receive buffer (R224, R227): the receive buffer of a route entry past the 64 of a
cluster is that of another cluster's entry. -/

namespace Sys2Proof.Machine

/-- Under way to route entry 64 of cluster 0, which no cluster has. -/
def strayBytes : MeshBytes := { srcC := 0, srcR := 0, dstC := 0, dstR := 64, data := [1] }

/-- The machine after reset, but with those bytes under way. -/
def State.strayMesh : State := { State.reset with mesh := { bytes := [strayBytes] } }

/-- They join the receive buffer of entry 0 of cluster 1. -/
theorem exec_routeDataArrival_strayMesh :
    exec (.routeDataArrival 0) State.strayMesh = .next { State.reset with mesh := { fill := [(64, [1])] } } := by
  rfl

/-- Refutes O8: the statement bounds c and r, not the place that the bytes go to. -/
theorem not_meshArrivals : ¬ Obligations.MeshArrivals := by
  unfold Obligations.MeshArrivals
  rintro ⟨hmesh, -⟩
  obtain ⟨t, hnext, -, -, -, hfill⟩ := (hmesh State.strayMesh 0).1 strayBytes rfl rfl rfl rfl (by decide)
  rw [exec_routeDataArrival_strayMesh] at hnext
  injection hnext with ht
  have hbuf := hfill 1 0 (by decide) (by decide)
  rw [← ht] at hbuf
  exact absurd hbuf (by decide)

end Sys2Proof.Machine
end


section
/-! Proofs. What a pass leaves of its core site's sequencer: no slot, prologue or output row of an MM touches the
sequencer's state or the instructions in flight (R71 to R75, R105, R106, R119 to R139). -/

namespace Sys2Proof.Machine

/-- The sequencer's state and the instructions in flight. -/
def Run.front (x : Run) : SeqState × List Fly := (x.c.st, x.c.fly)

theorem Run.setC_front (x : Run) {c : CoreSite} (hst : c.st = x.c.st) (hfly : c.fly = x.c.fly) : (x.setC c).front = x.front := by
  rw [Run.front, Run.front, Run.setC, hst, hfly]

@[simp] theorem Run.setC_wrLm_front (x : Run) (a : Nat) (bs : List Byte) : (x.setC (x.c.wrLm a bs)).front = x.front := rfl

@[simp] theorem Run.raise_front (x : Run) (e : Ev) : (x.raise e).front = x.front := rfl

@[simp] theorem Run.count_front (x : Run) (set : Nat) (e : CEnt) (n : Nat) : (x.count set e n).front = x.front := by
  unfold Run.count
  split <;> rfl

@[simp] theorem Run.bump_front (x : Run) (f : Fld) (n : Nat) : (x.bump f n).front = x.front := by
  unfold Run.bump
  split <;> rfl

@[simp] theorem Run.freeAll_front (x : Run) (l : List Rng) : (x.freeAll l).front = x.front :=
  foldl_frame Run.front (by intro _ _; rfl) l x

/-! ### Slots -/

@[simp] theorem Run.readSlot_front (x : Run) (a : Nat) : (x.readSlot a).1.front = x.front := by
  unfold Run.readSlot
  dsimp only
  split
  · split <;> rfl
  · rfl

@[simp] theorem Run.readSlots_front (x : Run) (a n : Nat) : (x.readSlots a n).1.front = x.front := by
  induction n generalizing x a with
  | zero => rfl
  | succ n ih => exact (ih _ _).trans (x.readSlot_front a)

@[simp] theorem Run.writeSlot_front (x : Run) (a : Nat) (v : Acc) (arr : Nat) : (x.writeSlot a v arr).front = x.front := by
  unfold Run.writeSlot
  dsimp only
  split
  · rfl
  · split
    · rfl
    · split
      · split
        · rfl
        · exact x.bump_front _ _
      · exact (Run.raise_front _ _).trans (Run.bump_front _ _ _)

@[simp] theorem Run.releaseSlot_front (x : Run) (a : Nat) : (x.releaseSlot a).front = x.front := rfl

@[simp] theorem Run.releaseSlots_front (x : Run) (a n : Nat) : (x.releaseSlots a n).front = x.front :=
  foldl_frame Run.front (by intro _ _; rfl) _ x

@[simp] theorem Run.lostCheck_front (x : Run) (a b : Acc) : (x.lostCheck a b).front = x.front := by
  unfold Run.lostCheck
  split
  · exact x.bump_front _ _
  · rfl

@[simp] theorem Run.residueBad_front (x : Run) (pass : Bool) (arr row col e o : Nat) :
    (x.residueBad pass arr row col e o).front = x.front := x.bump_front _ _

@[simp] theorem Run.accCheck_front (x : Run) (off : Bool) (arr row col : Nat) (a : Acc) :
    (x.accCheck off arr row col a).front = x.front := by
  unfold Run.accCheck
  split
  · exact x.residueBad_front _ _ _ _ _ _
  · rfl

/-! ### Prologues and statistics -/

@[simp] theorem Run.norm_front (x : Run) (a n t eps : Nat) (rms : Bool) : (x.norm a n t eps rms).1.front = x.front := by
  have h : ((x.readSlot a).1.readSlot (a + 16)).1.front = x.front := by simp
  unfold Run.norm
  dsimp only
  split
  · exact h
  · split
    · exact h
    · split <;> exact h

@[simp] theorem Run.addStats_front (x : Run) (a arr : Nat) (ys : List Num) : (x.addStats a arr ys).front = x.front := by
  simp [Run.addStats]

@[simp] theorem Run.proBlock_front (x : Run) (d j : Nat) (mu r : Num) (b : DBlk) : (x.proBlock d j mu r b).1.front = x.front := by
  unfold Run.proBlock
  dsimp only
  split
  · rfl
  · split
    · rfl
    · simp

@[simp] theorem Run.proNorm_front (x : Run) (d rho : Nat) : (x.proNorm d rho).1.front = x.front := by
  unfold Run.proNorm
  split
  · exact x.norm_front _ _ _ _ _
  · rfl

/-! ### Output rows -/

@[simp] theorem Run.fingerprint_front (x : Run) (o : OutSpec) (l : List Nat) : (x.fingerprint o l).front = x.front := by
  unfold Run.fingerprint
  split <;> rfl

@[simp] theorem Run.outRow_front (x : Run) (o : OutSpec) (vs : List Num) : (x.outRow o vs).1.front = x.front := by
  unfold Run.outRow
  dsimp only
  split <;> simp

@[simp] theorem Run.countLost_front (x : Run) (set : Nat) (l : List Acc) : (x.countLost set l).front = x.front := x.count_front _ _ _

@[simp] theorem Run.epiValues_front (x : Run) (d rho : Nat) (l : List Acc) (ta tw : Rat) :
    (x.epiValues d rho l ta tw).1.front = x.front := by
  unfold Run.epiValues
  dsimp only
  split <;> simp

@[simp] theorem Run.epiRow_front (x : Run) (d rho : Nat) (l : List Acc) (ta tw : Rat) (a arr : Nat) :
    (x.epiRow d rho l ta tw a arr).front = x.front := by
  unfold Run.epiRow
  dsimp only
  split <;> simp

@[simp] theorem Run.plainRow_front (x : Run) (l : List Acc) (ta tw : Rat) (a : Nat) : (x.plainRow l ta tw a).front = x.front := by
  simp [Run.plainRow]

@[simp] theorem Run.gateRow_front (x : Run) (d rho : Nat) (l : List Acc) (ta tw : Rat) (a : Nat) :
    (x.gateRow d rho l ta tw a).front = x.front := by
  simp [Run.gateRow]

/-! ### Score rows -/

@[simp] theorem Run.shiftSlot_front (x : Run) (a dd arr : Nat) : (x.shiftSlot a dd arr).front = x.front := by
  simp [Run.shiftSlot]

@[simp] theorem Run.addDen_front (x : Run) (a arr : Nat) (s : Int) (p : Nat) : (x.addDen a arr s p).front = x.front := by
  simp [Run.addDen]

theorem foldl_run_front {σ α : Type} (run : σ → Run) {f : σ → α → σ} (h : ∀ t a, (run (f t a)).front = (run t).front) (l : List α) (t : σ) :
    (run (l.foldl f t)).front = (run t).front :=
  foldl_frame (fun t => (run t).front) h l t

theorem ScoreAcc.block_front (t : ScoreAcc) (d den arr : Nat) (p : List Acc × List (Cnted × Bool)) :
    (t.block d den arr p).x.front = t.x.front := by
  unfold ScoreAcc.block
  dsimp only
  split
  · rfl
  · split
    · simp
    · split
      · split <;> simp
      · split
        · show (Run.bump _ _ _).front = _
          simp
        · simp

theorem ScoreAcc.anchor_front (t : ScoreAcc) (d rho arr : Nat) (bl : List (List (Cnted × Bool))) :
    (t.anchor d rho arr bl).x.front = t.x.front := by
  have hshift (l : List Nat) (x : Run) (a dd : Nat) :
      (l.foldl (fun x i => x.shiftSlot (a + 16 * i) dd arr) x).front = x.front :=
    foldl_frame Run.front (fun x _ => x.shiftSlot_front _ _ _) l x
  have hfree : ({ t.x with fr := t.x.fr + 1 } : Run).front = t.x.front := rfl
  unfold ScoreAcc.anchor
  dsimp only
  split_ifs <;> simp [hshift, hfree]

@[simp] theorem Run.undefinedRow_front (x : Run) (d rho addr size : Nat) : (x.undefinedRow d rho addr size).front = x.front :=
  Run.freeAll_front _ _

@[simp] theorem Run.scoreRow_front (x : Run) (d rho : Nat) (accs : List Acc) (ta tw : Rat) (addr arr : Nat) :
    (x.scoreRow d rho accs ta tw addr arr).front = x.front := by
  unfold Run.scoreRow
  dsimp only
  generalize ht : (List.foldl _ _ _ : ScoreAcc) = t
  have hx : t.x.front = x.front := by
    rw [← ht, foldl_run_front ScoreAcc.x fun t p => t.block_front _ _ _ p]
    split
    · exact ScoreAcc.anchor_front _ _ _ _ _
    · rfl
  split
  · exact (Run.undefinedRow_front _ _ _ _ _).trans ((Run.setC_front _ rfl rfl).trans hx)
  · exact (Run.setC_front _ rfl rfl).trans hx

@[simp] theorem Run.emitRow_front (x : Run) (epi : Option Nat) (rho : Nat) (accs : List Acc) (ta tw : Rat) (addr arr : Nat) :
    (x.emitRow epi rho accs ta tw addr arr).front = x.front := by
  unfold Run.emitRow
  split
  · simp
  · split <;> simp

/-! ### Passes -/

@[simp] theorem Run.proRow_front (x : Run) (pro : Option Nat) (mu r : Num) (j : Nat) (l : List (Option DBlk)) :
    (x.proRow pro mu r j l).1.front = x.front := by
  induction l generalizing x j with
  | nil => rfl
  | cons b l ih =>
    refine (ih _ _).trans ?_
    cases pro with
    | none => rfl
    | some d =>
      cases b with
      | none => rfl
      | some b => exact x.proBlock_front d j mu r b

@[simp] theorem Run.mmRow_front (x : Run) (o : MmOps) (feeds : List (Option Nat)) (a r : Nat) :
    (x.mmRow o feeds a r).x.front = x.front := by
  unfold Run.mmRow
  dsimp only
  split <;> simp

@[simp] theorem Run.mmBase_front (x : Run) (o : MmOps) (a r : Nat) : (x.mmBase o a r).1.front = x.front := by
  unfold Run.mmBase
  split <;> simp

@[simp] theorem Run.lostRow_front (x : Run) (olds news : List Acc) : (x.lostRow olds news).front = x.front :=
  foldl_frame Run.front (fun x _ => x.lostCheck_front _ _) _ x

@[simp] theorem Run.mmStore_front (x : Run) (o : MmOps) (a r : Nat) (accs : List Acc) : (x.mmStore o a r accs).front = x.front := by
  have hwrite (l : List Acc) (t : Run × Nat) (b arr : Nat) :
      (l.foldl (fun (t : Run × Nat) acc => (t.1.writeSlot (b + 16 * t.2) acc arr, t.2 + 1)) t).1.front = t.1.front :=
    foldl_run_front Prod.fst (by simp) l t
  unfold Run.mmStore
  dsimp only
  split_ifs <;> simp [hwrite]

@[simp] theorem Run.mmLast_front (x : Run) (o : MmOps) (a r : Nat) (accs : List Acc) (ta tw : Rat) (off : Bool) :
    (x.mmLast o a r accs ta tw off).front = x.front := by
  have hcheck (l : List Acc) (t : Run × Nat) (arr rho : Nat) :
      (l.foldl (fun (t : Run × Nat) c => (t.1.accCheck off arr rho t.2 c, t.2 + 1)) t).1.front = t.1.front :=
    foldl_run_front Prod.fst (by simp) l t
  unfold Run.mmLast
  dsimp only
  split_ifs <;> simp [hcheck]

@[simp] theorem Run.mmOne_front (x : Run) (o : MmOps) (rc : ResCtl) (feeds : List (Option Nat)) (outs : List (List DBlk)) (a r : Nat) :
    (x.mmOne o rc feeds outs a r).front = x.front := by
  unfold Run.mmOne
  dsimp only
  split_ifs <;> simp

/-- A pass leaves the sequencer's state and the instructions in flight. -/
theorem Run.mm_front (x : Run) (o : MmOps) (rc : ResCtl) : (x.mm o rc).front = x.front := by
  have hrows (rc : ResCtl) (feeds : List (Option Nat)) (outs : List (List DBlk)) (l : List (Nat × Nat)) (x : Run) :
      (l.foldl (fun x p => x.mmOne o rc feeds outs p.1 p.2) x).front = x.front :=
    foldl_frame Run.front (by simp) l x
  have hpass (x : Run) (n : Nat) (pv : List Nat) : (x.setC { x.c with passes := n, pv := pv }).front = x.front := rfl
  unfold Run.mm
  dsimp only
  split_ifs <;> simp [hrows, hpass]

end Sys2Proof.Machine
end


section
/-! Proofs. MM at an idle site, the signal of its entry, and the completion of instructions (R88, R89, R105 to R107). -/

namespace Sys2Proof.Machine

/-! ### What the events of an instruction leave -/

/-- The instructions in flight at a core site, and the recovery of its cluster. -/
def State.held (site : Nat) (s : State) : List Fly × Option Recovery := ((s.core site).fly, (s.cluster (clusterOf site)).recov)

/-- A cluster that wants a replay is under no recovery before its cores reach the goal (R306). -/
theorem State.wantReplay_held (s : State) (site cl : Nat) (r : Recovery) : (s.wantReplay cl r).held site = s.held site := by
  have hgoal (s : State) (j n : Nat) : (s.modCore j fun x => { x with goal := n - x.mark0 }).held site = s.held site := by
    rw [State.held, State.core_modCore]
    split_ifs with h
    · rw [h]
      rfl
    · rfl
  have hwant (s : State) (d : Nat) : ((s.modCluster d fun x => { x with want := some (r.after x.want) }).setF
      R.CL.REPLAY_STATUS.STATE d 1).held site = s.held site := by
    rw [State.held, State.setF_cluster, State.cluster_modCluster]
    split_ifs with h
    · rw [State.held, h]
      rfl
    · rfl
  unfold State.wantReplay
  split
  · rfl
  · exact (each_frame (State.held site) _ _ _ hwant).trans (each_frame (State.held site) _ _ _ fun s j => hgoal s j _)

/-- No event begins a recovery, and none touches what is in flight. -/
theorem State.applyEv_held {s : State} {l : List Fly} (site pc : Nat) (e : Ev) (h : s.held site = (l, none)) :
    (s.applyEv site pc e).held site = (l, none) := by
  have hpend (key n : Nat) : (s.pend (clusterOf site) key n).held site = (l, none) := by
    rw [← h, State.held, State.pend, State.cluster_modCluster, if_pos rfl]
    rfl
  cases e with
  | cnt set en n => exact hpend _ n
  | smldDrop n => exact hpend _ n
  | orderDep => exact hpend _ 1
  | reg f n => exact h
  | peak f v => exact h
  | report cls code sub row col detail =>
    rw [← h, State.applyEv]
    split <;> rfl
  | residue pass array sub row col detail =>
    have hrecov : (s.cluster (clusterOf site)).recov = none := congrArg Prod.snd h
    simp only [State.applyEv, State.residueEvent, State.tallyDev_cluster, hrecov]
    exact (State.wantReplay_held _ _ _ _).trans h

theorem State.applyEvs_held {s : State} {l : List Fly} (site pc : Nat) (es : List Ev) (h : s.held site = (l, none)) :
    (s.applyEvs site pc es).held site = (l, none) := by
  unfold State.applyEvs each
  induction es generalizing s with
  | nil => exact h
  | cons e es ih => exact ih (State.applyEv_held site pc e h)

theorem State.queued_held (s : State) (site : Nat) (c : CoreSite) (fr : Nat) (ev : List Ev)
    (h : (s.cluster (clusterOf site)).recov = none) : (s.queued site c fr ev).held site = (c.fly, none) := by
  refine State.applyEvs_held (s := { s.setCore site c with free := fr }) site _ ev (Prod.ext ?_ h)
  show ((s.setCore site c).core site).fly = c.fly
  rw [State.core_setCore, if_pos rfl]

/-! ### MM -/

/-- An instruction with events is in flight: no unit has anything to do (R88). -/
theorem issue_queued_events {s : State} {site : Nat} {w : IWord} {op : Nat} {k : Run → CoreRes} {y : Run} {f : Fly} (h : s.ready site w op)
    (hl : listedOpcode op = true) (hk : k (s.runAt site) = .ok y) (hf : y.c.fly = [f]) (hm : f.mv = none) (hst : y.c.st = .issuing)
    (hrecov : (s.cluster (clusterOf site)).recov = none) : issue s site w op k = s.queued site y.c y.fr y.ev := by
  have hfly : ((s.queued site y.c y.fr y.ev).core site).fly = [f] :=
    (congrArg Prod.fst (s.queued_held site y.c y.fr y.ev hrecov)).trans hf
  rw [issue_ok h hl hk]
  unfold State.issueOk
  dsimp only
  rw [if_pos hst]
  show ((s.queued site y.c y.fr y.ev).pump site).afterDrain site = _
  rw [State.pump_done _ _ f hfly hm, State.afterDrain_busy _ _ (by rw [hfly]; exact List.cons_ne_nil _ _)]

/-- The instruction that an MM puts in flight. -/
def mmFly (w : IWord) (o : MmOps) (c : CoreSite) : Fly :=
  { unit := .array, opc := 0x40, pc := c.pc, ctr := completion w, rd := (o.rngs c).1, wr := (o.rngs c).2.1, slots := (o.rngs c).2.2,
    descs := o.names, ent := o.ent, matched := o.match_ }

/-- An MM that finds its long slots is in flight behind the effect of its pass (R75, R105). -/
theorem coreMm_quiet {s : State} {site : Nat} {w : IWord} {o : MmOps} {rc : ResCtl} {z : Run} (h : s.quiet site w 0x40)
    (ho : mmOps w (s.core site) = .inr o) (hz : ({ s.runAt site with c := (s.core site).advance } : Run).mm o rc = z)
    (hcap : z.cap = false) : coreMm rc w (s.runAt site) = .ok { z with
      c := { z.c with fly := z.c.fly ++ [mmFly w o (s.core site)] } } := by
  have hc : (s.runAt site).c = s.core site := rfl
  unfold coreMm
  rw [hc, ho]
  dsimp only
  rw [Run.issueWith_idle _ _ _ _ h.idle h.engine (by simp)]
  have hz : ((s.runAt site).setC (s.runAt site).c.advance).mm o rc = z := hz
  simp only [hz, hcap, Bool.false_eq_true, if_false, if_true]
  rfl

/-- With no injection armed and no replay under way, MM is its issue alone (R61, R307). -/
theorem execMm_quiet {s t : State} {site : Fin 672} {w : IWord} {o : MmOps} (ho : mmOps w (s.core site) = .inr o)
    (ht : issue s site w 0x40 (coreMm (s.resCtl site) w) = t)
    (hinj : s.getF R.CORE.RES_CTL.INJ_ARM site ≠ 1) (hrecov : (t.cluster (clusterOf site)).recov = none) :
    exec (.mm site w) s = .next t := by
  have harm : (s.resCtl site).inj = none := if_neg hinj
  have hcapture : s.capture t site w = t := by
    simp only [State.capture, hrecov]
  show execMm site w s = .next t
  unfold execMm
  simp only [ht, ho, MmOps.injects, harm, Bool.false_and, Bool.false_eq_true, if_false, hcapture, ite_self]

/-- An MM that passes its checks and finds its long slots issues (R105, R106). -/
theorem exec_mm_quiet {s : State} {site : Fin 672} {w : IWord} {o : MmOps} {z : Run} (h : s.quiet site w 0x40)
    (ho : mmOps w (s.core site) = .inr o) (hz : ({ s.runAt site with c := (s.core site).advance } : Run).mm o (s.resCtl site) = z)
    (hcap : z.cap = false) (hinj : s.getF R.CORE.RES_CTL.INJ_ARM site ≠ 1) (hrecov : (s.cluster (clusterOf site)).recov = none) :
    exec (.mm site w) s = .next (s.queued site { z.c with fly := z.c.fly ++ [mmFly w o (s.core site)] } z.fr z.ev) := by
  have hfront : z.front = ((s.core site).st, (s.core site).fly) := by
    rw [← hz, Run.mm_front]
    rfl
  have hst : z.c.st = .issuing := (congrArg Prod.fst hfront).trans (State.issuing_st h.issuing)
  have hfly : z.c.fly = [] := (congrArg Prod.snd hfront).trans h.idle
  have hissue : issue s site w 0x40 (coreMm (s.resCtl site) w) =
      s.queued site { z.c with fly := z.c.fly ++ [mmFly w o (s.core site)] } z.fr z.ev :=
    issue_queued_events (y := { z with c := { z.c with fly := z.c.fly ++ [mmFly w o (s.core site)] } }) (f := mmFly w o (s.core site))
      h.toready rfl (coreMm_quiet h ho hz hcap) (by rw [hfly]; rfl) rfl hst hrecov
  have hnone : ((s.queued site { z.c with fly := z.c.fly ++ [mmFly w o (s.core site)] } z.fr z.ev).cluster
      (clusterOf site)).recov = none := congrArg Prod.snd (State.queued_held _ _ _ _ _ hrecov)
  exact execMm_quiet ho hissue hinj hnone

/-! ### Entry and completion -/

/-- A counter below its largest value rises by one; nothing else changes (R89). -/
theorem State.raiseCtr_setCore {s : State} {site u pc opc : Nat} {c : CoreSite} (h : c.ctr u < 65535) :
    (s.setCore site c).raiseCtr site u pc opc = s.setCore site (c.setCtr u (c.ctr u + 1)) := by
  have hc : (s.setCore site c).core site = c := by rw [State.core_setCore, if_pos rfl]
  rw [State.raiseCtr, hc, if_neg (by omega), State.setCore_setCore]

/-- The oldest MM that has not entered, with no swap before it, enters and raises its entry counter (R107). -/
theorem exec_mmEntrySignal {s : State} {site : Fin 672} {i : Nat} {f : Fly}
    (hf : (s.core site).fly.zipIdx.find? (fun p => p.1.unit == .array && !p.1.entered) = some (f, i))
    (hswap : (((s.core site).fly.take i).any fun g => g.wop == some .swap) = false) :
    exec (.mmEntrySignal site) s = .next (
      let t := s.setCore site { s.core site with fly := (s.core site).fly.modify i fun g => { g with entered := true } }
      match f.ent with
      | some u => t.raiseCtr site u f.pc 0x40
      | none => t) := by
  show execMmEntrySignal site s = _
  unfold execMmEntrySignal
  dsimp only
  rw [hf]
  dsimp only
  rw [hswap]
  cases f.ent <;> rfl

/-- A site whose units have no move instruction, and whose sequencer does not drain, has nothing more to do. -/
theorem State.pump_afterDrain_of_no_moves {s : State} {site : Nat} (h : ∀ f ∈ (s.core site).fly, f.mv = none)
    (hd : (s.core site).drain = .none) : (s.pump site).afterDrain site = s := by
  rw [State.pump_eq_of_fill (s.pumpOne_of_no_moves site h) rfl, State.afterDrain_none _ _ hd]

/-- The oldest instruction of a unit leaves it and raises its counter (R88, R89). -/
theorem exec_instructionComplete {s : State} {site : Fin 672} {u : CUnit} {i : Nat} {f : Fly} {c : CoreSite}
    (hf : (s.core site).fly.zipIdx.find? (fun p => p.1.unit == u) = some (f, i)) (hdone : (s.core site).canComplete i f = true)
    (hraise : (let t := s.setCore site { s.core site with fly := (s.core site).fly.eraseIdx i }
      match f.ctr with
      | some k => t.raiseCtr site k f.pc f.opc
      | none => t) = s.setCore site c)
    (hmv : ∀ g ∈ c.fly, g.mv = none) (hd : c.drain = .none) :
    exec (.instructionComplete site u) s = .next (s.setCore site c) := by
  have hc : (s.setCore site c).core site = c := by rw [State.core_setCore, if_pos rfl]
  show execInstructionComplete site u s = _
  unfold execInstructionComplete
  dsimp only
  rw [hf]
  dsimp only
  rw [hdone]
  refine congrArg Host.Outcome.next ((congrArg (fun t : State => (t.pump site).afterDrain site) hraise).trans ?_)
  exact State.pump_afterDrain_of_no_moves (by rwa [hc]) (by rwa [hc])

/-- Settles O10: an MM issues with its pass's effect, which leaves what is in flight; its entry and a completion each raise
their counter. -/
theorem passAndCompletion : Obligations.PassAndCompletion := by
  unfold Obligations.PassAndCompletion
  intro s site w c
  refine ⟨?_, ?_, ?_⟩
  · intro o h ho z hcap hinj hrecov
    exact ⟨mmFly w o c, exec_mm_quiet h ho rfl hcap hinj hrecov, rfl, rfl, rfl, rfl⟩
  · intro i f hf hswap s1
    refine ⟨fun hent => ?_, fun u hent hlt => ?_⟩
    · rw [exec_mmEntrySignal hf hswap, hent]
    · rw [exec_mmEntrySignal hf hswap, hent]
      exact congrArg Host.Outcome.next (State.raiseCtr_setCore hlt)
  · intro u i f hf hdone hmv hd
    have hmv : ∀ g ∈ c.fly.eraseIdx i, g.mv = none := by simpa using hmv
    refine ⟨fun hctr => ?_, fun k hctr hlt => ?_⟩
    · exact exec_instructionComplete hf hdone (by rw [hctr]) hmv hd
    · exact exec_instructionComplete hf hdone (by rw [hctr]; exact State.raiseCtr_setCore hlt) hmv hd

end Sys2Proof.Machine
end

section
/-! Proofs. Local bytes written as equal pieces, ranges within an area, and what a command of the sparse engine may
change beside the local bytes it writes (R85, R154, R156, R164). -/

namespace Sys2Proof.Machine

/-! ### Pieces of equal length -/

theorem length_flatMap_range {α : Type} (m k : Nat) (g : Nat → List α) (h : ∀ i, i < m → (g i).length = k) :
    ((List.range m).flatMap g).length = m * k := by
  induction m with
  | zero => simp
  | succ m ih =>
    rw [List.range_succ, List.flatMap_append, List.length_append, ih fun i hi => h i (by omega), Nat.succ_mul]
    simp [h m (by omega)]

/-- Piece i of m pieces of length k. -/
theorem take_drop_flatMap_range {α : Type} (m k : Nat) (g : Nat → List α) (h : ∀ i, i < m → (g i).length = k) {i : Nat}
    (hi : i < m) : (((List.range m).flatMap g).drop (i * k)).take k = g i := by
  induction m with
  | zero => omega
  | succ m ih =>
    have hlen : ((List.range m).flatMap g).length = m * k := length_flatMap_range m k g fun i hi => h i (by omega)
    rw [List.range_succ, List.flatMap_append, List.flatMap_singleton]
    rcases Nat.lt_succ_iff_lt_or_eq.1 hi with hlt | rfl
    · have hle : (i + 1) * k ≤ m * k := Nat.mul_le_mul_right k hlt
      rw [Nat.succ_mul] at hle
      rw [List.drop_append_of_le_length (by omega), List.take_append_of_le_length (by rw [List.length_drop]; omega)]
      exact ih (fun i hi => h i (by omega)) hlt
    · rw [← hlen, List.drop_left, List.take_of_length_le (h i (by omega)).le]

/-- Piece j of n of piece i of m. -/
theorem take_drop_flatMap_range₂ {α : Type} (m n k : Nat) (g : Nat → Nat → List α)
    (h : ∀ i j, i < m → j < n → (g i j).length = k) {i j : Nat} (hi : i < m) (hj : j < n) :
    (((List.range m).flatMap fun i => (List.range n).flatMap (g i)).drop ((i * n + j) * k)).take k = g i j := by
  have houter := take_drop_flatMap_range m (n * k) (fun i => (List.range n).flatMap (g i))
    (fun i hi => length_flatMap_range n k (g i) fun j hj => h i j hi hj) hi
  have hinner := take_drop_flatMap_range n k (g i) (fun j hj => h i j hi hj) hj
  have hle : (j + 1) * k ≤ n * k := Nat.mul_le_mul_right k hj
  rw [Nat.succ_mul] at hle
  rw [← houter, List.drop_take, List.take_take, List.drop_drop, Nat.min_eq_left (by omega)] at hinner
  rwa [Nat.add_mul, Nat.mul_assoc]

theorem CoreSite.rdLm_congr {x y : CoreSite} (h : x.lm = y.lm) (a n : Nat) : x.rdLm a n = y.rdLm a n := by
  rw [CoreSite.rdLm, CoreSite.rdLm, h]

/-- Of a core site only local bytes have changed: so too with its command. -/
theorem CoreSite.setSpe_of_lm {x y : CoreSite} (h : y = { x with lm := y.lm }) (p : Option SpeCmd) :
    { y with spe := p } = { x with lm := y.lm, spe := p } := by rw [h]

theorem CoreSite.wrLm_eq (c : CoreSite) (a : Nat) (bs : List Byte) : c.wrLm a bs = { c with lm := (c.wrLm a bs).lm } := rfl

/-- A part of the bytes written. -/
theorem CoreSite.rdLm_wrLm_part (c : CoreSite) (a o n : Nat) (bs : List Byte) (h : o + n ≤ bs.length) :
    (c.wrLm a bs).rdLm (a + o) n = (bs.drop o).take n := by
  refine List.ext_getElem (by simp; omega) fun i hi _ => ?_
  rw [CoreSite.length_rdLm] at hi
  simp only [CoreSite.rdLm, CoreSite.wrLm, Tab.read_eq, List.getElem_map, List.getElem_range, List.getElem_take, List.getElem_drop]
  rw [Tab.get_write, if_pos (by omega), List.getD_eq_getElem _ _ (by omega)]
  congr 1
  omega

theorem CoreSite.rdLm_wrLm_piece (c : CoreSite) (a m k : Nat) (g : Nat → List Byte) (h : ∀ i, i < m → (g i).length = k) {i : Nat}
    (hi : i < m) : (c.wrLm a ((List.range m).flatMap g)).rdLm (a + i * k) k = g i := by
  have hle : (i + 1) * k ≤ m * k := Nat.mul_le_mul_right k hi
  rw [Nat.succ_mul] at hle
  rw [CoreSite.rdLm_wrLm_part _ _ _ _ _ (by rw [length_flatMap_range m k g h]; omega), take_drop_flatMap_range m k g h hi]

theorem CoreSite.rdLm_wrLm_disjoint (c : CoreSite) (a b n : Nat) (bs : List Byte) (h : b + n ≤ a ∨ a + bs.length ≤ b) :
    (c.wrLm a bs).rdLm b n = c.rdLm b n := Tab.read_write_disjoint 0 c.lm a b n bs h

theorem CoreSite.get_wrLm_outside (c : CoreSite) (a b : Nat) (bs : List Byte) (h : ¬ (a ≤ b ∧ b < a + bs.length)) :
    Tab.get 0 (c.wrLm a bs).lm b = Tab.get 0 c.lm b := Tab.get_write_outside 0 c.lm a bs b h

theorem length_flatMap_natLE (n : Nat) (l : List Nat) : (l.flatMap (natLE n)).length = n * l.length := by
  induction l with
  | nil => rfl
  | cons a l ih => simp [ih, Nat.mul_succ, Nat.add_comm]

/-! ### Ranges within an area (R85) -/

theorem rdOk_within {a n b m : Nat} (h : rdOk a n = true) (hlo : a ≤ b) (hhi : b + m ≤ a + n) (hm : 0 < m) : rdOk b m = true := by
  unfold rdOk at h ⊢
  rw [List.any_eq_true] at h ⊢
  obtain ⟨r, hr, hin⟩ := h
  simp only [Bool.and_eq_true, decide_eq_true_eq] at hin
  obtain ⟨⟨hstart, hend⟩, -⟩ := hin
  refine ⟨r, hr, ?_⟩
  simp only [Bool.and_eq_true, decide_eq_true_eq]
  omega

theorem wrOk_within {a n b m : Nat} (h : wrOk a n = true) (hlo : a ≤ b) (hhi : b + m ≤ a + n) (hm : 0 < m) : wrOk b m = true := by
  unfold wrOk at h ⊢
  simp only [Bool.and_eq_true, decide_eq_true_eq] at h ⊢
  exact ⟨rdOk_within h.1 hlo hhi hm, by omega⟩

/-! ### The frame of a sparse command -/

/-- Of a state, only a core site, the registers of the given keys and what the site's cluster still has to contribute to
the tally have changed. -/
structure State.SpeFrame (s t : State) (site : Nat) (ks : List Nat) : Prop where
  parts   : t = { s with cores := t.cores, regs := t.regs, clusters := t.clusters }
  cores   : s.coresBut t [site]
  tallied : s.tallied t (clusterOf site)
  regs    : s.regsBut t ks

namespace State.SpeFrame
variable {s t : State} {site : Nat} {ks : List Nat}

theorem refl (s : State) (site : Nat) (ks : List Nat) : s.SpeFrame s site ks :=
  ⟨rfl, fun _ _ => rfl, fun _ => ⟨rfl, fun _ => rfl⟩, fun _ _ => rfl⟩

theorem modCore (h : s.SpeFrame t site ks) (g : CoreSite → CoreSite) : s.SpeFrame (t.modCore site g) site ks where
  parts := by
    rw [h.parts]
    rfl
  cores i hi := by
    rw [State.core_modCore, if_neg (by simpa using hi)]
    exact h.cores i hi
  tallied := h.tallied
  regs := h.regs

theorem addF (h : s.SpeFrame t site ks) {f : Fld} {i : Nat} (n : Nat) (hk : f.key i ∈ ks) : s.SpeFrame (t.addF f i n) site ks where
  parts := by
    rw [h.parts]
    rfl
  cores := h.cores
  tallied := h.tallied
  regs k hk' := by
    rw [State.regsBut_addF t f i n k (by rw [List.mem_singleton]; rintro rfl; exact hk' hk), h.regs k hk']

theorem pend (h : s.SpeFrame t site ks) (key n : Nat) : s.SpeFrame (t.pend (clusterOf site) key n) site ks where
  parts := by
    rw [h.parts]
    rfl
  cores := h.cores
  tallied i := by
    obtain ⟨hpend, hother⟩ := h.tallied i
    rw [State.pend, State.cluster_modCluster]
    split_ifs with hi
    · subst hi
      exact ⟨by rw [hpend], fun hne => absurd rfl hne⟩
    · exact ⟨hpend, hother⟩
  regs := h.regs

/-- Free words drawn on the way (log entry 6). -/
theorem setFree (h : s.SpeFrame t site ks) (n : Nat) : ({ s with free := n } : State).SpeFrame { t with free := n } site ks where
  parts := by
    rw [h.parts]
  cores := h.cores
  tallied := h.tallied
  regs := h.regs

theorem speCount (h : s.SpeFrame t site ks) (c : SpeCmd) {f : Fld} (e : CEnt) (n : Nat) (hk : f.key site ∈ ks) :
    s.SpeFrame (t.speCount site c f e n) site ks := by
  unfold State.speCount
  split_ifs
  · exact h
  · exact (h.addF n hk).pend _ n

theorem speNan (h : s.SpeFrame t site ks) (c : SpeCmd) (n : Nat) : s.SpeFrame (t.speNan site c n) site ks := by
  unfold State.speNan
  split_ifs
  · exact h
  · exact h.pend _ n

theorem speDone (h : s.SpeFrame t site ks) (c : SpeCmd) (st r0 r1 : Nat) : s.SpeFrame (t.speDone site c st r0 r1) site ks := by
  unfold State.speDone State.setSpe
  exact h.modCore _

end State.SpeFrame

section
variable (s : State) (site : Nat) (c : SpeCmd)

@[simp] theorem State.core_addF (f : Fld) (i n j : Nat) : (s.addF f i n).core j = s.core j := rfl

@[simp] theorem State.core_pend (cl k n j : Nat) : (s.pend cl k n).core j = s.core j := rfl

@[simp] theorem State.core_speNan (n j : Nat) : (s.speNan site c n).core j = s.core j := by
  unfold State.speNan
  split <;> rfl

@[simp] theorem State.core_speCount (f : Fld) (e : CEnt) (n j : Nat) : (s.speCount site c f e n).core j = s.core j := by
  unfold State.speCount
  split <;> rfl

@[simp] theorem State.getF_speNan (n : Nat) (f : Fld) (i : Nat) : (s.speNan site c n).getF f i = s.getF f i := by
  unfold State.speNan
  split <;> rfl

/-- A count of the engine (R164). -/
theorem State.getF_speCount_same (f : Fld) (e : CEnt) {n : Nat} (h : 0 < n) :
    (s.speCount site c f e n).getF f site = min (2 ^ f.width - 1) (s.getF f site + n) := by
  rw [State.speCount, if_neg h.ne', State.pend_getF, State.getF_addF_same]

theorem State.getF_speCount_ne (f g : Fld) (e : CEnt) (n i : Nat) (h : g.key i ≠ f.key site) :
    (s.speCount site c f e n).getF g i = s.getF g i := by
  unfold State.speCount
  split
  · rfl
  · exact State.getF_addF_ne s f g site i n h

@[simp] theorem State.getF_speDone (st r0 r1 : Nat) (f : Fld) (i : Nat) : (s.speDone site c st r0 r1).getF f i = s.getF f i := rfl

/-- A command that ends leaves its STATUS and results. -/
@[simp] theorem State.core_speDone (st r0 r1 : Nat) : (s.speDone site c st r0 r1).core site =
    { s.core site with spe := some { c with status := st, r0 := r0 % 2 ^ 32, r1 := r1 % 2 ^ 32, done := true } } := by
  simp [State.speDone, State.setSpe]

end

end Sys2Proof.Machine
end

section
/-! Proofs. The command ring of the sparse engine: the start of a command and its end (R154, R156, R171). -/

namespace Sys2Proof.Machine

/-- The ranges that R155 gives a command are not part of what its block says. -/
theorem SpeCmd.withRngs_eq (c : SpeCmd) (lm : CoreSite) (h : THdr) : c.withRngs lm h =
    { c with rd := (c.withRngs lm h).rd, wr := (c.withRngs lm h).wr, drd := (c.withRngs lm h).drd, dwr := (c.withRngs lm h).dwr } := by
  unfold SpeCmd.withRngs
  dsimp only
  split
  · split_ifs <;> rfl
  · split_ifs <;> rfl
  · rfl
  · rfl

/-- STATUS and the results of a command that has ended go into its block (R156). -/
def CoreSite.endSpe (x : CoreSite) (d : SpeCmd) : CoreSite :=
  let x := { x with spe := none }.wrLm (d.addr + 1) [BitVec.ofNat 8 d.status]
  if d.status = 2 ∨ d.status = 3 then x else x.wrLm (d.addr + 4) (natLE 4 d.r0 ++ natLE 4 d.r1)

section
variable {c : CoreSite} {d : SpeCmd}

theorem CoreSite.endSpe_of_fault (h : d.status = 2 ∨ d.status = 3) :
    c.endSpe d = { c with spe := none }.wrLm (d.addr + 1) [BitVec.ofNat 8 d.status] := if_pos h

theorem CoreSite.endSpe_of_no_fault (h2 : d.status ≠ 2) (h3 : d.status ≠ 3) :
    c.endSpe d = ({ c with spe := none }.wrLm (d.addr + 1) [BitVec.ofNat 8 d.status]).wrLm (d.addr + 4)
      (natLE 4 d.r0 ++ natLE 4 d.r1) := if_neg (by simp [h2, h3])

theorem CoreSite.endSpe_eq (c : CoreSite) (d : SpeCmd) : c.endSpe d = { c with spe := none, lm := (c.endSpe d).lm } := by
  unfold CoreSite.endSpe
  dsimp only
  split <;> rfl

theorem CoreSite.get_wrLm_single (c : CoreSite) (a : Nat) (v : Byte) : Tab.get 0 (c.wrLm a [v]).lm a = v := by
  simp [CoreSite.wrLm, Tab.get_write]

theorem CoreSite.endSpe_status (c : CoreSite) (d : SpeCmd) : Tab.get 0 (c.endSpe d).lm (d.addr + 1) = BitVec.ofNat 8 d.status := by
  by_cases h : d.status = 2 ∨ d.status = 3
  · rw [CoreSite.endSpe_of_fault h, CoreSite.get_wrLm_single]
  · rw [not_or] at h
    rw [CoreSite.endSpe_of_no_fault h.1 h.2, CoreSite.get_wrLm_outside _ _ _ _ (by simp), CoreSite.get_wrLm_single]

end

section
variable {s : State} {site : Fin 672}

/-- The state in which a core site has taken the command block at place NEXT of its ring (R154). -/
def State.ringTaken (s : State) (site : Fin 672) : State :=
  ((s.setCore site { s.core site with speWait := (s.core site).speWait - 1 }).setF R.CORE.SPE_CTL.NEXT site
    ((s.getF R.CORE.SPE_CTL.NEXT site + 1) % 16)).setF R.CORE.SPE_CTL.BUSY site 1

theorem State.getF_ringTaken_next : (s.ringTaken site).getF R.CORE.SPE_CTL.NEXT site = (s.getF R.CORE.SPE_CTL.NEXT site + 1) % 16 := by
  have hne : R.CORE.SPE_CTL.NEXT.key site ≠ R.CORE.SPE_CTL.BUSY.key site := Fld.key_ne_of_place _ (by decide) rfl
  rw [State.ringTaken, State.getF_setF_ne _ _ _ _ _ _ hne, State.getF_setF_same]
  exact Nat.mod_mod _ 16

theorem State.getF_ringTaken_busy : (s.ringTaken site).getF R.CORE.SPE_CTL.BUSY site = 1 :=
  State.getF_setF_same _ R.CORE.SPE_CTL.BUSY site 1

theorem State.regsBut_ringTaken : s.regsBut (s.ringTaken site) [R.CORE.SPE_CTL.NEXT.key site, R.CORE.SPE_CTL.BUSY.key site] :=
  State.regsBut_trans (State.regsBut_setF (s.setCore site _) R.CORE.SPE_CTL.NEXT site _) (State.regsBut_setF _ _ _ _)

theorem exec_sparseCommandStart_idle (h : (s.core site).speWait = 0 ∨ (s.core site).spe.isSome = true ∨
    s.regionOn (clusterOf site) = false) : exec (.sparseCommandStart site) s = .next s := by
  refine if_pos ?_
  rcases h with h | h | h <;> simp [h]

section
variable (hw : 0 < (s.core site).speWait) (hn : (s.core site).spe = none) (hon : s.regionOn (clusterOf site) = true)
include hw hn hon

theorem State.sparse_ready : ¬ (((s.core site).speWait = 0 || (s.core site).spe.isSome || !s.regionOn (clusterOf site)) = true) := by
  simp [hw.ne', hn, hon]

/-- A ring that is not where R171 wants it. -/
theorem exec_sparseCommandStart_badRing (h : s.getF R.CORE.SPE_CTL.CMD_LA site % 64 ≠ 0 ∨ s.getF R.CORE.SPE_CTL.CMD_LA site < 0x40000 ∨
    0x200000 < s.getF R.CORE.SPE_CTL.CMD_LA site + 1024) : exec (.sparseCommandStart site) s = .next
      (((s.setCore site { s.core site with speWait := (s.core site).speWait - 1 }).reportSite site 4 2 0x3FFF (s.core site).pc
        0 0 0).deliver site site 0xFF 1) := by
  refine (if_neg (State.sparse_ready hw hn hon)).trans ?_
  exact if_pos h

/-- The block at place NEXT becomes the command under way, or one that has ended at once. -/
theorem exec_sparseCommandStart_taken (h64 : s.getF R.CORE.SPE_CTL.CMD_LA site % 64 = 0) (hlo : 0x40000 ≤ s.getF R.CORE.SPE_CTL.CMD_LA site)
    (hhi : s.getF R.CORE.SPE_CTL.CMD_LA site + 1024 ≤ 0x200000) : ∃ d : SpeCmd,
      exec (.sparseCommandStart site) s = .next (if 1 ≤ d.f 7 0 ∧ d.f 7 0 ≤ 4 then (s.ringTaken site).setSpe site d
        else (s.ringTaken site).speFail site 3 d) ∧
      d.idx = s.getF R.CORE.SPE_CTL.NEXT site ∧ d.addr = s.getF R.CORE.SPE_CTL.CMD_LA site + 64 * s.getF R.CORE.SPE_CTL.NEXT site ∧
      d.block = leNat ((s.core site).rdLm d.addr 64) ∧ d.done = false := by
  refine ⟨_, (if_neg (State.sparse_ready hw hn hon)).trans (if_neg (by omega)), ?_⟩
  dsimp only
  rw [SpeCmd.withRngs_eq]
  exact ⟨rfl, rfl, rfl, rfl⟩

end

/-- The core site of a command under way or ended. -/
theorem State.core_ringTaken_setSpe (d : SpeCmd) : ((s.ringTaken site).setSpe site d).core site =
    { s.core site with speWait := (s.core site).speWait - 1, spe := some d } := by
  rw [State.setSpe, State.core_modCore, if_pos rfl]
  have h : (s.ringTaken site).core site = { s.core site with speWait := (s.core site).speWait - 1 } := by
    show (s.setCore site _).core site = _
    rw [State.core_setCore, if_pos rfl]
  rw [h]

theorem State.coresBut_ringTaken_setSpe (d : SpeCmd) : s.coresBut ((s.ringTaken site).setSpe site d) [site] := fun i hi => by
  have hi : i ≠ site := by simpa using hi
  rw [State.setSpe, State.core_modCore, if_neg hi]
  show (s.setCore site _).core i = _
  rw [State.core_setCore, if_neg hi]

/-- A command without an effect of its own ends with STATUS 0x02 or 0x03 and one report (R156). -/
theorem State.speFail_eq (s : State) (site st : Nat) (d : SpeCmd) : ∃ r, s.speFail site st d =
    { s.setSpe site { d with status := st, done := true } with errs := { s.errs with reports := s.errs.reports ++ [r] } } ∧
    r.cls = 4 ∧ r.code = 6 := ⟨_, rfl, rfl, rfl⟩

theorem exec_sparseCommandComplete_ended {d : SpeCmd} (h : (s.core site).spe = some d) (hd : d.done = true) :
    exec (.sparseCommandComplete site) s = .next ((((s.setCore site ((s.core site).endSpe d)).freeHurt site d).setF
      R.CORE.SPE_CTL.BUSY site 0).deliver site site 0xFF 1) := by
  show execSparseCommandComplete site s = _
  unfold execSparseCommandComplete
  rw [h]
  exact if_neg (by simp [hd])

theorem exec_sparseCommandComplete_none (h : ∀ d, (s.core site).spe = some d → d.done = false) :
    exec (.sparseCommandComplete site) s = .next s := by
  show execSparseCommandComplete site s = _
  unfold execSparseCommandComplete
  cases hs : (s.core site).spe with
  | none => rfl
  | some d => exact if_pos (by simp [h d hs])

end

/-- Settles O13: a start by the ring and by the block's OP, then the end of the command that has ended. -/
theorem sparseCommandRing : Obligations.SparseCommandRing := by
  unfold Obligations.SparseCommandRing
  intro s site c la i b
  refine ⟨fun hw hn hon => ⟨fun h64 hlo hhi => ?_, exec_sparseCommandStart_badRing hw hn hon⟩, exec_sparseCommandStart_idle,
    fun d hd hdone => ⟨_, exec_sparseCommandComplete_ended hd hdone, CoreSite.endSpe_eq c d, CoreSite.endSpe_status c d,
      fun h2 h3 => ⟨?_, fun b hb hout => ?_⟩, fun hf b hb => ?_⟩, exec_sparseCommandComplete_none⟩
  · obtain ⟨d, hrun, hidx, haddr, hblock, hnew⟩ := exec_sparseCommandStart_taken hw hn hon h64 hlo hhi
    rw [haddr] at hblock
    have hop : d.f 7 0 = bits b 7 0 := by rw [SpeCmd.f, hblock]
    rw [hop] at hrun
    by_cases hdef : 1 ≤ bits b 7 0 ∧ bits b 7 0 ≤ 4
    · rw [if_pos hdef] at hrun
      exact ⟨_, hrun, rfl, State.coresBut_ringTaken_setSpe d, State.getF_ringTaken_next, State.getF_ringTaken_busy,
        State.regsBut_ringTaken, d, State.core_ringTaken_setSpe d, hidx, hblock, haddr, fun _ => ⟨rfl, hnew⟩,
        fun hundef => absurd hdef hundef⟩
    · rw [if_neg hdef] at hrun
      obtain ⟨r, hfail, hcls, hcode⟩ := State.speFail_eq (s.ringTaken site) site 3 d
      rw [hfail] at hrun
      exact ⟨_, hrun, rfl, State.coresBut_ringTaken_setSpe _, State.getF_ringTaken_next, State.getF_ringTaken_busy,
        State.regsBut_ringTaken, _, State.core_ringTaken_setSpe _, hidx, hblock, haddr, fun h => absurd h hdef,
        fun _ => ⟨rfl, rfl, r, rfl, hcls, hcode⟩⟩
  · rw [CoreSite.endSpe_of_no_fault h2 h3, CoreSite.rdLm_wrLm_same _ _ _ _ (by simp)]
  · rw [CoreSite.endSpe_of_no_fault h2 h3, CoreSite.get_wrLm_outside _ _ _ _ (by simpa using hout),
      CoreSite.get_wrLm_outside _ _ _ _ (by simp; omega)]
  · rw [CoreSite.endSpe_of_fault hf, CoreSite.get_wrLm_outside _ _ _ _ (by simp; omega)]

end Sys2Proof.Machine
end

section
/-! Proofs. The forecast unit: PREDICT judges each block by its logits, SCOUT each skip entry by its bounds
(R166 to R169). -/

namespace Sys2Proof.Machine

/-- A list of at most n 16-bit numbers may be written where n of them may. -/
theorem wrOk_list {a n : Nat} {l : List Nat} (h : wrOk a (2 * n) = true) (hl : l.length ≤ n) :
    (l.isEmpty || wrOk a (2 * l.length)) = true := by
  cases l with
  | nil => rfl
  | cons x xs =>
    rw [List.length_cons] at hl ⊢
    rw [wrOk_within h (le_refl a) (by omega) (by omega), Bool.or_true]

/-- The members of a range that a predicate rejects. -/
theorem length_filter_not_range (n : Nat) (p : Nat → Bool) :
    ((List.range n).filter fun i => !p i).length = n - (List.range n).countP p := by
  have h := List.length_eq_countP_add_countP p (l := List.range n)
  rw [List.length_range] at h
  rw [← List.countP_eq_length_filter]
  have hnot : ((List.range n).countP fun i => !p i) = (List.range n).countP fun i => decide ¬ p i = true :=
    List.countP_congr fun i _ => by simp
  omega

/-- Entries with their places, those kept by a predicate on both. -/
theorem map_filter_zipIdx_range {α : Type} (n : Nat) (f : Nat → α) (p : α × Nat → Bool) :
    ((((List.range n).map f).zipIdx.filter p).map (·.1)) = ((List.range n).filter fun i => p (f i, i)).map f := by
  have hzip : ((List.range n).map f).zipIdx = (List.range n).map fun i => (f i, i) :=
    List.ext_getElem (by simp) fun i _ _ => by simp
  rw [hzip, List.filter_map, List.map_map]
  rfl

/-! ### PREDICT (R166, R167) -/

/-- R166: block n is active in some row. -/
def SpeCmd.active (c : SpeCmd) (lm : CoreSite) (n : Nat) : Bool :=
  (List.range (c.f 335 320 + 1)).any fun rho =>
    let z := ieeeDecode .fp32 (tileMajor lm (c.f 151 128) (c.f 335 320 + 1) rho n)
    let th := ieeeDecode .fp32 (leNat (lm.rdLm (c.f 175 152 + 4 * n) 4))
    z == .nan || (th != .nan && !(z.lt th))

/-- The active blocks in rising order. -/
def SpeCmd.acts (c : SpeCmd) (lm : CoreSite) : List Nat := (List.range (c.f 305 296 + 1)).filter (c.active lm)

/-- The skipped blocks in rising order. -/
def SpeCmd.skips (c : SpeCmd) (lm : CoreSite) : List Nat := (List.range (c.f 305 296 + 1)).filter fun n => !c.active lm n

/-- The two lists and the row bounds of PREDICT in local space. -/
def CoreSite.putForecast (x : CoreSite) (act skip norm : Nat) (acts skips : List Nat) (bnd : List Byte) : CoreSite :=
  ((x.wrLm act (acts.flatMap (natLE 2))).wrLm skip (skips.flatMap (natLE 2))).wrLm norm bnd

section
variable (c : SpeCmd) (lm : CoreSite)

theorem SpeCmd.length_acts : (c.acts lm).length = (List.range (c.f 305 296 + 1)).countP (c.active lm) :=
  List.countP_eq_length_filter.symm

theorem SpeCmd.length_skips : (c.skips lm).length =
    c.f 305 296 + 1 - (List.range (c.f 305 296 + 1)).countP (c.active lm) := length_filter_not_range _ _

theorem SpeCmd.length_acts_le : (c.acts lm).length ≤ c.f 305 296 + 1 := by
  rw [SpeCmd.acts]
  simpa using List.length_filter_le (c.active lm) (List.range (c.f 305 296 + 1))

theorem SpeCmd.length_skips_le : (c.skips lm).length ≤ c.f 305 296 + 1 := by
  rw [SpeCmd.length_skips]
  exact Nat.sub_le _ _

theorem SpeCmd.f_lt (hi lo : Nat) : c.f hi lo < 2 ^ (hi + 1 - lo) := Nat.mod_lt _ (Nat.two_pow_pos _)

end

section
variable (x : CoreSite) {act skip norm nb rows : Nat} {acts skips : List Nat} {bnd : List Byte}
  (ha : acts.length ≤ nb) (hs : skips.length ≤ nb) (hb : bnd.length = 8 * rows)

theorem CoreSite.putForecast_eq : x.putForecast act skip norm acts skips bnd =
    { x with lm := (x.putForecast act skip norm acts skips bnd).lm } := rfl

include hs hb in
/-- The list of skipped blocks, where the row bounds do not stand over it. -/
theorem CoreSite.rdLm_putForecast_skips (h : skip + 2 * nb ≤ norm ∨ norm + 8 * rows ≤ skip) :
    (x.putForecast act skip norm acts skips bnd).rdLm skip (2 * skips.length) = skips.flatMap (natLE 2) := by
  rw [CoreSite.putForecast, CoreSite.rdLm_wrLm_disjoint _ _ _ _ _ (by omega), CoreSite.rdLm_wrLm_same _ _ _ _ (length_flatMap_natLE _ _)]

include ha hs hb in
/-- The list of active blocks, where neither of the other outputs stands over it. -/
theorem CoreSite.rdLm_putForecast_acts (h : act + 2 * nb ≤ skip ∨ skip + 2 * nb ≤ act) (h' : act + 2 * nb ≤ norm ∨ norm + 8 * rows ≤ act) :
    (x.putForecast act skip norm acts skips bnd).rdLm act (2 * acts.length) = acts.flatMap (natLE 2) := by
  have hlen := length_flatMap_natLE 2 skips
  rw [CoreSite.putForecast, CoreSite.rdLm_wrLm_disjoint _ _ _ _ _ (by omega), CoreSite.rdLm_wrLm_disjoint _ _ _ _ _ (by omega),
    CoreSite.rdLm_wrLm_same _ _ _ _ (length_flatMap_natLE _ _)]

include hb in
theorem CoreSite.get_putForecast_outside {b : Nat} (hact : ¬ (act ≤ b ∧ b < act + 2 * acts.length))
    (hskip : ¬ (skip ≤ b ∧ b < skip + 2 * skips.length)) (hnorm : ¬ (norm ≤ b ∧ b < norm + 8 * rows)) :
    Tab.get 0 (x.putForecast act skip norm acts skips bnd).lm b = Tab.get 0 x.lm b := by
  rw [CoreSite.putForecast, CoreSite.get_wrLm_outside _ _ _ _ (by rwa [hb]),
    CoreSite.get_wrLm_outside _ _ _ _ (by rwa [length_flatMap_natLE]),
    CoreSite.get_wrLm_outside _ _ _ _ (by rwa [length_flatMap_natLE])]

end

/-- The state in which a PREDICT with these row bounds and NaNs has ended. -/
def State.predicted (s : State) (site : Nat) (c : SpeCmd) (nan : Nat) (bnd : List Byte) : State :=
  let acts := c.acts (s.core site)
  let skips := c.skips (s.core site)
  ((((s.speNan site c nan).modCore site fun x =>
    x.putForecast (c.f 199 176) (c.f 223 200) (c.f 295 272) acts skips bnd).addF R.CORE.FORECAST_STATS.SKIPPED site
      skips.length).pend (clusterOf site) (setKey (c.f 23 16) .fcSkipped) skips.length).speDone site c 0 acts.length skips.length

section
variable {s : State} {site : Fin 672} {c : SpeCmd}

/-- A PREDICT whose operands are in order ends with its lists, and with two bounds of 4 bytes for each row. -/
theorem exec_predict_ready {f : EFmt} (h : s.speOf site 3 = some c) (hf : EFmt.ofCode (c.f 319 316) = some f)
    (hta : scaleOk (c.f 367 336) = true) (hta2 : scaleOk (c.f 399 368) = true)
    (hlog : rdOk (c.f 151 128) (ceilDiv (c.f 305 296 + 1) 128 * (c.f 335 320 + 1) * 512) = true)
    (htheta : rdOk (c.f 175 152) (4 * (c.f 305 296 + 1)) = true)
    (hx : rdOk (c.f 247 224) ((c.f 335 320 + 1) * rowPitch f (c.f 315 306 + 1)) = true)
    (hx2 : rdOk (c.f 271 248) ((c.f 335 320 + 1) * rowPitch .int2 (c.f 315 306 + 1)) = true)
    (hnorm : wrOk (c.f 295 272) (8 * (c.f 335 320 + 1)) = true) (hact : wrOk (c.f 199 176) (2 * (c.f 305 296 + 1)) = true)
    (hskip : wrOk (c.f 223 200) (2 * (c.f 305 296 + 1)) = true) :
    ∃ nan bnd, exec (.predict site) s = .next (s.predicted site c nan bnd) ∧ bnd.length = 8 * (c.f 335 320 + 1) := by
  show ∃ nan bnd, execPredict site s = _ ∧ _
  have hlists : ¬ ((!((c.acts (s.core site)).isEmpty || wrOk (c.f 199 176) (2 * (c.acts (s.core site)).length)) ||
      !((c.skips (s.core site)).isEmpty || wrOk (c.f 223 200) (2 * (c.skips (s.core site)).length))) = true) := by
    rw [wrOk_list hact (c.length_acts_le _), wrOk_list hskip (c.length_skips_le _)]
    simp
  unfold execPredict
  rw [h]
  dsimp only
  rw [hf]
  dsimp only
  rw [if_neg (by simp [hta, hta2]), if_neg (by simp [hlog, htheta, hx, hx2]), if_neg (by simp [hnorm])]
  refine ⟨_, _, if_neg hlists, ?_⟩
  rw [List.length_flatMap]
  simp [Nat.mul_comm]

section
variable (nan : Nat) (bnd : List Byte)

theorem State.core_predicted : (s.predicted site c nan bnd).core site =
    { s.core site with
      lm := ((s.core site).putForecast (c.f 199 176) (c.f 223 200) (c.f 295 272) (c.acts (s.core site)) (c.skips (s.core site)) bnd).lm
      spe := some { c with status := 0, r0 := (c.acts (s.core site)).length, r1 := (c.skips (s.core site)).length, done := true } } := by
  have hn := c.f_lt 305 296
  have ha := c.length_acts_le (s.core site)
  have hs := c.length_skips_le (s.core site)
  simp only [State.predicted, State.core_speDone, State.core_pend, State.core_addF, State.core_modCore, if_true, State.core_speNan]
  rw [Nat.mod_eq_of_lt (by omega), Nat.mod_eq_of_lt (by omega)]
  exact CoreSite.setSpe_of_lm (CoreSite.putForecast_eq ..) _

theorem State.speFrame_predicted : s.SpeFrame (s.predicted site c nan bnd) site [R.CORE.FORECAST_STATS.SKIPPED.key site] :=
  (((((State.SpeFrame.refl s site _).speNan c nan).modCore _).addF _ (List.mem_singleton_self _)).pend _ _).speDone _ _ _ _

theorem State.getF_predicted_skipped : (s.predicted site c nan bnd).getF R.CORE.FORECAST_STATS.SKIPPED site =
    min (2 ^ 32 - 1) (s.getF R.CORE.FORECAST_STATS.SKIPPED site + (c.skips (s.core site)).length) := by
  rw [State.predicted, State.getF_speDone, State.pend_getF, State.getF_addF_same, State.modCore_getF, State.getF_speNan]
  rfl

end

end

/-! ### SCOUT (R168, R169) -/

/-- Entry FIRST + i of the skip list. -/
abbrev SpeCmd.entry (c : SpeCmd) (lm : CoreSite) (i : Nat) : Nat := leNat (lm.rdLm (c.f 175 152 + 2 * (c.f 281 272 + i)) 2)

/-- R168: block entry i may be active. -/
def SpeCmd.may (c : SpeCmd) (lm : CoreSite) (i : Nat) : Bool :=
  let w4 := fun (a : Nat) => ieeeDecode .fp32 (leNat (lm.rdLm a 4))
  (List.range (c.f 307 292 + 1)).any fun rho => (List.range 32).any fun j =>
    possiblyActive (ieeeDecode .fp32 (tileMajor lm (c.f 151 128) (c.f 307 292 + 1) rho (i / 4 * 128 + 32 * (i % 4) + j)))
      (w4 (c.f 223 200 + 8 * rho)) (w4 (c.f 223 200 + 8 * rho + 4)) (w4 (c.f 247 224 + 4 * (32 * c.entry lm i + j)))
      (w4 (c.f 271 248 + 4 * (32 * c.entry lm i + j))) (ieeeDecode .fp32 (c.f 351 320))

/-- The blocks that SCOUT finds may be active. -/
def SpeCmd.found (c : SpeCmd) (lm : CoreSite) : List Nat := ((List.range (c.f 291 282 + 1)).filter (c.may lm)).map (c.entry lm)

theorem SpeCmd.length_found (c : SpeCmd) (lm : CoreSite) : (c.found lm).length = (List.range (c.f 291 282 + 1)).countP (c.may lm) := by
  rw [SpeCmd.found, List.length_map, ← List.countP_eq_length_filter]

theorem SpeCmd.length_found_le (c : SpeCmd) (lm : CoreSite) : (c.found lm).length ≤ c.f 291 282 + 1 := by
  rw [SpeCmd.length_found]
  simpa using List.countP_le_length (p := c.may lm) (l := List.range (c.f 291 282 + 1))

/-- The state in which a SCOUT has counted its blocks under a field and an entry of its counter set (R169); two free words are drawn
for the results that the spec does not state. -/
def State.scouted (s : State) (site : Nat) (c : SpeCmd) (f : Fld) (e : CEnt) (n r0 r1 : Nat) : State :=
  ({ (s.addF f site n).pend (clusterOf site) (setKey (c.f 23 16) e) n with free := s.free + 2 } : State).speDone site c 0 r0 r1

/-- The same behind a list of n blocks. -/
def State.listed (s : State) (site : Nat) (c : SpeCmd) (a : Nat) (bs : List Byte) (n r1 : Nat) : State :=
  (s.modCore site fun x => x.wrLm a bs).scouted site c R.CORE.FORECAST_STATS.MAKEUP .fcMakeup n n r1

section
variable {s : State} {site : Fin 672} {c : SpeCmd}

section
variable (h : s.speOf site 4 = some c) (hsc : rdOk (c.f 151 128) (ceilDiv (c.f 291 282 + 1) 4 * (c.f 307 292 + 1) * 512) = true)
  (hskip : rdOk (c.f 175 152) (2 * (c.f 281 272 + (c.f 291 282 + 1))) = true) (hnorm : rdOk (c.f 223 200) (8 * (c.f 307 292 + 1)) = true)
  (hcols : ∀ i, i < c.f 291 282 + 1 → rdOk (c.f 247 224 + 128 * c.entry (s.core site) i) 128 = true ∧
    rdOk (c.f 271 248 + 128 * c.entry (s.core site) i) 128 = true)
include h hsc hskip hnorm hcols

/-- A SCOUT whose operands are in order: it counts the blocks that it finds, or lists them. -/
theorem exec_scout_ready :
    (flag c.block 308 = true → ∃ r0 r1, exec (.scout site) s = .next
      (s.scouted site c R.CORE.FORECAST_STATS.PROBABLE_MISS .fcMiss (c.found (s.core site)).length r0 r1)) ∧
    (flag c.block 308 = false → wrOk (c.f 199 176) (2 * (c.f 291 282 + 1)) = true → ∃ r1, exec (.scout site) s = .next
      (s.listed site c (c.f 199 176) ((c.found (s.core site)).flatMap (natLE 2)) (c.found (s.core site)).length r1)) := by
  show (_ → ∃ r0 r1, execScout site s = _) ∧ (_ → _ → ∃ r1, execScout site s = _)
  have hrd : ¬ ((!(rdOk (c.f 151 128) (ceilDiv (c.f 291 282 + 1) 4 * (c.f 307 292 + 1) * 512) &&
      rdOk (c.f 175 152) (2 * (c.f 281 272 + (c.f 291 282 + 1))) && rdOk (c.f 223 200) (8 * (c.f 307 292 + 1)))) = true) := by
    simp [hsc, hskip, hnorm]
  have hent : ¬ (((List.range (c.f 291 282 + 1)).map (c.entry (s.core site))).any fun b =>
      !(rdOk (c.f 247 224 + 128 * b) 128 && rdOk (c.f 271 248 + 128 * b) 128)) = true := by
    rw [List.any_map, List.any_eq_true]
    rintro ⟨i, hi, hbad⟩
    obtain ⟨hw, hd⟩ := hcols i (List.mem_range.1 hi)
    simp [hw, hd] at hbad
  have hlist (hw : wrOk (c.f 199 176) (2 * (c.f 291 282 + 1)) = true) :
      ¬ (!((c.found (s.core site)).isEmpty || wrOk (c.f 199 176) (2 * (c.found (s.core site)).length))) = true := by
    rw [wrOk_list hw (c.length_found_le (s.core site))]
    simp
  unfold execScout
  rw [h]
  dsimp only
  rw [if_neg hrd, if_neg hent, map_filter_zipIdx_range]
  refine ⟨fun hc => ⟨_, _, if_pos hc⟩, fun hc hw => ⟨_, (if_neg (by simp [hc])).trans (if_neg (hlist hw))⟩⟩

end

section
variable (f : Fld) (e : CEnt) (n r0 r1 : Nat)

theorem State.SpeFrame.scouted {t : State} {ks : List Nat} (h : s.SpeFrame t site ks) (hk : f.key site ∈ ks) :
    ({ s with free := t.free + 2 } : State).SpeFrame (t.scouted site c f e n r0 r1) site ks := by
  unfold State.scouted
  exact (((h.addF n hk).pend _ _).setFree _).speDone _ _ _ _

theorem State.core_scouted : (s.scouted site c f e n r0 r1).core site =
    { s.core site with spe := some { c with status := 0, r0 := r0 % 2 ^ 32, r1 := r1 % 2 ^ 32, done := true } } :=
  State.core_speDone _ _ _ _ _ _

theorem State.speFrame_listed (a : Nat) (bs : List Byte) : ({ s with free := s.free + 2 } : State).SpeFrame
    (s.listed site c a bs n r1) site [R.CORE.FORECAST_STATS.MAKEUP.key site] :=
  ((State.SpeFrame.refl s site _).modCore fun x => x.wrLm a bs).scouted _ _ _ _ _ (List.mem_singleton_self _)

theorem State.core_listed (a : Nat) (bs : List Byte) : (s.listed site c a bs n r1).core site =
    { s.core site with
      lm := ((s.core site).wrLm a bs).lm
      spe := some { c with status := 0, r0 := n % 2 ^ 32, r1 := r1 % 2 ^ 32, done := true } } := by
  rw [State.listed, State.core_scouted, State.core_modCore, if_pos rfl]
  exact CoreSite.setSpe_of_lm (CoreSite.wrLm_eq ..) _

theorem State.getF_scouted : (s.scouted site c f e n r0 r1).getF f site = min (2 ^ f.width - 1) (s.getF f site + n) :=
  State.getF_addF_same s f site n

end

end

/-- Settles O16: PREDICT by its judgement of each block, SCOUT by its judgement of each entry. -/
theorem forecastCommands : Obligations.ForecastCommands := by
  unfold Obligations.ForecastCommands
  intro s site c lm
  constructor
  · intro f log theta act skip norm nb kb rows on nOn h hf hta hta2 hlog htheta hx hx2 hnorm hact hskip
    obtain ⟨nan, bnd, hrun, hbnd⟩ := exec_predict_ready h hf hta hta2 hlog htheta hx hx2 hnorm hact hskip
    have hframe := State.speFrame_predicted (s := s) (site := site) (c := c) nan bnd
    have hcore := State.core_predicted (s := s) (site := site) (c := c) nan bnd
    have hlm : ((s.predicted site c nan bnd).core site).lm = (lm.putForecast act skip norm (c.acts lm) (c.skips lm) bnd).lm := by
      rw [hcore]
    have hacts : (c.acts lm).length = nOn := c.length_acts lm
    have hskips : (c.skips lm).length = nb - nOn := c.length_skips lm
    have hle : (c.acts lm).length ≤ nb := c.length_acts_le lm
    have hle' : (c.skips lm).length ≤ nb := c.length_skips_le lm
    rw [← hskips, ← hacts]
    refine ⟨_, hrun, hframe.parts, hframe.cores, hframe.tallied, hframe.regs, ?_, State.getF_predicted_skipped nan bnd,
      fun has han hsn => ⟨?_, ?_⟩, fun b ha hs hb => ?_⟩
    · rw [hcore]
    · rw [CoreSite.rdLm_congr hlm]
      exact CoreSite.rdLm_putForecast_acts lm hle hle' hbnd has han
    · rw [CoreSite.rdLm_congr hlm]
      exact CoreSite.rdLm_putForecast_skips lm hle' hbnd hsn
    · rw [hlm]
      exact CoreSite.get_putForecast_outside lm hbnd ha hs hb
  · intro sc skip mk norm wl1 delta first nent rows ent w4 may m h hsc hskip hnorm hcols
    have hready := exec_scout_ready h hsc hskip hnorm hcols
    have hm : (c.found lm).length = m := c.length_found lm
    have hlt := c.f_lt 291 282
    have hle : m ≤ nent := hm ▸ c.length_found_le lm
    rw [hm] at hready
    constructor
    · intro hc
      obtain ⟨r0, r1, hrun⟩ := hready.1 hc
      have hframe := (State.SpeFrame.refl s site _).scouted (c := c) R.CORE.FORECAST_STATS.PROBABLE_MISS .fcMiss m r0 r1
        (List.mem_singleton_self _)
      refine ⟨_, _, _, hrun, ?_, hframe.cores, State.core_scouted _ _ _ _ _, hframe.regs, State.getF_scouted _ _ _ _ _⟩
      rw [hframe.parts]
    · intro hc hw
      obtain ⟨r1, hrun⟩ := hready.2 hc hw
      have hframe := State.speFrame_listed (s := s) (site := site) (c := c) m r1 mk ((c.found lm).flatMap (natLE 2))
      have hcore := State.core_listed (s := s) (site := site) (c := c) m r1 mk ((c.found lm).flatMap (natLE 2))
      have hlm : ((s.listed site c mk ((c.found lm).flatMap (natLE 2)) m r1).core site).lm =
          (lm.wrLm mk ((c.found lm).flatMap (natLE 2))).lm := by rw [hcore]
      refine ⟨_, r1 % 2 ^ 32, hrun, ?_, hframe.cores, ?_, ?_, fun b hb => ?_, hframe.regs, State.getF_scouted _ _ _ _ _⟩
      · rw [hframe.parts]
      · rw [hcore, Nat.mod_eq_of_lt (by omega)]
      · rw [CoreSite.rdLm_congr hlm, ← hm]
        exact CoreSite.rdLm_wrLm_same _ _ _ _ (length_flatMap_natLE _ _)
      · rw [hlm]
        exact CoreSite.get_wrLm_outside _ _ _ _ (by rwa [length_flatMap_natLE, hm])

end Sys2Proof.Machine
end

section
/-! Proofs. Tile rows in storage: the rows and lists that UNPACK writes, and the bytes that it reads (R87, R149 to R151,
R156, R212, R216). -/

namespace Sys2Proof.Tab
variable {α : Type} [DecidableEq α]

theorem entries_append (d : α) (vs ws : List α) (a : Nat) :
    entries d a (vs ++ ws) = entries d a vs ++ entries d (a + vs.length) ws := by
  induction vs generalizing a with
  | nil => rfl
  | cons v vs ih =>
    have hplace : a + (v :: vs).length = a + 1 + vs.length := by rw [List.length_cons]; omega
    rw [List.cons_append, hplace, entries, entries, ih (a + 1)]
    split <;> rfl

/-- Two writes, the second where the first ends, are one. -/
theorem write_write_append (d : α) (t : Tab α) (a : Nat) (vs ws : List α) :
    write d (write d t a vs) (a + vs.length) ws = write d t a (vs ++ ws) := by
  have hlow : (fun e : Nat × α => decide (e.1 < a + vs.length) && decide (e.1 < a)) = fun e => decide (e.1 < a) :=
    funext fun e => by rw [Bool.eq_iff_iff]; simp; omega
  have hmid : (fun e : Nat × α => decide (e.1 < a + vs.length) && decide (a + vs.length ≤ e.1)) = fun _ => false :=
    funext fun e => by simp
  have hcross : (fun e : Nat × α => decide (a + vs.length + ws.length ≤ e.1) && decide (e.1 < a)) = fun _ => false :=
    funext fun e => by simp; omega
  have hhigh : (fun e : Nat × α => decide (a + vs.length + ws.length ≤ e.1) && decide (a + vs.length ≤ e.1)) =
      fun e => decide (a + vs.length + ws.length ≤ e.1) :=
    funext fun e => by rw [Bool.eq_iff_iff]; simp; omega
  have hin : (entries d a vs).filter (fun e => decide (e.1 < a + vs.length)) = entries d a vs :=
    List.filter_eq_self.2 fun e he => by simpa using entries_lt d vs a e he
  have hout : (entries d a vs).filter (fun e => decide (a + vs.length + ws.length ≤ e.1)) = [] :=
    List.filter_eq_nil_iff.2 fun e he => by have := entries_lt d vs a e he; simp; omega
  unfold write
  rw [entries_append, List.length_append, ← Nat.add_assoc]
  simp only [List.filter_append, List.filter_filter, hlow, hmid, hcross, hhigh, hin, hout, List.filter_false, List.append_nil,
    List.nil_append, List.append_assoc]

end Sys2Proof.Tab

namespace Sys2Proof.Machine

theorem CoreSite.wrLm_wrLm_append (c : CoreSite) (a : Nat) (vs ws : List Byte) :
    (c.wrLm a vs).wrLm (a + vs.length) ws = c.wrLm a (vs ++ ws) := by
  unfold CoreSite.wrLm
  dsimp only
  rw [Tab.write_write_append]

theorem State.modCore_modCore (s : State) (i : Nat) (g g' : CoreSite → CoreSite) :
    (s.modCore i g).modCore i g' = s.modCore i fun x => g' (g x) := by
  rw [State.modCore, State.core_modCore, if_pos rfl, State.modCore, State.setCore_setCore]
  rfl

/-- Rows of one pitch, written one behind the other. -/
theorem each_wrLm_rows (s : State) (site dst p m : Nat) (row : Nat → List Byte) (h : ∀ i, i ≤ m → (row i).length = p) :
    each (List.range (m + 1)) s (fun s rho => s.modCore site fun x => x.wrLm (dst + rho * p) (row rho)) =
      s.modCore site fun x => x.wrLm dst ((List.range (m + 1)).flatMap row) := by
  induction m with
  | zero => simp [each]
  | succ m ih =>
    have hlen : ((List.range (m + 1)).flatMap row).length = (m + 1) * p := length_flatMap_range _ _ _ fun i hi => h i (by omega)
    have ih := ih fun i hi => h i (by omega)
    unfold each at ih ⊢
    rw [List.range_succ, List.foldl_append, ih, List.foldl_cons, List.foldl_nil, State.modCore_modCore, List.flatMap_append,
      List.flatMap_singleton, ← hlen]
    simp only [CoreSite.wrLm_wrLm_append]

/-! ### Rows of raw blocks (R87) -/

theorem take_drop_append_left {α : Type} (l m : List α) {o k : Nat} (h : o + k ≤ l.length) :
    ((l ++ m).drop o).take k = (l.drop o).take k := by
  rw [List.drop_append_of_le_length (by omega), List.take_append_of_le_length (by rw [List.length_drop]; omega)]

theorem rowBytes_le_rowPitch (f : EFmt) (n : Nat) : n * (f.blockBytes + 1) ≤ rowPitch f n := le_ceilTo _ (by decide)

section
variable (f : EFmt) (n : Nat) {g : Nat → List Byte × Byte} (h : ∀ e, e < n → (g e).1.length = f.blockBytes)
include h

theorem length_rawRow : (rawRow f ((List.range n).map g)).length = rowPitch f n := by
  have hle := rowBytes_le_rowPitch f n
  rw [Nat.mul_succ] at hle
  have hcodes := length_flatMap_range n f.blockBytes (fun e => (g e).1) h
  unfold rawRow
  simp only [List.flatMap_map, List.map_map, List.length_append, List.length_replicate, List.length_map, List.length_range, hcodes]
  omega

/-- A row's blocks read back. -/
theorem rowBlock_rawRow {e : Nat} (he : e < n) : rowBlock f n e (rawRow f ((List.range n).map g)) = g e := by
  have hcodes := length_flatMap_range n f.blockBytes (fun e => (g e).1) h
  have hle : (e + 1) * f.blockBytes ≤ n * f.blockBytes := Nat.mul_le_mul_right _ he
  rw [Nat.succ_mul] at hle
  unfold rawRow rowBlock
  simp only [List.flatMap_map, List.map_map]
  refine Prod.ext ?_ ?_
  · dsimp only
    rw [List.append_assoc, take_drop_append_left _ _ (by omega)]
    exact take_drop_flatMap_range n _ _ h he
  · dsimp only
    rw [List.append_assoc, List.getD_eq_getElem?_getD, List.getElem?_append_right (by omega), hcodes, Nat.add_sub_cancel_left,
      List.getElem?_append_left (by simpa using he)]
    simp [he]

end

/-! ### The engine's reads -/

/-- The pieces of a range make it up. -/
theorem sum_lineSegs (a n : Nat) : ((lineSegs a n).map (·.2)).sum = n := by
  have hsum (m : Nat) : ((List.range m).map fun k =>
      min (a + n) ((a / 512 + k + 1) * 512) - max a ((a / 512 + k) * 512)).sum = min (a + n) ((a / 512 + m) * 512) - a := by
    induction m with
    | zero => simp; omega
    | succ m ih =>
      rw [List.range_succ, List.map_append, List.sum_append, ih, List.map_singleton, List.sum_singleton]
      omega
  unfold lineSegs
  split_ifs with h
  · simp [h]
  · rw [List.map_map]
    exact (hsum _).trans (by omega)

@[simp] theorem State.length_memRead (s : State) (a n : Nat) : (s.memRead a n).length = n := by
  rw [State.memRead, List.length_flatMap]
  simp only [Tab.length_read]
  exact sum_lineSegs a n

@[simp] theorem State.length_speBytes (s : State) (site a n : Nat) (loc : Bool) : (s.speBytes site a n loc).length = n := by
  cases loc <;> simp [State.speBytes]

/-- Where a byte is held does not depend on how much of tier 2 is mapped. -/
theorem State.canon_congr {s t : State} (h : t.hbm = s.hbm) (a : Nat) : t.canon a = s.canon a := by
  unfold State.canon State.place
  rw [h]
  split_ifs <;> rfl

theorem State.memRead_congr {s t : State} (hm : t.mem = s.mem) (hh : t.hbm = s.hbm) (a n : Nat) : t.memRead a n = s.memRead a n := by
  unfold State.memRead
  simp only [hm, State.canon_congr hh]

@[simp] theorem State.speBytes_speCount (s : State) (site : Nat) (c : SpeCmd) (f : Fld) (e : CEnt) (k a n : Nat) (loc : Bool) :
    (s.speCount site c f e k).speBytes site a n loc = s.speBytes site a n loc := by
  have hmem : (s.speCount site c f e k).mem = s.mem ∧ (s.speCount site c f e k).hbm = s.hbm := by
    unfold State.speCount
    split <;> exact ⟨rfl, rfl⟩
  unfold State.speBytes
  rw [State.core_speCount, State.memRead_congr hmem.1 hmem.2]

/-- The engine may read n bytes from an address on: within one area of local space, or under the cluster's fences, with no
write gathered that a read would let through and free of poison (R156, R199, R212, R216). -/
structure State.SpeReadable (s : State) (site a n : Nat) (loc : Bool) : Prop where
  here  : loc = true → rdOk a n = true
  clear : loc = false → s.deck.gather = [] ∧
    ∀ k j, k + j ≤ n → s.fenceOk (clusterOf site) false (a + k) j = true ∧ s.poisonIn (a + k) j = []

theorem State.flushRange_of_no_gather {s : State} (h : s.deck.gather = []) (a n : Nat) : s.flushRange a n = s := by
  refine List.foldl_fixed' (fun g => ?_) _
  split
  · rw [State.flushLine, h]
    rfl
  · rfl

section
variable {s : State} {site a n : Nat} {loc : Bool}

theorem State.speRead_readable (h : s.SpeReadable site a n loc) {k j : Nat} (hkj : k + j ≤ n) (hj : 0 < j) :
    s.speRead site (a + k) j loc = .got s (s.speBytes site (a + k) j loc) := by
  unfold State.speRead State.speBytes
  cases loc with
  | true => simp [rdOk_within (h.here rfl) (Nat.le_add_right a k) (by omega) hj]
  | false =>
    obtain ⟨hgather, hopen⟩ := h.clear rfl
    obtain ⟨hfence, hpoison⟩ := hopen k j hkj
    simp [hfence, hpoison, State.flushRange_of_no_gather hgather]

theorem State.speReads_readable (h : s.SpeReadable site a n loc) (l : List Rng) (hl : ∀ r ∈ l, r.lo + r.len ≤ n) :
    s.speReads site a loc l = .got s [] := by
  induction l with
  | nil => rfl
  | cons r l ih =>
    have ih := ih fun r hr => hl r (List.mem_cons_of_mem _ hr)
    unfold State.speReads
    split_ifs with h0
    · exact ih
    · rw [State.speRead_readable h (hl r (List.mem_cons_self ..)) (by omega)]
      exact ih

end

end Sys2Proof.Machine
end

section
/-! Proofs. What a header that R150 allows says of its tile row: how many blocks are stored, and where in the row each of
them stands (R149 to R152, R158). -/

namespace Sys2Proof.Machine

/-! ### The kept blocks (R158) -/

/-- The place of a kept block is that of a stored one. -/
theorem keepBlocks_place_lt {ng i : Nat} {seen gs : List Nat} {k : Nat × Nat} (hk : k ∈ (keepBlocks ng i seen gs).1) :
    k.2 < i + gs.length := by
  induction gs generalizing i seen with
  | nil => simp [keepBlocks] at hk
  | cons g gs ih =>
    unfold keepBlocks at hk
    rw [List.length_cons]
    split_ifs at hk
    · have := ih hk
      omega
    · have := ih hk
      omega
    · rcases List.mem_cons.1 hk with rfl | hk
      · dsimp only
        omega
      · have := ih hk
        omega

namespace THdr

/-- How many blocks the row stores. -/
def cells (h : THdr) : Nat := if h.enc = 0 then h.ng else h.npres

/-- Where the payload begins. -/
def body (h : THdr) : Nat := 32 + mapBytes h.enc h.ng h.npres

/-- The kept blocks of a row, then the two counts of drops. -/
abbrev keeps (h : THdr) (bs : List Byte) : List (Nat × Nat) × Nat × Nat := keepBlocks h.ng 0 [] (h.stored bs)

section
variable {h : THdr} (hok : h.ok = true)
include hok

theorem enc_le_of_ok : h.enc ≤ 2 := by
  unfold ok at hok
  simp only [Bool.and_eq_true, decide_eq_true_eq] at hok
  tauto

theorem size_of_ok : h.size = h.sizeIn h.enc := by
  unfold ok at hok
  simp only [Bool.and_eq_true, beq_iff_eq] at hok
  exact hok.2

/-- The row holds its header, its map and its payload. -/
theorem body_add_payload_le : h.body + h.payload h.cells ≤ h.size := by
  rw [size_of_ok hok]
  exact le_ceilTo _ (by decide)

theorem length_stored {bs : List Byte} (hmap : h.mapOk bs = true) : (h.stored bs).length = h.cells := by
  unfold stored cells
  match henc : h.enc with
  | 0 => simp
  | 1 =>
    unfold mapOk at hmap
    rw [if_pos henc] at hmap
    simp only [Bool.and_eq_true, beq_iff_eq] at hmap
    exact hmap.2
  | 2 => simp
  | n + 3 =>
    have := enc_le_of_ok hok
    omega

theorem place_lt_cells {bs : List Byte} (hmap : h.mapOk bs = true) {k : Nat × Nat} (hk : k ∈ (h.keeps bs).1) : k.2 < h.cells := by
  have hlt := keepBlocks_place_lt hk
  rwa [length_stored hok hmap, Nat.zero_add] at hlt

theorem mapRng_le : h.mapRng.lo + h.mapRng.len ≤ h.size := by
  have hsize := body_add_payload_le hok
  exact (Nat.le_add_right _ _).trans hsize

/-- A row of the payload of an activation tile row. -/
theorem row_le (ha : h.act = true) {rho : Nat} (hr : rho < h.rows) :
    h.body + rho * rowPitch h.fmt h.cells + rowPitch h.fmt h.cells ≤ h.size := by
  have hsize := body_add_payload_le hok
  have hrow : (rho + 1) * rowPitch h.fmt h.cells ≤ h.rows * rowPitch h.fmt h.cells := Nat.mul_le_mul_right _ hr
  rw [payload, if_pos ha] at hsize
  rw [Nat.succ_mul] at hrow
  omega

/-- A block of the payload of a weight tile row. -/
theorem weightBlock_le (ha : h.act = false) {k : Nat} (hk : k < h.cells) :
    h.body + k * weightBlock h.fmt h.sq + weightBlock h.fmt h.sq ≤ h.size := by
  have hsize := body_add_payload_le hok
  have hblk : (k + 1) * weightBlock h.fmt h.sq ≤ h.cells * weightBlock h.fmt h.sq := Nat.mul_le_mul_right _ hk
  rw [payload, if_neg (by simp [ha])] at hsize
  rw [Nat.succ_mul] at hblk
  omega

theorem payloadRngs_le {kept : List (Nat × Nat)} (hk : ∀ k ∈ kept, k.2 < h.cells) : ∀ r ∈ h.payloadRngs kept, r.lo + r.len ≤ h.size := by
  intro r hr
  unfold payloadRngs at hr
  dsimp only at hr
  cases ha : h.act with
  | true =>
    rw [if_pos ha] at hr
    obtain ⟨rho, hrho, hr⟩ := List.mem_flatMap.1 hr
    obtain ⟨k, hmem, hr⟩ := List.mem_flatMap.1 hr
    have hrow := row_le hok ha (List.mem_range.1 hrho)
    have hpitch := rowBytes_le_rowPitch h.fmt h.cells
    have hcode : (k.2 + 1) * h.fmt.blockBytes ≤ h.cells * h.fmt.blockBytes := Nat.mul_le_mul_right _ (hk k hmem)
    have hlt := hk k hmem
    rw [Nat.mul_succ] at hpitch
    rw [Nat.succ_mul] at hcode
    unfold body cells at *
    rcases List.mem_cons.1 hr with rfl | hr
    · dsimp only
      omega
    · rw [List.mem_singleton.1 hr]
      dsimp only
      omega
  | false =>
    rw [if_neg (by simp [ha])] at hr
    obtain ⟨k, hmem, rfl⟩ := List.mem_map.1 hr
    have hblk := weightBlock_le hok ha (hk k hmem)
    have hin : 32 * h.fmt.blockBytes + (if h.sq = true then 1 else 32) ≤ weightBlock h.fmt h.sq := le_ceilTo _ (by decide)
    unfold body at hblk
    dsimp only
    omega

end

/-! ### The blocks themselves -/

/-- Row rho of the stored block at a place; a block of zeros where there is none. -/
def actCell (h : THdr) (bs : List Byte) (rho : Nat) : Option (Nat × Nat) → List Byte × Byte
  | some k => rowBlock h.fmt h.cells k.2 ((bs.drop (h.body + rho * rowPitch h.fmt h.cells)).take (rowPitch h.fmt h.cells))
  | none => (List.replicate h.fmt.blockBytes 0, 0)

/-- The codes of element i of a weight block; zeros where there is none. -/
def codeCell (h : THdr) (i : Nat) : Option (List (List Byte × Byte)) → List Byte
  | some b => (b.getD i ([], 0)).1
  | none => List.replicate h.fmt.blockBytes 0

/-- The scale of element i of a weight block; zero where there is none. -/
def scaleCell (i : Nat) : Option (List (List Byte × Byte)) → Byte
  | some b => (b.getD i ([], 0)).2
  | none => 0

/-- The scales of a row of kb tiles whose blocks are given: one of each block under SQ, else one of each element (R151). -/
def scales (h : THdr) (kb : Nat) (blk : Nat → Nat → Option (List (List Byte × Byte))) : List Byte :=
  if h.sq then (List.range h.nblk).flatMap fun nb => (List.range kb).map fun j => scaleCell 0 (blk j nb)
  else (List.range (32 * h.nblk)).flatMap fun q => (List.range kb).map fun j => scaleCell (q % 32) (blk j (q / 32))

theorem length_scales_le (h : THdr) (kb : Nat) (blk : Nat → Nat → Option (List (List Byte × Byte))) :
    (h.scales kb blk).length ≤ 32 * (h.nblk * kb) := by
  unfold scales
  split_ifs
  · rw [length_flatMap_range h.nblk kb _ fun _ _ => by simp]
    omega
  · rw [length_flatMap_range (32 * h.nblk) kb _ fun _ _ => by simp, Nat.mul_assoc]

/-- The position of a block, or the number that says none (R158). -/
def blockPos (h : THdr) : Option (Nat × Nat) → Nat
  | some k => (h.base + k.1) % 65536
  | none => 0xFFFF

/-- The position of a tile, or the number that says none (R158). -/
def tilePos (h : THdr) : Option Nat → Nat
  | some t => (h.base + t) % 65536
  | none => 0xFFFF

theorem blockPos_lt (h : THdr) (o : Option (Nat × Nat)) : h.blockPos o < 256 ^ 2 := by
  cases o with
  | none => show 0xFFFF < 256 ^ 2; decide
  | some k => exact Nat.mod_lt _ (by decide)

theorem tilePos_lt (h : THdr) (o : Option Nat) : h.tilePos o < 256 ^ 2 := by
  cases o with
  | none => show 0xFFFF < 256 ^ 2; decide
  | some t => exact Nat.mod_lt _ (by decide)

theorem length_actCell {h : THdr} {bs : List Byte} (hok : h.ok = true) (ha : h.act = true) (hbs : bs.length = h.size) {rho : Nat}
    (hr : rho < h.rows) {o : Option (Nat × Nat)} (ho : ∀ k ∈ o, k.2 < h.cells) : (h.actCell bs rho o).1.length = h.fmt.blockBytes := by
  cases o with
  | none => exact List.length_replicate ..
  | some k =>
    have hrow := row_le hok ha hr
    have hpitch := rowBytes_le_rowPitch h.fmt h.cells
    have hcode : (k.2 + 1) * h.fmt.blockBytes ≤ h.cells * h.fmt.blockBytes := Nat.mul_le_mul_right _ (ho k rfl)
    rw [Nat.mul_succ] at hpitch
    rw [Nat.succ_mul] at hcode
    simp only [actCell, rowBlock, List.length_take, List.length_drop, hbs]
    omega

theorem length_codeCell {h : THdr} {bs : List Byte} (hok : h.ok = true) (ha : h.act = false) (hbs : bs.length = h.size) {i : Nat}
    (hi : i < 32) {o : Option (List (List Byte × Byte))} (ho : ∀ b ∈ o, ∃ k, k < h.cells ∧ b = h.weightRaw bs k) :
    (h.codeCell i o).length = h.fmt.blockBytes := by
  cases o with
  | none => exact List.length_replicate ..
  | some b =>
    obtain ⟨k, hk, rfl⟩ := ho b rfl
    have hblk := weightBlock_le hok ha hk
    have hin : 32 * h.fmt.blockBytes + (if h.sq = true then 1 else 32) ≤ weightBlock h.fmt h.sq := le_ceilTo _ (by decide)
    have hcode : (i + 1) * h.fmt.blockBytes ≤ 32 * h.fmt.blockBytes := Nat.mul_le_mul_right _ hi
    rw [Nat.succ_mul] at hcode
    unfold body at hblk
    simp only [codeCell, weightRaw, List.getD_eq_getElem?_getD, List.getElem?_map, List.getElem?_range hi, Option.map_some,
      Option.getD_some, List.length_take, List.length_drop, hbs]
    omega

end THdr

end Sys2Proof.Machine
end

section
/-! Proofs. UNPACK: the rows, codes and lists that it writes, and the case of a tile row that R150 does not allow
(R150, R158, R159, R164). -/

namespace Sys2Proof.Machine

/-! ### What UNPACK writes into local space -/

/-- m rows of the tile row and the list of n positions. -/
def CoreSite.putRows (x : CoreSite) (dst list m n : Nat) (row : Nat → List Byte) (pos : Nat → Nat) : CoreSite :=
  (x.wrLm dst ((List.range m).flatMap row)).wrLm list ((List.range n).flatMap fun e => natLE 2 (pos e))

section
variable (x : CoreSite) {dst list m n p : Nat} {row : Nat → List Byte} {pos : Nat → Nat}

theorem CoreSite.putRows_eq : x.putRows dst list m n row pos = { x with lm := (x.putRows dst list m n row pos).lm } := rfl

theorem length_list16 (n : Nat) (pos : Nat → Nat) : ((List.range n).flatMap fun e => natLE 2 (pos e)).length = 2 * n := by
  rw [length_flatMap_range n 2 _ fun _ _ => length_natLE _ _, Nat.mul_comm]

/-- Entry e of a list of 16-bit numbers. -/
theorem CoreSite.rdLm_list16 (a : Nat) {e : Nat} (he : e < n) :
    (x.wrLm a ((List.range n).flatMap fun e => natLE 2 (pos e))).rdLm (a + 2 * e) 2 = natLE 2 (pos e) := by
  rw [Nat.mul_comm]
  exact CoreSite.rdLm_wrLm_piece x a n 2 _ (fun _ _ => length_natLE _ _) he

theorem CoreSite.rdLm_putRows_list {e : Nat} (he : e < n) : (x.putRows dst list m n row pos).rdLm (list + 2 * e) 2 = natLE 2 (pos e) :=
  CoreSite.rdLm_list16 _ list he

section
variable (hrow : ∀ rho, rho < m → (row rho).length = p)
include hrow

theorem CoreSite.rdLm_putRows_row (hd : dst + m * p ≤ list ∨ list + 2 * n ≤ dst) {rho : Nat} (hr : rho < m) :
    (x.putRows dst list m n row pos).rdLm (dst + rho * p) p = row rho := by
  have hle : (rho + 1) * p ≤ m * p := Nat.mul_le_mul_right p hr
  rw [Nat.succ_mul] at hle
  rw [CoreSite.putRows, CoreSite.rdLm_wrLm_disjoint _ _ _ _ _ (by rw [length_list16]; omega), CoreSite.rdLm_wrLm_piece _ _ _ _ _ hrow hr]

theorem CoreSite.get_putRows_outside {b : Nat} (hd : ¬ (dst ≤ b ∧ b < dst + m * p)) (hl : ¬ (list ≤ b ∧ b < list + 2 * n)) :
    Tab.get 0 (x.putRows dst list m n row pos).lm b = Tab.get 0 x.lm b := by
  rw [CoreSite.putRows, CoreSite.get_wrLm_outside _ _ _ _ (by rwa [length_list16]),
    CoreSite.get_wrLm_outside _ _ _ _ (by rwa [length_flatMap_range m p row hrow])]

end

end

/-- The codes of m columns of n weight blocks, their scales, and the list of the n tiles. -/
def CoreSite.putWeights (x : CoreSite) (dst sdst m n : Nat) (code : Nat → Nat → List Byte) (scales : List Byte) (pos : Nat → Nat) : CoreSite :=
  ((x.wrLm dst ((List.range m).flatMap fun q => (List.range n).flatMap (code q))).wrLm sdst scales).wrLm (sdst + 2048)
    ((List.range n).flatMap fun j => natLE 2 (pos j))

section
variable (x : CoreSite) {dst sdst m n k : Nat} {code : Nat → Nat → List Byte} {scales : List Byte} {pos : Nat → Nat}

theorem CoreSite.putWeights_eq : x.putWeights dst sdst m n code scales pos =
    { x with lm := (x.putWeights dst sdst m n code scales pos).lm } := rfl

theorem CoreSite.rdLm_putWeights_list {j : Nat} (hj : j < n) :
    (x.putWeights dst sdst m n code scales pos).rdLm (sdst + 2048 + 2 * j) 2 = natLE 2 (pos j) :=
  CoreSite.rdLm_list16 _ (sdst + 2048) hj

theorem CoreSite.rdLm_putWeights_code (hcode : ∀ q j, q < m → j < n → (code q j).length = k) (hs : scales.length ≤ 2048)
    (hd : dst + m * n * k ≤ sdst ∨ sdst + 2048 + 2 * n ≤ dst) {q j : Nat} (hq : q < m) (hj : j < n) :
    (x.putWeights dst sdst m n code scales pos).rdLm (dst + (q * n + j) * k) k = code q j := by
  have hlen : ((List.range m).flatMap fun q => (List.range n).flatMap (code q)).length = m * n * k := by
    rw [length_flatMap_range m (n * k) _ fun q hq => length_flatMap_range n k (code q) fun j hj => hcode q j hq hj, Nat.mul_assoc]
  have hcell : (q * n + j + 1) * k ≤ m * n * k := by
    refine Nat.mul_le_mul_right k ?_
    calc q * n + j + 1 ≤ (q + 1) * n := by rw [Nat.succ_mul]; omega
      _ ≤ m * n := Nat.mul_le_mul_right n hq
  rw [Nat.succ_mul] at hcell
  rw [CoreSite.putWeights, CoreSite.rdLm_wrLm_disjoint _ _ _ _ _ (by rw [length_list16]; omega),
    CoreSite.rdLm_wrLm_disjoint _ _ _ _ _ (by omega), CoreSite.rdLm_wrLm_part _ _ _ _ _ (by omega),
    take_drop_flatMap_range₂ m n k code hcode hq hj]

end

/-! ### The blocks taken (R158) -/

/-- The kept blocks that the command takes, N from START on. -/
def SpeCmd.taken (c : SpeCmd) (kept : List (Nat × Nat)) : List (Nat × Nat) := (kept.drop (c.f 271 256)).take (c.f 249 240)

theorem SpeCmd.getElem?_taken (c : SpeCmd) (kept : List (Nat × Nat)) {e : Nat} (he : e < c.f 249 240) :
    (c.taken kept)[e]? = kept[c.f 271 256 + e]? := by
  rw [SpeCmd.taken, List.getElem?_take_of_lt he, List.getElem?_drop]

/-- A row of an activation tile row as UNPACK writes it. -/
def SpeCmd.actRow (c : SpeCmd) (h : THdr) (bs : List Byte) (kept : List (Nat × Nat)) (rho : Nat) : List Byte :=
  rawRow h.fmt ((List.range (c.f 249 240)).map fun e => h.actCell bs rho (c.taken kept)[e]?)

/-- What UNPACK of an activation tile row leaves in local space. -/
def CoreSite.putAct (x : CoreSite) (c : SpeCmd) (h : THdr) (bs : List Byte) (kept : List (Nat × Nat)) : CoreSite :=
  x.putRows (c.f 215 192) (c.f 239 216) h.rows (c.f 249 240) (c.actRow h bs kept) fun e => h.blockPos (c.taken kept)[e]?

/-- The blocks that UNPACK takes can be filled into rows. -/
def SpeCmd.ActFits (c : SpeCmd) (h : THdr) (bs : List Byte) (kept : List (Nat × Nat)) : Prop :=
  ∀ rho e, rho < h.rows → e < c.f 249 240 → (h.actCell bs rho (c.taken kept)[e]?).1.length = h.fmt.blockBytes

theorem SpeCmd.ActFits.length_actRow {c : SpeCmd} {h : THdr} {bs : List Byte} {kept : List (Nat × Nat)} (hfit : c.ActFits h bs kept)
    (rho : Nat) (hr : rho < h.rows) : (c.actRow h bs kept rho).length = rowPitch h.fmt (c.f 249 240) :=
  length_rawRow _ _ fun e he => hfit rho e hr he

/-- The blocks of a tile row that R150 allows do. -/
theorem SpeCmd.actFits_of_ok (c : SpeCmd) {h : THdr} {bs : List Byte} (hok : h.ok = true) (hmap : h.mapOk bs = true) (ha : h.act = true)
    (hbs : bs.length = h.size) : c.ActFits h bs (h.keeps bs).1 := fun _ _ hr _ =>
  THdr.length_actCell hok ha hbs hr fun _ hk => THdr.place_lt_cells hok hmap
    (List.mem_of_mem_drop (List.mem_of_mem_take (List.mem_of_getElem? hk)))

/-- A row without blocks is filled with zeros. -/
theorem SpeCmd.actFits_nil (c : SpeCmd) (h : THdr) (bs : List Byte) : c.ActFits h bs [] := fun rho e _ _ => by
  simp [SpeCmd.taken, THdr.actCell]

/-- The state in which UNPACK of an activation tile row has ended. -/
def State.actDone (s : State) (site : Nat) (c : SpeCmd) (h : THdr) (bs : List Byte) (kept : List (Nat × Nat)) (st : Nat) : State :=
  (s.modCore site fun x => x.putAct c h bs kept).speDone site c st (c.taken kept).length (min kept.length (c.f 271 256 + c.f 249 240))

section
variable {s : State} {site : Nat} {c : SpeCmd} {h : THdr} {bs : List Byte} {kept : List (Nat × Nat)}

theorem State.unpackAct_eq (st : Nat) (hfit : c.ActFits h bs kept) (hrows : 0 < h.rows)
    (hd : wrOk (c.f 215 192) (h.rows * rowPitch h.fmt (c.f 249 240)) = true) (hl : wrOk (c.f 239 216) (2 * c.f 249 240) = true) :
    s.unpackAct site c h bs kept st = s.actDone site c h bs kept st := by
  have hwrite : (each (List.range h.rows) s fun s rho => s.modCore site fun x =>
      x.wrLm (c.f 215 192 + rho * rowPitch h.fmt (c.f 249 240)) (c.actRow h bs kept rho)) =
      s.modCore site fun x => x.wrLm (c.f 215 192) ((List.range h.rows).flatMap (c.actRow h bs kept)) := by
    obtain ⟨m, hm⟩ : ∃ m, h.rows = m + 1 := ⟨h.rows - 1, by omega⟩
    rw [hm]
    exact each_wrLm_rows s site _ _ m _ fun rho hr => hfit.length_actRow rho (by omega)
  have hbranch : s.unpackAct site c h bs kept st = ((each (List.range h.rows) s fun s rho => s.modCore site fun x =>
      x.wrLm (c.f 215 192 + rho * rowPitch h.fmt (c.f 249 240)) (c.actRow h bs kept rho)).modCore site fun x =>
        x.wrLm (c.f 239 216) ((List.range (c.f 249 240)).flatMap fun e => natLE 2 (h.blockPos (c.taken kept)[e]?))).speDone
          site c st (c.taken kept).length (min kept.length (c.f 271 256 + c.f 249 240)) :=
    by
      unfold State.unpackAct
      dsimp only
      rw [if_neg (by simp [hd, hl])]
      rfl
  rw [hbranch, hwrite, State.modCore_modCore]
  rfl

end

/-! ### The weight tiles taken (R147, R158) -/

/-- The stored blocks that are not absent. -/
def THdr.presents (h : THdr) (bs : List Byte) (kept : List (Nat × Nat)) : List (Nat × Nat) := kept.filter fun k => h.present bs k.2

/-- The tiles from START on that have one. -/
def SpeCmd.live (c : SpeCmd) (h : THdr) (kept : List (Nat × Nat)) : List Nat :=
  (List.range h.npos).filter fun t => decide (c.f 271 256 ≤ t) && kept.any fun k => k.1 / h.nblk == t

/-- Block nb of the j-th tile of a list. -/
def THdr.tileBlock (h : THdr) (bs : List Byte) (kept : List (Nat × Nat)) (ts : List Nat) (j nb : Nat) : Option (List (List Byte × Byte)) :=
  (ts[j]?).bind fun t => (kept.find? fun k => k.1 == t * h.nblk + nb).map fun k => h.weightRaw bs k.2

theorem THdr.tileBlock_spec {h : THdr} {bs : List Byte} {kept : List (Nat × Nat)} {ts : List Nat} {j nb : Nat} :
    ∀ b ∈ h.tileBlock bs kept ts j nb, ∃ k ∈ kept, b = h.weightRaw bs k.2 := by
  intro b hb
  obtain ⟨t, -, hb⟩ := Option.bind_eq_some_iff.1 hb
  obtain ⟨k, hk, rfl⟩ := Option.map_eq_some_iff.1 hb
  exact ⟨k, List.mem_of_find?_eq_some hk, rfl⟩

/-- What UNPACK of a weight tile row leaves in local space; `kept` are the blocks present. -/
def CoreSite.putWgt (x : CoreSite) (c : SpeCmd) (h : THdr) (bs : List Byte) (kept : List (Nat × Nat)) : CoreSite :=
  let ts := (c.live h kept).take (c.f 253 250 + 1)
  x.putWeights (c.f 215 192) (c.f 239 216) (32 * h.nblk) (c.f 253 250 + 1)
    (fun q j => h.codeCell (q % 32) (h.tileBlock bs kept ts j (q / 32)))
    (h.scales (c.f 253 250 + 1) (h.tileBlock bs kept ts)) fun j => h.tilePos ts[j]?

/-- The state in which UNPACK of a weight tile row with these NaNs and blocks present has ended. -/
def State.wgtDone (s : State) (site : Nat) (c : SpeCmd) (h : THdr) (bs : List Byte) (kept : List (Nat × Nat)) (nan st : Nat) : State :=
  ((s.speNan site c nan).modCore site fun x => x.putWgt c h bs kept).speDone site c st
    ((c.live h kept).take (c.f 253 250 + 1)).length (((c.live h kept)[c.f 253 250 + 1]?).getD h.npos)

theorem State.unpackWgt_eq {s : State} {site : Nat} {c : SpeCmd} {h : THdr} {bs : List Byte} {kept : List (Nat × Nat)} (st : Nat)
    (hd : stagingBase ≤ c.f 215 192) (hd' : c.f 215 192 + 32 * (h.nblk * (c.f 253 250 + 1)) * h.fmt.blockBytes ≤ 0x250000)
    (hs : stagingBase ≤ c.f 239 216) (hs' : c.f 239 216 + 32 * (h.nblk * (c.f 253 250 + 1)) ≤ 0x250000)
    (hk : c.f 239 216 + 2048 + 2 * (c.f 253 250 + 1) ≤ 0x250000) :
    ∃ nan, s.unpackWgt site c h bs kept st = s.wgtDone site c h bs (h.presents bs kept) nan st := by
  rw [← Nat.mul_assoc] at hd' hs'
  have hscales : c.f 239 216 + (if h.sq then h.nblk * (c.f 253 250 + 1) else 32 * h.nblk * (c.f 253 250 + 1)) ≤ 0x250000 := by
    have hle : h.nblk * (c.f 253 250 + 1) ≤ 32 * h.nblk * (c.f 253 250 + 1) := Nat.mul_le_mul_right _ (by omega)
    split_ifs
    · exact (Nat.add_le_add_left hle _).trans hs'
    · exact hs'
  have hin : ¬ ((!(decide (stagingBase ≤ c.f 215 192) && decide (c.f 215 192 + 32 * h.nblk * (c.f 253 250 + 1) * h.fmt.blockBytes ≤ 0x250000)) ||
      !(decide (stagingBase ≤ c.f 239 216) && decide (c.f 239 216 + (if h.sq then h.nblk * (c.f 253 250 + 1) else
        32 * h.nblk * (c.f 253 250 + 1)) ≤ 0x250000)) ||
      !(decide (stagingBase ≤ c.f 239 216 + 2048) && decide (c.f 239 216 + 2048 + 2 * (c.f 253 250 + 1) ≤ 0x250000))) = true) := by
    rw [decide_eq_true hd, decide_eq_true hd', decide_eq_true hs, decide_eq_true hscales, decide_eq_true hk,
      decide_eq_true (hs.trans (Nat.le_add_right _ _))]
    decide
  refine ⟨(kept.map fun k => ((h.weightRaw bs k.2).map (badRaw h.fmt)).sum).sum, ?_⟩
  unfold State.unpackWgt
  dsimp only
  rw [if_neg hin]
  rfl

end Sys2Proof.Machine
end

section
/-! Proofs. UNPACK as a command: a tile row that it can read is unpacked block by block, one that R150 does not allow as a row
without blocks (R150, R156, R158, R159, R164). -/

namespace Sys2Proof.Machine

/-- Where the tile row stands. -/
def SpeCmd.src (c : SpeCmd) : Nat := if flag c.block 180 then c.f 151 128 else c.f 179 128

/-- The header of the tile row (R149). -/
def State.tileHdr (s : State) (site : Nat) (c : SpeCmd) : THdr := THdr.ofBytes (s.speBytes site c.src 32 (flag c.block 180))

/-- The bytes of the tile row. -/
def State.tileBytes (s : State) (site : Nat) (c : SpeCmd) : List Byte :=
  s.speBytes site c.src (s.tileHdr site c).size (flag c.block 180)

theorem State.length_tileBytes (s : State) (site : Nat) (c : SpeCmd) : (s.tileBytes site c).length = (s.tileHdr site c).size :=
  State.length_speBytes ..

theorem State.rows_tileHdr_pos (s : State) (site : Nat) (c : SpeCmd) : 0 < (s.tileHdr site c).rows := Nat.succ_pos _

theorem State.nblk_tileHdr_le (s : State) (site : Nat) (c : SpeCmd) : (s.tileHdr site c).nblk ≤ 4 := Nat.mod_lt _ (by decide)

/-- The state in which the blocks dropped have been counted (R164). -/
def State.countDrops (s : State) (site : Nat) (c : SpeCmd) (d : Nat × Nat) : State :=
  (s.speCount site c R.CORE.SPARSE_DROPS.OUT_OF_RANGE .spOutOfRange d.1).speCount site c R.CORE.SPARSE_DROPS.DUPLICATE .spDuplicate d.2

/-- The state in which an invalid header or map has been counted and reported (R150). -/
def State.badHeader (s : State) (site : Nat) (c : SpeCmd) : State :=
  (s.speCount site c R.CORE.SPARSE_DROPS.HDR_ERR .spHdrErr 1).reportSite site 4 2 0x3FFF (s.core site).pc 0 0 0

/-- UNPACK of a row of either kind. -/
def State.unpackRow (s : State) (site : Nat) (c : SpeCmd) (h : THdr) (bs : List Byte) (kept : List (Nat × Nat)) (st : Nat) : State :=
  if h.act then s.unpackAct site c h bs kept st else s.unpackWgt site c h bs kept st

section
variable {s : State} {site : Nat} (c : SpeCmd) (d : Nat × Nat)

@[simp] theorem State.core_countDrops (j : Nat) : (s.countDrops site c d).core j = s.core j := by
  simp [State.countDrops]

theorem State.speFrame_countDrops : s.SpeFrame (s.countDrops site c d) site
    [R.CORE.SPARSE_DROPS.OUT_OF_RANGE.key site, R.CORE.SPARSE_DROPS.DUPLICATE.key site] :=
  ((State.SpeFrame.refl s site _).speCount c _ _ (by simp)).speCount c _ _ (by simp)

theorem State.getF_countDrops_outOfRange (h : 0 < d.1) : (s.countDrops site c d).getF R.CORE.SPARSE_DROPS.OUT_OF_RANGE site =
    min 255 (s.getF R.CORE.SPARSE_DROPS.OUT_OF_RANGE site + d.1) := by
  have hne : R.CORE.SPARSE_DROPS.OUT_OF_RANGE.key site ≠ R.CORE.SPARSE_DROPS.DUPLICATE.key site :=
    Fld.key_ne_of_place _ (by decide) rfl
  rw [State.countDrops, State.getF_speCount_ne _ _ _ _ _ _ _ _ hne, State.getF_speCount_same _ _ _ _ _ h]
  rfl

theorem State.getF_countDrops_duplicate (h : 0 < d.2) : (s.countDrops site c d).getF R.CORE.SPARSE_DROPS.DUPLICATE site =
    min 255 (s.getF R.CORE.SPARSE_DROPS.DUPLICATE site + d.2) := by
  have hne : R.CORE.SPARSE_DROPS.DUPLICATE.key site ≠ R.CORE.SPARSE_DROPS.OUT_OF_RANGE.key site :=
    Fld.key_ne_of_place _ (by decide) rfl
  rw [State.countDrops, State.getF_speCount_same _ _ _ _ _ h, State.getF_speCount_ne _ _ _ _ _ _ _ _ hne]
  rfl

@[simp] theorem State.core_badHeader (j : Nat) : (s.badHeader site c).core j = s.core j :=
  State.core_speCount s site c R.CORE.SPARSE_DROPS.HDR_ERR .spHdrErr 1 j

theorem State.getF_badHeader_hdrErr : (s.badHeader site c).getF R.CORE.SPARSE_DROPS.HDR_ERR site =
    min 255 (s.getF R.CORE.SPARSE_DROPS.HDR_ERR site + 1) := State.getF_speCount_same s site c _ _ Nat.one_pos

end

/-- An UNPACK that can read the header: an invalid header or map makes the row one without blocks, else its kept blocks are
unpacked. -/
theorem exec_unpack_readable {s : State} {site : Fin 672} {c : SpeCmd} {hd : THdr} {bs : List Byte} {kod : List (Nat × Nat) × Nat × Nat}
    (h : s.speOf site 2 = some c) (hhd : s.tileHdr site c = hd) (hbs : s.tileBytes site c = bs) (hkod : hd.keeps bs = kod)
    (hhdr : s.SpeReadable site c.src 32 (flag c.block 180)) :
    (hd.ok = false → exec (.unpack site) s = .next ((s.badHeader site c).unpackRow site c { hd with npres := 0 } [] [] 1)) ∧
    (hd.ok = true → s.SpeReadable site c.src hd.size (flag c.block 180) →
      (hd.mapOk bs = false → exec (.unpack site) s = .next
        ((s.badHeader site c).unpackRow site c { hd with npres := 0 } [] [] 1)) ∧
      (hd.mapOk bs = true → exec (.unpack site) s = .next ((s.countDrops site c kod.2).unpackRow site c hd bs kod.1 0))) := by
  subst hhd hbs hkod
  have hread := State.speRead_readable hhdr (k := 0) (j := 32) (by omega) (by omega)
  show (_ → execUnpack site s = _) ∧ (_ → _ → (_ → execUnpack site s = _) ∧ (_ → execUnpack site s = _))
  unfold execUnpack
  rw [h]
  dsimp only
  rw [← SpeCmd.src, ← Nat.add_zero c.src, hread]
  dsimp only
  rw [Nat.add_zero, ← State.tileHdr]
  refine ⟨fun hok => if_pos (by simp [hok]), fun hok hrow => ?_⟩
  have hmapRead := State.speReads_readable hrow [(s.tileHdr site c).mapRng] (by simpa using THdr.mapRng_le hok)
  rw [if_neg (by simp [hok]), hmapRead]
  dsimp only
  rw [← State.tileBytes]
  refine ⟨fun hmap => if_pos (by simp [hmap]), fun hmap => ?_⟩
  have hbody := State.speReads_readable hrow _ (THdr.payloadRngs_le hok fun k hk => THdr.place_lt_cells hok hmap hk)
  rw [if_neg (by simp [hmap]), hbody]
  dsimp only
  rw [State.speBytes_speCount, State.speBytes_speCount, ← State.tileBytes]
  rfl

theorem exec_unpack_invalid {s : State} {site : Fin 672} {c : SpeCmd} {hd : THdr} {bs : List Byte} (h : s.speOf site 2 = some c)
    (hhd : s.tileHdr site c = hd) (hbs : s.tileBytes site c = bs) (hhdr : s.SpeReadable site c.src 32 (flag c.block 180))
    (hrow : hd.ok = true → s.SpeReadable site c.src hd.size (flag c.block 180)) (hbad : hd.ok = false ∨ hd.mapOk bs = false) :
    exec (.unpack site) s = .next ((s.badHeader site c).unpackRow site c { hd with npres := 0 } [] [] 1) := by
  obtain ⟨hbadHdr, hread⟩ := exec_unpack_readable h hhd hbs rfl hhdr
  cases hok : hd.ok with
  | false => exact hbadHdr hok
  | true => exact (hread hok (hrow hok)).1 (hbad.resolve_left (by simp [hok]))

theorem SpeCmd.length_taken (c : SpeCmd) (kept : List (Nat × Nat)) :
    (c.taken kept).length = min (c.f 249 240) (kept.length - c.f 271 256) := by
  rw [SpeCmd.taken, List.length_take, List.length_drop]

/-- A command that writes local bytes and ends. -/
theorem State.core_modCore_speDone {s : State} {site : Nat} {x : CoreSite} {g : CoreSite → CoreSite} (c : SpeCmd) (st r0 r1 : Nat)
    (hx : s.core site = x) (hg : g x = { x with lm := (g x).lm }) :
    let t := (s.modCore site g).speDone site c st r0 r1
    t.core site = { x with
      lm := (t.core site).lm, spe := some { c with status := st, r0 := r0 % 2 ^ 32, r1 := r1 % 2 ^ 32, done := true } } ∧
      (t.core site).lm = (g x).lm := by
  have hcore := State.core_speDone (s.modCore site g) site c st r0 r1
  rw [State.core_modCore, if_pos rfl, hx, CoreSite.setSpe_of_lm hg] at hcore
  exact ⟨by rw [hcore], by rw [hcore]⟩

section
variable {s : State} {site : Nat} {x : CoreSite} (c : SpeCmd) (h : THdr) (bs : List Byte) (kept : List (Nat × Nat)) (nan st : Nat)

theorem State.core_actDone (hx : s.core site = x) : let t := s.actDone site c h bs kept st
    t.core site = { x with
      lm := (t.core site).lm
      spe := some { c with
        status := st, r0 := (min (c.f 249 240) (kept.length - c.f 271 256)) % 2 ^ 32
        r1 := (min kept.length (c.f 271 256 + c.f 249 240)) % 2 ^ 32, done := true } } ∧
      (t.core site).lm = (x.putAct c h bs kept).lm := by
  rw [← SpeCmd.length_taken]
  exact State.core_modCore_speDone (g := fun x => x.putAct c h bs kept) c st _ _ hx (CoreSite.putRows_eq _)

theorem State.getF_actDone (f : Fld) (i : Nat) : (s.actDone site c h bs kept st).getF f i = s.getF f i := rfl

theorem State.SpeFrame.actDone {t : State} {ks : List Nat} (hf : s.SpeFrame t site ks) :
    s.SpeFrame (t.actDone site c h bs kept st) site ks := (hf.modCore _).speDone _ _ _ _

theorem State.core_wgtDone (hx : s.core site = x) : let t := s.wgtDone site c h bs kept nan st
    t.core site = { x with
      lm := (t.core site).lm
      spe := some { c with
        status := st, r0 := (min (c.f 253 250 + 1) (c.live h kept).length) % 2 ^ 32
        r1 := (((c.live h kept)[c.f 253 250 + 1]?).getD h.npos) % 2 ^ 32, done := true } } ∧
      (t.core site).lm = (x.putWgt c h bs kept).lm := by
  rw [← List.length_take]
  exact State.core_modCore_speDone (g := fun x => x.putWgt c h bs kept) c st _ _ ((State.core_speNan s site c nan site).trans hx)
    (CoreSite.putWeights_eq _)

theorem State.SpeFrame.wgtDone {t : State} {ks : List Nat} (hf : s.SpeFrame t site ks) :
    s.SpeFrame (t.wgtDone site c h bs kept nan st) site ks := ((hf.speNan c nan).modCore _).speDone _ _ _ _

end

theorem THdr.leNat_blockPos (h : THdr) (o : Option (Nat × Nat)) : leNat (natLE 2 (h.blockPos o)) = h.blockPos o := by
  rw [leNat_natLE, Nat.mod_eq_of_lt (h.blockPos_lt o)]

theorem THdr.leNat_tilePos (h : THdr) (o : Option Nat) : leNat (natLE 2 (h.tilePos o)) = h.tilePos o := by
  rw [leNat_natLE, Nat.mod_eq_of_lt (h.tilePos_lt o)]

/-! ### An activation tile row -/

section
variable (x : CoreSite) {c : SpeCmd} {h : THdr} {bs : List Byte} {kept : List (Nat × Nat)}

theorem CoreSite.putAct_list {e : Nat} (he : e < c.f 249 240) :
    leNat ((x.putAct c h bs kept).rdLm (c.f 239 216 + 2 * e) 2) = h.blockPos kept[c.f 271 256 + e]? := by
  rw [CoreSite.putAct, CoreSite.rdLm_putRows_list _ he, THdr.leNat_blockPos, SpeCmd.getElem?_taken _ _ he]

theorem CoreSite.putAct_row (hfit : c.ActFits h bs kept)
    (hd : c.f 215 192 + h.rows * rowPitch h.fmt (c.f 249 240) ≤ c.f 239 216 ∨ c.f 239 216 + 2 * c.f 249 240 ≤ c.f 215 192) {e rho : Nat}
    (he : e < c.f 249 240) (hr : rho < h.rows) : rowBlock h.fmt (c.f 249 240) e ((x.putAct c h bs kept).rdLm
      (c.f 215 192 + rho * rowPitch h.fmt (c.f 249 240)) (rowPitch h.fmt (c.f 249 240))) = h.actCell bs rho kept[c.f 271 256 + e]? := by
  rw [CoreSite.putAct, CoreSite.rdLm_putRows_row _ hfit.length_actRow hd hr, SpeCmd.actRow,
    rowBlock_rawRow _ _ (fun e he => hfit rho e hr he) he, SpeCmd.getElem?_taken _ _ he]

theorem CoreSite.putAct_outside (hfit : c.ActFits h bs kept) {b : Nat}
    (hd : ¬ (c.f 215 192 ≤ b ∧ b < c.f 215 192 + h.rows * rowPitch h.fmt (c.f 249 240)))
    (hl : ¬ (c.f 239 216 ≤ b ∧ b < c.f 239 216 + 2 * c.f 249 240)) : Tab.get 0 (x.putAct c h bs kept).lm b = Tab.get 0 x.lm b :=
  CoreSite.get_putRows_outside x hfit.length_actRow hd hl

end

/-! ### A weight tile row -/

section
variable (x : CoreSite) {c : SpeCmd} {h : THdr} {bs : List Byte} {kept : List (Nat × Nat)} {j : Nat} (hj : j < c.f 253 250 + 1)
include hj

theorem CoreSite.putWgt_list : leNat ((x.putWgt c h bs kept).rdLm (c.f 239 216 + 2048 + 2 * j) 2) = h.tilePos (c.live h kept)[j]? := by
  unfold CoreSite.putWgt
  rw [CoreSite.rdLm_putWeights_list _ hj, THdr.leNat_tilePos, List.getElem?_take_of_lt hj]

theorem CoreSite.putWgt_code (hok : h.ok = true) (ha : h.act = false) (hbs : bs.length = h.size) (hk : ∀ k ∈ kept, k.2 < h.cells)
    (hn : h.nblk ≤ 4) (hd : c.f 215 192 + 32 * (h.nblk * (c.f 253 250 + 1)) * h.fmt.blockBytes ≤ c.f 239 216 ∨
      c.f 239 216 + 2048 + 2 * (c.f 253 250 + 1) ≤ c.f 215 192) {q : Nat} (hq : q < 32 * h.nblk) :
    (x.putWgt c h bs kept).rdLm (c.f 215 192 + (q * (c.f 253 250 + 1) + j) * h.fmt.blockBytes) h.fmt.blockBytes =
      h.codeCell (q % 32) (h.tileBlock bs kept (c.live h kept) j (q / 32)) := by
  have hscales : 32 * (h.nblk * (c.f 253 250 + 1)) ≤ 32 * (4 * 16) :=
    Nat.mul_le_mul_left _ (Nat.mul_le_mul hn (c.f_lt 253 250))
  have hcell (q j : Nat) : (h.codeCell (q % 32) (h.tileBlock bs kept ((c.live h kept).take (c.f 253 250 + 1)) j (q / 32))).length =
      h.fmt.blockBytes := THdr.length_codeCell hok ha hbs (Nat.mod_lt _ (by decide)) fun b hb => by
    obtain ⟨k, hmem, rfl⟩ := THdr.tileBlock_spec b hb
    exact ⟨k.2, hk k hmem, rfl⟩
  rw [← Nat.mul_assoc] at hd
  unfold CoreSite.putWgt
  rw [CoreSite.rdLm_putWeights_code _ (fun q j _ _ => hcell q j) ((h.length_scales_le _ _).trans hscales) hd hq hj, THdr.tileBlock,
    THdr.tileBlock, List.getElem?_take_of_lt hj]

end

/-- Settles O15: the kept blocks of a tile row of either kind, and the row without blocks. -/
theorem unpackCommand : Obligations.UnpackCommand := by
  unfold Obligations.UnpackCommand
  intro s site c lm loc src dst list n kb start h f p bs kod hspe hloc hmem
  have hhdr : s.SpeReadable site c.src 32 (flag c.block 180) :=
    ⟨fun hl => (hloc hl).1, fun hl => ⟨(hmem hl).1, fun k j hkj => (hmem hl).2 k j (hkj.trans (le_max_left _ _))⟩⟩
  have hrow (hok : h.ok = true) : s.SpeReadable site c.src h.size (flag c.block 180) :=
    ⟨fun hl => (hloc hl).2 hok, fun hl => ⟨(hmem hl).1, fun k j hkj => (hmem hl).2 k j (hkj.trans (le_max_right _ _))⟩⟩
  obtain ⟨-, hread⟩ := exec_unpack_readable (hd := h) (bs := bs) (kod := kod) hspe rfl rfl rfl hhdr
  have hlen : bs.length = h.size := s.length_tileBytes site c
  constructor
  · intro ha hn hd hl hdisj
    have hrows : 0 < h.rows := s.rows_tileHdr_pos site c
    constructor
    · intro hok hmap
      have hfit : c.ActFits h bs kod.1 := c.actFits_of_ok hok hmap ha hlen
      have hrun := ((hread hok (hrow hok)).2 hmap).trans (congrArg Host.Outcome.next ((if_pos ha).trans
        (State.unpackAct_eq 0 hfit hrows hd hl)))
      have hframe := (State.speFrame_countDrops (s := s) (site := site) c kod.2).actDone c h bs kod.1 0
      obtain ⟨hcore, hlm⟩ := State.core_actDone c h bs kod.1 0 (State.core_countDrops (s := s) c kod.2 site)
      refine ⟨_, hrun, hframe.parts, hframe.cores, hframe.tallied, hframe.regs, hcore, fun e he => ?_, fun e rho he hr => ?_,
        fun b hb hb' => ?_, fun hpos => ?_, fun hpos => ?_⟩
      · rw [CoreSite.rdLm_congr hlm]
        refine (lm.putAct_list he).trans ?_
        cases kod.1[start + e]? <;> rfl
      · rw [CoreSite.rdLm_congr hlm]
        refine (lm.putAct_row hfit hdisj he hr).trans ?_
        cases kod.1[start + e]? <;> rfl
      · rw [hlm]
        exact lm.putAct_outside hfit hb hb'
      · rw [State.getF_actDone]
        exact State.getF_countDrops_outOfRange c kod.2 hpos
      · rw [State.getF_actDone]
        exact State.getF_countDrops_duplicate c kod.2 hpos
    · intro hbad
      have hrun := exec_unpack_invalid (hd := h) (bs := bs) hspe rfl rfl hhdr hrow hbad
      have hdone := hrun.trans (congrArg Host.Outcome.next ((if_pos ha).trans
        (State.unpackAct_eq 1 (c.actFits_nil { h with npres := 0 } []) hrows hd hl)))
      obtain ⟨hcore, hlm⟩ := State.core_actDone c { h with npres := 0 } [] [] 1 (State.core_badHeader (s := s) c site)
      refine ⟨_, hdone, ?_, ?_, fun e he => ?_⟩
      · rw [hcore]
        simp
      · rw [State.getF_actDone]
        exact State.getF_badHeader_hdrErr c
      · rw [CoreSite.rdLm_congr hlm]
        exact lm.putAct_list he
  · intro ha hok hmap m cb hd hd' hs hs' hk hdisj kept live
    have hplace : ∀ k ∈ kept, k.2 < h.cells := fun k hk => THdr.place_lt_cells hok hmap (List.mem_of_mem_filter hk)
    obtain ⟨nan, hput⟩ : ∃ nan, (s.countDrops site c kod.2).unpackWgt site c h bs kod.1 0 =
        (s.countDrops site c kod.2).wgtDone site c h bs kept nan 0 := State.unpackWgt_eq 0 hd hd' hs hs' hk
    have hrun := ((hread hok (hrow hok)).2 hmap).trans (congrArg Host.Outcome.next ((if_neg (ne_true_of_eq_false ha)).trans hput))
    have hframe := (State.speFrame_countDrops (s := s) (site := site) c kod.2).wgtDone c h bs kept nan 0
    obtain ⟨hcore, hlm⟩ := State.core_wgtDone c h bs kept nan 0 (State.core_countDrops (s := s) c kod.2 site)
    refine ⟨_, hrun, hframe.parts, hframe.cores, hframe.tallied, hframe.regs, hcore, fun j hj => ?_, fun q j hq hj => ?_⟩
    · rw [CoreSite.rdLm_congr hlm]
      refine (show _ = h.tilePos live[j]? from lm.putWgt_list hj).trans ?_
      cases live[j]? <;> rfl
    · rw [CoreSite.rdLm_congr hlm]
      refine (lm.putWgt_code hj hok ha hlen hplace (s.nblk_tileHdr_le site c) hdisj hq).trans ?_
      show h.codeCell (q % 32) ((live[j]?).bind fun i =>
        (kept.find? fun k => k.1 == i * h.nblk + q / 32).map fun k => h.weightRaw bs k.2) = _
      cases live[j]? with
      | none => rfl
      | some i =>
        simp only [Option.bind_some]
        cases kept.find? fun k => k.1 == i * h.nblk + q / 32 <;> rfl

end Sys2Proof.Machine
end

section
/-! Proofs. Device addresses (R192 to R194): the places of the two views of chip memory, the lines of a range, and the byte
of storage under an address. -/

namespace Sys2Proof.Machine

/-! ### Places -/

/-- The bounds of the address map (R192). -/
theorem mapBounds : spreadSize = 0x3C0000000 ∧ homeBase = 0x400000000 ∧ ctlBase = 0xF00000000 ∧ hbmBase = 0x10000000000 ∧
    hbmSize = 0xF800000000 ∧ resBase = 0x1F800000000 ∧ resSize = 0x800000000 ∧ t2Base = 0x20000000000 :=
  ⟨rfl, rfl, rfl, rfl, rfl, rfl, rfl, rfl⟩

/-- The place i bytes on in the same line. -/
def Place.add (i : Nat) : Place → Place
  | .chip a => .chip (a + i)
  | p => p

section
variable (s : State)

theorem State.place_spread {a : Nat} (h : a < spreadSize) : s.place a = some (.chip a) := if_pos h

theorem State.place_home {n o : Nat} (hn : n < 24) (ho : o < 640 * 2 ^ 20) :
    s.place (homeBase + n * 2 ^ 30 + o) = some (.chip ((24 * (o / 512) + n) * 512 + o % 512)) := by
  obtain ⟨hspread, hhome, -⟩ := mapBounds
  have hq : (homeBase + n * 2 ^ 30 + o - homeBase) / 2 ^ 30 = n := by omega
  have hr : (homeBase + n * 2 ^ 30 + o - homeBase) % 2 ^ 30 = o := by omega
  unfold State.place
  simp only [Bool.and_eq_true, decide_eq_true_eq, hq, hr]
  rw [if_neg (by omega), if_pos (by omega), if_pos ho]

theorem State.place_reserved {a : Nat} (h : resBase ≤ a) (h' : a < resBase + resSize) : s.place a = some .hbmRes := by
  obtain ⟨hspread, hhome, hctl, hhbm, hhbms, hres, hress, -⟩ := mapBounds
  unfold State.place
  simp only [Bool.and_eq_true, decide_eq_true_eq]
  rw [if_neg (by omega), if_neg (by omega), if_neg (by omega), if_neg (by omega), if_pos ⟨h, h'⟩]

theorem State.reserved_of_place {a : Nat} (h : s.place a = some .hbmRes) : resBase ≤ a ∧ a < resBase + resSize := by
  unfold State.place at h
  dsimp only at h
  split_ifs at h with _ _ _ _ _ hres <;> simp_all

/-- Every region of the map is made of whole lines, so the bytes of a line lie in one place. -/
theorem State.place_add {a i : Nat} (h : a % 512 + i < 512) : s.place (a + i) = (s.place a).map (Place.add i) := by
  obtain ⟨hspread, hhome, hctl, hhbm, hhbms, hres, hress, ht2b⟩ := mapBounds
  have ht2 : s.t2Size % 512 = 0 := by
    unfold State.t2Size
    omega
  unfold State.place
  simp only [Bool.and_eq_true, decide_eq_true_eq]
  by_cases h1 : a < spreadSize
  · rw [if_pos (by omega), if_pos h1]; rfl
  rw [if_neg (by omega), if_neg h1]
  by_cases h2 : homeBase ≤ a ∧ a < homeBase + 24 * 2 ^ 30
  · rw [if_pos (by omega), if_pos h2]
    by_cases h3 : (a - homeBase) % 2 ^ 30 < 640 * 2 ^ 20
    · rw [if_pos (by omega), if_pos h3]
      simp only [Option.map_some, Place.add, Option.some.injEq, Place.chip.injEq]
      omega
    · rw [if_neg (by omega), if_neg h3]; rfl
  rw [if_neg (by omega), if_neg h2]
  by_cases h4 : ctlBase ≤ a ∧ a < ctlBase + 2 ^ 28
  · rw [if_pos (by omega), if_pos h4]; rfl
  rw [if_neg (by omega), if_neg h4]
  by_cases h5 : hbmBase ≤ a ∧ a < hbmBase + hbmSize
  · rw [if_pos (by omega), if_pos h5]; rfl
  rw [if_neg (by omega), if_neg h5]
  by_cases h6 : resBase ≤ a ∧ a < resBase + resSize
  · rw [if_pos (by omega), if_pos h6]; rfl
  rw [if_neg (by omega), if_neg h6]
  by_cases h7 : t2Base ≤ a ∧ a < t2Base + s.t2Size
  · rw [if_pos (by omega), if_pos h7]; rfl
  · rw [if_neg (by omega), if_neg h7]; rfl

/-- A frame is made of whole lines. -/
theorem hbmAt_add {a i : Nat} (h : a % 512 + i < 512) (ha : hbmBase ≤ a) :
    hbmAt (a + i) = ((hbmAt a).1, (hbmAt a).2.1, (hbmAt a).2.2 + i) := by
  obtain ⟨-, -, -, hhbm, -, hres, -, -⟩ := mapBounds
  unfold hbmAt
  by_cases h1 : a < resBase
  · rw [if_pos (by omega), if_pos h1]
    simp only [Prod.mk.injEq]
    omega
  · rw [if_neg (by omega), if_neg h1]
    simp only [Prod.mk.injEq]
    omega

theorem State.canon_spread {a : Nat} (h : a < spreadSize) : s.canon a = a := by
  rw [State.canon, s.place_spread h]

/-- A line is held as a whole. -/
theorem State.canon_add {a i : Nat} (h : a % 512 + i < 512) : s.canon (a + i) = s.canon a + i := by
  unfold State.canon
  rw [s.place_add h]
  rcases hp : s.place a with _ | p
  · rfl
  · cases p with
    | hbmRes =>
      obtain ⟨-, -, -, hhbm, -, hres, -, -⟩ := mapBounds
      obtain ⟨hlo, -⟩ := s.reserved_of_place hp
      rw [hbmAt_add h (by omega)]
      simp only [Option.map_some, Place.add]
      split
      · rfl
      · rw [Nat.add_assoc]
    | _ => rfl

end

/-! ### The lines of a range -/

theorem lineSegs_line {a n : Nat} (hn : 0 < n) (h : a % 512 + n ≤ 512) : lineSegs a n = [(a, n)] := by
  have hk : (a + n - 1) / 512 - a / 512 + 1 = 1 := by omega
  unfold lineSegs
  rw [if_neg (by omega), hk]
  simp only [List.range_one, List.map_cons, List.map_nil, List.cons.injEq, Prod.mk.injEq, and_true]
  omega

/-- The bytes of a range in its first line. -/
def lineHead (a n : Nat) : Nat := min n (512 - a % 512)

/-- A range is its first line's bytes and the rest. -/
theorem lineSegs_cons {a n : Nat} (hn : 0 < n) :
    lineSegs a n = (a, lineHead a n) :: lineSegs (a + lineHead a n) (n - lineHead a n) := by
  unfold lineHead
  by_cases hm : n ≤ 512 - a % 512
  · rw [Nat.min_eq_left hm, lineSegs_line hn (by omega), Nat.sub_self]
    rfl
  · have hk : (a + n - 1) / 512 - a / 512 + 1 = (a + n - 1) / 512 - (a / 512 + 1) + 1 + 1 := by omega
    have hd : (a + (512 - a % 512)) / 512 = a / 512 + 1 := by omega
    have he : a + (512 - a % 512) + (n - (512 - a % 512)) = a + n := by omega
    rw [Nat.min_eq_right (by omega)]
    unfold lineSegs
    rw [if_neg (by omega), if_neg (by omega), hk, List.range_succ_eq_map, List.map_cons, List.map_map, he, hd]
    congr 1
    · simp only [Prod.mk.injEq]
      omega
    · refine List.map_congr_left fun k _ => ?_
      simp only [Function.comp_apply, Nat.succ_eq_add_one, Prod.mk.injEq]
      omega

theorem lineHead_bounds {a n : Nat} (hn : 0 < n) : 0 < lineHead a n ∧ lineHead a n ≤ n ∧ a % 512 + lineHead a n ≤ 512 := by
  unfold lineHead
  omega

theorem bounds_of_mem_lineSegs {a n : Nat} {g : Nat × Nat} (h : g ∈ lineSegs a n) :
    a ≤ g.1 ∧ 0 < g.2 ∧ g.1 + g.2 ≤ a + n ∧ g.1 % 512 + g.2 ≤ 512 := by
  induction n using Nat.strong_induction_on generalizing a with
  | h n ih =>
    rcases Nat.eq_zero_or_pos n with rfl | hn
    · simp [lineSegs] at h
    · have hm := lineHead_bounds (a := a) hn
      rw [lineSegs_cons hn, List.mem_cons] at h
      rcases h with rfl | h
      · dsimp only
        omega
      · have := ih _ (by omega) h
        omega

/-! ### Bytes -/

/-- A read looks each byte up where it is held. -/
theorem State.memRead_eq (s : State) (a n : Nat) :
    s.memRead a n = (List.range n).map fun i => Tab.get 0 s.mem (s.canon (a + i)) := by
  induction n using Nat.strong_induction_on generalizing a with
  | h n ih =>
    rcases Nat.eq_zero_or_pos n with rfl | hn
    · rfl
    · obtain ⟨hpos, hle, hline⟩ := lineHead_bounds (a := a) hn
      have hrest := ih (n - lineHead a n) (by omega) (a + lineHead a n)
      have hsplit : List.range n = List.range (lineHead a n) ++ (List.range (n - lineHead a n)).map (lineHead a n + ·) := by
        rw [← List.range_add, Nat.add_sub_cancel' hle]
      unfold State.memRead at hrest ⊢
      rw [lineSegs_cons hn, List.flatMap_cons, hrest, hsplit, List.map_append, List.map_map, Tab.read_eq]
      congr 1
      · refine List.map_congr_left fun i hi => ?_
        rw [s.canon_add (by have := List.mem_range.1 hi; omega)]
      · refine List.map_congr_left fun i _ => ?_
        rw [Function.comp_apply, Nat.add_assoc]

theorem State.memRead_eq_of_get {s t : State} {a b n : Nat}
    (h : ∀ i, i < n → Tab.get 0 t.mem (t.canon (b + i)) = Tab.get 0 s.mem (s.canon (a + i))) : t.memRead b n = s.memRead a n := by
  rw [State.memRead_eq, State.memRead_eq]
  exact List.map_congr_left fun i hi => h i (List.mem_range.1 hi)

/-- A write is the write of its first line's bytes and then that of the rest. -/
theorem State.memWrite_cons (s : State) (p a : Nat) {bs : List Byte} (h : bs ≠ []) :
    s.memWrite p a bs = (s.writeSeg p a (bs.take (lineHead a bs.length))).memWrite p (a + lineHead a bs.length)
      (bs.drop (lineHead a bs.length)) := by
  have hn : 0 < bs.length := List.length_pos_iff.2 h
  unfold State.memWrite
  rw [lineSegs_cons hn, List.length_drop]
  show each _ _ _ = _
  rw [each, List.foldl_cons, Nat.sub_self, List.drop_zero]
  refine List.foldl_ext _ _ _ fun s g hg => ?_
  obtain ⟨hlo, -⟩ := bounds_of_mem_lineSegs hg
  rw [List.drop_drop, show lineHead a bs.length + (g.1 - (a + lineHead a bs.length)) = g.1 - a by omega]

end Sys2Proof.Machine
end

section
/-! Proofs. Writes of device memory (R199, R200, R209, R211): the bytes that a write changes, and what gather buffers and
poison leave of the state. -/

namespace Sys2Proof.Machine

/-! ### What the services of memory leave alone -/

/-- All but what the services of memory touch: the bytes, the gather buffers, poison and the poison met. -/
def State.beside (s : State) : State :=
  { s with mem := [], poison := [], deck := { s.deck with gather := [] }, errs := { s.errs with met := [] } }

/-- What reads only what stands beside reads the same. -/
theorem State.part_of_beside {α : Type} (part : State → α) (hpart : ∀ s : State, part s.beside = part s) {s t : State}
    (h : t.beside = s.beside) : part t = part s := by
  rw [← hpart t, h, hpart]

theorem State.hbm_of_beside {s t : State} (h : t.beside = s.beside) : t.hbm = s.hbm :=
  State.part_of_beside State.hbm (fun _ => rfl) h

theorem State.regs_of_beside {s t : State} (h : t.beside = s.beside) : t.regs = s.regs :=
  State.part_of_beside State.regs (fun _ => rfl) h

theorem State.eq_of_beside {s t : State} (h : t.beside = s.beside) :
    t = { s with mem := t.mem, deck := t.deck, poison := t.poison, errs := t.errs } := by
  cases s
  cases t
  simp only [State.beside, State.mk.injEq] at h ⊢
  tauto

theorem State.deck_of_beside {s t : State} (h : t.beside = s.beside) : t.deck = { s.deck with gather := t.deck.gather } := by
  have hd : ({ t.deck with gather := [] } : Deck) = { s.deck with gather := [] } := congrArg (fun x : State => x.deck) h
  exact congrArg (fun d : Deck => { d with gather := t.deck.gather }) hd

theorem State.errs_of_beside {s t : State} (h : t.beside = s.beside) : t.errs = { s.errs with met := t.errs.met } := by
  have he : ({ t.errs with met := [] } : Errors) = { s.errs with met := [] } := congrArg (fun x : State => x.errs) h
  exact congrArg (fun e : Errors => { e with met := t.errs.met }) he

theorem State.canon_of_beside {s t : State} (h : t.beside = s.beside) (a : Nat) : t.canon a = s.canon a :=
  State.canon_congr (State.hbm_of_beside h) a

theorem State.t2Down_of_beside {s t : State} (h : t.beside = s.beside) (a : Nat) : t.t2Down a = s.t2Down a :=
  State.part_of_beside (State.t2Down · a) (fun _ => rfl) h

@[simp] theorem State.clearPoison_beside (s : State) (k : Nat) : (s.clearPoison k).beside = s.beside := by
  unfold State.clearPoison
  split <;> rfl

@[simp] theorem State.writeEntry_beside (s : State) (e : GEntry) : (s.writeEntry e).beside = s.beside :=
  each_frame State.beside _ _ _ fun _ _ => State.clearPoison_beside _ _

@[simp] theorem State.flushLine_beside (s : State) (sl ln : Nat) : (s.flushLine sl ln).beside = s.beside :=
  each_frame State.beside _ _ _ State.writeEntry_beside

@[simp] theorem State.flushRange_beside (s : State) (a n : Nat) : (s.flushRange a n).beside = s.beside :=
  each_frame State.beside _ _ _ fun s g => by split <;> simp

@[simp] theorem State.gatherWrite_beside (s : State) (p b n : Nat) : (s.gatherWrite p b n).beside = s.beside := by
  have h (l : List GEntry) : (each l s State.writeEntry).beside = s.beside :=
    each_frame State.beside _ _ _ State.writeEntry_beside
  unfold State.gatherWrite
  dsimp only
  split
  · split
    · exact (State.writeEntry_beside _ _).trans (h _)
    · exact h _
  · split
    · split
      · exact (State.writeEntry_beside _ _).trans (h _)
      · exact h _
    · exact h _

@[simp] theorem State.wholeLine_beside (s : State) (b : Nat) : (s.wholeLine b).beside = s.beside :=
  each_frame State.beside _ _ _ fun _ _ => State.clearPoison_beside _ _

/-- A write that its link lets through touches nothing else. -/
theorem State.writeSeg_beside {s : State} {a : Nat} (h : s.t2Down a = false) (p : Nat) (bs : List Byte) :
    (s.writeSeg p a bs).beside = s.beside := by
  unfold State.writeSeg
  rw [h, if_neg (by simp)]
  dsimp only
  split
  · split
    · exact State.wholeLine_beside _ _
    · exact State.gatherWrite_beside _ _ _ _
  · exact each_frame State.beside _ _ _ State.clearPoison_beside

/-- The links of tier 2 that a range uses are up. -/
def State.linksUp (s : State) (a n : Nat) : Prop := ∀ g ∈ lineSegs a n, s.t2Down g.1 = false

theorem State.linksUp_of_beside {s t : State} (h : t.beside = s.beside) {a n : Nat} (hu : s.linksUp a n) : t.linksUp a n :=
  fun g hg => (State.t2Down_of_beside h _).trans (hu g hg)

theorem State.t2Down_of_place {s : State} {a : Nat} (h : s.place a ≠ some .tier2) : s.t2Down a = false := by
  unfold State.t2Down
  split
  · contradiction
  · rfl

theorem State.linksUp_of_place {s : State} {a n : Nat} (h : ∀ i, i < n → s.place (a + i) ≠ some .tier2) : s.linksUp a n := by
  intro g hg
  obtain ⟨hlo, hpos, hhi, -⟩ := bounds_of_mem_lineSegs hg
  have := h (g.1 - a) (by omega)
  rw [Nat.add_sub_cancel' hlo] at this
  exact State.t2Down_of_place this

theorem State.memWrite_beside {s : State} {a : Nat} {bs : List Byte} (h : s.linksUp a bs.length) (p : Nat) :
    (s.memWrite p a bs).beside = s.beside := by
  have fold (l : List (Nat × Nat)) (hl : ∀ g ∈ l, s.t2Down g.1 = false) (t : State) (ht : t.beside = s.beside) :
      (each l t fun s g => s.writeSeg p g.1 ((bs.drop (g.1 - a)).take g.2)).beside = s.beside := by
    induction l generalizing t with
    | nil => exact ht
    | cons g l ih =>
      refine ih (fun g hg => hl g (List.mem_cons_of_mem _ hg)) _ ?_
      rw [State.writeSeg_beside ((State.t2Down_of_beside ht _).trans (hl g (List.mem_cons_self ..))), ht]
  exact fold _ h s rfl

@[simp] theorem State.writeSeg_hbm (s : State) (p a : Nat) (bs : List Byte) : (s.writeSeg p a bs).hbm = s.hbm := by
  cases h : s.t2Down a with
  | false => exact State.hbm_of_beside (State.writeSeg_beside h p bs)
  | true => simp [State.writeSeg, h]

@[simp] theorem State.memWrite_hbm (s : State) (p a : Nat) (bs : List Byte) : (s.memWrite p a bs).hbm = s.hbm :=
  each_frame State.hbm _ _ _ fun _ _ => State.writeSeg_hbm _ _ _ _

@[simp] theorem State.canon_memWrite (s : State) (p a : Nat) (bs : List Byte) (b : Nat) : (s.memWrite p a bs).canon b = s.canon b :=
  State.canon_congr (State.memWrite_hbm s p a bs) b

/-! ### The bytes of a write -/

/-- A byte under none of the addresses written keeps its value. -/
theorem State.get_memWrite_outside (s : State) (p a : Nat) (bs : List Byte) {k : Nat}
    (h : ∀ i, i < bs.length → s.canon (a + i) ≠ k) : Tab.get 0 (s.memWrite p a bs).mem k = Tab.get 0 s.mem k := by
  induction hn : bs.length using Nat.strong_induction_on generalizing s a bs with
  | h n ih =>
    subst hn
    rcases eq_or_ne bs [] with rfl | hne
    · rfl
    · obtain ⟨hpos, hle, hline⟩ := lineHead_bounds (a := a) (List.length_pos_iff.2 hne)
      rw [State.memWrite_cons s p a hne, ih (bs.drop (lineHead a bs.length)).length (by rw [List.length_drop]; omega) _ _ _ _ rfl,
        State.writeSeg_mem]
      · split
        · rfl
        · refine Tab.get_write_outside _ _ _ _ _ fun hk => ?_
          rw [List.length_take, Nat.min_eq_left hle] at hk
          refine h (k - s.canon a) (by omega) ?_
          rw [s.canon_add (by omega)]
          omega
      · intro i hi
        rw [List.length_drop] at hi
        rw [State.canon_congr (State.writeSeg_hbm s p a _), Nat.add_assoc]
        exact h _ (by omega)

/-- Where no two addresses written are one byte, a byte written is read back. -/
theorem State.get_memWrite (s : State) (p a : Nat) (bs : List Byte) (hu : s.linksUp a bs.length)
    (hinj : ∀ i j, i < bs.length → j < bs.length → s.canon (a + i) = s.canon (a + j) → i = j) {i : Nat} (hi : i < bs.length) :
    Tab.get 0 (s.memWrite p a bs).mem (s.canon (a + i)) = bs.getD i 0 := by
  induction hn : bs.length using Nat.strong_induction_on generalizing s a bs i with
  | h n ih =>
    subst hn
    have hne : bs ≠ [] := List.length_pos_iff.1 (by omega)
    obtain ⟨hpos, hle, hline⟩ := lineHead_bounds (a := a) (List.length_pos_iff.2 hne)
    have hdown : s.t2Down a = false := hu (a, lineHead a bs.length) (by
      rw [lineSegs_cons (List.length_pos_iff.2 hne)]
      exact List.mem_cons_self ..)
    have hcanon (b : Nat) : (s.writeSeg p a (bs.take (lineHead a bs.length))).canon b = s.canon b :=
      State.canon_congr (State.writeSeg_hbm s p a _) b
    rw [State.memWrite_cons s p a hne]
    by_cases hhead : i < lineHead a bs.length
    · rw [State.get_memWrite_outside _ _ _ _ (fun j hj heq => ?_), State.writeSeg_mem, hdown, if_neg (by simp), Tab.get_write,
        s.canon_add (by omega), if_pos (by rw [List.length_take]; omega), Nat.add_sub_cancel_left,
        List.getD_eq_getElem?_getD, List.getElem?_take_of_lt hhead, List.getD_eq_getElem?_getD]
      rw [List.length_drop] at hj
      rw [hcanon, Nat.add_assoc] at heq
      have := hinj _ _ (by omega) hi heq
      omega
    · have hrest := ih (bs.drop (lineHead a bs.length)).length (by rw [List.length_drop]; omega)
        (s.writeSeg p a (bs.take (lineHead a bs.length))) (a + lineHead a bs.length) (bs.drop (lineHead a bs.length))
        (State.linksUp_of_beside (State.writeSeg_beside hdown p _) fun g hg => hu g (by
          rw [lineSegs_cons (List.length_pos_iff.2 hne)]
          rw [List.length_drop] at hg
          exact List.mem_cons_of_mem _ hg))
        (fun j k hj hk heq => ?_) (i := i - lineHead a bs.length) (by rw [List.length_drop]; omega) rfl
      · rw [hcanon, Nat.add_assoc, Nat.add_sub_cancel' (by omega)] at hrest
        rw [hrest, List.getD_eq_getElem?_getD, List.getElem?_drop, Nat.add_sub_cancel' (by omega), List.getD_eq_getElem?_getD]
      · rw [List.length_drop] at hj hk
        rw [hcanon, hcanon, Nat.add_assoc, Nat.add_assoc] at heq
        have := hinj _ _ (by omega) (by omega) heq
        omega

/-- What is written is read back. -/
theorem State.memRead_memWrite_same (s : State) (p a : Nat) (bs : List Byte) (hu : s.linksUp a bs.length)
    (hinj : ∀ i j, i < bs.length → j < bs.length → s.canon (a + i) = s.canon (a + j) → i = j) :
    (s.memWrite p a bs).memRead a bs.length = bs := by
  rw [State.memRead_eq]
  refine List.ext_getElem (by simp) fun i h1 h2 => ?_
  rw [List.getElem_map, List.getElem_range, State.canon_memWrite, State.get_memWrite s p a bs hu hinj h2,
    List.getD_eq_getElem?_getD, List.getElem?_eq_getElem h2, Option.getD_some]

/-- Addresses that share no byte with those written read as before. -/
theorem State.memRead_memWrite_disjoint (s : State) (p a : Nat) (bs : List Byte) (b n : Nat)
    (h : ∀ i j, i < bs.length → j < n → s.canon (a + i) ≠ s.canon (b + j)) : (s.memWrite p a bs).memRead b n = s.memRead b n :=
  State.memRead_eq_of_get fun j hj => by
    rw [State.canon_memWrite, State.get_memWrite_outside s p a bs fun i hi => h i j hi hj]

/-- The addresses of chip memory as spread are its bytes. -/
theorem State.canon_spread_inj (s : State) {a n : Nat} (h : a + n ≤ spreadSize) (i j : Nat) (hi : i < n) (hj : j < n)
    (heq : s.canon (a + i) = s.canon (a + j)) : i = j := by
  rw [s.canon_spread (by omega), s.canon_spread (by omega)] at heq
  omega

theorem State.canon_line_inj (s : State) {a n : Nat} (h : a % 512 + n ≤ 512) (i j : Nat) (hi : i < n) (hj : j < n)
    (heq : s.canon (a + i) = s.canon (a + j)) : i = j := by
  rw [s.canon_add (by omega), s.canon_add (by omega)] at heq
  omega

theorem State.linksUp_line {s : State} {a n : Nat} (hn : 0 < n) (h : a % 512 + n ≤ 512) (hd : s.t2Down a = false) : s.linksUp a n := by
  intro g hg
  rw [lineSegs_line hn h, List.mem_singleton] at hg
  rw [hg]
  exact hd

theorem State.linksUp_spread (s : State) {a n : Nat} (h : a + n ≤ spreadSize) : s.linksUp a n :=
  State.linksUp_of_place fun i hi => by
    rw [s.place_spread (by omega)]
    simp

/-- A write within a line changes no byte but those of the line's storage that it names. -/
theorem State.memBut_memWrite_line (s : State) (p : Nat) {a : Nat} {bs : List Byte} (h : a % 512 + bs.length ≤ 512) :
    s.memBut (s.memWrite p a bs) (s.canon a) bs.length := fun k hk =>
  State.get_memWrite_outside s p a bs fun i hi => by
    rw [s.canon_add (by omega)]
    omega

theorem State.memBut_memWrite_spread (s : State) (p : Nat) {a : Nat} {bs : List Byte} (h : a + bs.length ≤ spreadSize) :
    s.memBut (s.memWrite p a bs) a bs.length := fun k hk =>
  State.get_memWrite_outside s p a bs fun i hi => by
    rw [s.canon_spread (by omega)]
    omega

/-! ### Poison only goes -/

/-- No sector is poisoned that was not. -/
def State.noNewPoison (s t : State) : Prop := ∀ k, Tab.get false t.poison k = true → Tab.get false s.poison k = true

theorem State.noNewPoison_refl (s : State) : s.noNewPoison s := fun _ h => h

theorem State.noNewPoison.trans {s t u : State} (h : s.noNewPoison t) (h' : t.noNewPoison u) : s.noNewPoison u :=
  fun k hk => h k (h' k hk)

theorem each_noNewPoison {α : Type} (l : List α) (s : State) (f : State → α → State) (h : ∀ (s : State) a, s.noNewPoison (f s a)) :
    s.noNewPoison (each l s f) := by
  induction l generalizing s with
  | nil => exact s.noNewPoison_refl
  | cons a l ih => exact State.noNewPoison.trans (h s a) (ih (f s a))

theorem State.clearPoison_noNewPoison (s : State) (k : Nat) : s.noNewPoison (s.clearPoison k) := fun j hj => by
  unfold State.clearPoison at hj
  split at hj
  · rw [Tab.get_set] at hj
    split at hj
    · cases hj
    · exact hj
  · exact hj

theorem State.writeEntry_noNewPoison (s : State) (e : GEntry) : s.noNewPoison (s.writeEntry e) :=
  each_noNewPoison _ (s.modDeck fun d => { d with gather := d.gather.filter (· != e) }) _ fun _ _ => State.clearPoison_noNewPoison _ _

theorem State.flushLine_noNewPoison (s : State) (sl ln : Nat) : s.noNewPoison (s.flushLine sl ln) :=
  each_noNewPoison _ _ _ State.writeEntry_noNewPoison

theorem State.flushRange_noNewPoison (s : State) (a n : Nat) : s.noNewPoison (s.flushRange a n) :=
  each_noNewPoison _ _ _ fun s g => by
    split
    · exact State.flushLine_noNewPoison _ _ _
    · exact s.noNewPoison_refl

theorem State.wholeLine_noNewPoison (s : State) (b : Nat) : s.noNewPoison (s.wholeLine b) :=
  each_noNewPoison _ (s.modDeck fun d => { d with gather := d.gather.filter fun e => !(e.slice == sliceOf b && e.line == sliceLine b) }) _
    fun _ _ => State.clearPoison_noNewPoison _ _

theorem State.gatherWrite_noNewPoison (s : State) (p b n : Nat) : s.noNewPoison (s.gatherWrite p b n) := by
  have h (l : List GEntry) : s.noNewPoison (each l s State.writeEntry) := each_noNewPoison _ _ _ State.writeEntry_noNewPoison
  unfold State.gatherWrite
  dsimp only
  split
  · split
    · exact State.noNewPoison.trans (h _) (State.writeEntry_noNewPoison _ _)
    · exact h _
  · split
    · split
      · exact State.noNewPoison.trans (h _) (State.writeEntry_noNewPoison _ _)
      · exact h _
    · exact h _

theorem State.writeSeg_noNewPoison (s : State) (p a : Nat) (bs : List Byte) : s.noNewPoison (s.writeSeg p a bs) := by
  unfold State.writeSeg
  split
  · exact s.noNewPoison_refl
  · have hmem : s.noNewPoison { s with mem := Tab.write 0 s.mem (s.canon a) bs } := fun _ h => h
    dsimp only
    split
    · split
      · exact hmem.trans (State.wholeLine_noNewPoison _ _)
      · exact hmem.trans (State.gatherWrite_noNewPoison _ _ _ _)
    · exact hmem.trans (each_noNewPoison _ _ _ State.clearPoison_noNewPoison)

theorem State.memWrite_noNewPoison (s : State) (p a : Nat) (bs : List Byte) : s.noNewPoison (s.memWrite p a bs) :=
  each_noNewPoison _ _ _ fun _ _ => State.writeSeg_noNewPoison _ _ _ _

end Sys2Proof.Machine
end

section
/-! Proofs. Both views of chip memory (R193), and what a write within a line leaves (R192, R199, R200, R211). -/

namespace Sys2Proof.Machine

/-- The spread line of a home-view offset, in its slice and as its slice line. -/
theorem homeLine {n o : Nat} (hn : n < 24) (ho : o < 640 * 2 ^ 20) : let b := (24 * (o / 512) + n) * 512 + o % 512
    b < spreadSize ∧ b / 512 = 24 * (o / 512) + n ∧ b % 512 = o % 512 ∧ sliceOf b = n ∧ sliceLine b = o / 512 := by
  simp only [spreadSize, sliceOf, sliceLine]
  omega

/-- Settles O17, by the arithmetic of lines: a line lies in one slice, and both views of it are held under one address. -/
theorem addressViews : Obligations.AddressViews := by
  unfold Obligations.AddressViews
  refine fun s => ⟨fun a ha => ?_, fun n o hn ho => ?_⟩
  · refine ⟨s.place_spread ha, ?_⟩
    simp only [spreadSize] at ha
    simp only [sliceOf, sliceLine, Nat.shiftRight_eq_div_pow, true_and]
    omega
  · obtain ⟨hsize, hline, hbyte, hslice, hplace⟩ := homeLine hn ho
    have hhome := s.place_home hn ho
    simp only [Nat.shiftRight_eq_div_pow]
    refine ⟨_, hhome, hsize, hline, hbyte, hslice, hplace, fun m hm => State.memRead_eq_of_get fun i hi => ?_⟩
    have hcanon : s.canon (homeBase + n * 2 ^ 30 + o) = (24 * (o / 512) + n) * 512 + o % 512 := by
      rw [State.canon, hhome]
    have hbase : (homeBase + n * 2 ^ 30 + o) % 512 = o % 512 := by
      simp only [homeBase]
      omega
    rw [s.canon_add (i := i) (by omega), s.canon_add (i := i) (by omega), hcanon, s.canon_spread hsize]

/-- Settles O18: a line is held as a whole, so a write of it is one write of storage. -/
theorem writeThenRead : Obligations.WriteThenRead := by
  unfold Obligations.WriteThenRead
  intro s port a bs _ hdown hpos hline
  have hup := State.linksUp_line hpos hline hdown
  have hbeside := State.memWrite_beside hup port
  refine ⟨State.eq_of_beside hbeside, s.memRead_memWrite_same port a bs hup (s.canon_line_inj hline),
    s.memBut_memWrite_line port hline, State.errs_of_beside hbeside, fun x n hx => ?_, s.memWrite_noNewPoison port a bs⟩
  refine s.memRead_memWrite_disjoint port a bs x n fun i j hi hj => ?_
  rw [s.canon_add (by omega)]
  have := hx j hj
  omega

/-! ### Inbound requests (R210) -/

section
variable {s : State} {port : Fin 4} {a : Nat} {data : List Byte} {len : Nat} (hup : s.cxl.up.contains port.val = true)
include hup

theorem exec_cxlInboundRequest_refused {wr : Bool} (h : inReserved a (if wr then data.length else len) = false) :
    exec (.cxlInboundRequest port a wr data len) s = .next (s.addF R.PCH.T2_EVENTS.INBOUND_REFUSED 0 1) := by
  show execCxlInboundRequest port a wr data len s = _
  simp only [execCxlInboundRequest, hup, h, Bool.not_true, Bool.not_false, Bool.false_eq_true, if_true, if_false]

theorem exec_cxlInboundRequest_read (h : inReserved a len = true) :
    exec (.cxlInboundRequest port a false data len) s = .next { s with cxl := { s.cxl with out := s.memRead a len } } := by
  show execCxlInboundRequest port a false data len s = _
  simp only [execCxlInboundRequest, hup, h, Bool.not_true, Bool.false_eq_true, if_false]

theorem exec_cxlInboundRequest_write (h : inReserved a data.length = true) :
    exec (.cxlInboundRequest port a true data len) s = .next (s.memWrite (servicePort port) a data) := by
  show execCxlInboundRequest port a true data len s = _
  simp only [execCxlInboundRequest, hup, h, Bool.not_true, Bool.false_eq_true, if_true, if_false]

end

theorem inReserved_iff {a n : Nat} : inReserved a n = true ↔ resBase ≤ a ∧ a + n ≤ resBase + resSize := by
  simp [inReserved]

theorem State.place_of_inReserved (s : State) {a n : Nat} (h : inReserved a n = true) {i : Nat} (hi : i < n) :
    s.place (a + i) = some .hbmRes := by
  obtain ⟨hlo, hhi⟩ := inReserved_iff.1 h
  exact s.place_reserved (by omega) (by omega)

theorem State.linksUp_reserved (s : State) {a n : Nat} (h : inReserved a n = true) : s.linksUp a n :=
  State.linksUp_of_place fun i hi => by
    rw [s.place_of_inReserved h hi]
    simp

/-- A write to memory other than the chip's touches no gather buffer. -/
theorem State.writeSeg_deck {s : State} {a : Nat} (h : ∀ b, s.place a ≠ some (.chip b)) (p : Nat) (bs : List Byte) :
    (s.writeSeg p a bs).deck = s.deck := by
  unfold State.writeSeg
  split
  · rfl
  · dsimp only
    split
    · next hp => exact absurd hp (h _)
    · exact each_frame State.deck _ _ _ fun s k => by
        unfold State.clearPoison
        split <;> rfl

theorem State.memWrite_deck {s : State} {a : Nat} {bs : List Byte} (h : inReserved a bs.length = true) (p : Nat) :
    (s.memWrite p a bs).deck = s.deck := by
  have fold (l : List (Nat × Nat)) (hl : ∀ g ∈ l, ∃ i < bs.length, g.1 = a + i) (t : State) :
      (each l t fun s g => s.writeSeg p g.1 ((bs.drop (g.1 - a)).take g.2)).deck = t.deck := by
    induction l generalizing t with
    | nil => rfl
    | cons g l ih =>
      obtain ⟨i, hi, hg⟩ := hl g (List.mem_cons_self ..)
      refine (ih (fun g hg => hl g (List.mem_cons_of_mem _ hg)) _).trans (State.writeSeg_deck (fun b => ?_) p _)
      rw [hg, t.place_of_inReserved h hi]
      simp
  refine fold _ (fun g hg => ?_) s
  obtain ⟨hlo, hpos, hhi, -⟩ := bounds_of_mem_lineSegs hg
  exact ⟨g.1 - a, by omega, by omega⟩

/-- Settles O22: in the reserved region no tier-2 link and no gather buffer has a part in a write. -/
theorem inboundRequests : Obligations.InboundRequests := by
  unfold Obligations.InboundRequests
  refine fun s port a data len hup => ⟨fun hlo hhi => ?_, fun hlo hhi => ?_, fun wr h => ?_⟩
  · exact exec_cxlInboundRequest_read hup (inReserved_iff.2 ⟨hlo, hhi⟩)
  · have hres := inReserved_iff.2 ⟨hlo, hhi⟩
    have hlinks := s.linksUp_reserved hres
    have hbeside := State.memWrite_beside hlinks (servicePort port)
    refine ⟨_, exec_cxlInboundRequest_write hup hres, ?_, s.memRead_memWrite_same _ a data hlinks,
      fun b hb => s.get_memWrite_outside _ a data hb⟩
    rw [← State.memWrite_deck hres (servicePort port)]
    exact State.eq_of_beside hbeside
  · refine ⟨_, exec_cxlInboundRequest_refused hup ?_, s.getF_addF_same _ _ _, s.regsBut_addF _ _ _⟩
    rw [← Bool.not_eq_true, inReserved_iff]
    omega

end Sys2Proof.Machine
end

section
/-! Proofs. The deck's commands (R195, R196, R199 to R202, R211 to R213): line operations, the gather buffers written out,
the atomic add and the scrub. -/

namespace Sys2Proof.Machine

/-! ### Registers and bytes -/

/-- Fields at different places of their pages' instances are different, whatever the instances. -/
theorem Fld.key_ne_of_low {f g : Fld} (h : (64 * f.off + f.lo) % 262144 ≠ (64 * g.off + g.lo) % 262144) (i j : Nat) :
    f.key i ≠ g.key j := by
  unfold Fld.key
  omega

/-- What a write in the spread view makes of each byte. -/
theorem State.get_memWrite_spread (s : State) (p : Nat) {a : Nat} {bs : List Byte} (h : a + bs.length ≤ spreadSize) (k : Nat) :
    Tab.get 0 (s.memWrite p a bs).mem k = if a ≤ k ∧ k < a + bs.length then bs.getD (k - a) 0 else Tab.get 0 s.mem k := by
  split
  · next hk =>
    have hget := s.get_memWrite p a bs (s.linksUp_spread h) (s.canon_spread_inj h) (i := k - a) (by omega)
    rwa [s.canon_spread (by omega), Nat.add_sub_cancel' hk.1] at hget
  · next hk => exact s.memBut_memWrite_spread p h k hk

theorem State.memWrite_spread_beside (s : State) (p : Nat) {a : Nat} {bs : List Byte} (h : a + bs.length ≤ spreadSize) :
    (s.memWrite p a bs).beside = s.beside :=
  State.memWrite_beside (s.linksUp_spread h) p

theorem each_id {α : Type} (l : List α) (s : State) (f : State → α → State) (h : ∀ a ∈ l, f s a = s) : each l s f = s := by
  induction l with
  | nil => rfl
  | cons a l ih =>
    show each l (f s a) f = s
    rw [h a (List.mem_cons_self ..)]
    exact ih fun b hb => h b (List.mem_cons_of_mem _ hb)

/-! ### A masked write of a line (R201) -/

/-- Single bytes of a line, written one after the other. -/
def State.writeBytes (s : State) (port a : Nat) (data : List Byte) (l : List Nat) : State :=
  each l s fun s i => s.memWrite port (a + i) [data.getD i 0]

theorem State.writeBytes_spread (s : State) (port : Nat) {a : Nat} (data : List Byte) (l : List Nat)
    (hl : ∀ i ∈ l, a + i < spreadSize) : (s.writeBytes port a data l).beside = s.beside ∧
    ∀ k, Tab.get 0 (s.writeBytes port a data l).mem k = if a ≤ k ∧ k - a ∈ l then data.getD (k - a) 0 else Tab.get 0 s.mem k := by
  induction l generalizing s with
  | nil => exact ⟨rfl, fun k => by rw [if_neg (by simp)]; rfl⟩
  | cons i l ih =>
    have hi : a + i + [data.getD i 0].length ≤ spreadSize := hl i (List.mem_cons_self ..)
    obtain ⟨hbeside, hget⟩ := ih (s.memWrite port (a + i) [data.getD i 0]) fun j hj => hl j (List.mem_cons_of_mem _ hj)
    refine ⟨hbeside.trans (s.memWrite_spread_beside port hi), fun k => (hget k).trans ?_⟩
    rw [s.get_memWrite_spread port hi]
    by_cases hk : a + i = k
    · subst hk
      simp
    · have hne : ¬ (a + i ≤ k ∧ k < a + i + 1) := by omega
      have hmem : (a ≤ k ∧ k - a ∈ i :: l) ↔ (a ≤ k ∧ k - a ∈ l) := by
        rw [List.mem_cons]
        refine and_congr_right fun hak => or_iff_right ?_
        omega
      simp only [List.length_singleton, if_neg hne, hmem]

/-- A masked write sets the bytes of the line that its mask selects. -/
theorem State.writeMasked_spread (s : State) (port : Nat) {a mask : Nat} (data : List Byte) (h : a + 512 ≤ spreadSize) :
    (s.writeMasked port a mask data).beside = s.beside ∧ ∀ k, Tab.get 0 (s.writeMasked port a mask data).mem k =
      if a ≤ k ∧ k < a + 512 ∧ mask.testBit (k - a) then data.getD (k - a) 0 else Tab.get 0 s.mem k := by
  unfold State.writeMasked
  split
  · next hm =>
    have hlen : ((data ++ List.replicate 512 0).take 512).length = 512 := by
      rw [List.length_take, List.length_append, List.length_replicate]
      omega
    refine ⟨s.memWrite_spread_beside port (by omega), fun k => ?_⟩
    rw [s.get_memWrite_spread port (by omega), hlen, hm, Nat.testBit_two_pow_sub_one]
    by_cases hk : a ≤ k ∧ k < a + 512
    · rw [if_pos hk, if_pos ⟨hk.1, hk.2, decide_eq_true (by omega)⟩, List.getD_eq_getElem?_getD,
        List.getElem?_take_of_lt (by omega), ← List.getD_eq_getElem?_getD]
      rcases Nat.lt_or_ge (k - a) data.length with hd | hd
      · rw [List.getD_append _ _ _ _ hd]
      · rw [List.getD_append_right _ _ _ _ hd, List.getD_eq_default _ _ hd,
          List.getD_replicate _ (by omega)]
    · rw [if_neg hk, if_neg fun hc => hk ⟨hc.1, hc.2.1⟩]
  · obtain ⟨hbeside, hget⟩ := s.writeBytes_spread port (a := a) data (State.writeMasked.maskList 512 mask) fun i hi => by
      have := List.mem_range.1 (List.mem_filter.1 hi).1
      omega
    refine ⟨hbeside, fun k => (hget k).trans ?_⟩
    have hmem : (a ≤ k ∧ k - a ∈ State.writeMasked.maskList 512 mask) ↔ a ≤ k ∧ k < a + 512 ∧ mask.testBit (k - a) := by
      rw [State.writeMasked.maskList, List.mem_filter, List.mem_range, flag_eq_testBit]
      refine and_congr_right fun hak => and_congr_left fun _ => ?_
      omega
    simp only [hmem]

/-! ### Gather entries written out (R199) -/

@[simp] theorem State.clearPoison_deck (s : State) (k : Nat) : (s.clearPoison k).deck = s.deck := by
  unfold State.clearPoison
  split <;> rfl

theorem State.clearPoison_clean {s : State} {k : Nat} (h : Tab.get false s.poison k = false) : s.clearPoison k = s := by
  unfold State.clearPoison
  rw [h, if_neg Bool.false_ne_true]

theorem State.writeEntry_deck (s : State) (e : GEntry) :
    (s.writeEntry e).deck = { s.deck with gather := s.deck.gather.filter (· != e) } :=
  each_frame State.deck _ (s.modDeck fun d => { d with gather := d.gather.filter (· != e) }) _ fun _ _ => State.clearPoison_deck _ _

/-- An entry none of whose line's sectors is poisoned only leaves the buffer. -/
theorem State.writeEntry_clean {s : State} {e : GEntry}
    (h : ∀ i, i < 8 → Tab.get false s.poison ((e.line * 24 + e.slice) * 512 / 64 + i) = false) :
    s.writeEntry e = s.modDeck fun d => { d with gather := d.gather.filter (· != e) } :=
  each_id _ _ _ fun i hi => State.clearPoison_clean (h i (List.mem_range.1 (List.mem_filter.1 hi).1))

/-- The entries that are not among given ones. -/
def gatherWithout (l g : List GEntry) : List GEntry := g.filter fun e => !l.contains e

theorem gatherWithout_cons (e : GEntry) (l g : List GEntry) :
    gatherWithout l (g.filter (· != e)) = gatherWithout (e :: l) g := by
  unfold gatherWithout
  rw [List.filter_filter]
  refine List.filter_congr fun x _ => ?_
  by_cases hx : x = e <;> simp [hx]

theorem gatherWithout_filter (p : GEntry → Bool) (g : List GEntry) :
    gatherWithout (g.filter p) g = g.filter fun e => !p e := by
  refine List.filter_congr fun x hx => ?_
  cases hp : p x <;> simp [List.contains_eq_mem, List.mem_filter, hx, hp]

theorem each_writeEntry_deck (l : List GEntry) (s : State) :
    (each l s State.writeEntry).deck = { s.deck with gather := gatherWithout l s.deck.gather } := by
  induction l generalizing s with
  | nil => simp [each, gatherWithout]
  | cons e l ih =>
    refine (ih (s.writeEntry e)).trans ?_
    rw [State.writeEntry_deck, gatherWithout_cons]

theorem each_writeEntry_clean (l : List GEntry) (s : State)
    (h : ∀ e ∈ l, ∀ i, i < 8 → Tab.get false s.poison ((e.line * 24 + e.slice) * 512 / 64 + i) = false) :
    each l s State.writeEntry = s.modDeck fun d => { d with gather := gatherWithout l d.gather } := by
  induction l generalizing s with
  | nil => simp [each, gatherWithout, State.modDeck]
  | cons e l ih =>
    show each l (s.writeEntry e) State.writeEntry = _
    rw [State.writeEntry_clean (h e (List.mem_cons_self ..)), 
      ih (s.modDeck _) fun x hx => h x (List.mem_cons_of_mem _ hx)]
    simp only [State.modDeck, gatherWithout_cons]

/-- Entries written out change the buffers, and with poison the list of that met, but nothing else. -/
theorem each_writeEntry_eq (l : List GEntry) (s : State) : ∃ t : State, each l s State.writeEntry = t ∧
    t = { s with deck := { s.deck with gather := gatherWithout l s.deck.gather }, poison := t.poison, errs := t.errs } := by
  refine ⟨_, rfl, ?_⟩
  have h := State.eq_of_beside (each_frame State.beside l s State.writeEntry State.writeEntry_beside)
  rwa [each_mem _ _ _ State.writeEntry_mem, each_writeEntry_deck] at h

/-! ### Poison of a range (R211) -/

theorem exists_mem_lineSegs {a n i : Nat} (h : i < n) : ∃ g ∈ lineSegs a n, g.1 ≤ a + i ∧ a + i < g.1 + g.2 := by
  induction n using Nat.strong_induction_on generalizing a i with
  | h n ih =>
    obtain ⟨hpos, hle, -⟩ := lineHead_bounds (a := a) (n := n) (by omega)
    rw [lineSegs_cons (by omega)]
    by_cases hi : i < lineHead a n
    · exact ⟨_, List.mem_cons_self .., by omega, by dsimp only; omega⟩
    · obtain ⟨g, hg, hlo, hhi⟩ := ih (n - lineHead a n) (by omega) (a := a + lineHead a n) (i := i - lineHead a n) (by omega)
      exact ⟨g, List.mem_cons_of_mem _ hg, by omega, by omega⟩

theorem mem_sectorsOf {a n i : Nat} (h : i < n) : (a + i) / 64 ∈ sectorsOf a n := by
  unfold sectorsOf
  rw [if_neg (by omega), List.mem_map]
  exact ⟨(a + i) / 64 - a / 64, List.mem_range.2 (by omega), by omega⟩

/-- A range without poisoned sectors has no poisoned byte. -/
theorem State.clean_of_poisonIn {s : State} {a n : Nat} (h : s.poisonIn a n = []) {i : Nat} (hi : i < n) :
    Tab.get false s.poison (s.canon (a + i) / 64) = false := by
  obtain ⟨g, hg, hlo, hhi⟩ := exists_mem_lineSegs (a := a) hi
  obtain ⟨-, -, -, hline⟩ := bounds_of_mem_lineSegs hg
  have hclean := List.flatMap_eq_nil_iff.1 h g hg
  have hsec := mem_sectorsOf (a := s.canon g.1) (i := a + i - g.1) (n := g.2) (by omega)
  rw [← s.canon_add (by omega), Nat.add_sub_cancel' hlo] at hsec
  have := List.filter_eq_nil_iff.1 hclean _ hsec
  rw [Bool.or_eq_true, not_or] at this
  exact Bool.eq_false_iff.2 this.2

/-! ### DECK_LINE_OPERATION -/

/-- The spread address of a slice's line. -/
def lineAddr (slice : Fin 24) (line : Fin 1310720) : Nat := (24 * line.val + slice.val) * 512

theorem lineAddr_bound (slice : Fin 24) (line : Fin 1310720) : lineAddr slice line + 512 ≤ spreadSize := by
  unfold lineAddr
  rw [spreadSize]
  omega

theorem lineSlot_iff {cl : Option (Fin 24)} {t slice port : Nat} :
    lineSlot cl t slice port = true ↔ ∀ c, cl = some c → (c.val + t) % 24 = slice ∧ port < 5 := by
  cases cl <;> simp [lineSlot]

theorem State.deckEcc_zero (s : State) (slice line : Nat) {bad : List Nat} (h : ∀ x ∈ bad, x = 0) : s.deckEcc slice line bad = s :=
  each_id _ _ _ fun p hp => if_pos (h p.1 (List.mem_of_mem_take (List.fst_mem_of_mem_zipIdx hp)))

/-- A line without poison, read: its entries leave the buffers. -/
theorem State.flushLine_clean {s : State} {slice : Fin 24} {line : Fin 1310720}
    (h : s.poisonIn (lineAddr slice line) 512 = []) : s.flushLine slice line = s.modDeck fun d =>
      { d with gather := d.gather.filter fun e => !(e.slice == slice.val && e.line == line.val) } := by
  unfold State.flushLine
  rw [each_writeEntry_clean]
  · simp only [State.modDeck, gatherWithout_filter]
  · intro e he i hi
    have heq := (List.mem_filter.1 he).2
    rw [Bool.and_eq_true, beq_iff_eq, beq_iff_eq] at heq
    have hclean := State.clean_of_poisonIn h (i := 64 * i) (by omega)
    have hbound := lineAddr_bound slice line
    rw [s.canon_spread (by omega)] at hclean
    rw [heq.1, heq.2, ← hclean]
    congr 1
    unfold lineAddr
    omega

section
variable {cl : Option (Fin 24)} {t0 : Nat} {slice : Fin 24} {port : Fin 8} {line : Fin 1310720} {mask : BitVec 512}
  {data : List Byte} {err : MemErr} {s : State}

theorem exec_deckLineOperation_idle {wr : Bool} (h : lineSlot cl t0 slice port = false ∨ s.hosted 3 slice = false ∨
    s.deck.portFree t0 slice port = false) :
    exec (.deckLineOperation cl t0 slice port line wr mask data err) s = .next s :=
  if_pos (by rcases h with h | h | h <;> simp [h])

variable (hslot : ∀ c, cl = some c → (c.val + t0) % 24 = slice.val ∧ port.val < 5) (hon : s.hosted 3 slice = true)
  (hfree : s.deck.portFree t0 slice port = true)
include hslot hon hfree

theorem exec_deckLineOperation_refused {wr : Bool} {c : Fin 24} (hc : cl = some c)
    (h : s.fenceOk c wr (lineAddr slice line) 512 = false) :
    exec (.deckLineOperation cl t0 slice port line wr mask data err) s = .next ((if wr then s else
      { s with deck := { s.deck with out := List.replicate 512 0, err := false } }).refuse c wr none) := by
  show execDeckLineOperation cl t0 slice port line wr mask data err s = _
  unfold execDeckLineOperation
  rw [lineSlot_iff.2 hslot, hon, hfree, hc]
  unfold lineAddr at h
  simp only [h, Bool.not_true, Bool.or_self, Bool.not_false, Bool.false_eq_true, if_true, if_false]
  rfl

/-- The mask of a write: a higher port's bytes of the same cycle stay. -/
def State.writeMask (s : State) (t0 : Nat) (slice : Fin 24) (port : Fin 8) (line : Fin 1310720) (mask : BitVec 512) : Nat :=
  mask.toNat &&& (s.deck.covered t0 slice port line ^^^ (2 ^ 512 - 1))

theorem exec_deckLineOperation_write (hfence : ∀ c, cl = some c → s.fenceOk c true (lineAddr slice line) 512 = true) :
    ∃ f : State → Deck → Deck, exec (.deckLineOperation cl t0 slice port line true mask data err) s =
      let t := (s.modDeck fun d => d.note t0 ⟨slice, port, line, true, mask.toNat⟩).writeMasked port (lineAddr slice line)
        (s.writeMask t0 slice port line mask) data
      .next (t.modDeck (f t)) := by
  refine ⟨fun t d => if s.deck.lastRead t0 slice line then { d with out := t.memRead (lineAddr slice line) 512 } else d, ?_⟩
  show execDeckLineOperation cl t0 slice port line true mask data err s = _
  unfold execDeckLineOperation
  rw [lineSlot_iff.2 hslot, hon, hfree]
  unfold lineAddr at hfence
  cases cl with
  | none =>
    simp only [Bool.not_true, Bool.or_self, Bool.false_eq_true, if_true, if_false]
    split <;> rfl
  | some c =>
    simp only [hfence c rfl, Bool.not_true, Bool.or_self, Bool.false_eq_true, if_true, if_false]
    split <;> rfl

theorem exec_deckLineOperation_read (hfence : ∀ c, cl = some c → s.fenceOk c false (lineAddr slice line) 512 = true)
    (hecc : ∀ x ∈ err.bad, x = 0) (hclean : s.poisonIn (lineAddr slice line) 512 = []) :
    exec (.deckLineOperation cl t0 slice port line false mask data err) s = .next (s.modDeck fun d =>
      { d.note t0 ⟨slice, port, line, false, 0⟩ with
        gather := d.gather.filter fun e => !(e.slice == slice.val && e.line == line.val)
        out := s.memRead (lineAddr slice line) 512
        err := false }) := by
  have hflush := State.flushLine_clean (s := s.modDeck fun d => d.note t0 ⟨slice, port, line, false, 0⟩) hclean
  show execDeckLineOperation cl t0 slice port line false mask data err s = _
  unfold execDeckLineOperation
  rw [lineSlot_iff.2 hslot, hon, hfree]
  have hempty : (((s.modDeck fun d => d.note t0 ⟨slice, port, line, false, 0⟩).flushLine slice line).poisonIn
      (lineAddr slice line) 512).isEmpty = true := by
    rw [hflush]
    exact List.isEmpty_iff.2 hclean
  unfold lineAddr at hfence hempty
  cases cl with
  | none =>
    simp only [Bool.not_true, Bool.or_self, Bool.false_eq_true, if_false, State.deckEcc_zero _ _ _ hecc, hempty, if_true]
    rw [hflush]
    rfl
  | some c =>
    simp only [hfence c rfl, Bool.not_true, Bool.or_self, Bool.false_eq_true, if_false, State.deckEcc_zero _ _ _ hecc, hempty,
      if_true]
    rw [hflush]
    rfl

end

theorem State.testBit_writeMask (s : State) (t0 : Nat) (slice : Fin 24) (port : Fin 8) (line : Fin 1310720) (mask : BitVec 512)
    {i : Nat} (hi : i < 512) : (s.writeMask t0 slice port line mask).testBit i =
      (mask.getLsbD i && !(s.deck.covered t0 slice port line).testBit i) := by
  unfold State.writeMask
  rw [Nat.testBit_and, Nat.testBit_xor, Nat.testBit_two_pow_sub_one, decide_eq_true hi, Bool.xor_true, BitVec.testBit_toNat]

/-- The deck's own records apart, a state is what stands beside memory, the deck and poison. -/
theorem State.modDeck_eq_of_beside {s t : State} {f g : Deck → Deck} (h : t.beside = (s.modDeck f).beside) :
    t.modDeck g = { s with mem := (t.modDeck g).mem, deck := (t.modDeck g).deck, poison := (t.modDeck g).poison,
                           errs := (t.modDeck g).errs } :=
  congrArg (fun t : State => t.modDeck g) (State.eq_of_beside h)

/-- A write of a line sets the bytes its mask selects, and nothing else. -/
theorem deckLineOperation_write {cl : Option (Fin 24)} {t0 : Nat} {slice : Fin 24} {port : Fin 8} {line : Fin 1310720}
    {mask : BitVec 512} {data : List Byte} {err : MemErr} {s : State}
    (hslot : ∀ c, cl = some c → (c.val + t0) % 24 = slice.val ∧ port.val < 5) (hon : s.hosted 3 slice = true)
    (hfree : s.deck.portFree t0 slice port = true) (hfence : ∀ c, cl = some c → s.fenceOk c true (lineAddr slice line) 512 = true) :
    ∃ t, exec (.deckLineOperation cl t0 slice port line true mask data err) s = .next t ∧
      t = { s with mem := t.mem, deck := t.deck, poison := t.poison, errs := t.errs } ∧
      s.memBut t (lineAddr slice line) 512 ∧ ∀ i, i < 512 → Tab.get 0 t.mem (lineAddr slice line + i) =
        if mask.getLsbD i && !(s.deck.covered t0 slice port line).testBit i then data.getD i 0
        else Tab.get 0 s.mem (lineAddr slice line + i) := by
  obtain ⟨f, hexec⟩ := exec_deckLineOperation_write (mask := mask) (data := data) (err := err) hslot hon hfree hfence
  obtain ⟨hbeside, hget⟩ := (s.modDeck fun d => d.note t0 ⟨slice, port, line, true, mask.toNat⟩).writeMasked_spread port
    (mask := s.writeMask t0 slice port line mask) data (lineAddr_bound slice line)
  refine ⟨_, hexec, ?_, fun k hk => (hget k).trans (if_neg fun hc => hk ⟨hc.1, hc.2.1⟩), fun i hi => (hget _).trans ?_⟩
  · exact State.modDeck_eq_of_beside hbeside
  · have hin : lineAddr slice line ≤ lineAddr slice line + i ∧ lineAddr slice line + i < lineAddr slice line + 512 := by omega
    simp only [hin, true_and, Nat.add_sub_cancel_left, s.testBit_writeMask t0 slice port line mask hi]
    rfl

/-! ### Gather buffers, the atomic add and the scrub -/

theorem exec_gatherBufferTimeout {s : State} {slice : Fin 24} {port : Fin 8} {line : Fin 1310720} {e : GEntry}
    (h : s.deck.gather.find? (fun e => e.slice == slice.val && e.port == port.val && e.line == line.val) = some e)
    (hold : e.since + 32 ≤ s.now) : exec (.gatherBufferTimeout slice port line) s = .next (s.writeEntry e) := by
  show execGatherBufferTimeout slice port line s = _
  unfold execGatherBufferTimeout
  rw [h]
  exact congrArg Host.Outcome.next (if_pos hold)

theorem exec_atomicAdd {s : State} {a : Nat} (v : BitVec 64) (ha : a % 8 = 0) (h : s.memRange a 8 = true) :
    exec (.atomicAdd a v) s = .next (s.atomicAdd (servicePort 0) a v.toNat) := by
  show execAtomicAdd a v s = _
  simp only [execAtomicAdd, ha, h, bne_self_eq_false, Bool.false_eq_true, if_false, if_true]

/-- An aligned word lies in one line. -/
theorem word_in_line {a : Nat} (h : a % 8 = 0) : a % 512 + 8 ≤ 512 := by omega

/-- The add leaves the sum modulo 2^64 at its word. -/
theorem State.atomicAdd_line {s : State} {a : Nat} (p v : Nat) (ha : a % 8 = 0) (hd : s.t2Down a = false) :
    (s.atomicAdd p a v).beside = s.beside ∧ leNat ((s.atomicAdd p a v).memRead a 8) = (leNat (s.memRead a 8) + v) % 2 ^ 64 ∧
    s.memBut (s.atomicAdd p a v) (s.canon a) 8 := by
  have hline := word_in_line ha
  have hflush := s.flushRange_beside a 8
  have hread : (s.flushRange a 8).memRead a 8 = s.memRead a 8 := State.memRead_eq_of_get fun i _ => by
    rw [s.flushRange_mem, State.canon_of_beside hflush]
  have hlen (x : Nat) : (natLE 8 x).length = 8 := length_natLE 8 x
  have hup : (s.flushRange a 8).linksUp a 8 :=
    State.linksUp_line (by omega) hline ((State.t2Down_of_beside hflush a).trans hd)
  unfold State.atomicAdd
  dsimp only
  rw [hread]
  refine ⟨(State.memWrite_beside (by rwa [hlen]) p).trans hflush, ?_, ?_⟩
  · have hsame := (s.flushRange a 8).memRead_memWrite_same p a (natLE 8 ((leNat (s.memRead a 8) + v) % 2 ^ 64)) (by rwa [hlen])
      (State.canon_line_inj _ (by rwa [hlen]))
    rw [hlen] at hsame
    rw [hsame, leNat_natLE]
    exact Nat.mod_mod _ _
  · have hbut := (s.flushRange a 8).memBut_memWrite_line p (a := a) (bs := natLE 8 ((leNat (s.memRead a 8) + v) % 2 ^ 64))
      (by rwa [hlen])
    rw [hlen, State.canon_of_beside hflush] at hbut
    exact fun k hk => (hbut k hk).trans (by rw [s.flushRange_mem])

theorem State.memRange_of_unplaced {s : State} {a n : Nat} (hn : 0 < n) (h : s.place a = none) : s.memRange a n = false := by
  rw [State.memRange, lineSegs_cons hn, List.all_cons, h, Bool.and_eq_false_iff]
  left
  dsimp only
  split <;> simp_all

theorem exec_atomicAdd_unmapped {s : State} {a : Nat} (v : BitVec 64) (ha : a % 8 = 0) (h : s.place a = none) :
    exec (.atomicAdd a v) s = .next s.refuseUnmapped := by
  show execAtomicAdd a v s = _
  simp only [execAtomicAdd, ha, h, State.memRange_of_unplaced (by omega : 0 < 8) h, bne_self_eq_false, Bool.false_eq_true, if_false,
    Option.isNone_none, if_true]

/-- What meeting poison counts leaves every register but the counts of poison. -/
theorem State.countPoison_getF (s : State) (secs : List Nat) {f : Fld} (i : Nat)
    (h3 : ∀ j, f.key i ≠ R.DSL.ECC_STATUS.POISON_READS.key j) (h7 : f.key i ≠ R.PCH.T2_EVENTS.LINK_DOWN_DROPS.key 0)
    (h7' : f.key i ≠ R.PCH.T2_EVENTS.POISON_IN.key 0) : (s.countPoison secs).getF f i = s.getF f i :=
  each_frame (State.getF · f i) _ _ _ fun t l => by
    dsimp only
    split
    · exact State.getF_addF_ne _ _ _ _ _ _ (h3 _)
    · split
      · rfl
      · split
        · exact State.getF_addF_ne _ _ _ _ _ _ h7
        · exact State.getF_addF_ne _ _ _ _ _ _ h7'

theorem State.countPoison_eq (s : State) (secs : List Nat) : s.countPoison secs = { s with regs := (s.countPoison secs).regs } := by
  have h := each_frame (fun t : State => { t with regs := [] }) (secs.map (· / 8)).dedup s
    (fun s l =>
      let a := l * 512
      if a < spreadSize then s.addF R.DSL.ECC_STATUS.POISON_READS (sliceOf a) 1
      else if a < t2Base then s
      else s.addF (if s.t2Down a then R.PCH.T2_EVENTS.LINK_DOWN_DROPS else R.PCH.T2_EVENTS.POISON_IN) 0 1)
    fun t l => by dsimp only; split_ifs <;> rfl
  exact congrArg (fun t : State => { t with regs := (s.countPoison secs).regs }) h

/-- A line's scrub, without errors: its entries are written out and its poison is counted. -/
def State.scrubLine (s : State) (slice line : Nat) : State :=
  (s.flushLine slice line).countPoison ((s.flushLine slice line).poisonIn ((24 * line + slice) * 512) 512)

/-- What the scrub makes of the state at the line it stands at. -/
def State.scrubRead (s : State) (slice : Nat) : State :=
  if Tab.get 0 s.deck.scrub slice < 1310720 then s.scrubLine slice (Tab.get 0 s.deck.scrub slice) else s

theorem State.scrubRead_eq (s : State) (slice : Nat) :
    s.scrubRead slice = { s with deck := { s.deck with gather := (s.scrubRead slice).deck.gather }, regs := (s.scrubRead slice).regs,
                                 poison := (s.scrubRead slice).poison, errs := (s.scrubRead slice).errs } ∧
    (s.scrubRead slice).getF R.DSL.SCRUB.PASSES slice = s.getF R.DSL.SCRUB.PASSES slice := by
  unfold State.scrubRead
  split
  · generalize Tab.get 0 s.deck.scrub slice = line
    have hbeside := s.flushLine_beside slice line
    have hflush := State.eq_of_beside hbeside
    rw [State.flushLine_mem, State.deck_of_beside hbeside] at hflush
    constructor
    · unfold State.scrubLine
      generalize (s.flushLine slice line).poisonIn ((24 * line + slice) * 512) 512 = secs
      have hcount := (s.flushLine slice line).countPoison_eq secs
      have hdeck := congrArg State.deck hcount
      have hpoison := congrArg State.poison hcount
      have herrs := congrArg State.errs hcount
      dsimp only at hdeck hpoison herrs
      rw [hdeck, hpoison, herrs]
      exact hcount.trans (congrArg (fun t : State => { t with regs := ((s.flushLine slice line).countPoison secs).regs }) hflush)
    · refine (State.countPoison_getF _ _ _ (fun j => ?_) ?_ ?_).trans (congrArg (fun r => Tab.get 0 r _ ^^^ _) (State.regs_of_beside hbeside))
      all_goals exact Fld.key_ne_of_low (by decide) _ _
  · exact ⟨rfl, rfl⟩

/-- The scrub goes on after a line. -/
def State.scrubStep (s : State) (slice line : Nat) : State :=
  s.modDeck fun d => { d with
    scrub := Tab.set 0 d.scrub slice ((line + 1) % 1311744)
    scrubAt := Tab.set 0 d.scrubAt slice (s.now + 1) }

theorem exec_deckScrub {s : State} {slice : Fin 24} {err : MemErr} (hen : s.getF R.DSL.SCRUB.EN slice ≠ 0)
    (hon : s.hosted 3 slice = true) (hdue : s.scrubDue slice = true) (hbad : err.bad = []) :
    let at_ := Tab.get 0 s.deck.scrub slice.val
    exec (.deckScrub slice err) s = .next (if at_ + 1 = 1311744
      then ((s.scrubRead slice).scrubStep slice at_).addF R.DSL.SCRUB.PASSES slice 1 else (s.scrubRead slice).scrubStep slice at_) := by
  show execDeckScrub slice err s = _
  unfold execDeckScrub
  simp only [hen, hon, hdue, hbad, decide_false, Bool.not_true, Bool.or_self, Bool.false_eq_true, if_false]
  rfl

/-- A scrub step of a state that differs from another in the deck, the registers and poison only. -/
theorem State.scrubStep_eq {s t : State} {slice line : Nat}
    (h : t = { s with deck := t.deck, regs := t.regs, poison := t.poison, errs := t.errs }) :
    t.scrubStep slice line = { s with deck := (t.scrubStep slice line).deck, regs := t.regs, poison := t.poison, errs := t.errs } := by
  exact congrArg (fun u : State => { u with deck := (t.scrubStep slice line).deck }) h

/-- Settles O19: a line operation by its mask and its gather entries, the buffers and the atomic add by what writes leave, the
scrub by its place. -/
theorem deckCommands : Obligations.DeckCommands := by
  unfold Obligations.DeckCommands
  refine fun s slice port => ⟨fun cl t0 line wr mask data err => ⟨fun hslot hon hfree => ⟨fun hfence => ⟨?_, ?_⟩, ?_⟩, ?_⟩,
    fun line e hfind hline hold => ?_, ?_, fun a v ha hmap hdown => ?_, fun a v ha hplace => exec_atomicAdd_unmapped v ha hplace,
    fun err hen hon hdue hbad => ?_⟩
  · rintro rfl
    exact deckLineOperation_write hslot hon hfree hfence
  · rintro rfl hecc hclean
    exact ⟨_, exec_deckLineOperation_read hslot hon hfree hfence hecc hclean, rfl, rfl, rfl⟩
  · exact fun c hc hrefused => exec_deckLineOperation_refused hslot hon hfree hc hrefused
  · rintro (⟨c, hc, hslot⟩ | hidle)
    · refine exec_deckLineOperation_idle (Or.inl ?_)
      rw [← Bool.not_eq_true, lineSlot_iff]
      exact fun h => hslot (h c hc)
    · exact exec_deckLineOperation_idle (Or.inr hidle)
  · refine ⟨_, exec_gatherBufferTimeout hfind hold, ?_⟩
    have h := State.eq_of_beside (s.writeEntry_beside e)
    rwa [s.writeEntry_mem, s.writeEntry_deck] at h
  · obtain ⟨t, hexec, ht⟩ := each_writeEntry_eq (s.deck.gather.filter fun e => e.slice == slice.val) s
    rw [gatherWithout_filter] at ht
    exact ⟨t, congrArg Host.Outcome.next hexec, ht⟩
  · obtain ⟨hbeside, hsum, hbut⟩ := State.atomicAdd_line (s := s) (servicePort 0) v.toNat ha hdown
    exact ⟨_, exec_atomicAdd v ha hmap, State.eq_of_beside hbeside, hsum, hbut⟩
  · obtain ⟨heq, hpasses⟩ := s.scrubRead_eq slice
    refine ⟨_, exec_deckScrub hen hon hdue hbad, ?_⟩
    generalize s.scrubRead slice = t at heq hpasses ⊢
    have hread : t = { s with deck := t.deck, regs := t.regs, poison := t.poison, errs := t.errs } :=
      heq.trans (by rw [congrArg State.deck heq])
    generalize Tab.get 0 s.deck.scrub slice.val = line
    have hstep := State.scrubStep_eq (slice := slice) (line := line) hread
    have hpos : Tab.get 0 (t.scrubStep slice line).deck.scrub slice.val = (line + 1) % 1311744 :=
      (Tab.get_set ..).trans (if_pos rfl)
    split
    · exact ⟨congrArg (fun u : State => u.addF R.DSL.SCRUB.PASSES slice 1) hstep, hpos,
        (State.getF_addF_same _ _ _ _).trans (by rw [← hpasses]; rfl)⟩
    · exact ⟨hstep, hpos, hpasses⟩

end Sys2Proof.Machine
end

section
/-! Proofs. The CXL commands (R209, R218): the ports' decoders and links. -/

namespace Sys2Proof.Machine

/-! ### Port registers -/

/-- Only registers differ. -/
def State.regsOnly (s t : State) : Prop := t = { s with regs := t.regs }

theorem State.regsOnly.trans {s t u : State} (h : s.regsOnly t) (h' : t.regsOnly u) : s.regsOnly u :=
  Eq.trans h' (congrArg (fun x : State => { x with regs := u.regs }) h)

theorem State.regsOnly.with_cxl {s t : State} (h : s.regsOnly t) (c : Cxl) :
    ({ t with cxl := c } : State) = { s with regs := t.regs, cxl := c } :=
  congrArg (fun x : State => { x with cxl := c }) h

theorem State.regsOnly.of_cxl {s t : State} {c : Cxl} (h : State.regsOnly { s with cxl := c } t) :
    t = { s with regs := t.regs, errs := t.errs, cxl := c } := by
  have herrs : t.errs = s.errs := (congrArg State.errs h :)
  rw [herrs]
  exact h

theorem State.regsOnly.reportUnit {s t : State} {c : Cxl} (h : State.regsOnly { s with cxl := c } t) (cls code unit detail : Nat) :
    t.reportUnit cls code unit detail =
      { s with regs := t.regs, errs := (t.reportUnit cls code unit detail).errs, cxl := c } :=
  congrArg (fun x : State => { x with errs := (t.reportUnit cls code unit detail).errs }) h

theorem State.regsOnly_setPort (s : State) (port : Nat) (f0 f1 : Fld) (v : Nat) : s.regsOnly (s.setPort port f0 f1 v) := rfl

/-- A field that lies elsewhere in its page than two fields is not the one of them that a port has. -/
theorem portStatus_key_ne {f f0 f1 : Fld} (h0 : (64 * f.off + f.lo) % 262144 ≠ (64 * f0.off + f0.lo) % 262144)
    (h1 : (64 * f.off + f.lo) % 262144 ≠ (64 * f1.off + f1.lo) % 262144) (p i j : Nat) :
    f.key i ≠ (portStatus p f0 f1).key j := by
  unfold portStatus
  split
  · exact Fld.key_ne_of_low h0 i j
  · exact Fld.key_ne_of_low h1 i j

/-- Of two fields of one port's register, given where they lie, neither is the other. -/
theorem portStatus_key_ne_portStatus {f0 f1 g0 g1 : Fld}
    (h0 : (64 * f0.off + f0.lo) % 262144 ≠ (64 * g0.off + g0.lo) % 262144)
    (h1 : (64 * f1.off + f1.lo) % 262144 ≠ (64 * g1.off + g1.lo) % 262144) (p i j : Nat) :
    (portStatus p f0 f1).key i ≠ (portStatus p g0 g1).key j := by
  unfold portStatus
  split
  · exact Fld.key_ne_of_low h0 i j
  · exact Fld.key_ne_of_low h1 i j

theorem State.getF_setPort_ne (s : State) {f f0 f1 : Fld} (h0 : (64 * f.off + f.lo) % 262144 ≠ (64 * f0.off + f0.lo) % 262144)
    (h1 : (64 * f.off + f.lo) % 262144 ≠ (64 * f1.off + f1.lo) % 262144) (p i v : Nat) :
    (s.setPort p f0 f1 v).getF f i = s.getF f i :=
  State.getF_setF_ne _ _ _ _ _ _ (portStatus_key_ne h0 h1 p i _)

theorem State.getF_setPort_same (s : State) (f0 f1 : Fld) (p v : Nat) :
    (s.setPort p f0 f1 v).getF (portStatus p f0 f1) (p / 2) = v % 2 ^ (portStatus p f0 f1).width :=
  State.getF_setF_same _ _ _ _

theorem State.getF_setPort_other (s : State) {f0 f1 g0 g1 : Fld}
    (h0 : (64 * f0.off + f0.lo) % 262144 ≠ (64 * g0.off + g0.lo) % 262144)
    (h1 : (64 * f1.off + f1.lo) % 262144 ≠ (64 * g1.off + g1.lo) % 262144) (p v : Nat) :
    (s.setPort p g0 g1 v).getF (portStatus p f0 f1) (p / 2) = s.getF (portStatus p f0 f1) (p / 2) :=
  State.getF_setF_ne _ _ _ _ _ _ (portStatus_key_ne_portStatus h0 h1 p _ _)

/-! ### HDM_DECODER_PROGRAM -/

/-- The capacity that a port shows, and whether it carries tier 2. -/
def State.setCap (s : State) (p cap : Nat) : State :=
  (s.setPort p R.PCH.PORT_STATUS0.CAP_GIB R.PCH.PORT_STATUS1.CAP_GIB cap).setPort p R.PCH.PORT_STATUS0.T2 R.PCH.PORT_STATUS1.T2
    (if 0 < cap then 1 else 0)

/-- The capacities of the four ports are shown. -/
def State.setCaps (s : State) (cap : Nat → Nat) : State :=
  (((s.setCap 0 (cap 0)).setCap 1 (cap 1)).setCap 2 (cap 2)).setCap 3 (cap 3)

theorem State.regsOnly_setCap (s : State) (p cap : Nat) : s.regsOnly (s.setCap p cap) :=
  (s.regsOnly_setPort _ _ _ _).trans (State.regsOnly_setPort _ _ _ _ _)

theorem State.regsOnly_setCaps (s : State) (cap : Nat → Nat) : s.regsOnly (s.setCaps cap) :=
  (((s.regsOnly_setCap _ _).trans (State.regsOnly_setCap _ _ _)).trans (State.regsOnly_setCap _ _ _)).trans
    (State.regsOnly_setCap _ _ _)

/-- The decoded capacity of a port: none without a link. -/
def State.capOf (s : State) (caps : List Nat) (p : Nat) : Nat := if s.cxl.up.contains p then caps.getD p 0 % 4096 else 0

/-- The ways in which the window is spread over the ports with a capacity. -/
def windowWays (cap : Nat → Nat) : Nat :=
  let ports := (List.range 4).filter fun p => 0 < cap p
  let equal := ports.all fun p => cap p == cap (ports.headD 0)
  if equal && ports.length == 4 then 2 else if equal && ports.length == 2 then 1 else 0

theorem exec_hdmDecoderProgram (s : State) (caps : List Nat) :
    exec (.hdmDecoderProgram caps) s = .next { s.setCaps (s.capOf caps) with cxl := { s.cxl with
      wasT2 := (List.range 4).filter fun p => 0 < s.capOf caps p
      capNext := (List.range 4).map (s.capOf caps)
      winNext := some (min (s.setCaps (s.capOf caps)).licensedGib
        (((List.range 4).filter fun p => 0 < s.capOf caps p).map (s.capOf caps)).sum, windowWays (s.capOf caps)) } } := rfl

theorem State.getF_setCaps_ne (s : State) (cap : Nat → Nat) {f : Fld} (i : Nat)
    (h : (64 * f.off + f.lo) % 262144 ∉ [4104, 4360, 4103, 4359]) : (s.setCaps cap).getF f i = s.getF f i := by
  simp only [List.mem_cons, List.not_mem_nil, or_false, not_or] at h
  obtain ⟨hcap0, hcap1, ht0, ht1⟩ := h
  have hset (t : State) (p c : Nat) : (t.setCap p c).getF f i = t.getF f i :=
    (State.getF_setPort_ne _ ht0 ht1 _ _ _).trans (State.getF_setPort_ne _ hcap0 hcap1 _ _ _)
  unfold State.setCaps
  rw [hset, hset, hset, hset]

theorem State.capOf_lt (s : State) (caps : List Nat) (p : Nat) : s.capOf caps p < 2 ^ 12 := by
  unfold State.capOf
  split
  · exact Nat.mod_lt _ (by decide)
  · decide

theorem State.getF_setCaps (s : State) (cap : Nat → Nat) (h : ∀ p, cap p < 2 ^ 12) :
    (s.setCaps cap).getF R.PCH.PORT_STATUS0.CAP_GIB 0 = cap 0 ∧ (s.setCaps cap).getF R.PCH.PORT_STATUS1.CAP_GIB 0 = cap 1 ∧
    (s.setCaps cap).getF R.PCH.PORT_STATUS0.CAP_GIB 1 = cap 2 ∧ (s.setCaps cap).getF R.PCH.PORT_STATUS1.CAP_GIB 1 = cap 3 := by
  have hmod (p : Nat) : cap p % 4096 = cap p := Nat.mod_eq_of_lt (h p)
  simp [State.setCaps, State.setCap, State.setPort, portStatus, State.getF_setF, Fld.key, R.PCH.PORT_STATUS0.CAP_GIB,
    R.PCH.PORT_STATUS1.CAP_GIB, R.PCH.PORT_STATUS0.T2, R.PCH.PORT_STATUS1.T2, hmod]

theorem sum_map_filter_pos (cap : Nat → Nat) (l : List Nat) : ((l.filter fun p => 0 < cap p).map cap).sum = (l.map cap).sum := by
  induction l with
  | nil => rfl
  | cons p l ih =>
    rcases Nat.eq_zero_or_pos (cap p) with hp | hp
    · rw [List.filter_cons_of_neg (by simp [hp]), ih, List.map_cons, List.sum_cons, hp, Nat.zero_add]
    · rw [List.filter_cons_of_pos (by simp [hp]), List.map_cons, List.map_cons, List.sum_cons, List.sum_cons, ih]

theorem windowWays_four {cap : Nat → Nat} (h : 0 < cap 0) (h1 : cap 0 = cap 1) (h2 : cap 1 = cap 2) (h3 : cap 2 = cap 3) :
    windowWays cap = 2 := by
  have hports : (List.range 4).filter (fun p => 0 < cap p) = [0, 1, 2, 3] := by
    simp [List.range, List.range.loop, ← h3, ← h2, ← h1, h]
  unfold windowWays
  simp [hports, ← h3, ← h2, ← h1]

/-! ### Links -/

/-- What a port shows of its link: width, rate and whether it is a CXL link. -/
def State.setLink (s : State) (port width rate cxl : Nat) : State :=
  ((s.setPort port R.PCH.PORT_STATUS0.WIDTH R.PCH.PORT_STATUS1.WIDTH width).setPort port R.PCH.PORT_STATUS0.RATE
    R.PCH.PORT_STATUS1.RATE rate).setPort port R.PCH.PORT_STATUS0.CXL R.PCH.PORT_STATUS1.CXL cxl

theorem State.regsOnly_setLink (s : State) (port width rate cxl : Nat) : s.regsOnly (s.setLink port width rate cxl) :=
  ((s.regsOnly_setPort _ _ _ _).trans (State.regsOnly_setPort _ _ _ _ _)).trans (State.regsOnly_setPort _ _ _ _ _)

theorem State.getF_setLink_width (s : State) (port width rate cxl : Nat) (h : width < 8) :
    (s.setLink port width rate cxl).getF (portStatus port R.PCH.PORT_STATUS0.WIDTH R.PCH.PORT_STATUS1.WIDTH) (port / 2) = width := by
  unfold State.setLink
  rw [State.getF_setPort_other _ (by decide) (by decide), State.getF_setPort_other _ (by decide) (by decide),
    State.getF_setPort_same]
  unfold portStatus
  split <;> exact Nat.mod_eq_of_lt h

theorem State.getF_setLink_rate (s : State) (port width rate cxl : Nat) (h : rate < 8) :
    (s.setLink port width rate cxl).getF (portStatus port R.PCH.PORT_STATUS0.RATE R.PCH.PORT_STATUS1.RATE) (port / 2) = rate := by
  unfold State.setLink
  rw [State.getF_setPort_other _ (by decide) (by decide), State.getF_setPort_same]
  unfold portStatus
  split <;> exact Nat.mod_eq_of_lt h

theorem State.getF_setLink_ne (s : State) (port width rate cxl : Nat) {f : Fld} (i : Nat)
    (h : (64 * f.off + f.lo) % 262144 ∉ [4096, 4352, 4099, 4355, 4102, 4358]) :
    (s.setLink port width rate cxl).getF f i = s.getF f i := by
  simp only [List.mem_cons, List.not_mem_nil, or_false, not_or] at h
  obtain ⟨hwidth0, hwidth1, hrate0, hrate1, hcxl0, hcxl1⟩ := h
  exact (State.getF_setPort_ne _ hcxl0 hcxl1 _ _ _).trans ((State.getF_setPort_ne _ hrate0 hrate1 _ _ _).trans
    (State.getF_setPort_ne _ hwidth0 hwidth1 _ _ _))

/-- A port's link is down and trains. -/
def Cxl.withDown (c : Cxl) (port : Nat) : Cxl := { c with up := c.up.filter (· != port), training := c.training ++ [port] }

/-- A port's link is up and no longer trains. -/
def Cxl.withUp (c : Cxl) (port : Nat) : Cxl :=
  { c with up := if c.up.contains port then c.up else c.up ++ [port], training := c.training.filter (· != port) }

/-- A port's link is taken down. -/
def State.linkDown (s : State) (port : Nat) : State := State.setLink { s with cxl := s.cxl.withDown port } port 0 0 0

theorem Cxl.contains_withUp (c : Cxl) (port : Nat) : (c.withUp port).up.contains port = true := by
  unfold Cxl.withUp
  dsimp only
  split
  · assumption
  · simp

theorem exec_cxlLinkDown_idle {s : State} {port : Fin 4} (h : s.cxl.up.contains port.val = false) :
    exec (.cxlLinkDown port) s = .next s := by
  refine if_pos ?_
  rw [h]
  rfl

theorem exec_cxlLinkDown {s : State} {port : Fin 4} (h : s.cxl.up.contains port.val = true) :
    exec (.cxlLinkDown port) s = .next (if s.cxl.wasT2.contains port.val || s.cxl.ports.contains port.val
      then (s.linkDown port).reportUnit 1 8 (wholeUnit 7 (port / 2)) port else s.linkDown port) := by
  show execCxlLinkDown port s = _
  unfold execCxlLinkDown
  rw [h]
  rfl

/-- The register that gives the window's size is no part of a link's. -/
theorem State.place_linkDown (s : State) (port a : Nat) : (s.linkDown port).place a = s.place a := by
  have hsize : (s.linkDown port).t2Size = s.t2Size :=
    congrArg (fun x => min 2048 x * 2 ^ 30) (State.getF_setLink_ne _ _ _ _ _ _ (by decide))
  unfold State.place
  rw [hsize]

/-- The port of a window without interleaving, for the address at an offset. -/
theorem State.t2Down_linear {s : State} {a port : Nat} (hplace : s.place a = some .tier2) (hways : s.getF R.PCH.T2_CTL.WAYS 0 = 0)
    (hports : s.cxl.ports = [port]) (ha : a - t2Base < s.cxl.caps.getD port 0 * 2 ^ 30) (hdown : s.cxl.up.contains port = false) :
    s.t2Down a = true := by
  unfold State.t2Down
  rw [hplace]
  dsimp only
  rw [hways, hports]
  simp only [if_true, List.foldl_cons, List.foldl_nil, Nat.zero_add, if_pos ha, hdown, Bool.not_false]

theorem State.t2Down_interleaved {s : State} {a port : Nat} (hplace : s.place a = some .tier2)
    (hways : s.getF R.PCH.T2_CTL.WAYS 0 ≠ 0)
    (hport : s.cxl.ports[(a - t2Base) / 4096 % (if s.getF R.PCH.T2_CTL.WAYS 0 = 1 then 2 else 4)]? = some port)
    (hdown : s.cxl.up.contains port = false) : s.t2Down a = true := by
  unfold State.t2Down
  rw [hplace]
  dsimp only
  generalize s.getF R.PCH.T2_CTL.WAYS 0 = ways at hways hport ⊢
  rw [if_neg hways]
  rcases ways with _ | _ | ways
  · contradiction
  · rw [if_pos rfl] at hport
    simp only [hport, hdown, Bool.not_false]
  · rw [if_neg (by omega)] at hport
    simp only [hport, hdown, Bool.not_false]

/-- Over a link taken down, the addresses of tier 2 whose port it is read as poisoned. -/
theorem State.t2Down_linkDown (s : State) {a port : Nat} (ha : s.place a = some .tier2) :
    (s.getF R.PCH.T2_CTL.WAYS 0 = 0 → s.cxl.ports = [port] → a - t2Base < s.cxl.caps.getD port 0 * 2 ^ 30 →
      (s.linkDown port).t2Down a = true) ∧
    (s.getF R.PCH.T2_CTL.WAYS 0 ≠ 0 →
      s.cxl.ports[(a - t2Base) / 4096 % (if s.getF R.PCH.T2_CTL.WAYS 0 = 1 then 2 else 4)]? = some port →
      (s.linkDown port).t2Down a = true) := by
  have hways : (s.linkDown port).getF R.PCH.T2_CTL.WAYS 0 = s.getF R.PCH.T2_CTL.WAYS 0 :=
    State.getF_setLink_ne _ _ _ _ _ _ (by decide)
  have hplace := (s.place_linkDown port a).trans ha
  have hdown : (s.linkDown port).cxl.up.contains port = false := by
    show (s.cxl.up.filter (· != port)).contains port = false
    simp
  exact ⟨fun hw hports hlt => State.t2Down_linear hplace (hways.trans hw) hports hlt hdown,
    fun hw hport => State.t2Down_interleaved hplace (by rwa [hways]) (by rw [hways]; exact hport) hdown⟩

theorem exec_cxlLinkUp {s : State} {port : Fin 4} {width : Fin 6} {rate : Fin 7} {cxl : Bool} (hon : s.module_.v36 = true)
    (hwidth : width.val ≠ 0) : exec (.cxlLinkUp port width rate cxl) s =
      .next (State.setLink { s with cxl := s.cxl.withUp port } port width rate (if cxl then 1 else 0)) := by
  show execCxlLinkUp port width rate cxl s = _
  unfold execCxlLinkUp
  rw [if_neg (by simp [hon, hwidth])]
  rfl

/-- Settles O21: each command by what it writes of the ports' registers. -/
theorem cxlCommands : Obligations.CxlCommands := by
  unfold Obligations.CxlCommands
  refine fun s => ⟨fun caps => ?_, fun port hup => ?_, fun port hdown => exec_cxlLinkDown_idle hdown,
    fun port width rate cxl hon hw => ?_⟩
  · have hexec := exec_hdmDecoderProgram s caps
    have hregs := s.regsOnly_setCaps (s.capOf caps)
    have hcaps := s.getF_setCaps (s.capOf caps) (s.capOf_lt caps)
    have hsize : (s.setCaps (s.capOf caps)).t2Size = s.t2Size :=
      congrArg (fun x => min 2048 x * 2 ^ 30) (s.getF_setCaps_ne _ _ (by decide))
    have hlic : (s.setCaps (s.capOf caps)).licensedGib = s.licensedGib := by
      unfold State.licensedGib
      rw [s.getF_setCaps_ne _ _ (by decide), s.getF_setCaps_ne _ _ (by decide)]
    generalize s.setCaps (s.capOf caps) = t at hexec hregs hcaps hsize hlic
    refine ⟨_, windowWays (s.capOf caps), hexec, hregs.with_cxl _, ?_, hsize,
      fun h0 h1 h2 h3 => windowWays_four (cap := s.capOf caps) h0 h1 h2 h3, hcaps⟩
    refine congrArg (fun n => some (n, windowWays (s.capOf caps))) ?_
    rw [hlic, sum_map_filter_pos]
    simp [List.range, List.range.loop, Nat.add_assoc, State.capOf]
  · have hwidth := State.getF_setLink_width { s with cxl := s.cxl.withDown port } port 0 0 0 (by decide)
    have hregs := State.regsOnly_setLink { s with cxl := s.cxl.withDown port } port 0 0 0
    have ht2 := fun a (ha : s.place a = some .tier2) => s.t2Down_linkDown (port := port.val) ha
    have hexec := exec_cxlLinkDown hup
    unfold State.linkDown at ht2 hexec
    generalize State.setLink _ port.val 0 0 0 = t at hexec hregs hwidth ht2
    split at hexec
    · exact ⟨_, hexec, hregs.reportUnit _ _ _ _, hwidth, ht2⟩
    · exact ⟨_, hexec, hregs.of_cxl, hwidth, ht2⟩
  · have hexec := exec_cxlLinkUp (port := port) (rate := rate) (cxl := cxl) hon hw
    have hregs := State.regsOnly_setLink { s with cxl := s.cxl.withUp port } port width rate (if cxl then 1 else 0)
    have hwidth := State.getF_setLink_width { s with cxl := s.cxl.withUp port } port width rate (if cxl then 1 else 0) (by omega)
    have hrate := State.getF_setLink_rate { s with cxl := s.cxl.withUp port } port width rate (if cxl then 1 else 0) (by omega)
    generalize State.setLink _ port.val width.val rate.val _ = t at hexec hregs hwidth hrate
    have hcxl : t.cxl = s.cxl.withUp port := (congrArg State.cxl hregs :)
    refine ⟨t, hexec, ?_, hcxl ▸ s.cxl.contains_withUp port, hwidth, hrate⟩
    rw [hcxl]
    exact hregs

end Sys2Proof.Machine
end

section
/-! Proofs. The movers' commands (R203, R204, R212, R230): what a copy of clean sectors does, and a command's start and end. -/

namespace Sys2Proof.Machine

/-! ### Clean copies (R203, R212) -/

theorem State.mover_modMover (s : State) (m l : Nat) (f : MovList → MovList) : (s.modMover m l f).mover m l = f (s.mover m l) :=
  (Tab.get_set ..).trans (if_pos rfl)

theorem State.mover_of_beside {s t : State} (h : t.beside = s.beside) (m l : Nat) : t.mover m l = s.mover m l :=
  State.part_of_beside (State.mover · m l) (fun _ => rfl) h

/-- A mover's list, changed where only memory and what serves it differ. -/
theorem State.modMover_eq_of_beside {s t : State} (h : t.beside = s.beside) (m l : Nat) (f : MovList → MovList) :
    t.modMover m l f = { s with movers := (t.modMover m l f).movers, mem := t.mem, deck := t.deck, poison := t.poison,
                                errs := t.errs } :=
  congrArg (fun u : State => { u with movers := (t.modMover m l f).movers }) (State.eq_of_beside h)

theorem State.memRead_of_beside {s t : State} (h : t.beside = s.beside) (hmem : t.mem = s.mem) (a n : Nat) :
    t.memRead a n = s.memRead a n :=
  State.memRead_eq_of_get fun i _ => by rw [hmem, State.canon_of_beside h]

/-- Where no poison comes, a clean range stays clean. -/
theorem State.poisonIn_of_noNewPoison {s t : State} (h : t.beside = s.beside) (hnew : s.noNewPoison t) {a n : Nat}
    (hclean : s.poisonIn a n = []) : t.poisonIn a n = [] := by
  refine List.flatMap_eq_nil_iff.2 fun g hg => List.filter_eq_nil_iff.2 fun k hk hbad => ?_
  rw [State.canon_of_beside h] at hk
  have hk' := List.filter_eq_nil_iff.1 (List.flatMap_eq_nil_iff.1 hclean g hg) k hk
  rw [Bool.or_eq_true, State.t2Down_of_beside h] at hbad
  rw [Bool.or_eq_true, not_or] at hk'
  exact hbad.elim hk'.1 fun hp => hk'.2 (hnew k hp)

theorem State.poisonedAt_of_noNewPoison {s t : State} (h : t.beside = s.beside) (hnew : s.noNewPoison t) {a n : Nat}
    (hclean : s.poisonedAt a n = []) : t.poisonedAt a n = [] := by
  refine List.filter_eq_nil_iff.2 fun i hi hbad => ?_
  have hi' := List.filter_eq_nil_iff.1 hclean i hi
  rw [Bool.or_eq_true, State.t2Down_of_beside h, State.canon_of_beside h] at hbad
  rw [Bool.or_eq_true, not_or] at hi'
  exact hbad.elim hi'.1 fun hp => hi'.2 (hnew _ hp)

/-- A row of clean sectors is read and written. -/
theorem State.copyRow_clean {s : State} {src n : Nat} (port dst : Nat) (hin : s.poisonIn src n = []) (hat : s.poisonedAt src n = []) :
    s.copyRow port src dst n = (s.flushRange src n).memWrite port dst (s.memRead src n) := by
  have hbeside := s.flushRange_beside src n
  have hnew := s.flushRange_noNewPoison src n
  unfold State.copyRow
  dsimp only
  rw [State.poisonIn_of_noNewPoison hbeside hnew hin]
  show (State.memWrite (s.flushRange src n) port dst ((s.flushRange src n).memRead src n)).poisonTo dst n
    ((s.flushRange src n).poisonedAt src n) = _
  rw [State.poisonedAt_of_noNewPoison hbeside hnew hat, State.memRead_of_beside hbeside (s.flushRange_mem src n)]
  rfl

/-- A clean row that lands in the spread view carries the source's bytes and changes no other byte. -/
theorem State.copyRow_spread {s : State} {src dst n : Nat} (port : Nat) (hin : s.poisonIn src n = []) (hat : s.poisonedAt src n = [])
    (hdst : dst + n ≤ spreadSize) : (s.copyRow port src dst n).beside = s.beside ∧
    (s.copyRow port src dst n).memRead dst n = s.memRead src n ∧ s.memBut (s.copyRow port src dst n) dst n := by
  have hlen : (s.memRead src n).length = n := s.length_memRead src n
  have hdst' : dst + (s.memRead src n).length ≤ spreadSize := by rwa [hlen]
  rw [State.copyRow_clean port dst hin hat]
  refine ⟨(State.memWrite_spread_beside _ port hdst').trans (s.flushRange_beside src n), ?_, fun k hk => ?_⟩
  · have hsame := (s.flushRange src n).memRead_memWrite_same port dst (s.memRead src n) (State.linksUp_spread _ hdst')
      (State.canon_spread_inj _ hdst')
    rwa [hlen] at hsame
  · rw [State.memBut_memWrite_spread _ port hdst' k (by rwa [hlen]), s.flushRange_mem]

theorem State.memRange_spread (s : State) {a n : Nat} (h : a + n ≤ spreadSize) : s.memRange a n = true := by
  refine List.all_eq_true.2 fun g hg => ?_
  obtain ⟨hlo, hpos, hhi, -⟩ := bounds_of_mem_lineSegs hg
  rw [s.place_spread (by omega), s.place_spread (by omega)]

theorem State.memRange_of_beside {s t : State} (h : t.beside = s.beside) (a n : Nat) : t.memRange a n = s.memRange a n :=
  State.part_of_beside (State.memRange · a n) (fun _ => rfl) h

/-! ### MOVER_COMMAND_START -/

section
variable {s : State} {m : Fin 6} {l : Fin 16}

theorem exec_moverCommandStart_idle (h : (s.mover m l).cmd.isSome = true ∨ (s.mover m l).units = 0 ∨
    s.regionOn (netRegion m) = false ∨ s.ringBase m l = none) : exec (.moverCommandStart m l) s = .next s := by
  show execMoverCommandStart m l s = _
  unfold execMoverCommandStart
  dsimp only
  split
  · rfl
  · next hrun =>
    simp only [Bool.or_eq_true, decide_eq_true_eq, Bool.not_eq_true', not_or] at hrun
    obtain ⟨⟨hcmd, hunits⟩, hon⟩ := hrun
    rcases h with h | h | h | h
    · exact absurd h hcmd
    · exact absurd h hunits
    · exact absurd h hon
    · rw [h]

theorem exec_moverCommandStart {base : Nat} (hcmd : (s.mover m l).cmd = none) (hunits : 0 < (s.mover m l).units)
    (hon : s.regionOn (netRegion m) = true) (hring : s.ringBase m l = some base) :
    exec (.moverCommandStart m l) s = .next ((s.flushRange (base + 64 * (s.mover m l).next) 64).modMover m l fun x =>
      { x with units := x.units - 1, next := (x.next + 1) % 16,
               cmd := some ⟨base + 64 * (s.mover m l).next, leNat (s.memRead (base + 64 * (s.mover m l).next) 64), 0, false⟩ }) := by
  have hread := State.memRead_of_beside (s.flushRange_beside (base + 64 * (s.mover m l).next) 64) (s.flushRange_mem _ _)
    (base + 64 * (s.mover m l).next) 64
  show execMoverCommandStart m l s = _
  unfold execMoverCommandStart
  dsimp only
  rw [if_neg (by simp [hcmd, hon]; omega), hring]
  dsimp only
  rw [hread]

/-! ### MOVER_COPY -/

variable {c : MovCmd}

theorem exec_moverCopy_notCopy (hcmd : (s.mover m l).cmd = some c) (hdone : c.done = false) (hok : (MovBlock.of c.block).ok = false) :
    exec (.moverCopy m l) s = .next ((s.reportUnit 4 6 (wholeUnit 8 (netRegion m)) 0).modMover m l fun x =>
      { x with cmd := some { c with status := 3, done := true } }) := by
  show execMoverCopy m l s = _
  unfold execMoverCopy
  rw [hcmd]
  simp only [hdone, hok, Bool.not_false, Bool.false_eq_true, if_false, if_true]
  rfl

theorem State.moveRows_one (s : State) (owner : Option Nat) (port : Nat) (b : MovBlock)
    (h : s.rowRefused owner b.src b.dst b.bytes = none) : s.moveRows owner port b 0 1 = (s.copyRow port b.src b.dst b.bytes, 0) := by
  simp only [State.moveRows, Nat.zero_mul, Nat.add_zero, h]

theorem exec_moverCopy_row (hcmd : (s.mover m l).cmd = some c) (hdone : c.done = false) (hok : (MovBlock.of c.block).ok = true)
    (hrows : (MovBlock.of c.block).rows = 1) (howner : l.val ≠ 15 → (s.listOwner m l).isSome = true)
    (hpass : s.rowRefused (if l.val = 15 then none else s.listOwner m l) (MovBlock.of c.block).src (MovBlock.of c.block).dst
      (MovBlock.of c.block).bytes = none) :
    exec (.moverCopy m l) s = .next ((s.copyRow (servicePort m) (MovBlock.of c.block).src (MovBlock.of c.block).dst
      (MovBlock.of c.block).bytes).modMover m l fun x => { x with cmd := some { c with status := 0, done := true } }) := by
  have hbound : ((if l.val = 15 then none else s.listOwner m l).isNone && l.val != 15) = false := by
    by_cases hl : l.val = 15
    · simp [hl]
    · rw [if_neg hl, ← Option.not_isSome, howner hl]
      rfl
  show execMoverCopy m l s = _
  unfold execMoverCopy
  rw [hcmd]
  simp only [hdone, hok, hbound, hrows, State.moveRows_one _ _ _ _ hpass, Bool.not_true, Bool.false_eq_true, if_false, if_true]

/-! ### MOVER_COPY_COMPLETE -/

theorem exec_moverCopyComplete (hcmd : (s.mover m l).cmd = some c) (hdone : c.done = true) :
    exec (.moverCopyComplete m l) s =
      let t := s.memWrite (servicePort m) (c.addr + 1) [BitVec.ofNat 8 c.status]
      let a := (MovBlock.of c.block).compl / 8 * 8
      .next ((if (MovBlock.of c.block).compl = 0 || !t.memRange a 8 then t else t.atomicAdd (servicePort m) a 1).modMover m l
        fun x => { x with cmd := none }) := by
  show execMoverCopyComplete m l s = _
  unfold execMoverCopyComplete
  rw [hcmd]
  simp only [hdone, Bool.not_true, Bool.false_eq_true, if_false]
  rfl

end

/-- A byte written: what it changes. -/
theorem State.memWrite_byte {s : State} {q : Nat} (p : Nat) (v : Byte) (hdown : s.t2Down q = false) :
    (s.memWrite p q [v]).beside = s.beside ∧ ∀ k, Tab.get 0 (s.memWrite p q [v]).mem k = if k = s.canon q then v else Tab.get 0 s.mem k := by
  have hline : q % 512 + [v].length ≤ 512 := by
    rw [List.length_singleton]
    omega
  have hup : s.linksUp q [v].length := State.linksUp_line (by simp) hline hdown
  refine ⟨State.memWrite_beside hup p, fun k => ?_⟩
  split
  · next hk =>
    rw [hk]
    exact s.get_memWrite p q [v] hup (s.canon_line_inj hline) (i := 0) (by simp)
  · next hk =>
    refine s.memBut_memWrite_line p hline k fun hin => ?_
    rw [List.length_singleton] at hin
    omega

/-- The end of a command, at a STATUS byte that may be written and a completion word apart from it. -/
theorem State.completeBytes {s : State} {q a : Nat} (p : Nat) (v : Byte) (hdown : s.t2Down q = false) (ha : a % 8 = 0)
    (hadown : s.t2Down a = false) (hapart : ∀ i, i < 8 → s.canon (a + i) ≠ s.canon q) :
    let t := (s.memWrite p q [v]).atomicAdd p a 1
    t.beside = s.beside ∧ Tab.get 0 t.mem (s.canon q) = v ∧ leNat (t.memRead a 8) = (leNat (s.memRead a 8) + 1) % 2 ^ 64 ∧
    ∀ k, k ≠ s.canon q → ¬ (s.canon a ≤ k ∧ k < s.canon a + 8) → Tab.get 0 t.mem k = Tab.get 0 s.mem k := by
  obtain ⟨hbeside, hget⟩ := State.memWrite_byte p v hdown
  obtain ⟨hadd, hsum, hbut⟩ := State.atomicAdd_line (s := s.memWrite p q [v]) p 1 ha ((State.t2Down_of_beside hbeside a).trans hadown)
  have hcanon (b : Nat) := s.canon_memWrite p q [v] b
  have hoff : ¬ (s.canon a ≤ s.canon q ∧ s.canon q < s.canon a + 8) := fun h => by
    refine hapart (s.canon q - s.canon a) (by omega) ?_
    rw [s.canon_add (by omega)]
    omega
  have hread : (s.memWrite p q [v]).memRead a 8 = s.memRead a 8 := State.memRead_eq_of_get fun i hi => by
    rw [hcanon, hget, if_neg (hapart i hi)]
  rw [hcanon] at hbut
  refine ⟨hadd.trans hbeside, ?_, by rw [hsum, hread], fun k hq hk => ?_⟩
  · rw [hbut _ hoff, hget, if_pos rfl]
  · rw [hbut _ hk, hget, if_neg hq]

/-! ### CTL_MOVER_GO -/

theorem exec_ctlMoverGo {s : State} (hactive : s.active.isSome = true) (m : Fin 8) :
    exec (.ctlMoverGo m) s = .next (s.ctlMoverGo m) := congrArg Host.Outcome.next (if_pos hactive)

theorem State.ctlMoverGo_ring {s : State} {m : Nat} (hm : m < 6) (hring : (s.ctlRing m).isSome = true) :
    s.ctlMoverGo m = s.modMover m 15 fun x => { x with units := x.units + 1 } := by
  rw [State.ctlMoverGo, hring, decide_eq_true hm]
  rfl

theorem State.ctlMoverGo_idle {s : State} {m : Nat} (h : 6 ≤ m ∨ s.ctlRing m = none) : s.ctlMoverGo m = s := by
  refine if_neg ?_
  rcases h with h | h
  · simp; omega
  · simp [h]

/-- Settles O23: a start reads its block, a clean row is one write, and the end is a byte and a word apart from it. -/
theorem moverCommands : Obligations.MoverCommands := by
  unfold Obligations.MoverCommands
  intro s m l
  refine ⟨fun base hcmd hunits hon hring => ?_, exec_moverCommandStart_idle, fun c hcmd hdone => ⟨fun hok => ?_,
    fun hok hrows hdst hin hat hctl hown => ?_⟩, fun c hcmd hdone hplace hdown hword hapart => ?_, fun hactive => ⟨fun hring => ?_,
    fun hring => ?_, ?_, ?_⟩⟩
  · have hbeside := s.flushRange_beside (base + 64 * (s.mover m l).next) 64
    have heq := State.modMover_eq_of_beside hbeside m l fun x => { x with
      units := x.units - 1, next := (x.next + 1) % 16
      cmd := some ⟨base + 64 * (s.mover m l).next, leNat (s.memRead (base + 64 * (s.mover m l).next) 64), 0, false⟩ }
    rw [s.flushRange_mem] at heq
    refine ⟨_, exec_moverCommandStart hcmd hunits hon hring, heq, ?_⟩
    rw [State.mover_modMover, State.mover_of_beside hbeside]
  · refine ⟨_, exec_moverCopy_notCopy hcmd hdone hok, rfl, ?_⟩
    rw [State.mover_modMover]
    rfl
  · obtain ⟨hbeside, hread, hbut⟩ := State.copyRow_spread (servicePort m) hin hat hdst
    have hpass : s.rowRefused (if l.val = 15 then none else s.listOwner m l) (MovBlock.of c.block).src (MovBlock.of c.block).dst
        (MovBlock.of c.block).bytes = none := by
      unfold State.rowRefused
      by_cases hl : l.val = 15
      · simp [hl, hctl hl, s.memRange_spread hdst]
      · obtain ⟨o, ho, hsrc, hdst⟩ := hown hl
        simp [hl, ho, hsrc, hdst]
    have hexec := exec_moverCopy_row hcmd hdone hok hrows (fun hl => by obtain ⟨o, ho, -⟩ := hown hl; simp [ho]) hpass
    refine ⟨_, hexec, State.modMover_eq_of_beside hbeside m l _, ?_, hread, hbut⟩
    rw [State.mover_modMover, State.mover_of_beside hbeside]
  · have hexec := exec_moverCopyComplete hcmd hdone
    obtain ⟨hbyte, hget⟩ := State.memWrite_byte (servicePort m) (BitVec.ofNat 8 c.status) hdown
    by_cases hcompl : (MovBlock.of c.block).compl = 0
    · rw [hcompl] at hexec
      refine ⟨_, hexec, State.modMover_eq_of_beside hbyte m l _, ?_, (hget _).trans (if_pos rfl), fun _ k hk => ?_, absurd hcompl⟩
      · exact (State.mover_modMover _ _ _ _).trans (by rw [← State.mover_of_beside hbyte m l]; rfl)
      · exact (hget k).trans (if_neg (by omega))
    · obtain ⟨hrange, hadown⟩ := hword hcompl
      obtain ⟨hbeside, hstatus, hsum, hbut⟩ := State.completeBytes (servicePort m) (BitVec.ofNat 8 c.status) hdown (by omega) hadown hapart
      dsimp only at hexec
      rw [if_neg (by simp [hcompl, State.memRange_of_beside hbyte, hrange])] at hexec
      refine ⟨_, hexec, State.modMover_eq_of_beside hbeside m l _, ?_, hstatus, fun h => absurd h hcompl, fun _ => ⟨hsum, hbut⟩⟩
      rw [State.mover_modMover, State.mover_of_beside hbeside]
  · refine ⟨_, exec_ctlMoverGo hactive _, ?_⟩
    rw [State.ctlMoverGo_ring m.isLt hring]
    exact ⟨rfl, State.mover_modMover _ _ _ _⟩
  · rw [exec_ctlMoverGo hactive, State.ctlMoverGo_idle (Or.inr hring)]
  · rw [exec_ctlMoverGo hactive, State.ctlMoverGo_idle (Or.inl (by decide))]
  · rw [exec_ctlMoverGo hactive, State.ctlMoverGo_idle (Or.inl (by decide))]

end Sys2Proof.Machine
end

section
/-! Proofs. What each operation makes of the memory's canonical form (R192, R200): the operations that leave the memory as
it is say so, those that write it keep it listed strictly rising and without default bytes; a step is one of them. -/

namespace Sys2Proof.Machine

theorem State.mem_ite {c : Prop} [Decidable c] {s t u : State} (ht : t.mem = s.mem) (hu : u.mem = s.mem) :
    (if c then t else u).mem = s.mem := by
  split
  · exact ht
  · exact hu

/-! ### The operations of Ops that leave the memory -/

@[simp] theorem State.popLaunch_mem (s : State) (i : Nat) : (s.popLaunch i).mem = s.mem := rfl

@[simp] theorem State.refuseWrite_mem (s : State) (cc : Nat) : (s.refuseWrite cc).mem = s.mem := rfl

@[simp] theorem State.requestHold_mem (s : State) (cause : Fld) : (s.requestHold cause).mem = s.mem := rfl

@[simp] theorem State.bindCl_mem (s : State) (c : Nat) (j : Option (Nat × Nat)) : (s.bindCl c j).mem = s.mem := by
  unfold State.bindCl; split <;> rfl

@[simp] theorem State.latchCl_mem (s : State) (c : Nat) : (s.latchCl c).mem = s.mem := by
  unfold State.latchCl
  grind [each_mem, State.setEff_mem]

@[simp] theorem State.writeCl_mem (s : State) (f : Fld) (c v : Nat) : (s.writeCl f c v).mem = s.mem := by
  unfold State.writeCl
  grind [State.setF_mem, State.setEff_mem]

/-! ### The operations of MemoryOps that leave the memory -/

@[simp] theorem State.setPoison_mem (s : State) (sec : Nat) : (s.setPoison sec).mem = s.mem := rfl

@[simp] theorem State.meetPoison_mem (s : State) (secs : List Nat) : (s.meetPoison secs).mem = s.mem := by
  unfold State.meetPoison
  grind [each_mem, State.modErrs_mem, State.report_mem, State.countPoison_mem]

@[simp] theorem State.refuseUnmapped_mem (s : State) : s.refuseUnmapped.mem = s.mem := rfl

@[simp] theorem State.reportBy_mem (s : State) (c : Nat) (src : Option (Nat × Nat)) (cls code detail : Nat) :
    (s.reportBy c src cls code detail).mem = s.mem := by
  unfold State.reportBy; split <;> rfl

@[simp] theorem State.refuse_mem (s : State) (c : Nat) (wr : Bool) (src : Option (Nat × Nat)) :
    (s.refuse c wr src).mem = s.mem := by
  unfold State.refuse
  grind [State.addF_mem, State.tallyDev_mem, State.requestHold_mem, State.reportBy_mem]

/-! ### The operations of ErrorOps that leave the memory -/

@[simp] theorem State.setAgg_mem (s : State) (k : Nat) (l : List ErrRec) : (s.setAgg k l).mem = s.mem := rfl

/-! ### The operations of ClusterOps that leave the memory -/

@[simp] theorem State.faultAt_mem (s : State) (site pc kind opc : Nat) : (s.faultAt site pc kind opc).mem = s.mem :=
  rfl

@[simp] theorem State.faultReport_mem (s : State) (site pc kind opc : Nat) :
    (s.faultReport site pc kind opc).mem = s.mem := by
  unfold State.faultReport; split <;> rfl

@[simp] theorem State.deliverExcess_mem (s : State) (site tok : Nat) : (s.deliverExcess site tok).mem = s.mem := by
  unfold State.deliverExcess
  grind [State.modCore_mem, State.modCluster_mem]

@[simp] theorem State.dropToken_mem (s : State) (cl : Nat) (src : Option (Nat × Nat)) :
    (s.dropToken cl src).mem = s.mem := by
  unfold State.dropToken
  grind [State.addF_mem, State.tallyDev_mem, State.reportBy_mem]

@[simp] theorem State.wantReplay_mem (s : State) (c : Nat) (r : Recovery) : (s.wantReplay c r).mem = s.mem := by
  unfold State.wantReplay
  grind [each_mem, State.setF_mem, State.modCore_mem, State.modCluster_mem]

@[simp] theorem State.residueEvent_mem (s : State) (site : Nat) (pass : Bool) (array sub row col detail : Nat) :
    (s.residueEvent site pass array sub row col detail).mem = s.mem := by
  unfold State.residueEvent
  grind [State.modCluster_mem, State.tallyDev_mem, State.wantReplay_mem]

@[simp] theorem State.applyEv_mem (s : State) (site pc : Nat) (e : Ev) : (s.applyEv site pc e).mem = s.mem := by
  unfold State.applyEv
  grind [State.addF_mem, State.peakF_mem, State.reportSite_mem, State.tallyDev_mem, State.pend_mem,
    State.residueEvent_mem]

@[simp] theorem State.applyEvs_mem (s : State) (site pc : Nat)
    (l : List Ev) : (s.applyEvs site pc l).mem = s.mem := by
  unfold State.applyEvs
  grind [each_mem, State.applyEv_mem]

@[simp] theorem State.resetCluster_mem (s : State) (c : Nat) : (s.resetCluster c).mem = s.mem := by
  unfold State.resetCluster
  grind [each_mem, State.setF_mem, State.addF_mem, State.modCore_mem]

@[simp] theorem State.partitionReset_mem (s : State) (c : Nat) (site : Option Nat) :
    (s.partitionReset c site).mem = s.mem := by
  unfold State.partitionReset
  grind [State.modCluster_mem, State.reportUnit_mem, State.wantReplay_mem, State.resetCluster_mem]

@[simp] theorem State.clusterReset_mem (s : State) (site : Nat) : (s.clusterReset site).mem = s.mem := by
  unfold State.clusterReset
  grind [State.partitionReset_mem]

/-! ### The operations of FabricOps that leave the memory -/

@[simp] theorem State.drainPort_mem (s : State) (p : Nat) : (s.drainPort p).mem = s.mem := by
  unfold State.drainPort
  grind [State.modPort_mem]

@[simp] theorem State.txFlits_mem (s : State) (p : Nat) (k : Packet) (slot : Option Nat) :
    (s.txFlits p k slot).mem = s.mem := by
  unfold State.txFlits
  grind [State.modPort_mem, State.drainPort_mem]

@[simp] theorem State.txPacket_mem (s : State) (k : Nat) (p : Packet) : (s.txPacket k p).mem = s.mem := by
  unfold State.txPacket
  grind [State.modFab_mem, State.txFlits_mem]

@[simp] theorem State.sendNotice_mem (s : State) (dev window : Nat) : (s.sendNotice dev window).mem = s.mem := by
  unfold State.sendNotice
  grind [State.modChip_mem, State.modPartner_mem, State.txPacket_mem]

@[simp] theorem State.countAnswer_mem (s : State) (lc code : Nat) : (s.countAnswer lc code).mem = s.mem := by
  unfold State.countAnswer; split <;> rfl

@[simp] theorem State.sendDone_mem (s : State) (r : SendRec) : (s.sendDone r).mem = s.mem := rfl

@[simp] theorem State.sendProgress_mem (s : State) (no : Nat) : (s.sendProgress no).mem = s.mem := by
  unfold State.sendProgress
  grind [each_mem, State.modFab_mem, State.sendNotice_mem, State.sendDone_mem]

@[simp] theorem State.answerTarget_mem (s : State) (no target code : Nat) :
    (s.answerTarget no target code).mem = s.mem := by
  unfold State.answerTarget
  grind [State.modFab_mem, State.wantReplay_mem, State.sendProgress_mem]

@[simp] theorem State.localAnswer_mem (s : State) (lc code : Nat) (o : OutPkt) :
    (s.localAnswer lc code o).mem = s.mem := by
  unfold State.localAnswer
  grind [State.countAnswer_mem, State.answerTarget_mem]

@[simp] theorem State.transmit_mem (s : State) (lc : Nat) (o : OutPkt) (port : Option Nat) :
    (s.transmit lc o port).mem = s.mem := by
  unfold State.transmit
  grind [State.modChip_mem, State.txFlits_mem]

@[simp] theorem State.placePkt_mem (s : State) (k : Nat) (o : OutPkt) : (s.placePkt k o).mem = s.mem := by
  unfold State.placePkt
  grind [State.modChip_mem, State.modFab_mem, State.localAnswer_mem, State.transmit_mem]

@[simp] theorem State.placeQueued_mem (s : State) : s.placeQueued.mem = s.mem := by
  unfold State.placeQueued
  grind [each_mem, State.modFab_mem, State.placePkt_mem]

@[simp] theorem State.finalAnswer_mem (s : State)
    (lc slot code : Nat) : (s.finalAnswer lc slot code).mem = s.mem := by
  unfold State.finalAnswer
  grind [State.modChip_mem, State.countAnswer_mem, State.answerTarget_mem, State.placeQueued_mem]

@[simp] theorem State.startSend_mem (s : State) (site num la off cls len : Nat) (pack : Bool)
    (tg : List (Nat × Nat × Nat)) :
    (s.startSend site num la off cls len pack tg).1.mem = s.mem := by
  unfold State.startSend
  grind [each_mem, State.modFab_mem, State.sendProgress_mem, State.placePkt_mem]

/-! ### The operations of Levels that leave the memory -/

@[simp] theorem State.blazeNote_mem (s : State) (unit kind cause detail : Nat) :
    (s.blazeNote unit kind cause detail).mem = s.mem := rfl

@[simp] theorem State.deckCorrected_mem (s : State) (slice line sec : Nat) :
    (s.deckCorrected slice line sec).mem = s.mem := by
  unfold State.deckCorrected
  grind [State.addF_mem, State.modDeck_mem, State.report_mem, State.blazeNote_mem]

@[simp] theorem State.deckEcc_mem (s : State) (slice line : Nat) (bad : List Nat) :
    (s.deckEcc slice line bad).mem = s.mem := by
  unfold State.deckEcc
  grind [each_mem, State.addF_mem, State.report_mem, State.setPoison_mem, State.deckCorrected_mem]

@[simp] theorem State.redirect_mem (s : State) (stack frame : Nat) : (s.redirect stack frame).1.mem = s.mem := by
  unfold State.redirect
  grind [State.setF_mem, State.addF_mem, State.modHbm_mem]

@[simp] theorem State.retireFrame_mem (s : State) (stack frame : Nat) : (s.retireFrame stack frame).mem = s.mem := by
  unfold State.retireFrame
  grind [State.reportUnit_mem, State.blazeNote_mem, State.redirect_mem]

@[simp] theorem State.softRepair_mem (s : State) (stack row : Nat) (spare : Bool) :
    (s.softRepair stack row spare).mem = s.mem := by
  unfold State.softRepair
  grind [State.addF_mem, State.modHbm_mem, State.blazeNote_mem]

@[simp] theorem State.hbmEcc_mem (s : State) (stack frame : Nat) (err : MemErr) (secs : List (Nat × Nat)) :
    (s.hbmEcc stack frame err secs).mem = s.mem := by
  unfold State.hbmEcc
  grind [each_mem, State.addF_mem, State.modHbm_mem, State.report_mem, State.setPoison_mem, State.retireFrame_mem,
    State.softRepair_mem]

@[simp] theorem State.setPort_mem (s : State) (port : Nat) (f0 f1 : Fld) (v : Nat) :
    (s.setPort port f0 f1 v).mem = s.mem := rfl

@[simp] theorem State.applyWindow_mem (s : State) : s.applyWindow.mem = s.mem := by
  unfold State.applyWindow
  grind [State.setF_mem]

/-! ### The operations of Movers that leave the memory -/

@[simp] theorem State.ctlMoverGo_mem (s : State) (m : Nat) : (s.ctlMoverGo m).mem = s.mem := by
  unfold State.ctlMoverGo; split <;> rfl

/-! ### The operations of Placement that leave the memory -/

@[simp] theorem State.writeFences_mem (s : State) (j : Job) (i c : Nat) : (s.writeFences j i c).mem = s.mem := by
  unfold State.writeFences
  grind [each_mem, State.writeCl_mem]

@[simp] theorem State.writeRoute_mem (s : State) (c n dir site peer peerRoute share buf : Nat) :
    (s.writeRoute c n dir site peer peerRoute share buf).mem = s.mem := by
  unfold State.writeRoute
  grind [State.writeCl_mem]

@[simp] theorem State.writeRoutes_mem (s : State) (j : Job) : (s.writeRoutes j).mem = s.mem := by
  unfold State.writeRoutes
  grind [each_mem, State.writeRoute_mem]

@[simp] theorem State.writeLists_mem (s : State) (j : Job) : (s.writeLists j).mem = s.mem := by
  unfold State.writeLists
  grind [each_mem, State.modMover_mem, State.writeCl_mem]

@[simp] theorem State.placeKernel_mem (s : State) (j : Job) (k : KImage) : (s.placeKernel j k).mem = s.mem := by
  unfold State.placeKernel; split <;> rfl

@[simp] theorem State.writeWindows_mem (s : State) (j : Job) : (s.writeWindows j).mem = s.mem := by
  unfold State.writeWindows
  grind [each_mem, State.modWindow_mem]

@[simp] theorem State.writeTally_mem (s : State) (j : Job) (id : Nat) : (s.writeTally j id).mem = s.mem := by
  unfold State.writeTally
  grind [each_mem, State.setF_mem]

@[simp] theorem State.bindJob_mem (s : State) (j : Job) (id : Nat) : (s.bindJob j id).mem = s.mem := by
  unfold State.bindJob
  grind [each_mem, State.setF_mem, State.modCluster_mem, State.setJob_mem, State.bindCl_mem, State.writeFences_mem,
    State.writeRoutes_mem, State.writeLists_mem, State.placeKernel_mem, State.writeWindows_mem,
    State.writeTally_mem]

@[simp] theorem State.admRecord_mem (s : State) (r : AdmRec) : (s.admRecord r).mem = s.mem := rfl

@[simp] theorem State.closeWindow_mem (s : State) (w : Nat) : (s.closeWindow w).mem = s.mem := by
  unfold State.closeWindow
  grind [State.modWindow_mem]

@[simp] theorem State.freeJob_mem (s : State) (id : Nat) (j : Job) : (s.freeJob id j).mem = s.mem := by
  unfold State.freeJob
  grind [each_mem, State.setF_mem, State.setJob_mem, State.modTally_mem, State.modFab_mem, State.modMesh_mem,
    State.bindCl_mem, State.writeCl_mem]

/-! ### The operations of Fabric that leave the memory -/

@[simp] theorem State.setTrain_mem (s : State) (p pass : Nat) : (s.setTrain p pass).mem = s.mem := by
  unfold State.setTrain
  grind [State.setF_mem, State.reportUnit_mem]

@[simp] theorem State.blazeField_mem (s : State) (unit kind : Nat) : (s.blazeField unit kind).mem = s.mem := rfl

@[simp] theorem State.resend_mem (s : State) (tag : Nat) : (s.resend tag).mem = s.mem := by
  unfold State.resend
  grind [State.transmit_mem, State.finalAnswer_mem]

@[simp] theorem State.divert_mem (s : State) (p : Nat) : (s.divert p).mem = s.mem := by
  unfold State.divert
  grind [each_mem, State.modPort_mem, State.resend_mem]

@[simp] theorem State.dropPort_mem (s : State) (p : Nat) : (s.dropPort p).mem = s.mem := by
  unfold State.dropPort
  grind [each_mem, State.modPort_mem, State.finalAnswer_mem, State.resend_mem]

@[simp] theorem State.retrain_mem (s : State) (p pass : Nat) : (s.retrain p pass).mem = s.mem := by
  unfold State.retrain
  grind [State.addF_mem, State.modPort_mem, State.drainPort_mem, State.setTrain_mem, State.dropPort_mem]

@[simp] theorem State.lifetimeDrop_mem (s : State) (lc : Nat) : (s.lifetimeDrop lc).mem = s.mem := rfl

@[simp] theorem State.receive_mem (s : State) (lc : Nat) (p : Packet) : (s.receive lc p).mem = s.mem := by
  unfold State.receive
  split_ifs <;> simp

@[simp] theorem State.takeInbox_mem (s : State) (lc n : Nat) : (s.takeInbox lc n).mem = s.mem := rfl

@[simp] theorem State.answer_mem (s : State) (lc : Nat) (p : Packet) (code : Nat) :
    (s.answer lc p code).mem = s.mem := by
  unfold State.answer
  grind [State.modChip_mem, State.txPacket_mem]

@[simp] theorem State.countRefusal_mem (s : State) (code : Nat) : (s.countRefusal code).mem = s.mem := by
  unfold State.countRefusal; split <;> rfl

@[simp] theorem State.noticeAcked_mem (s : State) (d nseq : Nat) : (s.noticeAcked d nseq).mem = s.mem := by
  unfold State.noticeAcked
  grind [State.modPartner_mem, State.sendNotice_mem]

@[simp] theorem State.updatePorts_mem (s : State) : s.updatePorts.mem = s.mem := by
  unfold State.updatePorts
  grind [each_mem, State.modPartner_mem]

@[simp] theorem State.rebuildTags_mem (s t : State) : (s.rebuildTags t).mem = t.mem := by
  unfold State.rebuildTags; split <;> rfl

@[simp] theorem State.applyJoin_mem (s : State) (j : Nat × Option Nat) : (s.applyJoin j).mem = s.mem := by
  unfold State.applyJoin
  grind [State.setF_mem, State.modPartner_mem, State.modGate_mem, State.modFab_mem]

@[simp] theorem State.applyJoins_mem (s : State) : s.applyJoins.mem = s.mem := by
  unfold State.applyJoins
  grind [each_mem, State.modFab_mem, State.updatePorts_mem, State.rebuildTags_mem, State.applyJoin_mem]

@[simp] theorem State.queueJoin_mem (s : State) (j : Nat × Option Nat) : (s.queueJoin j).mem = s.mem := by
  unfold State.queueJoin
  grind [State.modFab_mem, State.applyJoins_mem]

@[simp] theorem State.giveTag_mem (s : State) (dev : Nat) (hash : List Byte) (ident : Nat) :
    (s.giveTag dev hash ident).1.mem = s.mem := by
  unfold State.giveTag
  split
  · rfl
  · split <;> rfl

@[simp] theorem State.useTag_mem (s : State) (hash : List Byte) (ident tag : Nat) :
    (s.useTag hash ident tag).mem = s.mem := by
  unfold State.useTag
  grind [each_mem, State.setF_mem, State.modWindow_mem]

@[simp] theorem State.reportTag_mem (s : State) (dev : Nat) (hash : List Byte) (ident tag : Nat) :
    (s.reportTag dev hash ident tag).mem = s.mem := by
  unfold State.reportTag
  grind [State.modFab_mem]

@[simp] theorem State.windowCmd_mem (s : State) (v : Nat) : (s.windowCmd v).mem = s.mem := by
  unfold State.windowCmd
  grind [State.setF_mem, State.modWindow_mem, State.modFab_mem]

@[simp] theorem State.notifyWrite_mem (s : State) (v : Nat) : (s.notifyWrite v).mem = s.mem := by
  unfold State.notifyWrite
  grind [State.setF_mem, State.modWindow_mem]

@[simp] theorem State.mcastEntry_mem (s : State) (v : Nat) : (s.mcastEntry v).mem = s.mem := by
  unfold State.mcastEntry
  grind [State.modFab_mem]

/-! ### The operations of Lull that leave the memory -/

@[simp] theorem State.yieldSlice_mem (s : State) (site : Nat) : (s.yieldSlice site).mem = s.mem := by
  unfold State.yieldSlice; split <;> rfl

/-! ### The operations of Moves that leave the memory -/

@[simp] theorem State.countInstr_mem (s : State) (site : Nat) : (s.countInstr site).mem = s.mem := rfl

@[simp] theorem State.setLedger_mem (s : State) (e : LedgerEnt) : (s.setLedger e).mem = s.mem := rfl

@[simp] theorem State.sendTmark_mem (s : State) (site : Nat) : (s.sendTmark site).mem = s.mem := by
  unfold State.sendTmark
  grind [State.setCore_mem, State.modCore_mem, State.modTally_mem, State.countInstr_mem, State.setLedger_mem]

@[simp] theorem State.routePut_mem (s : State) (c n : Nat) (bs : List Byte) : (s.routePut c n bs).mem = s.mem := rfl

@[simp] theorem State.signal_mem (s : State) (site pc tok n : Nat) : (s.signal site pc tok n).mem = s.mem := by
  unfold State.signal
  grind [State.modCore_mem, State.modMesh_mem, State.dropToken_mem, State.setLedger_mem]

@[simp] theorem State.moveDone_mem (s : State) (site i : Nat) (ready : Bool) :
    (s.moveDone site i ready).mem = s.mem := rfl

@[simp] theorem State.dropMoves_mem (s : State) (site i : Nat) : (s.dropMoves site i).mem = s.mem := rfl

@[simp] theorem State.checkFail_mem (s : State) (site pc : Nat) (stop : Bool) :
    (s.checkFail site pc stop).mem = s.mem := by
  unfold State.checkFail
  grind [State.addF_mem, State.modCore_mem, State.reportSite_mem, State.tallyDev_mem, State.faultAt_mem]

/-! ### The operations of Launch that leave the memory -/

@[simp] theorem State.loadCore_mem (s : State) (site cmdLa : Nat) (r : LaunchRec) :
    (s.loadCore site cmdLa r).mem = s.mem := rfl

@[simp] theorem State.loadFresh_mem (s : State) (site : Nat) (r : LaunchRec) : (s.loadFresh site r).mem = s.mem := rfl

@[simp] theorem State.launchCore_mem (s : State) (j : Job) (a : LaunchArgs) (k : KImage) (q : KKind) :
    (s.launchCore j a k q).mem = s.mem := by
  unfold State.launchCore
  grind [State.setWaiting_mem, State.loadFresh_mem]

@[simp] theorem State.launchCommit_mem (s : State) (c : Nat) : (s.launchCommit c).mem = s.mem := rfl

@[simp] theorem State.clTsig_mem (s : State) (c v : Nat) : (s.clTsig c v).mem = s.mem := by
  unfold State.clTsig
  grind [State.modMesh_mem, State.dropToken_mem]

/-! ### The operations of TallyUnit that leave the memory -/

@[simp] theorem State.tripFire_mem (s : State) (n : Nat) : (s.tripFire n).mem = s.mem := by
  unfold State.tripFire
  grind [State.setF_mem, State.orF_mem, State.modTally_mem, State.requestHold_mem]

@[simp] theorem State.sendMark_mem (s : State) (m : Mark) : (s.sendMark m).mem = s.mem := rfl

@[simp] theorem State.markWrite_mem (s : State) : s.markWrite.mem = s.mem := by
  unfold State.markWrite; split <;> rfl

@[simp] theorem State.takeMark_mem (s : State) (m : Mark) : (s.takeMark m).mem = s.mem := rfl

@[simp] theorem State.takeWaiting_mem (s : State) : s.takeWaiting.mem = s.mem := by
  unfold State.takeWaiting
  grind [State.modTally_mem, State.takeMark_mem]

@[simp] theorem State.markDone_mem (s : State) (m : Mark) : (s.markDone m).mem = s.mem := by
  unfold State.markDone
  grind [State.modCore_mem, State.modCluster_mem, State.countInstr_mem]

@[simp] theorem State.nextWindow_mem (s : State) : s.nextWindow.mem = s.mem := rfl

@[simp] theorem State.holdAt_mem (s : State) (step : Nat) : (s.holdAt step).mem = s.mem := rfl

@[simp] theorem State.holdCore_mem (s : State) : s.holdCore.mem = s.mem := by
  unfold State.holdCore
  grind [State.modCore_mem]

@[simp] theorem State.tell_mem (s : State) (dev : Nat) (body : List Byte) : (s.tell dev body).mem = s.mem := by
  unfold State.tell
  grind [State.txPacket_mem]

@[simp] theorem State.gateProgress_mem (s : State) : s.gateProgress.mem = s.mem := by
  unfold State.gateProgress
  grind [State.modGate_mem, State.tell_mem]

@[simp] theorem State.tellChildren_mem (s : State) (go : Bool) : (s.tellChildren go).mem = s.mem := by
  unfold State.tellChildren
  grind [each_mem, State.tell_mem]

@[simp] theorem State.holdPlane_mem (s : State) (dev : Nat) : (s.holdPlane dev).mem = s.mem := by
  unfold State.holdPlane
  grind [State.modModule_mem, State.report_mem, State.requestHold_mem]

@[simp] theorem State.compareTwins_mem (s : State) : s.compareTwins.mem = s.mem := by
  unfold State.compareTwins
  grind [State.addF_mem, State.orF_mem, State.modGate_mem, State.report_mem, State.holdPlane_mem]

@[simp] theorem State.openGate_mem (s : State) (step : Nat) (digest : List Byte) :
    (s.openGate step digest).mem = s.mem := by
  unfold State.openGate
  grind [State.modGate_mem, State.tell_mem, State.gateProgress_mem, State.compareTwins_mem]

@[simp] theorem State.releaseHold_mem (s : State) : s.releaseHold.mem = s.mem := by
  unfold State.releaseHold
  grind [State.setF_mem, State.modTally_mem, State.takeWaiting_mem, State.markDone_mem]

@[simp] theorem State.holdWrite_mem (s : State) : s.holdWrite.mem = s.mem := by
  unfold State.holdWrite
  grind [State.requestHold_mem, State.gateProgress_mem]

@[simp] theorem State.releaseWrite_mem (s : State) : s.releaseWrite.mem = s.mem := by
  unfold State.releaseWrite
  grind [State.modGate_mem, State.tellChildren_mem, State.releaseHold_mem]

@[simp] theorem State.markCmd_mem (s : State) (v : Nat) : (s.markCmd v).mem = s.mem := by
  unfold State.markCmd
  grind [State.markWrite_mem, State.holdWrite_mem, State.releaseWrite_mem]

/-! ### The operations of Errors that leave the memory -/

@[simp] theorem State.captureFree_mem (s : State) (v : Nat) : (s.captureFree v).mem = s.mem := rfl

/-! ### The operations of Recovery that leave the memory -/

@[simp] theorem State.finishRecovery_mem (s : State) (c : Nat) : (s.finishRecovery c).mem = s.mem := by
  unfold State.finishRecovery
  dsimp only
  split
  · rfl
  · split
    · rfl
    · split
      · split <;> simp
      · simp

@[simp] theorem State.commitCluster_mem (s : State) (id c : Nat) : (s.commitCluster id c).mem = s.mem := by
  unfold State.commitCluster
  grind [State.setF_mem, State.modCluster_mem, State.modTally_mem, State.finishRecovery_mem]

@[simp] theorem State.stopForReplay_mem (s : State) (site : Nat) : (s.stopForReplay site).mem = s.mem := by
  unfold State.stopForReplay
  grind [State.modCore_mem, State.yieldSlice_mem]

@[simp] theorem State.restoreTokens_mem (s : State) (site : Nat) : (s.restoreTokens site).mem = s.mem := by
  unfold State.restoreTokens
  grind [each_mem, State.modCore_mem, State.modCluster_mem]

@[simp] theorem State.clearRoutes_mem (s : State) (g : List Nat) : (s.clearRoutes g).mem = s.mem := rfl

@[simp] theorem State.reloadGroup_mem (s : State) (g : List Nat) : (s.reloadGroup g).mem = s.mem := by
  unfold State.reloadGroup
  grind [each_mem, State.loadCore_mem, State.restoreTokens_mem]

@[simp] theorem State.replay_mem (s : State) (j : Job) (g : List Nat)
    (w : Recovery) : (s.replay j g w).mem = s.mem := by
  unfold State.replay
  grind [each_mem, State.setF_mem, State.addF_mem, State.modCore_mem, State.modCluster_mem, State.setRun_mem,
    State.setWaiting_mem, State.placeKernel_mem, State.loadCore_mem, State.stopForReplay_mem,
    State.restoreTokens_mem, State.clearRoutes_mem, State.reloadGroup_mem]

@[simp] theorem State.dropWant_mem (s : State) (g : List Nat) : (s.dropWant g).mem = s.mem := by
  unfold State.dropWant
  grind [each_mem, State.setF_mem, State.modCluster_mem]

@[simp] theorem State.writeShare_mem (s : State) (c n share : Nat) : (s.writeShare c n share).mem = s.mem := rfl

@[simp] theorem State.rescale_mem (s : State) (moved : List (Nat × Nat)) : (s.rescale moved).1.mem = s.mem := by
  unfold State.rescale
  grind [each_mem, State.writeShare_mem]

@[simp] theorem State.retarget_mem (s : State) (old new : Job) : (s.retarget old new).1.mem = s.mem := by
  refine foldl_frame (fun t : State × List (Nat × Nat) => t.1.mem) (fun t r => ?_) _ (s, [])
  grind [State.writeRoute_mem, State.writeShare_mem]

@[simp] theorem State.setRole_mem (s : State) (c r : Nat) : (s.setRole c r).mem = s.mem := rfl

@[simp] theorem State.moveBindings_mem (s : State) (id : Nat) (new : Job) (i c d : Nat) :
    (s.moveBindings id new i c d).mem = s.mem := by
  unfold State.moveBindings
  grind [each_mem, State.setF_mem, State.modMesh_mem, State.bindCl_mem, State.writeCl_mem, State.writeFences_mem]

/-! ### The operations of Clocks that leave the memory -/

@[simp] theorem State.setVolt_mem (s : State) (r op : Nat) : (s.setVolt r op).mem = s.mem := rfl

@[simp] theorem State.showBank_mem (s : State) (r : Nat) : (s.showBank r).mem = s.mem := rfl

@[simp] theorem State.clearPage_mem (s : State) (page inst : Nat) : (s.clearPage page inst).mem = s.mem := rfl

@[simp] theorem State.lockRegion_mem (s : State) (r : Nat) : (s.lockRegion r).mem = s.mem := by
  unfold State.lockRegion; split <;> rfl

@[simp] theorem State.startRamp_mem (s : State) (r : Nat) : (s.startRamp r).mem = s.mem := by
  unfold State.startRamp
  grind [State.setF_mem, State.modRegion_mem, State.modCtl_mem, State.showBank_mem]

@[simp] theorem State.regionReady_mem (s : State) (r : Nat) : (s.regionReady r).mem = s.mem := by
  unfold State.regionReady
  grind [each_mem, State.setF_mem, State.modCore_mem, State.modRegion_mem, State.setVolt_mem]

@[simp] theorem State.unpace_mem (s : State) (r : Nat) : (s.unpace r).mem = s.mem := by
  unfold State.unpace
  grind [each_mem, State.setF_mem, State.modRegion_mem]

@[simp] theorem State.regionOff_mem (s : State) (r st : Nat) : (s.regionOff r st).mem = s.mem := by
  unfold State.regionOff
  grind [each_mem, State.setF_mem, State.modCore_mem, State.modRegion_mem, State.clearPage_mem, State.unpace_mem]

@[simp] theorem State.stepTime_mem (s : State) (ns : Nat) : (s.stepTime ns).mem = s.mem := rfl

@[simp] theorem State.timeWrite_mem (s : State) (ns : Nat) : (s.timeWrite ns).mem = s.mem := by
  unfold State.timeWrite
  grind [State.setF_mem, State.stepTime_mem]

@[simp] theorem State.armRate_mem (s : State) : s.armRate.mem = s.mem := rfl

@[simp] theorem State.setBound_mem (s : State) (bound : Nat) : (s.setBound bound).mem = s.mem := rfl

@[simp] theorem State.steer_mem (s : State) (gm : Nat) : (s.steer gm).mem = s.mem := by
  unfold State.steer; split <;> rfl

@[simp] theorem State.frontArm_mem (s : State) (target : Nat) : (s.frontArm target).mem = s.mem := by
  unfold State.frontArm; split <;> rfl

@[simp] theorem State.frontCancel_mem (s : State) : s.frontCancel.mem = s.mem := by
  unfold State.frontCancel
  grind [each_mem, State.setF_mem]

@[simp] theorem State.frontWrite_mem (s : State) (v : Nat) : (s.frontWrite v).mem = s.mem := by
  unfold State.frontWrite
  grind [State.setF_mem, State.frontArm_mem, State.frontCancel_mem]

@[simp] theorem State.frontCheck_mem (s : State) : s.frontCheck.mem = s.mem := by
  unfold State.frontCheck; split <;> rfl

/-! ### The operations of Power that leave the memory -/

@[simp] theorem State.stepPace_mem (s : State) (f : Fld) (r : Nat) (up : Bool) : (s.stepPace f r up).mem = s.mem :=
  rfl

@[simp] theorem State.defer_mem (s : State) (r : Nat) : (s.defer r).mem = s.mem := rfl

@[simp] theorem State.switchOn_mem (s : State) (r : Nat) : (s.switchOn r).mem = s.mem := by
  unfold State.switchOn
  grind [State.setF_mem, State.modRegion_mem, State.startRamp_mem, State.defer_mem]

@[simp] theorem State.releaseAdmit_mem (s : State) (r : Nat) : (s.releaseAdmit r).mem = s.mem := by
  unfold State.releaseAdmit
  grind [State.unpace_mem]

@[simp] theorem State.heatOff_mem (s : State) (r : Nat) : (s.heatOff r).mem = s.mem := by
  unfold State.heatOff
  grind [State.modRegion_mem, State.regionOff_mem]

@[simp] theorem State.sampleDomain_mem (s : State) (i amps mv : Nat) : (s.sampleDomain i amps mv).mem = s.mem := by
  unfold State.sampleDomain
  grind [each_mem, State.setF_mem, State.addF_mem, State.modTally_mem]

/-! ### The operations of Verify that leave the memory -/

@[simp] theorem State.check_mem (s : State) (cc type : Nat) (b : List Byte) : (s.check cc type b).1.mem = s.mem := by
  unfold State.check
  grind [State.addF_mem]

@[simp] theorem State.extend_mem (s : State) (cc i : Nat) (d : List Byte) : (s.extend cc i d).mem = s.mem := rfl

@[simp] theorem State.setLease_mem (s : State) (p cc : Nat) : (s.setLease p cc).mem = s.mem := rfl

@[simp] theorem State.grant_mem (s : State) (cc : Nat) : (s.grant cc).mem = s.mem := by
  unfold State.grant
  grind [each_mem, State.setLease_mem]

@[simp] theorem State.leaseConflict_mem (s : State) : s.leaseConflict.mem = s.mem := by
  unfold State.leaseConflict
  grind [State.modCtl_mem, State.reportUnit_mem, State.grant_mem]

@[simp] theorem State.showActive_mem (s : State) : s.showActive.mem = s.mem := by
  unfold State.showActive
  grind [State.setF_mem]

@[simp] theorem State.claim_mem (s : State) (cc : Nat) : (s.claim cc).mem = s.mem := by
  unfold State.claim
  grind [State.grant_mem, State.leaseConflict_mem, State.showActive_mem]

@[simp] theorem State.unclaim_mem (s : State) (cc : Nat) : (s.unclaim cc).mem = s.mem := rfl

@[simp] theorem State.setFlash_mem (s : State) (cc : Nat) (f : Flash) : (s.setFlash cc f).mem = s.mem := by
  unfold State.setFlash; split <;> rfl

@[simp] theorem State.fromFlash_mem (s : State) (cc type : Nat) (f : FlashBank → List Byte) :
    (s.fromFlash cc type f).1.mem = s.mem := by
  unfold State.fromFlash
  grind [State.check_mem]

/-! ### The operations of Boot that leave the memory -/

@[simp] theorem State.takeCerts_mem (s : State) (cc type : Nat) (l : FlashBank → List (List Byte))
    (f : List Byte → Key) :
    (s.takeCerts cc type l f).mem = s.mem := by
  unfold State.takeCerts
  grind [each_mem, State.modCc_mem, State.fromFlash_mem]

@[simp] theorem State.loadKeys_mem (s : State) (cc : Nat) : (s.loadKeys cc).mem = s.mem := by
  unfold State.loadKeys
  grind [State.modCc_mem, State.takeCerts_mem]

@[simp] theorem State.bootFail_mem (s : State) (obj code : Nat) : (s.bootFail obj code).mem = s.mem := rfl

@[simp] theorem State.sealWith_mem (s : State) (rec_ : List Byte) : (s.sealWith rec_).mem = s.mem := by
  unfold State.sealWith
  simp only [State.event_mem, State.setF_mem, State.modSec_mem]

@[simp] theorem State.startStage1_mem (s : State) (cc : Nat) (extra : List (List Byte)) (img : List Byte) :
    (s.startStage1 cc extra img).mem = s.mem := by
  unfold State.startStage1
  grind [each_mem, State.setF_mem, State.modCc_mem, State.modSec_mem, State.extend_mem, State.fromFlash_mem,
    State.bootFail_mem]

@[simp] theorem State.romBoot_mem (s : State) (cc : Nat) : (s.romBoot cc).mem = s.mem := by
  unfold State.romBoot
  grind [each_mem, State.setF_mem, State.modCc_mem, State.modSec_mem, State.extend_mem, State.claim_mem,
    State.fromFlash_mem, State.loadKeys_mem, State.bootFail_mem, State.sealWith_mem, State.startStage1_mem]

@[simp] theorem State.bootRegion_mem (s : State) (r : Nat) : (s.bootRegion r).mem = s.mem := by
  unfold State.bootRegion
  grind [State.setF_mem, State.modRegion_mem, State.startRamp_mem, State.regionReady_mem, State.defer_mem]

@[simp] theorem State.loadCaps_mem (s : State) : s.loadCaps.mem = s.mem := by
  unfold State.loadCaps
  grind [each_mem, State.setF_mem]

@[simp] theorem State.loadStaged_mem (s : State) : s.loadStaged.mem = s.mem := by
  unfold State.loadStaged
  grind [each_mem, State.modSec_mem, State.check_mem, State.extend_mem, State.bootFail_mem]

@[simp] theorem State.applyEntry_mem (s : State) (e : Nat × Nat × Nat × Nat) : (s.applyEntry e).mem = s.mem := by
  unfold State.applyEntry
  grind [State.addF_mem, State.modRegion_mem, State.modModule_mem, State.modDeck_mem, State.redirect_mem,
    State.showBank_mem]

@[simp] theorem State.loadBlaze_mem (s : State) : s.loadBlaze.1.mem = s.mem := by
  unfold State.loadBlaze
  grind [each_mem, State.setF_mem, State.modSec_mem, State.extend_mem, State.fromFlash_mem, State.bootFail_mem,
    State.applyEntry_mem]

@[simp] theorem State.reviseBlaze_mem (s : State) : s.reviseBlaze.mem = s.mem := rfl

@[simp] theorem State.setRoles_mem (s : State) (ok : Nat → Bool) : (s.setRoles ok).mem = s.mem := rfl

@[simp] theorem State.showLicences_mem (s : State) : s.showLicences.mem = s.mem := by
  unfold State.showLicences
  grind [State.setF_mem]

@[simp] theorem State.secResult_mem (s : State) (c : Nat) : (s.secResult c).mem = s.mem := rfl

@[simp] theorem State.installLicence_mem (s : State) : s.installLicence.mem = s.mem := by
  unfold State.installLicence
  grind [State.modSec_mem, State.check_mem, State.extend_mem, State.showLicences_mem, State.secResult_mem]

@[simp] theorem State.extendMeas_mem (s : State) : s.extendMeas.mem = s.mem := by
  unfold State.extendMeas
  grind [State.extend_mem, State.secResult_mem]

@[simp] theorem State.raiseFloor_mem (s : State) : s.raiseFloor.mem = s.mem := by
  unfold State.raiseFloor
  grind [State.modSec_mem, State.secResult_mem]

/-! ### The operations of Control that leave the memory -/

@[simp] theorem State.undoAdmission_mem (s : State) (id : Nat) : (s.undoAdmission id).mem = s.mem := by
  unfold State.undoAdmission
  grind [each_mem, State.setJob_mem, State.modCtl_mem, State.closeWindow_mem, State.freeJob_mem]

@[simp] theorem State.redoRelease_mem (s : State) (id : Nat) : (s.redoRelease id).mem = s.mem := by
  unfold State.redoRelease
  grind [each_mem, State.setJob_mem, State.closeWindow_mem, State.freeJob_mem]

@[simp] theorem State.redoReplay_mem (s : State) (c : Nat) : (s.redoReplay c).mem = s.mem := by
  unfold State.redoReplay
  grind [State.wantReplay_mem]

@[simp] theorem State.sealWrite_mem (s : State) : s.sealWrite.mem = s.mem := by
  unfold State.sealWrite; split <;> rfl

@[simp] theorem State.measureExpert_mem (s : State) : s.measureExpert.mem = s.mem := rfl

@[simp] theorem State.expertWrite_mem (s : State) (v : Nat) : (s.expertWrite v).mem = s.mem := by
  unfold State.expertWrite
  grind [State.setF_mem, State.event_mem, State.reportUnit_mem, State.measureExpert_mem]

@[simp] theorem State.writeField_mem (s : State) (f : Fld) (inst off size v : Nat) :
    (s.writeField f inst off size v).mem = s.mem := by
  unfold State.writeField
  grind [State.setF_mem, State.clearF_mem, State.writeCl_mem]

@[simp] theorem State.onReq_mem (s : State) (r v : Nat) : (s.onReq r v).mem = s.mem := by
  unfold State.onReq
  grind [State.setF_mem, State.regionOff_mem, State.switchOn_mem]

@[simp] theorem State.windowField_mem (s : State) (off size v : Nat) : (s.windowField off size v).mem = s.mem := by
  unfold State.windowField
  grind [State.modWindow_mem]

@[simp] theorem State.groupField_mem (s : State) (v : Nat) : (s.groupField v).mem = s.mem := rfl

/-! ### The operations of Service that leave the memory -/

@[simp] theorem State.serve_mem (s : State) (part state index : Nat) : (s.serve part state index).mem = s.mem := rfl

@[simp] theorem State.serveEnd_mem (s : State) : s.serveEnd.mem = s.mem := rfl

@[simp] theorem State.reload_mem (s : State) (cc bank : Nat) (stage1 os : List Byte) :
    (s.reload cc bank stage1 os).mem = s.mem := by
  unfold State.reload
  grind [State.setFlash_mem, State.romBoot_mem]

/-! ### The operations of ModuleIf that leave the memory -/

@[simp] theorem State.smbus_mem (s : State) (out : List Byte) : (s.smbus out).mem = s.mem := rfl

@[simp] theorem State.tick_mem (s : State) : s.tick.mem = s.mem := by
  unfold State.tick
  grind [each_mem, State.gateProgress_mem, State.finishRecovery_mem, State.frontCheck_mem]

/-! ### The operations of Sparse that leave the memory -/

@[simp] theorem State.setSpe_mem (s : State) (site : Nat) (c : SpeCmd) : (s.setSpe site c).mem = s.mem := rfl

@[simp] theorem State.speFail_mem (s : State) (site status : Nat) (c : SpeCmd) :
    (s.speFail site status c).mem = s.mem := rfl

@[simp] theorem State.speRefuse_mem (s : State) (site : Nat) (c : SpeCmd) (wr isLocal : Bool) :
    (s.speRefuse site c wr isLocal).mem = s.mem := by
  unfold State.speRefuse
  grind [State.refuse_mem, State.speFail_mem]

@[simp] theorem State.speDone_mem (s : State) (site : Nat) (c : SpeCmd) (status r0 r1 : Nat) :
    (s.speDone site c status r0 r1).mem = s.mem := rfl

@[simp] theorem State.speCount_mem (s : State) (site : Nat) (c : SpeCmd) (f : Fld) (e : CEnt) (n : Nat) :
    (s.speCount site c f e n).mem = s.mem := by
  unfold State.speCount; split <;> rfl

@[simp] theorem State.speNan_mem (s : State) (site : Nat) (c : SpeCmd)
    (n : Nat) : (s.speNan site c n).mem = s.mem := by
  unfold State.speNan; split <;> rfl

@[simp] theorem State.unpackAct_mem (s : State) (site : Nat) (c : SpeCmd) (h : THdr) (bs : List Byte)
    (kept : List (Nat × Nat)) (status : Nat) :
    (s.unpackAct site c h bs kept status).mem = s.mem := by
  unfold State.unpackAct
  grind [each_mem, State.modCore_mem, State.speRefuse_mem, State.speDone_mem]

@[simp] theorem State.unpackWgt_mem (s : State) (site : Nat) (c : SpeCmd) (h : THdr) (bs : List Byte)
    (kept : List (Nat × Nat)) (status : Nat) :
    (s.unpackWgt site c h bs kept status).mem = s.mem := by
  exact State.mem_ite ((State.speRefuse_mem _ _ _ _ _).trans (State.speNan_mem _ _ _ _))
    ((State.speDone_mem _ _ _ _ _ _).trans ((State.modCore_mem _ _ _).trans (State.speNan_mem _ _ _ _)))
theorem State.rowRefused_mem (s t : State) (owner : Option Nat) (src dst n : Nat)
    (h : s.rowRefused owner src dst n = some t) :
    t.mem = s.mem := by
  unfold State.rowRefused at h
  grind [State.refuse_mem]

theorem State.admitPkt_inl {s t : State} {lc n : Nat} {p : Packet} (h : s.admitPkt lc n p = .inl t) :
    t.mem = s.mem := by
  unfold State.admitPkt at h
  dsimp only at h
  split_ifs at h <;> cases h <;> simp

theorem State.admitPkt_inr {s t : State} {lc n : Nat} {p : Packet} (h : s.admitPkt lc n p = .inr t) :
    t.mem = s.mem := by
  unfold State.admitPkt at h
  dsimp only at h
  split_ifs at h
  cases h
  simp

/-- A write of the active controller is canonical where what it does is. -/
theorem State.asActive_canonical (s : State) (f : State → State) (h : s.canonical) (hf : (f s).canonical) :
    (s.asActive f).canonical := by
  unfold State.asActive
  grind [State.canonical, State.refuseWrite_mem]

/-- An effect of a value that may be there is canonical where the effect of every value is. -/
theorem State.when_canonical {s : State} (o : Option Nat) {f : State → Nat → State} (h : s.canonical)
    (hf : s.canonical → ∀ v, (f s v).canonical) : (s.when_ o f).canonical := by
  unfold State.when_
  split
  · exact hf h _
  · exact h

theorem State.canonical_ite {c : Prop} [Decidable c] {t u : State} (ht : t.canonical) (hu : u.canonical) :
    (if c then t else u).canonical := by
  split
  · exact ht
  · exact hu

/-! ### What it is for an answer to be canonical -/

/-- The next state of an answer, where it has one, has canonical memory. -/
def ansCanonical : Ans → Prop
  | .next t => t.canonical
  | _ => True

@[simp] theorem ansCanonical_next (s : State) : ansCanonical (.next s) ↔ s.canonical := Iff.rfl

@[simp] theorem ansCanonical_fault (r : Fault) : ansCanonical (.fault r) := trivial

@[simp] theorem ansCanonical_refused (r : Refusal) : ansCanonical (.refused r) := trivial

/-- What has been reached has canonical memory. -/
def Reach.canonical : Reach → Prop
  | .acted t => t.canonical
  | .holds t => t.canonical
  | .beside => True

/-- An access of the engine leaves canonical memory. -/
def SpeIo.canonical : SpeIo → Prop
  | .got t _ => t.canonical
  | .poisoned t => t.canonical
  | .bad => True


/-! ### ErrorOps -/

theorem State.ringWrite_canonical (s : State) (e : ErrRec) (h : s.canonical) : (s.ringWrite e).canonical := by
  unfold State.ringWrite
  grind [State.canonical, State.memWrite_canonical]

theorem State.noteRecords_canonical (s : State) (p : ErrRec → Bool) (f : ErrRec → ErrRec) (h : s.canonical) :
    (s.noteRecords p f).canonical := by
  unfold State.noteRecords
  grind [State.canonical, State.modErrs_mem, each_canonical, each_mem, State.ringWrite_canonical]

theorem State.flagRecords_canonical (s : State) (p : Report → Bool) (bits : Nat) (h : s.canonical) :
    (s.flagRecords p bits).canonical := by
  unfold State.flagRecords
  grind [State.canonical, State.modErrs_mem, State.noteRecords_canonical]

/-! ### ClusterOps -/

theorem State.complete_canonical (s : State) (site : Nat) (r : LaunchRec) (state code kind : Nat) (h : s.canonical) :
    (s.complete site r state code kind).canonical := by
  unfold State.complete
  grind [State.canonical, State.memWrite_canonical, State.atomicAdd_canonical]

theorem State.stopCore_canonical (s : State) (site : Nat) (h : s.canonical) : (s.stopCore site).canonical := by
  unfold State.stopCore
  grind [State.canonical, State.modCore_mem, State.setRun_mem, State.popLaunch_mem, State.complete_canonical]

theorem State.groupStop_canonical (s : State) (c : Nat) (h : s.canonical) : (s.groupStop c).canonical := by
  unfold State.groupStop
  grind [State.canonical, State.setF_mem, State.modCluster_mem, each_canonical, each_mem, State.stopCore_canonical]

theorem State.seqFault_canonical (s : State) (site pc opc : Nat) (h : s.canonical) :
    (s.seqFault site pc opc).canonical := by
  unfold State.seqFault
  grind [State.canonical, State.modCore_mem, State.groupStop_canonical, State.faultAt_mem, State.faultReport_mem]

theorem State.deliver_canonical (s : State) (src site tok n : Nat) (h : s.canonical) :
    (s.deliver src site tok n).canonical := by
  unfold State.deliver
  grind [State.canonical, State.modCore_mem, State.modCluster_mem, State.seqFault_canonical]

/-! ### FabricOps -/

theorem State.applyNotice_canonical (s : State) (window : Nat) (h : s.canonical) :
    (s.applyNotice window).canonical := by
  unfold State.applyNotice
  grind [State.canonical, State.deliver_canonical]

/-! ### Levels -/

theorem State.writeMasked_canonical (s : State) (port a mask : Nat) (data : List Byte) (h : s.canonical) :
    (s.writeMasked port a mask data).canonical := by
  unfold State.writeMasked
  grind [State.canonical, each_canonical, each_mem, State.memWrite_canonical]

theorem execDeckLineOperation_canonical (cl : Option (Fin 24)) (t : Nat) (slice : Fin 24) (port : Fin 8)
    (line : Fin 1310720) (wr : Bool) (mask : BitVec 512) (data : List Byte) (err : MemErr) (s : State)
    (h : s.canonical) :
    ansCanonical (execDeckLineOperation cl t slice port line wr mask data err s) := by
  unfold execDeckLineOperation
  grind [State.canonical, ansCanonical, State.modDeck_mem, State.flushLine_mem, State.meetPoison_mem,
    State.refuse_mem, State.partitionReset_mem, State.deckEcc_mem, State.writeMasked_canonical]

theorem execGatherBufferTimeout_canonical (slice : Fin 24) (port : Fin 8) (line : Fin 1310720) (s : State)
    (h : s.canonical) :
    ansCanonical (execGatherBufferTimeout slice port line s) := by
  unfold execGatherBufferTimeout
  grind [State.canonical, ansCanonical, State.writeEntry_mem]

theorem execGatherBufferDrain_canonical (slice : Fin 24) (s : State) (h : s.canonical) :
    ansCanonical (execGatherBufferDrain slice s) := by
  unfold execGatherBufferDrain
  grind [State.canonical, ansCanonical, each_canonical, each_mem, State.writeEntry_mem]

theorem execAtomicAdd_canonical (addr : Nat) (v : BitVec 64) (s : State) (h : s.canonical) :
    ansCanonical (execAtomicAdd addr v s) := by
  unfold execAtomicAdd
  grind [State.canonical, ansCanonical, State.atomicAdd_canonical, State.refuseUnmapped_mem]

theorem execDeckScrub_canonical (slice : Fin 24) (err : MemErr) (s : State) (h : s.canonical) :
    ansCanonical (execDeckScrub slice err s) := by
  unfold execDeckScrub
  grind [State.canonical, ansCanonical, State.addF_mem, State.modDeck_mem, State.flushLine_mem,
    State.countPoison_mem, State.deckEcc_mem]

theorem execHbmAccess_canonical (addr : Nat) (wr : Bool) (data : List Byte) (len : Nat) (err : MemErr) (s : State)
    (h : s.canonical) :
    ansCanonical (execHbmAccess addr wr data len err s) := by
  unfold execHbmAccess
  grind [State.canonical, ansCanonical, State.modHbm_mem, State.memWrite_canonical, State.refuseUnmapped_mem,
    State.hbmEcc_mem]

theorem execHbmPatrolScrub_canonical (stack : Fin 16) (err : MemErr) (s : State) (h : s.canonical) :
    ansCanonical (execHbmPatrolScrub stack err s) := by
  unfold execHbmPatrolScrub
  grind [State.canonical, ansCanonical, State.modHbm_mem, State.hbmEcc_mem]

theorem execHbmRetrainStart_canonical (stack : Fin 16) (auto : Option (Fin 32)) (s : State) (h : s.canonical) :
    ansCanonical (execHbmRetrainStart stack auto s) := by
  unfold execHbmRetrainStart
  grind [State.canonical, ansCanonical, State.setF_mem, State.modHbm_mem]

theorem execHbmRetrainStepEnd_canonical (stack : Fin 16) (last : Bool) (s : State) (h : s.canonical) :
    ansCanonical (execHbmRetrainStepEnd stack last s) := by
  unfold execHbmRetrainStepEnd
  grind [State.canonical, ansCanonical, State.setF_mem, State.addF_mem, State.modHbm_mem]

theorem execHdmDecoderProgram_canonical (caps : List Nat) (s : State) (h : s.canonical) :
    ansCanonical (execHdmDecoderProgram caps s) := by
  unfold execHdmDecoderProgram
  grind [State.canonical, ansCanonical, each_canonical, each_mem, State.setPort_mem]

theorem execCxlLinkDown_canonical (port : Fin 4) (s : State) (h : s.canonical) :
    ansCanonical (execCxlLinkDown port s) := by
  unfold execCxlLinkDown
  grind [State.canonical, ansCanonical, State.reportUnit_mem, State.setPort_mem]

theorem execCxlLinkUp_canonical (port : Fin 4) (width : Fin 6) (rate : Fin 7) (cxl : Bool) (s : State)
    (h : s.canonical) :
    ansCanonical (execCxlLinkUp port width rate cxl s) := by
  unfold execCxlLinkUp
  grind [State.canonical, ansCanonical, State.setPort_mem]

theorem execCxlInboundRequest_canonical (port : Fin 4) (addr : Nat) (wr : Bool) (data : List Byte) (len : Nat)
    (s : State) (h : s.canonical) :
    ansCanonical (execCxlInboundRequest port addr wr data len s) := by
  unfold execCxlInboundRequest
  grind [State.canonical, ansCanonical, State.addF_mem, State.memWrite_canonical]

/-! ### Movers -/

theorem execMoverCommandStart_canonical (m : Fin 6) (l : Fin 16) (s : State) (h : s.canonical) :
    ansCanonical (execMoverCommandStart m l s) := by
  unfold execMoverCommandStart
  grind [State.canonical, ansCanonical, State.modMover_mem, State.flushRange_mem]

theorem State.moveRows_canonical (s : State) (owner : Option Nat) (port : Nat) (b : MovBlock) (r rows : Nat)
    (h : s.canonical) :
    (s.moveRows owner port b r rows).1.canonical := by
  induction rows generalizing s r with
  | zero => exact h
  | succ k ih =>
    simp only [State.moveRows]
    split
    case h_1 t ht => exact State.canonical_of_mem (State.rowRefused_mem s t _ _ _ _ ht) h
    case h_2 => exact ih _ _ (State.copyRow_canonical _ _ _ _ _ h)

theorem execMoverCopy_canonical (m : Fin 6) (l : Fin 16) (s : State) (h : s.canonical) :
    ansCanonical (execMoverCopy m l s) := by
  unfold execMoverCopy
  grind [State.canonical, ansCanonical, State.modMover_mem, State.reportUnit_mem, State.moveRows_canonical]

theorem execMoverCopyComplete_canonical (m : Fin 6) (l : Fin 16) (s : State) (h : s.canonical) :
    ansCanonical (execMoverCopyComplete m l s) := by
  unfold execMoverCopyComplete
  grind [State.canonical, ansCanonical, State.modMover_mem, State.memWrite_canonical, State.atomicAdd_canonical]

theorem execCtlMoverGo_canonical (m : Fin 8) (s : State) (h : s.canonical) : ansCanonical (execCtlMoverGo m s) := by
  exact State.asActive_canonical s _ h (by exact State.canonical_of_mem (State.ctlMoverGo_mem _ _) h)

/-! ### Placement -/

theorem execAdmission_canonical (p : Program) (s : State) (h : s.canonical) : ansCanonical (execAdmission p s) := by
  unfold execAdmission
  grind [State.canonical, ansCanonical, State.applyWindow_mem, State.bindJob_mem, State.admRecord_mem]

theorem execJobPartitionRelease_canonical (job : Fin 256) (s : State) (h : s.canonical) :
    ansCanonical (execJobPartitionRelease job s) := by
  unfold execJobPartitionRelease
  grind [State.canonical, ansCanonical, State.setJob_mem, each_canonical, each_mem, State.closeWindow_mem,
    State.freeJob_mem]

/-! ### Fabric -/

theorem execPortTraining_canonical (p : Fin 40) (lanes : BitVec 9) (farSwitch : Bool) (farId : Fin 4096)
    (s : State) (h : s.canonical) :
    ansCanonical (execPortTraining p lanes farSwitch farId s) := by
  unfold execPortTraining
  grind [State.canonical, ansCanonical, State.setF_mem, State.modPort_mem, State.drainPort_mem, State.setTrain_mem]

theorem execLptRetrain_canonical (p : Fin 40) (lanes : BitVec 9) (s : State) (h : s.canonical) :
    ansCanonical (execLptRetrain p lanes s) := by
  unfold execLptRetrain
  grind [State.canonical, ansCanonical, State.setF_mem, State.modPort_mem, State.retrain_mem]

theorem execLaneFailure_canonical (p : Fin 40) (lane : Fin 9) (lanes : BitVec 9) (s : State) (errs : Option Nat)
    (h : s.canonical) :
    ansCanonical (execLaneFailure p lane lanes s errs) := by
  unfold execLaneFailure
  grind [State.canonical, ansCanonical, State.setF_mem, State.addF_mem, State.modPort_mem, State.reportUnit_mem,
    State.blazeField_mem, State.retrain_mem]

theorem execPortDown_canonical (p : Fin 40) (s : State) (h : s.canonical) : ansCanonical (execPortDown p s) := by
  unfold execPortDown
  grind [State.canonical, ansCanonical, State.setF_mem, State.reportUnit_mem, State.dropPort_mem]

theorem execFlitReceive_canonical (p : Fin 40) (flit : List Byte) (corr unc : Nat) (s : State) (h : s.canonical) :
    ansCanonical (execFlitReceive p flit corr unc s) := by
  unfold execFlitReceive
  grind [State.canonical, ansCanonical, State.addF_mem, State.modPort_mem, each_canonical, each_mem,
    State.drainPort_mem, State.receive_mem]

theorem execLinkReplay_canonical (p : Fin 40) (s : State) (h : s.canonical) : ansCanonical (execLinkReplay p s) := by
  unfold execLinkReplay
  grind [State.canonical, ansCanonical, State.addF_mem, State.modPort_mem, State.tallyDev_mem]

theorem execAckTimeout_canonical (p : Fin 40) (s : State) (h : s.canonical) : ansCanonical (execAckTimeout p s) := by
  unfold execAckTimeout
  grind [State.canonical, ansCanonical, State.modPort_mem]

theorem execDataPacketArrival_canonical (lc : Fin 10) (n : Nat) (s : State) (h : s.canonical) :
    ansCanonical (execDataPacketArrival lc n s) := by
  unfold execDataPacketArrival
  split
  · exact h
  · split
    · exact h
    · split
      case h_1 t ht => exact State.canonical_of_mem (State.admitPkt_inl ht) h
      case h_2 t ht =>
        have hc := State.canonical_of_mem (State.admitPkt_inr ht) h
        split
        · exact hc
        · dsimp only
          split
          · exact State.canonical_of_mem ((State.peakF_mem _ _ _ _).trans (State.modChip_mem _ _ _)) hc
          · exact State.canonical_of_mem ((State.answer_mem _ _ _ _).trans (State.countRefusal_mem _ _)) hc

theorem execLandingWriteAccepted_canonical (lc : Fin 10) (n : Nat) (s : State) (h : s.canonical) :
    ansCanonical (execLandingWriteAccepted lc n s) := by
  unfold execLandingWriteAccepted
  grind [State.canonical, ansCanonical, State.modChip_mem, State.memWrite_canonical, State.answer_mem]

theorem execAnswerArrival_canonical (lc : Fin 10) (n : Nat) (s : State) (h : s.canonical) :
    ansCanonical (execAnswerArrival lc n s) := by
  unfold execAnswerArrival
  split
  · exact h
  · split
    · exact h
    · split
      case h_1 t ht => exact State.canonical_of_mem (State.admitPkt_inl ht) h
      case h_2 t ht =>
        have hc := State.canonical_of_mem (State.admitPkt_inr ht) h
        dsimp only
        split
        · exact hc
        · split
          · exact hc
          · split
            · exact State.canonical_of_mem (State.finalAnswer_mem _ _ _ _) hc
            · exact State.canonical_of_mem (State.modChip_mem _ _ _) hc

theorem execNoBufferRetry_canonical (lc : Fin 10) (slot : Fin 4096) (s : State) (h : s.canonical) :
    ansCanonical (execNoBufferRetry lc slot s) := by
  unfold execNoBufferRetry
  split
  · exact h
  · split
    · exact h
    · dsimp only
      split_ifs
      · exact h
      · exact State.canonical_of_mem (State.finalAnswer_mem _ _ _ _) h
      · exact State.canonical_of_mem
          ((State.transmit_mem _ _ _ _).trans ((State.addF_mem _ _ _ _).trans (State.modChip_mem _ _ _))) h
      · exact State.canonical_of_mem ((State.resend_mem _ _).trans (State.modChip_mem _ _ _)) h
      · exact State.canonical_of_mem
          ((State.resend_mem _ _).trans ((State.addF_mem _ _ _ _).trans (State.modChip_mem _ _ _))) h

theorem execPacketTimeout_canonical (lc : Fin 10) (slot : Fin 4096) (s : State) (h : s.canonical) :
    ansCanonical (execPacketTimeout lc slot s) := by
  unfold execPacketTimeout
  grind [State.canonical, ansCanonical, State.modPartner_mem, State.report_mem, State.finalAnswer_mem]

theorem execLifetimeDiscard_canonical (lc : Fin 10) (n : Nat) (s : State) (h : s.canonical) :
    ansCanonical (execLifetimeDiscard lc n s) := by
  unfold execLifetimeDiscard
  dsimp only
  split
  · exact State.canonical_of_mem (State.mem_ite ((State.lifetimeDrop_mem _ _).trans (State.takeInbox_mem _ _ _)) rfl) h
  · split
    · exact h
    · exact State.canonical_of_mem ((State.lifetimeDrop_mem _ _).trans (State.modPort_mem _ _ _)) h

theorem State.applyHeld_canonical (s : State) (d fuel : Nat) (h : s.canonical) : (s.applyHeld d fuel).canonical := by
  induction fuel generalizing s with
  | zero => exact h
  | succ k ih =>
    unfold State.applyHeld
    grind [State.canonical, State.modPartner_mem, State.applyNotice_canonical]

theorem execNoticeArrival_canonical (lc : Fin 10) (n : Nat) (s : State) (h : s.canonical) :
    ansCanonical (execNoticeArrival lc n s) := by
  unfold execNoticeArrival
  split
  · exact h
  · split
    · exact h
    · split
      case h_1 t ht => exact State.canonical_of_mem (State.admitPkt_inl ht) h
      case h_2 t ht =>
        have hc := State.canonical_of_mem (State.admitPkt_inr ht) h
        have hheld (f : Partner → Partner) (d : Nat) : ((t.modPartner d f).applyHeld d 1024).canonical :=
          State.applyHeld_canonical _ _ _ (State.canonical_of_mem (State.modPartner_mem _ _ _) hc)
        dsimp only
        split_ifs
        · exact State.canonical_of_mem (State.noticeAcked_mem _ _ _) (hheld _ _)
        · exact State.canonical_of_mem (State.txPacket_mem _ _ _) (hheld _ _)
        · exact State.canonical_of_mem (State.noticeAcked_mem _ _ _) hc
        · exact State.canonical_of_mem (State.txPacket_mem _ _ _) hc

theorem execNoticeRetransmit_canonical (dev : Fin 4096) (nseq : Fin 65536) (s : State) (h : s.canonical) :
    ansCanonical (execNoticeRetransmit dev nseq s) := by
  unfold execNoticeRetransmit
  grind [State.canonical, ansCanonical, State.modChip_mem, State.modPartner_mem, State.txPacket_mem]

theorem execNoticeAckArrival_canonical (dev : Fin 4096) (nseq : Fin 65536) (s : State) (h : s.canonical) :
    ansCanonical (execNoticeAckArrival dev nseq s) := by
  unfold execNoticeAckArrival
  grind [State.canonical, ansCanonical, State.noticeAcked_mem]

theorem execPartnerProbe_canonical (dev : Fin 4096) (s : State) (h : s.canonical) :
    ansCanonical (execPartnerProbe dev s) := by
  unfold execPartnerProbe
  grind [State.canonical, ansCanonical, State.modPartner_mem, State.txPacket_mem]

theorem execProbeAnswer_canonical (dev : Fin 4096) (s : State) (h : s.canonical) :
    ansCanonical (execProbeAnswer dev s) := by
  unfold execProbeAnswer
  grind [State.canonical, ansCanonical, State.modPartner_mem]

theorem execPortSetUpdate_canonical (reach : List (Nat × Nat)) (s : State) (h : s.canonical) :
    ansCanonical (execPortSetUpdate reach s) := by
  unfold execPortSetUpdate
  grind [State.canonical, ansCanonical, State.modFab_mem, State.updatePorts_mem]

theorem execPlaneJoin_canonical (q : JoinReq) (s : State) (h : s.canonical) : ansCanonical (execPlaneJoin q s) := by
  unfold execPlaneJoin
  grind [State.canonical, ansCanonical, State.modFab_mem, State.report_mem, State.queueJoin_mem]

theorem execPlaneLeave_canonical (dev : Fin 4096) (s : State) (h : s.canonical) :
    ansCanonical (execPlaneLeave dev s) := by
  unfold execPlaneLeave
  grind [State.canonical, ansCanonical, State.queueJoin_mem]

theorem execJobTagRequest_canonical (dev : Fin 4096) (hash : List Byte) (ident : Nat) (given : Fin 65536)
    (s : State) (h : s.canonical) :
    ansCanonical (execJobTagRequest dev hash ident given s) := by
  unfold execJobTagRequest
  grind [State.canonical, ansCanonical, State.giveTag_mem, State.useTag_mem, State.reportTag_mem]

theorem execJobTagRelease_canonical (dev : Fin 4096) (tag : Fin 65536) (s : State) (h : s.canonical) :
    ansCanonical (execJobTagRelease dev tag s) := by
  unfold execJobTagRelease
  grind [State.canonical, ansCanonical, State.modFab_mem]

theorem execWindowOpen_canonical (v : BitVec 32) (s : State) (h : s.canonical) :
    ansCanonical (execWindowOpen v s) := by
  exact State.asActive_canonical s _ h (by grind [State.canonical, State.windowCmd_mem])

theorem execWindowClose_canonical (v : BitVec 32) (s : State) (h : s.canonical) :
    ansCanonical (execWindowClose v s) := by
  exact State.asActive_canonical s _ h (by grind [State.canonical, State.windowCmd_mem])

theorem execWindowCloseComplete_canonical (s : State) (h : s.canonical) :
    ansCanonical (execWindowCloseComplete s) := by
  unfold execWindowCloseComplete
  grind [State.canonical, ansCanonical, State.setF_mem, State.modWindow_mem, State.modFab_mem]

theorem execWindowNotifyChange_canonical (v : BitVec 32) (s : State) (h : s.canonical) :
    ansCanonical (execWindowNotifyChange v s) := by
  exact State.asActive_canonical s _ h (by grind [State.canonical, State.notifyWrite_mem])

theorem execMulticastEntryWrite_canonical (v : BitVec 32) (s : State) (h : s.canonical) :
    ansCanonical (execMulticastEntryWrite v s) := by
  exact State.asActive_canonical s _ h (by grind [State.canonical, State.mcastEntry_mem])

/-! ### Moves -/

theorem State.afterDrain_canonical (s : State) (site : Nat) (h : s.canonical) : (s.afterDrain site).canonical := by
  unfold State.afterDrain
  grind [State.canonical, State.setCore_mem, State.setRun_mem, State.memWrite_canonical, State.complete_canonical,
    State.groupStop_canonical, State.countInstr_mem, State.sendTmark_mem]

theorem State.besideEngine_canonical (s : State) (site : Nat) (out : Bool) (la a n : Nat) (h : s.canonical) :
    (s.besideEngine site out la a n).canonical := by
  unfold State.besideEngine
  grind [State.canonical, State.modCore_mem, each_canonical, each_mem, State.memWrite_canonical]

theorem State.movdRow_canonical (s : State) (site pc : Nat) (out : Bool) (la : Nat) (dev : Int) (n : Nat)
    (h : s.canonical) :
    (s.movdRow site pc out la dev n).1.canonical := by
  unfold State.movdRow
  grind [State.canonical, State.modCore_mem, State.flushRange_mem, State.memWrite_canonical, State.meetPoison_mem,
    State.refuse_mem, State.besideEngine_canonical]

theorem State.movdRows_canonical (s : State) (site pc : Nat) (out : Bool) (la lp : Nat) (dev : Int)
    (dp n r rows : Nat) (h : s.canonical) :
    (s.movdRows site pc out la lp dev dp n r rows).1.canonical := by
  induction rows generalizing s r with
  | zero => exact h
  | succ k ih =>
    have hrow := State.movdRow_canonical s site pc out (la + r * lp) (dev + ((r * dp : Nat) : Int)) n h
    unfold State.movdRows
    grind

theorem State.reach_canonical (s : State) (site i : Nat) (f : Fly) (op : MoveOp) (h : s.canonical) :
    (s.reach site i f op).canonical := by
  unfold State.reach
  grind [State.canonical, Reach.canonical, State.modCore_mem, State.modMesh_mem, State.clusterReset_mem,
    State.startSend_mem, State.setLedger_mem, State.movdRows_canonical, State.routePut_mem, State.signal_mem,
    State.moveDone_mem, State.dropMoves_mem, State.checkFail_mem]

theorem State.pumpFrom_canonical (s : State) (site fuel i : Nat) (h : s.canonical) :
    (s.pumpFrom site fuel i).canonical := by
  induction fuel generalizing s i with
  | zero => exact h
  | succ k ih =>
    unfold State.pumpFrom
    grind [Reach.canonical, State.reach_canonical]

theorem State.pumpOne_canonical (s : State) (site : Nat) (h : s.canonical) : (s.pumpOne site).canonical := by
  unfold State.pumpOne
  grind [State.canonical, State.pumpFrom_canonical]

theorem State.pump_canonical (s : State) (site : Nat) (h : s.canonical) : (s.pump site).canonical := by
  unfold State.pump
  grind [State.canonical, each_canonical, each_mem, State.pumpOne_canonical]

theorem State.entryFree_canonical (s : State) (c : Nat) (full : Bool) (h : s.canonical) :
    (s.entryFree c full).canonical := by
  unfold State.entryFree
  grind [State.canonical, each_canonical, each_mem, State.pump_canonical]

/-! ### Launch -/

theorem State.writeCapsule_canonical (s : State) (cap : List Byte) (h : s.canonical) :
    (s.writeCapsule cap).canonical := by
  unfold State.writeCapsule
  grind [State.canonical, State.modCtl_mem, State.memWrite_canonical]

theorem execLaunch_canonical (a : LaunchArgs) (s : State) (h : s.canonical) : ansCanonical (execLaunch a s) := by
  unfold execLaunch
  grind [State.canonical, ansCanonical, State.setF_mem, State.setJob_mem, State.modTally_mem, State.modGate_mem,
    each_canonical, each_mem, State.tallyDev_mem, State.writeCapsule_canonical, State.launchCore_mem]

theorem execKernelStart_canonical (site : Fin 672) (s : State) (h : s.canonical) :
    ansCanonical (execKernelStart site s) := by
  unfold execKernelStart
  grind [State.canonical, ansCanonical, State.setF_mem, State.modCore_mem, State.setRun_mem, State.popLaunch_mem,
    State.reportSite_mem, State.latchCl_mem, State.complete_canonical, State.yieldSlice_mem, State.loadFresh_mem,
    State.launchCommit_mem]

theorem execClTsig_canonical (c : Fin 24) (v : BitVec 32) (s : State) (h : s.canonical) :
    ansCanonical (execClTsig c v s) := by
  exact State.asActive_canonical s _ h (by grind [State.canonical, State.clTsig_mem])

/-! ### TallyUnit -/

theorem State.tripAll_canonical (s : State) (h : s.canonical) : s.tripAll.canonical := by
  unfold State.tripAll
  grind [State.canonical, each_canonical, each_mem, State.tripFire_mem]

theorem State.contribute_canonical (s : State) (e : Tab Nat) (h : s.canonical) : (s.contribute e).canonical := by
  unfold State.contribute
  grind [State.canonical, State.modTally_mem, State.tripAll_canonical]

theorem execTallyContributionArrival_canonical (s : State) (h : s.canonical) :
    ansCanonical (execTallyContributionArrival s) := by
  unfold execTallyContributionArrival
  grind [State.canonical, ansCanonical, State.modTally_mem, State.contribute_canonical]

theorem execMarkCmdMark_canonical (s : State) (h : s.canonical) : ansCanonical (execMarkCmdMark s) := by
  exact State.asActive_canonical s _ h (by grind [State.canonical, State.markWrite_mem])

theorem execMarkArrival_canonical (s : State) (h : s.canonical) : ansCanonical (execMarkArrival s) := by
  unfold execMarkArrival
  grind [State.canonical, ansCanonical, State.modTally_mem, State.takeMark_mem]

theorem execRangeFingerprintRead_canonical (n : Fin 16) (s : State) (h : s.canonical) :
    ansCanonical (execRangeFingerprintRead n s) := by
  unfold execRangeFingerprintRead
  grind [State.canonical, ansCanonical, State.modTally_mem, State.flushRange_mem, State.countPoison_mem,
    State.contribute_canonical]

theorem execTallyLatch_canonical (s : State) (h : s.canonical) : ansCanonical (execTallyLatch s) := by
  unfold execTallyLatch
  split
  · exact h
  · dsimp only
    generalize hY : State.memWrite _ _ _ _ = Y
    split
    · exact h
    · have hw : Y.canonical := by
        rw [← hY]
        refine State.memWrite_canonical _ _ _ _ (State.tripAll_canonical _ ?_)
        exact each_canonical _ _ _ (fun t c => State.contribute_canonical t _)
          (State.canonical_of_mem (State.modTally_mem _ _) h)
      clear hY
      generalize hX : State.applyJoins _ = X
      have hx : X.mem = Y.mem := by
        rw [← hX, State.applyJoins_mem]
        refine State.mem_ite ((State.openGate_mem _ _ _).trans ?_) ?_ <;>
          refine State.mem_ite ((State.holdAt_mem _ _).trans ?_)
            (State.mem_ite ((State.setF_mem _ _ _ _).trans ((State.setF_mem _ _ _ _).trans ?_)) ?_) <;>
          exact (State.setF_mem _ _ _ _).trans ((State.modTally_mem _ _).trans (State.nextWindow_mem _))
      have hc := State.canonical_of_mem hx hw
      clear hX hx hw
      split_ifs
      · exact State.canonical_of_mem (State.modTally_mem _ _) hc
      · exact State.canonical_of_mem ((State.takeWaiting_mem _).trans (State.markDone_mem _ _)) hc
      · exact State.canonical_of_mem ((State.holdCore_mem _).trans (State.modTally_mem _ _)) hc
      · exact State.canonical_of_mem ((State.takeWaiting_mem _).trans (State.markDone_mem _ _)) hc

theorem execHoldReq_canonical (s : State) (h : s.canonical) : ansCanonical (execHoldReq s) := by
  exact State.asActive_canonical s _ h (by grind [State.canonical, State.holdWrite_mem])

theorem execRelease_canonical (s : State) (h : s.canonical) : ansCanonical (execRelease s) := by
  exact State.asActive_canonical s _ h (by grind [State.canonical, State.releaseWrite_mem])

theorem execStepGateInput_canonical (dev : Fin 4096) (step : BitVec 32) (good : Bool) (s : State) (h : s.canonical) :
    ansCanonical (execStepGateInput dev step good s) := by
  unfold execStepGateInput
  grind [State.canonical, ansCanonical, State.modGate_mem, State.gateProgress_mem]

theorem State.markHeld_canonical (s : State) (h : s.canonical) : s.markHeld.canonical := by
  unfold State.markHeld
  grind [State.canonical, State.memWrite_canonical]

theorem State.gateDecide_canonical (s : State) (go : Bool) (h : s.canonical) : (s.gateDecide go).canonical := by
  unfold State.gateDecide
  grind [State.canonical, State.orF_mem, State.modGate_mem, State.holdAt_mem, State.holdCore_mem,
    State.releaseHold_mem, State.markHeld_canonical]

theorem execStepGateDecision_canonical (go : Bool) (s : State) (h : s.canonical) :
    ansCanonical (execStepGateDecision go s) := by
  unfold execStepGateDecision
  grind [State.canonical, ansCanonical, State.modGate_mem, State.tellChildren_mem, State.releaseHold_mem,
    State.gateDecide_canonical]

theorem execGateInputTimeout_canonical (dev : Fin 4096) (s : State) (h : s.canonical) :
    ansCanonical (execGateInputTimeout dev s) := by
  unfold execGateInputTimeout
  grind [State.canonical, ansCanonical, State.modGate_mem, State.report_mem, State.gateProgress_mem]

theorem execGateDecisionTimeout_canonical (s : State) (h : s.canonical) :
    ansCanonical (execGateDecisionTimeout s) := by
  unfold execGateDecisionTimeout
  grind [State.canonical, ansCanonical, State.modGate_mem, State.rebuildTags_mem, State.gateProgress_mem]

theorem execTwinDigestArrival_canonical (digest : List Byte) (s : State) (h : s.canonical) :
    ansCanonical (execTwinDigestArrival digest s) := by
  unfold execTwinDigestArrival
  grind [State.canonical, ansCanonical, State.modGate_mem, State.gateProgress_mem, State.compareTwins_mem]

theorem execTwinReplayComplete_canonical (own twin : Option (List Byte)) (s : State)
    (state : List (Nat × List Byte)) (h : s.canonical) :
    ansCanonical (execTwinReplayComplete own twin s state) := by
  unfold execTwinReplayComplete
  grind [State.canonical, ansCanonical, State.addF_mem, State.modGate_mem, each_canonical, each_mem,
    State.requestHold_mem, State.memWrite_canonical, State.gateProgress_mem, State.holdPlane_mem]

theorem execTwinDigestTimeout_canonical (s : State) (h : s.canonical) : ansCanonical (execTwinDigestTimeout s) := by
  unfold execTwinDigestTimeout
  grind [State.canonical, ansCanonical, State.modGate_mem, State.gateProgress_mem, State.holdPlane_mem]

theorem execPlaneRejoin_canonical (digest : List Byte) (s : State) (h : s.canonical) :
    ansCanonical (execPlaneRejoin digest s) := by
  unfold execPlaneRejoin
  grind [State.canonical, ansCanonical, State.modGate_mem, State.modModule_mem, State.releaseHold_mem]

/-! ### Errors -/

theorem State.enterRing_canonical (s : State) (e : ErrRec) (h : s.canonical) : (s.enterRing e).1.canonical := by
  have hring (v : Nat) (e : ErrRec) : ((s.setF R.ERR.RING_HEAD.RSEQ 24 v).ringWrite e).canonical :=
    State.ringWrite_canonical _ _ (State.canonical_of_mem (State.setF_mem _ _ _ _) h)
  unfold State.enterRing
  dsimp only
  generalize (if s.ringOn then _ else _ : Bool) = full
  cases full
  · rw [if_neg Bool.false_ne_true]
    split
    · exact State.canonical_of_mem (State.tallyDev_mem _ _ _) (hring _ _)
    · exact State.canonical_of_mem ((State.modErrs_mem _ _).trans (State.setF_mem _ _ _ _)) h
  · exact State.canonical_of_mem (by simp) h

theorem State.syncRecord_canonical (s : State) (e : ErrRec) (h : s.canonical) : (s.syncRecord e).canonical := by
  unfold State.syncRecord
  grind [State.canonical, State.modErrs_mem, State.ringWrite_canonical]

theorem State.closeDevice_canonical (s : State) (n early : Nat) (h : s.canonical) :
    (s.closeDevice n early).canonical := by
  unfold State.closeDevice
  grind [State.canonical, State.setAgg_mem, State.syncRecord_canonical]

theorem State.roomDevice_canonical (s : State) (h : s.canonical) : s.roomDevice.canonical := by
  unfold State.roomDevice
  grind [State.canonical, State.addF_mem, State.closeDevice_canonical]

theorem State.foldDevice_canonical (s : State) (r : Report) (tier n : Nat) (h : s.canonical) :
    (s.foldDevice r tier n).canonical := by
  unfold State.foldDevice
  grind [State.canonical, State.addF_mem, State.modErrs_mem, State.setAgg_mem, State.enterRing_canonical,
    State.roomDevice_canonical]

theorem State.toRoot_canonical (s : State) (r : Report) (opened : Bool) (h : s.canonical) :
    (s.toRoot r opened).canonical := by
  unfold State.toRoot
  grind [State.canonical, State.tell_mem, State.foldDevice_canonical]

theorem State.deviceReport_canonical (s : State) (r : Report) (n : Nat) (h : s.canonical) :
    (s.deviceReport r n).canonical := by
  unfold State.deviceReport
  grind [State.canonical, State.foldDevice_canonical, State.toRoot_canonical]

theorem State.closeCluster_canonical (s : State) (k n : Nat) (h : s.canonical) : (s.closeCluster k n).canonical := by
  unfold State.closeCluster
  grind [State.canonical, State.setAgg_mem, State.deviceReport_canonical]

theorem State.clusterReport_canonical (s : State) (k : Nat) (r : Report) (h : s.canonical) :
    (s.clusterReport k r).canonical := by
  unfold State.clusterReport
  grind [State.canonical, State.addF_mem, State.setAgg_mem, State.deviceReport_canonical,
    State.closeCluster_canonical]

theorem State.takeReport_canonical (s : State) (h : s.canonical) : s.takeReport.canonical := by
  unfold State.takeReport
  grind [State.canonical, State.modErrs_mem, State.deviceReport_canonical, State.clusterReport_canonical]

theorem execErrorReport_canonical (s : State) (src : ErrSrc) (h : s.canonical) :
    ansCanonical (execErrorReport s src) := by
  unfold execErrorReport
  grind [State.canonical, ansCanonical, State.reportSite_mem, State.foldDevice_canonical,
    State.takeReport_canonical]

theorem execRecordClose_canonical (agg : Fin 25) (n : Nat) (s : State) (h : s.canonical) :
    ansCanonical (execRecordClose agg n s) := by
  unfold execRecordClose
  grind [State.canonical, ansCanonical, State.closeDevice_canonical, State.closeCluster_canonical]

theorem State.ringBaseWrite_canonical (s : State) (v : Nat) (h : s.canonical) : (s.ringBaseWrite v).canonical := by
  unfold State.ringBaseWrite
  grind [State.canonical, State.setF_mem, State.modErrs_mem, each_canonical, each_mem, State.tallyDev_mem,
    State.ringWrite_canonical]

theorem execRingBaseWrite_canonical (v : BitVec 64) (s : State) (h : s.canonical) :
    ansCanonical (execRingBaseWrite v s) := by
  exact State.asActive_canonical s _ h (by grind [State.ringBaseWrite_canonical])

theorem execCaptureSlotFree_canonical (v : BitVec 16) (s : State) (h : s.canonical) :
    ansCanonical (execCaptureSlotFree v s) := by
  exact State.asActive_canonical s _ h (by grind [State.canonical, State.captureFree_mem])

/-! ### Recovery -/

theorem State.quarantineSite_canonical (s : State) (site : Nat) (h : s.canonical) :
    (s.quarantineSite site).canonical := by
  unfold State.quarantineSite
  grind [State.canonical, State.modSec_mem, State.reportUnit_mem, State.flagRecords_canonical, State.blazeField_mem]

theorem State.quarTrigger_canonical (s : State) (site : Nat) (h : s.canonical) : (s.quarTrigger site).canonical := by
  unfold State.quarTrigger
  grind [State.canonical, State.reportUnit_mem, State.quarantineSite_canonical]

theorem State.confirmMismatch_canonical (s : State) (site : Nat) (h : s.canonical) :
    (s.confirmMismatch site).canonical := by
  unfold State.confirmMismatch
  grind [State.canonical, State.modErrs_mem, State.flagRecords_canonical, State.quarTrigger_canonical]

theorem State.siteDies_canonical (s : State) (site since : Nat) (h : s.canonical) :
    (s.siteDies site since).canonical := by
  unfold State.siteDies
  grind [State.canonical, State.modCore_mem, State.modSec_mem, State.report_mem, State.wantReplay_mem,
    State.yieldSlice_mem, State.quarTrigger_canonical]

theorem State.confirmReplay_canonical (s : State) (g : List Nat) (h : s.canonical) :
    (s.confirmReplay g).canonical := by
  unfold State.confirmReplay
  grind [State.canonical, State.modCore_mem, State.modCluster_mem, each_canonical, each_mem,
    State.confirmMismatch_canonical]

theorem State.commit_canonical (s : State) (g : List Nat) (id : Nat) (h : s.canonical) :
    (s.commit g id).canonical := by
  unfold State.commit
  grind [State.canonical, State.modCore_mem, each_canonical, each_mem, State.countInstr_mem,
    State.confirmReplay_canonical, State.commitCluster_mem]

theorem State.commitHeld_canonical (s : State) (g : List Nat) (c id : Nat) (h : s.canonical) :
    (s.commitHeld g c id).canonical := by
  unfold State.commitHeld
  grind [State.canonical, each_canonical, each_mem, State.wantReplay_mem, State.commit_canonical,
    State.stopForReplay_mem]

theorem execClusterCommit_canonical (c : Fin 24) (s : State) (h : s.canonical) :
    ansCanonical (execClusterCommit c s) := by
  unfold execClusterCommit
  grind [State.canonical, ansCanonical, State.commit_canonical, State.commitHeld_canonical]

theorem State.endCore_canonical (s : State) (site : Nat) (h : s.canonical) : (s.endCore site).canonical := by
  unfold State.endCore
  grind [State.canonical, State.setRun_mem, State.setWaiting_mem, each_canonical, each_mem,
    State.complete_canonical]

theorem State.resetJob_canonical (s : State) (id : Nat) (h : s.canonical) : (s.resetJob id).canonical := by
  unfold State.resetJob
  grind [State.canonical, State.setF_mem, State.modCluster_mem, State.setJob_mem, each_canonical, each_mem,
    State.reportUnit_mem, State.resetCluster_mem, State.closeWindow_mem, State.freeJob_mem, State.endCore_canonical]

theorem execJobPartitionReset_canonical (job : Fin 256) (s : State) (h : s.canonical) :
    ansCanonical (execJobPartitionReset job s) := by
  unfold execJobPartitionReset
  grind [State.canonical, ansCanonical, State.resetJob_canonical]

theorem execGroupReplay_canonical (c : Fin 24) (s : State) (h : s.canonical) :
    ansCanonical (execGroupReplay c s) := by
  unfold execGroupReplay
  grind [State.canonical, ansCanonical, State.resetJob_canonical, State.reloadGroup_mem, State.replay_mem,
    State.dropWant_mem]

theorem execResidueReplayComplete_canonical (site : Fin 672) (s : State) (h : s.canonical) :
    ansCanonical (execResidueReplayComplete site s) := by
  unfold execResidueReplayComplete
  grind [State.canonical, ansCanonical, State.reportSite_mem, State.siteDies_canonical,
    State.confirmReplay_canonical]

theorem State.settleTokens_canonical (s : State) (old : List Nat) (h : s.canonical) :
    (s.settleTokens old).canonical := by
  unfold State.settleTokens
  grind [State.canonical, State.modMesh_mem, each_canonical, each_mem, State.deliver_canonical]

theorem State.moveCores_canonical (s : State) (id : Nat) (j new : Job) (m : List (Nat × Nat)) (h : s.canonical) :
    (s.moveCores id j new m).1.canonical := by
  unfold State.moveCores
  grind [State.canonical, State.setF_mem, State.modCore_mem, State.modCluster_mem, State.setJob_mem,
    State.setRun_mem, State.setWaiting_mem, State.modWindow_mem, State.modTally_mem, State.modFab_mem,
    State.modMesh_mem, each_canonical, each_mem, State.yieldSlice_mem, State.rescale_mem, State.retarget_mem,
    State.settleTokens_canonical]

theorem State.moveCluster_canonical (s : State) (id : Nat) (j : Job) (c d oldRole : Nat) (h : s.canonical) :
    (s.moveCluster id j c d oldRole).canonical := by
  unfold State.moveCluster
  grind [State.canonical, State.addF_mem, State.modCluster_mem, State.reportUnit_mem, State.moveCores_canonical,
    State.setRole_mem, State.moveBindings_mem]

theorem State.commitForMove_canonical (s : State) (c : Nat) (h : s.canonical) : (s.commitForMove c).canonical := by
  unfold State.commitForMove
  grind [State.canonical, State.commitHeld_canonical]

theorem execCoreSubstitution_canonical (site : Fin 672) (s : State) (h : s.canonical) :
    ansCanonical (execCoreSubstitution site s) := by
  unfold execCoreSubstitution
  grind [State.canonical, ansCanonical, State.addF_mem, State.modSec_mem, each_canonical, each_mem,
    State.reportUnit_mem, State.stopForReplay_mem, State.resetJob_canonical, State.moveCores_canonical,
    State.moveCluster_canonical, State.commitForMove_canonical]

theorem execHeartbeat_canonical (site : Fin 672) (s : State) (h : s.canonical) :
    ansCanonical (execHeartbeat site s) := by
  unfold execHeartbeat
  grind [State.canonical, ansCanonical, State.modCore_mem]

theorem execHeartbeatTimeout_canonical (site : Fin 672) (s : State) (h : s.canonical) :
    ansCanonical (execHeartbeatTimeout site s) := by
  unfold execHeartbeatTimeout
  grind [State.canonical, ansCanonical, State.siteDies_canonical]

theorem execSequencerParityError_canonical (site : Fin 672) (s : State) (h : s.canonical) :
    ansCanonical (execSequencerParityError site s) := by
  unfold execSequencerParityError
  grind [State.canonical, ansCanonical, State.siteDies_canonical]

theorem execClusterPartitionReset_canonical (site : Fin 672) (s : State) (h : s.canonical) :
    ansCanonical (execClusterPartitionReset site s) := by
  unfold execClusterPartitionReset
  grind [State.canonical, ansCanonical, State.modErrs_mem, State.reportSite_mem, State.clusterReset_mem,
    State.quarTrigger_canonical]

theorem execMemoryMarchComplete_canonical (site : Fin 672) (pass : Bool) (s : State) (h : s.canonical) :
    ansCanonical (execMemoryMarchComplete site pass s) := by
  unfold execMemoryMarchComplete
  grind [State.canonical, ansCanonical, State.modCluster_mem, State.siteDies_canonical]

theorem State.lullFails_canonical (s : State) (site : Nat) (h : s.canonical) : (s.lullFails site).canonical := by
  unfold State.lullFails
  grind [State.canonical, State.addF_mem, State.modCluster_mem, State.reportSite_mem, State.quarTrigger_canonical]

theorem State.lullResult_canonical (s : State) (site buddy outcome : Nat) (h : s.canonical) :
    (s.lullResult site buddy outcome).canonical := by
  unfold State.lullResult
  grind [State.canonical, State.modCluster_mem, State.reportSite_mem, State.lullFails_canonical]

theorem execLullSliceStart_canonical (site : Fin 672) (array outcome : Fin 4) (s : State) (buddy : Fin 672)
    (h : s.canonical) :
    ansCanonical (execLullSliceStart site array outcome s buddy) := by
  unfold execLullSliceStart
  dsimp only
  split
  · exact h
  · refine State.lullResult_canonical _ _ _ _ (State.memWrite_canonical _ _ _ _ ?_)
    exact State.canonical_of_mem (by simp) h

theorem execLullSliceYield_canonical (site : Fin 672) (s : State) (h : s.canonical) :
    ansCanonical (execLullSliceYield site s) := by
  unfold execLullSliceYield
  grind [State.canonical, ansCanonical, State.yieldSlice_mem]

/-! ### Clocks -/

theorem State.computeOff_canonical (s : State) : s.computeOff.canonical := rfl

theorem State.moduleTrip_canonical (s : State) (cause : Nat) (h : s.canonical) : (s.moduleTrip cause).canonical := by
  unfold State.moduleTrip
  grind [State.canonical, State.modModule_mem, each_canonical, each_mem, State.reportUnit_mem, State.alert_mem,
    State.resetJob_canonical, State.computeOff_canonical]

theorem State.inputFault_canonical (s : State) (cause : Nat) (h : s.canonical) : (s.inputFault cause).canonical := by
  unfold State.inputFault
  grind [State.canonical, State.modModule_mem, State.alert_mem, State.moduleTrip_canonical]

theorem State.remove36_canonical (s : State) : s.remove36.canonical := rfl

theorem execReferenceSwitch_canonical (r : Fin 36) (live : BitVec 38) (s : State) (h : s.canonical) :
    ansCanonical (execReferenceSwitch r live s) := by
  unfold execReferenceSwitch
  grind [State.canonical, ansCanonical, State.setF_mem, State.addF_mem, each_canonical, each_mem]

theorem execReferenceLoss_canonical (r : Fin 36) (live : BitVec 38) (s : State) (h : s.canonical) :
    ansCanonical (execReferenceLoss r live s) := by
  unfold execReferenceLoss
  grind [State.canonical, ansCanonical, State.setF_mem, State.modRegion_mem, each_canonical, each_mem,
    State.reportUnit_mem]

theorem execTreeClockSet_canonical (r : Fin 36) (s : State) (h : s.canonical) :
    ansCanonical (execTreeClockSet r s) := by
  unfold execTreeClockSet
  grind [State.canonical, ansCanonical, State.modRegion_mem, State.lockRegion_mem]

theorem execDevTimeStep_canonical (v : BitVec 64) (s : State) (h : s.canonical) :
    ansCanonical (execDevTimeStep v s) := by
  exact State.asActive_canonical s _ h (by exact State.canonical_of_mem (State.timeWrite_mem _ _) h)

theorem execRateWordChange_canonical (s : State) (h : s.canonical) : ansCanonical (execRateWordChange s) := by
  unfold execRateWordChange
  grind [State.canonical, ansCanonical, State.modCtl_mem]

theorem execPtpSyncReceive_canonical (port : Fin 2) (gm : BitVec 64) (bound : Nat) (s : State) (h : s.canonical) :
    ansCanonical (execPtpSyncReceive port gm bound s) := by
  unfold execPtpSyncReceive
  grind [State.canonical, ansCanonical, State.setF_mem, State.modCtl_mem, State.setBound_mem, State.steer_mem]

theorem execPtpOffsetBoundExceeded_canonical (bound : Nat) (s : State) (h : s.canonical) :
    ansCanonical (execPtpOffsetBoundExceeded bound s) := by
  unfold execPtpOffsetBoundExceeded
  grind [State.canonical, ansCanonical, State.event_mem, State.reportUnit_mem, State.holdWrite_mem,
    State.setBound_mem]

theorem execPtpSyncLoss_canonical (s : State) (h : s.canonical) : ansCanonical (execPtpSyncLoss s) := by
  unfold execPtpSyncLoss
  grind [State.canonical, ansCanonical, State.setF_mem, State.reportUnit_mem]

theorem execFrontArm_canonical (v : BitVec 32) (s : State) (h : s.canonical) : ansCanonical (execFrontArm v s) := by
  exact State.asActive_canonical s _ h (by grind [State.canonical, State.frontWrite_mem])

theorem execFrontCancel_canonical (s : State) (h : s.canonical) : ansCanonical (execFrontCancel s) := by
  exact State.asActive_canonical s _ h (by exact State.canonical_of_mem (State.frontCancel_mem _) h)

theorem execFrontRampStart_canonical (s : State) (h : s.canonical) : ansCanonical (execFrontRampStart s) := by
  unfold execFrontRampStart
  grind [State.canonical, ansCanonical, State.modCtl_mem, each_canonical, each_mem, State.setVolt_mem,
    State.frontCheck_mem]

theorem execFrontDividerChange_canonical (r : Fin 30) (s : State) (h : s.canonical) :
    ansCanonical (execFrontDividerChange r s) := by
  unfold execFrontDividerChange
  grind [State.canonical, ansCanonical, State.setF_mem, State.frontCheck_mem]

/-! ### Power -/

theorem execDroopStretch_canonical (r : Fin 30) (mv : Nat) (s : State) (h : s.canonical) :
    ansCanonical (execDroopStretch r mv s) := by
  unfold execDroopStretch
  grind [State.canonical, ansCanonical, State.addF_mem, State.modRegion_mem, State.tallyDev_mem]

theorem execPaceGroupStart_canonical (r : Fin 30) (s : State) (h : s.canonical) :
    ansCanonical (execPaceGroupStart r s) := by
  unfold execPaceGroupStart
  grind [State.canonical, ansCanonical, State.modRegion_mem]

theorem execSquallTrigger_canonical (r : Fin 30) (slope : Nat) (s : State) (h : s.canonical) :
    ansCanonical (execSquallTrigger r slope s) := by
  unfold execSquallTrigger
  grind [State.canonical, ansCanonical, State.setF_mem, State.addF_mem, State.modRegion_mem]

theorem execSquallDecay_canonical (r : Fin 30) (slope : Nat) (s : State) (h : s.canonical) :
    ansCanonical (execSquallDecay r slope s) := by
  unfold execSquallDecay
  grind [State.canonical, ansCanonical, State.modRegion_mem, State.stepPace_mem]

theorem execCurrentGovernorTick_canonical (r : Fin 30) (amps : Nat) (s : State) (h : s.canonical) :
    ansCanonical (execCurrentGovernorTick r amps s) := by
  unfold execCurrentGovernorTick
  grind [State.canonical, ansCanonical, State.modRegion_mem, State.stepPace_mem]

theorem execSwitchOnRequest_canonical (r : Fin 30) (s : State) (h : s.canonical) :
    ansCanonical (execSwitchOnRequest r s) := by
  exact State.asActive_canonical s _ h (by exact State.canonical_of_mem (State.switchOn_mem _ _) h)

theorem execSwitchOnRecheck_canonical (r : Fin 30) (s : State) (h : s.canonical) :
    ansCanonical (execSwitchOnRecheck r s) := by
  unfold execSwitchOnRecheck
  grind [State.canonical, ansCanonical, State.setF_mem, State.modRegion_mem, each_canonical, each_mem,
    State.reportUnit_mem, State.startRamp_mem, State.defer_mem, State.releaseAdmit_mem]

theorem execRegionRampEnd_canonical (r : Fin 30) (s : State) (h : s.canonical) :
    ansCanonical (execRegionRampEnd r s) := by
  unfold execRegionRampEnd
  grind [State.canonical, ansCanonical, State.setF_mem, State.setVolt_mem, State.lockRegion_mem]

theorem execRegionReady_canonical (r : Fin 30) (s : State) (h : s.canonical) :
    ansCanonical (execRegionReady r s) := by
  unfold execRegionReady
  grind [State.canonical, ansCanonical, State.regionReady_mem, State.releaseAdmit_mem]

theorem execThermalSample_canonical (r : Fin 36) (temps : List Int) (s : State) (h : s.canonical) :
    ansCanonical (execThermalSample r temps s) := by
  unfold execThermalSample
  grind [State.canonical, ansCanonical, State.setF_mem, State.modRegion_mem]

theorem execThermalPaceTick_canonical (r : Fin 30) (s : State) (h : s.canonical) :
    ansCanonical (execThermalPaceTick r s) := by
  unfold execThermalPaceTick
  grind [State.canonical, ansCanonical, State.modRegion_mem, State.stepPace_mem]

theorem execHeatSwitchOff_canonical (r : Fin 24) (s : State) (h : s.canonical) :
    ansCanonical (execHeatSwitchOff r s) := by
  unfold execHeatSwitchOff
  grind [State.canonical, ansCanonical, State.setF_mem, each_canonical, each_mem, State.reportUnit_mem,
    State.stopForReplay_mem, State.setRole_mem, State.moveCluster_canonical, State.commitForMove_canonical,
    State.heatOff_mem]

theorem State.darkCluster_canonical (s : State) (r : Nat) (h : s.canonical) : (s.darkCluster r).canonical := by
  unfold State.darkCluster
  grind [State.canonical, State.modModule_mem, State.reportUnit_mem, State.alert_mem, State.flagRecords_canonical,
    State.blazeField_mem, State.setRole_mem, State.regionOff_mem]

theorem State.darkNetwork_canonical (s : State) (r : Nat) (h : s.canonical) : (s.darkNetwork r).canonical := by
  unfold State.darkNetwork
  grind [State.canonical, State.modModule_mem, State.modMesh_mem, each_canonical, each_mem, State.alert_mem,
    State.resetJob_canonical, State.regionOff_mem]

theorem execThermalTrip_canonical (r : Fin 36) (s : State) (h : s.canonical) :
    ansCanonical (execThermalTrip r s) := by
  unfold execThermalTrip
  grind [State.canonical, ansCanonical, State.modModule_mem, State.reportUnit_mem, State.alert_mem,
    State.moduleTrip_canonical, State.darkCluster_canonical, State.darkNetwork_canonical]

theorem execPhaseFailure_canonical (r : Fin 36) (phase : Fin 48) (s : State) (h : s.canonical) :
    ansCanonical (execPhaseFailure r phase s) := by
  unfold execPhaseFailure
  grind [State.canonical, ansCanonical, State.setF_mem, State.addF_mem, State.modRegion_mem, State.reportUnit_mem,
    State.blazeField_mem, State.moduleTrip_canonical, State.darkCluster_canonical, State.darkNetwork_canonical]

theorem execConverterFailure_canonical (n : Fin 72) (s : State) (h : s.canonical) :
    ansCanonical (execConverterFailure n s) := by
  unfold execConverterFailure
  grind [State.canonical, ansCanonical, State.modModule_mem, State.reportUnit_mem, State.alert_mem,
    State.blazeField_mem]

theorem execModulePowerGovernor_canonical (watts : Nat) (s : State) (h : s.canonical) :
    ansCanonical (execModulePowerGovernor watts s) := by
  have hpace (t : State) (up : Bool) :
      (each (List.range 24) t fun s r => s.stepPace R.RGN.PACE.MODULE r up).mem = t.mem :=
    each_mem _ _ _ fun _ _ => State.stepPace_mem _ _ _ _
  unfold execModulePowerGovernor
  split
  · exact h
  · dsimp only
    split
    · refine State.canonical_of_mem (State.mem_ite ?_ ((State.reportUnit_mem _ _ _ _ _).trans
        ((State.modModule_mem _ _).trans ?_))) h <;>
        exact (State.modModule_mem _ _).trans (State.mem_ite ((State.modModule_mem _ _).trans ((hpace _ _).trans
          (State.modModule_mem _ _))) (State.modModule_mem _ _))
    · split
      · refine State.canonical_of_mem (State.mem_ite ((State.modModule_mem _ _).trans ?_) ?_) h <;>
          exact (State.modModule_mem _ _).trans (State.mem_ite ((hpace _ _).trans (State.modModule_mem _ _))
            (State.modModule_mem _ _))
      · exact State.canonical_of_mem (State.modModule_mem _ _) h

theorem execModulePowerTrip_canonical (watts : Nat) (s : State) (h : s.canonical) :
    ansCanonical (execModulePowerTrip watts s) := by
  unfold execModulePowerTrip
  grind [State.canonical, ansCanonical, State.moduleTrip_canonical]

theorem execModuleRestart_canonical (s : State) (h : s.canonical) : ansCanonical (execModuleRestart s) := by
  unfold execModuleRestart
  grind [State.canonical, ansCanonical, State.setF_mem, State.modModule_mem]

theorem execTelemetryInterval_canonical (samples : List (Nat × Nat)) (s : State) (h : s.canonical) :
    ansCanonical (execTelemetryInterval samples s) := by
  unfold execTelemetryInterval
  grind [State.canonical, ansCanonical, State.modModule_mem, each_canonical, each_mem, State.sampleDomain_mem]

/-! ### Boot -/

theorem State.powerOn_canonical (s : State) (h : s.canonical) : s.powerOn.canonical := by
  unfold State.powerOn
  grind [State.canonical, State.setF_mem, State.modModule_mem, State.modCtl_mem, State.remove36_canonical,
    State.romBoot_mem]

theorem execPowerArrival_canonical (s : State) (h : s.canonical) : ansCanonical (execPowerArrival s) := by
  unfold execPowerArrival
  grind [State.canonical, ansCanonical, State.powerOn_canonical]

theorem execStage1ImageReceive_canonical (cc : Fin 2) (obj : List Byte) (s : State) (h : s.canonical) :
    ansCanonical (execStage1ImageReceive cc obj s) := by
  unfold execStage1ImageReceive
  grind [State.canonical, ansCanonical, State.check_mem, State.bootFail_mem, State.startStage1_mem]

theorem execPtpWaitTimeout_canonical (s : State) (h : s.canonical) : ansCanonical (execPtpWaitTimeout s) := by
  unfold execPtpWaitTimeout
  grind [State.canonical, ansCanonical, State.modCc_mem]

theorem execDevTimeRebase_canonical (gm : BitVec 64) (s : State) (h : s.canonical) :
    ansCanonical (execDevTimeRebase gm s) := by
  unfold execDevTimeRebase
  grind [State.canonical, ansCanonical, State.setF_mem, State.modCtl_mem, State.stepTime_mem]

theorem execComputePowerUp_canonical (s : State) (h : s.canonical) : ansCanonical (execComputePowerUp s) := by
  unfold execComputePowerUp
  grind [State.canonical, ansCanonical, State.setF_mem, State.modModule_mem, each_canonical, each_mem,
    State.bootRegion_mem, State.loadCaps_mem, State.loadStaged_mem]

theorem execBlazeMapRevision_canonical (s : State) (h : s.canonical) : ansCanonical (execBlazeMapRevision s) := by
  unfold execBlazeMapRevision
  grind [State.canonical, ansCanonical, State.reviseBlaze_mem]

theorem State.clearRecorder_canonical (s : State) (h : s.canonical) : s.clearRecorder.canonical := by
  exact Tab.wfFrom_filter 0 s.mem (fun a => !inRecorder a) 0 h

theorem execCruise_canonical (q : CruiseResult) (s : State) (h : s.canonical) : ansCanonical (execCruise q s) := by
  unfold execCruise
  dsimp only
  generalize hY : State.clearRecorder _ = Y
  generalize hZ : each _ Y State.lockRegion = Z
  split
  · exact h
  · have hw : Z.canonical := by
      rw [← hZ, ← hY]
      refine each_canonical _ _ _ (fun t r ht => State.canonical_of_mem (State.lockRegion_mem t r) ht) ?_
      refine State.clearRecorder_canonical _ (State.canonical_of_mem ?_ h)
      refine (each_mem _ _ _ fun t p => by split <;> simp).trans ((each_mem _ _ _ fun t i => by split <;> simp).trans ?_)
      exact (State.modModule_mem _ _).trans ((State.setRoles_mem _ _).trans ((State.modSec_mem _ _).trans
        ((State.setF_mem _ _ _ _).trans (State.loadBlaze_mem s))))
    split <;> exact State.canonical_of_mem (by simp) hw

theorem execFirmwareBroadcast_canonical (obj : List Byte) (bad : List Nat) (s : State) (h : s.canonical) :
    ansCanonical (execFirmwareBroadcast obj bad s) := by
  unfold execFirmwareBroadcast
  grind [State.canonical, ansCanonical, State.setF_mem, State.modCluster_mem, State.modModule_mem, State.modSec_mem,
    each_canonical, each_mem, State.memWrite_canonical, State.check_mem, State.extend_mem, State.bootFail_mem,
    State.setRoles_mem]

theorem State.attest_canonical (s : State) (h : s.canonical) : s.attest.canonical := by
  unfold State.attest
  dsimp only
  split
  · exact h
  · exact State.canonical_of_mem (State.secResult_mem _ _) (State.memWrite_canonical _ _ _ _ h)

theorem State.signBlaze_canonical (s : State) (h : s.canonical) : s.signBlaze.canonical := by
  unfold State.signBlaze
  grind [State.canonical, State.memWrite_canonical, State.secResult_mem]

theorem State.secCmd_canonical (s : State) (op : Nat) (h : s.canonical) : (s.secCmd op).canonical := by
  unfold State.secCmd
  grind [State.canonical, State.installLicence_mem, State.attest_canonical, State.extendMeas_mem,
    State.signBlaze_canonical, State.raiseFloor_mem]

theorem State.secOp_canonical (s : State) (op : Nat) (h : s.canonical) : (s.secOp op).canonical := by
  exact State.asActive_canonical s _ h (by grind [State.secCmd_canonical])

theorem execInstallLicence_canonical (s : State) (h : s.canonical) : ansCanonical (execInstallLicence s) := by
  unfold execInstallLicence
  grind [State.canonical, ansCanonical, State.secOp_canonical]

theorem execAttest_canonical (s : State) (h : s.canonical) : ansCanonical (execAttest s) := by
  unfold execAttest
  grind [State.canonical, ansCanonical, State.secOp_canonical]

theorem execExtendMeas_canonical (s : State) (h : s.canonical) : ansCanonical (execExtendMeas s) := by
  unfold execExtendMeas
  grind [State.canonical, ansCanonical, State.secOp_canonical]

theorem execSignBlazeMap_canonical (s : State) (h : s.canonical) : ansCanonical (execSignBlazeMap s) := by
  unfold execSignBlazeMap
  grind [State.canonical, ansCanonical, State.secOp_canonical]

theorem execRaiseSvnFloor_canonical (s : State) (h : s.canonical) : ansCanonical (execRaiseSvnFloor s) := by
  unfold execRaiseSvnFloor
  grind [State.canonical, ansCanonical, State.secOp_canonical]

theorem execLicenceExpiry_canonical (id : BitVec 64) (s : State) (h : s.canonical) :
    ansCanonical (execLicenceExpiry id s) := by
  unfold execLicenceExpiry
  grind [State.canonical, ansCanonical, State.modSec_mem, State.showLicences_mem]

/-! ### Control -/

theorem execCtrlRelease_canonical (cc : Fin 2) (s : State) (h : s.canonical) :
    ansCanonical (execCtrlRelease cc s) := by
  unfold execCtrlRelease
  grind [State.canonical, ansCanonical, State.unclaim_mem]

theorem State.finishJournal_canonical (s : State) (e : JEntry) (h : s.canonical) : (s.finishJournal e).canonical := by
  unfold State.finishJournal
  grind [State.canonical, State.closeWindow_mem, State.gateProgress_mem, State.resetJob_canonical,
    State.undoAdmission_mem, State.redoRelease_mem, State.redoReplay_mem]

theorem State.succeed_canonical (s : State) (old new : Nat) (lapsed : Bool) (h : s.canonical) :
    (s.succeed old new lapsed).canonical := by
  unfold State.succeed
  grind [State.canonical, State.setF_mem, State.addF_mem, State.event_mem, State.modCc_mem, State.modCtl_mem,
    each_canonical, each_mem, State.reportUnit_mem, State.alert_mem, State.finishJournal_canonical]

theorem State.claimBy_canonical (s : State) (cc : Nat) (h : s.canonical) : (s.claimBy cc).canonical := by
  unfold State.claimBy
  grind [State.canonical, State.claim_mem, State.succeed_canonical]

theorem execCtrlClaim_canonical (cc : Fin 2) (s : State) (h : s.canonical) : ansCanonical (execCtrlClaim cc s) := by
  unfold execCtrlClaim
  grind [State.canonical, ansCanonical, State.claimBy_canonical]

theorem execFailover_canonical (s : State) (h : s.canonical) : ansCanonical (execFailover s) := by
  unfold execFailover
  grind [State.canonical, ansCanonical, State.claim_mem, State.succeed_canonical]

theorem execJournalEntry_canonical (op : JOp) (arg : Nat) (done ack : Bool) (s : State) (step : Nat)
    (h : s.canonical) :
    ansCanonical (execJournalEntry op arg done ack s step) := by
  unfold execJournalEntry
  grind [State.canonical, ansCanonical, State.setF_mem, State.modCtl_mem]

theorem execJournalAckTimeout_canonical (s : State) (h : s.canonical) : ansCanonical (execJournalAckTimeout s) := by
  unfold execJournalAckTimeout
  grind [State.canonical, ansCanonical, State.setF_mem, State.modCtl_mem, State.reportUnit_mem]

theorem execSealSet_canonical (cc : Fin 2) (s : State) (h : s.canonical) : ansCanonical (execSealSet cc s) := by
  unfold execSealSet
  grind [State.canonical, ansCanonical, State.refuseWrite_mem, State.sealWrite_mem]

theorem execExpertEnable_canonical (v : BitVec 32) (s : State) (h : s.canonical) :
    ansCanonical (execExpertEnable v s) := by
  exact State.asActive_canonical s _ h (by exact State.canonical_of_mem (State.expertWrite_mem _ _) h)

theorem State.special_canonical (s : State) (g i off size v : Nat) (h : s.canonical) :
    (s.special g i off size v).canonical := by
  unfold State.special
  dsimp only
  split
  case h_1 =>
    refine State.when_canonical _ ?_ fun ht _ => State.canonical_of_mem (State.ctlMoverGo_mem _ _) ht
    refine State.canonical_of_mem (State.mem_ite (State.armRate_mem _) rfl) ?_
    refine State.when_canonical _ ?_ fun ht _ => State.canonical_of_mem (State.timeWrite_mem _ _) ht
    refine State.when_canonical _ ?_ fun ht _ => State.canonical_of_mem (State.expertWrite_mem _ _) ht
    exact State.when_canonical _ h fun ht _ => State.canonical_of_mem (State.mem_ite (State.sealWrite_mem _) rfl) ht
  case h_2 => exact State.when_canonical _ h fun ht _ => State.canonical_of_mem (State.clTsig_mem _ _ _) ht
  case h_3 =>
    refine State.when_canonical _ h fun ht _ => State.canonical_of_mem (State.mem_ite ?_ rfl) ht
    exact (State.setF_mem _ _ _ _).trans (State.modHbm_mem _ _)
  case h_4 =>
    refine State.when_canonical _ h fun ht _ => State.canonical_of_mem (State.mem_ite ?_ rfl) ht
    exact (State.divert_mem _ _).trans (State.setF_mem _ _ _ _)
  case h_5 =>
    refine State.canonical_of_mem (State.mem_ite (State.setVolt_mem _ _ _) rfl) ?_
    refine State.when_canonical _ ?_ fun ht _ => State.canonical_of_mem (State.mem_ite rfl (State.setF_mem _ _ _ _)) ht
    refine State.when_canonical _ ?_ fun ht _ => State.canonical_of_mem (State.frontWrite_mem _ _) ht
    exact State.when_canonical _ h fun ht _ => State.canonical_of_mem (State.onReq_mem _ _ _) ht
  case h_6 =>
    split
    · exact h
    · refine State.when_canonical _ ?_ fun ht _ => State.canonical_of_mem (State.captureFree_mem _ _) ht
      exact State.when_canonical _ h fun ht _ => State.ringBaseWrite_canonical _ _ ht
  case h_7 =>
    refine State.when_canonical _ ?_ fun ht _ => State.canonical_of_mem (State.markCmd_mem _ _) ht
    refine State.when_canonical _ ?_ fun ht _ => State.canonical_of_mem (State.mem_ite (State.setF_mem _ _ _ _) rfl) ht
    exact State.when_canonical _ h fun ht _ => State.canonical_of_mem (State.mem_ite (State.setF_mem _ _ _ _) rfl) ht
  case h_8 =>
    refine State.when_canonical _ (State.canonical_of_mem (State.mem_ite rfl rfl) h) fun ht _ => ?_
    exact State.canonical_ite (State.secCmd_canonical _ _ ht) ht
  case h_9 =>
    refine State.when_canonical _ ?_ fun ht _ => State.canonical_of_mem (State.windowCmd_mem _ _) ht
    refine State.when_canonical _ ?_ fun ht _ => State.canonical_of_mem (State.notifyWrite_mem _ _) ht
    exact State.canonical_of_mem (State.windowField_mem _ _ _ _) h
  case h_10 =>
    refine State.when_canonical _ ?_ fun ht _ => State.canonical_of_mem (State.mcastEntry_mem _ _) ht
    exact State.when_canonical _ h fun ht _ => State.canonical_of_mem (State.groupField_mem _ _) ht
  case h_11 => exact h

theorem State.pageWrite_canonical (s : State) (g i off size v : Nat) (h : s.canonical) :
    (s.pageWrite g i off size v).canonical := by
  unfold State.pageWrite
  grind [State.canonical, each_canonical, each_mem, State.writeField_mem, State.special_canonical]

theorem execRegisterWrite_canonical (cc : Fin 2) (addr size : Nat) (v : BitVec 64) (s : State) (h : s.canonical) :
    ansCanonical (execRegisterWrite cc addr size v s) := by
  unfold execRegisterWrite
  dsimp only
  generalize hY : State.when_ _ _ _ = Y
  split
  · exact h
  · split
    · exact State.canonical_of_mem (State.modCtl_mem _ _) h
    · have hw : Y.canonical := by
        rw [← hY]
        exact State.when_canonical _ h fun _ c => by grind [State.canonical, State.unclaim_mem, State.claimBy_canonical]
      split
      · exact hw
      · split
        · exact State.pageWrite_canonical _ _ _ _ _ _ hw
        · exact State.canonical_of_mem (State.refuseWrite_mem _ _) hw

theorem execMgmtFrameSend_canonical (port : Fin 2) (bytes : Nat) (ptp : Bool) (s : State) (h : s.canonical) :
    ansCanonical (execMgmtFrameSend port bytes ptp s) := by
  unfold execMgmtFrameSend
  grind [State.canonical, ansCanonical, State.addF_mem, State.modCtl_mem, State.reportUnit_mem]

theorem execManagementPortDown_canonical (port : Fin 2) (s : State) (h : s.canonical) :
    ansCanonical (execManagementPortDown port s) := by
  unfold execManagementPortDown
  grind [State.canonical, ansCanonical, State.setF_mem, State.event_mem, State.reportUnit_mem]

/-! ### Service -/

theorem State.clusterLoaded_canonical (s : State) (c : Nat) (obj : List Byte) (h : s.canonical) :
    (s.clusterLoaded c obj).canonical := by
  unfold State.clusterLoaded
  grind [State.canonical, State.modCluster_mem, State.modSec_mem, State.memWrite_canonical, State.extend_mem,
    State.serveEnd_mem]

theorem execClusterFirmwareUpdate_canonical (c : Fin 24) (obj : List Byte) (s : State) (h : s.canonical) :
    ansCanonical (execClusterFirmwareUpdate c obj s) := by
  unfold execClusterFirmwareUpdate
  grind [State.canonical, ansCanonical, each_canonical, each_mem, State.stopForReplay_mem, State.setRole_mem,
    State.moveCluster_canonical, State.commitForMove_canonical, State.check_mem, State.reviseBlaze_mem,
    State.serve_mem, State.clusterLoaded_canonical]

theorem execControlChipletRestart_canonical (cc : Fin 2) (s : State) (h : s.canonical) :
    ansCanonical (execControlChipletRestart cc s) := by
  unfold execControlChipletRestart
  grind [State.canonical, ansCanonical, State.romBoot_mem]

theorem execControlFirmwareUpdate_canonical (stage1 os : List Byte) (s : State) (h : s.canonical) :
    ansCanonical (execControlFirmwareUpdate stage1 os s) := by
  unfold execControlFirmwareUpdate
  grind [State.canonical, ansCanonical, State.setF_mem, State.check_mem, State.claim_mem, State.unclaim_mem,
    State.succeed_canonical, State.reload_mem]

theorem execLinkChipletUpdate_canonical (lc : Fin 10) (obj : List Byte) (lanes : List Nat) (s : State)
    (h : s.canonical) :
    ansCanonical (execLinkChipletUpdate lc obj lanes s) := by
  unfold execLinkChipletUpdate
  grind [State.canonical, ansCanonical, State.setF_mem, State.modPort_mem, State.modFab_mem, State.modSec_mem,
    each_canonical, each_mem, State.updatePorts_mem, State.check_mem, State.extend_mem, State.serve_mem,
    State.serveEnd_mem]

theorem execLaneCalibration_canonical (p : Fin 40) (lane : Fin 9) (s : State) (h : s.canonical) :
    ansCanonical (execLaneCalibration p lane s) := by
  unfold execLaneCalibration
  grind [State.canonical, ansCanonical, State.setF_mem, State.modPort_mem, State.serve_mem, State.serveEnd_mem]

theorem execPortChipletUpdate_canonical (pc : Fin 2) (obj : List Byte) (s : State) (h : s.canonical) :
    ansCanonical (execPortChipletUpdate pc obj s) := by
  unfold execPortChipletUpdate
  grind [State.canonical, ansCanonical, State.modCtl_mem, State.modSec_mem, each_canonical, each_mem,
    State.setPort_mem, State.check_mem, State.extend_mem, State.claim_mem, State.serve_mem, State.serveEnd_mem]

theorem execSensorCalibration_canonical (r : Fin 36) (sensor : Fin 8) (s : State) (h : s.canonical) :
    ansCanonical (execSensorCalibration r sensor s) := by
  unfold execSensorCalibration
  grind [State.canonical, ansCanonical, State.modRegion_mem, State.serve_mem, State.serveEnd_mem]

/-! ### ModuleIf -/

theorem execModRstNAssert_canonical (s : State) (h : s.canonical) : ansCanonical (execModRstNAssert s) := by
  unfold execModRstNAssert
  grind [State.canonical, ansCanonical, State.modModule_mem, State.remove36_canonical]

theorem execModRstNRelease_canonical (s : State) (h : s.canonical) : ansCanonical (execModRstNRelease s) := by
  unfold execModRstNRelease
  grind [State.canonical, ansCanonical, State.modModule_mem, State.powerOn_canonical]

theorem execInputUndervoltage_canonical (s : State) (h : s.canonical) : ansCanonical (execInputUndervoltage s) := by
  unfold execInputUndervoltage
  grind [State.canonical, ansCanonical, State.inputFault_canonical]

theorem execInputOvervoltage_canonical (s : State) (h : s.canonical) : ansCanonical (execInputOvervoltage s) := by
  unfold execInputOvervoltage
  grind [State.canonical, ansCanonical, State.inputFault_canonical]

theorem State.isolate_canonical (s : State) (h : s.canonical) : s.isolate.canonical := by
  unfold State.isolate
  grind [State.canonical, State.remove36_canonical]

theorem execControlUndervoltage_canonical (s : State) (h : s.canonical) :
    ansCanonical (execControlUndervoltage s) := by
  unfold execControlUndervoltage
  grind [State.canonical, ansCanonical, State.isolate_canonical]

theorem execIsolationOvervoltage_canonical (s : State) (h : s.canonical) :
    ansCanonical (execIsolationOvervoltage s) := by
  unfold execIsolationOvervoltage
  grind [State.canonical, ansCanonical, State.isolate_canonical]

theorem execRefclkLoss_canonical (s : State) (h : s.canonical) : ansCanonical (execRefclkLoss s) := by
  unfold execRefclkLoss
  grind [State.canonical, ansCanonical, State.modModule_mem, State.moduleTrip_canonical]

theorem execReadReg_canonical (g : BitVec 8) (i off : BitVec 16) (s : State) (h : s.canonical) :
    ansCanonical (execReadReg g i off s) := by
  unfold execReadReg
  grind [State.canonical, ansCanonical, State.smbus_mem]

theorem execInput_canonical (s : State) (h : s.canonical) : ansCanonical (execInput s) := by
  unfold execInput
  grind [State.canonical, ansCanonical, State.smbus_mem]

theorem execAlertStatus_canonical (s : State) (h : s.canonical) : ansCanonical (execAlertStatus s) := by
  unfold execAlertStatus
  grind [State.canonical, ansCanonical, State.smbus_mem]

theorem execAlertClear_canonical (v : BitVec 16) (s : State) (h : s.canonical) :
    ansCanonical (execAlertClear v s) := by
  unfold execAlertClear
  grind [State.canonical, ansCanonical, State.modModule_mem]

theorem execIdent_canonical (s : State) (h : s.canonical) : ansCanonical (execIdent s) := by
  unfold execIdent
  grind [State.canonical, ansCanonical, State.smbus_mem]

theorem execTapInstruction_canonical (op : TapOp) (pins : List Nat) (s : State) (h : s.canonical) :
    ansCanonical (execTapInstruction op pins s) := by
  unfold execTapInstruction
  grind [State.canonical, ansCanonical, State.modModule_mem]

theorem execTrstNReset_canonical (s : State) (h : s.canonical) : ansCanonical (execTrstNReset s) := by
  unfold execTrstNReset
  grind [State.canonical, ansCanonical, State.modModule_mem]

/-! ### Issue -/

theorem State.issueFault_canonical (s : State) (site op : Nat) (k : SeqFault) (x : Run) (h : s.canonical) :
    (s.issueFault site op k x).canonical := by
  unfold State.issueFault
  grind [State.canonical, State.setCore_mem, State.faultAt_mem, State.faultReport_mem, State.applyEvs_mem,
    State.afterDrain_canonical, State.pump_canonical]

theorem State.issueOk_canonical (s : State) (site : Nat) (x : Run) (h : s.canonical) :
    (s.issueOk site x).canonical := by
  unfold State.issueOk
  grind [State.canonical, State.setCore_mem, State.applyEvs_mem, State.countInstr_mem, State.afterDrain_canonical,
    State.pump_canonical]

theorem issue_canonical (s : State) (site : Nat) (w : IWord) (op : Nat) (k : Run → CoreRes) (h : s.canonical) :
    (issue s site w op k).canonical := by
  unfold issue
  grind [State.canonical, State.issueFault_canonical, State.issueOk_canonical]

theorem execNop_canonical (site : Fin 672) (w : IWord) (s : State)
    (h : s.canonical) : ansCanonical (execNop site w s) :=
  issue_canonical _ _ _ _ _ h

theorem execEnd_canonical (site : Fin 672) (w : IWord) (s : State)
    (h : s.canonical) : ansCanonical (execEnd site w s) :=
  issue_canonical _ _ _ _ _ h

theorem execJmp_canonical (site : Fin 672) (w : IWord) (s : State)
    (h : s.canonical) : ansCanonical (execJmp site w s) :=
  issue_canonical _ _ _ _ _ h

theorem execBr_canonical (site : Fin 672) (w : IWord) (s : State)
    (h : s.canonical) : ansCanonical (execBr site w s) :=
  issue_canonical _ _ _ _ _ h

theorem execLoop_canonical (site : Fin 672) (w : IWord) (s : State)
    (h : s.canonical) : ansCanonical (execLoop site w s) :=
  issue_canonical _ _ _ _ _ h

theorem execCall_canonical (site : Fin 672) (w : IWord) (s : State)
    (h : s.canonical) : ansCanonical (execCall site w s) :=
  issue_canonical _ _ _ _ _ h

theorem execRet_canonical (site : Fin 672) (w : IWord) (s : State)
    (h : s.canonical) : ansCanonical (execRet site w s) :=
  issue_canonical _ _ _ _ _ h

theorem execWait_canonical (site : Fin 672) (w : IWord) (s : State)
    (h : s.canonical) : ansCanonical (execWait site w s) :=
  issue_canonical _ _ _ _ _ h

theorem execFence_canonical (site : Fin 672) (w : IWord) (s : State)
    (h : s.canonical) : ansCanonical (execFence site w s) :=
  issue_canonical _ _ _ _ _ h

theorem execSeti_canonical (site : Fin 672) (w : IWord) (s : State)
    (h : s.canonical) : ansCanonical (execSeti site w s) :=
  issue_canonical _ _ _ _ _ h

theorem execAlu_canonical (site : Fin 672) (w : IWord) (s : State)
    (h : s.canonical) : ansCanonical (execAlu site w s) :=
  issue_canonical _ _ _ _ _ h

theorem execLdg_canonical (site : Fin 672) (w : IWord) (s : State)
    (h : s.canonical) : ansCanonical (execLdg site w s) :=
  issue_canonical _ _ _ _ _ h

theorem execStg_canonical (site : Fin 672) (w : IWord) (s : State)
    (h : s.canonical) : ansCanonical (execStg site w s) :=
  issue_canonical _ _ _ _ _ h

theorem execTwait_canonical (site : Fin 672) (w : IWord) (s : State) (h : s.canonical) :
    ansCanonical (execTwait site w s) := by
  unfold execTwait
  grind [State.canonical, ansCanonical, State.deliverExcess_mem, issue_canonical]

theorem execTmark_canonical (site : Fin 672) (w : IWord) (s : State)
    (h : s.canonical) : ansCanonical (execTmark site w s) :=
  issue_canonical _ _ _ _ _ h

theorem execRmark_canonical (site : Fin 672) (w : IWord) (s : State)
    (h : s.canonical) : ansCanonical (execRmark site w s) :=
  issue_canonical _ _ _ _ _ h

theorem execChkg_canonical (site : Fin 672) (w : IWord) (s : State)
    (h : s.canonical) : ansCanonical (execChkg site w s) :=
  issue_canonical _ _ _ _ _ h

theorem execChset_canonical (site : Fin 672) (w : IWord) (s : State)
    (h : s.canonical) : ansCanonical (execChset site w s) :=
  issue_canonical _ _ _ _ _ h

theorem execMovd_canonical (site : Fin 672) (w : IWord) (s : State)
    (h : s.canonical) : ansCanonical (execMovd site w s) :=
  issue_canonical _ _ _ _ _ h

theorem execMovl_canonical (site : Fin 672) (w : IWord) (s : State)
    (h : s.canonical) : ansCanonical (execMovl site w s) :=
  issue_canonical _ _ _ _ _ h

theorem execMovs_canonical (site : Fin 672) (w : IWord) (s : State)
    (h : s.canonical) : ansCanonical (execMovs site w s) :=
  issue_canonical _ _ _ _ _ h

theorem execMovr_canonical (site : Fin 672) (w : IWord) (s : State)
    (h : s.canonical) : ansCanonical (execMovr site w s) :=
  issue_canonical _ _ _ _ _ h

theorem execSend_canonical (site : Fin 672) (w : IWord) (s : State)
    (h : s.canonical) : ansCanonical (execSend site w s) :=
  issue_canonical _ _ _ _ _ h

theorem execTsig_canonical (site : Fin 672) (w : IWord) (s : State)
    (h : s.canonical) : ansCanonical (execTsig site w s) :=
  issue_canonical _ _ _ _ _ h

theorem execChkeq_canonical (site : Fin 672) (w : IWord) (s : State)
    (h : s.canonical) : ansCanonical (execChkeq site w s) :=
  issue_canonical _ _ _ _ _ h

theorem execWld_canonical (site : Fin 672) (w : IWord) (s : State)
    (h : s.canonical) : ansCanonical (execWld site w s) :=
  issue_canonical _ _ _ _ _ h

theorem execWswp_canonical (site : Fin 672) (w : IWord) (s : State)
    (h : s.canonical) : ansCanonical (execWswp site w s) :=
  issue_canonical _ _ _ _ _ h

theorem State.capture_canonical (s t : State) (site : Nat) (w : IWord) (h : t.canonical) :
    (s.capture t site w).canonical := by
  unfold State.capture
  grind [State.canonical, State.addF_mem, State.orF_mem, State.modCluster_mem, State.memWrite_canonical,
    State.noteRecords_canonical]

theorem execMm_canonical (site : Fin 672) (w : IWord) (s : State) (h : s.canonical) :
    ansCanonical (execMm site w s) := by
  unfold execMm
  grind [State.canonical, ansCanonical, State.setF_mem, issue_canonical, State.capture_canonical]

theorem execAccmrg_canonical (site : Fin 672) (w : IWord) (s : State)
    (h : s.canonical) : ansCanonical (execAccmrg site w s) :=
  issue_canonical _ _ _ _ _ h

theorem execAccpart_canonical (site : Fin 672) (w : IWord) (s : State)
    (h : s.canonical) : ansCanonical (execAccpart site w s) :=
  issue_canonical _ _ _ _ _ h

theorem execAccrnd_canonical (site : Fin 672) (w : IWord) (s : State)
    (h : s.canonical) : ansCanonical (execAccrnd site w s) :=
  issue_canonical _ _ _ _ _ h

theorem execAccclr_canonical (site : Fin 672) (w : IWord) (s : State)
    (h : s.canonical) : ansCanonical (execAccclr site w s) :=
  issue_canonical _ _ _ _ _ h

theorem execChfin_canonical (site : Fin 672) (w : IWord) (s : State)
    (h : s.canonical) : ansCanonical (execChfin site w s) :=
  issue_canonical _ _ _ _ _ h

theorem execVop_canonical (site : Fin 672) (w : IWord) (s : State)
    (h : s.canonical) : ansCanonical (execVop site w s) :=
  issue_canonical _ _ _ _ _ h

theorem execVfn_canonical (site : Fin 672) (w : IWord) (s : State)
    (h : s.canonical) : ansCanonical (execVfn site w s) :=
  issue_canonical _ _ _ _ _ h

theorem execVred_canonical (site : Fin 672) (w : IWord) (s : State)
    (h : s.canonical) : ansCanonical (execVred site w s) :=
  issue_canonical _ _ _ _ _ h

theorem execVacc_canonical (site : Fin 672) (w : IWord) (s : State)
    (h : s.canonical) : ansCanonical (execVacc site w s) :=
  issue_canonical _ _ _ _ _ h

theorem execVcvt_canonical (site : Fin 672) (w : IWord) (s : State)
    (h : s.canonical) : ansCanonical (execVcvt site w s) :=
  issue_canonical _ _ _ _ _ h

theorem execVld_canonical (site : Fin 672) (w : IWord) (s : State)
    (h : s.canonical) : ansCanonical (execVld site w s) :=
  issue_canonical _ _ _ _ _ h

theorem execVst_canonical (site : Fin 672) (w : IWord) (s : State)
    (h : s.canonical) : ansCanonical (execVst site w s) :=
  issue_canonical _ _ _ _ _ h

theorem execQnt_canonical (site : Fin 672) (w : IWord) (s : State)
    (h : s.canonical) : ansCanonical (execQnt site w s) :=
  issue_canonical _ _ _ _ _ h

theorem execSmld_canonical (site : Fin 672) (w : IWord) (s : State)
    (h : s.canonical) : ansCanonical (execSmld site w s) :=
  issue_canonical _ _ _ _ _ h

theorem execSmclr_canonical (site : Fin 672) (w : IWord) (s : State)
    (h : s.canonical) : ansCanonical (execSmclr site w s) :=
  issue_canonical _ _ _ _ _ h

theorem execWaitSatisfied_canonical (site : Fin 672) (s : State) (h : s.canonical) :
    ansCanonical (execWaitSatisfied site s) := by
  unfold execWaitSatisfied
  grind [State.canonical, ansCanonical, State.setCore_mem, State.yieldSlice_mem, State.countInstr_mem]

theorem execTwaitSatisfied_canonical (site : Fin 672) (s : State) (h : s.canonical) :
    ansCanonical (execTwaitSatisfied site s) := by
  unfold execTwaitSatisfied
  grind [State.canonical, ansCanonical, State.setCore_mem, State.deliverExcess_mem, State.yieldSlice_mem,
    State.countInstr_mem]

theorem execWaitLimitExpiry_canonical (site : Fin 672) (cycles : Nat) (s : State) (h : s.canonical) :
    ansCanonical (execWaitLimitExpiry site cycles s) := by
  unfold execWaitLimitExpiry
  grind [State.canonical, ansCanonical, State.seqFault_canonical, State.pump_canonical]

theorem execRouteDataArrival_canonical (n : Nat) (s : State) (h : s.canonical) :
    ansCanonical (execRouteDataArrival n s) := by
  unfold execRouteDataArrival
  grind [State.canonical, ansCanonical, State.modMesh_mem, State.pump_canonical, State.entryFree_canonical]

theorem execTokenArrival_canonical (n : Nat) (s : State) (h : s.canonical) : ansCanonical (execTokenArrival n s) := by
  unfold execTokenArrival
  grind [State.canonical, ansCanonical, State.modMover_mem, State.modMesh_mem, State.deliver_canonical,
    State.dropToken_mem, State.entryFree_canonical]

theorem execWeightLoadComplete_canonical (site : Fin 672) (s : State) (h : s.canonical) :
    ansCanonical (execWeightLoadComplete site s) := by
  unfold execWeightLoadComplete
  grind [State.canonical, ansCanonical, State.setCore_mem]

theorem execPlaneSwap_canonical (site : Fin 672) (waited : Nat) (s : State) (h : s.canonical) :
    ansCanonical (execPlaneSwap site waited s) := by
  unfold execPlaneSwap
  grind [State.canonical, ansCanonical, State.addF_mem, State.setCore_mem]

theorem State.raiseCtr_canonical (s : State) (site u pc opc : Nat) (h : s.canonical) :
    (s.raiseCtr site u pc opc).canonical := by
  unfold State.raiseCtr
  grind [State.canonical, State.setCore_mem, State.seqFault_canonical]

theorem execMmEntrySignal_canonical (site : Fin 672) (s : State) (h : s.canonical) :
    ansCanonical (execMmEntrySignal site s) := by
  unfold execMmEntrySignal
  grind [State.canonical, ansCanonical, State.setCore_mem, State.raiseCtr_canonical]

theorem execInstructionComplete_canonical (site : Fin 672) (u : CUnit) (s : State) (h : s.canonical) :
    ansCanonical (execInstructionComplete site u s) := by
  unfold execInstructionComplete
  grind [State.canonical, ansCanonical, State.setCore_mem, State.afterDrain_canonical, State.pump_canonical,
    State.raiseCtr_canonical]

/-! ### Sparse -/

theorem State.speRead_canonical (s : State) (site a n : Nat) (isLocal : Bool) (h : s.canonical) :
    (s.speRead site a n isLocal).canonical := by
  unfold State.speRead
  grind [State.canonical, SpeIo.canonical, State.flushRange_mem, State.meetPoison_mem]

theorem State.speWrite_canonical (s : State) (site a : Nat) (bs : List Byte) (isLocal : Bool) (h : s.canonical) :
    (s.speWrite site a bs isLocal).canonical := by
  unfold State.speWrite
  grind [State.canonical, State.modCore_mem, State.memWrite_canonical]

theorem execSparseCommandStart_canonical (site : Fin 672) (s : State) (h : s.canonical) :
    ansCanonical (execSparseCommandStart site s) := by
  unfold execSparseCommandStart
  grind [State.canonical, ansCanonical, State.setF_mem, State.setCore_mem, State.reportSite_mem,
    State.deliver_canonical, State.setSpe_mem, State.speFail_mem]

theorem execPack_canonical (site : Fin 672) (s : State) (h : s.canonical) : ansCanonical (execPack site s) := by
  unfold execPack
  grind [State.canonical, ansCanonical, State.speWrite_canonical, State.speFail_mem, State.speRefuse_mem,
    State.speDone_mem, State.speCount_mem, State.speNan_mem]

theorem State.speReads_canonical (s : State) (site a : Nat) (isLocal : Bool) (rngs : List Rng) (h : s.canonical) :
    (s.speReads site a isLocal rngs).canonical := by
  induction rngs generalizing s with
  | nil => exact h
  | cons r rs ih =>
    have hr := State.speRead_canonical s site (a + r.lo) r.len isLocal h
    unfold State.speReads
    grind [SpeIo.canonical]

theorem execUnpack_canonical (site : Fin 672) (s : State) (h : s.canonical) : ansCanonical (execUnpack site s) := by
  unfold execUnpack
  split
  · exact h
  case h_2 c _ =>
    have hfinish (b : Bool) (t : State) (hd : THdr) (bs : List Byte) (kept : List (Nat × Nat)) (st : Nat) :
        (if b then t.unpackAct site c hd bs kept st else t.unpackWgt site c hd bs kept st).mem = t.mem :=
      State.mem_ite (State.unpackAct_mem _ _ _ _ _ _ _) (State.unpackWgt_mem _ _ _ _ _ _ _)
    dsimp only
    generalize (if flag c.block 180 then c.f 151 128 else c.f 179 128) = src
    have h1 := State.speRead_canonical s site src 32 (flag c.block 180) h
    split
    case h_1 => exact State.canonical_of_mem (State.speRefuse_mem _ _ _ _ _) h
    case h_2 t ht =>
      rw [ht] at h1
      exact State.canonical_of_mem (State.clusterReset_mem _ _) h1
    case h_3 t hb ht =>
      rw [ht] at h1
      split
      · exact State.canonical_of_mem ((hfinish _ _ _ _ _ _).trans ((State.reportSite_mem _ _ _ _ _ _ _ _ _).trans
          (State.speCount_mem _ _ _ _ _ _))) h1
      · have h2 := State.speReads_canonical t site src (flag c.block 180) [(THdr.ofBytes hb).mapRng] h1
        split
        case h_1 => exact State.canonical_of_mem (State.speRefuse_mem _ _ _ _ _) h1
        case h_2 u hu =>
          rw [hu] at h2
          exact State.canonical_of_mem (State.clusterReset_mem _ _) h2
        case h_3 u _ hu =>
          rw [hu] at h2
          split
          · exact State.canonical_of_mem ((hfinish _ _ _ _ _ _).trans ((State.reportSite_mem _ _ _ _ _ _ _ _ _).trans
              (State.speCount_mem _ _ _ _ _ _))) h2
          · generalize (THdr.ofBytes hb).payloadRngs _ = rngs
            have h3 := State.speReads_canonical u site src (flag c.block 180) rngs h2
            split
            case h_1 => exact State.canonical_of_mem (State.speRefuse_mem _ _ _ _ _) h2
            case h_2 v hv =>
              rw [hv] at h3
              exact State.canonical_of_mem (State.clusterReset_mem _ _) h3
            case h_3 v _ hv =>
              rw [hv] at h3
              exact State.canonical_of_mem ((hfinish _ _ _ _ _ _).trans
                ((State.speCount_mem _ _ _ _ _ _).trans (State.speCount_mem _ _ _ _ _ _))) h3

theorem execPredict_canonical (site : Fin 672) (s : State) (h : s.canonical) : ansCanonical (execPredict site s) := by
  unfold execPredict
  grind [State.canonical, ansCanonical, State.addF_mem, State.modCore_mem, State.pend_mem, State.speFail_mem,
    State.speRefuse_mem, State.speDone_mem, State.speNan_mem]

theorem execScout_canonical (site : Fin 672) (s : State) (h : s.canonical) : ansCanonical (execScout site s) := by
  unfold execScout
  grind [State.canonical, ansCanonical, State.addF_mem, State.modCore_mem, State.pend_mem, State.speRefuse_mem,
    State.speDone_mem]

theorem State.freeHurt_canonical (s : State) (site : Nat) (c : SpeCmd) (h : s.canonical) :
    (s.freeHurt site c).canonical := by
  unfold State.freeHurt
  grind [State.canonical, State.modCore_mem, each_canonical, each_mem, State.memWrite_canonical]

theorem execSparseCommandComplete_canonical (site : Fin 672) (s : State) (h : s.canonical) :
    ansCanonical (execSparseCommandComplete site s) := by
  unfold execSparseCommandComplete
  grind [State.canonical, ansCanonical, State.setF_mem, State.modCore_mem, State.deliver_canonical,
    State.freeHurt_canonical]
/-! ### Every step -/

/-- Whatever the instruction, canonical memory stays canonical: one lemma per instruction, as `exec` dispatches. -/
theorem exec_canonical (i : Instr) (s : State) (h : s.canonical) : ansCanonical (exec i s) :=
  match i with
  | .nop _ _ => execNop_canonical _ _ _ h
  | .fin _ _ => execEnd_canonical _ _ _ h
  | .jmp _ _ => execJmp_canonical _ _ _ h
  | .br _ _ => execBr_canonical _ _ _ h
  | .loop _ _ => execLoop_canonical _ _ _ h
  | .call _ _ => execCall_canonical _ _ _ h
  | .ret _ _ => execRet_canonical _ _ _ h
  | .wait _ _ => execWait_canonical _ _ _ h
  | .waitSatisfied _ => execWaitSatisfied_canonical _ _ h
  | .fence _ _ => execFence_canonical _ _ _ h
  | .seti _ _ => execSeti_canonical _ _ _ h
  | .alu _ _ => execAlu_canonical _ _ _ h
  | .ldg _ _ => execLdg_canonical _ _ _ h
  | .stg _ _ => execStg_canonical _ _ _ h
  | .movd _ _ => execMovd_canonical _ _ _ h
  | .movl _ _ => execMovl_canonical _ _ _ h
  | .movs _ _ => execMovs_canonical _ _ _ h
  | .movr _ _ => execMovr_canonical _ _ _ h
  | .routeDataArrival _ => execRouteDataArrival_canonical _ _ h
  | .send _ _ => execSend_canonical _ _ _ h
  | .wld _ _ => execWld_canonical _ _ _ h
  | .weightLoadComplete _ => execWeightLoadComplete_canonical _ _ h
  | .wswp _ _ => execWswp_canonical _ _ _ h
  | .planeSwap _ _ => execPlaneSwap_canonical _ _ _ h
  | .mm _ _ => execMm_canonical _ _ _ h
  | .mmEntrySignal _ => execMmEntrySignal_canonical _ _ h
  | .accmrg _ _ => execAccmrg_canonical _ _ _ h
  | .accpart _ _ => execAccpart_canonical _ _ _ h
  | .accrnd _ _ => execAccrnd_canonical _ _ _ h
  | .accclr _ _ => execAccclr_canonical _ _ _ h
  | .chset _ _ => execChset_canonical _ _ _ h
  | .chfin _ _ => execChfin_canonical _ _ _ h
  | .vop _ _ => execVop_canonical _ _ _ h
  | .vfn _ _ => execVfn_canonical _ _ _ h
  | .vred _ _ => execVred_canonical _ _ _ h
  | .vacc _ _ => execVacc_canonical _ _ _ h
  | .vcvt _ _ => execVcvt_canonical _ _ _ h
  | .vld _ _ => execVld_canonical _ _ _ h
  | .vst _ _ => execVst_canonical _ _ _ h
  | .qnt _ _ => execQnt_canonical _ _ _ h
  | .smld _ _ => execSmld_canonical _ _ _ h
  | .smclr _ _ => execSmclr_canonical _ _ _ h
  | .tsig _ _ => execTsig_canonical _ _ _ h
  | .tokenArrival _ => execTokenArrival_canonical _ _ h
  | .twait _ _ => execTwait_canonical _ _ _ h
  | .twaitSatisfied _ => execTwaitSatisfied_canonical _ _ h
  | .waitLimitExpiry _ _ => execWaitLimitExpiry_canonical _ _ _ h
  | .tmark _ _ => execTmark_canonical _ _ _ h
  | .rmark _ _ => execRmark_canonical _ _ _ h
  | .chkeq _ _ => execChkeq_canonical _ _ _ h
  | .chkg _ _ => execChkg_canonical _ _ _ h
  | .instructionComplete _ _ => execInstructionComplete_canonical _ _ _ h
  | .sparseCommandStart _ => execSparseCommandStart_canonical _ _ h
  | .pack _ => execPack_canonical _ _ h
  | .unpack _ => execUnpack_canonical _ _ h
  | .predict _ => execPredict_canonical _ _ h
  | .scout _ => execScout_canonical _ _ h
  | .sparseCommandComplete _ => execSparseCommandComplete_canonical _ _ h
  | .deckLineOperation _ _ _ _ _ _ _ _ _ => execDeckLineOperation_canonical _ _ _ _ _ _ _ _ _ _ h
  | .gatherBufferTimeout _ _ _ => execGatherBufferTimeout_canonical _ _ _ _ h
  | .gatherBufferDrain _ => execGatherBufferDrain_canonical _ _ h
  | .atomicAdd _ _ => execAtomicAdd_canonical _ _ _ h
  | .deckScrub _ _ => execDeckScrub_canonical _ _ _ h
  | .hbmAccess _ _ _ _ _ => execHbmAccess_canonical _ _ _ _ _ _ h
  | .hbmPatrolScrub _ _ => execHbmPatrolScrub_canonical _ _ _ h
  | .hbmRetrainStart _ _ => execHbmRetrainStart_canonical _ _ _ h
  | .hbmRetrainStepEnd _ _ => execHbmRetrainStepEnd_canonical _ _ _ h
  | .hdmDecoderProgram _ => execHdmDecoderProgram_canonical _ _ h
  | .cxlLinkDown _ => execCxlLinkDown_canonical _ _ h
  | .cxlInboundRequest _ _ _ _ _ => execCxlInboundRequest_canonical _ _ _ _ _ _ h
  | .moverCommandStart _ _ => execMoverCommandStart_canonical _ _ _ h
  | .moverCopy _ _ => execMoverCopy_canonical _ _ _ h
  | .moverCopyComplete _ _ => execMoverCopyComplete_canonical _ _ _ h
  | .ctlMoverGo _ => execCtlMoverGo_canonical _ _ h
  | .admission _ => execAdmission_canonical _ _ h
  | .jobPartitionRelease _ => execJobPartitionRelease_canonical _ _ h
  | .launch _ => execLaunch_canonical _ _ h
  | .kernelStart _ => execKernelStart_canonical _ _ h
  | .clTsig _ _ => execClTsig_canonical _ _ _ h
  | .portTraining _ _ _ _ => execPortTraining_canonical _ _ _ _ _ h
  | .lptRetrain _ _ => execLptRetrain_canonical _ _ _ h
  | .laneFailure _ _ _ _ => execLaneFailure_canonical _ _ _ _ _ h
  | .portDown _ => execPortDown_canonical _ _ h
  | .flitReceive _ _ _ _ => execFlitReceive_canonical _ _ _ _ _ h
  | .linkReplay _ => execLinkReplay_canonical _ _ h
  | .ackTimeout _ => execAckTimeout_canonical _ _ h
  | .dataPacketArrival _ _ => execDataPacketArrival_canonical _ _ _ h
  | .landingWriteAccepted _ _ => execLandingWriteAccepted_canonical _ _ _ h
  | .answerArrival _ _ => execAnswerArrival_canonical _ _ _ h
  | .noBufferRetry _ _ => execNoBufferRetry_canonical _ _ _ h
  | .packetTimeout _ _ => execPacketTimeout_canonical _ _ _ h
  | .lifetimeDiscard _ _ => execLifetimeDiscard_canonical _ _ _ h
  | .noticeArrival _ _ => execNoticeArrival_canonical _ _ _ h
  | .noticeRetransmit _ _ => execNoticeRetransmit_canonical _ _ _ h
  | .noticeAckArrival _ _ => execNoticeAckArrival_canonical _ _ _ h
  | .partnerProbe _ => execPartnerProbe_canonical _ _ h
  | .probeAnswer _ => execProbeAnswer_canonical _ _ h
  | .planeJoin _ => execPlaneJoin_canonical _ _ h
  | .planeLeave _ => execPlaneLeave_canonical _ _ h
  | .portSetUpdate _ => execPortSetUpdate_canonical _ _ h
  | .jobTagRequest _ _ _ _ => execJobTagRequest_canonical _ _ _ _ _ h
  | .jobTagRelease _ _ => execJobTagRelease_canonical _ _ _ h
  | .windowOpen _ => execWindowOpen_canonical _ _ h
  | .windowClose _ => execWindowClose_canonical _ _ h
  | .windowCloseComplete => execWindowCloseComplete_canonical _ h
  | .windowNotifyChange _ => execWindowNotifyChange_canonical _ _ h
  | .multicastEntryWrite _ => execMulticastEntryWrite_canonical _ _ h
  | .markCmdMark => execMarkCmdMark_canonical _ h
  | .markArrival => execMarkArrival_canonical _ h
  | .rangeFingerprintRead _ => execRangeFingerprintRead_canonical _ _ h
  | .tallyLatch => execTallyLatch_canonical _ h
  | .tallyContributionArrival => execTallyContributionArrival_canonical _ h
  | .holdReq => execHoldReq_canonical _ h
  | .release => execRelease_canonical _ h
  | .stepGateInput _ _ _ => execStepGateInput_canonical _ _ _ _ h
  | .stepGateDecision _ => execStepGateDecision_canonical _ _ h
  | .gateInputTimeout _ => execGateInputTimeout_canonical _ _ h
  | .gateDecisionTimeout => execGateDecisionTimeout_canonical _ h
  | .twinDigestArrival _ => execTwinDigestArrival_canonical _ _ h
  | .twinReplayComplete _ _ _ => execTwinReplayComplete_canonical _ _ _ _ h
  | .twinDigestTimeout => execTwinDigestTimeout_canonical _ h
  | .planeRejoin _ => execPlaneRejoin_canonical _ _ h
  | .clusterCommit _ => execClusterCommit_canonical _ _ h
  | .errorReport _ => execErrorReport_canonical _ _ h
  | .recordClose _ _ => execRecordClose_canonical _ _ _ h
  | .ringBaseWrite _ => execRingBaseWrite_canonical _ _ h
  | .captureSlotFree _ => execCaptureSlotFree_canonical _ _ h
  | .groupReplay _ => execGroupReplay_canonical _ _ h
  | .residueReplayComplete _ => execResidueReplayComplete_canonical _ _ h
  | .lullSliceStart _ _ _ _ => execLullSliceStart_canonical _ _ _ _ _ h
  | .lullSliceYield _ => execLullSliceYield_canonical _ _ h
  | .heartbeat _ => execHeartbeat_canonical _ _ h
  | .heartbeatTimeout _ => execHeartbeatTimeout_canonical _ _ h
  | .coreSubstitution _ => execCoreSubstitution_canonical _ _ h
  | .clusterPartitionReset _ => execClusterPartitionReset_canonical _ _ h
  | .memoryMarchComplete _ _ => execMemoryMarchComplete_canonical _ _ _ h
  | .jobPartitionReset _ => execJobPartitionReset_canonical _ _ h
  | .referenceSwitch _ _ => execReferenceSwitch_canonical _ _ _ h
  | .referenceLoss _ _ => execReferenceLoss_canonical _ _ _ h
  | .treeClockSet _ => execTreeClockSet_canonical _ _ h
  | .devTimeStep _ => execDevTimeStep_canonical _ _ h
  | .rateWordChange => execRateWordChange_canonical _ h
  | .ptpSyncReceive _ _ _ => execPtpSyncReceive_canonical _ _ _ _ h
  | .ptpOffsetBoundExceeded _ => execPtpOffsetBoundExceeded_canonical _ _ h
  | .ptpSyncLoss => execPtpSyncLoss_canonical _ h
  | .frontArm _ => execFrontArm_canonical _ _ h
  | .frontCancel => execFrontCancel_canonical _ h
  | .frontRampStart => execFrontRampStart_canonical _ h
  | .frontDividerChange _ => execFrontDividerChange_canonical _ _ h
  | .droopStretch _ _ => execDroopStretch_canonical _ _ _ h
  | .paceGroupStart _ => execPaceGroupStart_canonical _ _ h
  | .squallTrigger _ _ => execSquallTrigger_canonical _ _ _ h
  | .squallDecay _ _ => execSquallDecay_canonical _ _ _ h
  | .currentGovernorTick _ _ => execCurrentGovernorTick_canonical _ _ _ h
  | .switchOnRequest _ => execSwitchOnRequest_canonical _ _ h
  | .switchOnRecheck _ => execSwitchOnRecheck_canonical _ _ h
  | .regionRampEnd _ => execRegionRampEnd_canonical _ _ h
  | .regionReady _ => execRegionReady_canonical _ _ h
  | .thermalSample _ _ => execThermalSample_canonical _ _ _ h
  | .thermalPaceTick _ => execThermalPaceTick_canonical _ _ h
  | .heatSwitchOff _ => execHeatSwitchOff_canonical _ _ h
  | .thermalTrip _ => execThermalTrip_canonical _ _ h
  | .phaseFailure _ _ => execPhaseFailure_canonical _ _ _ h
  | .converterFailure _ => execConverterFailure_canonical _ _ h
  | .modulePowerGovernor _ => execModulePowerGovernor_canonical _ _ h
  | .modulePowerTrip _ => execModulePowerTrip_canonical _ _ h
  | .moduleRestart => execModuleRestart_canonical _ h
  | .telemetryInterval _ => execTelemetryInterval_canonical _ _ h
  | .ctrlClaim _ => execCtrlClaim_canonical _ _ h
  | .ctrlRelease _ => execCtrlRelease_canonical _ _ h
  | .failover => execFailover_canonical _ h
  | .journalEntry _ _ _ _ _ => execJournalEntry_canonical _ _ _ _ _ _ h
  | .journalAckTimeout => execJournalAckTimeout_canonical _ h
  | .sealSet _ => execSealSet_canonical _ _ h
  | .expertEnable _ => execExpertEnable_canonical _ _ h
  | .registerWrite _ _ _ _ => execRegisterWrite_canonical _ _ _ _ _ h
  | .mgmtFrameSend _ _ _ => execMgmtFrameSend_canonical _ _ _ _ h
  | .powerArrival => execPowerArrival_canonical _ h
  | .stage1ImageReceive _ _ => execStage1ImageReceive_canonical _ _ _ h
  | .ptpWaitTimeout => execPtpWaitTimeout_canonical _ h
  | .devTimeRebase _ => execDevTimeRebase_canonical _ _ h
  | .computePowerUp => execComputePowerUp_canonical _ h
  | .cruise _ => execCruise_canonical _ _ h
  | .blazeMapRevision => execBlazeMapRevision_canonical _ h
  | .firmwareBroadcast _ _ => execFirmwareBroadcast_canonical _ _ _ h
  | .installLicence => execInstallLicence_canonical _ h
  | .attest => execAttest_canonical _ h
  | .extendMeas => execExtendMeas_canonical _ h
  | .signBlazeMap => execSignBlazeMap_canonical _ h
  | .raiseSvnFloor => execRaiseSvnFloor_canonical _ h
  | .licenceExpiry _ => execLicenceExpiry_canonical _ _ h
  | .clusterFirmwareUpdate _ _ => execClusterFirmwareUpdate_canonical _ _ _ h
  | .controlFirmwareUpdate _ _ => execControlFirmwareUpdate_canonical _ _ _ h
  | .linkChipletUpdate _ _ _ => execLinkChipletUpdate_canonical _ _ _ _ h
  | .laneCalibration _ _ => execLaneCalibration_canonical _ _ _ h
  | .portChipletUpdate _ _ => execPortChipletUpdate_canonical _ _ _ h
  | .sensorCalibration _ _ => execSensorCalibration_canonical _ _ _ h
  | .modRstNAssert => execModRstNAssert_canonical _ h
  | .modRstNRelease => execModRstNRelease_canonical _ h
  | .inputUndervoltage => execInputUndervoltage_canonical _ h
  | .inputOvervoltage => execInputOvervoltage_canonical _ h
  | .controlUndervoltage => execControlUndervoltage_canonical _ h
  | .isolationOvervoltage => execIsolationOvervoltage_canonical _ h
  | .refclkLoss => execRefclkLoss_canonical _ h
  | .readReg _ _ _ => execReadReg_canonical _ _ _ _ h
  | .inputRead => execInput_canonical _ h
  | .alertStatus => execAlertStatus_canonical _ h
  | .alertClear _ => execAlertClear_canonical _ _ h
  | .ident => execIdent_canonical _ h
  | .tapInstruction _ _ => execTapInstruction_canonical _ _ _ h
  | .trstNReset => execTrstNReset_canonical _ h
  | .cxlLinkUp _ _ _ _ => execCxlLinkUp_canonical _ _ _ _ _ h
  | .managementPortDown _ => execManagementPortDown_canonical _ _ h
  | .controlChipletRestart _ => execControlChipletRestart_canonical _ _ h
  | .sequencerParityError _ => execSequencerParityError_canonical _ _ h

/-- Settles O58: a tick leaves the memory, and every command keeps it canonical. -/
theorem stepKeepsCanonicalMemory : Obligations.StepKeepsCanonicalMemory := by
  unfold Obligations.StepKeepsCanonicalMemory
  intro s t h hstep
  have hs : ansCanonical (step s) := by
    unfold step
    split
    · exact State.canonical_of_mem (State.tick_mem s) h
    · exact exec_canonical _ _ h
  rw [hstep] at hs
  exact hs
end Sys2Proof.Machine
end

section
/-! Proofs. Admission and release (R217, R220, R221, R235, R237): where storage is placed, what binding a partition leaves in
its clusters' registers, and what its release takes back. -/

namespace Sys2Proof.Machine

/-! ### Places in storage (R221, R235) -/

theorem dvd_ceilTo (m a : Nat) : m ∣ ceilTo m a := ⟨ceilDiv a m, Nat.mul_comm _ _⟩

/-- The place that is found is aligned, ends below the top and meets no range in use. -/
theorem firstFit_spec {used : List (Nat × Nat)} {step top n b : Nat} (h : firstFit used step top n = some b) :
    step ∣ b ∧ b + n ≤ top ∧ ∀ u ∈ used, b + n ≤ u.1 ∨ u.1 + u.2 ≤ b := by
  obtain ⟨hmem, hgood⟩ := List.mem_filter.1 (List.min?_mem h)
  obtain ⟨x, -, rfl⟩ := List.mem_map.1 hmem
  simp only [Bool.and_eq_true, decide_eq_true_eq, List.all_eq_true, Bool.or_eq_true] at hgood
  exact ⟨dvd_ceilTo _ _, hgood⟩

/-- The places of a list of regions of one space: aligned, below the top, apart from what is in use and from each other. -/
structure Placed (top : Nat) (used : List (Nat × Nat)) (rs : List PRegion) (bases : List Nat) : Prop where
  length : bases.length = rs.length
  fits : ∀ (i : Nat) (r : PRegion) (b : Nat), rs[i]? = some r → bases[i]? = some b → b % 12288 = 0 ∧ b + r.size ≤ top ∧
    ∀ u ∈ used, b + roundUnit 0 r.size ≤ u.1 ∨ u.1 + u.2 ≤ b
  apart : ∀ (i j : Nat) (r q : PRegion) (b c : Nat), i < j → rs[i]? = some r → rs[j]? = some q → bases[i]? = some b →
    bases[j]? = some c → b + roundUnit 0 r.size ≤ c ∨ c + roundUnit 0 q.size ≤ b

theorem Placed.cons {top : Nat} {used : List (Nat × Nat)} {rs : List PRegion} {bases : List Nat} {r : PRegion} {b : Nat}
    (hb : b % 12288 = 0) (htop : b + roundUnit 0 r.size ≤ top)
    (hused : ∀ u ∈ used, b + roundUnit 0 r.size ≤ u.1 ∨ u.1 + u.2 ≤ b)
    (h : Placed top ((b, roundUnit 0 r.size) :: used) rs bases) : Placed top used (r :: rs) (b :: bases) where
  length := congrArg (· + 1) h.length
  fits := by
    intro i r' b' hr hb'
    cases i with
    | zero =>
      cases hr
      cases hb'
      exact ⟨hb, le_trans (Nat.add_le_add_left (le_ceilTo _ (by decide)) _) htop, hused⟩
    | succ i =>
      obtain ⟨hmod, htop', hapart⟩ := h.fits i r' b' hr hb'
      exact ⟨hmod, htop', fun u hu => hapart u (List.mem_cons_of_mem _ hu)⟩
  apart := by
    intro i j r' q b' c hij hr hq hb' hc
    obtain ⟨j, rfl⟩ : ∃ k, j = k + 1 := ⟨j - 1, by omega⟩
    cases i with
    | zero =>
      cases hr
      cases hb'
      obtain ⟨-, -, hapart⟩ := h.fits j q c hq hc
      exact (hapart _ (List.mem_cons_self ..)).symm
    | succ i => exact h.apart i j r' q b' c (by omega) hr hq hb' hc

theorem placed_of_placeRegions {top : Nat} {used : List (Nat × Nat)} {rs : List PRegion} {bases : List Nat}
    (hsp : ∀ r ∈ rs, r.space = 0) (h : placeRegions 0 top used rs = some bases) : Placed top used rs bases := by
  induction rs generalizing used bases with
  | nil =>
    cases h
    exact ⟨rfl, by simp, by simp⟩
  | cons r rs ih =>
    unfold placeRegions at h
    rw [if_neg (by simp [hsp r (List.mem_cons_self ..)])] at h
    dsimp only at h
    split at h
    · contradiction
    · next b hfit =>
      obtain ⟨hdvd, htop, hused⟩ := firstFit_spec hfit
      obtain ⟨rest, hrest, rfl⟩ := Option.map_eq_some_iff.1 h
      have hb : spaceBase 0 + b = b := Nat.zero_add b
      have hmod : b % 12288 = 0 := Nat.mod_eq_zero_of_dvd (Nat.dvd_trans (Nat.dvd_lcm_left _ _) hdvd)
      rw [hb]
      exact Placed.cons hmod htop hused (ih (fun q hq => hsp q (List.mem_cons_of_mem _ hq)) hrest)

/-! ### What admission binds (R220, R235, R237) -/

theorem each_frame_of_mem {α β : Type} (part : State → β) (l : List α) (s : State) (f : State → α → State)
    (h : ∀ s, ∀ a ∈ l, part (f s a) = part s) : part (each l s f) = part s := by
  induction l generalizing s with
  | nil => rfl
  | cons a l ih => exact (ih (f s a) fun s b hb => h s b (List.mem_cons_of_mem _ hb)).trans (h s a (List.mem_cons_self ..))

theorem each_jobs {α : Type} (l : List α) (s : State) (f : State → α → State) (h : ∀ s a, (f s a).jobs = s.jobs) :
    (each l s f).jobs = s.jobs := each_frame State.jobs _ _ _ h

@[simp] theorem State.bindCl_jobs (s : State) (c : Nat) (j : Option (Nat × Nat)) : (s.bindCl c j).jobs = s.jobs := by
  unfold State.bindCl
  split <;> rfl

@[simp] theorem State.writeCl_jobs (s : State) (f : Fld) (c v : Nat) : (s.writeCl f c v).jobs = s.jobs := by
  unfold State.writeCl
  dsimp only
  split <;> rfl

@[simp] theorem State.writeFences_jobs (s : State) (j : Job) (i c : Nat) : (s.writeFences j i c).jobs = s.jobs :=
  each_jobs _ _ _ fun s n => by
    dsimp only
    split
    · simp
    · split <;> simp

@[simp] theorem State.writeRoute_jobs (s : State) (c n dir site peer peerRoute share buf : Nat) :
    (s.writeRoute c n dir site peer peerRoute share buf).jobs = s.jobs := by
  simp [State.writeRoute]

@[simp] theorem State.writeRoutes_jobs (s : State) (j : Job) : (s.writeRoutes j).jobs = s.jobs :=
  each_jobs _ _ _ fun s r => by split <;> simp

@[simp] theorem State.writeLists_jobs (s : State) (j : Job) : (s.writeLists j).jobs = s.jobs :=
  each_jobs _ _ _ fun s p => by split <;> simp

@[simp] theorem State.placeKernel_jobs (s : State) (j : Job) (k : KImage) : (s.placeKernel j k).jobs = s.jobs := by
  unfold State.placeKernel
  split <;> simp

@[simp] theorem State.writeWindows_jobs (s : State) (j : Job) : (s.writeWindows j).jobs = s.jobs :=
  each_jobs _ _ _ fun _ _ => rfl

@[simp] theorem State.writeTally_jobs (s : State) (j : Job) (id : Nat) : (s.writeTally j id).jobs = s.jobs := by
  unfold State.writeTally
  grind [each_jobs, State.setF_jobs]

/-- A cluster is bound as logical cluster i of a partition. -/
def State.bindLogical (s : State) (id : Nat) (p : Nat × Nat) : State :=
  ((s.modCluster p.1 fun _ => {}).setF R.CL.REPLAY_STATUS.STATE p.1 0).bindCl p.1 (some (id, p.2))

/-- What binding does before the clusters themselves are bound. -/
def State.bindStorage (s : State) (j : Job) (id : Nat) : State :=
  let s := each j.clusters.zipIdx (s.setJob id (some j)) fun s (p : Nat × Nat) => s.writeFences j p.2 p.1
  let s := ((s.writeRoutes j).writeLists j).writeTally j id
  (each j.prog.kernels s fun s k => s.placeKernel j k).writeWindows j

theorem State.bindJob_eq (s : State) (j : Job) (id : Nat) :
    s.bindJob j id = each j.clusters.zipIdx (s.bindStorage j id) fun s p => s.bindLogical id p := rfl

theorem State.bindJob_job (s : State) (j : Job) (id : Nat) : (s.bindJob j id).job id = some j := by
  have hjobs : (s.bindJob j id).jobs = (s.setJob id (some j)).jobs := by
    rw [State.bindJob_eq, each_jobs _ _ _ fun s p => by simp [State.bindLogical]]
    unfold State.bindStorage
    simp only [State.writeWindows_jobs, each_jobs _ _ _ fun s k => State.placeKernel_jobs s j k, State.writeTally_jobs,
      State.writeLists_jobs, State.writeRoutes_jobs, each_jobs _ _ _ fun s (p : Nat × Nat) => State.writeFences_jobs s j p.2 p.1]
  unfold State.job
  rw [hjobs]
  exact (Tab.get_set ..).trans (if_pos rfl)

/-- The registers that show a cluster's partition. -/
def jobFields : List Fld := [R.CL.JOB.ACTIVE, R.CL.JOB.JOB_ID, R.CL.JOB.LOGICAL]

theorem Fld.key_ne_of_inst (f : Fld) {i j : Nat} (h : i ≠ j) : f.key i ≠ f.key j := by
  unfold Fld.key
  omega

theorem State.getF_bindCl (s : State) (c id i : Nat) (f : Fld) (d : Nat) : (s.bindCl c (some (id, i))).getF f d =
    (((s.setF R.CL.JOB.JOB_ID c id).setF R.CL.JOB.LOGICAL c i).setF R.CL.JOB.ACTIVE c 1).getF f d := rfl

/-- Binding a cluster leaves what the others show. -/
theorem State.bindLogical_getF_other (s : State) (id : Nat) (p : Nat × Nat) {c : Nat} (h : c ≠ p.1) {f : Fld} (hf : f ∈ jobFields) :
    (s.bindLogical id p).getF f c = s.getF f c := by
  have hstate : f.key c ≠ R.CL.REPLAY_STATUS.STATE.key p.1 := by
    refine Fld.key_ne_of_low ?_ _ _
    simp only [jobFields, List.mem_cons, List.not_mem_nil, or_false] at hf
    rcases hf with rfl | rfl | rfl <;> decide
  have hother {g : Fld} (hg : g ∈ jobFields) : f.key c ≠ g.key p.1 := by
    simp only [jobFields, List.mem_cons, List.not_mem_nil, or_false] at hf hg
    rcases hf with rfl | rfl | rfl <;> rcases hg with rfl | rfl | rfl <;>
      simp only [Fld.key, R.CL.JOB.ACTIVE, R.CL.JOB.JOB_ID, R.CL.JOB.LOGICAL] <;> omega
  rw [State.bindLogical, State.getF_bindCl, State.getF_setF_ne _ _ _ _ _ _ (hother (by simp [jobFields])),
    State.getF_setF_ne _ _ _ _ _ _ (hother (by simp [jobFields])),
    State.getF_setF_ne _ _ _ _ _ _ (hother (by simp [jobFields])), State.getF_setF_ne _ _ _ _ _ _ hstate]
  rfl

/-- A cluster shows a partition's id and its logical number. -/
structure State.ShowsJob (s : State) (id : Nat) (p : Nat × Nat) : Prop where
  active : s.getF R.CL.JOB.ACTIVE p.1 = 1
  jobId : s.getF R.CL.JOB.JOB_ID p.1 = id
  logical : s.getF R.CL.JOB.LOGICAL p.1 = p.2

theorem State.bindLogical_shows (s : State) {id : Nat} {p : Nat × Nat} (hid : id < 256) (hp : p.2 < 32) :
    (s.bindLogical id p).ShowsJob id p := by
  unfold State.bindLogical
  refine ⟨?_, ?_, ?_⟩
  · rw [State.getF_bindCl, State.getF_setF_same]
    rfl
  · rw [State.getF_bindCl, State.getF_setF_ne _ _ _ _ _ _ (Fld.key_ne_of_low (by decide) _ _),
      State.getF_setF_ne _ _ _ _ _ _ (Fld.key_ne_of_low (by decide) _ _), State.getF_setF_same]
    exact Nat.mod_eq_of_lt hid
  · rw [State.getF_bindCl, State.getF_setF_ne _ _ _ _ _ _ (Fld.key_ne_of_low (by decide) _ _), State.getF_setF_same]
    exact Nat.mod_eq_of_lt hp

/-- Clusters bound one after the other each show their partition, where none is bound twice. -/
theorem each_bindLogical_shows {id : Nat} (hid : id < 256) (l : List (Nat × Nat)) (hl : (l.map Prod.fst).Nodup)
    (hn : ∀ p ∈ l, p.2 < 32) (s : State) (done : List (Nat × Nat)) (hdone : ∀ p ∈ done, p.1 ∉ l.map Prod.fst ∧ s.ShowsJob id p) :
    ∀ p ∈ done ++ l, (each l s fun s p => s.bindLogical id p).ShowsJob id p := by
  induction l generalizing s done with
  | nil =>
    intro p hp
    rw [List.append_nil] at hp
    exact (hdone p hp).2
  | cons q l ih =>
    rw [List.map_cons, List.nodup_cons] at hl
    have hstep := ih hl.2 (fun p hp => hn p (List.mem_cons_of_mem _ hp)) (s.bindLogical id q) (done ++ [q]) fun p hp => by
      rcases List.mem_append.1 hp with hp | hp
      · obtain ⟨hout, hshow⟩ := hdone p hp
        rw [List.map_cons, List.mem_cons, not_or] at hout
        have hkeep {f : Fld} (hf : f ∈ jobFields) := s.bindLogical_getF_other id q hout.1 hf
        exact ⟨hout.2, ⟨(hkeep (by simp [jobFields])).trans hshow.active, (hkeep (by simp [jobFields])).trans hshow.jobId,
          (hkeep (by simp [jobFields])).trans hshow.logical⟩⟩
      · rw [List.mem_singleton] at hp
        subst hp
        exact ⟨hl.1, s.bindLogical_shows hid (hn p (List.mem_cons_self ..))⟩
    rwa [List.append_assoc] at hstep

theorem State.bindJob_shows (s : State) (j : Job) {id : Nat} (hid : id < 256) (hnodup : j.clusters.Nodup)
    (hlen : j.clusters.length ≤ 32) {i c : Nat} (hc : j.clusters[i]? = some c) : (s.bindJob j id).ShowsJob id (c, i) := by
  rw [State.bindJob_eq]
  refine each_bindLogical_shows hid j.clusters.zipIdx ?_ (fun p hp => ?_) _ [] (by simp) (c, i) ?_
  · rwa [List.zipIdx_map_fst]
  · have := List.snd_lt_of_mem_zipIdx hp
    omega
  · simpa [List.mem_zipIdx_iff_getElem?] using hc

/-- The checks pass only where enough clusters are free (code 4). -/
theorem State.nclusters_le_of_admCheck {s : State} {p : Program} {cl : List Nat} (h : s.admCheck p cl = none) :
    p.nclusters ≤ s.freeClusters.length := by
  simp only [State.admCheck, State.fileCheck, Option.orElse_eq_none] at h
  obtain ⟨⟨-, -, -, -, hfree, -⟩, -⟩ := h
  by_contra hlt
  rw [if_pos (by omega)] at hfree
  contradiction

theorem State.lt_of_mem_freeClusters {s : State} {c : Nat} (h : c ∈ s.freeClusters) : c < 24 :=
  List.mem_range.1 (List.mem_filter.1 h).1

theorem State.nodup_freeClusters (s : State) : s.freeClusters.Nodup := List.nodup_range.filter _

/-- A binding names as many free clusters as the program wants, each once. -/
theorem State.binding_spec {s : State} {p : Program} {cl : List Nat} (h : cl ∈ s.bindings p)
    (hn : p.nclusters ≤ s.freeClusters.length) : cl.length = p.nclusters ∧ cl.Nodup ∧ ∀ c ∈ cl, c ∈ s.freeClusters := by
  unfold State.bindings at h
  dsimp only at h
  rcases List.mem_append.1 h with h | h
  · split at h
    · next hpref =>
      rw [List.mem_singleton] at h
      subst h
      simp only [Bool.and_eq_true, decide_eq_true_eq, List.all_eq_true, List.contains_iff_mem] at hpref
      obtain ⟨⟨hlen, hnodup⟩, hfree⟩ := hpref
      exact ⟨hlen, hnodup, hfree⟩
    · contradiction
  · rw [List.mem_singleton] at h
    subst h
    exact ⟨by rw [List.length_take]; omega, s.nodup_freeClusters.sublist (List.take_sublist _ _), fun c hc => List.mem_of_mem_take hc⟩

theorem length_le_of_nodup_of_lt {l : List Nat} {n : Nat} (h : l.Nodup) (hl : ∀ c ∈ l, c < n) : l.length ≤ n := by
  have hsub := (List.subperm_of_subset h fun c hc => List.mem_range.2 (hl c hc)).length_le
  rwa [List.length_range] at hsub

/-- The lowest free job partition. -/
theorem State.find_freeJob {s : State} {id : Nat} (hid : id < 256) (hfree : s.job id = none) (hlow : ∀ k, k < id → s.job k ≠ none) :
    (List.range 256).find? (fun k => (s.job k).isNone) = some id :=
  List.find?_range_eq_some.2 ⟨by rw [hfree]; rfl, List.mem_range.2 hid, fun k hk => by
    rw [Option.not_isNone]
    exact Option.isSome_iff_ne_none.2 (hlow k hk)⟩

theorem exec_admission {s : State} {p : Program} {cl : List Nat} {id : Nat} (hon : s.module_.v36 = true) (hhold : s.ctl.holdAdm = false)
    (hidle : s.module_.idle = false) (hlead : s.leaderless = false)
    (hfind : (s.applyWindow.bindings p).find? (fun cl => (s.applyWindow.admCheck p cl).isNone) = some cl)
    (hjob : (List.range 256).find? (fun k => (s.applyWindow.job k).isNone) = some id) :
    exec (.admission p) s =
      .next ((s.applyWindow.bindJob (s.applyWindow.makeJob p cl) id).admRecord { code := 0, unit := id }) := by
  show execAdmission p s = _
  unfold execAdmission
  dsimp only
  rw [if_neg (by simp [hon, hhold, hidle, hlead]), hfind, hjob]
  rfl

/-! ### Release (R217, R237) -/

/-- Only landing windows differ. -/
def State.besideWindows (s : State) : State := { s with fab := { s.fab with windows := [] } }

theorem State.closeWindow_besideWindows (s : State) (w : Nat) : (s.closeWindow w).besideWindows = s.besideWindows := by
  unfold State.closeWindow
  split
  · rfl
  · split <;> rfl

theorem each_closeWindow_besideWindows (l : List Nat) (s : State) :
    (each l s State.closeWindow).besideWindows = s.besideWindows :=
  each_frame State.besideWindows _ _ _ State.closeWindow_besideWindows

theorem State.landing_of_besideWindows {s t : State} (h : t.besideWindows = s.besideWindows) (w : Nat) : t.landing w = s.landing w :=
  (congrArg (State.landing · w) h :)

/-- A close leaves a window closed, closing, or as it was. -/
theorem State.closeWindow_st (s : State) (w v : Nat) : ((s.closeWindow w).window v).st =
    if v = w then (if (s.window w).st = 0 then 0 else if s.landing w then 2 else 0) else (s.window v).st := by
  unfold State.closeWindow
  by_cases hst : (s.window w).st = 0
  · rw [if_pos hst, if_pos hst]
    split
    · next hv => rw [hv, hst]
    · rfl
  · rw [if_neg hst, if_neg hst]
    by_cases hland : s.landing w = true
    · rw [if_pos hland, if_pos hland, State.window_modWindow]
      split <;> rfl
    · rw [if_neg hland, if_neg hland, State.window_modWindow]
      split <;> rfl

/-- A window in which packets land does not close. -/
theorem each_closeWindow_open (l : List Nat) (s : State) {w : Nat} (hst : (s.window w).st ≠ 0) (hland : s.landing w = true) :
    ((each l s State.closeWindow).window w).st ≠ 0 := by
  induction l generalizing s with
  | nil => exact hst
  | cons v l ih =>
    refine ih (s.closeWindow v) ?_ ((State.landing_of_besideWindows (s.closeWindow_besideWindows v) w).trans hland)
    rw [State.closeWindow_st]
    split
    · next hv => rw [← hv, if_neg hst, if_pos hland]; decide
    · exact hst

/-- Where nothing lands, the closes leave every window of theirs closed. -/
theorem each_closeWindow_closed (l : List Nat) (s : State) {w : Nat} (hw : (s.window w).st = 0 ∨ (s.landing w = false ∧ w ∈ l)) :
    ((each l s State.closeWindow).window w).st = 0 := by
  induction l generalizing s with
  | nil => exact hw.elim id fun h => absurd h.2 List.not_mem_nil
  | cons v l ih =>
    refine ih (s.closeWindow v) ?_
    rw [State.closeWindow_st, State.landing_of_besideWindows (s.closeWindow_besideWindows v) w]
    rcases hw with hw | ⟨hland, hmem⟩
    · left
      split
      · next hv => rw [← hv, if_pos hw]
      · exact hw
    · by_cases hv : w = v
      · left
        rw [if_pos hv, ← hv, hland]
        simp
      · rw [if_neg hv]
        exact Or.inr ⟨hland, (List.mem_cons.1 hmem).resolve_left hv⟩

/-- What release takes from one cluster. -/
def State.freeCluster (s : State) (c : Nat) : State :=
  let s := s.bindCl c none
  let s := each (List.range 64) s fun s n => s.writeCl (R.CL.ROUTE_LOn.VALID.at 8 n) c 0
  let s := each (List.range 4) s fun s n => s.writeCl (R.CL.MOVER_LISTn.VALID.at 4 n) c 0
  let s := each (List.range 8) s fun s n => s.writeCl (R.CL.FENCE_LOn.VALID.at 8 n) c 0
  let s := s.modMesh fun m => { m with noShare := m.noShare.filter fun k => k / 64 != c }
  s.setF (R.LWT.CL_TAGn.JOB_TAG.at 4 c) 0 0

/-- What release takes back once the clusters are free. -/
def State.freeRest (s : State) (id : Nat) (j : Job) : State :=
  let s := each j.trips s fun s n => s.setF (R.TLY.TW_CTLn.EN.at 8 n) 0 0
  let s := s.modTally fun t => { t with armed := t.armed.filter fun n => !j.trips.contains n }
  let mine := decide (s.getF R.TLY.MARK_CTL.JOB_ID 0 = id) && (j.prog.marker.isSome || j.prog.markControl)
  let s := if mine then s.setF R.TLY.MARK_CTL.SOURCE 0 0 else s
  let s := each (List.range 16) s fun s n =>
    if j.sets.contains (s.getF (R.TLY.RANGE_CTLn.CSET.at 32 n) 0) || mine then s.setF (R.TLY.RANGE_CTLn.EN.at 32 n) 0 0 else s
  let s := each j.groups s fun s g => s.modFab fun f => { f with mcast := Tab.set {} f.mcast g {} }
  s.setJob id none

theorem State.freeJob_eq (s : State) (id : Nat) (j : Job) : s.freeJob id j = (each j.clusters s State.freeCluster).freeRest id j := rfl

/-- The part of a state that a release leaves: the cores and the landing windows. -/
def State.coresWindows (s : State) : Tab CoreSite × Tab Window := (s.cores, s.fab.windows)

theorem State.bindCl_coresWindows (s : State) (c : Nat) (j : Option (Nat × Nat)) : (s.bindCl c j).coresWindows = s.coresWindows := by
  unfold State.bindCl
  split <;> rfl

theorem State.writeCl_coresWindows (s : State) (f : Fld) (c v : Nat) : (s.writeCl f c v).coresWindows = s.coresWindows := by
  unfold State.writeCl
  dsimp only
  split <;> rfl

theorem State.freeCluster_coresWindows (s : State) (c : Nat) : (s.freeCluster c).coresWindows = s.coresWindows := by
  have hwrites (f : Nat → Fld) (n : Nat) (s : State) :
      (each (List.range n) s fun s k => s.writeCl (f k) c 0).coresWindows = s.coresWindows :=
    each_frame State.coresWindows _ _ _ fun s k => s.writeCl_coresWindows _ _ _
  exact (hwrites (R.CL.FENCE_LOn.VALID.at 8) 8 _).trans ((hwrites (R.CL.MOVER_LISTn.VALID.at 4) 4 _).trans
    ((hwrites (R.CL.ROUTE_LOn.VALID.at 8) 64 _).trans (s.bindCl_coresWindows c none)))

theorem State.freeRest_coresWindows (s : State) (id : Nat) (j : Job) : (s.freeRest id j).coresWindows = s.coresWindows := by
  have htrips (l : List Nat) (s : State) :
      (each l s fun s n => s.setF (R.TLY.TW_CTLn.EN.at 8 n) 0 0).coresWindows = s.coresWindows :=
    each_frame State.coresWindows _ _ _ fun _ _ => rfl
  have hgroups (l : List Nat) (s : State) :
      (each l s fun s g => s.modFab fun f => { f with mcast := Tab.set {} f.mcast g {} }).coresWindows = s.coresWindows :=
    each_frame State.coresWindows _ _ _ fun _ _ => rfl
  have hranges (p : State → Nat → Bool) (s : State) : (each (List.range 16) s fun s n =>
      if p s n then s.setF (R.TLY.RANGE_CTLn.EN.at 32 n) 0 0 else s).coresWindows = s.coresWindows :=
    each_frame State.coresWindows _ _ _ fun s n => by split <;> rfl
  have hmark (b : Bool) (s : State) : (if b then s.setF R.TLY.MARK_CTL.SOURCE 0 0 else s).coresWindows = s.coresWindows := by
    split <;> rfl
  exact (hgroups _ _).trans ((hranges _ _).trans ((hmark _ _).trans (htrips j.trips s)))

theorem State.freeJob_coresWindows (s : State) (id : Nat) (j : Job) : (s.freeJob id j).coresWindows = s.coresWindows := by
  rw [State.freeJob_eq, State.freeRest_coresWindows]
  exact each_frame State.coresWindows _ _ _ State.freeCluster_coresWindows

/-- The register that shows a cluster bound lies below the pages that a release also writes. -/
theorem active_key_ne {g : Fld} (hg : 1 < g.page) {c : Nat} (hc : c < 24) (i : Nat) : R.CL.JOB.ACTIVE.key c ≠ g.key i :=
  Nat.ne_of_lt (Fld.key_lt_of_page_lt hg (by omega) (by decide) (by decide) i)

theorem State.getF_writeCl_ne (s : State) {f g : Fld} {c d : Nat} (v : Nat) (h : g.key d ≠ f.key c) :
    (s.writeCl f c v).getF g d = s.getF g d := by
  refine Eq.trans ?_ (State.getF_setF_ne s f g c d v h)
  unfold State.writeCl
  dsimp only
  split <;> rfl

/-- Taking back one cluster clears what it shows, and leaves what the others show. -/
theorem State.freeCluster_active (s : State) (c : Nat) {d : Nat} (hd : d < 24) :
    (s.freeCluster c).getF R.CL.JOB.ACTIVE d = if d = c then 0 else s.getF R.CL.JOB.ACTIVE d := by
  have hwrites (f : Nat → Fld) (n : Nat) (hf : ∀ k, k < n → R.CL.JOB.ACTIVE.key d ≠ (f k).key c) (s : State) :
      (each (List.range n) s fun s k => s.writeCl (f k) c 0).getF R.CL.JOB.ACTIVE d = s.getF R.CL.JOB.ACTIVE d :=
    each_frame_of_mem (State.getF · R.CL.JOB.ACTIVE d) _ _ _ fun s k hk => s.getF_writeCl_ne 0 (hf k (List.mem_range.1 hk))
  have hbind : (s.bindCl c none).getF R.CL.JOB.ACTIVE d = if d = c then 0 else s.getF R.CL.JOB.ACTIVE d := by
    show (s.setF R.CL.JOB.ACTIVE c 0).getF R.CL.JOB.ACTIVE d = _
    split
    · next h => rw [h, State.getF_setF_same]; rfl
    · next h => exact State.getF_setF_ne _ _ _ _ _ _ (Fld.key_ne_of_inst _ h)
  refine (State.getF_setF_ne _ _ _ _ _ _ (active_key_ne (show 1 < 12 by decide) hd _)).trans ?_
  refine (hwrites (R.CL.FENCE_LOn.VALID.at 8) 8 (fun k hk => ?_) _).trans ((hwrites (R.CL.MOVER_LISTn.VALID.at 4) 4 (fun k hk => ?_) _).trans
    ((hwrites (R.CL.ROUTE_LOn.VALID.at 8) 64 (fun k hk => ?_) _).trans hbind))
  all_goals
    simp only [Fld.key, Fld.at, R.CL.JOB.ACTIVE, R.CL.FENCE_LOn.VALID, R.CL.MOVER_LISTn.VALID, R.CL.ROUTE_LOn.VALID]
    omega

theorem each_freeCluster_active (l : List Nat) (s : State) {d : Nat} (hd : d < 24)
    (h : d ∈ l ∨ s.getF R.CL.JOB.ACTIVE d = 0) : (each l s State.freeCluster).getF R.CL.JOB.ACTIVE d = 0 := by
  induction l generalizing s with
  | nil => exact h.elim (fun h => absurd h List.not_mem_nil) id
  | cons c l ih =>
    refine ih (s.freeCluster c) ?_
    rw [s.freeCluster_active c hd]
    by_cases hdc : d = c
    · exact Or.inr (if_pos hdc)
    · rw [if_neg hdc]
      exact h.imp_left fun h => (List.mem_cons.1 h).resolve_left hdc

theorem State.freeRest_active (s : State) (id : Nat) (j : Job) {d : Nat} (hd : d < 24) :
    (s.freeRest id j).getF R.CL.JOB.ACTIVE d = s.getF R.CL.JOB.ACTIVE d := by
  have hset (f : Fld) (hf : 1 < f.page) (v : Nat) (s : State) : (s.setF f 0 v).getF R.CL.JOB.ACTIVE d = s.getF R.CL.JOB.ACTIVE d :=
    State.getF_setF_ne _ _ _ _ _ _ (active_key_ne hf hd _)
  have htrips (l : List Nat) (s : State) :
      (each l s fun s n => s.setF (R.TLY.TW_CTLn.EN.at 8 n) 0 0).getF R.CL.JOB.ACTIVE d = s.getF R.CL.JOB.ACTIVE d :=
    each_frame (State.getF · R.CL.JOB.ACTIVE d) _ _ _ fun _ _ => hset _ (show 1 < 10 by decide) _ _
  have hgroups (l : List Nat) (s : State) : (each l s fun s g => s.modFab fun f =>
      { f with mcast := Tab.set {} f.mcast g {} }).getF R.CL.JOB.ACTIVE d = s.getF R.CL.JOB.ACTIVE d :=
    each_frame (State.getF · R.CL.JOB.ACTIVE d) _ _ _ fun _ _ => rfl
  have hranges (p : State → Nat → Bool) (s : State) : (each (List.range 16) s fun s n =>
      if p s n then s.setF (R.TLY.RANGE_CTLn.EN.at 32 n) 0 0 else s).getF R.CL.JOB.ACTIVE d = s.getF R.CL.JOB.ACTIVE d :=
    each_frame (State.getF · R.CL.JOB.ACTIVE d) _ _ _ fun s n => by
      split
      · exact hset _ (show 1 < 10 by decide) _ _
      · rfl
  have hmark (b : Bool) (s : State) :
      (if b then s.setF R.TLY.MARK_CTL.SOURCE 0 0 else s).getF R.CL.JOB.ACTIVE d = s.getF R.CL.JOB.ACTIVE d := by
    split
    · exact hset _ (show 1 < 10 by decide) _ _
    · rfl
  exact (hgroups _ _).trans ((hranges _ _).trans ((hmark _ _).trans (htrips j.trips s)))

theorem State.freeJob_job (s : State) (id : Nat) (j : Job) : (s.freeJob id j).job id = none :=
  (Tab.get_set ..).trans (if_pos rfl)

/-- A partition that waits for its release. -/
def State.releasing (s : State) (id : Nat) (j : Job) : State := s.setJob id (some { j with releasing := true })

theorem State.releasing_job (s : State) (id : Nat) (j : Job) : (s.releasing id j).job id = some { j with releasing := true } :=
  (Tab.get_set ..).trans (if_pos rfl)

/-- What release makes of a partition that no kernel keeps busy. -/
theorem exec_jobPartitionRelease {s : State} {job : Fin 256} {j : Job} (hjob : s.job job = some j) :
    exec (.jobPartitionRelease job) s =
      let u := each j.windows (s.releasing job j) State.closeWindow
      .next (if s.jobBusy j then s.releasing job j else if j.windows.any fun w => (u.window w).st != 0 then u else u.freeJob job j) := by
  show execJobPartitionRelease job s = _
  unfold execJobPartitionRelease
  rw [hjob]
  dsimp only
  split
  · next hb => exact (congrArg Host.Outcome.next (if_pos hb)).symm
  · next hb => exact (congrArg Host.Outcome.next (if_neg hb)).symm

/-- Settles O26: binding by the last registers it writes, places by the lowest fit, release by its windows and clusters. -/
theorem admissionBindsClusters : Obligations.AdmissionBindsClusters := by
  unfold Obligations.AdmissionBindsClusters
  refine ⟨fun s p cl id hon hhold hidle hlead => ?_, fun used top rs bases hsp h => ?_, fun s job j hjob hcl _ => ?_⟩
  · intro t hfind hid hfree hlow
    have hcheck := List.find?_some hfind
    rw [Option.isNone_iff_eq_none] at hcheck
    have hn := State.nclusters_le_of_admCheck hcheck
    obtain ⟨hlen, hnodup, hmem⟩ := State.binding_spec (List.mem_of_find?_eq_some hfind) hn
    have hcount := length_le_of_nodup_of_lt hnodup fun c hc => State.lt_of_mem_freeClusters (hmem c hc)
    refine ⟨_, exec_admission hon hhold hidle hlead hfind (State.find_freeJob hid hfree hlow), t.bindJob_job _ _, rfl, hlen,
      fun i c hc => ?_⟩
    obtain ⟨hactive, hjobId, hlogical⟩ := t.bindJob_shows (t.makeJob p cl) hid hnodup (by show cl.length ≤ 32; omega) hc
    exact ⟨hactive, hjobId, hlogical⟩
  · obtain ⟨hlen, hfits, hapart⟩ := placed_of_placeRegions hsp h
    refine ⟨hlen, hfits, fun i j r q b c hij hr hq hb hc => ?_⟩
    rcases Nat.lt_or_gt_of_ne hij with hij | hij
    · exact hapart i j r q b c hij hr hq hb hc
    · exact (hapart j i q r c b hij hq hr hc hb).symm
  · have hexec := exec_jobPartitionRelease hjob
    dsimp only at hexec
    have hbeside := each_closeWindow_besideWindows j.windows (s.releasing job j)
    refine ⟨fun hbusy => ?_, fun hbusy hland => ?_, fun hbusy hquiet => ?_⟩
    · rw [hexec, if_pos hbusy]
      rfl
    · obtain ⟨w, hw, hst, hland⟩ := hland
      have hopen := each_closeWindow_open j.windows (s.releasing job j) (w := w) hst hland
      rw [hbusy, if_neg Bool.false_ne_true, if_pos (List.any_eq_true.2 ⟨w, hw, by simpa using hopen⟩)] at hexec
      refine ⟨_, hexec, ?_, (congrArg State.regs hbeside :), (congrArg State.mem hbeside :),
        (congrArg State.cores hbeside :)⟩
      exact (congrArg (State.job · job) hbeside).trans (s.releasing_job job j)
    · have hclosed (w : Nat) (hw : w ∈ j.windows) := each_closeWindow_closed j.windows (s.releasing job j)
        ((hquiet w hw).imp_right fun h => ⟨h, hw⟩)
      rw [hbusy, if_neg Bool.false_ne_true, if_neg (by simpa using hclosed)] at hexec
      generalize each j.windows (s.releasing job j) State.closeWindow = u at hexec hbeside hclosed
      have hparts := u.freeJob_coresWindows job j
      refine ⟨_, hexec, u.freeJob_job job j, (u.freeJob_mem job j).trans (congrArg State.mem hbeside :),
        (congrArg Prod.fst hparts :).trans (congrArg State.cores hbeside :), fun w hw => ?_, fun c hc => ?_⟩
      · rw [State.window, show (u.freeJob job j).fab.windows = u.fab.windows from congrArg Prod.snd hparts]
        exact hclosed w hw
      · rw [State.freeJob_eq, State.freeRest_active _ _ _ (hcl c hc)]
        exact each_freeCluster_active _ _ (hcl c hc) (Or.inl hc)

end Sys2Proof.Machine
end

section
/-! Proofs. Deaths and partition resets (R198, R311, R312, R314): the records of an error, the outage of a site, the replay that
a group waits for, and the march. -/

namespace Sys2Proof.Machine

/-! ### Records of errors (R293, R296 to R298) -/

/-- The class, code and unit of every report so far. -/
def State.reportKeys (s : State) : List (Nat × Nat × Nat) := s.errs.reports.map fun r => (r.cls, r.code, r.unit)

/-- Reports only come. -/
def State.reportsGrow (s t : State) : Prop := ∃ l, t.reportKeys = s.reportKeys ++ l

theorem State.reportsGrow_of_keys {s t : State} (h : t.reportKeys = s.reportKeys) : s.reportsGrow t :=
  ⟨[], by rw [h, List.append_nil]⟩

theorem State.reportKeys_of_errs {s t : State} (h : t.errs = s.errs) : t.reportKeys = s.reportKeys := by
  unfold State.reportKeys
  rw [h]

theorem State.reportsGrow.trans {s t u : State} (h : s.reportsGrow t) (h' : t.reportsGrow u) : s.reportsGrow u := by
  obtain ⟨l, hl⟩ := h
  obtain ⟨k, hk⟩ := h'
  exact ⟨l ++ k, by rw [hk, hl, List.append_assoc]⟩

theorem State.report_keys (s : State) (r : Report) : (s.report r).reportKeys = s.reportKeys ++ [(r.cls, r.code, r.unit)] := by
  show List.map _ (s.errs.reports ++ [_]) = _
  rw [List.map_append]
  rfl

theorem State.reportsGrow_report (s : State) (r : Report) : s.reportsGrow (s.report r) := ⟨_, s.report_keys r⟩

/-- Where reports only come after a first one, it heads the new ones. -/
theorem State.newReports_of_grow {s t u : State} {k : Nat × Nat × Nat} (h : t.reportKeys = s.reportKeys ++ [k]) (hu : t.reportsGrow u) :
    ∃ l, s.newReports u = k :: l := by
  obtain ⟨l, hl⟩ := hu
  refine ⟨l, ?_⟩
  have hlen : s.errs.reports.length = s.reportKeys.length := (List.length_map _).symm
  unfold State.newReports
  rw [List.map_drop, hlen]
  show (u.reportKeys).drop _ = _
  rw [hl, h, List.append_assoc, List.drop_left]
  rfl

/-- A byte that no record of the ring holds. -/
def State.offRing (s : State) (b : Nat) : Prop := s.ringOn = true → ∀ i, i < 0x40000 → s.canon (s.ringAt 0 + i) ≠ b

theorem ErrRec.length_bytes (e : ErrRec) : e.bytes.length = 64 := by
  unfold ErrRec.bytes
  simp only [List.length_append, length_natLE]

/-- A record's place in the ring lies in the reserved region. -/
theorem State.ringAt_reserved {s : State} (h : s.ringOn = true) (q : Nat) : inReserved (s.ringAt q) 64 = true := by
  unfold State.ringOn ringOk at h
  rw [Bool.and_eq_true, inReserved_iff] at h
  rw [inReserved_iff]
  unfold State.ringAt
  omega

/-- The ring's records stand by the ring's registers alone, in turn over its 4,096 places. -/
theorem State.ringAt_of_regs {s t : State} (h : t.regs = s.regs) (q : Nat) : t.ringAt q = s.ringAt 0 + 64 * (q % 4096) := by
  have hbase : t.getF R.ERR.RING_BASE.BASE 24 = s.getF R.ERR.RING_BASE.BASE 24 := by unfold State.getF; rw [h]
  unfold State.ringAt
  rw [hbase, Nat.zero_mod, Nat.mul_zero, Nat.add_zero]

theorem State.ringOn_of_regs {s t : State} (h : t.regs = s.regs) : t.ringOn = s.ringOn := by
  unfold State.ringOn State.getF
  rw [h]

/-- A record written to the ring touches no byte off it. -/
theorem State.ringWrite_spec {s t : State} (h : t.beside = s.beside) (e : ErrRec) : (t.ringWrite e).beside = s.beside ∧
    ∀ b, s.offRing b → Tab.get 0 (t.ringWrite e).mem b = Tab.get 0 t.mem b := by
  have hregs := State.regs_of_beside h
  unfold State.ringWrite
  split
  · next q _ =>
    split
    · next hon =>
      have hres : inReserved (t.ringAt q) e.bytes.length = true := by
        rw [e.length_bytes]
        exact State.ringAt_reserved hon q
      have hon' : s.ringOn = true := by
        rw [← hon]
        exact (State.ringOn_of_regs hregs).symm
      have hbase := State.ringAt_of_regs hregs q
      refine ⟨(State.memWrite_beside (t.linksUp_reserved hres) _).trans h, fun b hb => ?_⟩
      refine t.get_memWrite_outside _ _ _ fun i hi => ?_
      rw [e.length_bytes] at hi
      rw [State.canon_of_beside h, hbase, Nat.add_assoc]
      exact hb hon' _ (by omega)
    · exact ⟨h, fun _ _ => rfl⟩
  · exact ⟨h, fun _ _ => rfl⟩

theorem each_ringWrite_spec (f : ErrRec → ErrRec) (l : List ErrRec) {s t : State} (h : t.beside = s.beside) :
    (each l t fun s e => s.ringWrite (f e)).beside = s.beside ∧
    ∀ b, s.offRing b → Tab.get 0 (each l t fun s e => s.ringWrite (f e)).mem b = Tab.get 0 t.mem b := by
  induction l generalizing t with
  | nil => exact ⟨h, fun _ _ => rfl⟩
  | cons e l ih =>
    obtain ⟨hbeside, hget⟩ := State.ringWrite_spec h (f e)
    obtain ⟨hrest, hrestGet⟩ := ih hbeside
    exact ⟨hrest, fun b hb => (hrestGet b hb).trans (hget b hb)⟩

/-- All but memory, what serves it, the records and the blaze map. -/
def State.besideRecords (s : State) : State := { s.beside with errs := {}, sec := {} }

theorem State.besideRecords_of_beside {s t : State} (h : t.beside = s.beside) : t.besideRecords = s.besideRecords :=
  congrArg (fun x : State => { x with errs := {}, sec := {} }) h

/-- What the records of an error leave: all beside them, and every byte off the ring; reports only come. -/
structure State.Recorded (s t : State) : Prop where
  beside : t.besideRecords = s.besideRecords
  ring : s.ringBut t
  grow : s.reportsGrow t

theorem State.offRing_of_besideRecords {s t : State} (h : t.besideRecords = s.besideRecords) (b : Nat) :
    t.offRing b ↔ s.offRing b := by
  show t.besideRecords.offRing b ↔ s.besideRecords.offRing b
  rw [h]

theorem State.recorded_refl (s : State) : s.Recorded s := ⟨rfl, fun _ _ => rfl, State.reportsGrow_of_keys rfl⟩

theorem State.Recorded.trans {s t u : State} (h : s.Recorded t) (h' : t.Recorded u) : s.Recorded u where
  beside := h'.beside.trans h.beside
  ring := fun b hb => (h'.ring b ((State.offRing_of_besideRecords h.beside b).2 hb)).trans (h.ring b hb)
  grow := h.grow.trans h'.grow

theorem State.recorded_report (s : State) (r : Report) : s.Recorded (s.report r) := ⟨rfl, fun _ _ => rfl, s.reportsGrow_report r⟩

theorem State.recorded_modSec (s : State) (f : Security → Security) : s.Recorded (s.modSec f) :=
  ⟨rfl, fun _ _ => rfl, State.reportsGrow_of_keys rfl⟩

theorem State.recorded_modErrs (s : State) {f : Errors → Errors} (h : (f s.errs).reports = s.errs.reports) :
    s.Recorded (s.modErrs f) :=
  ⟨rfl, fun _ _ => rfl, State.reportsGrow_of_keys (congrArg (List.map fun r : Report => (r.cls, r.code, r.unit)) h)⟩

theorem State.recorded_ringWrites (s : State) (l : List ErrRec) (f : ErrRec → ErrRec) :
    s.Recorded (each l s fun s e => s.ringWrite (f e)) := by
  obtain ⟨hbeside, hget⟩ := each_ringWrite_spec f l (s := s) rfl
  refine ⟨State.besideRecords_of_beside hbeside, hget, State.reportsGrow_of_keys ?_⟩
  have hreports : (each l s fun s e => s.ringWrite (f e)).errs.reports = s.errs.reports := by rw [State.errs_of_beside hbeside]
  exact congrArg (List.map fun r : Report => (r.cls, r.code, r.unit)) hreports

theorem State.recorded_noteRecords (s : State) (p : ErrRec → Bool) (f : ErrRec → ErrRec) : s.Recorded (s.noteRecords p f) := by
  unfold State.noteRecords
  dsimp only
  exact State.Recorded.trans (s.recorded_modErrs rfl) (State.recorded_ringWrites _ _ f)

theorem State.recorded_flagRecords (s : State) (p : Report → Bool) (bits : Nat) : s.Recorded (s.flagRecords p bits) := by
  unfold State.flagRecords
  dsimp only
  refine (s.recorded_noteRecords _ _).trans ⟨rfl, fun _ _ => rfl, State.reportsGrow_of_keys ?_⟩
  show List.map _ (List.map _ _) = List.map _ _
  rw [List.map_map]
  refine List.map_congr_left fun r _ => ?_
  dsimp only [Function.comp_apply]
  split <;> rfl

theorem State.recorded_quarantineSite (s : State) (site : Nat) : s.Recorded (s.quarantineSite site) := by
  unfold State.quarantineSite
  split
  · exact s.recorded_refl
  · exact ((s.recorded_modSec _).trans ((State.recorded_modSec _ _).trans (State.recorded_report _ _))).trans
      (State.recorded_flagRecords _ _ _)

theorem State.recorded_quarTrigger (s : State) (site : Nat) : s.Recorded (s.quarTrigger site) := by
  unfold State.quarTrigger
  split
  · exact s.recorded_quarantineSite site
  · exact s.recorded_report _

/-- A state that differs from another neither in memory nor in what places the ring keeps the bytes off the same ring. -/
theorem State.ringBut.of_same {s t u : State} (hmem : t.mem = s.mem) (hbase : t.getF R.ERR.RING_BASE.BASE 24 = s.getF R.ERR.RING_BASE.BASE 24)
    (hhbm : t.hbm = s.hbm) (h : t.ringBut u) : s.ringBut u := by
  intro b hb
  rw [← hmem]
  refine h b fun hon i hi => ?_
  unfold State.ringOn at hon hb
  unfold State.ringAt at hb ⊢
  rw [hbase] at hon ⊢
  rw [State.canon_congr hhbm]
  exact hb hon i hi

/-! ### The replay that a group waits for (R315) -/

/-- A core site but for the count at which its replay ends. -/
def CoreSite.noGoal (x : CoreSite) : CoreSite := { x with goal := 0 }

theorem CoreSite.eq_of_noGoal {x y : CoreSite} (h : y.noGoal = x.noGoal) : y = { x with goal := y.goal } :=
  congrArg (fun z : CoreSite => { z with goal := y.goal }) h

theorem State.mem_groupOf (s : State) (c : Nat) : c ∈ s.groupOf c := by
  unfold State.groupOf
  split
  · exact List.mem_singleton_self c
  · split
    · exact List.mem_singleton_self c
    · split
      · exact List.mem_singleton_self c
      · next b _ i hi =>
        obtain ⟨hlt, hget, -⟩ := List.findIdx?_eq_some_iff_getElem.1 hi
        refine List.mem_filterMap.2 ⟨i, List.mem_filter.2 ⟨List.mem_range.2 hlt, beq_self_eq_true _⟩, ?_⟩
        rw [List.getElem?_eq_getElem hlt, eq_of_beq hget]

/-- The count at which the replay of a live site ends. -/
def State.setGoal (s : State) (i : Nat) : State :=
  let n := s.getF R.CORE.INSTR_CNT.COUNT i
  s.modCore i fun x => { x with goal := n - x.mark0 }

/-- One cluster of the group comes to wait for r. -/
def State.setWant (r : Recovery) (s : State) (c : Nat) : State :=
  (s.modCluster c fun x => { x with want := some (r.after x.want) }).setF R.CL.REPLAY_STATUS.STATE c 1

theorem State.wantReplay_eq (s : State) (c : Nat) (r : Recovery) : s.wantReplay c r = if (s.cluster c).stopped then s else
    each (s.groupOf c) (each (s.liveSites (s.groupOf c)) s State.setGoal) (State.setWant r) := rfl

/-- What neither step of the wish for a replay changes, the wish leaves. -/
theorem State.wantReplay_frame {β : Type} (part : State → β) (s : State) (c : Nat) (r : Recovery)
    (hgoal : ∀ t i, part (State.setGoal t i) = part t) (hwant : ∀ t d, part (State.setWant r t d) = part t) :
    part (s.wantReplay c r) = part s := by
  rw [State.wantReplay_eq]
  split
  · rfl
  · exact (each_frame part _ _ _ hwant).trans (each_frame part _ _ _ hgoal)

/-- All but the cores, the clusters and the registers. -/
def State.besideWant (s : State) : State := { s with cores := [], clusters := [], regs := [] }

theorem State.wantReplay_besideWant (s : State) (c : Nat) (r : Recovery) : (s.wantReplay c r).besideWant = s.besideWant :=
  State.wantReplay_frame State.besideWant s c r (fun _ _ => rfl) fun _ _ => rfl

theorem State.wantReplay_noGoal (s : State) (c : Nat) (r : Recovery) (i : Nat) :
    ((s.wantReplay c r).core i).noGoal = (s.core i).noGoal := by
  refine State.wantReplay_frame (fun t => (t.core i).noGoal) s c r (fun t k => ?_) fun _ _ => rfl
  rw [State.setGoal, State.core_modCore]
  split
  · next h =>
    rw [h]
    rfl
  · rfl

theorem State.setWant_cluster (s : State) (r : Recovery) (c d : Nat) : (s.setWant r c).cluster d =
    if d = c then { s.cluster c with want := some (r.after (s.cluster c).want) } else s.cluster d :=
  State.cluster_modCluster s c d fun x => { x with want := some (r.after x.want) }

theorem State.wantReplay_march (s : State) (c : Nat) (r : Recovery) (i : Nat) :
    ((s.wantReplay c r).cluster i).march = (s.cluster i).march := by
  refine State.wantReplay_frame (fun t => (t.cluster i).march) s c r (fun _ _ => rfl) fun t k => ?_
  rw [State.setWant_cluster]
  split
  · next h => rw [h]
  · rfl

/-- The wish for a replay changes no register but REPLAY_STATUS.STATE. -/
theorem State.getF_wantReplay (s : State) (c : Nat) (r : Recovery) {f : Fld} (h : ∀ i j, f.key i ≠ R.CL.REPLAY_STATUS.STATE.key j) (i : Nat) :
    (s.wantReplay c r).getF f i = s.getF f i :=
  State.wantReplay_frame (fun t => t.getF f i) s c r (fun _ _ => rfl) fun _ k => State.getF_setF_ne _ _ _ _ _ _ (h i k)

/-- A cluster that waits for the replay r, and shows so. -/
def State.Wants (s : State) (r : Recovery) (c : Nat) : Prop :=
  (s.cluster c).want = some r ∧ s.getF R.CL.REPLAY_STATUS.STATE c = 1

theorem Recovery.after_self (r : Recovery) : r.after (some r) = r := by
  unfold Recovery.after
  dsimp only
  rw [Bool.and_not_self, if_neg Bool.false_ne_true]

theorem State.setWant_wants {s : State} {r : Recovery} {c : Nat} (h : (s.cluster c).want = none ∨ (s.cluster c).want = some r) :
    (s.setWant r c).Wants r c := by
  refine ⟨?_, State.getF_setF_same _ _ _ _⟩
  rw [State.setWant_cluster, if_pos rfl]
  obtain h | h := h
  · rw [h]
    rfl
  · rw [h, Recovery.after_self]

theorem State.setWant_cluster_ne (s : State) (r : Recovery) {c d : Nat} (h : d ≠ c) : (s.setWant r c).cluster d = s.cluster d := by
  rw [State.setWant_cluster, if_neg h]

theorem State.Wants.setWant {s : State} {r : Recovery} {c : Nat} (h : s.Wants r c) (d : Nat) : (s.setWant r d).Wants r c := by
  obtain rfl | hne := eq_or_ne c d
  · exact State.setWant_wants (.inr h.1)
  · refine ⟨(congrArg Cluster.want (s.setWant_cluster_ne r hne)).trans h.1, ?_⟩
    exact (State.getF_setF_ne _ _ _ _ _ _ (Fld.key_ne_of_inst _ hne)).trans h.2

theorem State.each_setWant (l : List Nat) (s : State) (r : Recovery) {c : Nat} (h : s.Wants r c ∨ (s.cluster c).want = none ∧ c ∈ l) :
    (each l s (State.setWant r)).Wants r c := by
  induction l generalizing s with
  | nil => exact h.elim id fun h => absurd h.2 List.not_mem_nil
  | cons d l ih =>
    refine ih (s.setWant r d) ?_
    obtain h | ⟨hnone, hmem⟩ := h
    · exact .inl (h.setWant d)
    · obtain rfl | hne := eq_or_ne c d
      · exact .inl (State.setWant_wants (.inl hnone))
      · exact .inr ⟨(congrArg Cluster.want (s.setWant_cluster_ne r hne)).trans hnone, (List.mem_cons.1 hmem).resolve_left hne⟩

theorem State.wantReplay_wants {s : State} {c : Nat} (r : Recovery) (hstop : (s.cluster c).stopped = false)
    (hwant : (s.cluster c).want = none) : (s.wantReplay c r).Wants r c := by
  rw [State.wantReplay_eq, hstop, if_neg Bool.false_ne_true]
  refine State.each_setWant _ _ r (.inr ⟨?_, s.mem_groupOf c⟩)
  have hsame := each_frame State.clusters (s.liveSites (s.groupOf c)) s State.setGoal fun _ _ => rfl
  unfold State.cluster at hwant ⊢
  rw [hsame, hwant]

/-! ### A site dies (R311, R312) -/

/-- The report of a site's death. -/
def State.deathReport (s : State) (site : Nat) : Report :=
  { cls := 8, code := 1, dev := s.devId, unit := wholeUnit 2 site, repo := monitorUnit (clusterOf site), seq := (s.launchTag site).1,
    lcore := (s.launchTag site).2, pc := (s.core site).pc, detail := s.recDetail (clusterOf site) 0 false }

/-- The site's death is reported; its lull slice yields. -/
def State.markDead (s : State) (site : Nat) : State :=
  ((s.report (s.deathReport site)).yieldSlice site).modCore site fun x => { x with dead := true }

/-- The site goes out of service. -/
def State.takeOut (s : State) (site : Nat) : State :=
  if s.siteState site < 2 then
    (s.quarTrigger site).modSec fun x => { x with blaze := { x.blaze with sites := Tab.set 1 x.blaze.sites site 3 } }
  else s

theorem State.siteDies_eq {s : State} {site : Nat} (since : Nat) (h : (s.core site).dead = false) :
    s.siteDies site since = let t := (s.markDead site).takeOut site
      if (t.siteJob site).isSome then t.wantReplay (clusterOf site) { since := since, kind := 1, site := some site } else t := by
  unfold State.siteDies
  rw [h, if_neg Bool.false_ne_true]
  rfl

theorem State.siteDies_dead {s : State} {site : Nat} (since : Nat) (h : (s.core site).dead = true) : s.siteDies site since = s :=
  if_pos h

/-- All but the cores, the registers and the records. -/
def State.besideDeath (s : State) : State := { s with cores := [], regs := [], errs := {} }

theorem State.yieldSlice_besideDeath (s : State) (site : Nat) : (s.yieldSlice site).besideDeath = s.besideDeath := by
  unfold State.yieldSlice
  split <;> rfl

theorem State.markDead_besideDeath (s : State) (site : Nat) : (s.markDead site).besideDeath = s.besideDeath :=
  State.yieldSlice_besideDeath _ site

theorem State.yieldSlice_errs (s : State) (site : Nat) : (s.yieldSlice site).errs = s.errs := by
  unfold State.yieldSlice
  split <;> rfl

theorem State.markDead_keys (s : State) (site : Nat) : (s.markDead site).reportKeys = s.reportKeys ++ [(8, 1, wholeUnit 2 site)] :=
  (State.reportKeys_of_errs (State.yieldSlice_errs (s.report (s.deathReport site)) site)).trans (s.report_keys _)

theorem State.getF_yieldSlice (s : State) (site : Nat) {f : Fld} (h : ∀ i j, f.key i ≠ R.CL.LULL_STATUS.ACTIVE.key j) (i : Nat) :
    (s.yieldSlice site).getF f i = s.getF f i := by
  unfold State.yieldSlice
  split
  · rfl
  · exact State.getF_setF_ne _ _ _ _ _ _ (h i _)

theorem State.getF_markDead (s : State) (site : Nat) {f : Fld} (h : ∀ i j, f.key i ≠ R.CL.LULL_STATUS.ACTIVE.key j) (i : Nat) :
    (s.markDead site).getF f i = s.getF f i :=
  State.getF_yieldSlice _ site h i

theorem State.core_yieldSlice_ne (s : State) {site i : Nat} (h : i ≠ site) : (s.yieldSlice site).core i = s.core i := by
  unfold State.yieldSlice
  split
  · rfl
  · next l _ =>
    exact (State.core_modCore s site i fun c => { c.putLull l.array l.saved with lull := none }).trans (if_neg h)

theorem State.core_markDead_ne (s : State) {site i : Nat} (h : i ≠ site) : (s.markDead site).core i = s.core i :=
  ((State.core_modCore _ _ _ _).trans (if_neg h)).trans (State.core_yieldSlice_ne _ h)

theorem State.core_markDead_same (s : State) (site : Nat) :
    ((s.markDead site).core site).dead = true ∧ ((s.core site).lull = none → (s.markDead site).core site = { s.core site with dead := true }) := by
  have hcore (x : State) : (x.modCore site fun c => { c with dead := true }).core site = { x.core site with dead := true } := by
    rw [State.core_modCore, if_pos rfl]
  refine ⟨congrArg CoreSite.dead (hcore _), fun h => (hcore _).trans ?_⟩
  have hyield := State.yieldSlice_none (s := s.report (s.deathReport site)) (site := site) h
  exact congrArg (fun x : State => { x.core site with dead := true }) hyield

theorem State.takeOut_recorded (s : State) (site : Nat) : s.Recorded (s.takeOut site) := by
  unfold State.takeOut
  split
  · exact (s.recorded_quarTrigger site).trans (State.recorded_modSec _ _)
  · exact s.recorded_refl

theorem State.takeOut_siteState (s : State) (site : Nat) : 2 ≤ (s.takeOut site).siteState site := by
  unfold State.takeOut
  split
  · show 2 ≤ Tab.get 1 (Tab.set 1 _ site 3) site
    rw [Tab.get_set, if_pos rfl]
    decide
  · omega

/-- A wish for a replay adds no record, changes no byte and takes no site out. -/
theorem State.wantReplay_recorded (s : State) (c : Nat) (r : Recovery) :
    (s.wantReplay c r).mem = s.mem ∧ (s.wantReplay c r).errs = s.errs ∧ (s.wantReplay c r).sec = s.sec := by
  have h := s.wantReplay_besideWant c r
  exact ⟨(congrArg State.mem h :), (congrArg State.errs h :), (congrArg State.sec h :)⟩

/-- What a site's death does, whether or not its group is to be replayed. -/
structure State.Dies (s t : State) (site since : Nat) : Prop where
  reports : ∃ l, s.newReports t = (8, 1, wholeUnit 2 site) :: l
  ring : s.ringBut t
  out : 2 ≤ t.siteState site
  dead : (t.core site).dead = true
  core : (s.core site).lull = none → (t.core site).noGoal = { s.core site with dead := true }.noGoal
  others : ∀ i, i ≠ site → (t.core i).noGoal = (s.core i).noGoal
  march : ∀ i, (t.cluster i).march = (s.cluster i).march
  want : (s.siteJob site).isSome = true → (s.cluster (clusterOf site)).stopped = false → (s.cluster (clusterOf site)).want = none →
    t.Wants { since := since, kind := 1, site := some site } (clusterOf site)

theorem State.siteJob_of_besideDeath {s t : State} (h : t.besideDeath = s.besideDeath) (site : Nat) : t.siteJob site = s.siteJob site := by
  have heff : t.eff = s.eff := (congrArg State.eff h :)
  have hjobs : t.jobs = s.jobs := (congrArg State.jobs h :)
  unfold State.siteJob State.jobOf State.job State.effF
  rw [heff, hjobs]

theorem State.siteDies_dies {s : State} {site : Nat} (since : Nat) (h : (s.core site).dead = false) :
    s.Dies (s.siteDies site since) site since := by
  rw [State.siteDies_eq since h]
  have hmark := s.markDead_besideDeath site
  have hkeys := s.markDead_keys site
  have hbase := s.getF_markDead site (f := R.ERR.RING_BASE.BASE) (Fld.key_ne_of_low (by decide)) 24
  have hsame := s.core_markDead_same site
  have hother := fun i => s.core_markDead_ne (site := site) (i := i)
  generalize s.markDead site = m at *
  have hrec := m.takeOut_recorded site
  have hout := m.takeOut_siteState site
  generalize m.takeOut site = u at *
  have hnew : ∃ l, s.newReports u = (8, 1, wholeUnit 2 site) :: l := State.newReports_of_grow hkeys hrec.grow
  have hring : s.ringBut u := by
    have hmem : m.mem = s.mem := (congrArg State.mem hmark :)
    have hhbm : m.hbm = s.hbm := (congrArg State.hbm hmark :)
    exact State.ringBut.of_same hmem hbase hhbm hrec.ring
  have hcore (i : Nat) : u.core i = m.core i := (congrArg (fun x : State => x.core i) hrec.beside :)
  have hcluster (i : Nat) : u.cluster i = s.cluster i := by
    have hu : u.cluster i = m.cluster i := (congrArg (fun x : State => x.cluster i) hrec.beside :)
    exact hu.trans (congrArg (fun x : State => x.cluster i) hmark :)
  have hjob : u.siteJob site = s.siteJob site := by
    have hu : u.siteJob site = m.siteJob site := (congrArg (fun x : State => x.siteJob site) hrec.beside :)
    exact hu.trans (State.siteJob_of_besideDeath hmark site)
  dsimp only
  rw [hjob]
  split
  · next hsome =>
    obtain ⟨hmem, herrs, hsec⟩ := u.wantReplay_recorded (clusterOf site) { since := since, kind := 1, site := some site }
    have hgoal := u.wantReplay_noGoal (clusterOf site) { since := since, kind := 1, site := some site }
    refine ⟨?_, fun b hb => ?_, ?_, ?_, fun hl => ?_, fun i hi => ?_, fun i => ?_, fun _ hstop hwant => ?_⟩
    · unfold State.newReports at hnew ⊢
      rwa [herrs]
    · rw [hmem]
      exact hring b hb
    · unfold State.siteState at hout ⊢
      rwa [hsec]
    · refine (congrArg CoreSite.dead (hgoal site) :).trans ?_
      show (u.core site).dead = true
      rw [hcore, hsame.1]
    · rw [hgoal, hcore, hsame.2 hl]
    · rw [hgoal, hcore, hother i hi]
    · rw [State.wantReplay_march, hcluster]
    · refine State.wantReplay_wants _ ?_ ?_
      · rw [hcluster, hstop]
      · rw [hcluster, hwant]
  · next hnone =>
    refine ⟨hnew, hring, hout, ?_, fun hl => ?_, fun i hi => ?_, fun i => ?_, fun h' => absurd h' hnone⟩
    · rw [hcore, hsame.1]
    · rw [hcore, hsame.2 hl]
    · rw [hcore, hother i hi]
    · rw [hcluster]

/-! ### The reset of a cluster partition (R198, R314) -/

/-- The given counts of a core restart. -/
def State.clearCounts (s : State) (l : List Fld) (i : Nat) : State := each l s fun s f => s.setF f i 0

/-- One site of the partition is reset. -/
def State.resetSite (s : State) (i : Nat) : State := (s.modCore i fun x => x.afterReset s.now).clearCounts coreCounts i

theorem coreCounts_page : ∀ f ∈ coreCounts, 2 ≤ f.page := by decide

/-- All but the cores and the registers. -/
def State.besideReset (s : State) : State := { s with cores := [], regs := [] }

theorem State.now_of_besideReset {s t : State} (h : t.besideReset = s.besideReset) : t.now = s.now := (congrArg State.now h :)

theorem State.clearCounts_besideReset (s : State) (l : List Fld) (i : Nat) : (s.clearCounts l i).besideReset = s.besideReset :=
  each_frame State.besideReset l s (fun s f => s.setF f i 0) fun _ _ => rfl

theorem State.core_clearCounts (s : State) (l : List Fld) (i j : Nat) : (s.clearCounts l i).core j = s.core j :=
  each_frame (fun t : State => t.core j) l s (fun s f => s.setF f i 0) fun _ _ => rfl

/-- The counts of a core are none of the registers of the pages below. -/
theorem State.getF_clearCounts (s : State) {l : List Fld} (hl : ∀ f ∈ l, 2 ≤ f.page) {f : Fld} (hp : f.page < 2) (ho : f.off < 4096)
    (hlo : f.lo < 64) (i : Nat) {k : Nat} (hk : k < 1024) : (s.clearCounts l i).getF f k = s.getF f k :=
  each_frame_of_mem (fun t => t.getF f k) l s (fun s f => s.setF f i 0) fun _ g hg =>
    State.getF_setF_ne _ _ _ _ _ _ (Nat.ne_of_lt (Fld.key_lt_of_page_lt (hp.trans_le (hl g hg)) hk ho hlo i))

theorem State.resetSite_besideReset (s : State) (i : Nat) : (s.resetSite i).besideReset = s.besideReset :=
  State.clearCounts_besideReset _ _ i

theorem State.core_resetSite (s : State) (i j : Nat) : (s.resetSite i).core j = if j = i then (s.core i).afterReset s.now else s.core j :=
  (State.core_clearCounts _ _ i j).trans (State.core_modCore s i j fun x => x.afterReset s.now)

theorem State.getF_resetSite (s : State) {f : Fld} (hp : f.page < 2) (ho : f.off < 4096) (hlo : f.lo < 64) (i : Nat) {k : Nat} (hk : k < 1024) :
    (s.resetSite i).getF f k = s.getF f k := by
  unfold State.resetSite
  rw [State.getF_clearCounts _ coreCounts_page hp ho hlo i hk]
  rfl

theorem State.each_resetSite_core (l : List Nat) (s : State) (i : Nat) :
    (each l s State.resetSite).core i = if i ∈ l then (s.core i).afterReset s.now else s.core i := by
  induction l generalizing s with
  | nil => rfl
  | cons k l ih =>
    have hnow : (s.resetSite k).now = s.now := State.now_of_besideReset (s.resetSite_besideReset k)
    have hcons : each (k :: l) s State.resetSite = each l (s.resetSite k) State.resetSite := List.foldl_cons ..
    rw [hcons, ih, hnow, State.core_resetSite]
    by_cases hk : i = k
    · rw [if_pos hk, hk, if_pos List.mem_cons_self]
      split <;> rfl
    · simp only [List.mem_cons, hk, false_or, if_false]

theorem State.resetCluster_eq (s : State) (c : Nat) : s.resetCluster c =
    (((each (sitesOf c) s State.resetSite).setF R.CL.TOKEN_DROPS.DROPS c 0).setF R.CL.LULL_STATUS.ACTIVE c 0).addF R.CL.REPLAY_COUNT.RESETS c 1 := rfl

theorem mem_sitesOf {c i : Nat} : i ∈ sitesOf c ↔ clusterOf i = c := by
  unfold sitesOf clusterOf
  simp only [List.mem_map, List.mem_range]
  constructor
  · rintro ⟨k, hk, rfl⟩
    omega
  · intro h
    exact ⟨i % 28, by omega, by omega⟩

theorem State.resetCluster_besideReset (s : State) (c : Nat) : (s.resetCluster c).besideReset = s.besideReset := by
  have hset (x : State) (f : Fld) (v : Nat) : (x.setF f c v).besideReset = x.besideReset := rfl
  have hadd (x : State) (f : Fld) (n : Nat) : (x.addF f c n).besideReset = x.besideReset := rfl
  rw [State.resetCluster_eq, hadd, hset, hset]
  exact each_frame State.besideReset (sitesOf c) s State.resetSite State.resetSite_besideReset

theorem State.core_resetCluster (s : State) (c i : Nat) :
    (s.resetCluster c).core i = if clusterOf i = c then (s.core i).afterReset s.now else s.core i := by
  have hset (x : State) (f : Fld) (v : Nat) : (x.setF f c v).core i = x.core i := rfl
  have hadd (x : State) (f : Fld) (n : Nat) : (x.addF f c n).core i = x.core i := rfl
  rw [State.resetCluster_eq, hadd, hset, hset, State.each_resetSite_core]
  simp only [mem_sitesOf]

theorem State.getF_resets_resetCluster (s : State) {c : Nat} (hc : c < 1024) : (s.resetCluster c).getF R.CL.REPLAY_COUNT.RESETS c =
    min 255 (s.getF R.CL.REPLAY_COUNT.RESETS c + 1) := by
  have hsites : (each (sitesOf c) s State.resetSite).getF R.CL.REPLAY_COUNT.RESETS c = s.getF R.CL.REPLAY_COUNT.RESETS c :=
    each_frame (fun t => t.getF R.CL.REPLAY_COUNT.RESETS c) (sitesOf c) s State.resetSite fun t i => t.getF_resetSite (by decide) (by decide) (by decide) i hc
  rw [State.resetCluster_eq, State.getF_addF_same, State.getF_setF_ne _ _ _ _ _ _ (Fld.key_ne_of_low (by decide) c c),
    State.getF_setF_ne _ _ _ _ _ _ (Fld.key_ne_of_low (by decide) c c), hsites]
  rfl

/-- What the reset of a cluster partition for an error of a site does. -/
structure State.PartReset (s t : State) (c site : Nat) : Prop where
  mem : t.mem = s.mem
  grow : s.reportsGrow t
  within : ∀ i, clusterOf i = c → (t.core i).noGoal = ((s.core i).afterReset s.now).noGoal
  others : ∀ i, clusterOf i ≠ c → (t.core i).noGoal = (s.core i).noGoal
  march : (t.cluster c).march = some site
  resets : t.getF R.CL.REPLAY_COUNT.RESETS c = min 255 (s.getF R.CL.REPLAY_COUNT.RESETS c + 1)

/-- Once the replay is wished for and the partition is reset, the march starts and the reset is reported. -/
theorem State.partReset_report {s v : State} {c site : Nat} (r : Report) (hmem : v.mem = s.mem) (herrs : v.errs = s.errs)
    (hwithin : ∀ i, clusterOf i = c → (v.core i).noGoal = ((s.core i).afterReset s.now).noGoal)
    (hothers : ∀ i, clusterOf i ≠ c → (v.core i).noGoal = (s.core i).noGoal)
    (hresets : v.getF R.CL.REPLAY_COUNT.RESETS c = min 255 (s.getF R.CL.REPLAY_COUNT.RESETS c + 1)) :
    s.PartReset ((v.modCluster c fun x => { x with march := (some site).or x.march }).report r) c site where
  mem := hmem
  grow := (State.reportsGrow_of_keys (State.reportKeys_of_errs herrs)).trans (State.reportsGrow_report (v.modCluster c _) r)
  within := hwithin
  others := hothers
  march := by
    show ((v.modCluster c fun x => { x with march := some site }).cluster c).march = some site
    rw [State.cluster_modCluster, if_pos rfl]
  resets := hresets

theorem State.same_of_besideWant {s t : State} (h : t.besideWant = s.besideWant) : t.mem = s.mem ∧ t.errs = s.errs ∧ t.now = s.now :=
  ⟨(congrArg State.mem h :), (congrArg State.errs h :), (congrArg State.now h :)⟩

theorem State.same_of_besideReset {s t : State} (h : t.besideReset = s.besideReset) : t.mem = s.mem ∧ t.errs = s.errs :=
  ⟨(congrArg State.mem h :), (congrArg State.errs h :)⟩

theorem CoreSite.noGoal_afterReset {x y : CoreSite} (h : x.noGoal = y.noGoal) (n : Nat) : (x.afterReset n).noGoal = (y.afterReset n).noGoal :=
  (congrArg (fun z : CoreSite => z.afterReset n) h :)

theorem State.partitionReset_spec (s : State) {c : Nat} (site : Nat) (hc : c < 1024) : s.PartReset (s.partitionReset c (some site)) c site := by
  obtain ⟨hmem, herrs, hnow⟩ := State.same_of_besideWant (s.wantReplay_besideWant c { since := s.now, kind := 2, site := some site })
  obtain ⟨hmem', herrs'⟩ := State.same_of_besideReset (State.resetCluster_besideReset (s.wantReplay c { since := s.now, kind := 2, site := some site }) c)
  refine State.partReset_report _ (hmem'.trans hmem) (herrs'.trans herrs) (fun i hi => ?_) (fun i hi => ?_) ?_
  · rw [State.core_resetCluster, if_pos hi, hnow]
    exact CoreSite.noGoal_afterReset (s.wantReplay_noGoal c _ i) s.now
  · rw [State.core_resetCluster, if_neg hi]
    exact s.wantReplay_noGoal c _ i
  · rw [State.getF_resets_resetCluster _ hc, s.getF_wantReplay c _ (Fld.key_ne_of_low (by decide))]

theorem clusterOf_lt (site : Fin 672) : clusterOf site < 24 := by
  unfold clusterOf
  omega

/-- CLUSTER_PARTITION_RESET reports the site first; its other records, if its errors are too many, leave the machine as it is. -/
theorem exec_clusterPartitionReset {s : State} {site : Fin 672} (h : s.regionOn (clusterOf site) = true) :
    ∃ u : State, exec (.clusterPartitionReset site) s = .next (u.partitionReset (clusterOf site) (some site.val)) ∧ s.Recorded u ∧
      ∃ a : State, a.reportKeys = s.reportKeys ++ [(1, 2, wholeUnit 2 site)] ∧ a.reportsGrow u := by
  have hcond : ¬ (!s.regionOn (clusterOf site)) = true := by simp [h]
  have hrec (x : State) (p : Prop) [Decidable p] : x.Recorded (if p then x.quarTrigger site else x) := by
    split
    · exact x.recorded_quarTrigger site
    · exact x.recorded_refl
  refine ⟨_, if_neg hcond, ?_, s.reportSite site 1 2 0x3FFF 0 0 0 0, s.report_keys _, ?_⟩
  · exact (s.recorded_report _).trans ((State.recorded_modErrs _ rfl).trans (hrec _ _))
  · exact ((State.recorded_modErrs _ rfl).trans (hrec _ _)).grow

theorem partition_reset {s : State} {site : Fin 672} (h : s.regionOn (clusterOf site) = true) :
    ∃ (t : State) (l : _), exec (.clusterPartitionReset site) s = .next t ∧ s.newReports t = (1, 2, wholeUnit 2 site) :: l ∧ s.ringBut t ∧
      (∀ i, clusterOf i = clusterOf site → (t.core i).noGoal = ((s.core i).afterReset s.now).noGoal) ∧
      (∀ i, clusterOf i ≠ clusterOf site → (t.core i).noGoal = (s.core i).noGoal) ∧ (t.cluster (clusterOf site)).march = some site.val ∧
      t.getF R.CL.REPLAY_COUNT.RESETS (clusterOf site) = min 255 (s.getF R.CL.REPLAY_COUNT.RESETS (clusterOf site) + 1) := by
  obtain ⟨u, hexec, hrec, a, hkeys, hgrow⟩ := exec_clusterPartitionReset h
  have hreset := u.partitionReset_spec site.val ((clusterOf_lt site).trans (by decide))
  obtain ⟨l, hl⟩ := State.newReports_of_grow hkeys (hgrow.trans hreset.grow)
  have hcore (i : Nat) : u.core i = s.core i := (congrArg (fun x : State => x.core i) hrec.beside :)
  have hnow : u.now = s.now := (congrArg State.now hrec.beside :)
  have hcount : u.getF R.CL.REPLAY_COUNT.RESETS (clusterOf site) = s.getF R.CL.REPLAY_COUNT.RESETS (clusterOf site) :=
    (congrArg (fun x : State => x.getF R.CL.REPLAY_COUNT.RESETS (clusterOf site)) hrec.beside :)
  refine ⟨_, l, hexec, hl, fun b hb => ?_, fun i hi => ?_, fun i hi => ?_, hreset.march, ?_⟩
  · rw [hreset.mem]
    exact hrec.ring b hb
  · rw [hreset.within i hi, hcore, hnow]
  · rw [hreset.others i hi, hcore]
  · rw [hreset.resets, hcount]

/-- A march that fails kills the site, and the group's replay is then for the march. -/
theorem march_fails {s : State} {site : Fin 672} (hmarch : (s.cluster (clusterOf site)).march = some site.val) (halive : (s.core site).dead = false) :
    ∃ (t : State) (l : _), exec (.memoryMarchComplete site false) s = .next t ∧ s.newReports t = (8, 1, wholeUnit 2 site) :: l ∧
      (t.core site).dead = true ∧ (t.cluster (clusterOf site)).march = none ∧ s.ringBut t ∧ ∀ w, (t.cluster (clusterOf site)).want = some w → w.kind = 5 := by
  have hcond : ¬ ((s.cluster (clusterOf site)).march != some site.val) = true := by simp [hmarch]
  obtain ⟨m, hm⟩ : ∃ m, s.modCluster (clusterOf site) (fun x => { x with march := none }) = m := ⟨_, rfl⟩
  have hnone : (m.cluster (clusterOf site)).march = none := by
    rw [← hm, State.cluster_modCluster, if_pos rfl]
  have halive' : (m.core site).dead = false := by
    rw [← hm]
    exact halive
  have hexec : exec (.memoryMarchComplete site false) s = .next
      ((m.siteDies site ((m.cluster (clusterOf site)).want.map (·.since) |>.getD m.now)).modCluster (clusterOf site)
        fun x => { x with want := x.want.map fun w => { w with kind := 5 } }) := by
    rw [← hm]
    exact if_neg hcond
  have hdies := State.siteDies_dies ((m.cluster (clusterOf site)).want.map (·.since) |>.getD m.now) halive'
  generalize m.siteDies site _ = u at hexec hdies
  obtain ⟨l, hl⟩ := hdies.reports
  have hcluster := State.cluster_modCluster u (clusterOf site) (clusterOf site)
    fun x => { x with want := x.want.map fun w => { w with kind := 5 } }
  rw [if_pos rfl] at hcluster
  refine ⟨_, l, hexec, ?_, hdies.dead, ?_, ?_, fun w hw => ?_⟩
  · rw [← hl, ← hm]
    rfl
  · rw [hcluster]
    exact (hdies.march _).trans hnone
  · have hring := hdies.ring
    rw [← hm] at hring
    exact hring
  · rw [hcluster] at hw
    obtain ⟨w', -, rfl⟩ := Option.map_eq_some_iff.1 hw
    rfl

theorem CoreSite.eq_of_dies {x y : CoreSite} (h : y.noGoal = { x with dead := true }.noGoal) : y = { x with dead := true, goal := y.goal } :=
  CoreSite.eq_of_noGoal h

/-- Settles O41: a death is its report, the outage, then the wish for a replay; each stage leaves what the ones before it did. -/
theorem deathsAndResets : Obligations.DeathsAndResets := by
  unfold Obligations.DeathsAndResets
  intro s site c dies
  have hdies (since : Nat) (halive : (s.core site).dead = false) : dies (s.siteDies site since) since := by
    have h := State.siteDies_dies since halive
    exact ⟨h.reports, h.ring, h.out, fun hl => CoreSite.eq_of_dies (h.core hl), fun i hi => CoreSite.eq_of_noGoal (h.others i hi), h.want⟩
  refine ⟨fun hon halive => ?_, fun h => ?_, fun h => ?_, fun hw ht halive => ?_, fun h => ?_, fun hon halive => ?_, fun hoff => ?_, fun hon => ?_,
    fun pass hm => if_pos (bne_iff_ne.2 hm), fun hm => ⟨if_neg fun h => bne_iff_ne.1 h hm, march_fails hm⟩⟩
  · exact congrArg Host.Outcome.next (if_pos (Bool.and_eq_true_iff.2 ⟨hon, by rw [halive]; rfl⟩))
  · refine congrArg Host.Outcome.next (if_neg fun hcond => ?_)
    obtain ⟨hon, halive⟩ := Bool.and_eq_true_iff.1 hcond
    obtain h | h := h
    · exact Bool.eq_false_iff.1 h hon
    · rw [h] at halive
      exact Bool.false_ne_true halive
  · refine congrArg Host.Outcome.next (ite_eq_right_iff.2 fun hcond => ?_)
    obtain ⟨hwatch, htime⟩ := Bool.and_eq_true_iff.1 hcond
    have htime := of_decide_eq_true htime
    obtain h | h | h := h
    · exact absurd hwatch (Bool.eq_false_iff.1 h)
    · omega
    · exact State.siteDies_dead _ h
  · exact ⟨_, congrArg Host.Outcome.next (if_pos (Bool.and_eq_true_iff.2 ⟨hw, decide_eq_true ht⟩)), hdies _ halive⟩
  · exact congrArg Host.Outcome.next (ite_eq_right_iff.2 fun hon => State.siteDies_dead _ (h.resolve_left fun h => Bool.eq_false_iff.1 h hon))
  · exact ⟨_, congrArg Host.Outcome.next (if_pos hon), hdies _ halive⟩
  · exact if_pos (congrArg Bool.not hoff)
  · obtain ⟨t, l, hexec, hl, hring, hwithin, hothers, hmarch, hresets⟩ := partition_reset hon
    exact ⟨t, l, hexec, hl, hring, fun i hi => CoreSite.eq_of_noGoal (hwithin i hi), fun i hi => CoreSite.eq_of_noGoal (hothers i hi), hmarch, hresets⟩

end Sys2Proof.Machine
end

section
/-! Proofs. Launches, starts of kernels and the host's tokens (R215, R230, R232 to R234, R238, R284): what waits at a core, what a
core stands at, and which words the completion takes. -/

namespace Sys2Proof.Machine

/-! ### CL.TSIG (R230) -/

theorem flag_toNat_eq_getLsbD (v : BitVec 32) (i : Nat) : flag v.toNat i = v.getLsbD i := by
  rw [flag_eq_testBit]
  rfl

theorem exec_clTsig {s : State} {c : Fin 24} (v : BitVec 32) (ha : s.active.isSome = true) (hh : s.hosted 1 c = true) :
    exec (.clTsig c v) s = .next (s.clTsig c v.toNat) := by
  show Host.Outcome.next (s.asActive fun s => if s.hosted 1 c then s.clTsig c v.toNat else s) = _
  rw [State.asActive, if_pos ha, if_pos hh]

/-- A unit sent by the host sets off for its token. -/
def State.sendToken (s : State) (c : Nat) (d : TokTo) : State :=
  { s with mesh := { s.mesh with toks := s.mesh.toks ++ [⟨1000 + c, d, 1, s.now, 0⟩] } }

theorem State.clTsig_core {s : State} {c v : Nat} (hf : flag v 13 = false) : s.clTsig c v =
    if decide (bits v 12 8 ≤ 27) && decide (bits v 7 0 ≤ 0xFD) && s.siteInService (28 * c + bits v 12 8) then
      s.sendToken c (.core (28 * c + bits v 12 8) (bits v 7 0)) else s.dropToken c none := by
  unfold State.clTsig
  dsimp only
  rw [hf, if_pos Bool.not_false]
  rfl

theorem State.clTsig_list {s : State} {c v : Nat} (hf : flag v 13 = true) : s.clTsig c v =
    if s.bindsList c (bits v 18 16) (bits v 22 19) then s.sendToken c (.list (bits v 18 16) (bits v 22 19) c) else s.dropToken c none := by
  unfold State.clTsig
  dsimp only
  rw [hf, if_neg (by decide)]
  rfl

theorem clTsig_cases (s : State) (c : Fin 24) (v : BitVec 32) (ha : s.active.isSome = true) (hh : s.hosted 1 c = true) :
    let tok := bits v.toNat 7 0; let k := bits v.toNat 12 8; let m := bits v.toNat 18 16; let l := bits v.toNat 22 19
    (v.getLsbD 13 = false → k ≤ 27 → tok ≤ 0xFD → s.siteInService (28 * c + k) = true →
      exec (.clTsig c v) s = .next (s.sendToken c (.core (28 * c + k) tok))) ∧
    (v.getLsbD 13 = true → s.bindsList c m l = true → exec (.clTsig c v) s = .next (s.sendToken c (.list m l c))) ∧
    (v.getLsbD 13 = true ∧ s.bindsList c m l = false ∨ v.getLsbD 13 = false ∧ (27 < k ∨ 0xFD < tok ∨ s.siteInService (28 * c + k) = false) →
      exec (.clTsig c v) s = .next (s.dropToken c none)) := by
  dsimp only
  rw [exec_clTsig v ha hh, ← flag_toNat_eq_getLsbD]
  refine ⟨fun hf hk ht hs => ?_, fun hf hb => ?_, fun h => ?_⟩
  · rw [State.clTsig_core hf, hs, decide_eq_true hk, decide_eq_true ht]
    rfl
  · rw [State.clTsig_list hf, hb]
    rfl
  · obtain ⟨hf, hb⟩ | ⟨hf, h⟩ := h
    · rw [State.clTsig_list hf, hb]
      rfl
    · rw [State.clTsig_core hf, if_neg]
      simp only [Bool.and_eq_true, decide_eq_true_eq]
      rintro ⟨⟨hk, ht⟩, hs⟩
      obtain h | h | h := h
      · omega
      · omega
      · exact Bool.eq_false_iff.1 h hs

/-! ### A core loaded for a launch (R234) -/

/-- A core that stands at the entry of a launch: its initial registers, its counters and tokens zero. -/
def CoreSite.fresh (x : CoreSite) (r : LaunchRec) (n : Nat) : CoreSite :=
  { x with g := r.gregs, u := [], tok := [], mt := [], mtCount := 0, pc := r.entry, ret := [], passes := 0, nSend := 0, nTsig := 0,
           atMark := none, rot := false, mark0 := n }

/-- The registers of a core that a load sets. -/
def freshRegs : List Fld := [R.CORE.SPE_CTL.CMD_LA, R.CORE.SEQ_FAULT.FAULT_PC, R.CORE.SEQ_FAULT.KIND, R.CORE.SEQ_FAULT.OPCODE]

theorem State.core_loadFresh (s : State) (i j : Nat) (r : LaunchRec) : (s.loadFresh i r).core j =
    if j = i then (s.core i).fresh r (s.getF R.CORE.INSTR_CNT.COUNT i) else s.core j := by
  unfold State.loadFresh State.loadCore State.faultAt
  dsimp only
  rw [State.modCluster_core, State.setF_core, State.setF_core, State.setF_core, State.setF_core, State.core_modCore]
  rfl

theorem State.getF_loadFresh (s : State) (i : Nat) (r : LaunchRec) {f : Fld}
    (h : ∀ g ∈ freshRegs, (64 * f.off + f.lo) % 262144 ≠ (64 * g.off + g.lo) % 262144) (k : Nat) :
    (s.loadFresh i r).getF f k = s.getF f k := by
  have hset (x : State) (g : Fld) (hg : g ∈ freshRegs) (v : Nat) : (x.setF g i v).getF f k = x.getF f k :=
    State.getF_setF_ne _ _ _ _ _ _ (Fld.key_ne_of_low (h g hg) k i)
  unfold State.loadFresh State.loadCore State.faultAt
  dsimp only
  rw [State.modCluster_getF, hset _ _ (by decide), hset _ _ (by decide), hset _ _ (by decide), hset _ _ (by decide), State.modCore_getF]

/-- All but the cores, the clusters and the registers. -/
def State.besideLoad (s : State) : State := { s with cores := [], clusters := [], regs := [] }

theorem State.loadFresh_besideLoad (s : State) (i : Nat) (r : LaunchRec) : (s.loadFresh i r).besideLoad = s.besideLoad := by
  have hset (x : State) (g : Fld) (v : Nat) : (x.setF g i v).besideLoad = x.besideLoad := rfl
  have hcore (x : State) (f : CoreSite → CoreSite) : (x.modCore i f).besideLoad = x.besideLoad := rfl
  have hcluster (x : State) (c : Nat) (f : Cluster → Cluster) : (x.modCluster c f).besideLoad = x.besideLoad := rfl
  unfold State.loadFresh State.loadCore State.faultAt
  dsimp only
  rw [hcluster, hset, hset, hset, hset, hcore]

/-- What a launch at other sites leaves of a site: its core, what waits there, and the count its marks start from. -/
def State.siteView (s : State) (i : Nat) : CoreSite × List LaunchRec × Nat := (s.core i, s.waitingAt i, s.getF R.CORE.INSTR_CNT.COUNT i)

theorem State.waitingAt_of_besideLoad {s t : State} (h : t.besideLoad = s.besideLoad) (i : Nat) : t.waitingAt i = s.waitingAt i :=
  (congrArg (fun x : State => x.waitingAt i) h :)

theorem State.running_of_besideLoad {s t : State} (h : t.besideLoad = s.besideLoad) : t.running = s.running :=
  (congrArg State.running h :)

theorem State.waitingAt_setWaiting_ne (s : State) {i j : Nat} (h : j ≠ i) (l : List LaunchRec) : (s.setWaiting i l).waitingAt j = s.waitingAt j := by
  unfold State.waitingAt
  rw [State.launchOf_setWaiting, State.laterOf_setWaiting, if_neg h, if_neg h]

theorem State.siteView_setWaiting_ne (s : State) {i j : Nat} (h : j ≠ i) (l : List LaunchRec) :
    (s.setWaiting i l).siteView j = s.siteView j := by
  unfold State.siteView
  rw [s.waitingAt_setWaiting_ne h l]
  rfl

theorem State.siteView_loadFresh_ne (s : State) {i j : Nat} (h : j ≠ i) (r : LaunchRec) : (s.loadFresh i r).siteView j = s.siteView j := by
  unfold State.siteView
  rw [State.core_loadFresh, if_neg h, State.waitingAt_of_besideLoad (s.loadFresh_besideLoad i r), s.getF_loadFresh i r (by decide)]

/-! ### LAUNCH (R232, R233, R238) -/

/-- One cluster's sequence number and time of a launch. -/
def State.launchSeq (tl : Nat) (s : State) (c : Nat) : State :=
  (s.setF R.CL.LAUNCH_SEQ.SEQ c ((s.getF R.CL.LAUNCH_SEQ.SEQ c + 1) % 2 ^ 32)).setF R.CL.LAUNCH_TIME.T_L c tl

/-- One kernel of the program at its core. -/
def State.launchKernel (j : Job) (a : LaunchArgs) (s : State) (k : KImage) : State :=
  match k.kinds.find? fun q => q.kind == a.kind with
  | some q => s.launchCore j a k q
  | none => s

/-- The records of a launch, after its cores have it. -/
def State.launchRecords (s : State) (j : Job) (a : LaunchArgs) : State :=
  let s := s.tallyDev 0xB0 1
  let s := if j.prog.replay then s else (s.tallyDev 0xA0 1).modTally fun t => { t with nonReplay := true }
  let s := s.setJob a.job (some { j with launched := j.launched + 1, area := a.area, ctr := a.ctr })
  if s.marking a.job then
    let cap := s.capsule j a
    let e := s.extStep
    (s.writeCapsule cap).modGate fun g => { g with span := decide (1 < a.plane), launched := if 1 < a.plane then some e else g.launched }
  else s

theorem exec_launch {s : State} {a : LaunchArgs} {j : Job} (hj : s.job a.job = some j) : exec (.launch a) s =
    if !s.launchOk j a || s.leaderless then .next s
    else .next ((each j.prog.kernels (each j.clusters s (State.launchSeq a.tl)) (State.launchKernel j a)).launchRecords j a) := by
  show execLaunch a s = _
  unfold execLaunch
  rw [hj]
  rfl

theorem State.getF_launchSeq_same (s : State) (tl c : Nat) :
    (s.launchSeq tl c).getF R.CL.LAUNCH_SEQ.SEQ c = (s.getF R.CL.LAUNCH_SEQ.SEQ c + 1) % 2 ^ 32 ∧
    (s.launchSeq tl c).getF R.CL.LAUNCH_TIME.T_L c = tl % 2 ^ 64 := by
  refine ⟨?_, State.getF_setF_same _ _ _ _⟩
  rw [State.launchSeq, State.getF_setF_ne _ _ _ _ _ _ (Fld.key_ne_of_low (by decide) c c), State.getF_setF_same]
  exact Nat.mod_mod _ _

theorem State.getF_launchSeq_ne (s : State) (tl : Nat) {c d : Nat} {f : Fld} (hs : f.key d ≠ R.CL.LAUNCH_SEQ.SEQ.key c)
    (ht : f.key d ≠ R.CL.LAUNCH_TIME.T_L.key c) : (s.launchSeq tl c).getF f d = s.getF f d := by
  rw [State.launchSeq, State.getF_setF_ne _ _ _ _ _ _ ht, State.getF_setF_ne _ _ _ _ _ _ hs]

theorem State.getF_launchSeq_other (s : State) (tl : Nat) {c d : Nat} (h : d ≠ c) :
    (s.launchSeq tl c).getF R.CL.LAUNCH_SEQ.SEQ d = s.getF R.CL.LAUNCH_SEQ.SEQ d ∧
    (s.launchSeq tl c).getF R.CL.LAUNCH_TIME.T_L d = s.getF R.CL.LAUNCH_TIME.T_L d :=
  ⟨s.getF_launchSeq_ne tl (Fld.key_ne_of_inst _ h) (Fld.key_ne_of_low (by decide) d c),
    s.getF_launchSeq_ne tl (Fld.key_ne_of_low (by decide) d c) (Fld.key_ne_of_inst _ h)⟩

/-- Each cluster of the partition, named once, counts the launch once. -/
theorem each_launchSeq (tl : Nat) (l : List Nat) (hl : l.Nodup) (s : State) (c : Nat) (hc : c ∈ l) :
    (each l s (State.launchSeq tl)).getF R.CL.LAUNCH_SEQ.SEQ c = (s.getF R.CL.LAUNCH_SEQ.SEQ c + 1) % 2 ^ 32 ∧
    (each l s (State.launchSeq tl)).getF R.CL.LAUNCH_TIME.T_L c = tl % 2 ^ 64 := by
  induction l generalizing s with
  | nil => exact absurd hc List.not_mem_nil
  | cons d l ih =>
    have hcons : each (d :: l) s (State.launchSeq tl) = each l (s.launchSeq tl d) (State.launchSeq tl) := List.foldl_cons ..
    obtain ⟨hd, hl⟩ := List.nodup_cons.1 hl
    rw [hcons]
    by_cases hcd : c ∈ l
    · have hne : c ≠ d := fun h => hd (h ▸ hcd)
      rw [(ih hl (s.launchSeq tl d) hcd).1, (ih hl (s.launchSeq tl d) hcd).2, (s.getF_launchSeq_other tl hne).1]
      exact ⟨rfl, rfl⟩
    · obtain rfl := (List.mem_cons.1 hc).resolve_right hcd
      have hkeep {f : Fld} (hf : ∀ x ∈ l, ∀ t : State, (t.launchSeq tl x).getF f c = t.getF f c) :
          (each l (s.launchSeq tl c) (State.launchSeq tl)).getF f c = (s.launchSeq tl c).getF f c :=
        each_frame_of_mem (fun t => t.getF f c) _ _ _ fun t x hx => hf x hx t
      rw [hkeep fun x hx t => (t.getF_launchSeq_other tl (ne_of_mem_of_not_mem hx hcd).symm).1,
        hkeep fun x hx t => (t.getF_launchSeq_other tl (ne_of_mem_of_not_mem hx hcd).symm).2]
      exact s.getF_launchSeq_same tl c

/-- The sequence numbers and times of a launch change registers alone, and no count of a core. -/
theorem each_launchSeq_siteView (tl : Nat) (l : List Nat) (s : State) (i : Nat) :
    (each l s (State.launchSeq tl)).siteView i = s.siteView i :=
  each_frame (fun t => t.siteView i) l s (State.launchSeq tl) fun t c => by
    unfold State.siteView
    rw [t.getF_launchSeq_ne tl (Fld.key_ne_of_low (by decide) i c) (Fld.key_ne_of_low (by decide) i c)]
    rfl

/-- The launch as it waits at a core. -/
def State.launchRec (s : State) (j : Job) (a : LaunchArgs) (k : KImage) (q : KKind) (i : Nat) (free : Bool) : LaunchRec :=
  { job := a.job, lcore := k.lcore, tl := a.tl, entry := q.entry % 16384, gregs := j.gregs q, area := a.area, ctr := a.ctr,
    seq := s.getF R.CL.LAUNCH_SEQ.SEQ (clusterOf i), cmdLa := k.cmdLa, loaded := free }

/-- A core is free for a launch: it runs no kernel and waits for none up to its time. -/
def State.freeFor (s : State) (i tl : Nat) : Bool := s.coreFree i && ((s.waitingAt i).takeWhile fun q => decide (q.tl ≤ tl)).isEmpty

/-- What waits at a core with one launch more, in the order of their times. -/
def State.withLaunch (s : State) (i : Nat) (r : LaunchRec) : List LaunchRec :=
  let pre := (s.waitingAt i).takeWhile fun q => decide (q.tl ≤ r.tl)
  pre ++ r :: ((s.waitingAt i).drop pre.length).map fun q => { q with loaded := q.loaded && !r.loaded }

theorem State.mem_withLaunch (s : State) (i : Nat) (r : LaunchRec) : r ∈ s.withLaunch i r :=
  List.mem_append_right _ List.mem_cons_self

theorem State.freeFor_of_all {s : State} {i tl : Nat} (h : (s.coreFree i && (s.waitingAt i).all fun r => decide (tl < r.tl)) = true) :
    s.freeFor i tl = true := by
  obtain ⟨hfree, hall⟩ := Bool.and_eq_true_iff.1 h
  unfold State.freeFor
  rw [hfree, Bool.true_and]
  cases hl : s.waitingAt i with
  | nil => rfl
  | cons r l =>
    rw [hl, List.all_cons, Bool.and_eq_true_iff] at hall
    have hlt := of_decide_eq_true hall.1
    rw [List.takeWhile_cons_of_neg (by simpa using hlt)]
    rfl

/-- A launch placed at a core, which is loaded when it is free for it. -/
def State.placeLaunch (s : State) (i : Nat) (r : LaunchRec) : State :=
  if r.loaded then (s.setWaiting i (s.withLaunch i r)).loadFresh i r else s.setWaiting i (s.withLaunch i r)

theorem State.launchCore_eq (s : State) {j : Job} {k : KImage} {i : Nat} (a : LaunchArgs) (q : KKind) (hi : j.siteOf k.lcore = some i) :
    s.launchCore j a k q = s.placeLaunch i (s.launchRec j a k q i (s.freeFor i a.tl)) := by
  unfold State.launchCore
  rw [hi]
  rfl

theorem State.placeLaunch_running (s : State) (i : Nat) (r : LaunchRec) : (s.placeLaunch i r).running = s.running := by
  unfold State.placeLaunch
  split
  · exact (State.running_of_besideLoad (State.loadFresh_besideLoad _ i r)).trans rfl
  · rfl

theorem State.placeLaunch_mem (s : State) (i : Nat) (r : LaunchRec) : (s.placeLaunch i r).mem = s.mem := by
  unfold State.placeLaunch
  split
  · exact State.loadFresh_mem _ i r
  · rfl

theorem State.placeLaunch_getF (s : State) (i : Nat) (r : LaunchRec) {f : Fld}
    (h : ∀ g ∈ freshRegs, (64 * f.off + f.lo) % 262144 ≠ (64 * g.off + g.lo) % 262144) (m : Nat) : (s.placeLaunch i r).getF f m = s.getF f m := by
  unfold State.placeLaunch
  split
  · rw [State.getF_loadFresh _ i r h, State.setWaiting_getF]
  · rfl

theorem State.siteView_placeLaunch_ne (s : State) {i m : Nat} (h : m ≠ i) (r : LaunchRec) : (s.placeLaunch i r).siteView m = s.siteView m := by
  unfold State.placeLaunch
  split
  · rw [State.siteView_loadFresh_ne _ h, s.siteView_setWaiting_ne h]
  · exact s.siteView_setWaiting_ne h _

theorem State.placeLaunch_waiting (s : State) (i : Nat) (r : LaunchRec) : (s.placeLaunch i r).waitingAt i = s.withLaunch i r := by
  unfold State.placeLaunch
  split
  · rw [State.waitingAt_of_besideLoad (State.loadFresh_besideLoad _ i r), State.waitingAt_setWaiting]
  · exact State.waitingAt_setWaiting _ i _

theorem State.placeLaunch_core (s : State) (i : Nat) (r : LaunchRec) : (s.placeLaunch i r).core i =
    if r.loaded then (s.core i).fresh r (s.getF R.CORE.INSTR_CNT.COUNT i) else s.core i := by
  unfold State.placeLaunch
  split
  · rw [State.core_loadFresh, if_pos rfl, State.setWaiting_core, State.setWaiting_getF]
  · rfl

/-- What every kernel of a launch leaves. -/
theorem State.launchKernel_keeps {β : Type} (part : State → β) (h : ∀ s i r, part (State.placeLaunch s i r) = part s) (j : Job) (a : LaunchArgs)
    (s : State) (k : KImage) : part (s.launchKernel j a k) = part s := by
  unfold State.launchKernel
  split
  · next q _ =>
    cases hi : j.siteOf k.lcore with
    | none =>
      unfold State.launchCore
      rw [hi]
    | some i => rw [s.launchCore_eq a q hi, h]
  · rfl

theorem State.launchKernel_siteView (s : State) {j : Job} (a : LaunchArgs) {k : KImage} {i : Nat} (h : j.siteOf k.lcore ≠ some i) :
    (s.launchKernel j a k).siteView i = s.siteView i := by
  unfold State.launchKernel
  split
  · next q _ =>
    cases hm : j.siteOf k.lcore with
    | none =>
      unfold State.launchCore
      rw [hm]
    | some m =>
      rw [s.launchCore_eq a q hm]
      exact s.siteView_placeLaunch_ne (fun hmi => h (hm.trans (congrArg some hmi.symm))) _
  · rfl

/-- The kernels of a launch reach a site once: what comes before and after the site's kernel leaves it. -/
theorem each_launchKernel_site {j : Job} (a : LaunchArgs) {l : List KImage} (hl : (l.filterMap fun k => j.siteOf k.lcore).Nodup) {k : KImage}
    (hk : k ∈ l) {i : Nat} (hi : j.siteOf k.lcore = some i) (s : State) : ∃ u : State, u.siteView i = s.siteView i ∧ u.running = s.running ∧
      (∀ c, u.getF R.CL.LAUNCH_SEQ.SEQ c = s.getF R.CL.LAUNCH_SEQ.SEQ c) ∧
      (each l s (State.launchKernel j a)).siteView i = (u.launchKernel j a k).siteView i := by
  obtain ⟨pre, post, rfl⟩ := List.append_of_mem hk
  rw [List.filterMap_append, List.filterMap_cons_some (f := fun k : KImage => j.siteOf k.lcore) hi, List.nodup_append] at hl
  obtain ⟨-, hpost, hdisj⟩ := hl
  have hbefore : ∀ x ∈ pre, j.siteOf x.lcore ≠ some i := fun x hx h =>
    hdisj i (List.mem_filterMap.2 ⟨x, hx, h⟩) i List.mem_cons_self rfl
  have hafter : ∀ x ∈ post, j.siteOf x.lcore ≠ some i := fun x hx h =>
    (List.nodup_cons.1 hpost).1 (List.mem_filterMap.2 ⟨x, hx, h⟩)
  refine ⟨each pre s (State.launchKernel j a), ?_, ?_, fun c => ?_, ?_⟩
  · exact each_frame_of_mem (fun t => t.siteView i) pre s _ fun t x hx => t.launchKernel_siteView a (hbefore x hx)
  · exact each_frame State.running pre s _ fun t x => State.launchKernel_keeps State.running State.placeLaunch_running j a t x
  · exact each_frame (fun t => t.getF R.CL.LAUNCH_SEQ.SEQ c) pre s _ fun t x =>
      State.launchKernel_keeps (fun t => t.getF R.CL.LAUNCH_SEQ.SEQ c) (fun t m r => t.placeLaunch_getF m r (by decide) c) j a t x
  · have hsplit : each (pre ++ k :: post) s (State.launchKernel j a) =
        each post ((each pre s (State.launchKernel j a)).launchKernel j a k) (State.launchKernel j a) :=
      (List.foldl_append ..).trans (List.foldl_cons ..)
    rw [hsplit]
    exact each_frame_of_mem (fun t => t.siteView i) post _ _ fun t x hx => t.launchKernel_siteView a (hafter x hx)

theorem State.length_capsule (s : State) (j : Job) (a : LaunchArgs) : (s.capsule j a).length ≤ 512 := by
  have hpad (n : Nat) (l : List Byte) : (padTo n l).length = n := by
    unfold padTo
    rw [List.length_take, List.length_append, List.length_replicate]
    omega
  unfold State.capsule
  simp only [List.length_append, hpad, length_natLE]
  decide

/-- The journal of capsules lies in the reserved region. -/
theorem capsule_inReserved (k : Nat) {bs : List Byte} (h : bs.length ≤ 512) : inReserved (capsuleAddr k) bs.length = true := by
  rw [inReserved_iff]
  have harea := Config.capsuleArea.isLt
  unfold capsuleAddr resBase resSize
  omega

/-- What a launch's records leave: the cores, what waits at them, what runs, the registers and much else. -/
def State.runSide (s : State) : State := { s with mem := [], poison := [], deck := {}, errs := {}, tally := {}, jobs := [], ctl := {} }

theorem State.runSide_of_beside {s t : State} (h : t.beside = s.beside) : t.runSide = s.runSide :=
  (congrArg State.runSide h :)

theorem State.modCtl_runSide (s : State) (f : Control → Control) : (s.modCtl f).runSide = s.runSide := rfl

theorem State.modGate_runSide (s : State) (f : Gate → Gate) : (s.modGate f).runSide = s.runSide := rfl

theorem State.writeCapsule_runSide (s : State) {bs : List Byte} (h : bs.length ≤ 512) : (s.writeCapsule bs).runSide = s.runSide := by
  have hbeside := State.memWrite_beside (s.linksUp_reserved (capsule_inReserved s.ctl.ncapsules h)) (servicePort 0)
  unfold State.writeCapsule
  dsimp only
  rw [State.modCtl_runSide]
  exact State.runSide_of_beside hbeside

/-- The counts of a launch and the job's part of its records. -/
def State.countLaunch (s : State) (j : Job) (a : LaunchArgs) : State :=
  let s := s.tallyDev 0xB0 1
  let s := if j.prog.replay then s else (s.tallyDev 0xA0 1).modTally fun t => { t with nonReplay := true }
  s.setJob a.job (some { j with launched := j.launched + 1, area := a.area, ctr := a.ctr })

theorem State.countLaunch_keeps (s : State) (j : Job) (a : LaunchArgs) :
    (s.countLaunch j a).runSide = s.runSide ∧ (s.countLaunch j a).mem = s.mem ∧ (s.countLaunch j a).regs = s.regs := by
  have hdev (x : State) (o n : Nat) : (x.tallyDev o n).runSide = x.runSide ∧ (x.tallyDev o n).mem = x.mem ∧ (x.tallyDev o n).regs = x.regs :=
    ⟨rfl, rfl, rfl⟩
  have hjob (x : State) (i : Nat) (y : Option Job) : (x.setJob i y).runSide = x.runSide ∧ (x.setJob i y).mem = x.mem ∧ (x.setJob i y).regs = x.regs :=
    ⟨rfl, rfl, rfl⟩
  have hmod (x : State) (f : Tally → Tally) : (x.modTally f).runSide = x.runSide ∧ (x.modTally f).mem = x.mem ∧ (x.modTally f).regs = x.regs :=
    ⟨rfl, rfl, rfl⟩
  unfold State.countLaunch
  dsimp only
  rw [(hjob _ _ _).1, (hjob _ _ _).2.1, (hjob _ _ _).2.2]
  split
  · exact hdev s _ _
  · rw [(hmod _ _).1, (hmod _ _).2.1, (hmod _ _).2.2, (hdev _ _ _).1, (hdev _ _ _).2.1, (hdev _ _ _).2.2]
    exact hdev s _ _

theorem State.launchRecords_eq (s : State) (j : Job) (a : LaunchArgs) : s.launchRecords j a = let t := s.countLaunch j a
    if t.marking a.job then (t.writeCapsule (t.capsule j a)).modGate fun g =>
      { g with span := decide (1 < a.plane), launched := if 1 < a.plane then some t.extStep else g.launched } else t := rfl

theorem State.launchRecords_runSide (s : State) (j : Job) (a : LaunchArgs) : (s.launchRecords j a).runSide = s.runSide := by
  obtain ⟨hcount, -, -⟩ := s.countLaunch_keeps j a
  rw [State.launchRecords_eq]
  generalize s.countLaunch j a = t at *
  dsimp only
  split
  · rw [State.modGate_runSide, State.writeCapsule_runSide t (t.length_capsule j a), hcount]
  · exact hcount

theorem State.marking_of_getF {s t : State} (h : ∀ f ∈ [R.TLY.MARK_CTL.SOURCE, R.TLY.MARK_CTL.JOB_ID], t.getF f 0 = s.getF f 0) (job : Nat) :
    t.marking job = s.marking job := by
  unfold State.marking
  rw [h _ List.mem_cons_self, h _ (List.mem_cons_of_mem _ List.mem_cons_self)]

theorem State.launchRecords_mem {s : State} {j : Job} {a : LaunchArgs} (h : s.marking a.job = false) : (s.launchRecords j a).mem = s.mem := by
  obtain ⟨-, hmem, hregs⟩ := s.countLaunch_keeps j a
  have hmark : (s.countLaunch j a).marking a.job = false := by
    rw [← h]
    exact State.marking_of_getF (fun f _ => by unfold State.getF; rw [hregs]) a.job
  rw [State.launchRecords_eq]
  dsimp only
  rw [hmark, if_neg Bool.false_ne_true, hmem]

/-- Neither the sequence numbers nor the kernels of a launch change memory, or a register beside those of the launch. -/
theorem launched_keeps (s : State) (j : Job) (a : LaunchArgs) :
    let t := each j.prog.kernels (each j.clusters s (State.launchSeq a.tl)) (State.launchKernel j a)
    t.mem = s.mem ∧ t.running = s.running ∧ t.marking a.job = s.marking a.job := by
  dsimp only
  have hkernels {β : Type} (part : State → β) (h : ∀ s i r, part (State.placeLaunch s i r) = part s) (u : State) :
      part (each j.prog.kernels u (State.launchKernel j a)) = part u :=
    each_frame part _ u _ fun t k => State.launchKernel_keeps part h j a t k
  refine ⟨(hkernels State.mem State.placeLaunch_mem _).trans ?_, (hkernels State.running State.placeLaunch_running _).trans ?_,
    State.marking_of_getF (fun f hf => ?_) a.job⟩
  · exact each_frame State.mem _ s _ fun _ _ => rfl
  · exact each_frame State.running _ s _ fun _ _ => rfl
  · have hfresh : ∀ f ∈ [R.TLY.MARK_CTL.SOURCE, R.TLY.MARK_CTL.JOB_ID], ∀ g ∈ R.CL.LAUNCH_SEQ.SEQ :: R.CL.LAUNCH_TIME.T_L :: freshRegs,
        (64 * f.off + f.lo) % 262144 ≠ (64 * g.off + g.lo) % 262144 := by decide
    have hne := hfresh f hf
    refine (hkernels (fun t => t.getF f 0) (fun t i r => t.placeLaunch_getF i r (fun g hg => hne g (by simp [hg])) 0) _).trans ?_
    exact each_frame (fun t => t.getF f 0) _ s _ fun t c =>
      t.getF_launchSeq_ne a.tl (Fld.key_ne_of_low (hne _ (by simp)) 0 c) (Fld.key_ne_of_low (hne _ (by simp)) 0 c)

theorem launch_clusters (s : State) (j : Job) (a : LaunchArgs) (hnodup : j.clusters.Nodup) {c : Nat} (hc : c ∈ j.clusters) :
    let t := (each j.prog.kernels (each j.clusters s (State.launchSeq a.tl)) (State.launchKernel j a)).launchRecords j a
    t.getF R.CL.LAUNCH_SEQ.SEQ c = (s.getF R.CL.LAUNCH_SEQ.SEQ c + 1) % 2 ^ 32 ∧ t.getF R.CL.LAUNCH_TIME.T_L c = a.tl % 2 ^ 64 := by
  dsimp only
  have hseq := each_launchSeq a.tl j.clusters hnodup s c hc
  generalize each j.clusters s (State.launchSeq a.tl) = u at *
  have hkernels {f : Fld} (h : ∀ g ∈ freshRegs, (64 * f.off + f.lo) % 262144 ≠ (64 * g.off + g.lo) % 262144) :
      (each j.prog.kernels u (State.launchKernel j a)).getF f c = u.getF f c :=
    each_frame (fun t => t.getF f c) _ u _ fun t k =>
      State.launchKernel_keeps (fun t => t.getF f c) (fun t m r => t.placeLaunch_getF m r h c) j a t k
  have hs := hkernels (f := R.CL.LAUNCH_SEQ.SEQ) (by decide)
  have ht := hkernels (f := R.CL.LAUNCH_TIME.T_L) (by decide)
  generalize each j.prog.kernels u (State.launchKernel j a) = v at *
  have hside := v.launchRecords_runSide j a
  have hrecords (f : Fld) : (v.launchRecords j a).getF f c = v.getF f c := (congrArg (fun x : State => x.getF f c) hside :)
  rw [hrecords, hrecords, hs, ht]
  exact hseq

/-- What a launch leaves at the core of one of its kernels. -/
theorem launch_core (s : State) (j : Job) (a : LaunchArgs) (hsites : (j.prog.kernels.filterMap fun k => j.siteOf k.lcore).Nodup) {k : KImage}
    {q : KKind} {i : Nat} (hk : k ∈ j.prog.kernels) (hq : k.kinds.find? (fun q => q.kind == a.kind) = some q) (hi : j.siteOf k.lcore = some i) :
    let t := (each j.prog.kernels (each j.clusters s (State.launchSeq a.tl)) (State.launchKernel j a)).launchRecords j a
    t.launchRec j a k q i (s.freeFor i a.tl) ∈ t.waitingAt i ∧
    t.core i = if s.freeFor i a.tl then (s.core i).fresh (t.launchRec j a k q i true) (s.getF R.CORE.INSTR_CNT.COUNT i) else s.core i := by
  dsimp only
  have hview := each_launchSeq_siteView a.tl j.clusters s i
  have hrun : (each j.clusters s (State.launchSeq a.tl)).running = s.running := each_frame State.running _ s _ fun _ _ => rfl
  generalize each j.clusters s (State.launchSeq a.tl) = u at *
  obtain ⟨m, hmview, hmrun, hmseq, hlast⟩ := each_launchKernel_site a hsites hk hi u
  have hvseq : (each j.prog.kernels u (State.launchKernel j a)).getF R.CL.LAUNCH_SEQ.SEQ (clusterOf i) = u.getF R.CL.LAUNCH_SEQ.SEQ (clusterOf i) :=
    each_frame (fun t => t.getF R.CL.LAUNCH_SEQ.SEQ (clusterOf i)) _ u _ fun t x =>
      State.launchKernel_keeps (fun t => t.getF R.CL.LAUNCH_SEQ.SEQ (clusterOf i)) (fun t n r => t.placeLaunch_getF n r (by decide) _) j a t x
  generalize each j.prog.kernels u (State.launchKernel j a) = v at *
  have hside := v.launchRecords_runSide j a
  have htview : (v.launchRecords j a).siteView i = v.siteView i := (congrArg (fun x : State => x.siteView i) hside :)
  have htseq : (v.launchRecords j a).getF R.CL.LAUNCH_SEQ.SEQ (clusterOf i) = v.getF R.CL.LAUNCH_SEQ.SEQ (clusterOf i) :=
    (congrArg (fun x : State => x.getF R.CL.LAUNCH_SEQ.SEQ (clusterOf i)) hside :)
  generalize v.launchRecords j a = t at *
  have hkernel : m.launchKernel j a k = m.placeLaunch i (m.launchRec j a k q i (m.freeFor i a.tl)) := by
    unfold State.launchKernel
    rw [hq]
    exact m.launchCore_eq a q hi
  obtain ⟨hcore, hwait, hcount⟩ : m.core i = s.core i ∧ m.waitingAt i = s.waitingAt i ∧
      m.getF R.CORE.INSTR_CNT.COUNT i = s.getF R.CORE.INSTR_CNT.COUNT i := by
    have h := hmview.trans hview
    exact ⟨congrArg Prod.fst h, congrArg (·.2.1) h, congrArg (·.2.2) h⟩
  have hfree : m.freeFor i a.tl = s.freeFor i a.tl := by
    unfold State.freeFor State.coreFree State.run
    rw [hmrun, hrun, hwait]
  have hrec (free : Bool) : m.launchRec j a k q i free = t.launchRec j a k q i free := by
    unfold State.launchRec
    rw [htseq, hvseq, hmseq]
  rw [hkernel, hfree, hrec] at hlast
  have hend := htview.trans hlast
  generalize hr : t.launchRec j a k q i (s.freeFor i a.tl) = r at *
  have hw : t.waitingAt i = (m.placeLaunch i r).waitingAt i := (congrArg (·.2.1) hend :)
  have hc : t.core i = (m.placeLaunch i r).core i := (congrArg Prod.fst hend :)
  refine ⟨?_, ?_⟩
  · rw [hw, State.placeLaunch_waiting]
    exact m.mem_withLaunch i _
  · rw [hc, State.placeLaunch_core, hcore, hcount, ← hr]
    cases s.freeFor i a.tl <;> rfl

/-! ### KERNEL_START (R215, R233) -/

theorem State.memRead_spread {s t : State} {a n : Nat} (h : a + n ≤ spreadSize)
    (hget : ∀ k, a ≤ k → k < a + n → Tab.get 0 t.mem k = Tab.get 0 s.mem k) : t.memRead a n = s.memRead a n :=
  State.memRead_eq_of_get fun i hi => by
    rw [t.canon_spread (by omega), s.canon_spread (by omega)]
    exact hget _ (by omega) (by omega)

theorem completionWord_start (state seq : Nat) : completionWord 0 state 0 seq = state * 2 ^ 16 + seq * 2 ^ 32 := by
  unfold completionWord
  rw [Nat.zero_add, Nat.zero_mul, Nat.add_zero]

/-- The completion word of a state without an error, written to chip memory. -/
theorem State.completionWord_spread (s : State) (p state seq : Nat) {w : Nat} (hw : w + 8 ≤ spreadSize) :
    let t := s.memWrite p w (natLE 8 (completionWord 0 state 0 seq))
    t.beside = s.beside ∧ t.memRead w 8 = natLE 8 (state * 2 ^ 16 + seq * 2 ^ 32) ∧ s.memBut t w 8 := by
  dsimp only
  rw [completionWord_start]
  generalize state * 2 ^ 16 + seq * 2 ^ 32 = v
  have hlen : (natLE 8 v).length = 8 := length_natLE 8 v
  have hend : w + (natLE 8 v).length ≤ spreadSize := by rwa [hlen]
  have hread := s.memRead_memWrite_same p w (natLE 8 v) (s.linksUp_spread hend) (s.canon_spread_inj hend)
  have hbut := s.memBut_memWrite_spread p hend
  rw [hlen] at hread hbut
  exact ⟨s.memWrite_spread_beside p hend, hread, hbut⟩

theorem State.complete_start (s : State) (site : Nat) (r : LaunchRec) :
    s.complete site r 1 0 0 = s.memWrite (corePort site) (r.area + 8 * r.lcore) (natLE 8 (completionWord 0 1 0 r.seq)) := rfl

theorem State.complete_busy (s : State) (site : Nat) (r : LaunchRec) : s.complete site r 4 0 0 =
    (s.memWrite (corePort site) (r.area + 8 * r.lcore) (natLE 8 (completionWord 0 4 0 r.seq))).atomicAdd (corePort site) r.ctr 1 := rfl

/-- The record of a launch that cannot start: its completion word, then the counter. -/
theorem State.complete_busy_spec (s : State) (site : Nat) {r : LaunchRec} (hctr : r.ctr % 8 = 0) (hw : r.area + 8 * r.lcore + 8 ≤ r.ctr)
    (hend : r.ctr + 8 ≤ spreadSize) : let t := s.complete site r 4 0 0
    t.beside = s.beside ∧ t.memRead (r.area + 8 * r.lcore) 8 = natLE 8 (4 * 2 ^ 16 + r.seq * 2 ^ 32) ∧
      leNat (t.memRead r.ctr 8) = (leNat (s.memRead r.ctr 8) + 1) % 2 ^ 64 := by
  dsimp only
  rw [State.complete_busy]
  obtain ⟨hbeside, hword, hbut⟩ := s.completionWord_spread (corePort site) 4 r.seq (w := r.area + 8 * r.lcore) (by omega)
  generalize s.memWrite (corePort site) (r.area + 8 * r.lcore) _ = u at *
  have hdown : u.t2Down r.ctr = false := State.t2Down_of_place (by rw [u.place_spread (by omega)]; simp)
  obtain ⟨hadd, hsum, haddBut⟩ := State.atomicAdd_line (corePort site) 1 hctr hdown
  rw [u.canon_spread (by omega)] at haddBut
  generalize u.atomicAdd (corePort site) r.ctr 1 = t at *
  refine ⟨hadd.trans hbeside, ?_, ?_⟩
  · rw [← hword]
    exact State.memRead_spread (by omega) fun k _ hk => haddBut k (by omega)
  · have hread : u.memRead r.ctr 8 = s.memRead r.ctr 8 := State.memRead_spread hend fun k hk _ => hbut k (by omega)
    rw [hsum, hread]

/-- The registers of the launch act, where no other core of the cluster runs on with the old ones. -/
def State.latchStart (s : State) (site : Nat) : State :=
  let cl := clusterOf site
  if (sitesOf cl).all fun i => (s.run i).isNone || (s.launchOf i).any (·.resume) || i == site then s.latchCl cl else s

/-- The registers of the launch act, and the launch commits. -/
def State.prepareStart (s : State) (site : Nat) (r : LaunchRec) : State :=
  let s := s.latchStart site
  if !r.resume && (sitesOf (clusterOf site)).all fun i => (s.run i).isNone then s.launchCommit (clusterOf site) else s

/-- A core that issues from its entry. -/
def CoreSite.issuesFrom (x : CoreSite) (pc : Nat) (haz : Bool) : CoreSite :=
  { x with st := .issuing, drain := .none, wait := .none, pc := pc, wldEver := false, wswpEver := false, haz := haz }

/-- The kernel runs. -/
def State.runKernel (s : State) (site : Nat) (r : LaunchRec) : State :=
  (s.setRun site (some r)).modCore site fun c => c.issuesFrom r.entry ((s.setRun site (some r)).getF R.CORE.SEQ_CTL.HAZ_CHK site == 1)

/-- The launch at the front has left the list and the lull slice yields. -/
def State.takeLaunch (s : State) (site : Nat) : State := (s.popLaunch site).yieldSlice site

/-- The kernel starts on a core made ready. -/
def State.startKernel (s : State) (site : Nat) (r : LaunchRec) : State :=
  let s := s.prepareStart site r
  (if r.loaded then s else s.loadFresh site r).runKernel site r

theorem exec_kernelStart {s : State} {site : Fin 672} {r : LaunchRec} (hr : s.launchOf site = some r) : exec (.kernelStart site) s =
    if s.now < r.tl || !s.regionOn (clusterOf site) || (s.core site).dead then .next s
    else if !(s.takeLaunch site).coreFree site && !r.resume then
      .next (((s.takeLaunch site).complete site r 4 0 0).reportSite site 4 7 0x3FFF 0 0 0 ((s.takeLaunch site).seqFaultWord site))
    else .next (if r.resume then (if (((s.takeLaunch site).startKernel site r).cluster (clusterOf site)).want.isSome then (s.takeLaunch site).startKernel site r
        else ((s.takeLaunch site).startKernel site r).setF R.CL.REPLAY_STATUS.STATE (clusterOf site) 3)
      else ((s.takeLaunch site).startKernel site r).complete site r 1 0 0) := by
  show execKernelStart site s = _
  unfold execKernelStart
  rw [hr]
  rfl

theorem exec_kernelStart_acts {s : State} {site : Fin 672} {r : LaunchRec} (hr : s.launchOf site = some r) (htl : r.tl ≤ s.now)
    (hon : s.regionOn (clusterOf site) = true) (halive : (s.core site).dead = false) (hres : r.resume = false) : exec (.kernelStart site) s =
    if !(s.takeLaunch site).coreFree site then
      .next (((s.takeLaunch site).complete site r 4 0 0).reportSite site 4 7 0x3FFF 0 0 0 ((s.takeLaunch site).seqFaultWord site))
    else .next (((s.takeLaunch site).startKernel site r).complete site r 1 0 0) := by
  have hcond : ¬ (s.now < r.tl || !s.regionOn (clusterOf site) || (s.core site).dead) = true := by simp [hon, halive, htl]
  rw [exec_kernelStart hr, if_neg hcond, hres, Bool.not_false, Bool.and_true, if_neg Bool.false_ne_true]

theorem State.takeLaunch_besideDeath (s : State) (site : Nat) : (s.takeLaunch site).besideDeath = (s.popLaunch site).besideDeath :=
  State.yieldSlice_besideDeath _ site

theorem State.takeLaunch_waiting (s : State) (site : Nat) : (s.takeLaunch site).waitingAt site = s.laterOf site := by
  have h : (s.takeLaunch site).waitingAt site = (s.popLaunch site).waitingAt site :=
    (congrArg (fun x : State => x.waitingAt site) (s.takeLaunch_besideDeath site) :)
  rw [h, State.popLaunch, State.waitingAt_setWaiting]

theorem State.takeLaunch_keeps (s : State) (site : Nat) : (s.takeLaunch site).mem = s.mem ∧ (s.takeLaunch site).running = s.running := by
  have h := s.takeLaunch_besideDeath site
  exact ⟨(congrArg State.mem h :), (congrArg State.running h :)⟩

theorem State.takeLaunch_coreFree (s : State) (site : Nat) : (s.takeLaunch site).coreFree site = s.coreFree site := by
  unfold State.coreFree State.run
  rw [(s.takeLaunch_keeps site).2]

theorem State.takeLaunch_getF (s : State) (site : Nat) {f : Fld} (h : ∀ i j, f.key i ≠ R.CL.LULL_STATUS.ACTIVE.key j) (i : Nat) :
    (s.takeLaunch site).getF f i = s.getF f i := by
  rw [State.takeLaunch, State.getF_yieldSlice _ site h, State.popLaunch, State.setWaiting_getF]

theorem State.yieldSlice_cores {s t : State} (h : t.cores = s.cores) (site : Nat) : (t.yieldSlice site).cores = (s.yieldSlice site).cores := by
  have hcore : t.core site = s.core site := by
    unfold State.core
    rw [h]
  unfold State.yieldSlice
  rw [hcore]
  split
  · exact h
  · rw [State.setF_cores, State.setF_cores]
    unfold State.modCore State.setCore
    dsimp only
    rw [hcore, h]

theorem State.takeLaunch_cores (s : State) (site : Nat) : (s.takeLaunch site).cores = (s.yieldSlice site).cores :=
  State.yieldSlice_cores (s.setWaiting_cores site _) site

theorem State.core_of_cores {s t : State} (h : t.cores = s.cores) (i : Nat) : t.core i = s.core i := by
  unfold State.core
  rw [h]

/-- All but the registers in force. -/
def State.besideEff (s : State) : State := { s with eff := [] }

theorem State.latchCl_besideEff (s : State) (c : Nat) : (s.latchCl c).besideEff = s.besideEff := by
  unfold State.latchCl
  exact each_frame State.besideEff _ _ _ fun _ _ => rfl

theorem State.same_of_besideEff {s t : State} (h : t.besideEff = s.besideEff) :
    t.cores = s.cores ∧ (∀ i, t.waitingAt i = s.waitingAt i) ∧ ∀ f i, t.getF f i = s.getF f i :=
  ⟨(congrArg State.cores h :), fun i => (congrArg (fun x : State => x.waitingAt i) h :), fun f i => (congrArg (fun x : State => x.getF f i) h :)⟩

/-- What neither a latch of registers nor a commit of the launch changes, the start's preparation leaves. -/
theorem State.prepareStart_frame {β : Type} (part : State → β) (s : State) (site : Nat) (r : LaunchRec)
    (hlatch : ∀ (t : State) c, part (t.latchCl c) = part t) (hcommit : ∀ (t : State) c, part (t.launchCommit c) = part t) :
    part (s.prepareStart site r) = part s := by
  have hfirst : part (s.latchStart site) = part s := by
    unfold State.latchStart
    dsimp only
    split
    · exact hlatch s _
    · rfl
  unfold State.prepareStart
  dsimp only
  split
  · exact (hcommit _ _).trans hfirst
  · exact hfirst

theorem State.getF_launchCommit (s : State) (c : Nat) {f : Fld} {i : Nat} (h : f.key i ≠ R.CL.REPLAY_STATUS.STATE.key c) :
    (s.launchCommit c).getF f i = s.getF f i := by
  rw [State.launchCommit, State.getF_setF_ne _ _ _ _ _ _ h, State.modCluster_getF]

theorem State.prepareStart_keeps (s : State) (site : Nat) (r : LaunchRec) : (s.prepareStart site r).cores = s.cores ∧
    (s.prepareStart site r).mem = s.mem ∧ (s.prepareStart site r).waitingAt site = s.waitingAt site := by
  refine ⟨?_, ?_, ?_⟩
  · exact s.prepareStart_frame State.cores site r (fun t c => (State.same_of_besideEff (t.latchCl_besideEff c)).1) fun _ _ => rfl
  · exact s.prepareStart_frame State.mem site r (fun t c => t.latchCl_mem c) fun t c => t.launchCommit_mem c
  · exact s.prepareStart_frame (fun t => t.waitingAt site) site r
      (fun t c => (State.same_of_besideEff (t.latchCl_besideEff c)).2.1 site) fun _ _ => rfl

theorem State.getF_prepareStart (s : State) (site : Nat) (r : LaunchRec) {f : Fld} (h : ∀ i j, f.key i ≠ R.CL.REPLAY_STATUS.STATE.key j) (i : Nat) :
    (s.prepareStart site r).getF f i = s.getF f i :=
  s.prepareStart_frame (fun t => t.getF f i) site r (fun t c => (State.same_of_besideEff (t.latchCl_besideEff c)).2.2 f i)
    fun t c => t.getF_launchCommit c (h i c)

theorem State.runKernel_keeps (s : State) (site : Nat) (r : LaunchRec) : (s.runKernel site r).mem = s.mem ∧
    (s.runKernel site r).waitingAt site = s.waitingAt site ∧ (s.runKernel site r).run site = some r := by
  refine ⟨rfl, rfl, ?_⟩
  exact (State.run_setRun s site site (some r)).trans (if_pos rfl)

theorem State.core_runKernel (s : State) (site i : Nat) (r : LaunchRec) : (s.runKernel site r).core i =
    if i = site then (s.core site).issuesFrom r.entry (s.getF R.CORE.SEQ_CTL.HAZ_CHK site == 1) else s.core i :=
  State.core_modCore (s.setRun site (some r)) site i fun c => c.issuesFrom r.entry ((s.setRun site (some r)).getF R.CORE.SEQ_CTL.HAZ_CHK site == 1)

/-- A core that starts a kernel: loaded now if it was not before. -/
theorem State.startKernel_spec (s : State) (site : Nat) (r : LaunchRec) : let t := s.startKernel site r
    t.mem = s.mem ∧ t.waitingAt site = s.waitingAt site ∧ t.run site = some r ∧ (∀ i, i ≠ site → t.core i = s.core i) ∧
    t.core site = (if r.loaded then s.core site else (s.core site).fresh r (s.getF R.CORE.INSTR_CNT.COUNT site)).issuesFrom r.entry
      (s.getF R.CORE.SEQ_CTL.HAZ_CHK site == 1) := by
  obtain ⟨hcores, hmem, hwait⟩ := s.prepareStart_keeps site r
  have hcount := s.getF_prepareStart site r (f := R.CORE.INSTR_CNT.COUNT) (Fld.key_ne_of_low (by decide)) site
  have hhaz := s.getF_prepareStart site r (f := R.CORE.SEQ_CTL.HAZ_CHK) (Fld.key_ne_of_low (by decide)) site
  dsimp only
  unfold State.startKernel
  dsimp only
  generalize s.prepareStart site r = p at *
  have hcore := State.core_of_cores hcores
  cases hl : r.loaded
  · obtain ⟨hrmem, hrwait, hrun⟩ := (p.loadFresh site r).runKernel_keeps site r
    rw [if_neg Bool.false_ne_true, if_neg Bool.false_ne_true]
    refine ⟨?_, ?_, hrun, fun i hi => ?_, ?_⟩
    · rw [hrmem, State.loadFresh_mem, hmem]
    · rw [hrwait, State.waitingAt_of_besideLoad (p.loadFresh_besideLoad site r), hwait]
    · rw [State.core_runKernel, if_neg hi, State.core_loadFresh, if_neg hi, hcore]
    · rw [State.core_runKernel, if_pos rfl, State.core_loadFresh, if_pos rfl, p.getF_loadFresh site r (by decide), hhaz, hcount, hcore]
  · obtain ⟨hrmem, hrwait, hrun⟩ := p.runKernel_keeps site r
    rw [if_pos rfl, if_pos rfl]
    refine ⟨hrmem.trans hmem, hrwait.trans hwait, hrun, fun i hi => ?_, ?_⟩
    · rw [State.core_runKernel, if_neg hi, hcore]
    · rw [State.core_runKernel, if_pos rfl, hhaz, hcore]

theorem kernelStart_free {s : State} {site : Fin 672} {r : LaunchRec} (hr : s.launchOf site = some r) (htl : r.tl ≤ s.now)
    (hon : s.regionOn (clusterOf site) = true) (halive : (s.core site).dead = false) (hres : r.resume = false)
    (hw : r.area + 8 * r.lcore + 8 ≤ spreadSize) (hrun : s.run site = none) :
    ∃ t : State, exec (.kernelStart site) s = .next t ∧ t.run site = some r ∧ t.waitingAt site = s.laterOf site ∧
      t.core site = (if r.loaded then (s.yieldSlice site).core site else
        ((s.yieldSlice site).core site).fresh r (s.getF R.CORE.INSTR_CNT.COUNT site)).issuesFrom r.entry (s.getF R.CORE.SEQ_CTL.HAZ_CHK site == 1) ∧
      s.coresBut t [site.val] ∧ t.memRead (r.area + 8 * r.lcore) 8 = natLE 8 (1 * 2 ^ 16 + r.seq * 2 ^ 32) ∧
      s.memBut t (r.area + 8 * r.lcore) 8 := by
  have hfree : (s.takeLaunch site).coreFree site = true := by
    rw [s.takeLaunch_coreFree, State.coreFree, hrun]
    rfl
  have hexec := exec_kernelStart_acts hr htl hon halive hres
  rw [hfree, Bool.not_true, if_neg Bool.false_ne_true, State.complete_start] at hexec
  have hcount := s.takeLaunch_getF site (f := R.CORE.INSTR_CNT.COUNT) (Fld.key_ne_of_low (by decide)) site
  have hhaz := s.takeLaunch_getF site (f := R.CORE.SEQ_CTL.HAZ_CHK) (Fld.key_ne_of_low (by decide)) site
  have hcores := State.core_of_cores (s.takeLaunch_cores site)
  have hwait := s.takeLaunch_waiting site
  obtain ⟨hpmem, -⟩ := s.takeLaunch_keeps site
  generalize s.takeLaunch site = p at *
  obtain ⟨hmem, hlater, hruns, hothers, hcore⟩ := p.startKernel_spec site r
  generalize p.startKernel site r = u at *
  obtain ⟨hbeside, hread, hbut⟩ := u.completionWord_spread (corePort site) 1 r.seq hw
  generalize u.memWrite (corePort site) _ _ = t at *
  have ht (i : Nat) : t.core i = u.core i := State.part_of_beside (State.core · i) (fun _ => rfl) hbeside
  have htrun : t.run site = u.run site := State.part_of_beside (State.run · site) (fun _ => rfl) hbeside
  have htwait : t.waitingAt site = u.waitingAt site := State.part_of_beside (State.waitingAt · site) (fun _ => rfl) hbeside
  refine ⟨t, hexec, htrun.trans hruns, ?_, ?_, fun i hi => ?_, hread, fun k hk => ?_⟩
  · rw [htwait, hlater, hwait]
  · rw [ht, hcore, hcount, hhaz, hcores]
  · have hne : i ≠ site := fun h => hi (List.mem_singleton.2 h)
    rw [ht, hothers i hne, hcores, State.core_yieldSlice_ne s hne]
  · rw [hbut k hk, hmem, hpmem]

theorem kernelStart_busy {s : State} {site : Fin 672} {r q : LaunchRec} (hr : s.launchOf site = some r) (htl : r.tl ≤ s.now)
    (hon : s.regionOn (clusterOf site) = true) (halive : (s.core site).dead = false) (hres : r.resume = false)
    (hrun : s.run site = some q) (hctr : r.ctr % 8 = 0) (hw : r.area + 8 * r.lcore + 8 ≤ r.ctr) (hend : r.ctr + 8 ≤ spreadSize) :
    ∃ t : State, exec (.kernelStart site) s = .next t ∧ t.run site = some q ∧ t.waitingAt site = s.laterOf site ∧
      t.cores = (s.yieldSlice site).cores ∧ t.memRead (r.area + 8 * r.lcore) 8 = natLE 8 (4 * 2 ^ 16 + r.seq * 2 ^ 32) ∧
      leNat (t.memRead r.ctr 8) = (leNat (s.memRead r.ctr 8) + 1) % 2 ^ 64 := by
  have hbusy : (s.takeLaunch site).coreFree site = false := by
    rw [s.takeLaunch_coreFree, State.coreFree, hrun]
    rfl
  have hexec := exec_kernelStart_acts hr htl hon halive hres
  rw [hbusy, Bool.not_false, if_pos rfl] at hexec
  have hcores := s.takeLaunch_cores site
  have hwait := s.takeLaunch_waiting site
  obtain ⟨hpmem, hprun⟩ := s.takeLaunch_keeps site
  generalize s.takeLaunch site = p at *
  have hread : p.memRead r.ctr 8 = s.memRead r.ctr 8 := State.memRead_spread hend fun k _ _ => by rw [hpmem]
  obtain ⟨hbeside, hword, hsum⟩ := p.complete_busy_spec site hctr hw hend
  generalize p.complete site r 4 0 0 = u at *
  have htrun : u.run site = p.run site := State.part_of_beside (State.run · site) (fun _ => rfl) hbeside
  have htwait : u.waitingAt site = p.waitingAt site := State.part_of_beside (State.waitingAt · site) (fun _ => rfl) hbeside
  have htcores : u.cores = p.cores := State.part_of_beside State.cores (fun _ => rfl) hbeside
  refine ⟨_, hexec, ?_, htwait.trans hwait, htcores.trans hcores, hword, ?_⟩
  · refine htrun.trans ?_
    rw [State.run, hprun]
    exact hrun
  · rw [← hread]
    exact hsum

/-- Settles O27: a launch goes to each cluster once and to each site of its kernels once; a start takes the launch, makes the core ready,
then writes the completion word. -/
theorem launchCommands : Obligations.LaunchCommands := by
  unfold Obligations.LaunchCommands
  refine fun s => ⟨fun a j hj hlead => ⟨fun hok => ?_, fun htl => ?_, fun hmark hheld => ?_, fun hok hclusters _ _ hsites => ?_⟩,
    fun site r hr => ⟨fun htl => ?_, fun htl hon halive hres _ hw => ⟨fun hrun => ?_,
      fun q hrun hctr hwc hend => kernelStart_busy hr htl hon halive hres hrun hctr hwc hend⟩⟩, fun c v ha hh => clTsig_cases s c v ha hh⟩
  · rw [exec_launch hj, hok, Bool.not_false, Bool.true_or, if_pos rfl]
  · unfold State.launchOk
    rw [decide_eq_false (by omega)]
    rfl
  · unfold State.launchOk
    rw [hmark, hheld, beq_self_eq_true, Bool.and_true, Bool.not_true, Bool.and_false, Bool.false_and]
  · obtain ⟨hmem, hrunning, hmarking⟩ := launched_keeps s j a
    have hexec := exec_launch hj
    rw [hok, hlead, Bool.not_true, Bool.or_false, if_neg Bool.false_ne_true] at hexec
    refine ⟨_, hexec, fun hmark => ?_, ?_, fun c hc => launch_clusters s j a hclusters hc, fun k q i hk hq hi => ?_⟩
    · exact (State.launchRecords_mem (hmarking.trans hmark)).trans hmem
    · exact (congrArg State.running (State.launchRecords_runSide _ j a) :).trans hrunning
    · obtain ⟨hwaits, hcore⟩ := launch_core s j a hsites hk hq hi
      refine ⟨⟨_, hwaits, rfl, rfl, rfl, rfl, rfl, rfl, rfl, rfl⟩, fun hfree => ?_, fun hbusy => ?_⟩
      · rw [hcore, if_pos (State.freeFor_of_all hfree)]
        rfl
      · rw [hcore, State.freeFor, hbusy, Bool.false_and, if_neg Bool.false_ne_true]
  · rw [exec_kernelStart hr, decide_eq_true htl, Bool.true_or, Bool.true_or, if_pos rfl]
  · obtain ⟨t, hexec, hruns, hwait, hcore, hothers, hread, hbut⟩ := kernelStart_free hr htl hon halive hres hw hrun
    refine ⟨t, hexec, hruns, hwait, hcore.trans ?_, hothers, hread, hbut⟩
    cases r.loaded <;> rfl

end Sys2Proof.Machine
end

section
/-! Proofs. The rows of a mover's copy (R203, R214, R216, R231): what the fences judge by stays as rows are copied, so the rows
that pass are those that pass at the start. -/

namespace Sys2Proof.Machine

/-! ### What the fences judge by (R192, R214) -/

/-- What a fence's judgement reads: the CL pages as the hardware acts on them, and the size of the tier-2 window. -/
def State.fenceSide (s : State) : Tab Nat × Nat := (s.eff, s.getF R.PCH.T2_CTL.WINDOW_GIB 0)

theorem State.fenceOk_of_fenceSide {s t : State} (h : t.fenceSide = s.fenceSide) (c : Nat) (wr : Bool) (a n : Nat) :
    t.fenceOk c wr a n = s.fenceOk c wr a n := by
  have heff : t.eff = s.eff := congrArg Prod.fst h
  have hsize : t.t2Size = s.t2Size := congrArg (fun x : Tab Nat × Nat => min 2048 x.2 * 2 ^ 30) h
  have hplace (b : Nat) : t.place b = s.place b := by simp only [State.place, hsize]
  have hunit (b : Nat) : t.fenceUnit b = s.fenceUnit b := by simp only [State.fenceUnit, hplace]
  have hhas (sp u : Nat) : t.fenceHas c wr sp u = s.fenceHas c wr sp u := by
    unfold State.fenceHas State.effF
    rw [heff]
  simp only [State.fenceOk, hunit, hhas]

theorem State.fenceSide_of_beside {s t : State} (h : t.beside = s.beside) : t.fenceSide = s.fenceSide :=
  State.part_of_beside State.fenceSide (fun _ => rfl) h

theorem State.addF_fenceSide (s : State) {f : Fld} {i : Nat} (n : Nat) (h : R.PCH.T2_CTL.WINDOW_GIB.key 0 ≠ f.key i) :
    (s.addF f i n).fenceSide = s.fenceSide :=
  Prod.ext rfl (State.getF_addF_ne _ _ _ _ _ _ h)

theorem State.countPoison_fenceSide (s : State) (secs : List Nat) : (s.countPoison secs).fenceSide = s.fenceSide := by
  have heff : (s.countPoison secs).eff = s.eff := (congrArg State.eff (s.countPoison_eq secs) :)
  have hwindow := s.countPoison_getF secs (f := R.PCH.T2_CTL.WINDOW_GIB) 0 (Fld.key_ne_of_low (by decide) 0) (by decide) (by decide)
  exact Prod.ext heff hwindow

/-- A write to tier 2 over a link that is down is counted (R209); any other touches memory alone. -/
theorem State.writeSeg_fenceSide (s : State) (p a : Nat) (bs : List Byte) : (s.writeSeg p a bs).fenceSide = s.fenceSide := by
  cases hdown : s.t2Down a with
  | false => exact State.fenceSide_of_beside (State.writeSeg_beside hdown p bs)
  | true =>
    rw [State.writeSeg, hdown, if_pos rfl]
    exact s.addF_fenceSide 1 (by decide)

theorem State.memWrite_fenceSide (s : State) (p a : Nat) (bs : List Byte) : (s.memWrite p a bs).fenceSide = s.fenceSide :=
  each_frame State.fenceSide _ _ _ fun _ _ => State.writeSeg_fenceSide _ _ _ _

theorem State.poisonTo_fenceSide (s : State) (dst n : Nat) (hit : List Nat) : (s.poisonTo dst n hit).fenceSide = s.fenceSide := by
  refine (each_frame State.fenceSide _ _ State.setPoison fun _ _ => rfl).trans ?_
  split
  · rfl
  · exact State.fenceSide_of_beside (s.flushRange_beside dst n)

theorem State.copyRow_fenceSide (s : State) (port src dst n : Nat) : (s.copyRow port src dst n).fenceSide = s.fenceSide := by
  have hflush : (s.flushRange src n).fenceSide = s.fenceSide := State.fenceSide_of_beside (s.flushRange_beside src n)
  exact ((State.poisonTo_fenceSide _ _ _ _).trans (State.memWrite_fenceSide _ _ _ _)).trans
    ((State.countPoison_fenceSide _ _).trans hflush)

/-! ### Rows copied in order (R231) -/

/-- The rows of a list, copied in its order. -/
def State.copiedRows (s : State) (port : Nat) (b : MovBlock) (rows : List Nat) : State :=
  each rows s fun s r => s.copyRow port (b.src + r * b.sp) (b.dst + r * b.dp) b.bytes

theorem State.copiedRows_fenceSide (s : State) (port : Nat) (b : MovBlock) (rows : List Nat) :
    (s.copiedRows port b rows).fenceSide = s.fenceSide :=
  each_frame State.fenceSide _ _ _ fun _ _ => State.copyRow_fenceSide _ _ _ _ _

/-- Row r of a copy passes cluster c's fences: its source as a read, its destination as a write (R214). -/
def State.rowPasses (s : State) (c : Nat) (b : MovBlock) (r : Nat) : Prop :=
  s.fenceOk c false (b.src + r * b.sp) b.bytes = true ∧ s.fenceOk c true (b.dst + r * b.dp) b.bytes = true

theorem State.rowPasses_of_fenceSide {s t : State} (h : t.fenceSide = s.fenceSide) {c : Nat} {b : MovBlock} {r : Nat}
    (hpass : s.rowPasses c b r) : t.rowPasses c b r := by
  unfold State.rowPasses
  rwa [State.fenceOk_of_fenceSide h, State.fenceOk_of_fenceSide h]

section
variable {s : State} {c port : Nat} {b : MovBlock}

theorem State.rowRefused_of_passes {r : Nat} (h : s.rowPasses c b r) :
    s.rowRefused (some c) (b.src + r * b.sp) (b.dst + r * b.dp) b.bytes = none := by
  obtain ⟨hread, hwrite⟩ := h
  simp only [State.rowRefused, hread, hwrite, Bool.not_true, Bool.false_eq_true, if_false]

theorem State.rowRefused_read {src dst n : Nat} (hread : s.fenceOk c false src n = false) :
    s.rowRefused (some c) src dst n = some (s.refuse c false none) := by
  simp only [State.rowRefused, hread, Bool.not_false, if_true]

theorem State.rowRefused_write {src dst n : Nat} (hread : s.fenceOk c false src n = true) (hwrite : s.fenceOk c true dst n = false) :
    s.rowRefused (some c) src dst n = some (s.refuse c true none) := by
  simp only [State.rowRefused, hread, hwrite, Bool.not_true, Bool.not_false, Bool.false_eq_true, if_false, if_true]

/-- Rows that pass as the copy stands are copied, and the copy goes on with those that follow. -/
theorem State.moveRows_passes {r k : Nat} (n : Nat) (h : ∀ i, i < k → s.rowPasses c b (r + i)) :
    s.moveRows (some c) port b r (k + n) = (s.copiedRows port b (List.range' r k)).moveRows (some c) port b (r + k) n := by
  induction k generalizing s r with
  | zero => rw [Nat.zero_add]; rfl
  | succ k ih =>
    have hhead : s.rowPasses c b r := h 0 (Nat.succ_pos k)
    have htail (i : Nat) (hi : i < k) : (s.copyRow port (b.src + r * b.sp) (b.dst + r * b.dp) b.bytes).rowPasses c b (r + 1 + i) := by
      rw [Nat.add_assoc, Nat.add_comm 1 i]
      exact State.rowPasses_of_fenceSide (s.copyRow_fenceSide ..) (h (i + 1) (Nat.succ_lt_succ hi))
    rw [Nat.succ_add, State.moveRows]
    simp only [State.rowRefused_of_passes hhead]
    rw [ih htail, Nat.add_assoc, Nat.add_comm 1 k]
    rfl

theorem State.moveRows_all (h : ∀ r, r < b.rows → s.rowPasses c b r) :
    s.moveRows (some c) port b 0 b.rows = (s.copiedRows port b (List.range b.rows), 0) := by
  rw [List.range_eq_range']
  exact State.moveRows_passes 0 fun i hi => by rw [Nat.zero_add]; exact h i hi

/-- A copy stops at a row that is refused, the rows before it complete. -/
theorem State.moveRows_stops {k : Nat} (hk : k < b.rows) (h : ∀ r, r < k → s.rowPasses c b r) {t : State}
    (ht : (s.copiedRows port b (List.range k)).rowRefused (some c) (b.src + k * b.sp) (b.dst + k * b.dp) b.bytes = some t) :
    s.moveRows (some c) port b 0 b.rows = (t, 2) := by
  obtain ⟨n, hn⟩ : ∃ n, b.rows = k + (n + 1) := ⟨b.rows - k - 1, by omega⟩
  rw [hn, State.moveRows_passes (n + 1) fun i hi => by rw [Nat.zero_add]; exact h i hi, ← List.range_eq_range', Nat.zero_add,
    State.moveRows]
  simp only [ht]

end

/-! ### MOVER_COPY on a bound list (R216, R231) -/

/-- The copy of a bound list ends with the state and STATUS that its rows come to; a STATUS that is not zero is reported. -/
theorem exec_moverCopy_rows {s t : State} {m : Fin 6} {l : Fin 16} {c : MovCmd} {o st : Nat} (hcmd : (s.mover m l).cmd = some c)
    (hdone : c.done = false) (hl : l.val ≠ 15) (howner : s.listOwner m l = some o) (hok : (MovBlock.of c.block).ok = true)
    (hrows : s.moveRows (some o) (servicePort m) (MovBlock.of c.block) 0 (MovBlock.of c.block).rows = (t, st)) :
    exec (.moverCopy m l) s = .next ((if st = 0 then t else t.reportUnit 4 6 (wholeUnit 8 (netRegion m)) 0).modMover m l fun x =>
      { x with cmd := some { c with status := st, done := true } }) := by
  show execMoverCopy m l s = _
  unfold execMoverCopy
  rw [hcmd]
  simp only [hdone, hl, howner, hok, hrows, Option.isNone_some, Bool.not_true, Bool.false_and, Bool.false_eq_true, if_false]

/-- Settles O24: copied rows change nothing that a fence judges by, so the copy goes up to the first row refused at the start. -/
theorem moverStopsAtRefusedRow : Obligations.MoverStopsAtRefusedRow := by
  unfold Obligations.MoverStopsAtRefusedRow
  intro s m l c o hcmd hdone hl howner b hok
  have hexec {t : State} {st : Nat} := exec_moverCopy_rows (t := t) (st := st) hcmd hdone hl howner hok
  refine ⟨fun hpass => hexec (State.moveRows_all hpass), fun k hk hpass => ?_⟩
  have hfence := State.fenceOk_of_fenceSide (s.copiedRows_fenceSide (servicePort m) b (List.range k)) o
  exact ⟨fun hread => hexec (State.moveRows_stops hk hpass (State.rowRefused_read ((hfence ..).trans hread))),
    fun hread hwrite => hexec (State.moveRows_stops hk hpass
      (State.rowRefused_write ((hfence ..).trans hread) ((hfence ..).trans hwrite)))⟩

end Sys2Proof.Machine
end

section
/-! Proofs. The admission record (R236): its fields, and what ADMISSION reports of a program that no binding admits and of one
that a binding admits (R235, R237). -/

namespace Sys2Proof.Machine

/-! ### The record's bytes -/

theorem AdmRec.length_bytes (r : AdmRec) : r.bytes.length = 16 := length_natLE 16 _

/-- The number that a record with fields within their widths spells. -/
theorem AdmRec.leNat_bytes {r : AdmRec} (hcode : r.code < 256) (hunit : r.unit < 65536) (hneed : r.need < 2 ^ 32)
    (havail : r.avail < 2 ^ 32) : leNat r.bytes = r.code + r.unit * 2 ^ 16 + r.need * 2 ^ 32 + r.avail * 2 ^ 64 := by
  rw [AdmRec.bytes, leNat_natLE, Nat.mod_eq_of_lt hunit, Nat.min_eq_left (by omega), Nat.min_eq_left (by omega)]
  exact Nat.mod_eq_of_lt (by omega)

/-! ### The code of a refusal (R235) -/

/-- A check's answer, where it refuses, names a code that is not 0x00. -/
def NamesCode (o : Option AdmRec) : Prop := ∀ r, o = some r → r.code ≠ 0

theorem namesCode_none : NamesCode none := fun _ h => nomatch h

theorem namesCode_some {r : AdmRec} (h : r.code ≠ 0) : NamesCode (some r) := fun _ hr => Option.some.inj hr ▸ h

theorem namesCode_ite {code unit need avail : Nat} (p : Prop) [Decidable p] :
    NamesCode (if p then some ⟨code + 1, unit, need, avail⟩ else none) := by
  split
  · exact namesCode_some (Nat.succ_ne_zero code)
  · exact namesCode_none

theorem NamesCode.orElse {o q : Option AdmRec} (ho : NamesCode o) (hq : NamesCode q) : NamesCode (o <|> q) := by
  cases o with
  | none => exact hq
  | some r => exact ho

theorem namesCode_findSome {α : Type} {f : α → Option AdmRec} (l : List α) (h : ∀ a, NamesCode (f a)) : NamesCode (l.findSome? f) :=
  fun r hr => by
    obtain ⟨a, -, ha⟩ := List.exists_of_findSome?_eq_some hr
    exact h a r ha

section
variable (s : State) (p : Program) (cl : List Nat)

theorem State.fileCheck_namesCode : NamesCode (s.fileCheck p) :=
  (namesCode_ite _).orElse <| (namesCode_ite _).orElse <| (namesCode_ite _).orElse <|
  (namesCode_ite _).orElse <| (namesCode_ite _).orElse <|
  (namesCode_findSome _ fun _ => namesCode_ite _).orElse <| namesCode_findSome _ fun _ => namesCode_ite _

theorem State.storeCheck_namesCode (sp : Nat) : NamesCode (s.storeCheck p sp) := by
  unfold State.storeCheck
  split
  · exact namesCode_none
  · exact namesCode_some (by show 7 + sp ≠ 0; omega)

theorem State.routeCheck_namesCode : NamesCode (s.routeCheck p cl) :=
  (namesCode_findSome _ fun _ => namesCode_ite _).orElse <|
  (namesCode_findSome _ fun _ => namesCode_ite _).orElse <| namesCode_findSome _ fun _ => namesCode_ite _

theorem State.poolCheck_namesCode : NamesCode (s.poolCheck p) :=
  (namesCode_findSome _ fun _ => namesCode_ite _).orElse <| (namesCode_ite _).orElse <|
  (namesCode_ite _).orElse <| (namesCode_ite _).orElse <| (namesCode_ite _).orElse <|
  namesCode_ite _

theorem State.budgetCheck_namesCode : NamesCode (s.budgetCheck p cl) :=
  (namesCode_ite _).orElse <| (namesCode_ite _).orElse <|
  (namesCode_findSome _ fun _ => namesCode_ite _).orElse <| (namesCode_ite _).orElse <|
  namesCode_ite _

theorem State.admCheck_namesCode : NamesCode (s.admCheck p cl) :=
  (s.fileCheck_namesCode p).orElse <| (s.storeCheck_namesCode p 0).orElse <| (s.storeCheck_namesCode p 1).orElse <|
  (s.storeCheck_namesCode p 2).orElse <| (namesCode_findSome _ fun _ => namesCode_ite _).orElse <|
  (s.routeCheck_namesCode p cl).orElse <| (s.poolCheck_namesCode p).orElse <| s.budgetCheck_namesCode p cl

theorem State.bindings_ne_nil : s.bindings p ≠ [] := List.append_ne_nil_of_right_ne_nil _ (List.cons_ne_nil _ _)

end

/-! ### ADMISSION of a program that every binding fails -/

/-- The record of the first binding's failed check is all that a refusal leaves. -/
theorem exec_admission_refused {s : State} {p : Program} (hon : s.module_.v36 = true) (hhold : s.ctl.holdAdm = false)
    (hidle : s.module_.idle = false) (hlead : s.leaderless = false)
    (h : ∀ cl ∈ s.applyWindow.bindings p, s.applyWindow.admCheck p cl ≠ none) :
    ∃ r : AdmRec, r.code ≠ 0 ∧ exec (.admission p) s = .next (s.admRecord r) := by
  obtain ⟨cl, rest, hbind⟩ := List.exists_cons_of_ne_nil (s.applyWindow.bindings_ne_nil p)
  obtain ⟨r, hr⟩ := Option.ne_none_iff_exists'.1 (h cl (by simp [hbind]))
  have hfind : (s.applyWindow.bindings p).find? (fun cl => (s.applyWindow.admCheck p cl).isNone) = none :=
    List.find?_eq_none.2 fun cl hcl => by simpa using h cl hcl
  refine ⟨r, s.applyWindow.admCheck_namesCode p cl r hr, ?_⟩
  show execAdmission p s = _
  unfold execAdmission
  dsimp only
  rw [if_neg (by simp [hon, hhold, hidle, hlead]), hfind, hbind]
  dsimp only [List.head?_cons, Option.bind_some]
  rw [hr]
  rfl

/-- Settles O25: the record's fields stand apart in its number, and every check that refuses names a code. -/
theorem admissionRecords : Obligations.AdmissionRecords := by
  unfold Obligations.AdmissionRecords
  refine ⟨fun r hcode hunit hneed havail => ?_, fun s p hon hhold hidle hlead => ⟨fun hfail => ?_, fun cl id hfind hid hfree hlow => ?_⟩⟩
  · rw [AdmRec.leNat_bytes hcode hunit hneed havail]
    simp only [bits, Nat.shiftRight_eq_div_pow]
    refine ⟨r.length_bytes, ?_, ?_, ?_, ?_, ?_, ?_⟩ <;> omega
  · exact exec_admission_refused hon hhold hidle hlead hfail
  · refine ⟨_, exec_admission hon hhold hidle hlead hfind (State.find_freeJob hid hfree hlow), rfl, ?_⟩
    exact congrArg (Option.map Job.prog) (s.applyWindow.bindJob_job (s.applyWindow.makeJob p cl) id)

end Sys2Proof.Machine
end

section
/-! Proofs. Landing windows and multicast entries (R217, R259 to R264, R422): what a write of LWT.CMD comes to, by the result of
an open and the state of the window, the end of a close, and the writes of a notice entry and of a multicast entry. -/

namespace Sys2Proof.Machine

theorem getLsbD_eq_flag {n : Nat} (v : BitVec n) (i : Nat) : v.getLsbD i = flag v.toNat i := (flag_eq_testBit v.toNat i).symm

theorem State.asActive_active {s : State} (h : s.active.isSome = true) (f : State → State) : s.asActive f = f s := if_pos h

/-! ### What a write of the window's registers may change -/

/-- The window `n` becomes `x`, RESULT is `r`, and nothing else differs. -/
structure State.WindowOnly (s t : State) (n : Nat) (x : Window) (r : Nat) : Prop where
  frame  : t = { s with regs := t.regs, fab := { s.fab with windows := t.fab.windows } }
  window : t.window n = x
  others : ∀ k, k ≠ n → t.window k = s.window k
  result : t.getF R.LWT.CMD.RESULT 0 = r
  regs   : s.regsBut t [R.LWT.CMD.RESULT.key 0]

section
variable {s t : State} {n r : Nat} {x : Window}

/-- A result alone is shown. -/
theorem State.WindowOnly.of_result (s : State) (n : Nat) (h : r < 8) :
    s.WindowOnly (s.setF R.LWT.CMD.RESULT 0 r) n (s.window n) r where
  frame  := rfl
  window := rfl
  others := fun _ _ => rfl
  result := (s.getF_setF_same _ 0 r).trans (Nat.mod_eq_of_lt h)
  regs   := s.regsBut_setF _ 0 r

/-- The window alone changes. -/
theorem State.WindowOnly.of_window (s : State) (n : Nat) (g : Window → Window) :
    s.WindowOnly (s.modWindow n g) n (g (s.window n)) (s.getF R.LWT.CMD.RESULT 0) where
  frame  := rfl
  window := by rw [State.window_modWindow, if_pos rfl]
  others := fun k hk => by rw [State.window_modWindow, if_neg hk]
  result := rfl
  regs   := fun _ _ => rfl

/-- A result is shown after the window has changed. -/
theorem State.WindowOnly.with_result (h : s.WindowOnly t n x r) {q : Nat} (hq : q < 8) :
    s.WindowOnly (t.setF R.LWT.CMD.RESULT 0 q) n x q := by
  obtain ⟨hframe, hwindow, hothers, -, hregs⟩ := h
  refine ⟨?_, hwindow, hothers, (t.getF_setF_same _ 0 q).trans (Nat.mod_eq_of_lt hq), fun k hk => ?_⟩
  · rw [hframe]; rfl
  · rw [t.regsBut_setF _ 0 q k hk, hregs k hk]

end

/-! ### The result of an open (R260) -/

section
variable {s : State} {w : Window}

theorem State.openResult_notClosed (h : w.st ≠ 0) : s.openResult w = 1 := if_pos h

theorem State.openResult_early {u : Nat} (hst : w.st = 0) (hclosed : w.closedAt = some u) (h : s.now < u + 50000) :
    s.openResult w = 2 := by
  unfold State.openResult
  simp [hst, hclosed, h]

/-- The window is closed, and 50 µs have passed since its close. -/
structure State.MayReopen (s : State) (w : Window) : Prop where
  closed : w.st = 0
  late   : ∀ u, w.closedAt = some u → u + 50000 ≤ s.now

theorem State.openResult_range (h : s.MayReopen w)
    (hrange : 2 ^ 32 < w.size ∨ w.size = 0 ∨ ∀ c ∈ s.owners w.tag, s.rangeFenced c w.base w.size = false) : s.openResult w = 3 := by
  obtain ⟨hst, hlate⟩ := h
  have hbad : (decide (2 ^ 32 < w.size) || decide (w.size = 0) || !(s.owners w.tag).any fun c => s.rangeFenced c w.base w.size) = true := by
    rcases hrange with hlarge | hempty | hfence
    · rw [decide_eq_true hlarge]; rfl
    · simp [hempty]
    · simpa using Or.inr hfence
  unfold State.openResult
  cases hclosed : w.closedAt with
  | none => simp only [hst, hbad, if_true, if_false, ne_eq, not_true_eq_false, Bool.false_eq_true]
  | some u =>
    have := hlate u hclosed
    simp only [hst, hbad, if_true, if_false, ne_eq, not_true_eq_false, decide_eq_true_eq, Nat.not_lt.2 this]

/-- A range in order leaves the notice target to be judged. -/
theorem State.openResult_fenced (h : s.MayReopen w) {c : Nat} (hc : c ∈ s.owners w.tag) (hpos : 0 < w.size) (hsize : w.size ≤ 2 ^ 32)
    (hfence : s.rangeFenced c w.base w.size = true) :
    s.openResult w = if w.nvalid && !s.targetOk (s.owners w.tag) w.ncl w.nsite w.ntok then 4 else 0 := by
  obtain ⟨hst, hlate⟩ := h
  have hgood : (decide (2 ^ 32 < w.size) || decide (w.size = 0) || !(s.owners w.tag).any fun c => s.rangeFenced c w.base w.size) = false := by
    have hany : ((s.owners w.tag).any fun c => s.rangeFenced c w.base w.size) = true := List.any_eq_true.2 ⟨c, hc, hfence⟩
    rw [hany, decide_eq_false (Nat.not_lt.2 hsize), decide_eq_false (Nat.ne_of_gt hpos)]
    rfl
  unfold State.openResult
  cases hclosed : w.closedAt with
  | none => simp only [hst, hgood, if_false, ne_eq, not_true_eq_false, Bool.false_eq_true]
  | some u =>
    have := hlate u hclosed
    simp only [hst, hgood, if_false, ne_eq, not_true_eq_false, decide_eq_true_eq, Nat.not_lt.2 this, Bool.false_eq_true]

end

/-! ### A write of LWT.CMD (R260, R262) -/

section
variable {s : State} {v : Nat}

theorem State.windowCmd_busy (h : s.getF R.LWT.CMD.BUSY 0 = 1) : s.windowCmd v = s := if_pos h

theorem State.windowCmd_both (hbusy : s.getF R.LWT.CMD.BUSY 0 ≠ 1) (h0 : flag v 0 = true) (h1 : flag v 1 = true) :
    s.windowCmd v = s.setF R.LWT.CMD.RESULT 0 6 := by
  simp only [State.windowCmd, if_neg hbusy, h0, h1, Bool.and_self, if_true]

theorem State.windowCmd_open (hbusy : s.getF R.LWT.CMD.BUSY 0 ≠ 1) (h0 : flag v 0 = true) (h1 : flag v 1 = false) :
    s.windowCmd v =
      let n := s.getF R.LWT.SEL.WINDOW 0
      let r := s.openResult (s.window n)
      if r = 0 then (s.modWindow n fun w => { w with st := 1, gen := (w.gen + 1) % 256 }).setF R.LWT.CMD.RESULT 0 0
      else s.setF R.LWT.CMD.RESULT 0 r := by
  simp only [State.windowCmd, if_neg hbusy, h0, h1, Bool.and_false, Bool.false_eq_true, if_true, if_false]

theorem State.windowCmd_close (hbusy : s.getF R.LWT.CMD.BUSY 0 ≠ 1) (h0 : flag v 0 = false) (h1 : flag v 1 = true) :
    s.windowCmd v =
      let n := s.getF R.LWT.SEL.WINDOW 0
      if (s.window n).st ≠ 1 then s.setF R.LWT.CMD.RESULT 0 5
      else ((s.modWindow n fun w => { w with st := 2 }).modFab fun f => { f with closing := some n }).setF R.LWT.CMD.BUSY 0 1 := by
  simp only [State.windowCmd, if_neg hbusy, h0, h1, Bool.and_true, Bool.false_eq_true, if_true, if_false]

/-- What an open comes to, by its result. -/
theorem State.windowCmd_openOnly (hbusy : s.getF R.LWT.CMD.BUSY 0 ≠ 1) (h0 : flag v 0 = true) (h1 : flag v 1 = false) {n r : Nat}
    (hn : s.getF R.LWT.SEL.WINDOW 0 = n) (hr : s.openResult (s.window n) = r) (hlt : r < 8) :
    s.WindowOnly (s.windowCmd v) n (if r = 0 then { s.window n with st := 1, gen := ((s.window n).gen + 1) % 256 } else s.window n) r := by
  rw [State.windowCmd_open hbusy h0 h1]
  simp only [hn, hr]
  split_ifs with hzero
  · subst hzero
    exact (State.WindowOnly.of_window s n _).with_result hlt
  · exact State.WindowOnly.of_result s n hlt

end

/-! ### The commands -/

section
variable {s : State} {v : BitVec 32} (hactive : s.active.isSome = true)
include hactive

theorem exec_windowOpen (hhost : s.hosted 12 0 = true) (h : flag v.toNat 0 = true) :
    exec (.windowOpen v) s = .next (s.windowCmd v.toNat) := by
  show Host.Outcome.next _ = _
  rw [State.asActive_active hactive, hhost, h]
  rfl

theorem exec_windowClose (hhost : s.hosted 12 0 = true) (h : flag v.toNat 1 = true) :
    exec (.windowClose v) s = .next (s.windowCmd v.toNat) := by
  show Host.Outcome.next _ = _
  rw [State.asActive_active hactive, hhost, h]
  rfl

/-- R422: while a close is under way neither command does anything. -/
theorem exec_windowCmd_busy (hbusy : s.getF R.LWT.CMD.BUSY 0 = 1) :
    exec (.windowOpen v) s = .next s ∧ exec (.windowClose v) s = .next s := by
  constructor
  · show Host.Outcome.next _ = _
    rw [State.asActive_active hactive, State.windowCmd_busy hbusy, ite_self]
  · show Host.Outcome.next _ = _
    rw [State.asActive_active hactive, State.windowCmd_busy hbusy, ite_self]

theorem exec_windowNotifyChange (hhost : s.hosted 12 0 = true) : exec (.windowNotifyChange v) s = .next (s.notifyWrite v.toNat) := by
  show Host.Outcome.next _ = _
  rw [State.asActive_active hactive, if_pos hhost]

theorem exec_multicastEntryWrite (hhost : s.hosted 13 0 = true) : exec (.multicastEntryWrite v) s = .next (s.mcastEntry v.toNat) := by
  show Host.Outcome.next _ = _
  rw [State.asActive_active hactive, if_pos hhost]

end

section
variable {s : State}

theorem exec_windowCloseComplete_idle (h : s.fab.closing = none) : exec .windowCloseComplete s = .next s := by
  show execWindowCloseComplete s = _
  rw [execWindowCloseComplete, h]

theorem exec_windowCloseComplete_landing {k : Nat} (h : s.fab.closing = some k) (hl : s.landing k = true) :
    exec .windowCloseComplete s = .next s := by
  show execWindowCloseComplete s = _
  rw [execWindowCloseComplete, h]
  exact if_pos hl

/-- R262: the close ends once nothing of the window is on its way into memory. -/
theorem exec_windowCloseComplete {k : Nat} (h : s.fab.closing = some k) (hl : s.landing k = false) :
    ∃ (t : State), exec .windowCloseComplete s = .next t ∧
      t = { s with regs := t.regs, fab := { s.fab with windows := t.fab.windows, closing := none } } ∧
      t.window k = { s.window k with st := 0, closedAt := some s.now } ∧
      t.getF R.LWT.CMD.BUSY 0 = 0 ∧ t.getF R.LWT.CMD.RESULT 0 = 0 ∧ s.regsBut t [R.LWT.CMD.BUSY.key 0, R.LWT.CMD.RESULT.key 0] := by
  let u := (s.modWindow k fun w => { w with st := 0, closedAt := some s.now }).modFab fun f => { f with closing := none }
  refine ⟨(u.setF R.LWT.CMD.BUSY 0 0).setF R.LWT.CMD.RESULT 0 0, ?_, rfl, ?_, ?_, State.getF_setF_same _ _ _ _, ?_⟩
  · show execWindowCloseComplete s = _
    rw [execWindowCloseComplete, h]
    exact if_neg (by simp [hl])
  · exact (s.window_modWindow k k fun w => { w with st := 0, closedAt := some s.now }).trans (if_pos rfl)
  · rw [State.getF_setF_ne _ _ _ _ _ _ (by decide)]
    exact State.getF_setF_same _ _ _ _
  · exact State.regsBut_trans (t := u.setF R.LWT.CMD.BUSY 0 0) (State.regsBut_setF u _ 0 0) (State.regsBut_setF _ _ 0 0)

/-- R263: a write of the notice entry, by the state of the window and its target. -/
theorem State.notifyWrite_only (s : State) (v : Nat) {n : Nat} (hn : s.getF R.LWT.SEL.WINDOW 0 = n) :
    let w := s.window n; let cl := bits v 5 1; let site := bits v 10 6; let tok := bits v 18 11; let r := s.getF R.LWT.CMD.RESULT 0
    (w.st = 0 → s.WindowOnly (s.notifyWrite v) n { w with nvalid := flag v 0, ncl := cl, nsite := site, ntok := tok } r) ∧
    (w.st ≠ 0 → s.targetOk (s.owners w.tag) cl site tok = true →
      s.WindowOnly (s.notifyWrite v) n { w with ncl := cl, nsite := site, ntok := tok } r) ∧
    (w.st ≠ 0 → s.targetOk (s.owners w.tag) cl site tok = false → s.WindowOnly (s.notifyWrite v) n w 4) := by
  intro w cl site tok r
  refine ⟨fun hst => ?_, fun hst hok => ?_, fun hst hok => ?_⟩
  · have heq : s.notifyWrite v = s.modWindow n fun w => { w with nvalid := flag v 0, ncl := cl, nsite := site, ntok := tok } := by
      rw [State.notifyWrite, hn]
      exact if_pos hst
    rw [heq]
    exact State.WindowOnly.of_window s n _
  · have heq : s.notifyWrite v = s.modWindow n fun w => { w with ncl := cl, nsite := site, ntok := tok } := by
      rw [State.notifyWrite, hn]
      exact (if_neg hst).trans (if_pos hok)
    rw [heq]
    exact State.WindowOnly.of_window s n _
  · have heq : s.notifyWrite v = s.setF R.LWT.CMD.RESULT 0 4 := by
      rw [State.notifyWrite, hn]
      exact (if_neg hst).trans (if_neg (by rw [hok]; simp))
    rw [heq]
    exact State.WindowOnly.of_result s n (by decide)

end

/-! ### Multicast entries (R264) -/

section
variable {s : State} {v : Nat}

theorem bits_low_twelve (v : Nat) : bits v 11 0 = v % 4096 := rfl

/-- A device of this device's plane: the selected entry is set, and REFUSED is cleared. -/
theorem State.mcastEntry_samePlane (h : v % 4096 / 2048 = s.devId / 2048) : s.mcastEntry v = s.modFab fun f =>
    let g := s.getF R.MCG.SEL.GROUP 0
    let x : McGroup := Tab.get {} f.mcast g
    { f with mcRefused := Tab.set 0 f.mcRefused g 0,
             mcast := Tab.set {} f.mcast g { x with entries := Tab.set 0 x.entries (s.getF R.MCG.SEL.ENTRY 0) (v % 2 ^ 31) } } := by
  have hbad : (bits v 11 0 / 2048 != s.devId / 2048) = false := by rw [bits_low_twelve, h, bne_self_eq_false]
  rw [State.mcastEntry, hbad]
  rfl

/-- A device of the other plane: REFUSED is set. -/
theorem State.mcastEntry_otherPlane (h : v % 4096 / 2048 ≠ s.devId / 2048) : s.mcastEntry v = s.modFab fun f =>
    { f with mcRefused := Tab.set 0 f.mcRefused (s.getF R.MCG.SEL.GROUP 0) 1 } := by
  have hbad : (bits v 11 0 / 2048 != s.devId / 2048) = true := by rw [bits_low_twelve]; exact bne_iff_ne.2 h
  rw [State.mcastEntry, hbad]
  rfl

theorem State.mcastEntry_spec (s : State) (v : Nat) : let t := s.mcastEntry v
    let g := s.getF R.MCG.SEL.GROUP 0; let e := s.getF R.MCG.SEL.ENTRY 0
    t = { s with fab := { s.fab with mcast := t.fab.mcast, mcRefused := t.fab.mcRefused } } ∧
      (v % 4096 / 2048 = s.devId / 2048 → Tab.get 0 t.fab.mcRefused g = 0 ∧
        Tab.get 0 (Tab.get {} t.fab.mcast g).entries e = v % 2 ^ 31 ∧
        ∀ h k, h ≠ g ∨ k ≠ e → Tab.get 0 (Tab.get {} t.fab.mcast h).entries k = Tab.get 0 (Tab.get {} s.fab.mcast h).entries k) ∧
      (v % 4096 / 2048 ≠ s.devId / 2048 → Tab.get 0 t.fab.mcRefused g = 1 ∧ t.fab.mcast = s.fab.mcast) := by
  intro t g e
  by_cases hplane : v % 4096 / 2048 = s.devId / 2048
  · have ht : t = _ := State.mcastEntry_samePlane hplane
    rw [ht]
    refine ⟨rfl, fun _ => ⟨?_, ?_, fun h k hne => ?_⟩, fun h => absurd hplane h⟩
    · simp only [State.modFab, Tab.get_set, if_true, g]
    · simp only [State.modFab, Tab.get_set, if_true, g, e]
    · simp only [State.modFab, Tab.get_set]
      split_ifs with hg
      · have hk : k ≠ e := hne.resolve_left (not_not.2 hg)
        rw [Tab.get_set, if_neg hk, hg]
      · rfl
  · have ht : t = _ := State.mcastEntry_otherPlane hplane
    rw [ht]
    refine ⟨rfl, fun h => absurd h hplane, fun _ => ⟨?_, rfl⟩⟩
    simp only [State.modFab, Tab.get_set, if_true, g]

end

/-- Settles O34: a write of LWT.CMD by its bits and the result of R260, the end of a close, and the writes of notice and multicast entries. -/
theorem windowCommands : Obligations.WindowCommands := by
  unfold Obligations.WindowCommands
  refine ⟨fun s hhost => ?_, fun s v hactive hhost => ?_⟩
  · intro n w only
    have honly {o : Ans} {t : State} {x : Window} {r : Nat} (ho : o = .next t) (h : s.WindowOnly t n x r) : only o x r :=
      ⟨t, ho, h.frame, h.window, h.others, h.result, h.regs⟩
    refine ⟨fun v hactive hbusy => exec_windowCmd_busy hactive hbusy, fun v hactive hbusy => ?_, exec_windowCloseComplete_idle,
      fun k hk => ⟨exec_windowCloseComplete_landing hk, exec_windowCloseComplete hk⟩, fun v hactive => ?_⟩
    · rw [getLsbD_eq_flag, getLsbD_eq_flag]
      refine ⟨fun h0 h1 => ?_, fun h0 h1 => ?_, fun h0 h1 => ?_⟩
      · refine honly (exec_windowOpen hactive hhost h0) ?_
        rw [State.windowCmd_both hbusy h0 h1]
        exact State.WindowOnly.of_result s n (by decide)
      · have hopen {r : Nat} (hr : s.openResult w = r) (hlt : r < 8) :=
          honly (exec_windowOpen hactive hhost h0) (State.windowCmd_openOnly hbusy h0 h1 rfl hr hlt)
        refine ⟨fun hst => hopen (State.openResult_notClosed hst) (by decide),
          fun u hst hclosed hnow => hopen (State.openResult_early hst hclosed hnow) (by decide), fun hst hlate =>
          ⟨fun hrange => hopen (State.openResult_range ⟨hst, hlate⟩ hrange) (by decide), fun c hc hpos hsize hfence => ?_⟩⟩
        have hres := State.openResult_fenced ⟨hst, hlate⟩ hc hpos hsize hfence
        refine ⟨fun ⟨hvalid, hbad⟩ => hopen (hres.trans (if_pos (by rw [hvalid, hbad]; rfl))) (by decide),
          fun hgood => hopen (hres.trans (if_neg ?_)) (by decide)⟩
        simpa using hgood
      · refine ⟨fun hst => honly (exec_windowClose hactive hhost h1) ?_, fun hst => ⟨_, exec_windowClose hactive hhost h1, ?_⟩⟩
        · rw [State.windowCmd_close hbusy h0 h1, if_pos hst]
          exact State.WindowOnly.of_result s n (by decide)
        · rw [State.windowCmd_close hbusy h0 h1, if_neg (not_not.2 hst)]
          exact ⟨rfl, (s.window_modWindow n n fun w => { w with st := 2 }).trans (if_pos rfl), State.getF_setF_same _ _ _ _, State.regsBut_setF _ _ _ _⟩
    · obtain ⟨hclosed, hok, hbad⟩ := s.notifyWrite_only v.toNat (n := n) rfl
      have hexec := exec_windowNotifyChange (v := v) hactive hhost
      rw [getLsbD_eq_flag]
      exact ⟨fun hst => honly hexec (hclosed hst), fun hst h => honly hexec (hok hst h), fun hst h => honly hexec (hbad hst h)⟩
  · exact ⟨_, exec_multicastEntryWrite hactive hhost, s.mcastEntry_spec v.toNat⟩

end Sys2Proof.Machine
end

section
/-! Proofs. Packets that arrive at a link chiplet and their answers (R247, R251 to R254, R256, R258, R266): what a received
packet meets before it acts, the landing of data, answers with their retries, and packets past their lifetime. -/

namespace Sys2Proof.Machine

/-! ### Ports and answers -/

section
variable (s : State)

theorem State.drainPort_frame (p : Nat) : ∃ ps, s.drainPort p = s.modFab fun f => { f with ports := ps } := by
  unfold State.drainPort
  dsimp only
  split
  · exact ⟨s.fab.ports, rfl⟩
  · exact ⟨_, rfl⟩

/-- Flits put on a port change ports only. -/
theorem State.txFlits_frame (p : Nat) (k : Packet) (slot : Option Nat) :
    ∃ ps, s.txFlits p k slot = s.modFab fun f => { f with ports := ps } := by
  obtain ⟨ps, h⟩ := (s.modPort p fun q => { q with waiting := q.waiting ++ k.flits q.nextPid slot, nextPid := q.nextPid + 1 }).drainPort_frame p
  exact ⟨ps, h⟩

/-- A packet sent to another device is recorded as sent, and changes beside that ports only. -/
theorem State.txPacket_frame (k : Nat) (p : Packet) :
    ∃ ps, s.txPacket k p = s.modFab fun f => { f with ports := ps, sent := f.sent ++ [p] } := by
  unfold State.txPacket
  dsimp only
  split
  · next q _ =>
    obtain ⟨ps, h⟩ := (s.modFab fun f => { f with sent := f.sent ++ [p] }).txFlits_frame q p none
    exact ⟨ps, h⟩
  · exact ⟨s.fab.ports, rfl⟩

/-- The packet that answers `p` with a code (R251). -/
def State.answerPkt (p : Packet) (code : Nat) : Packet :=
  { type := 2, cls := p.cls, dst := p.src, src := s.devId, window := p.window, slot := p.slot, code := code,
    birth := s.now / 1000 % 65536, vc := 4 }

theorem State.answer_away (lc : Nat) {p : Packet} (code : Nat) (h : p.src ≠ s.devId) :
    ∃ ps, s.answer lc p code = s.modFab fun f => { f with ports := ps, sent := f.sent ++ [s.answerPkt p code] } := by
  obtain ⟨ps, hps⟩ := s.txPacket_frame lc (s.answerPkt p code)
  exact ⟨ps, (if_neg h).trans hps⟩

theorem State.answer_home (lc : Nat) {p : Packet} (code : Nat) (h : p.src = s.devId) : s.answer lc p code =
    s.modChip (p.slot / 4096) fun c => { c with inbox := c.inbox ++ [s.answerPkt p code] } := if_pos h

/-- An answer changes the fabric only. -/
theorem State.answer_frame (lc : Nat) (p : Packet) (code : Nat) : ∃ f, s.answer lc p code = { s with fab := f } := by
  by_cases h : p.src = s.devId
  · exact ⟨_, s.answer_home lc code h⟩
  · obtain ⟨ps, hps⟩ := s.answer_away lc code h
    exact ⟨_, hps⟩

end

/-! ### The tests before a received packet acts (R247, R252, R258) -/

section
variable {s : State} {lc n : Nat} {p : Packet}

theorem State.chip_takeInbox (s : State) (lc n : Nat) :
    (s.takeInbox lc n).chip lc = { s.chip lc with inbox := (s.chip lc).inbox.eraseIdx n } := (s.chip_modChip lc lc _).trans (if_pos rfl)

theorem State.inbox_takeInbox (s : State) (lc n k : Nat) : ((s.takeInbox lc n).chip k).inbox =
    (if k = lc then { s.chip lc with inbox := (s.chip lc).inbox.eraseIdx n } else s.chip k).inbox := by
  rw [State.takeInbox, State.chip_modChip]

theorem State.admitPkt_old (h : 9900 ≤ s.age p.birth) : s.admitPkt lc n p = .inl ((s.takeInbox lc n).lifetimeDrop lc) := if_pos h

theorem State.admitPkt_misrouted (hage : s.age p.birth < 9900) (h : p.broken = true ∨ p.dst ≠ s.devId) :
    s.admitPkt lc n p = .inl ((s.takeInbox lc n).addF R.LWT.DROPS2.MISROUTE 0 1) :=
  (if_neg (Nat.not_le.2 hage)).trans (if_pos (by
    have h' : p.broken = true ∨ p.dst ≠ (s.takeInbox lc n).devId := h
    simpa using h'))

theorem State.admitPkt_admitted (hage : s.age p.birth < 9900) (hbroken : p.broken = false) (hdst : p.dst = s.devId) :
    s.admitPkt lc n p = .inr (s.takeInbox lc n) := by
  have hdst' : p.dst = (s.takeInbox lc n).devId := hdst
  refine (if_neg (Nat.not_le.2 hage)).trans (if_neg ?_)
  rw [hbroken, hdst', bne_self_eq_false]
  exact Bool.false_ne_true

/-- A packet past its lifetime is counted. -/
theorem State.getF_lifetimeDrop (s : State) (lc : Nat) : (s.lifetimeDrop lc).getF R.LCH.LIFETIME_DROPS.DROPS lc =
    min (2 ^ 32 - 1) (s.getF R.LCH.LIFETIME_DROPS.DROPS lc + 1) := s.getF_addF_same R.LCH.LIFETIME_DROPS.DROPS lc 1

end

/-! ### The landing checks (R252, R266) -/

section
variable {s : State} {lc n : Nat} {p : Packet}

/-- The bytes that a data packet carries; none where its cells do not parse. -/
def Packet.bytes? (p : Packet) : Option (List Byte) := if p.cells then parseCells p.data.length p.data else some p.data

theorem State.landCheck_takeInbox (s : State) (lc n : Nat) (p : Packet) : (s.takeInbox lc n).landCheck lc p = s.landCheck lc p := by
  have huse : ((s.takeInbox lc n).chip lc).inUse = (s.chip lc).inUse := by rw [State.chip_takeInbox]; rfl
  unfold State.landCheck
  rw [huse]
  rfl

/-- The code of the first reason of R252's list that refuses a packet; 0 where none does. -/
def State.landCode (s : State) (lc : Nat) (p : Packet) : Nat :=
  let w := s.window p.window
  if w.st ≠ 1 then 1 else if w.gen ≠ p.gen then 2 else match p.bytes? with
    | none => 6
    | some b => if w.size < p.off + b.length then 3 else if w.tag = 0 ∨ w.tag ≠ p.tag then 4
      else if 524288 < (s.chip lc).inUse + p.data.length then 5 else 0

theorem State.landCode_of_noBytes (h : p.bytes? = none) : s.landCode lc p ≠ 0 := by
  unfold State.landCode
  rw [h]
  dsimp only
  split_ifs <;> decide

theorem Packet.bytes?_eq (p : Packet) : (if p.cells then parseCells p.data.length p.data else some p.data) = p.bytes? := rfl

theorem State.landCheck_code (s : State) (lc : Nat) (p : Packet) : (s.landCheck lc p).1 = s.landCode lc p := by
  unfold State.landCheck State.landCode
  rw [p.bytes?_eq]
  cases p.bytes? with
  | none =>
    dsimp only
    split_ifs <;> rfl
  | some b =>
    simp only [Bool.or_eq_true, decide_eq_true_eq]
    split_ifs <;> rfl

/-- A packet that no reason refuses lands with its bytes. -/
theorem State.landCheck_landed (h : s.landCode lc p = 0) : ∃ b, p.bytes? = some b ∧ s.landCheck lc p = (0, b) := by
  cases hb : p.bytes? with
  | none => exact absurd h (State.landCode_of_noBytes hb)
  | some b =>
    refine ⟨b, rfl, ?_⟩
    unfold State.landCode at h
    unfold State.landCheck
    rw [p.bytes?_eq, hb]
    simp only [hb] at h
    simp only [Bool.or_eq_true, decide_eq_true_eq]
    split_ifs at h ⊢
    rfl

/-- The counts of LWT that a landing refusal may add to (R252, R270). -/
def landingCounts : List Fld :=
  [R.LWT.DROPS.CLOSED, R.LWT.DROPS.STALE, R.LWT.DROPS.BOUNDS, R.LWT.DROPS.NOT_PERMITTED, R.LWT.DROPS2.MALFORMED]

theorem State.countRefusal_cases (s : State) (code : Nat) :
    s.countRefusal code = s ∨ ∃ f ∈ landingCounts, s.countRefusal code = (s.addF f 0 1).tallyDev 0x8C 1 := by
  unfold State.countRefusal
  split
  · exact .inr ⟨R.LWT.DROPS.CLOSED, by decide, rfl⟩
  · exact .inr ⟨R.LWT.DROPS.STALE, by decide, rfl⟩
  · exact .inr ⟨R.LWT.DROPS.BOUNDS, by decide, rfl⟩
  · exact .inr ⟨R.LWT.DROPS.NOT_PERMITTED, by decide, rfl⟩
  · exact .inr ⟨R.LWT.DROPS2.MALFORMED, by decide, rfl⟩
  · exact .inl rfl

theorem State.countRefusal_frame (s : State) (code : Nat) :
    s.countRefusal code = { s with regs := (s.countRefusal code).regs, tally := (s.countRefusal code).tally } := by
  rcases s.countRefusal_cases code with h | ⟨f, -, h⟩
  · rw [h]
  · rw [h]
    rfl

/-- Counting a refusal leaves the device's id. -/
theorem State.countRefusal_devId (s : State) (code : Nat) : (s.countRefusal code).devId = s.devId := by
  rcases s.countRefusal_cases code with h | ⟨f, hf, h⟩
  · rw [h]
  · have hlow : ∀ f ∈ landingCounts,
        (64 * R.LCH.FABRIC_ID.ID.off + R.LCH.FABRIC_ID.ID.lo) % 262144 ≠ (64 * f.off + f.lo) % 262144 := by decide
    rw [h]
    exact s.getF_addF_ne f R.LCH.FABRIC_ID.ID 0 0 1 (Fld.key_ne_of_low (hlow f hf) 0 0)

end

/-! ### DATA_PACKET_ARRIVAL -/

section
variable {s : State} {lc : Fin 10} {n : Nat} {p : Packet}

theorem exec_dataPacketArrival_none (h : (s.chip lc).inbox[n]? = none) : exec (.dataPacketArrival lc n) s = .next s := by
  show execDataPacketArrival lc n s = _
  rw [execDataPacketArrival, h]

variable (hp : (s.chip lc).inbox[n]? = some p) (ht : p.type = 1)
include hp ht

theorem exec_dataPacketArrival_discarded {t : State} (h : s.admitPkt lc n p = .inl t) : exec (.dataPacketArrival lc n) s = .next t := by
  show execDataPacketArrival lc n s = _
  rw [execDataPacketArrival, hp]
  simp only [ht, h]
  rfl

theorem exec_dataPacketArrival_landed {b : List Byte} (h : s.admitPkt lc n p = .inr (s.takeInbox lc n))
    (hcheck : s.landCheck lc p = (0, b)) :
    let u := (s.takeInbox lc n).modChip lc fun c =>
      { c with landed := c.landed ++ [⟨p, (s.window p.window).base + p.off, b, p.data.length⟩] }
    exec (.dataPacketArrival lc n) s = .next (u.peakF R.LCH.LANDING_BUF.PEAK lc (ceilDiv (u.chip lc).inUse 1024)) := by
  show execDataPacketArrival lc n s = _
  rw [execDataPacketArrival, hp]
  simp only [ht, h, State.landCheck_takeInbox, hcheck]
  rfl

theorem exec_dataPacketArrival_refused {code : Nat} (h : s.admitPkt lc n p = .inr (s.takeInbox lc n))
    (hcode : s.landCode lc p = code) (hne : code ≠ 0) :
    exec (.dataPacketArrival lc n) s = .next (((s.takeInbox lc n).countRefusal code).answer lc p code) := by
  have hcheck : (s.landCheck lc p).1 = code := (s.landCheck_code lc p).trans hcode
  show execDataPacketArrival lc n s = _
  rw [execDataPacketArrival, hp]
  simp only [ht, h, State.landCheck_takeInbox, hcheck, if_neg hne]
  rfl

end

/-- What an answer to a refused packet leaves (R251, R252). -/
theorem State.refusal_spec (s : State) (lc n : Nat) (p : Packet) (code : Nat) :
    let t := ((s.takeInbox lc n).countRefusal code).answer lc p code
    ∃ a : Packet, t = { s with regs := t.regs, fab := t.fab, tally := t.tally } ∧ a.type = 2 ∧ a.code = code ∧ a.dst = p.src ∧ a.slot = p.slot ∧
      (p.src ≠ s.devId → t.chip lc = { s.chip lc with inbox := (s.chip lc).inbox.eraseIdx n } ∧ t.fab.sent = s.fab.sent ++ [a]) ∧
      (p.src = s.devId → (t.chip (p.slot / 4096)).inbox =
        (if p.slot / 4096 = lc then { s.chip lc with inbox := (s.chip lc).inbox.eraseIdx n } else s.chip (p.slot / 4096)).inbox ++ [a]) := by
  intro t
  set u := (s.takeInbox lc n).countRefusal code with hu
  have hframe : u = _ := (s.takeInbox lc n).countRefusal_frame code
  have hdev : u.devId = s.devId := State.countRefusal_devId _ _
  have hfab : u.fab = (s.takeInbox lc n).fab := by rw [hframe]
  have hchip (k : Nat) : u.chip k = (s.takeInbox lc n).chip k := by rw [State.chip, hfab]; rfl
  refine ⟨u.answerPkt p code, ?_, rfl, rfl, rfl, rfl, fun haway => ?_, fun hhome => ?_⟩
  · obtain ⟨f, hf⟩ := u.answer_frame lc p code
    have ht : t = { u with fab := f } := hf
    rw [ht, hframe]
    rfl
  · obtain ⟨ps, hps⟩ := u.answer_away lc code (by rwa [hdev])
    have ht : t = _ := hps
    rw [ht]
    exact ⟨(hchip lc).trans (s.chip_takeInbox lc n), congrArg (fun f : Fabric => f.sent ++ [u.answerPkt p code]) (a₂ := (s.takeInbox lc n).fab) hfab⟩
  · have ht : t = _ := u.answer_home lc code (hhome.trans hdev.symm)
    rw [ht, State.chip_modChip, if_pos rfl, hchip, ← State.inbox_takeInbox]

/-- Settles O30: by the tests of R247, R252 and R258 before a packet acts, and then by the code of the landing checks. -/
theorem dataPacketArrivals : Obligations.DataPacketArrivals := by
  unfold Obligations.DataPacketArrivals
  intro s lc n
  refine ⟨exec_dataPacketArrival_none, fun p hp ht => ?_⟩
  intro w taken bs code
  have hcode : s.landCode lc p = code := rfl
  refine ⟨fun hage => ?_, fun hage hbad => ?_, fun hage hbroken hdst => ?_⟩
  · exact ⟨_, exec_dataPacketArrival_discarded hp ht (State.admitPkt_old hage), rfl, s.chip_takeInbox lc n,
      (s.takeInbox lc n).getF_lifetimeDrop lc⟩
  · exact ⟨_, exec_dataPacketArrival_discarded hp ht (State.admitPkt_misrouted hage hbad), rfl, s.chip_takeInbox lc n,
      (s.takeInbox lc n).getF_addF_same R.LWT.DROPS2.MISROUTE 0 1⟩
  · have hadmit : s.admitPkt lc n p = _ := State.admitPkt_admitted hage hbroken hdst
    refine ⟨fun hzero => ?_, fun hne => ?_⟩
    · obtain ⟨b, hb, hcheck⟩ := State.landCheck_landed (hcode.trans hzero)
      refine ⟨_, b, exec_dataPacketArrival_landed hp ht hadmit hcheck, hb, rfl, ?_⟩
      refine ((s.takeInbox lc n).chip_modChip lc lc fun c => { c with
        landed := c.landed ++ [⟨p, (s.window p.window).base + p.off, b, p.data.length⟩] }).trans ?_
      rw [if_pos rfl, State.chip_takeInbox]
    · obtain ⟨a, ha⟩ := s.refusal_spec lc n p code
      exact ⟨_, a, exec_dataPacketArrival_refused hp ht hadmit hcode hne, ha⟩

end Sys2Proof.Machine
end

section
/-! Proofs. Landed packets, answers and retries (R251 to R254, R256, R258): the write of landed bytes, the final answer of a
packet and the last one of a SEND, NO_BUFFER and its retry, and packets that stay without an answer or outlive their lifetime. -/

namespace Sys2Proof.Machine

/-! ### LANDING_WRITE_ACCEPTED (R253) -/

/-- A write to bytes whose links are up uses links that are up. -/
theorem State.linksUp_of_t2Down {s : State} {a n : Nat} (h : ∀ i, i < n → s.t2Down (a + i) = false) : s.linksUp a n := by
  intro g hg
  obtain ⟨hlo, hpos, hhi, -⟩ := bounds_of_mem_lineSegs hg
  have := h (g.1 - a) (by omega)
  rwa [Nat.add_sub_cancel' hlo] at this

section
variable {s : State} {lc : Fin 10} {n : Nat} {l : Landed}

/-- The state in which the bytes of a landed packet have been written, and its space is free. -/
def State.landingWritten (s : State) (lc n : Nat) (l : Landed) : State :=
  (s.modChip lc fun c => { c with landed := c.landed.eraseIdx n }).memWrite (servicePort lc) l.addr l.bytes

theorem exec_landingWriteAccepted (h : (s.chip lc).landed[n]? = some l) :
    exec (.landingWriteAccepted lc n) s = .next ((s.landingWritten lc n l).answer lc l.pkt 0) := by
  show execLandingWriteAccepted lc n s = _
  rw [execLandingWriteAccepted, h]
  rfl

/-- An accepted write changes the memory, and frees the space. -/
theorem State.landingWritten_spec (s : State) (lc n : Nat) (l : Landed) (hdown : ∀ i, i < l.bytes.length → s.t2Down (l.addr + i) = false)
    (hinj : ∀ i j, i < l.bytes.length → j < l.bytes.length → s.canon (l.addr + i) = s.canon (l.addr + j) → i = j) :
    let t := s.landingWritten lc n l
    t = { s with mem := t.mem, deck := t.deck, poison := t.poison, errs := t.errs,
                 fab := (s.modChip lc fun c => { c with landed := c.landed.eraseIdx n }).fab } ∧
      t.memRead l.addr l.bytes.length = l.bytes ∧
      ∀ b, (∀ i, i < l.bytes.length → s.canon (l.addr + i) ≠ b) → Tab.get 0 t.mem b = Tab.get 0 s.mem b := by
  let u := s.modChip lc fun c => { c with landed := c.landed.eraseIdx n }
  have hu : u.linksUp l.addr l.bytes.length := State.linksUp_of_t2Down (s := u) hdown
  exact ⟨State.eq_of_beside (State.memWrite_beside hu (servicePort lc)), u.memRead_memWrite_same (servicePort lc) _ _ hu hinj,
    fun b hb => u.get_memWrite_outside (servicePort lc) _ _ hb⟩

theorem exec_landingWriteAccepted_spec (h : (s.chip lc).landed[n]? = some l)
    (hdown : ∀ i, i < l.bytes.length → s.t2Down (l.addr + i) = false)
    (hinj : ∀ i j, i < l.bytes.length → j < l.bytes.length → s.canon (l.addr + i) = s.canon (l.addr + j) → i = j) :
    ∃ (t : State) (a : Packet), exec (.landingWriteAccepted lc n) s = .next t ∧
      t = { s with mem := t.mem, deck := t.deck, poison := t.poison, errs := t.errs, fab := t.fab } ∧
      t.memRead l.addr l.bytes.length = l.bytes ∧
      (∀ b, (∀ i, i < l.bytes.length → s.canon (l.addr + i) ≠ b) → Tab.get 0 t.mem b = Tab.get 0 s.mem b) ∧
      (t.chip lc).landed = (s.chip lc).landed.eraseIdx n ∧ a.type = 2 ∧ a.code = 0 ∧ a.dst = l.pkt.src ∧
      (l.pkt.src ≠ s.devId → t.fab.sent = s.fab.sent ++ [a]) ∧
      (l.pkt.src = s.devId → (t.chip (l.pkt.slot / 4096)).inbox = (s.chip (l.pkt.slot / 4096)).inbox ++ [a]) := by
  obtain ⟨hframe, hread, hother⟩ := s.landingWritten_spec lc n l hdown hinj
  have hexec := exec_landingWriteAccepted (l := l) h
  generalize s.landingWritten lc n l = u at hframe hread hother hexec
  have hdev : u.devId = s.devId := by rw [hframe]; rfl
  have hchip (k : Nat) : u.chip k = (s.modChip lc fun c => { c with landed := c.landed.eraseIdx n }).chip k := by rw [hframe]; rfl
  have hlanded : (u.chip lc).landed = (s.chip lc).landed.eraseIdx n := by rw [hchip, State.chip_modChip, if_pos rfl]
  have hinbox (k : Nat) : (u.chip k).inbox = (s.chip k).inbox := by
    rw [hchip, State.chip_modChip]
    split_ifs with hk
    · rw [hk]
    · rfl
  have hsent : u.fab.sent = s.fab.sent := by rw [hframe]; rfl
  obtain ⟨f, hf⟩ := u.answer_frame lc l.pkt 0
  refine ⟨_, u.answerPkt l.pkt 0, hexec, ?_, ?_, fun b hb => ?_, ?_, rfl, rfl, rfl, fun haway => ?_, fun hhome => ?_⟩
  · rw [hf, hframe]
  · rw [hf]
    exact hread
  · rw [hf]
    exact hother b hb
  · by_cases hsrc : l.pkt.src = u.devId
    · rw [u.answer_home lc 0 hsrc, State.chip_modChip]
      split_ifs with hk
      · rw [← hk]
        exact hlanded
      · exact hlanded
    · obtain ⟨ps, hps⟩ := u.answer_away lc 0 hsrc
      rw [hps]
      exact hlanded
  · obtain ⟨ps, hps⟩ := u.answer_away lc 0 (by rwa [hdev])
    rw [hps, ← hsent]
    rfl
  · rw [u.answer_home lc 0 (hhome.trans hdev.symm), State.chip_modChip, if_pos rfl]
    exact congrArg (· ++ [_]) (hinbox _)

end

/-! ### Answers (R251, R252) -/

section
variable {s : State} {lc : Fin 10} {n : Nat} {p : Packet} {o : OutPkt}
  (hp : (s.chip lc).inbox[n]? = some p) (ht : p.type = 2) (hadmit : s.admitPkt lc n p = .inr (s.takeInbox lc n))
  (hlc : p.slot / 4096 = lc.val) (ho : (s.chip lc).unans.find? (fun o => o.slot == p.slot % 4096) = some o)
include hp ht hadmit hlc ho

theorem exec_answerArrival_final (h : p.code ≠ 5 ∨ 9000 ≤ s.age o.pkt.birth) :
    exec (.answerArrival lc n) s = .next ((s.takeInbox lc n).finalAnswer lc (p.slot % 4096) p.code) := by
  have ho' : ((s.takeInbox lc n).chip lc).unans.find? (fun o => o.slot == p.slot % 4096) = some o := by
    rw [State.chip_takeInbox]
    exact ho
  have h' : (decide (p.code ≠ 5) || decide (9000 ≤ (s.takeInbox lc n).age o.pkt.birth)) = true := by
    have : p.code ≠ 5 ∨ 9000 ≤ (s.takeInbox lc n).age o.pkt.birth := h
    simpa using this
  show execAnswerArrival lc n s = _
  rw [execAnswerArrival, hp]
  dsimp only
  rw [if_neg (not_not.2 ht), hadmit]
  dsimp only
  rw [if_neg (not_not.2 hlc), ho']
  exact if_pos h'

/-- NO_BUFFER below age 9,000 µs is tried again after a back-off that doubles up to 128 µs. -/
theorem exec_answerArrival_retry (hcode : p.code = 5) (hage : s.age o.pkt.birth < 9000) :
    exec (.answerArrival lc n) s = .next ((s.takeInbox lc n).modChip lc fun c => { c with unans := c.unans.map fun x =>
      if x.slot = p.slot % 4096 then { x with retryAt := some (s.now + 1000 * o.backoff), backoff := min 128 (2 * o.backoff) } else x }) := by
  have ho' : ((s.takeInbox lc n).chip lc).unans.find? (fun o => o.slot == p.slot % 4096) = some o := by
    rw [State.chip_takeInbox]
    exact ho
  have h' : ¬ (decide (p.code ≠ 5) || decide (9000 ≤ (s.takeInbox lc n).age o.pkt.birth)) = true := by
    have : ¬ 9000 ≤ (s.takeInbox lc n).age o.pkt.birth := Nat.not_le.2 hage
    simp [hcode, this]
  show execAnswerArrival lc n s = _
  rw [execAnswerArrival, hp]
  dsimp only
  rw [if_neg (not_not.2 ht), hadmit]
  dsimp only
  rw [if_neg (not_not.2 hlc), ho']
  exact if_neg h'

end

/-! ### The last answer of a SEND (R101, R254) -/

section
variable {s : State} {r : SendRec} {g : SendTgt}

/-- The state in which one more notice to a device waits for its acknowledgement. -/
def State.withNotice (s : State) (dev window : Nat) : State := s.modPartner dev fun c =>
  { c with txSeq := ((s.partner dev).txSeq + 1) % 65536, unacked := c.unacked ++ [⟨(s.partner dev).txSeq, window, s.now⟩] }

/-- A notice to another device, of which fewer than 1,024 are unacknowledged, goes out. -/
theorem State.sendNotice_away (window : Nat) {dev : Nat} (hdev : dev ≠ s.devId) (hroom : (s.partner dev).unacked.length < 1024) :
    ∃ ps sent, s.sendNotice dev window = (s.withNotice dev window).modFab fun f => { f with ports := ps, sent := sent } := by
  obtain ⟨ps, hps⟩ := (s.withNotice dev window).txPacket_frame (s.partner dev).txSeq
    { type := 3, cls := 3, dst := dev, src := s.devId, window := window, nseq := (s.partner dev).txSeq, vc := 3,
      birth := s.now / 1000 % 65536 }
  exact ⟨ps, _, (if_neg (Nat.not_le.2 hroom)).trans ((if_neg hdev).trans hps)⟩

/-- A SEND whose target has its notice. -/
def SendRec.told (r : SendRec) (g : SendTgt) : SendRec := { r with targets := [{ g with done := true }] }

/-- The last packet of a SEND's one target is final, with OK for all: the target gets its notice, and the SEND completes. -/
theorem State.sendProgress_last (hs : s.fab.sends = [r]) (ht : r.targets = [g]) (hleft : g.left = 0) (hgood : g.good = true)
    (hdone : g.done = false) (hdev : g.dev ≠ s.devId) (hroom : (s.partner g.dev).unacked.length < 1024) :
    ∃ ps sent, s.sendProgress r.no = ((s.withNotice g.dev g.window).modFab fun f =>
      { f with ports := ps, sent := sent, sends := [r.told g] }).sendDone (r.told g) := by
  obtain ⟨ps, sent, hnotice⟩ := State.sendNotice_away g.window hdev hroom
  have htold : ({ r with targets := [g].map fun t => if t.left = 0 then { t with done := true } else t } : SendRec) = r.told g := by
    simp [SendRec.told, hleft]
  refine ⟨ps, sent, ?_⟩
  unfold State.sendProgress
  simp only [hs, List.find?_cons, beq_self_eq_true, ht, htold]
  simp only [List.filter_cons, hleft, hdone, beq_self_eq_true, Bool.not_false, Bool.and_self, if_true, List.filter_nil, each,
    List.foldl_cons, List.foldl_nil, hgood]
  rw [hnotice]
  refine (if_pos (by simp [hleft])).trans (congrArg (State.sendDone · (r.told g)) ?_)
  have hsends : (s.withNotice g.dev g.window).fab.sends = [r] := hs
  simp only [State.modFab, hsends, List.map_cons, List.map_nil, if_true]

theorem State.sendDone_partner (s : State) (r : SendRec) (d : Nat) : (s.sendDone r).partner d = s.partner d := rfl

theorem State.sendDone_chip (s : State) (r : SendRec) (k : Nat) : (s.sendDone r).chip k = s.chip k := rfl

theorem State.withNotice_chip (s : State) (dev window k : Nat) : (s.withNotice dev window).chip k = s.chip k := rfl

theorem State.chip_of_modFab {f : Fabric → Fabric} (k : Nat) (h : (f s.fab).chips = s.fab.chips) :
    (s.modFab f).chip k = s.chip k := by
  unfold State.chip
  rw [← h]
  rfl

theorem State.partner_of_modFab {f : Fabric → Fabric} (d : Nat) (h : (f s.fab).partners = s.fab.partners) :
    (s.modFab f).partner d = s.partner d := by
  unfold State.partner
  rw [← h]
  rfl

/-- The core that completes a SEND may take its completion (R101). -/
theorem State.sendDone_core (s : State) (r : SendRec) : (s.sendDone r).core r.site = { s.core r.site with
    fly := (s.core r.site).fly.map fun f => if f.sendNo = some r.no then { f with ready := true } else f } :=
  (s.core_modCore r.site r.site fun c => { c with
    fly := c.fly.map fun f => if f.sendNo = some r.no then { f with ready := true } else f }).trans (if_pos rfl)

/-- Without a SEND under way nothing waits for a slot. -/
theorem State.placeQueued_of_noSends (h : s.fab.sends = []) : s.placeQueued = s := by
  have hfab : ({ s.fab with sends := [] } : Fabric) = s.fab := by rw [← h]
  have hs : s.modFab (fun f => { f with sends := f.sends.map fun x => { x with queued := [] } }) = s := by
    rw [State.modFab, h, List.map_nil, hfab]
  unfold State.placeQueued
  rw [hs, h]
  rfl

/-- The last OK answer of a SEND to one target: beside the freed slot, the notice goes out and the SEND completes. -/
theorem State.finalAnswer_last {lc slot : Nat} {o : OutPkt} (ho : (s.chip lc).unans.find? (fun o => o.slot == slot) = some o)
    (hs : s.fab.sends = [r]) (hno : o.send = r.no) (htarget : o.target = 0) (ht : r.targets = [g]) (hleft : g.left = 1)
    (hgood : g.good = true) (hdone : g.done = false) (hdev : g.dev ≠ s.devId) (hroom : (s.partner g.dev).unacked.length < 1024) :
    ∃ ps sent q, q.no = r.no ∧ q.site = r.site ∧ s.finalAnswer lc slot 0 =
      (((s.modChip lc fun c => { c with unans := c.unans.filter fun x => x.slot != slot }).withNotice g.dev g.window).modFab fun f =>
        { f with ports := ps, sent := sent, sends := [q] }).sendDone q := by
  let u := s.modChip lc fun c => { c with unans := c.unans.filter fun x => x.slot != slot }
  let g' : SendTgt := { g with left := 0, good := true }
  let r' : SendRec := { r with targets := [g'] }
  obtain ⟨ps, sent, hlast⟩ := State.sendProgress_last (s := u.modFab fun f => { f with sends := [r'] }) (r := r') (g := g')
    rfl rfl rfl rfl hdone hdev hroom
  have hanswer : u.answerTarget o.send o.target 0 = (u.modFab fun f => { f with sends := [r'] }).sendProgress r'.no := by
    have hu : u.fab.sends = [r] := hs
    unfold State.answerTarget
    rw [hno, htarget]
    simp only [State.modFab, hu, List.map_cons, List.map_nil, if_true, ht, List.zipIdx_cons, List.zipIdx_nil, hleft, hgood]
    rfl
  refine ⟨ps, sent, r'.told g', rfl, rfl, ?_⟩
  unfold State.finalAnswer
  rw [ho]
  show (u.answerTarget o.send o.target 0).placeQueued = _
  rw [hanswer, hlast]
  exact State.placeQueued_of_noSends (by simp [State.sendDone, State.modFab])

end

/-! ### NO_BUFFER_RETRY, PACKET_TIMEOUT and LIFETIME_DISCARD -/

section
variable {s : State} {lc : Fin 10} {slot : Fin 4096} {o : OutPkt}

/-- The state in which a packet no longer waits for its retry. -/
def State.retried (s : State) (lc slot : Nat) : State := s.modChip lc fun c =>
  { c with unans := c.unans.map fun x => if x.slot = slot then { x with retryAt := none } else x }

/-- A packet sent again inside the device is counted, and reaches its own link chiplet. -/
theorem State.retried_home (s : State) (lc slot : Nat) {o : OutPkt} (hdst : o.pkt.dst = s.devId) :
    let t := ((s.retried lc slot).addF R.MCG.RETRIES.RETRIES 0 1).transmit lc o none
    t.getF R.MCG.RETRIES.RETRIES 0 = min (2 ^ 32 - 1) (s.getF R.MCG.RETRIES.RETRIES 0 + 1) ∧
      (t.chip lc).inbox.length = (s.chip lc).inbox.length + 1 := by
  intro t
  let u := (s.retried lc slot).addF R.MCG.RETRIES.RETRIES 0 1
  have hdev : u.devId = s.devId := State.getF_addF_ne _ _ _ 0 0 1 (by decide)
  have hinbox : (u.chip lc).inbox = (s.chip lc).inbox := by
    rw [show u.chip lc = (s.retried lc slot).chip lc from rfl, State.retried, State.chip_modChip, if_pos rfl]
  have ht : t = u.modChip lc fun c => { c with
      inbox := c.inbox ++ [{ o.pkt with len := (u.payload o).length, data := u.payload o, vc := o.pkt.cls }] } := if_pos (hdst.trans hdev.symm)
  rw [ht]
  refine ⟨State.getF_addF_same (s.retried lc slot) R.MCG.RETRIES.RETRIES 0 1, ?_⟩
  rw [State.chip_modChip, if_pos rfl, List.length_append, hinbox]
  rfl

variable (ho : (s.chip lc).unans.find? (fun o => o.slot == slot.val) = some o)
include ho

/-- NO_BUFFER_RETRY, by the time, the packet's age and its way (R252). -/
theorem exec_noBufferRetry {u : Nat} (hu : o.retryAt = some u) : exec (.noBufferRetry lc slot) s =
    if s.now < u then .next s
    else if 9000 ≤ s.age o.pkt.birth then .next (s.finalAnswer lc slot 5)
    else if o.pkt.dst = s.devId then .next (((s.retried lc slot).addF R.MCG.RETRIES.RETRIES 0 1).transmit lc o none)
    else .next ((if s.portsTo o.pkt.dst = [] then s.retried lc slot
      else (s.retried lc slot).addF R.MCG.RETRIES.RETRIES 0 1).resend o.pkt.slot) := by
  show execNoBufferRetry lc slot s = _
  rw [execNoBufferRetry, ho]
  dsimp only
  rw [hu]
  dsimp only
  refine if_congr Iff.rfl rfl (if_congr Iff.rfl rfl (if_congr Iff.rfl rfl ?_))
  have hports : (s.modChip lc fun c => { c with unans := c.unans.map fun x =>
      if x.slot = slot.val then { x with retryAt := none } else x }).portsTo o.pkt.dst = s.portsTo o.pkt.dst := rfl
  rw [hports]
  by_cases h : s.portsTo o.pkt.dst = []
  · rw [h]
    rfl
  · rw [if_neg (by simpa using h), if_neg h]
    rfl

theorem exec_packetTimeout : exec (.packetTimeout lc slot) s =
    if s.now < o.firstAt + 20000000 then .next s
    else .next ((if (s.partner o.pkt.dst).st = 1 then (s.modPartner o.pkt.dst fun c => { c with st := 2, probeAt := s.now }).report {
        cls := 6, code := 4, dev := o.pkt.dst, unit := rootUnit, repo := wholeUnit 5 lc, detail := o.pkt.dst, remote := true }
      else s).finalAnswer lc slot 8) := by
  show execPacketTimeout lc slot s = _
  rw [execPacketTimeout, ho]

end

section
variable {s : State} {lc : Fin 10} {n : Nat}

theorem exec_lifetimeDiscard_received {p : Packet} (h : (s.chip lc).inbox[n]? = some p) : exec (.lifetimeDiscard lc n) s =
    .next (if 9900 ≤ s.age p.birth then (s.takeInbox lc n).lifetimeDrop lc else s) := by
  show execLifetimeDiscard lc n s = _
  rw [execLifetimeDiscard, h]

theorem exec_lifetimeDiscard_held {k : Nat × Nat × Nat} (hin : (s.chip lc).inbox[n]? = none)
    (hk : (s.overdue lc)[n - (s.chip lc).inbox.length]? = some k) :
    exec (.lifetimeDiscard lc n) s = .next ((s.modPort k.1 fun q => q.discard k.2.1).lifetimeDrop lc) := by
  show execLifetimeDiscard lc n s = _
  rw [execLifetimeDiscard, hin]
  dsimp only
  rw [hk]

end

/-- What the last OK answer of a SEND to one target leaves. -/
theorem State.finalAnswer_last_spec {s : State} {lc n slot : Nat} {o : OutPkt} {r : SendRec} {g : SendTgt}
    (ho : (s.chip lc).unans.find? (fun o => o.slot == slot) = some o) (hs : s.fab.sends = [r]) (hno : o.send = r.no)
    (htarget : o.target = 0) (ht : r.targets = [g]) (hleft : g.left = 1) (hgood : g.good = true) (hdone : g.done = false)
    (hdev : g.dev ≠ s.devId) (hroom : (s.partner g.dev).unacked.length < 1024) :
    let t := (s.takeInbox lc n).finalAnswer lc slot 0
    t.fab.sends = [] ∧ (t.chip lc).unans = (s.chip lc).unans.filter (fun x => x.slot != slot) ∧
      (t.partner g.dev).unacked = (s.partner g.dev).unacked ++ [⟨(s.partner g.dev).txSeq, g.window, s.now⟩] ∧
      t.core r.site = { s.core r.site with fly := (s.core r.site).fly.map fun f => if f.sendNo = some r.no then { f with ready := true } else f } ∧
      t.mem = s.mem := by
  intro t
  have ho' : ((s.takeInbox lc n).chip lc).unans.find? (fun o => o.slot == slot) = some o := by
    rw [State.chip_takeInbox]
    exact ho
  obtain ⟨ps, sent, q, hqno, hqsite, hlast⟩ := State.finalAnswer_last (s := s.takeInbox lc n) ho' hs hno htarget ht hleft hgood hdone hdev hroom
  have ht' : t = _ := hlast
  rw [ht']
  generalize hu : (s.takeInbox lc n).modChip lc (fun c => { c with unans := c.unans.filter fun x => x.slot != slot }) = u
  have hchip : (u.chip lc).unans = (s.chip lc).unans.filter fun x => x.slot != slot := by
    rw [← hu, State.chip_modChip, if_pos rfl, State.chip_takeInbox]
  have hpartner : u.partner g.dev = s.partner g.dev := by rw [← hu]; rfl
  have hnow : u.now = s.now := by rw [← hu]; rfl
  have hcore : u.core r.site = s.core r.site := by rw [← hu]; rfl
  have hmem : u.mem = s.mem := by rw [← hu]; rfl
  refine ⟨by simp [State.sendDone, State.modFab], ?_, ?_, ?_, ?_⟩
  · rw [State.sendDone_chip, State.chip_of_modFab lc rfl, State.withNotice_chip, hchip]
  · rw [State.sendDone_partner, State.withNotice, State.partner_of_modFab _ rfl, State.partner_modPartner, if_pos rfl, hpartner, hnow]
  · rw [← hcore, ← hqno, ← hqsite, State.sendDone_core, State.modFab_core, State.withNotice, State.modPartner_core]
  · rw [State.sendDone_mem, State.modFab_mem, State.withNotice, State.modPartner_mem, hmem]

/-- R256: the first packet that 20 ms leave without an answer makes an active partner suspect, which is reported. -/
theorem exec_packetTimeout_suspect {s : State} {lc : Fin 10} {slot : Fin 4096} {o : OutPkt}
    (ho : (s.chip lc).unans.find? (fun o => o.slot == slot.val) = some o) (hnow : o.firstAt + 20000000 ≤ s.now)
    (hst : (s.partner o.pkt.dst).st = 1) :
    ∃ (u : State) (r : Report), exec (.packetTimeout lc slot) s = .next (u.finalAnswer lc slot 8) ∧
      u = { s with errs := u.errs, fab := { s.fab with partners := u.fab.partners } } ∧
      (u.partner o.pkt.dst).st = 2 ∧ u.errs.reports = s.errs.reports ++ [r] ∧ r.cls = 6 ∧ r.code = 4 ∧ r.dev = o.pkt.dst := by
  let v := s.modPartner o.pkt.dst fun c => { c with st := 2, probeAt := s.now }
  have hv : (v.partner o.pkt.dst).st = 2 := congrArg Partner.st ((s.partner_modPartner _ _ _).trans (if_pos rfl))
  refine ⟨v.report { cls := 6, code := 4, dev := o.pkt.dst, unit := rootUnit, repo := wholeUnit 5 lc, detail := o.pkt.dst, remote := true },
    _, ?_, rfl, hv, rfl, rfl, rfl, rfl⟩
  rw [exec_packetTimeout ho, if_neg (Nat.not_lt.2 hnow), if_pos hst]

/-- R258: a packet past its lifetime in a port leaves it, and is counted. -/
theorem exec_lifetimeDiscard_held_spec {s : State} {lc : Fin 10} {n : Nat} {k : Nat × Nat × Nat} (hin : (s.chip lc).inbox[n]? = none)
    (hk : (s.overdue lc)[n - (s.chip lc).inbox.length]? = some k) :
    ∃ (t : State), exec (.lifetimeDiscard lc n) s = .next t ∧
      t = { s with regs := t.regs, fab := { s.fab with ports := t.fab.ports }, tally := t.tally } ∧ t.port k.1 = (s.port k.1).discard k.2.1 ∧
      t.getF R.LCH.LIFETIME_DROPS.DROPS lc = min (2 ^ 32 - 1) (s.getF R.LCH.LIFETIME_DROPS.DROPS lc + 1) :=
  ⟨_, exec_lifetimeDiscard_held hin hk, rfl, (s.port_modPort k.1 k.1 fun q => q.discard k.2.1).trans (if_pos rfl),
    State.getF_lifetimeDrop _ lc⟩

/-- Settles O31: command by command, each by the equation of its case. -/
theorem landingAndAnswers : Obligations.LandingAndAnswers := by
  unfold Obligations.LandingAndAnswers
  intro s lc
  dsimp only
  refine ⟨fun n l hl hup hinj => ?_, fun n p o hp ht hage hbroken hdst hlc ho => ?_, fun slot o ho => ?_, fun n p hp => ?_,
    fun n k hin hk => exec_lifetimeDiscard_held_spec hin hk⟩
  · exact exec_landingWriteAccepted_spec hl (fun i hi => (hup i hi).2) hinj
  · have hadmit : s.admitPkt lc n p = _ := State.admitPkt_admitted hage hbroken hdst
    refine ⟨fun hcode hyoung => ?_, fun hfinal => exec_answerArrival_final hp ht hadmit hlc ho hfinal,
      fun r g hcode hs hno htarget hqueued htargets hleft hgood hdone hdev hroom => ?_⟩
    · refine ⟨_, exec_answerArrival_retry hp ht hadmit hlc ho hcode hyoung, rfl, ?_⟩
      rw [State.chip_modChip, if_pos rfl, State.chip_takeInbox]
    · have hexec := exec_answerArrival_final hp ht hadmit hlc ho (.inl (by omega))
      rw [hcode] at hexec
      exact ⟨_, hexec, State.finalAnswer_last_spec ho hs hno htarget htargets hleft hgood hdone hdev hroom⟩
  · refine ⟨fun u hu => ?_, fun hnow => ?_, fun hnow hst => ?_, fun hnow hst => exec_packetTimeout_suspect ho hnow hst⟩
    · have hexec := exec_noBufferRetry ho hu
      refine ⟨fun hnow => hexec.trans (if_pos hnow), fun hnow hold => ?_, fun hnow hyoung hdst => ?_, fun hnow hyoung hdst => ?_⟩
      · exact hexec.trans ((if_neg (Nat.not_lt.2 hnow)).trans (if_pos hold))
      · exact hexec.trans ((if_neg (Nat.not_lt.2 hnow)).trans ((if_neg (Nat.not_le.2 hyoung)).trans (if_neg hdst)))
      · exact ⟨_, hexec.trans ((if_neg (Nat.not_lt.2 hnow)).trans ((if_neg (Nat.not_le.2 hyoung)).trans (if_pos hdst))),
          s.retried_home lc slot hdst⟩
    · rw [exec_packetTimeout ho, if_pos hnow]
    · rw [exec_packetTimeout ho, if_neg (Nat.not_lt.2 hnow), if_neg hst]
  · have hexec := exec_lifetimeDiscard_received hp
    refine ⟨fun hage => hexec.trans (congrArg _ (if_neg (Nat.not_le.2 hage))), fun hage => ⟨_, hexec.trans (congrArg _ (if_pos hage)), rfl,
      s.chip_takeInbox lc n, (s.takeInbox lc n).getF_lifetimeDrop lc⟩⟩

end Sys2Proof.Machine
end

section
/-! Proofs. What the boot of a control chiplet, the lease and a failover leave of the flash devices and of the preferred bank
(R357, R360, R374, R376, R377, R398, R400). -/

namespace Sys2Proof.Machine

/-! ### Parts that the services of memory leave alone -/

section
variable {β : Type} {part : State → β} (hbeside : ∀ s : State, part s.beside = part s)
  (hdrop : ∀ s : State, part (s.addF R.PCH.T2_EVENTS.LINK_DOWN_DROPS 0 1) = part s)
include hbeside hdrop

/-- What stands beside the memory services, and does not read the count of writes dropped, is left by a write. -/
theorem State.memWrite_part (s : State) (p a : Nat) (bs : List Byte) : part (s.memWrite p a bs) = part s :=
  each_frame part _ _ _ fun s g => by
    cases h : s.t2Down g.1 with
    | false => exact State.part_of_beside part hbeside (State.writeSeg_beside h p _)
    | true =>
      rw [State.writeSeg, if_pos h]
      exact hdrop s

theorem State.complete_part (s : State) (site : Nat) (r : LaunchRec) (state code kind : Nat) :
    part (s.complete site r state code kind) = part s := by
  have hwrite := State.memWrite_part hbeside hdrop
  unfold State.complete
  dsimp only
  split
  · exact (hwrite _ _ _ _).trans ((State.part_of_beside part hbeside (State.flushRange_beside _ _ _)).trans (hwrite _ _ _ _))
  · exact hwrite _ _ _ _

end

/-! ### The flash devices and the preferred bank -/

/-- What the two flash devices hold, and the bank preferred at boot (R377, R400). -/
def State.firmware (s : State) : Flash × Flash × Nat := (s.flash0, s.flash1, s.prefBank)

section
variable (s : State)

@[simp] theorem State.firmware_modSec (g : Security → Security) : (s.modSec g).firmware = s.firmware := rfl
@[simp] theorem State.firmware_modCc (i : Nat) (g : CtlChip → CtlChip) : (s.modCc i g).firmware = s.firmware := rfl
@[simp] theorem State.firmware_modFab (g : Fabric → Fabric) : (s.modFab g).firmware = s.firmware := rfl
@[simp] theorem State.firmware_modGate (g : Gate → Gate) : (s.modGate g).firmware = s.firmware := rfl
@[simp] theorem State.firmware_modCore (i : Nat) (g : CoreSite → CoreSite) : (s.modCore i g).firmware = s.firmware := rfl
@[simp] theorem State.firmware_modCluster (i : Nat) (g : Cluster → Cluster) : (s.modCluster i g).firmware = s.firmware := rfl
@[simp] theorem State.firmware_extend (cc i : Nat) (d : List Byte) : (s.extend cc i d).firmware = s.firmware := rfl
@[simp] theorem State.firmware_reportUnit (a b c d : Nat) : (s.reportUnit a b c d).firmware = s.firmware := rfl

/-- A write of a field at another place of its page. -/
@[simp] theorem State.firmware_setF {f : Fld} (h : (64 * f.off + f.lo) % 262144 ≠ 4353) (i v : Nat) :
    (s.setF f i v).firmware = s.firmware :=
  congrArg (fun b => (s.flash0, s.flash1, b)) (s.getF_setF_ne f R.SEC.BOOT_CTL.PREF_BANK i 0 v (Fld.key_ne_of_low (Ne.symm h) 0 i))

/-- A write of an indexed field at another bit of its register, whatever the index. -/
theorem State.firmware_setF_at {f : Fld} (h : f.lo % 64 ≠ 1) (stride n i v : Nat) : (s.setF (f.at stride n) i v).firmware = s.firmware :=
  s.firmware_setF (by show (64 * (f.off + stride * n) + f.lo) % 262144 ≠ 4353; omega) i v

@[simp] theorem State.firmware_addF {f : Fld} (h : (64 * f.off + f.lo) % 262144 ≠ 4353) (i n : Nat) : (s.addF f i n).firmware = s.firmware :=
  s.firmware_setF h i _

@[simp] theorem State.firmware_orF {f : Fld} (h : (64 * f.off + f.lo) % 262144 ≠ 4353) (i v : Nat) : (s.orF f i v).firmware = s.firmware :=
  s.firmware_setF h i _

@[simp] theorem State.firmware_writeCl {f : Fld} (h : (64 * f.off + f.lo) % 262144 ≠ 4353) (c v : Nat) : (s.writeCl f c v).firmware = s.firmware := by
  unfold State.writeCl
  dsimp only
  split <;> exact s.firmware_setF h c v

theorem State.firmware_writeCl_at {f : Fld} (h : f.lo % 64 ≠ 1) (stride n c v : Nat) :
    (s.writeCl (f.at stride n) c v).firmware = s.firmware :=
  s.firmware_writeCl (by show (64 * (f.off + stride * n) + f.lo) % 262144 ≠ 4353; omega) c v

@[simp] theorem State.firmware_event (page i n : Nat) : (s.event page i n).firmware = s.firmware :=
  s.firmware_orF (f := R.PAGE_EVENT.EVENT page) (by decide : (64 * 8 + 0) % 262144 ≠ 4353) i _

/-! ### Objects, keys and certificates -/

theorem State.firmware_check (cc type : Nat) (b : List Byte) : (s.check cc type b).1.firmware = s.firmware := by
  unfold State.check
  dsimp only
  split
  · rfl
  · exact s.firmware_addF (by decide) 0 1

theorem State.firmware_fromFlash (cc type : Nat) (f : FlashBank → List Byte) : (s.fromFlash cc type f).1.firmware = s.firmware := by
  unfold State.fromFlash
  dsimp only
  have hfirst := s.firmware_check cc type (f ((s.flash cc).bank s.prefBank))
  split
  · next t h =>
    rw [h] at hfirst
    exact hfirst
  · next t c hc h =>
    rw [h] at hfirst
    have hsecond := t.firmware_check cc type (f ((s.flash cc).bank (1 - s.prefBank)))
    split
    · next u hu =>
      rw [hu] at hsecond
      exact hsecond.trans hfirst
    · next u d hd hu =>
      rw [hu] at hsecond
      exact hsecond.trans hfirst

theorem State.firmware_takeCerts (cc type : Nat) (l : FlashBank → List (List Byte)) (f : List Byte → Key) :
    (s.takeCerts cc type l f).firmware = s.firmware :=
  each_frame State.firmware _ _ _ fun s n => by
    have h := s.firmware_fromFlash cc type fun b => (l b).getD n []
    split
    · next t k b c ht =>
      rw [ht] at h
      exact h
    · next t c ht =>
      rw [ht] at h
      exact h

theorem State.firmware_loadKeys (cc : Nat) : (s.loadKeys cc).firmware = s.firmware :=
  (State.firmware_takeCerts _ _ _ _ _).trans (State.firmware_takeCerts _ _ _ _ _)

theorem State.firmware_bootFail (obj code : Nat) : (s.bootFail obj code).firmware = s.firmware :=
  (State.firmware_setF _ (by decide) 0 _).trans (s.firmware_setF (by decide) 0 _)

theorem State.firmware_sealWith (rec_ : List Byte) : (s.sealWith rec_).firmware = s.firmware := by
  unfold State.sealWith
  simp (disch := decide) only [State.firmware_event, State.firmware_setF, State.firmware_modSec]

/-! ### The lease (R357) -/

theorem State.firmware_grant (cc : Nat) : (s.grant cc).firmware = s.firmware :=
  each_frame State.firmware _ _ _ fun s p => by split <;> rfl

theorem State.firmware_leaseConflict : s.leaseConflict.firmware = s.firmware := by
  unfold State.leaseConflict
  dsimp only
  split
  · rfl
  · exact State.firmware_grant _ 0

theorem State.firmware_showActive : s.showActive.firmware = s.firmware := by
  unfold State.showActive
  split
  · split
    · rfl
    · exact (State.firmware_setF _ (by decide) 0 _).trans (s.firmware_setF (by decide) 0 _)
  · rfl

theorem State.firmware_claim (cc : Nat) : (s.claim cc).firmware = s.firmware := by
  unfold State.claim
  split
  · rfl
  · exact (State.firmware_showActive _).trans ((State.firmware_leaseConflict _).trans (s.firmware_grant cc))

/-! ### The boot of a control chiplet (R376, R377) -/

theorem State.firmware_extendAll (cc : Nat) (l : List (List Byte)) :
    (each l s fun s d => s.extend cc 0 d).firmware = s.firmware := each_frame State.firmware _ _ _ fun _ _ => rfl

/-- STAGE of BOOT_STATUS is raised where it stands at a step. -/
theorem State.firmware_stage (c : Prop) [Decidable c] (v : Nat) :
    (if c then s.setF R.SEC.BOOT_STATUS.STAGE 0 v else s).firmware = s.firmware := by
  split
  · exact s.firmware_setF (by decide) 0 v
  · rfl

theorem State.firmware_startStage1 (cc : Nat) (extra : List (List Byte)) (img : List Byte) :
    (s.startStage1 cc extra img).firmware = s.firmware := by
  unfold State.startStage1
  dsimp only
  generalize hu : (if State.getF _ R.SEC.BOOT_STATUS.STAGE 0 = 0 then _ else _) = u
  have hstart : u.firmware = s.firmware := by
    rw [← hu, State.firmware_stage]
    simp only [State.firmware_modSec, State.firmware_modCc, State.firmware_extendAll]
  have hos := u.firmware_fromFlash cc 3 (·.os)
  split
  · next t c h =>
    rw [h] at hos
    rw [State.firmware_bootFail, hos, hstart]
  · next t b os c h =>
    rw [h] at hos
    rw [State.firmware_stage]
    simp (disch := decide) only [State.firmware_setF, State.firmware_modCc, State.firmware_modSec, State.firmware_extend]
    exact hos.trans hstart

/-- The limits record found seals the device, or its absence is shown (R374). -/
theorem State.firmware_limits {u s : State} (h : u.firmware = s.firmware) (lim : Option (Nat × List Byte)) (lc cc : Nat) :
    (match lim with
      | some (_, rec_) =>
        if u.getF R.ROOT.SEAL.SEALED 0 = 0 && u.active = some cc then
          (u.sealWith rec_).modSec fun x => { x with image := Tab.set 0 x.image 1 (objSvn rec_) }
        else u
      | none => u.bootFail 1 lc).firmware = s.firmware := by
  cases lim with
  | none => exact (u.firmware_bootFail 1 lc).trans h
  | some r =>
    dsimp only
    split
    · rw [State.firmware_modSec, State.firmware_sealWith, h]
    · exact h

theorem State.firmware_romBoot (cc : Nat) : (s.romBoot cc).firmware = s.firmware := by
  unfold State.romBoot
  have hlimits := ((s.modCc cc fun c => { meas := c.meas }).loadKeys cc).firmware_fromFlash cc 1 (·.limits)
  rw [State.firmware_loadKeys, State.firmware_modCc] at hlimits
  dsimp only
  generalize State.fromFlash _ cc 1 _ = x at hlimits ⊢
  obtain ⟨t, lim, lc⟩ := x
  dsimp only at hlimits ⊢
  have hclaim := (t.firmware_claim cc).trans hlimits
  generalize t.claim cc = u at hclaim
  split
  · rw [State.firmware_modCc, State.firmware_bootFail, hclaim]
  · split
    all_goals
      rename_i heq
      have hstage1 := congrArg (fun x => x.1.firmware) heq
      rw [State.firmware_fromFlash] at hstage1
    · rw [State.firmware_startStage1, State.firmware_setF _ (by decide)]
      exact hstage1.symm.trans (State.firmware_limits hclaim lim lc _)
    · rw [State.firmware_modCc, State.firmware_extendAll, State.firmware_bootFail]
      exact hstage1.symm.trans (State.firmware_limits hclaim lim lc _)

/-! ### A job partition taken back (R262, R318, R363) -/

theorem State.firmware_unclaim (cc : Nat) : (s.unclaim cc).firmware = s.firmware := rfl

theorem State.firmware_closeWindow (w : Nat) : (s.closeWindow w).firmware = s.firmware := by
  unfold State.closeWindow
  split
  · rfl
  · split <;> rfl

theorem State.firmware_bindCl_none (c : Nat) : (s.bindCl c none).firmware = s.firmware :=
  s.firmware_setF (f := R.CL.JOB.ACTIVE) (by decide) c 0

/-- Fields at successive entries of a cluster's page are cleared. -/
theorem State.firmware_clearEntries {f : Fld} (h : f.lo % 64 ≠ 1) (stride c : Nat) (l : List Nat) :
    (each l s fun s n => s.writeCl (f.at stride n) c 0).firmware = s.firmware :=
  each_frame State.firmware _ _ _ fun s n => s.firmware_writeCl_at h stride n c 0

theorem State.firmware_freeCluster (c : Nat) : (s.freeCluster c).firmware = s.firmware :=
  (State.firmware_setF_at _ (f := R.LWT.CL_TAGn.JOB_TAG) (by decide) 4 c 0 0).trans
    ((State.firmware_clearEntries _ (f := R.CL.FENCE_LOn.VALID) (by decide) 8 c _).trans
      ((State.firmware_clearEntries _ (f := R.CL.MOVER_LISTn.VALID) (by decide) 4 c _).trans
        ((State.firmware_clearEntries _ (f := R.CL.ROUTE_LOn.VALID) (by decide) 8 c _).trans (s.firmware_bindCl_none c))))

theorem State.firmware_freeRest (id : Nat) (j : Job) : (s.freeRest id j).firmware = s.firmware := by
  have htrips (l : List Nat) (s : State) :
      (each l s fun s n => s.setF (R.TLY.TW_CTLn.EN.at 8 n) 0 0).firmware = s.firmware :=
    each_frame State.firmware _ _ _ fun s n => s.firmware_setF_at (by decide) 8 n 0 0
  have hgroups (l : List Nat) (s : State) :
      (each l s fun s g => s.modFab fun f => { f with mcast := Tab.set {} f.mcast g {} }).firmware = s.firmware :=
    each_frame State.firmware _ _ _ fun _ _ => rfl
  have hranges (p : State → Nat → Bool) (s : State) : (each (List.range 16) s fun s n =>
      if p s n then s.setF (R.TLY.RANGE_CTLn.EN.at 32 n) 0 0 else s).firmware = s.firmware :=
    each_frame State.firmware _ _ _ fun s n => by
      split
      · exact s.firmware_setF_at (by decide) 32 n 0 0
      · rfl
  have hmark (b : Bool) (s : State) : (if b then s.setF R.TLY.MARK_CTL.SOURCE 0 0 else s).firmware = s.firmware := by
    split
    · exact s.firmware_setF (by decide) 0 0
    · rfl
  exact (hgroups _ _).trans ((hranges _ _).trans ((hmark _ _).trans (htrips j.trips s)))

theorem State.firmware_freeJob (id : Nat) (j : Job) : (s.freeJob id j).firmware = s.firmware := by
  rw [State.freeJob_eq, State.firmware_freeRest]
  exact each_frame State.firmware _ _ _ State.firmware_freeCluster

theorem State.firmware_closeWindows (l : List Nat) : (each l s State.closeWindow).firmware = s.firmware :=
  each_frame State.firmware _ _ _ State.firmware_closeWindow

theorem State.firmware_undoAdmission (id : Nat) : (s.undoAdmission id).firmware = s.firmware := by
  unfold State.undoAdmission
  dsimp only
  split
  · rfl
  · next j _ =>
    have hclosed := (s.modCtl fun c => { c with admission := [] }).firmware_closeWindows j.windows
    split
    · exact hclosed
    · exact (State.firmware_freeJob _ id j).trans hclosed

theorem State.firmware_redoRelease (id : Nat) : (s.redoRelease id).firmware = s.firmware := by
  unfold State.redoRelease
  dsimp only
  split
  · rfl
  · next j _ =>
    have hclosed := (s.setJob id (some { j with releasing := true })).firmware_closeWindows j.windows
    split
    · rfl
    · split
      · exact hclosed
      · exact (State.firmware_freeJob _ id j).trans hclosed

theorem State.firmware_complete (site : Nat) (r : LaunchRec) (state code kind : Nat) :
    (s.complete site r state code kind).firmware = s.firmware :=
  State.complete_part (part := State.firmware) (fun _ => rfl) (fun s => s.firmware_addF (by decide) 0 1) s site r state code kind

theorem State.firmware_endCore (site : Nat) : (s.endCore site).firmware = s.firmware :=
  each_frame State.firmware _ _ _ fun s r => s.firmware_complete site r 3 0 0

theorem coreCounts_place : ∀ f ∈ coreCounts, (64 * f.off + f.lo) % 262144 ≠ 4353 := by decide

theorem State.firmware_clearCounts (i : Nat) : (s.clearCounts coreCounts i).firmware = s.firmware :=
  each_frame_of_mem State.firmware coreCounts s (fun s f => s.setF f i 0) fun s f hf => s.firmware_setF (coreCounts_place f hf) i 0

theorem State.firmware_resetSite (i : Nat) : (s.resetSite i).firmware = s.firmware := by
  rw [State.resetSite, State.firmware_clearCounts, State.firmware_modCore]

theorem State.firmware_resetCluster (c : Nat) : (s.resetCluster c).firmware = s.firmware := by
  rw [State.resetCluster_eq, State.firmware_addF _ (by decide), State.firmware_setF _ (by decide), State.firmware_setF _ (by decide)]
  exact each_frame State.firmware _ _ _ State.firmware_resetSite

theorem State.firmware_resetJob (id : Nat) : (s.resetJob id).firmware = s.firmware := by
  unfold State.resetJob
  split
  · rfl
  · next j _ =>
    have hcores (l : List Nat) (s : State) : (each l s State.endCore).firmware = s.firmware :=
      each_frame State.firmware _ _ _ State.firmware_endCore
    have hclusters (l : List Nat) (s : State) : (each l s fun s c =>
        ((s.resetCluster c).modCluster c fun _ => {}).setF R.CL.REPLAY_STATUS.STATE c 0).firmware = s.firmware :=
      each_frame State.firmware _ _ _ fun s c => by
        rw [State.firmware_setF _ (by decide), State.firmware_modCluster, State.firmware_resetCluster]
    have hclosed := (State.firmware_closeWindows _ j.windows).trans ((hclusters j.clusters _).trans (hcores (j.sites.map (·.2)) s))
    dsimp only
    split
    · exact hclosed
    · exact (State.firmware_freeJob _ id j).trans hclosed

/-! ### What a failover finishes of the journal (R360, R363) -/

theorem State.firmware_wantReplay (c : Nat) (r : Recovery) : (s.wantReplay c r).firmware = s.firmware := by
  have hgoals (l : List Nat) (s : State) : (each l s fun s i =>
      s.modCore i fun x => { x with goal := s.getF R.CORE.INSTR_CNT.COUNT i - x.mark0 }).firmware = s.firmware :=
    each_frame State.firmware _ _ _ fun _ _ => rfl
  have hgroup (l : List Nat) (s : State) : (each l s fun s c =>
      (s.modCluster c fun x => { x with want := some (r.after x.want) }).setF R.CL.REPLAY_STATUS.STATE c 1).firmware = s.firmware :=
    each_frame State.firmware _ _ _ fun s c => State.firmware_setF _ (by decide) c 1
  unfold State.wantReplay
  split
  · rfl
  · exact (hgroup _ _).trans (hgoals _ s)

theorem State.firmware_redoReplay (c : Nat) : (s.redoReplay c).firmware = s.firmware := by
  unfold State.redoReplay
  split
  · split
    · exact s.firmware_wantReplay c _
    · rfl
  · rfl

theorem State.firmware_tell (dev : Nat) (body : List Byte) : (s.tell dev body).firmware = s.firmware := by
  unfold State.tell
  obtain ⟨ps, h⟩ := s.txPacket_frame 0 { type := 4, cls := 3, dst := dev, src := s.devId, vc := 3, birth := s.now / 1000 % 65536, data := body }
  rw [h, State.firmware_modFab]

theorem State.firmware_gateProgress : s.gateProgress.firmware = s.firmware := by
  unfold State.gateProgress
  dsimp only
  split
  · rfl
  · split
    · rw [State.firmware_tell, State.firmware_modGate]
    · split
      · rw [State.firmware_tell, State.firmware_modGate]
      · rfl

theorem State.firmware_finishJournal (e : JEntry) : (s.finishJournal e).firmware = s.firmware := by
  unfold State.finishJournal
  cases e.op with
  | admission => exact s.firmware_undoAdmission e.arg
  | release => exact s.firmware_redoRelease e.arg
  | windowClose => exact s.firmware_closeWindow e.arg
  | jobReset => exact s.firmware_resetJob e.arg
  | substitution => exact s.firmware_redoReplay e.arg
  | stepGate => exact s.firmware_gateProgress
  | windowOpen => rfl
  | launch => rfl
  | front => rfl

theorem State.firmware_succeed (old new : Nat) : (s.succeed old new false).firmware = s.firmware := by
  have hcount : (((s.addF R.ROOT.CTRL_STATUS.FAILOVERS 0 1).reportUnit 9 1 (unitCode 0 0 new) 0).event 0 0 0).firmware = s.firmware := by
    rw [State.firmware_event, State.firmware_reportUnit, State.firmware_addF _ (by decide)]
  exact (each_frame State.firmware _ _ _ State.firmware_finishJournal).trans hcount

end

/-! ### A control chiplet reloaded (R400) -/

/-- The images of a bank are replaced. -/
def Flash.withImages (f : Flash) (bank : Nat) (stage1 os : List Byte) : Flash :=
  f.setBank bank { f.bank bank with stage1 := stage1, os := os }

theorem Flash.bank_setBank (f : Flash) {b : Nat} (x : FlashBank) : (f.setBank b x).bank b = x := by
  unfold Flash.setBank Flash.bank
  split <;> rfl

theorem Flash.bank_setBank_ne (f : Flash) {b c : Nat} (hb : b ≤ 1) (hc : c ≤ 1) (h : c ≠ b) (x : FlashBank) :
    (f.setBank b x).bank c = f.bank c := by
  unfold Flash.setBank Flash.bank
  by_cases hb0 : b = 0
  · rw [if_pos hb0, if_neg (by omega), if_neg (by omega)]
  · rw [if_neg hb0, if_pos (by omega), if_pos (by omega)]

theorem State.firmware_reload (s : State) (cc bank : Nat) (stage1 os : List Byte) :
    (s.reload cc bank stage1 os).firmware = (s.setFlash cc ((s.flash cc).withImages bank stage1 os)).firmware :=
  State.firmware_romBoot _ cc

theorem State.flash_of_firmware {s t : State} (h : t.firmware = s.firmware) (cc : Nat) : t.flash cc = s.flash cc := by
  unfold State.flash
  rw [show t.flash0 = s.flash0 from congrArg (·.1) h, show t.flash1 = s.flash1 from congrArg (·.2.1) h]

theorem State.prefBank_of_firmware {s t : State} (h : t.firmware = s.firmware) : t.prefBank = s.prefBank := congrArg (·.2.2) h

theorem State.flash_setFlash (s : State) (cc : Nat) (f : Flash) : (s.setFlash cc f).flash cc = f := by
  unfold State.setFlash State.flash
  split <;> rfl

theorem State.flash_setFlash_ne (s : State) {a b : Nat} (h : (a = 0) ≠ (b = 0)) (f : Flash) : (s.setFlash a f).flash b = s.flash b := by
  unfold State.setFlash State.flash
  by_cases ha : a = 0 <;> by_cases hb : b = 0 <;> simp_all

theorem State.prefBank_setFlash (s : State) (cc : Nat) (f : Flash) : (s.setFlash cc f).prefBank = s.prefBank := by
  unfold State.setFlash
  split <;> rfl

end Sys2Proof.Machine
end

section
/-! Proofs. The two control chiplets and their banks (R391, R398, R400). -/

namespace Sys2Proof.Machine

/-! ### CONTROL_FIRMWARE_UPDATE (R398, R400) -/

theorem State.check_good {s : State} {cc type : Nat} {b : List Byte} (h : s.verify cc type b = 0) : s.check cc type b = (s, 0) := by
  rw [State.check, if_pos h, h]

theorem State.check_bad {s : State} {cc type : Nat} {b : List Byte} (h : s.verify cc type b ≠ 0) :
    s.check cc type b = (s.addF R.SEC.VERIFY_FAILS.COUNT 0 1, s.verify cc type b) := by
  rw [State.check, if_neg h]

/-- An object that does not verify is counted, and nothing else (R391). -/
theorem State.addF_verifyFails (s : State) : s.addF R.SEC.VERIFY_FAILS.COUNT 0 1 = { s with regs := (s.addF R.SEC.VERIFY_FAILS.COUNT 0 1).regs } ∧
    (s.addF R.SEC.VERIFY_FAILS.COUNT 0 1).getF R.SEC.VERIFY_FAILS.COUNT 0 = min (2 ^ 32 - 1) (s.getF R.SEC.VERIFY_FAILS.COUNT 0 + 1) :=
  ⟨rfl, State.getF_addF_same s _ 0 1⟩

/-- The boot of the new active control chiplet and, when it runs, the reload of the old one. -/
def State.handOver (s : State) (old new bank : Nat) (stage1 os : List Byte) : State :=
  if !(s.cc new).running then s
  else
    let t := (s.unclaim old).claim new
    (if t.active = some new then t.succeed old new false else t).reload old bank stage1 os

theorem State.bank_le (s : State) : 1 - s.getF R.SEC.BOOT_STATUS.BANK 0 ≤ 1 := Nat.sub_le ..

/-- The new chiplet's flash and the preferred bank are not touched by the reload of the old chiplet. -/
theorem State.handOver_keeps (s : State) {old new : Nat} (h : (old = 0) ≠ (new = 0)) (bank : Nat) (stage1 os : List Byte) :
    (s.handOver old new bank stage1 os).flash new = s.flash new ∧ (s.handOver old new bank stage1 os).prefBank = s.prefBank := by
  unfold State.handOver
  dsimp only
  split
  · exact ⟨rfl, rfl⟩
  · have hclaim := ((s.unclaim old).firmware_claim new).trans (s.firmware_unclaim old)
    generalize (s.unclaim old).claim new = t at hclaim
    have hnext : (if t.active = some new then t.succeed old new false else t).firmware = s.firmware := by
      split
      · rw [State.firmware_succeed, hclaim]
      · exact hclaim
    generalize (if t.active = some new then t.succeed old new false else t) = u at hnext
    have hload := u.firmware_reload old bank stage1 os
    rw [State.flash_of_firmware hload, State.prefBank_of_firmware hload, State.flash_setFlash_ne _ h, State.prefBank_setFlash]
    exact ⟨State.flash_of_firmware hnext new, State.prefBank_of_firmware hnext⟩

theorem execControlFirmwareUpdate_eq {s : State} {old new : Nat} (hactive : s.active = some old) (hnew : new = 1 - old)
    (hserve : s.mayServe 1 new = true) (hrun : (s.cc new).running = true) (stage1 os : List Byte) :
    (s.verify new 2 stage1 ≠ 0 ∨ s.verify new 3 os ≠ 0 → execControlFirmwareUpdate stage1 os s = .next (s.addF R.SEC.VERIFY_FAILS.COUNT 0 1)) ∧
    (s.verify new 2 stage1 = 0 → s.verify new 3 os = 0 → execControlFirmwareUpdate stage1 os s =
      .next (((s.setF R.SEC.BOOT_CTL.PREF_BANK 0 (1 - s.getF R.SEC.BOOT_STATUS.BANK 0)).reload new (1 - s.getF R.SEC.BOOT_STATUS.BANK 0) stage1 os).handOver
        old new (1 - s.getF R.SEC.BOOT_STATUS.BANK 0) stage1 os)) := by
  subst hnew
  have hgo : (!s.mayServe 1 (1 - old) || !(s.cc (1 - old)).running) = false := by rw [hserve, hrun]; rfl
  unfold execControlFirmwareUpdate
  simp only [hactive, hgo, Bool.false_eq_true, if_false]
  constructor
  · intro hbad
    by_cases hfirst : s.verify (1 - old) 2 stage1 = 0
    · have hsecond := hbad.resolve_left fun h => h hfirst
      simp only [State.check_good hfirst, State.check_bad hsecond]
    · simp only [State.check_bad hfirst]
  · intro hfirst hsecond
    simp only [State.check_good hfirst, State.check_good hsecond, State.handOver]
    split <;> rfl

/-- CONTROL_FIRMWARE_UPDATE puts both images into the bank that the device did not boot from (R400). -/
theorem State.handOver_reload (s : State) {old new bank : Nat} (h : (old = 0) ≠ (new = 0)) (hbank : bank ≤ 1) (stage1 os : List Byte) :
    let t := ((s.setF R.SEC.BOOT_CTL.PREF_BANK 0 bank).reload new bank stage1 os).handOver old new bank stage1 os
    t.getF R.SEC.BOOT_CTL.PREF_BANK 0 = bank ∧ ((t.flash new).bank bank).stage1 = stage1 ∧ ((t.flash new).bank bank).os = os ∧
      (t.flash new).bank (1 - bank) = (s.flash new).bank (1 - bank) := by
  intro t
  have hload := (s.setF R.SEC.BOOT_CTL.PREF_BANK 0 bank).firmware_reload new bank stage1 os
  obtain ⟨hflash, hpref⟩ := ((s.setF R.SEC.BOOT_CTL.PREF_BANK 0 bank).reload new bank stage1 os).handOver_keeps h bank stage1 os
  have hflash' : t.flash new = (s.flash new).withImages bank stage1 os :=
    hflash.trans ((State.flash_of_firmware hload new).trans (State.flash_setFlash _ new _))
  have hpref' : t.getF R.SEC.BOOT_CTL.PREF_BANK 0 = bank := by
    refine hpref.trans ((State.prefBank_of_firmware hload).trans ((State.prefBank_setFlash _ new _).trans ?_))
    refine (State.getF_setF_same _ _ _ _).trans (Nat.mod_eq_of_lt ?_)
    exact Nat.lt_succ_of_le hbank
  rw [hflash', Flash.withImages, Flash.bank_setBank, Flash.bank_setBank_ne _ hbank (by omega) (by omega)]
  exact ⟨hpref', rfl, rfl, rfl⟩

/-- CONTROL_FIRMWARE_UPDATE of the two control chiplets. -/
theorem controlFirmwareUpdate_holds (s : State) (stage1 os : List Byte) :
    (s.active = none → exec (.controlFirmwareUpdate stage1 os) s = .next s) ∧
      (∀ old : Fin 2, s.active = some old.val → let new := 1 - old.val; let run := exec (.controlFirmwareUpdate stage1 os) s
        (s.mayServe 1 new = false ∨ (s.cc new).running = false → run = .next s) ∧
        (s.mayServe 1 new = true → (s.cc new).running = true →
          (s.verify new 2 stage1 ≠ 0 ∨ s.verify new 3 os ≠ 0 → ∃ t, run = .next t ∧ t = { s with regs := t.regs } ∧
            t.getF R.SEC.VERIFY_FAILS.COUNT 0 = min (2 ^ 32 - 1) (s.getF R.SEC.VERIFY_FAILS.COUNT 0 + 1)) ∧
          (s.verify new 2 stage1 = 0 → s.verify new 3 os = 0 → ∃ t, run = .next t ∧ (let bank := 1 - s.getF R.SEC.BOOT_STATUS.BANK 0
            t.getF R.SEC.BOOT_CTL.PREF_BANK 0 = bank ∧ ((t.flash new).bank bank).stage1 = stage1 ∧ ((t.flash new).bank bank).os = os ∧
            (t.flash new).bank (1 - bank) = (s.flash new).bank (1 - bank))))) := by
  change (s.active = none → execControlFirmwareUpdate stage1 os s = .next s) ∧ _
  refine ⟨fun hnone => by rw [execControlFirmwareUpdate, hnone], fun old hactive => ⟨fun hstop => ?_, fun hserve hrun => ?_⟩⟩
  · change execControlFirmwareUpdate stage1 os s = .next s
    have hgo : (!s.mayServe 1 (1 - old.val) || !(s.cc (1 - old.val)).running) = true := by
      rcases hstop with h | h
      · rw [h]; rfl
      · rw [h, Bool.not_false, Bool.or_true]
    rw [execControlFirmwareUpdate, hactive]
    exact if_pos hgo
  · obtain ⟨hbad, hgood⟩ := execControlFirmwareUpdate_eq hactive rfl hserve hrun stage1 os
    refine ⟨fun hfail => ⟨_, hbad hfail, s.addF_verifyFails⟩, fun hfirst hsecond => ⟨_, hgood hfirst hsecond, ?_⟩⟩
    have hne : (old.val = 0) ≠ (1 - old.val = 0) := by
      have := old.isLt
      simp only [ne_eq, eq_iff_iff]
      omega
    exact s.handOver_reload hne s.bank_le stage1 os

end Sys2Proof.Machine
end

section
/-! Proofs. The operation that SEC.SERVICE shows, and the calibration of a sensor (R398, R399). -/

namespace Sys2Proof.Machine

/-! ### SEC.SERVICE shows one operation (R399) -/

section
variable (s : State) {part state index : Nat}

theorem State.serve_regs : s.serve part state index = { s with regs := (s.serve part state index).regs } := rfl

theorem State.part_serve (h : part < 16) : (s.serve part state index).getF R.SEC.SERVICE.PART 0 = part := by
  rw [State.serve, State.getF_setF_ne _ _ _ _ _ _ (Fld.key_ne_of_low (by decide) 0 0),
    State.getF_setF_ne _ _ _ _ _ _ (Fld.key_ne_of_low (by decide) 0 0), State.getF_setF_same]
  exact Nat.mod_eq_of_lt h

theorem State.state_serve (h : state < 4) : (s.serve part state index).getF R.SEC.SERVICE.STATE 0 = state := by
  rw [State.serve, State.getF_setF_ne _ _ _ _ _ _ (Fld.key_ne_of_low (by decide) 0 0), State.getF_setF_same]
  exact Nat.mod_eq_of_lt h

theorem State.index_serve (h : index < 1024) : (s.serve part state index).getF R.SEC.SERVICE.INDEX 0 = index := by
  rw [State.serve, State.getF_setF_same]
  exact Nat.mod_eq_of_lt h

theorem State.part_serveEnd : s.serveEnd.getF R.SEC.SERVICE.PART 0 = 0 := s.part_serve (by decide)

theorem State.serving_iff : s.serving part = true ↔ s.getF R.SEC.SERVICE.PART 0 = part := beq_iff_eq

/-- A field at another place of its page does not show which operation is under way. -/
theorem State.getF_serve_ne {f : Fld} (i : Nat) (hpart : f.key i ≠ R.SEC.SERVICE.PART.key 0) (hstate : f.key i ≠ R.SEC.SERVICE.STATE.key 0)
    (hindex : f.key i ≠ R.SEC.SERVICE.INDEX.key 0) : (s.serve part state index).getF f i = s.getF f i := by
  rw [State.serve, State.getF_setF_ne _ _ _ _ _ _ hindex, State.getF_setF_ne _ _ _ _ _ _ hstate, State.getF_setF_ne _ _ _ _ _ _ hpart]

end

/-! ### SENSOR_CALIBRATION (R398, R399) -/

section
variable (s : State) (r : Fin 36) (n : Fin 8)

theorem sensorCalibration_idle (h : s.module_.v36 = false ∨ sensorsOf r ≤ n.val) : exec (.sensorCalibration r n) s = .next s := by
  refine if_pos ?_
  rcases h with hv | hn
  · rw [hv]; rfl
  · rw [decide_eq_true hn, Bool.or_true]

/-- The region's calibration is set, and shown where no other operation is. -/
def State.setCalib (s : State) (r : Fin 36) (c : Option Nat) : State := s.modRegion r fun x => { x with calib := c }

theorem State.region_setCalib (c : Option Nat) : (s.setCalib r c).region r = { s.region r with calib := c } :=
  (s.region_modRegion r r _).trans (if_pos rfl)

theorem State.setCalib_serve (c : Option Nat) (part state index : Nat) : (s.setCalib r c).serve part state index =
    { s with regs := ((s.setCalib r c).serve part state index).regs, regions := (s.setCalib r c).regions } := rfl

variable {s r n}
variable (hv : s.module_.v36 = true) (hn : n.val < sensorsOf r)
include hv hn

theorem sensorCalibration_fit : ¬(!s.module_.v36 || decide (sensorsOf r ≤ n.val)) = true := by
  rw [hv, decide_eq_false (Nat.not_le_of_lt hn)]
  decide

theorem sensorCalibration_other {k : Nat} (hcalib : (s.region r).calib = some k) (hk : k ≠ n.val) : exec (.sensorCalibration r n) s = .next s := by
  refine (if_neg (sensorCalibration_fit hv hn)).trans ?_
  rw [hcalib]
  exact if_pos hk

theorem sensorCalibration_set (hcalib : (s.region r).calib = none) :
    ∃ t, exec (.sensorCalibration r n) s = .next t ∧ t = { s with regs := t.regs, regions := t.regions } ∧
      t.region r = { s.region r with calib := some n.val } ∧ (s.getF R.SEC.SERVICE.PART 0 = 0 → t.getF R.SEC.SERVICE.PART 0 = 6) := by
  have hrun : exec (.sensorCalibration r n) s =
      .next (if (s.setCalib r (some n.val)).serving 0 then (s.setCalib r (some n.val)).serve 6 2 r else s.setCalib r (some n.val)) := by
    refine (if_neg (sensorCalibration_fit hv hn)).trans ?_
    rw [hcalib]
    rfl
  have hregion := s.region_setCalib r (some n.val)
  by_cases h0 : s.getF R.SEC.SERVICE.PART 0 = 0
  · refine ⟨_, hrun.trans (congrArg _ (if_pos ((State.serving_iff _).2 h0))), ?_⟩
    exact ⟨s.setCalib_serve r _ _ _ _, hregion, fun _ => State.part_serve _ (by decide)⟩
  · refine ⟨_, hrun.trans (congrArg _ (if_neg fun h => h0 ((State.serving_iff _).1 h))), ?_⟩
    exact ⟨rfl, hregion, fun h => absurd h h0⟩

theorem sensorCalibration_end (hcalib : (s.region r).calib = some n.val) :
    ∃ t, exec (.sensorCalibration r n) s = .next t ∧ t = { s with regs := t.regs, regions := t.regions } ∧
      t.region r = { s.region r with calib := none } ∧ (s.getF R.SEC.SERVICE.PART 0 = 6 → t.getF R.SEC.SERVICE.PART 0 = 0) := by
  have hrun : exec (.sensorCalibration r n) s = .next (if (s.setCalib r none).serving 6 then (s.setCalib r none).serveEnd else s.setCalib r none) := by
    refine (if_neg (sensorCalibration_fit hv hn)).trans ?_
    rw [hcalib]
    exact if_neg (not_not.2 rfl)
  have hregion := s.region_setCalib r none
  by_cases h6 : s.getF R.SEC.SERVICE.PART 0 = 6
  · refine ⟨_, hrun.trans (congrArg _ (if_pos ((State.serving_iff _).2 h6))), ?_⟩
    exact ⟨s.setCalib_serve r _ _ _ _, hregion, fun _ => State.part_serveEnd _⟩
  · refine ⟨_, hrun.trans (congrArg _ (if_neg fun h => h6 ((State.serving_iff _).1 h))), ?_⟩
    exact ⟨rfl, hregion, fun h => absurd h h6⟩

end
end Sys2Proof.Machine
end

section
/-! Proofs. The calibration of a lane (R241, R398). -/

namespace Sys2Proof.Machine

/-! ### LANE_CALIBRATION (R241, R398) -/

theorem and_two_pow_of_flag {w b : Nat} (h : flag w b = true) : w &&& 2 ^ b = 2 ^ b := by
  rw [Nat.and_two_pow, ← flag_eq_testBit, h]
  exact Nat.one_mul _

theorem flag_two_pow (b i : Nat) : flag (2 ^ b) i = decide (b = i) := by
  rw [flag_eq_testBit, Nat.testBit_two_pow]

/-- Taking a bit that is set out of a number. -/
theorem flag_sub_two_pow {w a : Nat} (h : flag w a = true) (i : Nat) : flag (w - 2 ^ a) i = (flag w i && !decide (a = i)) := by
  have hsub := flag_sub_and w (2 ^ a) i
  rwa [and_two_pow_of_flag h, flag_two_pow] at hsub

/-- Adding a bit that is clear sets it: taken out again, it leaves the number. -/
theorem add_two_pow_eq_or {w b : Nat} (h : flag w b = false) : w + 2 ^ b = w ||| 2 ^ b := by
  have hset : flag (w ||| 2 ^ b) b = true := by
    rw [flag_eq_testBit, Nat.testBit_or, Nat.testBit_two_pow_self, Bool.or_true]
  have hle : 2 ^ b ≤ w ||| 2 ^ b := Nat.right_le_or
  have hback : (w ||| 2 ^ b) - 2 ^ b = w := Nat.eq_of_testBit_eq fun i => by
    rw [← flag_eq_testBit, flag_sub_two_pow hset, flag_eq_testBit, Nat.testBit_or, Nat.testBit_two_pow]
    by_cases hi : b = i
    · rw [← hi, ← flag_eq_testBit, h, decide_eq_true rfl]
      rfl
    · rw [decide_eq_false hi, Bool.or_false, Bool.not_false, Bool.and_true]
  omega

/-- One lane gives its place to another. -/
theorem flag_swap {w a b : Nat} (ha : flag w a = true) (hb : flag w b = false) (i : Nat) :
    flag (w - 2 ^ a + 2 ^ b) i = if i = a then false else if i = b then true else flag w i := by
  have hclear : flag (w - 2 ^ a) b = false := by rw [flag_sub_two_pow ha, hb, Bool.false_and]
  have hne : a ≠ b := fun h => by rw [h, hb] at ha; cases ha
  rw [add_two_pow_eq_or hclear, flag_eq_testBit, Nat.testBit_or, Nat.testBit_two_pow, ← flag_eq_testBit, flag_sub_two_pow ha]
  by_cases hia : i = a
  · rw [if_pos hia, hia, decide_eq_true rfl, decide_eq_false (Ne.symm hne), Bool.not_true, Bool.and_false, Bool.or_false]
  · rw [if_neg hia, decide_eq_false (Ne.symm hia), Bool.not_false, Bool.and_true]
    by_cases hib : i = b
    · rw [if_pos hib, decide_eq_true hib.symm, Bool.or_true]
    · rw [if_neg hib, decide_eq_false (Ne.symm hib), Bool.or_false]

/-- The lanes in use of a port and the calibration it is under are set. -/
def State.putLanes (s : State) (p : Fin 40) (m : Nat) (c : Option Nat) : State :=
  ((s.setF R.LPT.TRAIN_STATUS.LANES p m).setF R.LPT.TRAIN_STATUS.SPARE_USED p (bit m 8)).modPort p
    fun q => { q with calib := c, replay := !q.unacked.isEmpty }

section
variable (s : State) (p : Fin 40)

theorem State.putLanes_serve (m : Nat) (c : Option Nat) (part state index : Nat) : (s.putLanes p m c).serve part state index =
    { s with regs := ((s.putLanes p m c).serve part state index).regs, fab := { s.fab with ports := (s.putLanes p m c).fab.ports } } := by
  unfold State.putLanes State.serve State.modPort State.setF
  rfl

theorem State.port_serve (part state index k : Nat) : (s.serve part state index).port k = s.port k := rfl

theorem State.calib_serve (m : Nat) (c : Option Nat) (part state index : Nat) :
    (((s.putLanes p m c).serve part state index).port p).calib = c := by
  rw [State.port_serve, State.putLanes, State.port_modPort, if_pos rfl]

theorem State.lanes_serve (m : Nat) (c : Option Nat) (part state index : Nat) :
    ((s.putLanes p m c).serve part state index).getF R.LPT.TRAIN_STATUS.LANES p = m % 512 := by
  rw [State.getF_serve_ne _ _ (Fld.key_ne_of_low (by decide) _ _) (Fld.key_ne_of_low (by decide) _ _) (Fld.key_ne_of_low (by decide) _ _)]
  exact (State.getF_setF_ne _ _ _ _ _ _ (Fld.key_ne_of_low (by decide) _ _)).trans (State.getF_setF_same _ _ _ _)

theorem State.flag_lanes_serve (m : Nat) (c : Option Nat) (part state index : Nat) {i : Nat} (hi : i < 9) :
    flag (((s.putLanes p m c).serve part state index).getF R.LPT.TRAIN_STATUS.LANES p) i = flag m i := by
  rw [State.lanes_serve]
  exact flag_mod_two_pow m 9 i hi

theorem laneCalibration_idle (lane : Fin 9) (h : s.mayServe 4 p = false ∨ s.portUp p = false) : exec (.laneCalibration p lane) s = .next s := by
  refine if_pos ?_
  rcases h with hserve | hup
  · rw [hserve]; rfl
  · rw [hup, Bool.not_false, Bool.or_true]

variable {s p} {lane : Fin 9}
variable (hserve : s.mayServe 4 p = true) (hup : s.portUp p = true)
include hserve hup

theorem laneCalibration_serves : ¬(!s.mayServe 4 p || !s.portUp p) = true := by
  rw [hserve, hup]
  decide

/-- A lane is calibrated of a port at x8, and only a lane in use. -/
theorem laneCalibration_unfit (hcalib : (s.port p).calib = none)
    (h : s.getF R.LPT.TRAIN_STATUS.WIDTH p ≠ 3 ∨ flag (s.getF R.LPT.TRAIN_STATUS.LANES p) lane = false) :
    exec (.laneCalibration p lane) s = .next s := by
  refine (if_neg (laneCalibration_serves hserve hup)).trans ?_
  rw [hcalib]
  refine if_pos ?_
  rcases h with hw | hl
  · rw [decide_eq_true hw, Bool.true_or]
  · rw [hl, Bool.not_false, Bool.or_true]

theorem laneCalibration_starts (hcalib : (s.port p).calib = none) (hwidth : s.getF R.LPT.TRAIN_STATUS.WIDTH p = 3)
    (hlane : flag (s.getF R.LPT.TRAIN_STATUS.LANES p) lane = true) {spare : Nat}
    (hspare : (maskList 9 (s.port p).good).find? (fun i => !flag (s.getF R.LPT.TRAIN_STATUS.LANES p) i) = some spare) :
    exec (.laneCalibration p lane) s =
      .next ((s.putLanes p (s.getF R.LPT.TRAIN_STATUS.LANES p - 2 ^ lane.val + 2 ^ spare) (some (lane + 16 * spare))).serve 4 2 p) := by
  have hfit : ¬(decide (s.getF R.LPT.TRAIN_STATUS.WIDTH p ≠ 3) || !flag (s.getF R.LPT.TRAIN_STATUS.LANES p) lane) = true := by
    rw [decide_eq_false (not_not.2 hwidth), hlane]
    decide
  refine (if_neg (laneCalibration_serves hserve hup)).trans ?_
  rw [hcalib]
  refine (if_neg hfit).trans ?_
  rw [hspare]
  rfl

theorem laneCalibration_ends {k : Nat} (hcalib : (s.port p).calib = some k) (hlane : k % 16 = lane.val) :
    exec (.laneCalibration p lane) s =
      .next (s.putLanes p (s.getF R.LPT.TRAIN_STATUS.LANES p - 2 ^ (k / 16) + 2 ^ lane.val) none).serveEnd := by
  refine (if_neg (laneCalibration_serves hserve hup)).trans ?_
  rw [hcalib]
  exact if_neg (not_not.2 hlane)

end

/-- LANE_CALIBRATION of a port and a lane. -/
theorem laneCalibration_holds (s : State) (p : Fin 40) (lane : Fin 9) : let run := exec (.laneCalibration p lane) s
    (s.mayServe 4 p = false ∨ s.portUp p = false → run = .next s) ∧
    (s.mayServe 4 p = true → s.portUp p = true → let used := s.getF R.LPT.TRAIN_STATUS.LANES p; used < 512 →
      ((s.port p).calib = none → s.getF R.LPT.TRAIN_STATUS.WIDTH p ≠ 3 ∨ flag used lane = false → run = .next s) ∧
      ∀ spare : Fin 9,
        ((s.port p).calib = none → s.getF R.LPT.TRAIN_STATUS.WIDTH p = 3 → flag used lane = true →
          (maskList 9 (s.port p).good).find? (fun i => !flag used i) = some spare.val → ∃ t, run = .next t ∧
            t = { s with regs := t.regs, fab := { s.fab with ports := t.fab.ports } } ∧ t.getF R.SEC.SERVICE.PART 0 = 4 ∧
            (t.port p).calib = some (lane.val + 16 * spare.val) ∧ ∀ i, i < 9 → flag (t.getF R.LPT.TRAIN_STATUS.LANES p) i =
              if i = lane.val then false else if i = spare.val then true else flag used i) ∧
        ((s.port p).calib = some (lane.val + 16 * spare.val) → flag used spare = true → flag used lane = false → ∃ t, run = .next t ∧
            t = { s with regs := t.regs, fab := { s.fab with ports := t.fab.ports } } ∧ t.getF R.SEC.SERVICE.PART 0 = 0 ∧ (t.port p).calib = none ∧
            ∀ i, i < 9 → flag (t.getF R.LPT.TRAIN_STATUS.LANES p) i = if i = lane.val then true else if i = spare.val then false else flag used i)) := by
  refine ⟨laneCalibration_idle s p lane, fun hserve hup _ => ⟨laneCalibration_unfit hserve hup, fun spare => ⟨?_, ?_⟩⟩⟩
  · intro hcalib hwidth hlane hspare
    have hfree : flag (s.getF R.LPT.TRAIN_STATUS.LANES p) spare = false := by simpa using List.find?_some hspare
    refine ⟨_, laneCalibration_starts hserve hup hcalib hwidth hlane hspare, s.putLanes_serve p _ _ _ _ _, State.part_serve _ (by decide),
      s.calib_serve p _ _ _ _ _, fun i hi => ?_⟩
    rw [State.flag_lanes_serve _ _ _ _ _ _ _ hi, flag_swap hlane hfree]
  · intro hcalib hspare hlane
    have hlow : (lane.val + 16 * spare.val) % 16 = lane.val := by omega
    have hhigh : (lane.val + 16 * spare.val) / 16 = spare.val := by omega
    have hne : lane.val ≠ spare.val := fun h => by rw [h, hspare] at hlane; cases hlane
    refine ⟨_, laneCalibration_ends hserve hup hcalib hlow, s.putLanes_serve p _ _ _ _ _, State.part_serveEnd _, s.calib_serve p _ _ _ _ _, fun i hi => ?_⟩
    rw [hhigh, State.serveEnd, State.flag_lanes_serve _ _ _ _ _ _ _ hi, flag_swap hspare hlane]
    by_cases h : i = lane.val
    · rw [if_pos h, if_pos h, if_neg (h ▸ hne)]
    · rw [if_neg h, if_neg h]

end Sys2Proof.Machine
end

section
/-! Proofs. The reload of a port chiplet (R357, R394, R398, R409). -/

namespace Sys2Proof.Machine

/-! ### The digest has 64 bytes -/

theorem length_keccakF {a : List Nat} (h : a.length = 25) : (keccakF a).length = 25 := by
  refine List.foldlRecOn keccakRC _ (motive := fun l : List Nat => l.length = 25) h fun l _ rc _ => ?_
  unfold keccakRound
  simp only [List.length_map, List.length_range]

theorem length_absorb (n : Nat) (m : List Byte) {a : List Nat} (h : a.length = 25) : (absorb n m a).length = 25 := by
  induction n generalizing m a with
  | zero => exact h
  | succ n ih => exact ih _ (length_keccakF (by rw [List.length_map, List.length_range]))

theorem length_sha3_512 (m : List Byte) : (sha3_512 m).length = 64 := by
  have hlanes : ((absorb ((sha3Pad m).length / 72) (sha3Pad m) (List.replicate 25 0)).take 8).length = 8 := by
    rw [List.length_take, length_absorb _ _ List.length_replicate]
    decide
  rw [sha3_512, List.length_flatMap, List.map_congr_left (g := fun _ => 8) fun v _ => length_natLE 8 v, List.map_const', List.sum_replicate, hlanes]
  decide

theorem padTo_of_length {n : Nat} {l : List Byte} (h : l.length = n) : padTo n l = l := by
  subst h
  exact (List.take_of_length_le (length_padTo _ l).le).symm.trans (take_padTo (Nat.le_refl _))

/-- A measurement register after an extension (R394). -/
theorem State.measOf_extend (s : State) (cc i : Nat) (d : List Byte) :
    (s.extend cc i d).measOf cc i = sha3_512 (s.measOf cc i ++ padTo 64 d) := by
  unfold State.measOf State.extend
  rw [State.cc_modCc, if_pos rfl]
  show padTo 64 (Tab.get [] (Tab.set [] _ i _) i) = _
  rw [Tab.get_set, if_pos rfl, padTo_of_length (length_sha3_512 _)]

theorem State.measOf_of_chips {s t : State} (h : t.ctl.chips = s.ctl.chips) (cc i : Nat) : t.measOf cc i = s.measOf cc i := by
  unfold State.measOf State.cc
  rw [h]

theorem State.now_of_time {s t : State} (h : t.time = s.time) : t.now = s.now := by
  unfold State.now
  rw [h]

/-! ### What a claim of the lease leaves (R357) -/

/-- What a claim of the lease leaves, as far as PORT_CHIPLET_UPDATE shows it. -/
def State.besideLease (s : State) : Tab Byte × List Nat × Tab CtlChip × Cxl × Nat × Nat :=
  (s.mem, s.ctl.powered, s.ctl.chips, s.cxl, s.time, s.getF R.SEC.SERVICE.PART 0)

section
variable (s : State)

theorem State.besideLease_grant (cc : Nat) : (s.grant cc).besideLease = s.besideLease :=
  each_frame State.besideLease _ _ _ fun s p => by split <;> rfl

theorem State.besideLease_leaseConflict : s.leaseConflict.besideLease = s.besideLease := by
  unfold State.leaseConflict
  dsimp only
  split
  · rfl
  · exact State.besideLease_grant _ 0

theorem State.besideLease_showActive : s.showActive.besideLease = s.besideLease := by
  unfold State.showActive
  split
  · next cc _ =>
    split
    · rfl
    · have hpart : ((s.setF R.ROOT.CTRL_STATUS.ACTIVE 0 cc).setF R.ROOT.PTP_STATUS.PORT 0 cc).getF R.SEC.SERVICE.PART 0 = s.getF R.SEC.SERVICE.PART 0 := by
        rw [State.getF_setF_ne _ _ _ _ _ _ (Fld.key_ne_of_low (by decide) 0 0), State.getF_setF_ne _ _ _ _ _ _ (Fld.key_ne_of_low (by decide) 0 0)]
      exact congrArg (fun n => (s.mem, s.ctl.powered, s.ctl.chips, s.cxl, s.time, n)) hpart
  · rfl

theorem State.besideLease_claim (cc : Nat) : (s.claim cc).besideLease = s.besideLease := by
  unfold State.claim
  split
  · rfl
  · exact (State.besideLease_showActive _).trans ((State.besideLease_leaseConflict _).trans (s.besideLease_grant cc))

end

/-! ### PORT_CHIPLET_UPDATE (R398, R409) -/

/-- A port chiplet goes down with its leases and its root ports. -/
def State.chipletDown (s : State) (pc : Fin 2) : State :=
  let s := s.modCtl fun c => { c with powered := c.powered.filter (· != pc.val), leases := c.leases.filter fun e => e.1 != pc.val }
  { s with cxl := { s.cxl with up := s.cxl.up.filter fun p => p / 2 != pc.val, loadedAt := Tab.set none s.cxl.loadedAt pc none } }

/-- A root port shows no link. -/
def State.linkOff (s : State) (p : Nat) : State :=
  ((s.setPort p R.PCH.PORT_STATUS0.WIDTH R.PCH.PORT_STATUS1.WIDTH 0).setPort p R.PCH.PORT_STATUS0.RATE R.PCH.PORT_STATUS1.RATE 0).setPort p
    R.PCH.PORT_STATUS0.CXL R.PCH.PORT_STATUS1.CXL 0

/-- The time from which a port chiplet's firmware is loaded. -/
def State.loadedNow (s : State) (pc : Fin 2) : State :=
  { s with cxl := { s.cxl with loadedAt := Tab.set none s.cxl.loadedAt pc (some s.now) } }

/-- A port chiplet's firmware is measured and loaded. -/
def State.chipletLoaded (s : State) (pc : Fin 2) (obj : List Byte) : State :=
  ((((s.extend s.activeCc 3 (objDigest obj)).modSec fun x => { x with image := Tab.set 0 x.image 6 (objSvn obj) }).modCtl
    fun c => { c with powered := c.powered ++ [pc.val] }).serveEnd).loadedNow pc

theorem State.peRstN_of_unloaded {s : State} {k : Nat}
    (h : (Tab.get none s.cxl.loadedAt (k / 2)).any (fun t => decide (t + 100000000 ≤ s.now)) = false) : s.peRstN k = false := by
  rw [State.peRstN, h, Bool.and_false, Bool.false_and]

/-- Of the two port chiplets the other stays powered. -/
theorem filter_other_chiplet (pc : Fin 2) : [0, 1].filter (· != pc.val) = [1 - pc.val] := by
  revert pc
  decide

section
variable (s : State) (pc : Fin 2)

theorem State.linkOff_regsOnly (l : List Nat) : s.regsOnly (each l s State.linkOff) := by
  induction l generalizing s with
  | nil => rfl
  | cons p l ih => exact State.regsOnly.trans (t := s.linkOff p) rfl (ih _)

theorem State.chipletDown_loadedAt : (s.chipletDown pc).cxl.loadedAt = Tab.set none s.cxl.loadedAt pc none := rfl

theorem State.chipletLoaded_loadedAt (obj : List Byte) :
    (s.chipletLoaded pc obj).cxl.loadedAt = Tab.set none s.cxl.loadedAt pc (some s.now) := rfl

theorem State.peRstN_chipletDown {k : Nat} (h : k / 2 = pc.val) : (s.chipletDown pc).peRstN k = false := by
  refine State.peRstN_of_unloaded ?_
  rw [h, State.chipletDown_loadedAt, Tab.get_set, if_pos rfl]
  rfl

theorem State.leaseOf_chipletDown : (s.chipletDown pc).leaseOf pc = none := by
  have hfind : (s.ctl.leases.filter fun e => e.1 != pc.val).find? (fun e => e.1 == pc.val) = none := by
    simp [List.find?_eq_none]
  unfold State.leaseOf
  rw [show (s.chipletDown pc).ctl.leases = s.ctl.leases.filter fun e => e.1 != pc.val from rfl, hfind]
  rfl

theorem State.leaseOf_chipletDown_ne {p : Nat} (h : p ≠ pc.val) : (s.chipletDown pc).leaseOf p = s.leaseOf p := by
  have hfind : (s.ctl.leases.filter fun e => e.1 != pc.val).find? (fun e => e.1 == p) = s.ctl.leases.find? fun e => e.1 == p := by
    rw [List.find?_filter]
    refine congrArg (fun q => s.ctl.leases.find? q) (funext fun e => ?_)
    by_cases he : e.1 = p
    · simp [he, h]
    · simp [he]
  unfold State.leaseOf
  rw [show (s.chipletDown pc).ctl.leases = s.ctl.leases.filter fun e => e.1 != pc.val from rfl, hfind]
  rfl

theorem State.chipletDown_up {q : Nat} (h : q ∈ (s.chipletDown pc).cxl.up) : q / 2 ≠ pc.val := by
  have hq : q ∈ s.cxl.up.filter fun p => p / 2 != pc.val := h
  exact bne_iff_ne.1 (List.mem_filter.1 hq).2

theorem State.peRstN_chipletLoaded (obj : List Byte) {k : Nat} (h : k / 2 = pc.val) :
    (Tab.get none (s.chipletLoaded pc obj).cxl.loadedAt (k / 2)).any (fun t => decide (t + 100000000 ≤ (s.chipletLoaded pc obj).now)) = false := by
  have hnow : (s.chipletLoaded pc obj).now = s.now := State.now_of_time rfl
  rw [h, State.chipletLoaded_loadedAt, Tab.get_set, if_pos rfl, hnow, Option.any_some]
  exact decide_eq_false (by omega)

theorem State.part_chipletLoaded (obj : List Byte) : (s.chipletLoaded pc obj).getF R.SEC.SERVICE.PART 0 = 0 := by
  have hloaded (x : State) : (x.loadedNow pc).getF R.SEC.SERVICE.PART 0 = x.getF R.SEC.SERVICE.PART 0 := rfl
  rw [State.chipletLoaded, hloaded, State.part_serveEnd]

theorem State.chips_chipletLoaded (obj : List Byte) :
    (s.chipletLoaded pc obj).ctl.chips = (s.extend s.activeCc 3 (objDigest obj)).ctl.chips := by
  have hloaded (x : State) : (x.loadedNow pc).ctl = x.ctl := rfl
  have hend (x : State) : x.serveEnd.ctl = x.ctl := rfl
  rw [State.chipletLoaded, hloaded, hend]
  rfl

theorem State.measOf_chipletLoaded (obj : List Byte) :
    (s.chipletLoaded pc obj).measOf s.activeCc 3 = sha3_512 (s.measOf s.activeCc 3 ++ padTo 64 (objDigest obj)) :=
  (State.measOf_of_chips (s.chips_chipletLoaded pc obj) s.activeCc 3).trans (s.measOf_extend s.activeCc 3 (objDigest obj))

theorem portChipletUpdate_idle (obj : List Byte) (h : s.mayServe 5 pc = false ∨ s.t2InUse pc = true) :
    exec (.portChipletUpdate pc obj) s = .next s := by
  refine if_pos ?_
  rcases h with hserve | huse
  · rw [hserve]; rfl
  · rw [huse, Bool.or_true]

variable {s pc} {obj : List Byte}
variable (hserve : s.mayServe 5 pc = true) (huse : s.t2InUse pc = false)
include hserve huse

theorem portChipletUpdate_serves : ¬(!s.mayServe 5 pc || s.t2InUse pc) = true := by
  rw [hserve, huse]
  decide

theorem portChipletUpdate_bad (hcode : s.verify s.activeCc 6 obj ≠ 0) :
    exec (.portChipletUpdate pc obj) s = .next (s.addF R.SEC.VERIFY_FAILS.COUNT 0 1) := by
  refine (if_neg (portChipletUpdate_serves hserve huse)).trans ?_
  simp only [State.check_bad hcode]

theorem portChipletUpdate_down (hcode : s.verify s.activeCc 6 obj = 0) (hnew : s.serving 5 = false) (hpow : s.ctl.powered = [0, 1]) :
    exec (.portChipletUpdate pc obj) s = .next ((each [2 * pc.val, 2 * pc.val + 1] (s.chipletDown pc) State.linkOff).serve 5 2 pc) := by
  have hdown : (s.ctl.powered.filter (· != pc.val)).isEmpty = false := by
    rw [hpow, filter_other_chiplet]
    rfl
  refine (if_neg (portChipletUpdate_serves hserve huse)).trans ?_
  simp only [State.check_good hcode, hnew, hdown, Bool.false_eq_true, if_false]
  rfl

theorem portChipletUpdate_loads (hcode : s.verify s.activeCc 6 obj = 0) (hon : s.serving 5 = true) :
    ∃ t, exec (.portChipletUpdate pc obj) s = .next t ∧ t.besideLease = (s.chipletLoaded pc obj).besideLease := by
  have hrun : exec (.portChipletUpdate pc obj) s = .next (match s.active with
      | some cc => (s.chipletLoaded pc obj).claim cc
      | none => s.chipletLoaded pc obj) := by
    refine (if_neg (portChipletUpdate_serves hserve huse)).trans ?_
    simp only [State.check_good hcode, hon, if_true]
    rfl
  refine ⟨_, hrun, ?_⟩
  cases s.active with
  | none => rfl
  | some cc => exact State.besideLease_claim _ cc

end

/-- PORT_CHIPLET_UPDATE of a port chiplet. -/
theorem portChipletUpdate_holds (s : State) (pc : Fin 2) (obj : List Byte) :
    let code := s.verify s.activeCc 6 obj; let run := exec (.portChipletUpdate pc obj) s
    (s.mayServe 5 pc = false ∨ s.t2InUse pc = true → run = .next s) ∧
    (s.mayServe 5 pc = true → s.t2InUse pc = false →
      (code ≠ 0 → ∃ t, run = .next t ∧ t = { s with regs := t.regs }) ∧
      (code = 0 → s.serving 5 = false → s.ctl.powered = [0, 1] → ∃ t, run = .next t ∧ t.mem = s.mem ∧ t.ctl.powered = [1 - pc.val] ∧
        t.getF R.SEC.SERVICE.PART 0 = 5 ∧ t.leaseOf pc = none ∧ t.leaseOf (1 - pc.val) = s.leaseOf (1 - pc.val) ∧
        (∀ q ∈ t.cxl.up, q / 2 ≠ pc.val) ∧ ∀ k, k / 2 = pc.val → t.peRstN k = false) ∧
      (code = 0 → s.serving 5 = true → ∃ t, run = .next t ∧ t.mem = s.mem ∧ t.ctl.powered = s.ctl.powered ++ [pc.val] ∧ t.getF R.SEC.SERVICE.PART 0 = 0 ∧
        t.measOf s.activeCc 3 = sha3_512 (s.measOf s.activeCc 3 ++ padTo 64 (objDigest obj)) ∧ ∀ k, k / 2 = pc.val → t.peRstN k = false)) := by
  refine ⟨portChipletUpdate_idle s pc obj, fun hserve huse => ⟨fun hbad => ⟨_, portChipletUpdate_bad hserve huse hbad, rfl⟩, ?_, ?_⟩⟩
  · intro hcode hnew hpow
    have hregs : (s.chipletDown pc).regsOnly ((each [2 * pc.val, 2 * pc.val + 1] (s.chipletDown pc) State.linkOff).serve 5 2 pc) :=
      (State.linkOff_regsOnly _ _).trans (State.serve_regs _)
    refine ⟨_, portChipletUpdate_down hserve huse hcode hnew hpow, ?_⟩
    have hpart := (each [2 * pc.val, 2 * pc.val + 1] (s.chipletDown pc) State.linkOff).part_serve (state := 2) (index := pc) (by decide : 5 < 16)
    generalize State.serve _ 5 2 _ = t at hregs hpart
    have hne : 1 - pc.val ≠ pc.val := by omega
    have hpowered : (s.chipletDown pc).ctl.powered = [1 - pc.val] := by
      show s.ctl.powered.filter (· != pc.val) = _
      rw [hpow, filter_other_chiplet]
    rw [State.regsOnly] at hregs
    refine ⟨?_, ?_, hpart, ?_, ?_, ?_, ?_⟩
    · rw [hregs]; rfl
    · rw [hregs]; exact hpowered
    · rw [hregs]; exact s.leaseOf_chipletDown pc
    · rw [hregs]; exact s.leaseOf_chipletDown_ne pc hne
    · rw [hregs]; exact fun q => s.chipletDown_up pc
    · rw [hregs]; exact fun k => s.peRstN_chipletDown pc
  · intro hcode hon
    obtain ⟨t, hrun, hbeside⟩ := portChipletUpdate_loads hserve huse hcode hon
    obtain ⟨hmem, hpow, hchips, hcxl, htime, hpart⟩ : t.mem = _ ∧ t.ctl.powered = _ ∧ t.ctl.chips = _ ∧ t.cxl = _ ∧ t.time = _ ∧ t.getF _ 0 = _ := by
      simpa only [State.besideLease, Prod.mk.injEq] using hbeside
    refine ⟨t, hrun, hmem, hpow, hpart.trans (s.part_chipletLoaded pc obj), ?_, fun k hk => State.peRstN_of_unloaded ?_⟩
    · rw [State.measOf_of_chips hchips]
      exact s.measOf_chipletLoaded pc obj
    · rw [hcxl, State.now_of_time htime]
      exact s.peRstN_chipletLoaded pc obj hk

end Sys2Proof.Machine
end

section
/-! Proofs. The reload of a link chiplet (R240, R398). -/

namespace Sys2Proof.Machine

/-! ### A port retrained on the lanes that pass (R240, R398) -/

theorem sum_lanes_lt (n pass : Nat) : (((maskList 9 pass).take n).map (2 ^ ·)).sum < 512 := by
  have hsub : ((maskList 9 pass).take n).Sublist (List.range 9) := (List.take_sublist n _).trans List.filter_sublist
  have hle := (hsub.map (2 ^ ·)).sum_le_sum fun _ _ => Nat.zero_le _
  exact hle.trans_lt (by decide)

theorem trainOn_lt (pass : Nat) : (trainOn pass).1 < 512 ∧ (trainOn pass).2 < 4 := by
  unfold trainOn
  dsimp only
  split
  · exact ⟨sum_lanes_lt 8 pass, (by decide : 3 < 4)⟩
  · split
    · exact ⟨sum_lanes_lt 4 pass, (by decide : 2 < 4)⟩
    · split
      · exact ⟨sum_lanes_lt 2 pass, (by decide : 1 < 4)⟩
      · decide

/-- A reloaded chiplet's port trains on the lanes that pass. -/
def State.retrainOn (s : State) (p pass : Nat) : State :=
  let s := s.modPort p fun _ => { good := pass }
  let s := (s.setF R.LPT.TRAIN_STATUS.WIDTH p (trainOn pass).2).setF R.LPT.TRAIN_STATUS.LANES p (trainOn pass).1
  let s := s.setF R.LPT.TRAIN_STATUS.SPARE_USED p (bit (trainOn pass).1 8)
  if s.getF R.ROOT.SEAL.SEALED 0 = 1 then s.setF R.LPT.EGRESS_CAP.CAP p (fieldAt s.sec.limits 5 1) else s

/-- What training shows of a port: its good lanes, the lanes in use and the width. -/
def State.trained (s : State) (p : Nat) : Nat × Nat × Nat :=
  ((s.port p).good, s.getF R.LPT.TRAIN_STATUS.LANES p, s.getF R.LPT.TRAIN_STATUS.WIDTH p)

theorem State.trained_setF (s : State) {f : Fld} (q p v : Nat) (hlanes : R.LPT.TRAIN_STATUS.LANES.key p ≠ f.key q)
    (hwidth : R.LPT.TRAIN_STATUS.WIDTH.key p ≠ f.key q) : (s.setF f q v).trained p = s.trained p := by
  have hport : (s.setF f q v).port p = s.port p := rfl
  rw [State.trained, hport, State.getF_setF_ne _ _ _ _ _ _ hlanes, State.getF_setF_ne _ _ _ _ _ _ hwidth]
  rfl

theorem State.trained_retrainOn_same (s : State) (p pass : Nat) : (s.retrainOn p pass).trained p = (pass, trainOn pass) := by
  obtain ⟨hm, hw⟩ := trainOn_lt pass
  have hshown : (((s.modPort p fun _ => { good := pass }).setF R.LPT.TRAIN_STATUS.WIDTH p (trainOn pass).2).setF
      R.LPT.TRAIN_STATUS.LANES p (trainOn pass).1).trained p = (pass, trainOn pass) := by
    have hport (x : State) (v w : Nat) : ((x.setF R.LPT.TRAIN_STATUS.WIDTH p v).setF R.LPT.TRAIN_STATUS.LANES p w).port p = x.port p := rfl
    rw [State.trained, hport, State.port_modPort, if_pos rfl, State.getF_setF_same,
      State.getF_setF_ne _ _ _ _ _ _ (Fld.key_ne_of_low (by decide) p p), State.getF_setF_same]
    exact Prod.ext rfl (Prod.ext (Nat.mod_eq_of_lt hm) (Nat.mod_eq_of_lt hw))
  unfold State.retrainOn
  dsimp only
  split
  · rw [State.trained_setF _ _ _ _ (Fld.key_ne_of_low (by decide) p p) (Fld.key_ne_of_low (by decide) p p),
      State.trained_setF _ _ _ _ (Fld.key_ne_of_low (by decide) p p) (Fld.key_ne_of_low (by decide) p p), hshown]
  · rw [State.trained_setF _ _ _ _ (Fld.key_ne_of_low (by decide) p p) (Fld.key_ne_of_low (by decide) p p), hshown]

theorem State.trained_retrainOn_ne (s : State) {p q : Nat} (h : q ≠ p) (pass : Nat) : (s.retrainOn p pass).trained q = s.trained q := by
  have hport : (s.modPort p fun _ => { good := pass }).trained q = s.trained q := by
    rw [State.trained, State.port_modPort, if_neg h]
    rfl
  have hset (x : State) (v w u : Nat) : (((x.setF R.LPT.TRAIN_STATUS.WIDTH p v).setF R.LPT.TRAIN_STATUS.LANES p w).setF
      R.LPT.TRAIN_STATUS.SPARE_USED p u).trained q = x.trained q := by
    rw [State.trained_setF _ _ _ _ (Fld.key_ne_of_low (by decide) q p) (Fld.key_ne_of_low (by decide) q p),
      State.trained_setF _ _ _ _ (Fld.key_ne_of_inst _ h) (Fld.key_ne_of_low (by decide) q p),
      State.trained_setF _ _ _ _ (Fld.key_ne_of_low (by decide) q p) (Fld.key_ne_of_inst _ h)]
  unfold State.retrainOn
  dsimp only
  split
  · rw [State.trained_setF _ _ _ _ (Fld.key_ne_of_low (by decide) q p) (Fld.key_ne_of_low (by decide) q p), hset, hport]
  · rw [hset, hport]

theorem State.retrainOn_memCores (s : State) (p pass : Nat) : (s.retrainOn p pass).mem = s.mem ∧ (s.retrainOn p pass).cores = s.cores := by
  unfold State.retrainOn
  dsimp only
  split <;> exact ⟨rfl, rfl⟩

/-! ### The four ports of a link chiplet -/

/-- The ports of a list, each with its place, are retrained on the lanes given for the place. -/
def State.retrainAll (s : State) (l : List (Nat × Nat)) (lanes : List Nat) : State :=
  each l s fun s p => s.retrainOn p.1 (lanes.getD p.2 0x1FF % 512)

theorem State.retrainAll_memCores (s : State) (l : List (Nat × Nat)) (lanes : List Nat) :
    (s.retrainAll l lanes).mem = s.mem ∧ (s.retrainAll l lanes).cores = s.cores :=
  ⟨each_frame State.mem l s _ fun s p => (s.retrainOn_memCores p.1 _).1, each_frame State.cores l s _ fun s p => (s.retrainOn_memCores p.1 _).2⟩

theorem State.trained_retrainAll_other (s : State) {l : List (Nat × Nat)} {q : Nat} (h : q ∉ l.map (·.1)) (lanes : List Nat) :
    (s.retrainAll l lanes).trained q = s.trained q :=
  each_frame_of_mem (fun s => s.trained q) l s _ fun s p hp =>
    s.trained_retrainOn_ne (fun hq => h (List.mem_map.2 ⟨p, hp, hq.symm⟩)) _

theorem State.trained_retrainAll (s : State) {l : List (Nat × Nat)} (hl : (l.map (·.1)).Nodup) {p : Nat × Nat} (hp : p ∈ l) (lanes : List Nat) :
    (s.retrainAll l lanes).trained p.1 = (lanes.getD p.2 0x1FF % 512, trainOn (lanes.getD p.2 0x1FF % 512)) := by
  induction l generalizing s with
  | nil => cases hp
  | cons a l ih =>
    have hstep : s.retrainAll (a :: l) lanes = (s.retrainOn a.1 (lanes.getD a.2 0x1FF % 512)).retrainAll l lanes := List.foldl_cons ..
    obtain ⟨hfresh, hrest⟩ := List.nodup_cons.1 hl
    rw [hstep]
    rcases List.mem_cons.1 hp with rfl | hmem
    · rw [State.trained_retrainAll_other _ hfresh, State.trained_retrainOn_same]
    · exact ih _ hrest hmem

theorem portsOfChip_nodup (lc : Nat) : (((portsOfChip lc).zipIdx).map (·.1)).Nodup := by
  have hports : ((portsOfChip lc).zipIdx).map (·.1) = portsOfChip lc := List.zipIdx_map_fst ..
  rw [hports]
  exact List.nodup_range.map fun a b h => Nat.add_left_cancel h

theorem mem_portsOfChip (lc : Nat) (k : Fin 4) : (4 * lc + k.val, k.val) ∈ (portsOfChip lc).zipIdx := by
  rw [List.mk_mem_zipIdx_iff_getElem?, portsOfChip, List.getElem?_map, List.getElem?_range k.isLt]
  rfl

/-! ### LINK_CHIPLET_UPDATE (R398) -/

section
variable (s : State) (lc : Fin 10)

/-- The chiplet's ports leave the port sets, and the update is shown. -/
def State.linkOut (s : State) (lc : Fin 10) : State :=
  ((s.modFab fun f => { f with out := f.out ++ portsOfChip lc }).serve 3 1 lc).updatePorts

/-- The chiplet's image is measured and loaded, and its ports retrain. -/
def State.linkLoaded (s : State) (lc : Fin 10) (obj : List Byte) (lanes : List Nat) : State :=
  (((s.extend s.activeCc 3 (objDigest obj)).modSec fun x => { x with image := Tab.set 0 x.image 5 (objSvn obj) }).retrainAll
    (portsOfChip lc).zipIdx lanes).serveEnd

/-- The ports rejoin at once where no marks are made. -/
def State.linkBack (s : State) : State := if s.marks then s else (s.modFab fun f => { f with out := [] }).updatePorts

theorem State.linkOut_frame : ∃ ps, s.linkOut lc = ((s.modFab fun f => { f with out := f.out ++ portsOfChip lc }).serve 3 1 lc).modFab
    fun f => { f with partners := ps } := State.updatePorts_frame _

theorem State.linkBack_frame : ∃ o ps, s.linkBack = s.modFab fun f => { f with out := o, partners := ps } := by
  unfold State.linkBack
  split
  · exact ⟨s.fab.out, s.fab.partners, rfl⟩
  · obtain ⟨ps, h⟩ := (s.modFab fun f => { f with out := [] }).updatePorts_frame
    exact ⟨[], ps, h⟩

theorem State.chipDrained_linkOut : (s.linkOut lc).chipDrained lc = s.chipDrained lc := by
  obtain ⟨ps, h⟩ := s.linkOut_frame lc
  have hfab (x : State) (o : List Nat) : (x.modFab fun f => { f with out := o }).chipDrained lc = x.chipDrained lc := rfl
  have hserve (x : State) : (x.serve 3 1 lc).chipDrained lc = x.chipDrained lc := rfl
  have hpartners (x : State) : (x.modFab fun f => { f with partners := ps }).chipDrained lc = x.chipDrained lc := rfl
  rw [h, hpartners, hserve]
  exact hfab s _

theorem State.linkOut_shows : ∃ t, s.linkOut lc = t ∧ t = { s with regs := t.regs, fab := t.fab } ∧
    t.getF R.SEC.SERVICE.PART 0 = 3 ∧ t.getF R.SEC.SERVICE.STATE 0 = 1 ∧ t.getF R.SEC.SERVICE.INDEX 0 = lc.val ∧
    t.fab.out = s.fab.out ++ portsOfChip lc := by
  obtain ⟨ps, h⟩ := s.linkOut_frame lc
  have hgetF (x : State) (f : Fld) : (x.modFab fun f => { f with partners := ps }).getF f 0 = x.getF f 0 := rfl
  refine ⟨_, h, rfl, ?_, ?_, ?_, rfl⟩
  · rw [hgetF, State.part_serve _ (by decide)]
  · rw [hgetF, State.state_serve _ (by decide)]
  · rw [hgetF, State.index_serve _ (by omega)]

/-- What the reload of a link chiplet shows. -/
theorem State.linkLoaded_shows (obj : List Byte) (lanes : List Nat) : ∃ t, (s.linkLoaded lc obj lanes).linkBack = t ∧ t.mem = s.mem ∧ t.cores = s.cores ∧
    t.getF R.SEC.SERVICE.PART 0 = 0 ∧ ∀ k : Fin 4, t.trained (4 * lc.val + k.val) =
      (lanes.getD k.val 0x1FF % 512, trainOn (lanes.getD k.val 0x1FF % 512)) := by
  obtain ⟨o, ps, h⟩ := (s.linkLoaded lc obj lanes).linkBack_frame
  have hfab (x : State) : (x.modFab fun f => { f with out := o, partners := ps }).mem = x.mem ∧
      (x.modFab fun f => { f with out := o, partners := ps }).cores = x.cores ∧
      (x.modFab fun f => { f with out := o, partners := ps }).getF R.SEC.SERVICE.PART 0 = x.getF R.SEC.SERVICE.PART 0 ∧
      ∀ p, (x.modFab fun f => { f with out := o, partners := ps }).trained p = x.trained p := ⟨rfl, rfl, rfl, fun _ => rfl⟩
  obtain ⟨hmem, hcores, hpart, htrained⟩ := hfab (s.linkLoaded lc obj lanes)
  have hend (x : State) (p : Nat) : x.serveEnd.trained p = x.trained p := by
    have hport : x.serveEnd.port p = x.port p := rfl
    rw [State.trained, hport, State.serveEnd,
      State.getF_serve_ne _ _ (Fld.key_ne_of_low (by decide) _ _) (Fld.key_ne_of_low (by decide) _ _) (Fld.key_ne_of_low (by decide) _ _),
      State.getF_serve_ne _ _ (Fld.key_ne_of_low (by decide) _ _) (Fld.key_ne_of_low (by decide) _ _) (Fld.key_ne_of_low (by decide) _ _)]
    rfl
  have hkeep := ((s.extend s.activeCc 3 (objDigest obj)).modSec fun x => { x with image := Tab.set 0 x.image 5 (objSvn obj) }).retrainAll_memCores
    (portsOfChip lc).zipIdx lanes
  have hendMem (x : State) : x.serveEnd.mem = x.mem ∧ x.serveEnd.cores = x.cores := ⟨rfl, rfl⟩
  refine ⟨_, h, hmem.trans ((hendMem _).1.trans hkeep.1), hcores.trans ((hendMem _).2.trans hkeep.2), hpart.trans (State.part_serveEnd _), fun k => ?_⟩
  rw [htrained, State.linkLoaded, hend]
  exact State.trained_retrainAll _ (portsOfChip_nodup lc) (mem_portsOfChip lc k) lanes

theorem linkChipletUpdate_idle (obj : List Byte) (lanes : List Nat) (h : s.mayServe 3 lc = false ∨ s.hosted 5 lc = false) :
    exec (.linkChipletUpdate lc obj lanes) s = .next s := by
  refine if_pos ?_
  rcases h with hserve | hhost
  · rw [hserve]; rfl
  · rw [hhost, Bool.not_false, Bool.or_true]

variable {s lc} {obj : List Byte} {lanes : List Nat}
variable (hserve : s.mayServe 3 lc = true) (hhost : s.hosted 5 lc = true)
include hserve hhost

theorem linkChipletUpdate_serves : ¬(!s.mayServe 3 lc || !s.hosted 5 lc) = true := by
  rw [hserve, hhost]
  decide

theorem linkChipletUpdate_bad (hcode : s.verify s.activeCc 5 obj ≠ 0) :
    exec (.linkChipletUpdate lc obj lanes) s = .next (s.addF R.SEC.VERIFY_FAILS.COUNT 0 1) := by
  refine (if_neg (linkChipletUpdate_serves hserve hhost)).trans ?_
  simp only [State.check_bad hcode]

variable (hcode : s.verify s.activeCc 5 obj = 0)
include hcode

theorem linkChipletUpdate_out (hnew : s.serving 3 = false) (hdrain : s.chipDrained lc = false) :
    exec (.linkChipletUpdate lc obj lanes) s = .next (s.linkOut lc) := by
  refine (if_neg (linkChipletUpdate_serves hserve hhost)).trans ?_
  simp only [State.check_good hcode, hnew, Bool.false_eq_true, if_false]
  refine if_pos ?_
  rw [← Bool.not_false]
  exact congrArg not ((s.chipDrained_linkOut lc).trans hdrain)

theorem linkChipletUpdate_waits (hon : s.serving 3 = true) (hdrain : s.chipDrained lc = false) :
    exec (.linkChipletUpdate lc obj lanes) s = .next s := by
  refine (if_neg (linkChipletUpdate_serves hserve hhost)).trans ?_
  simp only [State.check_good hcode, hon, hdrain, if_true, Bool.not_false]

theorem linkChipletUpdate_loads (hon : s.serving 3 = true) (hdrain : s.chipDrained lc = true) :
    exec (.linkChipletUpdate lc obj lanes) s = .next (s.linkLoaded lc obj lanes).linkBack := by
  refine (if_neg (linkChipletUpdate_serves hserve hhost)).trans ?_
  simp only [State.check_good hcode, hon, hdrain, if_true, Bool.not_true, Bool.false_eq_true, if_false]
  rfl

end

/-- LINK_CHIPLET_UPDATE of a link chiplet. -/
theorem linkChipletUpdate_holds (s : State) (lc : Fin 10) (obj : List Byte) (lanes : List Nat) :
    let code := s.verify s.activeCc 5 obj; let run := exec (.linkChipletUpdate lc obj lanes) s
    (s.mayServe 3 lc = false ∨ s.hosted 5 lc = false → run = .next s) ∧
    (s.mayServe 3 lc = true → s.hosted 5 lc = true →
      (code ≠ 0 → ∃ t, run = .next t ∧ t = { s with regs := t.regs }) ∧
      (code = 0 → s.serving 3 = false → s.chipDrained lc = false → ∃ t, run = .next t ∧ t = { s with regs := t.regs, fab := t.fab } ∧
        t.getF R.SEC.SERVICE.PART 0 = 3 ∧ t.getF R.SEC.SERVICE.STATE 0 = 1 ∧
        t.getF R.SEC.SERVICE.INDEX 0 = lc.val ∧ t.fab.out = s.fab.out ++ portsOfChip lc) ∧
      (code = 0 → s.serving 3 = true → s.chipDrained lc = false → run = .next s) ∧
      (code = 0 → s.serving 3 = true → s.chipDrained lc = true → ∃ t, run = .next t ∧ t.mem = s.mem ∧ t.cores = s.cores ∧
        t.getF R.SEC.SERVICE.PART 0 = 0 ∧ ∀ k : Fin 4, ∃ m w,
        trainOn (lanes.getD k.val 0x1FF % 512) = (m, w) ∧ t.getF R.LPT.TRAIN_STATUS.LANES (4 * lc.val + k.val) = m ∧
        t.getF R.LPT.TRAIN_STATUS.WIDTH (4 * lc.val + k.val) = w ∧ (t.port (4 * lc.val + k.val)).good = lanes.getD k.val 0x1FF % 512)) := by
  refine ⟨linkChipletUpdate_idle s lc obj lanes, fun hserve hhost => ⟨fun hbad => ⟨_, linkChipletUpdate_bad hserve hhost hbad, rfl⟩, ?_,
    linkChipletUpdate_waits hserve hhost, ?_⟩⟩
  · intro hcode hnew hdrain
    obtain ⟨t, ht, hshows⟩ := s.linkOut_shows lc
    exact ⟨t, (linkChipletUpdate_out hserve hhost hcode hnew hdrain).trans (congrArg _ ht), hshows⟩
  · intro hcode hon hdrain
    obtain ⟨t, ht, hmem, hcores, hpart, htrained⟩ := s.linkLoaded_shows lc obj lanes
    refine ⟨t, (linkChipletUpdate_loads hserve hhost hcode hon hdrain).trans (congrArg _ ht), hmem, hcores, hpart, fun k => ?_⟩
    obtain ⟨hgood, hlanes, hwidth⟩ : (t.port _).good = _ ∧ t.getF _ _ = _ ∧ t.getF _ _ = _ := by
      simpa only [State.trained, Prod.ext_iff] using htrained k
    exact ⟨_, _, rfl, hlanes, hwidth, hgood⟩

end Sys2Proof.Machine
end

section
/-! Proofs. What the move of a logical cluster leaves: the security engine's tables, and every job partition but the one that
moves (R312, R313). -/

namespace Sys2Proof.Machine

/-- The security engine's tables and the job partitions. -/
def State.secJobs (s : State) : Security × Tab (Option Job) := (s.sec, s.jobs)

section
variable (s : State)

@[simp] theorem State.secJobs_setF (f : Fld) (i v : Nat) : (s.setF f i v).secJobs = s.secJobs := rfl
@[simp] theorem State.secJobs_addF (f : Fld) (i v : Nat) : (s.addF f i v).secJobs = s.secJobs := rfl
@[simp] theorem State.secJobs_modCore (i : Nat) (g : CoreSite → CoreSite) : (s.modCore i g).secJobs = s.secJobs := rfl
@[simp] theorem State.secJobs_modCluster (i : Nat) (g : Cluster → Cluster) : (s.modCluster i g).secJobs = s.secJobs := rfl
@[simp] theorem State.secJobs_modMesh (g : Mesh → Mesh) : (s.modMesh g).secJobs = s.secJobs := rfl
@[simp] theorem State.secJobs_modTally (g : Tally → Tally) : (s.modTally g).secJobs = s.secJobs := rfl
@[simp] theorem State.secJobs_modWindow (i : Nat) (g : Window → Window) : (s.modWindow i g).secJobs = s.secJobs := rfl
@[simp] theorem State.secJobs_setRun (i : Nat) (r : Option LaunchRec) : (s.setRun i r).secJobs = s.secJobs := rfl
@[simp] theorem State.secJobs_setWaiting (i : Nat) (l : List LaunchRec) : (s.setWaiting i l).secJobs = s.secJobs := rfl
@[simp] theorem State.secJobs_popLaunch (i : Nat) : (s.popLaunch i).secJobs = s.secJobs := rfl
@[simp] theorem State.secJobs_reportUnit (a b c d : Nat) : (s.reportUnit a b c d).secJobs = s.secJobs := rfl

theorem each_secJobs {α : Type} (l : List α) (s : State) (f : State → α → State) (h : ∀ s a, (f s a).secJobs = s.secJobs) :
    (each l s f).secJobs = s.secJobs := each_frame State.secJobs l s f h

/-! ### Tokens under way are delivered -/

theorem State.secJobs_memWrite (p a : Nat) (bs : List Byte) : (s.memWrite p a bs).secJobs = s.secJobs :=
  State.memWrite_part (part := State.secJobs) (fun _ => rfl) (fun _ => rfl) s p a bs

theorem State.secJobs_complete (site : Nat) (r : LaunchRec) (state code kind : Nat) :
    (s.complete site r state code kind).secJobs = s.secJobs :=
  State.complete_part (part := State.secJobs) (fun _ => rfl) (fun _ => rfl) s site r state code kind

theorem State.secJobs_stopCore (site : Nat) : (s.stopCore site).secJobs = s.secJobs := by
  unfold State.stopCore
  split
  · rfl
  · dsimp only
    rw [State.secJobs_modCore, State.secJobs_setRun]
    split
    · rw [State.secJobs_popLaunch, State.secJobs_complete]
    · rw [State.secJobs_complete]

theorem State.secJobs_groupStop (c : Nat) : (s.groupStop c).secJobs = s.secJobs := by
  have hcores (l : List Nat) (s : State) : (each l s State.stopCore).secJobs = s.secJobs := each_secJobs l s _ State.secJobs_stopCore
  unfold State.groupStop
  rw [each_secJobs _ _ _ fun _ _ => by rw [State.secJobs_setF, State.secJobs_modCluster], hcores]

theorem State.secJobs_faultReport (site pc kind opc : Nat) : (s.faultReport site pc kind opc).secJobs = s.secJobs := by
  unfold State.faultReport
  split <;> rfl

theorem State.secJobs_faultAt (site pc kind opc : Nat) : (s.faultAt site pc kind opc).secJobs = s.secJobs := rfl

theorem State.secJobs_seqFault (site pc opc : Nat) : (s.seqFault site pc opc).secJobs = s.secJobs := by
  unfold State.seqFault
  dsimp only
  split
  · rfl
  · split
    · rw [State.secJobs_groupStop, State.secJobs_modCore, State.secJobs_faultReport, State.secJobs_faultAt]
    · rw [State.secJobs_modCore, State.secJobs_faultReport, State.secJobs_faultAt]

theorem State.secJobs_deliver (src site tok n : Nat) : (s.deliver src site tok n).secJobs = s.secJobs := by
  unfold State.deliver
  dsimp only
  generalize hu : (if s.inGroup src (clusterOf site) then s else _) = u
  have hstart : u.secJobs = s.secJobs := by
    rw [← hu]
    split <;> rfl
  split
  · rw [State.secJobs_modCluster, hstart]
  · split
    · rw [State.secJobs_modCore, hstart]
    · split
      · rw [State.secJobs_seqFault, State.secJobs_modCore, hstart]
      · rw [State.secJobs_modCore, hstart]

theorem State.secJobs_settleTokens (old : List Nat) : (s.settleTokens old).secJobs = s.secJobs :=
  each_secJobs _ _ _ fun s t => by
    split
    · exact s.secJobs_deliver ..
    · rfl

theorem State.secJobs_yieldSlice (site : Nat) : (s.yieldSlice site).secJobs = s.secJobs := by
  unfold State.yieldSlice
  split <;> rfl

/-! ### The registers that name the cluster -/

@[simp] theorem State.secJobs_writeCl (f : Fld) (c v : Nat) : (s.writeCl f c v).secJobs = s.secJobs := by
  unfold State.writeCl
  dsimp only
  split <;> rfl

@[simp] theorem State.secJobs_bindCl (c : Nat) (j : Option (Nat × Nat)) : (s.bindCl c j).secJobs = s.secJobs := by
  unfold State.bindCl
  split <;> rfl

theorem State.secJobs_writeFences (j : Job) (i c : Nat) : (s.writeFences j i c).secJobs = s.secJobs :=
  each_secJobs _ _ _ fun s n => by
    dsimp only
    split
    · simp only [State.secJobs_writeCl]
    · split <;> simp only [State.secJobs_writeCl]

theorem State.secJobs_writeRoute (c n dir site peer peerRoute share buf : Nat) :
    (s.writeRoute c n dir site peer peerRoute share buf).secJobs = s.secJobs := by
  simp only [State.writeRoute, State.secJobs_writeCl]

@[simp] theorem State.secJobs_writeShare (c n share : Nat) : (s.writeShare c n share).secJobs = s.secJobs := rfl

theorem State.secJobs_retarget (old new : Job) : (s.retarget old new).1.secJobs = s.secJobs := by
  refine foldl_frame (fun t : State × List (Nat × Nat) => t.1.secJobs) (fun t r => ?_) _ (s, [])
  split
  · split
    · rfl
    · dsimp only
      rw [State.secJobs_writeRoute, State.secJobs_writeShare, State.secJobs_writeRoute]
  · rfl

theorem State.secJobs_rescale (moved : List (Nat × Nat)) : (s.rescale moved).1.secJobs = s.secJobs :=
  each_secJobs _ _ _ fun s r => by
    dsimp only
    split
    · rfl
    · exact s.secJobs_writeShare ..

theorem State.secJobs_clearEntries (f : Nat → Fld) (c : Nat) (l : List Nat) :
    (each l s fun s n => s.writeCl (f n) c 0).secJobs = s.secJobs := each_secJobs _ _ _ fun s _ => s.secJobs_writeCl _ _ _

theorem State.secJobs_moveBindings (id : Nat) (new : Job) (i c d : Nat) : (s.moveBindings id new i c d).secJobs = s.secJobs := by
  unfold State.moveBindings
  dsimp only
  simp only [State.secJobs_modMesh, State.secJobs_setF, State.secJobs_bindCl, State.secJobs_clearEntries, State.secJobs_writeFences]
  exact each_secJobs _ _ _ fun s _ => each_secJobs _ _ _ fun s f => by simp only [State.secJobs_writeCl]

/-! ### The move -/

theorem State.secJobs_setJob (id : Nat) (j : Option Job) : (s.setJob id j).secJobs = (s.secJobs.1, Tab.set none s.secJobs.2 id j) := rfl

theorem State.secJobs_moveCores (id : Nat) (j new : Job) (m : List (Nat × Nat)) :
    (s.moveCores id j new m).1.secJobs = (s.setJob id (some new)).secJobs := by
  unfold State.moveCores
  extract_lets settled dest onCores onToks onSends groups onClusters bound
  have hcores : onCores.secJobs = s.secJobs := (each_secJobs _ _ _ fun s p => by
    simp only [State.secJobs_modCore, State.secJobs_setF, State.secJobs_setWaiting, State.secJobs_setRun, State.secJobs_yieldSlice]).trans
      (s.secJobs_settleTokens _)
  have hclusters : onClusters.secJobs = s.secJobs := (each_secJobs _ _ _ fun s p => by
    dsimp only
    split <;> simp only [State.secJobs_modCluster]).trans hcores
  have hbound : bound.secJobs = (s.setJob id (some new)).secJobs := by
    rw [State.secJobs_setJob, State.secJobs_setJob, hclusters]
  have hretarget := (bound.secJobs_retarget j new).trans hbound
  generalize bound.retarget j new = r at hretarget
  obtain ⟨t, moved⟩ := r
  dsimp -zeta only at hretarget ⊢
  extract_lets onKernels onWindows marker onMarker mark
  have hkernels : onKernels.secJobs = t.secJobs := each_secJobs _ _ _ fun s k => by
    split
    · exact s.secJobs_modCore ..
    · rfl
  have hwindows : onWindows.secJobs = t.secJobs := (each_secJobs _ _ _ fun s w => s.secJobs_modWindow ..).trans hkernels
  have hmarker : onMarker.secJobs = t.secJobs := by
    unfold onMarker
    split
    · rw [State.secJobs_setF, State.secJobs_setF, hwindows]
    · exact hwindows
  rw [State.secJobs_rescale, State.secJobs_modTally, hmarker, hretarget]

/-- A move gives the vacated cluster its new role and the standby cluster a rank, and shows the partition where it then is. -/
theorem State.secJobs_moveCluster {id : Nat} {j : Job} {c d oldRole i : Nat} (hi : j.clusters.idxOf? c = some i) :
    (s.moveCluster id j c d oldRole).secJobs =
      (((s.setRole c oldRole).setRole d 0).setJob id (some (((s.setRole c oldRole).setRole d 0).jobMoved j i d))).secJobs := by
  unfold State.moveCluster
  rw [hi]
  dsimp -zeta only
  extract_lets ranked new m bound
  have hbound : bound.secJobs = ranked.secJobs := ranked.secJobs_moveBindings ..
  have hcores := bound.secJobs_moveCores id j new m
  rw [State.secJobs_setJob, hbound, ← State.secJobs_setJob] at hcores
  rw [State.secJobs_reportUnit, State.secJobs_addF, State.secJobs_modCluster]
  exact hcores

end
end Sys2Proof.Machine
end

section
/-! Proofs. Cluster firmware, in place and by a move; the service commands (R384, R386, R398, R399). -/

namespace Sys2Proof.Machine

/-! ### The firmware body fits the staging area (R386) -/

theorem length_body_of_verify {s : State} {cc : Nat} {obj : List Byte} (h : s.verify cc 4 obj = 0) :
    stagingArea + (objBody obj).length ≤ spreadSize := by
  unfold State.verify at h
  dsimp only at h
  have hok : bodyLenOk 4 (objLen obj) (objBody obj) = true := by
    by_contra hbad
    rw [eq_false_of_ne_true hbad, Bool.not_false, Bool.or_true, if_pos rfl] at h
    cases h
  have hlen : objLen obj ≤ 128 + 0x80000 + 0x10000 + 128 := of_decide_eq_true hok
  have hbody : (objBody obj).length ≤ objLen obj := List.length_take_le ..
  unfold stagingArea spreadSize
  omega

theorem State.memRead_of_mem_spread {s t : State} (h : t.mem = s.mem) {a n : Nat} (hn : a + n ≤ spreadSize) : t.memRead a n = s.memRead a n :=
  State.memRead_eq_of_get fun i hi => by rw [h, State.canon_spread _ (by omega), State.canon_spread _ (by omega)]

/-! ### Cluster firmware is measured and loaded (R386, R394) -/

/-- The image of the clusters is recorded, and measured where it is new. -/
def State.recordImage (s : State) (obj : List Byte) : State :=
  (if s.sec.fwSeen.contains (objDigest obj) then s
    else (s.extend s.activeCc 2 (objDigest obj)).modSec fun x => { x with fwSeen := x.fwSeen ++ [objDigest obj] }).modSec
      fun x => { x with image := Tab.set 0 x.image 4 (objSvn obj) }

section
variable (s : State) (c : Nat) (obj : List Byte)

theorem State.clusterLoaded_eq : s.clusterLoaded c obj =
    ((((s.memWrite (servicePort 0) stagingArea (objBody obj)).recordImage obj).modCluster c fun x => { x with firmware := objBody obj }).serveEnd) := rfl

theorem State.recordImage_frame : ∃ ch sec, s.recordImage obj = { s with ctl := ch, sec := sec } ∧ sec.blaze = s.sec.blaze := by
  unfold State.recordImage
  split
  · exact ⟨s.ctl, _, rfl, rfl⟩
  · exact ⟨_, _, rfl, rfl⟩

/-- The blaze map and the job partitions. -/
def State.blazeJobs : Blaze × Tab (Option Job) := (s.sec.blaze, s.jobs)

theorem State.blazeJobs_of_secJobs {s t : State} (h : t.secJobs = s.secJobs) : t.blazeJobs = s.blazeJobs :=
  congrArg (fun p : Security × Tab (Option Job) => (p.1.blaze, p.2)) h

theorem State.blaze_of_blazeJobs {s t : State} (h : t.blazeJobs = s.blazeJobs) : t.sec.blaze = s.sec.blaze := congrArg Prod.fst h

theorem State.jobs_of_blazeJobs {s t : State} (h : t.blazeJobs = s.blazeJobs) : t.jobs = s.jobs := congrArg Prod.snd h

theorem State.blazeJobs_clusterLoaded : (s.clusterLoaded c obj).blazeJobs = s.blazeJobs := by
  have hend (x : State) : x.serveEnd.blazeJobs = x.blazeJobs := rfl
  have hcluster (x : State) (g : Cluster → Cluster) : (x.modCluster c g).blazeJobs = x.blazeJobs := rfl
  rw [State.clusterLoaded_eq, hend, hcluster]
  obtain ⟨ch, sec, h, hblaze⟩ := (s.memWrite (servicePort 0) stagingArea (objBody obj)).recordImage_frame obj
  rw [h]
  exact (congrArg (fun b => (b, (s.memWrite (servicePort 0) stagingArea (objBody obj)).jobs)) hblaze).trans
    (State.blazeJobs_of_secJobs (s.secJobs_memWrite ..))

theorem State.firmware_clusterLoaded : ((s.clusterLoaded c obj).cluster c).firmware = objBody obj := by
  have hend (x : State) : x.serveEnd.cluster c = x.cluster c := rfl
  rw [State.clusterLoaded_eq, hend, State.cluster_modCluster, if_pos rfl]

theorem State.part_clusterLoaded : (s.clusterLoaded c obj).getF R.SEC.SERVICE.PART 0 = 0 := State.part_serveEnd _

/-- In place, the update writes the staging area and the cluster, and nothing else of memory or of the cores. -/
theorem State.clusterLoaded_inPlace (hfit : stagingArea + (objBody obj).length ≤ spreadSize) :
    (s.clusterLoaded c obj).cluster c = { s.cluster c with firmware := objBody obj } ∧ (s.clusterLoaded c obj).cores = s.cores ∧
    (s.clusterLoaded c obj).memRead stagingArea (objBody obj).length = objBody obj ∧
    s.memBut (s.clusterLoaded c obj) stagingArea (objBody obj).length := by
  have hbeside := s.memWrite_spread_beside (servicePort 0) hfit
  have hread := s.memRead_memWrite_same (servicePort 0) stagingArea (objBody obj) (s.linksUp_spread hfit) (s.canon_spread_inj hfit)
  have hbut := s.memBut_memWrite_spread (servicePort 0) hfit
  rw [State.clusterLoaded_eq]
  generalize s.memWrite (servicePort 0) stagingArea (objBody obj) = u at hbeside hread hbut
  obtain ⟨ch, sec, h, -⟩ := u.recordImage_frame obj
  have hkeep : (u.recordImage obj).mem = u.mem ∧ (u.recordImage obj).cores = u.cores ∧ (u.recordImage obj).cluster c = u.cluster c := by
    rw [h]
    exact ⟨rfl, rfl, rfl⟩
  generalize u.recordImage obj = v at hkeep
  obtain ⟨hmem, hcores, hcluster⟩ := hkeep
  have hend (x : State) : x.serveEnd.cluster c = x.cluster c ∧ x.serveEnd.cores = x.cores ∧ x.serveEnd.mem = x.mem := ⟨rfl, rfl, rfl⟩
  obtain ⟨hendCluster, hendCores, hendMem⟩ := hend (v.modCluster c fun x => { x with firmware := objBody obj })
  have hmem' := hendMem.trans ((rfl : (v.modCluster c fun x => { x with firmware := objBody obj }).mem = v.mem).trans hmem)
  refine ⟨?_, hendCores.trans (hcores.trans (State.part_of_beside State.cores (fun _ => rfl) hbeside)), ?_, ?_⟩
  · rw [hendCluster, State.cluster_modCluster, if_pos rfl, hcluster, State.part_of_beside (fun x : State => x.cluster c) (fun _ => rfl) hbeside]
  · rw [State.memRead_of_mem_spread hmem' hfit, hread]
  · unfold State.memBut
    rw [hmem']
    exact hbut

end

/-! ### The move to a standby cluster (R312, R384) -/

section
variable (s : State)

theorem State.mem_standbys {d : Nat} (h : d ∈ s.standbys) : s.jobOf d = none := by
  have hfit := (List.mem_filter.1 h).2
  simp only [Bool.and_eq_true] at hfit
  obtain ⟨⟨_, hfree⟩, _⟩ := hfit
  exact Option.isNone_iff_eq_none.1 hfree

theorem State.groupMark_idle {g : List Nat} (h : s.liveSites g = []) : s.groupMark g = none := by
  unfold State.groupMark
  rw [h]
  rfl

theorem State.commitForMove_idle {c : Nat} (h : s.liveSites (s.groupOf c) = []) : s.commitForMove c = s := by
  unfold State.commitForMove
  dsimp only
  rw [State.groupMark_idle s h]

theorem State.atCommit_idle {g : List Nat} (h : s.liveSites g = []) : s.atCommit g = true := by
  unfold State.atCommit
  rw [h]
  rfl

theorem State.role_of_blaze {s t : State} (h : t.sec.blaze.roles = s.sec.blaze.roles) (c : Nat) : t.role c = s.role c := by
  unfold State.role
  rw [h]

theorem State.role_setRole (c r k : Nat) : (s.setRole c r).role k = if k = c then r else s.role k :=
  Tab.get_set ..

/-- The blaze map is signed anew with the next version; no role, partition or cluster changes. -/
theorem State.reviseBlaze_shows : s.reviseBlaze.sec.blaze.version = s.sec.blaze.version + 1 ∧ s.reviseBlaze.sec.blaze.roles = s.sec.blaze.roles ∧
    s.reviseBlaze.jobs = s.jobs ∧ s.reviseBlaze.clusters = s.clusters ∧ s.reviseBlaze.getF R.SEC.SERVICE.PART 0 = s.getF R.SEC.SERVICE.PART 0 := by
  have hpart (x : State) (v cc : Nat) (m : List Byte) :
      ((x.setF R.SEC.BLAZE_VERSION.VERSION 0 v).extend cc 4 m).getF R.SEC.SERVICE.PART 0 = x.getF R.SEC.SERVICE.PART 0 :=
    State.getF_setF_ne x _ _ _ _ _ (Fld.key_ne_of_low (by decide) 0 0)
  exact ⟨rfl, rfl, rfl, rfl, hpart _ _ _ _⟩

/-- The update's service does not touch what a move is decided on. -/
theorem State.serve_group (part state index c : Nat) : (s.serve part state index).groupOf c = s.groupOf c ∧
    (∀ g, (s.serve part state index).liveSites g = s.liveSites g) ∧ ∀ g, (s.serve part state index).atCommit g = s.atCommit g :=
  ⟨rfl, fun _ => rfl, fun _ => rfl⟩

/-- A cluster's firmware is updated by a move to a standby cluster, whose blaze map is then signed. -/
def State.movedUpdate (s : State) (id : Nat) (j : Job) (c d : Nat) (obj : List Byte) : State :=
  (((((s.serve 2 1 c).moveCluster id j c d 1).clusterLoaded c obj).setRole c 1)).reviseBlaze

theorem State.blazeJobs_moveCluster {id : Nat} {j : Job} {c d i : Nat} (hi : j.clusters.idxOf? c = some i) (obj : List Byte) :
    (((s.serve 2 1 c).moveCluster id j c d 1).clusterLoaded c obj).blazeJobs =
      (((s.setRole c 1).setRole d 0).setJob id (some (((s.setRole c 1).setRole d 0).jobMoved j i d))).blazeJobs := by
  have hmoved := State.blazeJobs_of_secJobs ((s.serve 2 1 c).secJobs_moveCluster (id := id) (d := d) (oldRole := 1) hi)
  exact (State.blazeJobs_clusterLoaded _ c obj).trans hmoved

theorem State.movedUpdate_shows {id : Nat} {j : Job} {c d i : Nat} (hi : j.clusters.idxOf? c = some i) (hd : d ≠ c) (obj : List Byte) :
    (s.movedUpdate id j c d obj).role c = 1 ∧ (s.movedUpdate id j c d obj).role d = 0 ∧
    ((s.movedUpdate id j c d obj).job id).map (·.clusters) = some (j.clusters.set i d) ∧
    (s.movedUpdate id j c d obj).getF R.SEC.SERVICE.PART 0 = 0 ∧
    (s.movedUpdate id j c d obj).sec.blaze.version = s.sec.blaze.version + 1 ∧
    ((s.movedUpdate id j c d obj).cluster c).firmware = objBody obj := by
  have hbj := s.blazeJobs_moveCluster (id := id) (d := d) hi obj
  have hfirm := ((s.serve 2 1 c).moveCluster id j c d 1).firmware_clusterLoaded c obj
  have hpart := ((s.serve 2 1 c).moveCluster id j c d 1).part_clusterLoaded c obj
  unfold State.movedUpdate
  generalize ((s.serve 2 1 c).moveCluster id j c d 1).clusterLoaded c obj = u at hbj hfirm hpart
  have hblaze := State.blaze_of_blazeJobs hbj
  have hjobs := State.jobs_of_blazeJobs hbj
  obtain ⟨hversion, hroles, hjobs', hclusters, hpart'⟩ := (u.setRole c 1).reviseBlaze_shows
  refine ⟨?_, ?_, ?_, hpart'.trans hpart, hversion.trans ?_, ?_⟩
  · rw [State.role_of_blaze hroles, State.role_setRole, if_pos rfl]
  · rw [State.role_of_blaze hroles, State.role_setRole, if_neg hd, State.role_of_blaze (congrArg Blaze.roles hblaze)]
    exact (State.role_setRole (s.setRole c 1) d 0 d).trans (if_pos rfl)
  · have hjob : (u.setRole c 1).reviseBlaze.job id = some (((s.setRole c 1).setRole d 0).jobMoved j i d) := by
      unfold State.job
      rw [hjobs']
      exact (congrArg (fun t => Tab.get none t id) hjobs).trans ((State.job_setJob _ id id _).trans (if_pos rfl))
    rw [hjob]
    rfl
  · show u.sec.blaze.version + 1 = s.sec.blaze.version + 1
    rw [hblaze]
    rfl
  · unfold State.cluster
    rw [hclusters]
    exact hfirm

end

/-! ### CLUSTER_FIRMWARE_UPDATE (R398, R399) -/

section
variable {s : State} {c : Fin 24} {obj : List Byte}

theorem clusterFirmwareUpdate_idle (h : s.mayServe 2 c = false ∨ s.regionOn c = false) : exec (.clusterFirmwareUpdate c obj) s = .next s := by
  refine if_pos ?_
  rcases h with hserve | hon
  · rw [hserve]; rfl
  · rw [hon, Bool.not_false, Bool.or_true]

variable (hserve : s.mayServe 2 c = true) (hon : s.regionOn c = true)
include hserve hon

theorem clusterFirmwareUpdate_serves : ¬(!s.mayServe 2 c || !s.regionOn c) = true := by
  rw [hserve, hon]
  decide

theorem clusterFirmwareUpdate_bad (hcode : s.verify s.activeCc 4 obj ≠ 0) :
    exec (.clusterFirmwareUpdate c obj) s = .next (s.addF R.SEC.VERIFY_FAILS.COUNT 0 1) := by
  refine (if_neg (clusterFirmwareUpdate_serves hserve hon)).trans ?_
  simp only [State.check_bad hcode]

variable (hcode : s.verify s.activeCc 4 obj = 0)
include hcode

theorem clusterFirmwareUpdate_inPlace (hfree : s.jobOf c = none) : exec (.clusterFirmwareUpdate c obj) s = .next (s.clusterLoaded c obj) := by
  refine (if_neg (clusterFirmwareUpdate_serves hserve hon)).trans ?_
  simp only [State.check_good hcode, hfree, Option.bind_none]

variable {id : Nat} {j : Job} (hjob : s.jobOf c = some id) (hj : s.job id = some j)
include hjob hj

theorem clusterFirmwareUpdate_fewStandbys (hfew : s.standbys.length < 2) : exec (.clusterFirmwareUpdate c obj) s = .next s := by
  refine (if_neg (clusterFirmwareUpdate_serves hserve hon)).trans ?_
  simp only [State.check_good hcode, hjob, hj, Option.bind_some, Option.map_some]
  split
  · next h =>
    rw [h] at hfew
    exact absurd hfew (by simp)
  · rfl

theorem clusterFirmwareUpdate_waits (htwo : 2 ≤ s.standbys.length) (hmark : s.atCommit (s.groupOf c) = false) :
    exec (.clusterFirmwareUpdate c obj) s = .next (s.serve 2 1 c) := by
  obtain ⟨hgroup, -, hcommit⟩ := s.serve_group 2 1 c c
  refine (if_neg (clusterFirmwareUpdate_serves hserve hon)).trans ?_
  simp only [State.check_good hcode, hjob, hj, Option.bind_some, Option.map_some, hgroup, hcommit, hmark, Bool.not_false, if_true]
  split
  · rfl
  · next hnone =>
    match hl : s.standbys with
    | [] => rw [hl] at htwo; exact absurd htwo (by decide)
    | [_] => rw [hl] at htwo; exact absurd htwo (by simp)
    | d :: e :: l => exact absurd hl (hnone d e l)

theorem clusterFirmwareUpdate_moves {d e : Nat} {l : List Nat} (hstandbys : s.standbys = d :: e :: l) (hlive : s.liveSites (s.groupOf c) = []) :
    exec (.clusterFirmwareUpdate c obj) s = .next (s.movedUpdate id j c d obj) := by
  obtain ⟨hgroup, hsites, hcommit⟩ := s.serve_group 2 1 c c
  have hidle : (s.serve 2 1 c).commitForMove c = s.serve 2 1 c := State.commitForMove_idle _ (by rw [hgroup, hsites, hlive])
  refine (if_neg (clusterFirmwareUpdate_serves hserve hon)).trans ?_
  simp only [State.check_good hcode, hjob, hj, hstandbys, Option.bind_some, Option.map_some, hidle, hgroup, hsites, hcommit, hlive,
    State.atCommit_idle s hlive, Bool.not_true, Bool.false_eq_true, if_false]
  rfl

end

/-- CLUSTER_FIRMWARE_UPDATE of a cluster. -/
theorem clusterFirmwareUpdate_holds (s : State) (c : Fin 24) (obj : List Byte) :
    let code := s.verify s.activeCc 4 obj; let run := exec (.clusterFirmwareUpdate c obj) s
    (s.mayServe 2 c = false ∨ s.regionOn c = false → run = .next s) ∧
    (s.mayServe 2 c = true → s.regionOn c = true →
      (code ≠ 0 → ∃ t, run = .next t ∧ t = { s with regs := t.regs } ∧ t.getF R.SEC.VERIFY_FAILS.COUNT 0 = min (2 ^ 32 - 1) (s.getF R.SEC.VERIFY_FAILS.COUNT 0 + 1)) ∧
      (code = 0 → s.jobOf c = none → ∃ t, run = .next t ∧ t.cluster c = { s.cluster c with firmware := objBody obj } ∧ t.getF R.SEC.SERVICE.PART 0 = 0 ∧
        t.sec.blaze = s.sec.blaze ∧ t.jobs = s.jobs ∧ t.cores = s.cores ∧
        t.memRead stagingArea (objBody obj).length = objBody obj ∧ s.memBut t stagingArea (objBody obj).length) ∧
      (∀ id j, code = 0 → s.jobOf c = some id → s.job id = some j →
        (s.standbys.length < 2 → run = .next s) ∧
        (2 ≤ s.standbys.length → s.atCommit (s.groupOf c) = false → ∃ t, run = .next t ∧ t = { s with regs := t.regs } ∧
          t.getF R.SEC.SERVICE.PART 0 = 2 ∧ t.getF R.SEC.SERVICE.STATE 0 = 1 ∧ t.getF R.SEC.SERVICE.INDEX 0 = c.val) ∧
        (∀ d e l i, s.standbys = d :: e :: l → s.liveSites (s.groupOf c) = [] → j.clusters.idxOf? c.val = some i → ∃ t, run = .next t ∧
          t.role c = 1 ∧ t.role d = 0 ∧ (t.job id).map (·.clusters) = some (j.clusters.set i d) ∧ t.getF R.SEC.SERVICE.PART 0 = 0 ∧
          t.sec.blaze.version = s.sec.blaze.version + 1 ∧ (t.cluster c).firmware = objBody obj))) := by
  refine ⟨clusterFirmwareUpdate_idle, fun hserve hon => ⟨fun hbad => ⟨_, clusterFirmwareUpdate_bad hserve hon hbad, s.addF_verifyFails⟩,
    fun hcode hfree => ?_, fun id j hcode hjob hj => ⟨clusterFirmwareUpdate_fewStandbys hserve hon hcode hjob hj, fun htwo hmark => ?_,
      fun d e l i hstandbys hlive hi => ?_⟩⟩⟩
  · obtain ⟨hcluster, hcores, hread, hbut⟩ := s.clusterLoaded_inPlace c obj (length_body_of_verify hcode)
    have hbj := s.blazeJobs_clusterLoaded c obj
    exact ⟨_, clusterFirmwareUpdate_inPlace hserve hon hcode hfree, hcluster, s.part_clusterLoaded c obj, State.blaze_of_blazeJobs hbj,
      State.jobs_of_blazeJobs hbj, hcores, hread, hbut⟩
  · exact ⟨_, clusterFirmwareUpdate_waits hserve hon hcode hjob hj htwo hmark, s.serve_regs, s.part_serve (by decide), s.state_serve (by decide),
      s.index_serve (by omega)⟩
  · have hfree := s.mem_standbys (d := d) (by rw [hstandbys]; exact List.mem_cons_self)
    have hd : d ≠ c.val := fun h => by rw [h, hjob] at hfree; cases hfree
    exact ⟨_, clusterFirmwareUpdate_moves hserve hon hcode hjob hj hstandbys hlive, s.movedUpdate_shows hi hd obj⟩

/-- Settles O55: each update is cut into what refuses it, what it shows while it waits and what its load leaves; a claim, a
failover and a move are followed by what they leave of the flash devices, of SEC.SERVICE and of the job partitions. -/
theorem serviceCommands : Obligations.ServiceCommands := by
  intro s
  exact ⟨clusterFirmwareUpdate_holds s, controlFirmwareUpdate_holds s, linkChipletUpdate_holds s, laneCalibration_holds s, portChipletUpdate_holds s,
    fun r n => ⟨sensorCalibration_idle s r n, fun hv hn => ⟨fun _ => sensorCalibration_other hv hn, sensorCalibration_set hv hn,
      sensorCalibration_end hv hn⟩⟩⟩

end Sys2Proof.Machine
end

section
/-! Proofs. What the tally unit's own operations make of the state: control messages, tripwires, contributions, marks and
holds (R187, R188, R271 to R274, R283 to R286, R423). -/

namespace Sys2Proof.Machine

/-! ### Control messages -/

theorem State.tell_frame (s : State) (dev : Nat) (body : List Byte) :
    ∃ ps sent, s.tell dev body = s.modFab fun f => { f with ports := ps, sent := sent } := by
  unfold State.tell
  obtain ⟨ps, h⟩ := s.txPacket_frame 0 { type := 4, cls := 3, dst := dev, src := s.devId, vc := 3, birth := s.now / 1000 % 65536, data := body }
  exact ⟨ps, _, h⟩

theorem each_tell_frame (body : State → List Byte) (l : List Nat) (s : State) :
    ∃ ps sent, each l s (fun s d => s.tell d (body s)) = s.modFab fun f => { f with ports := ps, sent := sent } := by
  induction l generalizing s with
  | nil => exact ⟨s.fab.ports, s.fab.sent, rfl⟩
  | cons d l ih =>
    obtain ⟨ps, sent, h⟩ := s.tell_frame d (body s)
    obtain ⟨qs, sent', h'⟩ := ih (s.tell d (body s))
    exact ⟨qs, sent', h'.trans (by rw [h]; rfl)⟩

/-- The gate's decision goes to the children as packets: nothing else changes (R284, R285). -/
theorem State.tellChildren_frame (s : State) (go : Bool) :
    ∃ ps sent, s.tellChildren go = s.modFab fun f => { f with ports := ps, sent := sent } :=
  each_tell_frame _ s.gateChildren s

/-- An input that goes to the gate is noted, and sent as packets (R285, R286). -/
theorem State.gateProgress_frame (s : State) : ∃ at_ good ps sent,
    s.gateProgress = (s.modGate fun g => { g with sentAt := at_, sentGood := good }).modFab fun f => { f with ports := ps, sent := sent } := by
  unfold State.gateProgress
  dsimp only
  split
  · exact ⟨s.tally.gate.sentAt, s.tally.gate.sentGood, s.fab.ports, s.fab.sent, rfl⟩
  · split
    · obtain ⟨ps, sent, h⟩ := (s.modGate fun g => { g with sentAt := some (g.sentAt.getD s.now), sentGood := s.gateGood }).tell_frame _ _
      exact ⟨_, _, ps, sent, h⟩
    · split
      · obtain ⟨ps, sent, h⟩ := (s.modGate fun g => { g with sentAt := some (g.sentAt.getD s.now), sentGood := s.gateGood }).tell_frame _ _
        exact ⟨_, _, ps, sent, h⟩
      · exact ⟨s.tally.gate.sentAt, s.tally.gate.sentGood, s.fab.ports, s.fab.sent, rfl⟩

theorem State.gateProgress_inactive {s : State} (h : s.tally.gate.active = false) : s.gateProgress = s := by
  have hready : s.gateReady = false := by simp [State.gateReady, h]
  simp [State.gateProgress, hready]

/-! ### Tripwires and contributions (R187, R188, R273) -/

/-- The fields in which a tripwire shows that it fired. -/
def tripFields : List Fld :=
  [R.TLY.TW_FIRED.FIRED, R.TLY.TW_FIRST.INDEX, R.TLY.TW_FIRST.VALID, R.TLY.TW_FIRST.CSET, R.TLY.TW_FIRST_STEP.STEP, R.TLY.HOLD.REQUESTED,
    R.TLY.HOLD.CAUSE_TRIPWIRE]

/-- Between the states, tripwires may have fired, and nothing else happened. -/
structure State.Tripped (s t : State) : Prop where
  frame : t = { s with regs := t.regs, fresh := t.fresh, tally := { s.tally with fired := t.tally.fired } }
  regs  : s.regsBut t (tripFields.map (·.key 0))
  fired : ∀ n, n < 16 → flag (s.getF R.TLY.TW_FIRED.FIRED 0) n = true → flag (t.getF R.TLY.TW_FIRED.FIRED 0) n = true

theorem State.Tripped.refl (s : State) : s.Tripped s := ⟨rfl, fun _ _ => rfl, fun _ _ h => h⟩

theorem State.Tripped.trans {s t u : State} (h : s.Tripped t) (h' : t.Tripped u) : s.Tripped u where
  frame := h'.frame.trans
    (congrArg (fun x : State => { x with regs := u.regs, fresh := u.fresh, tally := { x.tally with fired := u.tally.fired } }) h.frame)
  regs := fun k hk => (h'.regs k hk).trans (h.regs k hk)
  fired := fun n hn hf => h'.fired n hn (h.fired n hn hf)


section
variable {s t : State} (h : s.Tripped t)
include h

theorem State.Tripped.setF {f : Fld} (v : Nat) (hf : f.key 0 ∈ tripFields.map (·.key 0)) (hne : R.TLY.TW_FIRED.FIRED.key 0 ≠ f.key 0) :
    s.Tripped (t.setF f 0 v) where
  frame := congrArg (fun x : State => x.setF f 0 v) h.frame
  regs := fun k hk => by
    rw [t.regsBut_setF f 0 v k (by rw [List.mem_singleton]; exact fun e => hk (e ▸ hf)), h.regs k hk]
  fired := fun n hn hs => by
    rw [State.getF_setF_ne t f _ 0 0 v hne]
    exact h.fired n hn hs

theorem State.Tripped.withFresh (fr : Tab Nat) : s.Tripped { t with fresh := fr } where
  frame := congrArg (fun x : State => { x with fresh := fr }) h.frame
  regs := h.regs
  fired := h.fired

theorem State.Tripped.withFired (l : List Nat) : s.Tripped (t.modTally fun y => { y with fired := l }) where
  frame := congrArg (fun x : State => x.modTally fun y => { y with fired := l }) h.frame
  regs := h.regs
  fired := h.fired

theorem State.Tripped.orFired (v : Nat) : s.Tripped (t.orF R.TLY.TW_FIRED.FIRED 0 v) where
  frame := congrArg (fun x : State => x.orF R.TLY.TW_FIRED.FIRED 0 v) h.frame
  regs := fun k hk => by
    rw [t.regsBut_orF _ 0 v k (by rw [List.mem_singleton]; exact fun e => hk (e ▸ List.mem_cons_self)), h.regs k hk]
  fired := fun n hn hs => by
    rw [State.getF_orF_same, flag_mod_two_pow _ R.TLY.TW_FIRED.FIRED.width n hn, flag_eq_testBit, Nat.testBit_or, ← flag_eq_testBit,
      h.fired n hn hs, Bool.true_or]

theorem State.Tripped.requestHold : s.Tripped (t.requestHold R.TLY.HOLD.CAUSE_TRIPWIRE) :=
  ((h.setF 1 (f := R.TLY.HOLD.REQUESTED) (by decide) (by decide)).setF _ (f := R.TLY.HOLD.CAUSE_TRIPWIRE) (by decide) (by decide)).withFresh _

/-- The first tripwire of a window is shown with its set and the step (R187). -/
def State.firstTrip (s : State) (n k : Nat) : State :=
  let s := ((s.setF R.TLY.TW_FIRST.INDEX 0 n).setF R.TLY.TW_FIRST.VALID 0 1).setF R.TLY.TW_FIRST.CSET 0 k
  s.setF R.TLY.TW_FIRST_STEP.STEP 0 (s.getF R.TLY.STEP.STEP 0)

theorem State.Tripped.firstTrip (n k : Nat) : s.Tripped (t.firstTrip n k) :=
  (((h.setF n (by decide) (by decide)).setF 1 (by decide) (by decide)).setF k (by decide) (by decide)).setF _ (by decide) (by decide)

end

/-- One tripwire's firing shows in its own registers, and asks for a hold where it is to (R187, R189). -/
theorem State.tripped_tripFire (s : State) (n : Nat) : s.Tripped (s.tripFire n) := by
  have first (u : State) (hu : s.Tripped u) (k : Nat) (b : Bool) : s.Tripped (if b then u.firstTrip n k else u) := by
    split
    · exact hu.firstTrip n k
    · exact hu
  have hold (u : State) (hu : s.Tripped u) (p : Prop) [Decidable p] : s.Tripped (if p then u.requestHold R.TLY.HOLD.CAUSE_TRIPWIRE else u) := by
    split
    · exact hu.requestHold
    · exact hu
  unfold State.tripFire
  split
  · exact .refl s
  · cases s.tripMet n with
    | none => exact .refl s
    | some k => exact hold _ (first _ (((State.Tripped.refl s).withFired (s.tally.fired ++ [n])).orFired (2 ^ n)) k s.tally.fired.isEmpty) _

theorem State.tripped_tripAll (s : State) : s.Tripped s.tripAll := by
  have fold (l : List Nat) (t : State) (h : s.Tripped t) : s.Tripped (each l t State.tripFire) := by
    induction l generalizing t with
    | nil => exact h
    | cons n l ih => exact ih _ (h.trans (t.tripped_tripFire n))
  exact fold _ s (.refl s)

theorem State.Tripped.parts {s t : State} (h : s.Tripped t) : t = { s with regs := t.regs, tally := t.tally, fresh := t.fresh } :=
  h.frame.trans (congrArg (fun y : Tally => ({ s with regs := t.regs, tally := y, fresh := t.fresh } : State)) (congrArg State.tally h.frame).symm)

/-- Another register field reads as before. -/
theorem State.Tripped.getF {s t : State} (h : s.Tripped t) {f : Fld} (hf : f.key 0 ∉ tripFields.map (·.key 0)) :
    t.getF f 0 = s.getF f 0 := by
  unfold State.getF
  rw [h.regs _ hf]

/-- The entries of a contribution are added, then the tripwires judge (R187, R273). -/
theorem State.tripped_contribute (s : State) (e : Tab Nat) :
    (s.modTally fun t => { t with sets := e.foldl addEntry t.sets }).Tripped (s.contribute e) := State.tripped_tripAll _

end Sys2Proof.Machine
end

section
/-! Proofs. MARK_CMD_MARK, MARK_ARRIVAL, RANGE_FINGERPRINT_READ and TALLY_CONTRIBUTION_ARRIVAL (R271, R273, R274, R278, R280, R423). -/

namespace Sys2Proof.Machine

/-! ### Marks (R271, R274, R423) -/

theorem exec_markCmdMark {s : State} (hactive : s.active.isSome = true) (hhost : s.hosted 10 0 = true) :
    exec .markCmdMark s = .next s.markWrite := by
  show Host.Outcome.next (s.asActive fun s => if s.hosted 10 0 then s.markWrite else s) = _
  rw [State.asActive_active hactive, if_pos hhost]

theorem State.markWrite_ignored {s : State} (h : s.getF R.TLY.MARK_CTL.SOURCE 0 ≠ 2 ∨ s.tally.waiting ≠ none) : s.markWrite = s := by
  refine if_neg ?_
  simp only [Bool.and_eq_true, decide_eq_true_eq, Option.isNone_iff_eq_none]
  tauto

theorem State.markWrite_sends {s : State} (hsource : s.getF R.TLY.MARK_CTL.SOURCE 0 = 2) (hwait : s.tally.waiting = none) :
    s.markWrite = s.sendMark ⟨none⟩ := if_pos (by simp [hsource, hwait])

theorem State.markFree_iff (s : State) :
    s.markFree = true ↔ s.tally.taken = none ∧ s.getF R.TLY.HOLD.HELD 0 = 0 ∧ s.tally.heldMark = none := by
  simp [State.markFree, and_assoc]

section
variable {s : State} {m : Mark} {r : List Mark} (h : s.tally.incoming = m :: r)
include h

theorem exec_markArrival : exec .markArrival s =
    let t := s.modTally fun t => { t with incoming := r }
    if s.markFree && s.tally.waiting.isNone then .next (t.takeMark m)
    else if s.tally.waiting.isNone then .next (t.modTally fun t => { t with waiting := some m })
    else .next (if m.site.isNone then t else s) := by
  show execMarkArrival s = _
  unfold execMarkArrival
  rw [h]

theorem exec_markArrival_takes (hwait : s.tally.waiting = none) (hfree : s.markFree = true) :
    exec .markArrival s = .next ((s.modTally fun t => { t with incoming := r }).takeMark m) :=
  (exec_markArrival h).trans (if_pos (by simp [hwait, hfree]))

theorem exec_markArrival_waits (hwait : s.tally.waiting = none) (hfree : ¬ s.markFree = true) :
    exec .markArrival s = .next { s with tally := { s.tally with incoming := r, waiting := some m } } :=
  (exec_markArrival h).trans ((if_neg (by simp [hfree])).trans (if_pos (by simp [hwait])))

theorem exec_markArrival_second (hwait : s.tally.waiting ≠ none) :
    exec .markArrival s = .next (if m.site = none then { s with tally := { s.tally with incoming := r } } else s) := by
  have hnone : s.tally.waiting.isNone = false := Option.isNone_eq_false_iff.2 (Option.isSome_iff_ne_none.2 hwait)
  refine (exec_markArrival h).trans ((if_neg (by simp [hnone])).trans ((if_neg (by simp [hnone])).trans ?_))
  simp only [Option.isNone_iff_eq_none]
  rfl

end

/-! ### Counter sets (R273, R276) -/

theorem get_addEntry (t : Tab Nat) (e : Nat × Nat) (k : Nat) :
    Tab.get 0 (addEntry t e) k = if k = e.1 then combineAt e.1 (Tab.get 0 t e.1) e.2 else Tab.get 0 t k := by
  rw [addEntry, Tab.get_set]

theorem CEnt.key_lt (e : CEnt) : e.key < 32 := by cases e <;> decide

theorem setKey_inj {a : Nat} {e f : CEnt} : setKey a e = setKey a f ↔ e.key = f.key := by
  unfold setKey
  omega

theorem combineAt_setKey {cset : Nat} (h : cset < 256) (e : CEnt) (a b : Nat) : combineAt (setKey cset e) a b = combine e.key a b := by
  have he := e.key_lt
  have hlt : setKey cset e < smldKey := by unfold setKey smldKey; omega
  rw [combineAt, if_pos hlt, show setKey cset e % 32 = e.key by unfold setKey; omega]

theorem foldl_add_mod (m : Nat) (l : List Nat) (a : Nat) (ha : a < m) : l.foldl (fun a b => (a + b) % m) a = (a + l.sum) % m := by
  induction l generalizing a with
  | nil => exact (Nat.mod_eq_of_lt ha).symm
  | cons b l ih =>
    rw [List.foldl_cons, ih _ (Nat.mod_lt _ (by omega)), List.sum_cons, Nat.mod_add_mod, Nat.add_assoc]

/-! ### RANGE_FINGERPRINT_READ (R212, R278, R280) -/

/-- The entries that the read of a range gives its set. -/
def rangeEntries (cset bad clean fp : Nat) : Tab Nat := [(setKey cset .nan, bad), (setKey cset .fpCount, clean), (setKey cset .fp, fp)]

theorem get_rangeEntries {cset : Nat} (h : cset < 256) (t : Tab Nat) (bad clean fp : Nat) :
    let u := (rangeEntries cset bad clean fp).foldl addEntry t
    Tab.get 0 u (setKey cset .nan) = min (2 ^ 32 - 1) (Tab.get 0 t (setKey cset .nan) + bad) ∧
    Tab.get 0 u (setKey cset .fpCount) = min (2 ^ 64 - 1) (Tab.get 0 t (setKey cset .fpCount) + clean) ∧
    Tab.get 0 u (setKey cset .fp) = (Tab.get 0 t (setKey cset .fp) + fp) % 2 ^ 64 ∧
    ∀ k, k ≠ setKey cset .fpCount → k ≠ setKey cset .fp → k ≠ setKey cset .nan → Tab.get 0 u k = Tab.get 0 t k := by
  have hk (e f : CEnt) : setKey cset e = setKey cset f ↔ e.key = f.key := setKey_inj
  refine ⟨?_, ?_, ?_, fun k h1 h2 h3 => ?_⟩ <;>
    simp only [rangeEntries, List.foldl_cons, List.foldl_nil, get_addEntry, combineAt_setKey h, hk, CEnt.key] <;>
    simp [combine, satAdd, *]

/-- The poisoned sectors of a range, once its gather entries are written (R199, R212). -/
def State.rangeBad (s : State) (base words : Nat) : List Nat := ((s.flushRange base (4 * words)).poisonIn base (4 * words)).dedup

/-- The words of a range outside poisoned sectors. -/
def State.rangeClean (s : State) (base words : Nat) : List Nat :=
  (List.range words).filter fun j => !(s.rangeBad base words).contains (s.canon (base + 4 * j) / 64)

/-- The terms of those words (R278). -/
def State.rangeTerms (s : State) (tid base words : Nat) : List Nat :=
  (s.rangeClean base words).map fun j => fpTerm tid j (leNat (s.memRead (base + 4 * j) 4))

/-- The state once a range's lines are read and their poison is counted, and the range is no longer to be read. -/
def State.rangeRead (s : State) (n base words : Nat) : State :=
  ((s.flushRange base (4 * words)).countPoison (s.rangeBad base words)).modTally fun t =>
    { t with rangesLeft := t.rangesLeft.erase n, takenAt := s.now, poison := t.poison || !(s.rangeBad base words).isEmpty }

theorem State.flushRange_parts (s : State) (a n : Nat) : (s.flushRange a n).hbm = s.hbm ∧ (s.flushRange a n).now = s.now ∧
    (s.flushRange a n).cores = s.cores ∧ (s.flushRange a n).tally = s.tally := by
  have h := s.flushRange_beside a n
  exact ⟨State.part_of_beside State.hbm (fun _ => rfl) h, State.part_of_beside State.now (fun _ => rfl) h,
    State.part_of_beside State.cores (fun _ => rfl) h, State.part_of_beside State.tally (fun _ => rfl) h⟩

theorem exec_rangeFingerprintRead {s : State} {n : Fin 16} {m : Mark} (htaken : s.tally.taken = some m)
    (hleft : s.tally.rangesLeft.contains n.val = true) :
    let g := fun (f : Fld) => s.getF (f.at 32 n) 0; let base := g R.TLY.RANGE_BASEn.BASE * 4; let words := g R.TLY.RANGE_LENn.WORDS
    exec (.rangeFingerprintRead n) s = .next ((s.rangeRead n base words).contribute (rangeEntries (g R.TLY.RANGE_CTLn.CSET)
      (s.rangeBad base words).length (s.rangeClean base words).length ((s.rangeTerms (g R.TLY.RANGE_TIDn.TID) base words).sum % 2 ^ 64))) := by
  intro g base words
  obtain ⟨hhbm, hnow, -, -⟩ := s.flushRange_parts base (4 * words)
  have hcanon : (s.flushRange base (4 * words)).canon = s.canon := funext (State.canon_congr hhbm)
  have hread : (s.flushRange base (4 * words)).memRead = s.memRead := funext₂ (State.memRead_congr (s.flushRange_mem _ _) hhbm)
  have hcount : ((s.flushRange base (4 * words)).countPoison (s.rangeBad base words)).now = s.now := by
    rw [State.countPoison_eq]
    exact hnow
  have hsum (l : List Nat) : l.foldl (fun a b => (a + b) % 2 ^ 64) 0 = l.sum % 2 ^ 64 := by
    rw [foldl_add_mod _ _ _ (by decide), Nat.zero_add]
  refine (if_neg (by rw [htaken, hleft]; simp)).trans ?_
  dsimp only
  rw [hsum, hcanon, hread]
  unfold State.rangeRead
  rw [← hcount]
  rfl

/-- What the read of a range leaves of the state (R212, R278, R280). -/
theorem rangeRead_leaves (s : State) (n base words : Nat) : (s.rangeRead n base words).mem = s.mem ∧ (s.rangeRead n base words).cores = s.cores ∧
    (s.rangeRead n base words).tally = { s.tally with rangesLeft := s.tally.rangesLeft.erase n, takenAt := s.now,
                                                      poison := s.tally.poison || !(s.rangeBad base words).isEmpty } := by
  obtain ⟨-, -, hcores, htally⟩ := s.flushRange_parts base (4 * words)
  unfold State.rangeRead
  rw [State.countPoison_eq]
  refine ⟨s.flushRange_mem _ _, hcores, ?_⟩
  rw [← htally]
  rfl

theorem State.contribute_leaves (s : State) (e : Tab Nat) : let t := s.contribute e
    t.mem = s.mem ∧ t.cores = s.cores ∧ t.tally.rangesLeft = s.tally.rangesLeft ∧ t.tally.taken = s.tally.taken ∧
      t.tally.sets = e.foldl addEntry s.tally.sets := by
  have h := (s.tripped_contribute e).frame
  exact ⟨(congrArg State.mem h :), (congrArg State.cores h :), (congrArg (fun x : State => x.tally.rangesLeft) h :),
    (congrArg (fun x : State => x.tally.taken) h :), (congrArg (fun x : State => x.tally.sets) h :)⟩

/-! ### The obligation -/

theorem markCmdMark_holds (s : State) (hactive : s.active.isSome = true) (hhost : s.hosted 10 0 = true) :
    (s.getF R.TLY.MARK_CTL.SOURCE 0 ≠ 2 ∨ s.tally.waiting ≠ none → exec .markCmdMark s = .next s) ∧
    (s.getF R.TLY.MARK_CTL.SOURCE 0 = 2 → s.tally.waiting = none →
      exec .markCmdMark s = .next { s with tally := { s.tally with incoming := s.tally.incoming ++ [⟨none⟩] } }) := by
  rw [exec_markCmdMark hactive hhost]
  exact ⟨fun h => by rw [State.markWrite_ignored h], fun hsource hwait => by rw [State.markWrite_sends hsource hwait]; rfl⟩

/-- What the entries of a range's read make of its set. -/
theorem State.contribute_rangeEntries (u : State) {cset : Nat} (hcset : cset < 256) (bad clean fp : Nat) :
    let t := u.contribute (rangeEntries cset bad clean fp)
    t.mem = u.mem ∧ t.cores = u.cores ∧ t.tally.rangesLeft = u.tally.rangesLeft ∧ t.tally.taken = u.tally.taken ∧
    Tab.get 0 t.tally.sets (setKey cset .nan) = min (2 ^ 32 - 1) (Tab.get 0 u.tally.sets (setKey cset .nan) + bad) ∧
    Tab.get 0 t.tally.sets (setKey cset .fpCount) = min (2 ^ 64 - 1) (Tab.get 0 u.tally.sets (setKey cset .fpCount) + clean) ∧
    Tab.get 0 t.tally.sets (setKey cset .fp) = (Tab.get 0 u.tally.sets (setKey cset .fp) + fp) % 2 ^ 64 ∧
    ∀ k, k ≠ setKey cset .fpCount → k ≠ setKey cset .fp → k ≠ setKey cset .nan → Tab.get 0 t.tally.sets k = Tab.get 0 u.tally.sets k := by
  obtain ⟨hmem, hcores, hleft, htaken, hsets⟩ := u.contribute_leaves (rangeEntries cset bad clean fp)
  have hsum := get_rangeEntries hcset u.tally.sets bad clean fp
  dsimp only at hsum
  rw [← hsets] at hsum
  exact ⟨hmem, hcores, hleft, htaken, hsum⟩

theorem rangeFingerprintRead_holds {s : State} {n : Fin 16} {m : Mark} {base words cset tid : Nat} (htaken : s.tally.taken = some m)
    (hleft : s.tally.rangesLeft.contains n.val = true) (hbase : s.getF (R.TLY.RANGE_BASEn.BASE.at 32 n) 0 * 4 = base)
    (hwords : s.getF (R.TLY.RANGE_LENn.WORDS.at 32 n) 0 = words) (hset : s.getF (R.TLY.RANGE_CTLn.CSET.at 32 n) 0 = cset)
    (htid : s.getF (R.TLY.RANGE_TIDn.TID.at 32 n) 0 = tid) (hcset : cset < 256) :
    ∃ (t : State), exec (.rangeFingerprintRead n) s = .next t ∧ t.mem = s.mem ∧ t.cores = s.cores ∧
      t.tally.rangesLeft = s.tally.rangesLeft.erase n ∧ t.tally.taken = some m ∧
      Tab.get 0 t.tally.sets (setKey cset .nan) = min (2 ^ 32 - 1) (Tab.get 0 s.tally.sets (setKey cset .nan) + (s.rangeBad base words).length) ∧
      Tab.get 0 t.tally.sets (setKey cset .fpCount) =
        min (2 ^ 64 - 1) (Tab.get 0 s.tally.sets (setKey cset .fpCount) + (s.rangeClean base words).length) ∧
      Tab.get 0 t.tally.sets (setKey cset .fp) = (Tab.get 0 s.tally.sets (setKey cset .fp) + (s.rangeTerms tid base words).sum) % 2 ^ 64 ∧
      ∀ k, k ≠ setKey cset .fpCount → k ≠ setKey cset .fp → k ≠ setKey cset .nan → Tab.get 0 t.tally.sets k = Tab.get 0 s.tally.sets k := by
  have hexec := exec_rangeFingerprintRead htaken hleft
  dsimp only at hexec
  rw [hbase, hwords, hset, htid] at hexec
  obtain ⟨hmem, hcores, htally⟩ := rangeRead_leaves s n base words
  have h := (s.rangeRead n base words).contribute_rangeEntries hcset (s.rangeBad base words).length (s.rangeClean base words).length
    ((s.rangeTerms tid base words).sum % 2 ^ 64)
  rw [hmem, hcores, htally, Nat.add_mod_mod] at h
  exact ⟨_, hexec, htaken ▸ h⟩

theorem tallyContributionArrival_holds {s : State} {c : Contrib} {r : List Contrib} (h : s.tally.transit = c :: r) :
    ∃ (t : State), exec .tallyContributionArrival s = .next t ∧ t = { s with regs := t.regs, tally := t.tally, fresh := t.fresh } ∧
      t.tally.transit = r ∧ t.tally.dev = s.tally.dev ∧ t.tally.sets = c.sets.foldl addEntry s.tally.sets := by
  have h' := (s.modTally fun t => { t with transit := r }).tripped_contribute c.sets
  refine ⟨_, ?_, h'.parts, (congrArg (fun x : State => x.tally.transit) h'.frame :), (congrArg (fun x : State => x.tally.dev) h'.frame :),
    (congrArg (fun x : State => x.tally.sets) h'.frame :)⟩
  show execTallyContributionArrival s = _
  rw [execTallyContributionArrival, h]

/-- Settles O35: a mark by its three outcomes, and the read of a range as a contribution of three entries. -/
theorem markCommands : Obligations.MarkCommands := by
  intro s
  refine ⟨markCmdMark_holds s, fun h => ?_, fun m r h => ⟨fun hwait hfree => ?_, fun hwait hfree => ?_, exec_markArrival_second h⟩,
    fun n m htaken hleft hcset => rangeFingerprintRead_holds htaken hleft rfl rfl rfl rfl hcset, fun c r h => tallyContributionArrival_holds h⟩
  · show execMarkArrival s = _
    rw [execMarkArrival, h]
  · exact ⟨_, exec_markArrival_takes h hwait (s.markFree_iff.2 hfree), rfl, rfl, rfl, rfl, rfl, State.getF_setF_same _ _ _ _⟩
  · exact exec_markArrival_waits h hwait fun hf => hfree (s.markFree_iff.1 hf)

end Sys2Proof.Machine
end

section
/-! Proofs. What the step gate, marks and holds keep of a state: a part of the state that their own writes leave alone is left
alone by each of them (R283 to R286, R289, R423). -/

namespace Sys2Proof.Machine

/-- The fields that the comparison of twins and their quarantine write. -/
def pairFields : List Fld := [R.TLY.HOLD.REQUESTED, R.TLY.HOLD.CAUSE_PAIR, R.TLY.PAIR_STATUS.MISMATCHES]

/-- A part of the state that neither the inputs of the step gate nor the comparison of twins touch. -/
structure GateKeeps {β : Type} (part : State → β) : Prop where
  twin : ∀ s (f : Twin → Twin), part (s.modGate fun g => { g with twin := f g.twin }) = part s
  sent : ∀ s a b, part (s.modGate fun g => { g with sentAt := a, sentGood := b }) = part s
  fab : ∀ s f, part (s.modFab f) = part s
  errs : ∀ s f, part (s.modErrs f) = part s
  module_ : ∀ s f, part (s.modModule f) = part s
  fresh : ∀ s fr, part { s with fresh := fr } = part s
  setF : ∀ s v, ∀ f ∈ pairFields, part (s.setF f 0 v) = part s

namespace GateKeeps
variable {β : Type} {part : State → β} (k : GateKeeps part)
include k

theorem tell (s : State) (dev : Nat) (body : List Byte) : part (s.tell dev body) = part s := by
  obtain ⟨ps, sent, h⟩ := s.tell_frame dev body
  rw [h, k.fab]

theorem tellChildren (s : State) (go : Bool) : part (s.tellChildren go) = part s := by
  obtain ⟨ps, sent, h⟩ := s.tellChildren_frame go
  rw [h, k.fab]

theorem gateProgress (s : State) : part s.gateProgress = part s := by
  obtain ⟨at_, good, ps, sent, h⟩ := s.gateProgress_frame
  rw [h, k.fab, k.sent]

theorem orF (s : State) (v : Nat) {f : Fld} (hf : f ∈ pairFields) : part (s.orF f 0 v) = part s :=
  (k.fresh (s.setF f 0 _) _).trans (k.setF s _ f hf)

theorem requestHold (s : State) : part (s.requestHold R.TLY.HOLD.CAUSE_PAIR) = part s :=
  (k.orF _ 1 (by decide)).trans (k.setF s 1 _ (by decide))

theorem report (s : State) (r : Report) : part (s.report r) = part s := k.errs s _

theorem holdPlane (s : State) (dev : Nat) : part (s.holdPlane dev) = part s := by
  unfold State.holdPlane
  dsimp only
  split
  · rw [k.requestHold, k.module_, k.report]
  · exact k.report s _

theorem compareTwins (s : State) : part s.compareTwins = part s := by
  unfold State.compareTwins
  dsimp only
  split
  · split_ifs
    · rfl
    · exact (k.holdPlane _ _).trans (k.twin s fun t => { t with late := true })
    · exact k.twin s fun t => { t with ok := true }
    · rw [k.report, k.orF _ 1 (by decide)]
      exact (k.setF _ _ R.TLY.PAIR_STATUS.MISMATCHES (by decide)).trans (k.twin s fun t => { t with differs := true })
  · rfl

end GateKeeps

/-- The gate of a step once it opens, without the inputs that come of it (R285, R289). -/
def State.gateOpened (s : State) (step : Nat) (own : Option (List Byte)) : State :=
  s.modGate fun g =>
    { g with step := step, active := true, decided := false, go := true, since := none, sentAt := none, missing := [], tree := s.gateTree,
             children := (g.early.filter fun e => e.2.1 == step).map fun e => (e.1, e.2.2), early := [],
             twin := { g.twin with own := own, since := some (g.twin.since.getD (false, s.now)), ok := false, differs := false } }

theorem State.openGate_eq (s : State) (step : Nat) (digest : List Byte) : ∃ own dev at_, ∃ b : Bool, s.openGate step digest =
    ((if b then (s.gateOpened step own).tell dev digest else s.gateOpened step own).modGate fun g =>
      { g with since := if g.children.isEmpty then none else some at_ }).compareTwins.gateProgress := by
  unfold State.openGate
  dsimp only
  generalize (if s.withdraws then none else some digest) = own
  exact ⟨own, _, _, _, rfl⟩

/-- What the gate does not touch at all stays when it opens. -/
theorem GateKeeps.openGate {β : Type} {part : State → β} (k : GateKeeps part) (hgate : ∀ s g, part (State.modGate s g) = part s) (s : State)
    (step : Nat) (digest : List Byte) : part (s.openGate step digest) = part s := by
  obtain ⟨own, dev, at_, b, h⟩ := s.openGate_eq step digest
  rw [h, k.gateProgress, k.compareTwins, hgate]
  split
  · rw [k.tell]
    exact hgate s _
  · exact hgate s _

/-- Whether a step is under the gate, and which. -/
def State.gateAt (s : State) : Bool × Nat := (s.tally.gate.active, s.tally.gate.step)

theorem gateKeeps_gateAt : GateKeeps State.gateAt :=
  ⟨fun _ _ => rfl, fun _ _ _ => rfl, fun _ _ => rfl, fun _ _ => rfl, fun _ _ => rfl, fun _ _ => rfl, fun _ _ _ _ => rfl⟩

/-- The gate that opens is that of the step. -/
theorem State.openGate_gateAt (s : State) (step : Nat) (digest : List Byte) : (s.openGate step digest).gateAt = (true, step) := by
  obtain ⟨own, dev, at_, b, h⟩ := s.openGate_eq step digest
  rw [h, gateKeeps_gateAt.gateProgress, gateKeeps_gateAt.compareTwins]
  split
  · exact gateKeeps_gateAt.tell (s.gateOpened step own) dev digest
  · rfl

/-! ### Joins at a mark (R255, R257) -/

section
variable {β : Type} {part : State → β} (hfab : ∀ s f, part (State.modFab s f) = part s)
  (hout : ∀ s (o : List Nat → List Nat), part (State.modGate s fun g => { g with out := o g.out }) = part s)
  (hjoined : ∀ s v, part (State.setF s R.LCH.FABRIC_ID.JOINED 0 v) = part s)
include hfab hout hjoined

theorem State.applyJoin_keeps (s : State) (j : Nat × Option Nat) : part (s.applyJoin j) = part s := by
  have hpartner (s : State) (d : Nat) (g : Partner → Partner) : part (s.modPartner d g) = part s :=
    hfab s fun f => { f with partners := Tab.set {} f.partners d (g (Tab.get {} f.partners d)) }
  have hleave (s : State) (o : List Nat → List Nat) (f : Fabric → Fabric) : part ((s.modFab f).modGate fun g => { g with out := o g.out }) = part s :=
    (hout _ o).trans (hfab s f)
  unfold State.applyJoin
  dsimp only
  split
  · split
    · exact (hjoined _ 1).trans (hleave s _ _)
    · exact (hpartner _ _ _).trans (hleave s _ _)
  · split
    · exact (hjoined _ 0).trans (hfab s _)
    · exact (hpartner _ _ _).trans (hfab s _)

theorem State.applyJoins_keeps (s : State) : part s.applyJoins = part s := by
  unfold State.applyJoins
  dsimp only
  split
  · rfl
  · generalize hu : State.modFab (each s.fab.joins s State.applyJoin) _ = u
    obtain ⟨tags, htags⟩ := s.rebuildTags_frame u.updatePorts
    obtain ⟨ps, hps⟩ := u.updatePorts_frame
    rw [htags, hfab, hps, hfab, ← hu, hfab]
    exact each_frame part _ s _ (State.applyJoin_keeps hfab hout hjoined)

end

/-! ### The end of a mark (R284, R423) -/

/-- The mark taken next changes the tally unit's own fields and shows BUSY (R274, R423). -/
theorem State.takeWaiting_keeps {β : Type} {part : State → β}
    (htally : ∀ s w k a r p, part (State.modTally s fun t => { t with waiting := w, taken := k, takenAt := a, rangesLeft := r, poison := p }) = part s)
    (hbusy : ∀ s v, part (State.setF s R.TLY.MARK_CMD.BUSY 0 v) = part s) (s : State) : part s.takeWaiting = part s := by
  unfold State.takeWaiting
  split
  · split
    · exact (hbusy _ 1).trans (htally s _ _ _ _ _)
    · rfl
  · rfl

theorem State.takeWaiting_none {s : State} (h : s.tally.waiting = none) : s.takeWaiting = s := by
  rw [State.takeWaiting, h]

theorem State.markDone_keeps {β : Type} {part : State → β} (hcore : ∀ s i g, part (State.modCore s i g) = part s)
    (hcluster : ∀ s c g, part (State.modCluster s c g) = part s) (hcount : ∀ s i, part (State.countInstr s i) = part s) (s : State) (m : Mark) :
    part (s.markDone m) = part s := by
  unfold State.markDone
  split
  · rfl
  · dsimp only
    split
    · rw [hcount, hcore, hcluster]
    · exact hcluster s _ _

/-- A TMARK that waited goes on when its mark completes, and no other core does (R284). -/
theorem State.core_markDone (s : State) {i : Nat} (h : (s.core i).atMark = some tmarkCode) (j : Nat) :
    (s.markDone ⟨some i⟩).core j = if j = i then (s.core i).goOn else s.core j := by
  unfold State.markDone
  dsimp only
  rw [State.modCluster_core, if_pos h]
  exact State.core_setCore _ i j _

theorem State.holdCore_keeps {β : Type} {part : State → β} (hcore : ∀ s i g, part (State.modCore s i g) = part s) (s : State) :
    part s.holdCore = part s := by
  unfold State.holdCore
  split
  · split
    · exact hcore s _ _
    · rfl
  · rfl

/-- The core whose TMARK is held shows it (R284). -/
theorem State.core_holdCore {s : State} {i : Nat} (hm : s.tally.heldMark = some ⟨some i⟩) (h : (s.core i).atMark = some tmarkCode) :
    s.holdCore.core i = { s.core i with st := .held } := by
  unfold State.holdCore
  simp [hm, h]

end Sys2Proof.Machine
end

section
/-! Proofs. TALLY_LATCH (R272, R274 to R276, R281, R283 to R285): the record's bytes, the state it is latched from, and what the
end of the latch leaves. -/

namespace Sys2Proof.Machine

/-! ### The record (R276) -/

theorem length_putBytes {l b : List Byte} {off : Nat} (h : off + b.length ≤ l.length) : (putBytes l off b).length = l.length := by
  simp only [putBytes, List.length_append, List.length_take, List.length_drop]
  omega

theorem take_putBytes {l b : List Byte} {off n : Nat} (h : off ≤ l.length) (hn : n ≤ off) : (putBytes l off b).take n = l.take n := by
  rw [putBytes, List.append_assoc, List.take_append_of_le_length (by rw [List.length_take]; omega), List.take_take, Nat.min_eq_left hn]

theorem length_setBytes (t : Tab Nat) (k : Nat) : (setBytes t k).length = 128 := by
  simp [setBytes, length_flatMap_range 17 4]

theorem length_setsArea (t : Tab Nat) : (setsArea t).length = 32768 := length_flatMap_range 256 128 _ fun k _ => length_setBytes t k

/-- The first 64 bytes of a record. -/
def State.recordStart (s : State) (held : Bool) : List Byte :=
  let t := s.tally
  let req := s.getF R.TLY.HOLD.REQUESTED 0 == 1
  let fl := (if req then 1 else 0) + (if held then 2 else 0) + (if t.nonReplay then 4 else 0) + (if t.poison then 8 else 0)
  let jid := s.getF R.TLY.MARK_CTL.JOB_ID 0
  natLE 4 (s.getF R.TLY.STEP.STEP 0) ++ natLE 2 (s.getF R.TLY.WRAP.WRAP 0) ++ natLE 1 2 ++ natLE 1 fl ++
    natLE 8 s.now ++ natLE 8 t.openTime ++ natLE 2 (s.devId + s.getF R.LCH.FABRIC_ID.JOINED 0 * 2 ^ 15) ++
    natLE 1 jid ++ natLE 1 (s.getF R.TLY.MARK_CTL.SOURCE 0) ++ natLE 2 ((t.fired.map (2 ^ ·)).sum) ++ natLE 2 0 ++
    padTo 32 (((s.job jid).map fun j => j.prog.hash).getD [])

/-- The counts of the device section. -/
def State.recordCounts (s : State) : List Byte :=
  let t := s.tally
  let dev := fun o => if o = 0x9C then Tab.get 0 t.sets smldKey else if o = 0xA4 then Tab.get 0 t.sets orderKey else Tab.get 0 t.dev o
  (List.range 14).flatMap fun i => natLE 4 (dev (0x80 + 4 * i))

def State.recordEnergy (s : State) : List Byte := (List.range 66).flatMap fun i => natLE 8 (Tab.get 0 s.tally.energy i)

def State.recordHead (s : State) (held : Bool) : List Byte := s.recordStart held ++ sha3_512 (setsArea s.tally.sets) ++ s.recordCounts

theorem State.tallyRecord_eq (s : State) (held : Bool) :
    s.tallyRecord held = putBytes (padTo 4096 (s.recordHead held)) 0x100 s.recordEnergy ++ setsArea s.tally.sets := rfl

theorem State.length_recordStart (s : State) (held : Bool) : (s.recordStart held).length = 64 := by
  simp [State.recordStart, length_padTo]

theorem State.length_recordHead (s : State) (held : Bool) : (s.recordHead held).length = 184 := by
  have hcounts : s.recordCounts.length = 14 * 4 := length_flatMap_range 14 4 _ fun _ _ => length_natLE _ _
  rw [State.recordHead, List.length_append, List.length_append, s.length_recordStart, length_sha3_512, hcounts]

theorem State.length_recordEnergy (s : State) : s.recordEnergy.length = 528 := length_flatMap_range 66 8 _ fun _ _ => length_natLE _ _

theorem State.length_tallyRecord (s : State) (held : Bool) : (s.tallyRecord held).length = 36864 := by
  rw [State.tallyRecord_eq, List.length_append, length_putBytes (by rw [length_padTo, s.length_recordEnergy]; decide), length_padTo, length_setsArea]

theorem State.take_tallyRecord (s : State) (held : Bool) : (s.tallyRecord held).take 184 = s.recordHead held := by
  have hlen : (putBytes (padTo 4096 (s.recordHead held)) 0x100 s.recordEnergy).length = 4096 := by
    rw [length_putBytes (by rw [length_padTo, s.length_recordEnergy]; decide), length_padTo]
  have h := take_padTo (n := 4096) (l := s.recordHead held) (by rw [s.length_recordHead]; decide)
  rw [s.length_recordHead] at h
  rw [State.tallyRecord_eq, List.take_append_of_le_length (by rw [hlen]; decide), take_putBytes (by rw [length_padTo]; decide) (by decide), h]

theorem State.step_tallyRecord (s : State) (held : Bool) (h : s.getF R.TLY.STEP.STEP 0 < 2 ^ 32) :
    leNat ((s.tallyRecord held).take 4) = s.getF R.TLY.STEP.STEP 0 := by
  have htake : (s.tallyRecord held).take 4 = natLE 4 (s.getF R.TLY.STEP.STEP 0) := by
    have hfirst : (s.tallyRecord held).take 4 = (s.recordHead held).take 4 := by
      rw [← s.take_tallyRecord, List.take_take]
      rfl
    rw [hfirst, State.recordHead, List.append_assoc, State.recordStart]
    simp only [List.append_assoc]
    rw [List.take_left' (by simp)]
  rw [htake, leNat_natLE]
  exact Nat.mod_eq_of_lt h

/-- STATE is 2, READY. -/
theorem State.state_tallyRecord (s : State) (held : Bool) : (s.tallyRecord held)[6]? = some 2 := by
  rw [← List.getElem?_take_of_lt (show 6 < 184 by decide), s.take_tallyRecord]
  rfl

/-- DIGEST is that of the counter sets. -/
theorem State.digest_tallyRecord (s : State) (held : Bool) : ((s.tallyRecord held).drop 0x40).take 64 = sha3_512 (setsArea s.tally.sets) := by
  have h : ((s.tallyRecord held).drop 0x40).take 64 = ((s.recordHead held).drop 64).take 64 := by
    rw [← s.take_tallyRecord, List.drop_take, List.take_take]
    rfl
  rw [h, State.recordHead, List.append_assoc, List.drop_left' (s.length_recordStart held), List.take_left' (length_sha3_512 _)]

theorem recordAddr_bounds (e : Nat) : 0x3BDC00000 ≤ recordAddr e ∧ recordAddr e + 36864 ≤ 0x3C0000000 := by
  unfold recordAddr
  omega


/-! ### The parts of TALLY_LATCH -/

/-- What the step is latched from: what was sent 1 µs before has arrived, and the tripwires have judged (R188, R274). -/
def State.latchFrom (s : State) : State :=
  (each (s.tally.transit.filter fun c => decide (c.at_ + 1000 ≤ s.now))
    (s.modTally fun t => { t with transit := t.transit.filter fun c => decide (s.now < c.at_ + 1000) })
    fun s c => s.contribute c.sets).tripAll

/-- A hold is requested for the open window. -/
def State.holdAsked (s : State) : Bool := s.getF R.TLY.HOLD.REQUESTED 0 == 1

/-- The record is written and the next window opens; the mark is no longer in progress (R272, R275, R281). -/
def State.latched (s : State) : State :=
  (((s.memWrite (servicePort 0) (recordAddr s.extStep) (s.tallyRecord s.holdAsked)).nextWindow).modTally fun t => { t with taken := none }).setF
    R.TLY.MARK_CMD.BUSY 0 0

/-- Where a program spans devices, the step's gate opens and shows a hold asked for; a single device holds (R283, R285). -/
def State.toGate (s : State) (held : Bool) (step : Nat) (digest : List Byte) : State :=
  let span := s.tally.gate.span
  let s := if held && !span then s.holdAt step else if held then (s.setF R.TLY.HOLD.HELD 0 1).setF R.TLY.HOLD_STEP.STEP 0 step else s
  if span then s.openGate step digest else s

/-- How the mark ends: it waits for the gate, is held, or completes (R284, R423). -/
def State.endMark (s : State) (span held : Bool) (m : Mark) : State :=
  if span && !held then if s.tally.gate.active then s.modTally fun t => { t with heldMark := some m } else (s.markDone m).takeWaiting
  else if held then (s.modTally fun t => { t with heldMark := some m }).holdCore
  else (s.markDone m).takeWaiting

/-- The state that a latch from `u` leaves. -/
def State.latchTo (u : State) (m : Mark) : State :=
  ((u.latched.toGate u.holdAsked (u.getF R.TLY.STEP.STEP 0) (((u.tallyRecord u.holdAsked).drop 0x40).take 64)).applyJoins).endMark
    u.latched.tally.gate.span u.holdAsked m

theorem next_ite (p q : Prop) [Decidable p] [Decidable q] (a b c : State) :
    (if p then .next a else if q then .next b else .next c : Ans) = .next (if p then a else if q then b else c) := by
  split_ifs <;> rfl

/-- The answer of a latch once the next window is open. -/
def State.gateAns (s : State) (held : Bool) (step : Nat) (digest : List Byte) (m : Mark) : Ans :=
  let span := s.tally.gate.span
  let s := if held && !span then s.holdAt step else if held then (s.setF R.TLY.HOLD.HELD 0 1).setF R.TLY.HOLD_STEP.STEP 0 step else s
  let s := if span then s.openGate step digest else s
  let s := s.applyJoins
  if span && !held then
    .next (if s.tally.gate.active then s.modTally fun t => { t with heldMark := some m } else (s.markDone m).takeWaiting)
  else if held then .next (s.modTally fun t => { t with heldMark := some m }).holdCore
  else .next ((s.markDone m).takeWaiting)

theorem State.gateAns_eq (s : State) (held : Bool) (step : Nat) (digest : List Byte) (m : Mark) :
    s.gateAns held step digest m = .next ((s.toGate held step digest).applyJoins.endMark s.tally.gate.span held m) :=
  next_ite _ _ _ _ _

/-- A latch whose time has come is that of `latchFrom`: every `let` of the model up to the gate is one of the parts above. -/
theorem exec_tallyLatch_gate {s : State} {m : Mark} (htaken : s.tally.taken = some m) (hranges : s.tally.rangesLeft = [])
    (htime : s.tally.takenAt + 1000 ≤ s.now) : exec .tallyLatch s = s.latchFrom.latched.gateAns s.latchFrom.holdAsked
      (s.latchFrom.getF R.TLY.STEP.STEP 0) (((s.latchFrom.tallyRecord s.latchFrom.holdAsked).drop 0x40).take 64) m := by
  have hcond : ¬ (!s.tally.rangesLeft.isEmpty || s.now < s.tally.takenAt + 1000) = true := by simp [hranges, htime]
  show execTallyLatch s = _
  unfold execTallyLatch
  rw [htaken]
  refine (if_neg hcond).trans ?_
  unfold State.latchFrom State.latched State.holdAsked
  rfl

theorem exec_tallyLatch {s : State} {m : Mark} (htaken : s.tally.taken = some m) (hranges : s.tally.rangesLeft = [])
    (htime : s.tally.takenAt + 1000 ≤ s.now) : exec .tallyLatch s = .next (s.latchFrom.latchTo m) :=
  (exec_tallyLatch_gate htaken hranges htime).trans (State.gateAns_eq _ _ _ _ _)

theorem exec_tallyLatch_early {s : State} (h : s.tally.taken = none ∨ s.tally.rangesLeft ≠ [] ∨ s.now < s.tally.takenAt + 1000) :
    exec .tallyLatch s = .next s := by
  show execTallyLatch s = _
  unfold execTallyLatch
  cases htaken : s.tally.taken with
  | none => rfl
  | some m =>
    refine if_pos ?_
    simpa [htaken] using h

/-! ### What the end of a latch leaves alone -/

/-- The fields that a hold and a join write. -/
def holdFields : List Fld := [R.TLY.HOLD.HELD, R.TLY.HOLD_STEP.STEP, R.TLY.HOLD.REQUESTED, R.LCH.FABRIC_ID.JOINED]

/-- A part of the state that neither the gate nor a hold nor a join touch. -/
structure HoldKeeps {β : Type} (part : State → β) : Prop extends GateKeeps part where
  gate : ∀ s g, part (State.modGate s g) = part s
  hold : ∀ s v, ∀ f ∈ holdFields, part (s.setF f 0 v) = part s

section
variable {β : Type} {part : State → β} (k : HoldKeeps part)
include k

theorem HoldKeeps.holdAt (s : State) (step : Nat) : part (s.holdAt step) = part s :=
  (k.hold _ _ _ (by decide)).trans ((k.hold _ _ _ (by decide)).trans (k.hold _ _ _ (by decide)))

theorem HoldKeeps.toGate (s : State) (held : Bool) (step : Nat) (digest : List Byte) : part (s.toGate held step digest) = part s := by
  have hhold (p q : Prop) [Decidable p] [Decidable q] :
      part (if p then s.holdAt step else if q then (s.setF R.TLY.HOLD.HELD 0 1).setF R.TLY.HOLD_STEP.STEP 0 step else s) = part s := by
    split_ifs
    · exact k.holdAt s step
    · exact (k.hold _ _ _ (by decide)).trans (k.hold _ _ _ (by decide))
    · rfl
  have hopen (u : State) (p : Prop) [Decidable p] : part (if p then u.openGate step digest else u) = part u := by
    split
    · exact k.openGate k.gate u step digest
    · rfl
  exact (hopen _ _).trans (hhold _ _)

theorem HoldKeeps.applyJoins (s : State) : part s.applyJoins = part s :=
  s.applyJoins_keeps k.fab (fun _ _ => k.gate _ _) fun _ _ => k.hold _ _ _ (by decide)

theorem HoldKeeps.gated (s : State) (held : Bool) (step : Nat) (digest : List Byte) :
    part (s.toGate held step digest).applyJoins = part s := (k.applyJoins _).trans (k.toGate s held step digest)

end

/-- A part of the state that the end of a mark does not touch either. -/
structure MarkKeeps {β : Type} (part : State → β) : Prop extends HoldKeeps part where
  heldMark : ∀ s m, part (State.modTally s fun t => { t with heldMark := m }) = part s
  taking : ∀ s w k a r p, part (State.modTally s fun t => { t with waiting := w, taken := k, takenAt := a, rangesLeft := r, poison := p }) = part s
  busy : ∀ s v, part (State.setF s R.TLY.MARK_CMD.BUSY 0 v) = part s
  core : ∀ s i g, part (State.modCore s i g) = part s
  cluster : ∀ s c g, part (State.modCluster s c g) = part s
  count : ∀ s i, part (State.countInstr s i) = part s

section
variable {β : Type} {part : State → β} (k : MarkKeeps part)
include k

theorem MarkKeeps.markDone (s : State) (m : Mark) : part (s.markDone m) = part s := State.markDone_keeps k.core k.cluster k.count s m

theorem MarkKeeps.takeWaiting (s : State) : part s.takeWaiting = part s := State.takeWaiting_keeps k.taking k.busy s

theorem MarkKeeps.holdCore (s : State) : part s.holdCore = part s := State.holdCore_keeps k.core s

theorem MarkKeeps.endMark (s : State) (span held : Bool) (m : Mark) : part (s.endMark span held m) = part s := by
  have hdone : part (s.markDone m).takeWaiting = part s := (k.takeWaiting _).trans (k.markDone s m)
  unfold State.endMark
  split_ifs
  · exact k.heldMark s _
  · exact hdone
  · exact (k.holdCore _).trans (k.heldMark s _)
  · exact hdone

theorem MarkKeeps.latchTo (u : State) (m : Mark) : part (u.latchTo m) = part u.latched := (k.endMark _ _ _ m).trans (k.gated _ _ _ _)

end

/-! ### The parts that the obligations speak of -/

/-- The counts of the open window, the AMAX latched, the step number and memory. -/
def State.tallyWindow (s : State) : (Tab Nat × Tab Nat × Tab Nat) × (Nat × Nat × Nat) × Tab Byte :=
  ((s.tally.sets, s.tally.dev, s.tally.prevAmax), (s.getF R.TLY.TW_FIRED.FIRED 0, s.getF R.TLY.STEP.STEP 0, s.getF R.TLY.WRAP.WRAP 0), s.mem)

theorem State.tallyWindow_setF (s : State) (f : Fld) (v i : Nat) (h1 : R.TLY.TW_FIRED.FIRED.key 0 ≠ f.key i) (h2 : R.TLY.STEP.STEP.key 0 ≠ f.key i)
    (h3 : R.TLY.WRAP.WRAP.key 0 ≠ f.key i) : (s.setF f i v).tallyWindow = s.tallyWindow := by
  unfold State.tallyWindow
  rw [State.getF_setF_ne s f _ i 0 v h1, State.getF_setF_ne s f _ i 0 v h2, State.getF_setF_ne s f _ i 0 v h3]
  rfl

theorem markKeeps_tallyWindow : MarkKeeps State.tallyWindow where
  twin _ _ := rfl
  sent _ _ _ := rfl
  fab _ _ := rfl
  errs _ _ := rfl
  module_ _ _ := rfl
  fresh _ _ := rfl
  setF s v f hf := by
    simp only [pairFields, List.mem_cons, List.not_mem_nil, or_false] at hf
    obtain rfl | rfl | rfl := hf <;> exact s.tallyWindow_setF _ v 0 (by decide) (by decide) (by decide)
  gate _ _ := rfl
  hold s v f hf := by
    simp only [holdFields, List.mem_cons, List.not_mem_nil, or_false] at hf
    obtain rfl | rfl | rfl | rfl := hf <;> exact s.tallyWindow_setF _ v 0 (by decide) (by decide) (by decide)
  heldMark _ _ := rfl
  taking _ _ _ _ _ _ := rfl
  busy s v := s.tallyWindow_setF _ v 0 (by decide) (by decide) (by decide)
  core _ _ _ := rfl
  cluster _ _ _ := rfl
  count s i := s.tallyWindow_setF _ _ i (Fld.key_ne_of_low (by decide) _ _) (Fld.key_ne_of_low (by decide) _ _) (Fld.key_ne_of_low (by decide) _ _)

/-- The state once the record is written (R276, R281). -/
def State.recorded (u : State) : State := u.memWrite (servicePort 0) (recordAddr u.extStep) (u.tallyRecord u.holdAsked)

theorem State.recordAddr_fits (u : State) (e : Nat) (held : Bool) : recordAddr e + (u.tallyRecord held).length ≤ spreadSize := by
  have := recordAddr_bounds e
  rw [u.length_tallyRecord]
  unfold spreadSize
  omega

theorem State.recorded_beside (u : State) : u.recorded.beside = u.beside := u.memWrite_spread_beside _ (u.recordAddr_fits _ _)

theorem State.recorded_tally (u : State) : u.recorded.tally = u.tally := State.part_of_beside State.tally (fun _ => rfl) u.recorded_beside

theorem State.recorded_extStep (u : State) : u.recorded.extStep = u.extStep := State.part_of_beside State.extStep (fun _ => rfl) u.recorded_beside

theorem State.recorded_getF (u : State) (f : Fld) : u.recorded.getF f 0 = u.getF f 0 :=
  State.part_of_beside (fun s => s.getF f 0) (fun _ => rfl) u.recorded_beside

/-- The record stands at its place, and no other byte changes. -/
theorem State.recorded_reads (u : State) {t : State} (hmem : t.mem = u.recorded.mem) :
    t.memRead (recordAddr u.extStep) 36864 = u.tallyRecord u.holdAsked ∧ u.memBut t (recordAddr u.extStep) 36864 := by
  have hfits := u.recordAddr_fits u.extStep u.holdAsked
  have hread := u.memRead_memWrite_same (servicePort 0) _ _ (u.linksUp_spread hfits) (u.canon_spread_inj hfits)
  have hbut := u.memBut_memWrite_spread (servicePort 0) hfits
  rw [u.length_tallyRecord] at hread hbut hfits
  exact ⟨(State.memRead_of_mem_spread hmem hfits).trans hread, fun k hk => (congrArg (Tab.get 0 · k) hmem).trans (hbut k hk)⟩

/-- The AMAX of each set, latched (R275). -/
def State.amaxLatched (s : State) : Tab Nat := (List.range 256).foldl (fun p k => Tab.set 0 p k (Tab.get 0 s.tally.sets (setKey k .amax))) []

theorem State.nextWindow_tally (s : State) : ∃ armed, s.nextWindow.tally =
    { s.tally with prevAmax := s.amaxLatched, sets := [], dev := [], energy := [], fired := [], openTime := s.now, nonReplay := false,
                   poison := false, armed := armed } := ⟨_, rfl⟩

theorem State.nextWindow_eq (s : State) : ∃ f v, s.nextWindow =
    (((s.setF R.TLY.STEP.STEP 0 (s.extStep + 1)).setF R.TLY.WRAP.WRAP 0 ((s.extStep + 1) / 2 ^ 32)).modTally f).setF R.TLY.MARK_TIME.TIME 0 v :=
  ⟨_, _, rfl⟩

/-- Where the window opens, the step goes on, with WRAP (R272). -/
theorem State.nextWindow_getF (s : State) : s.nextWindow.getF R.TLY.TW_FIRED.FIRED 0 = s.getF R.TLY.TW_FIRED.FIRED 0 ∧
    s.nextWindow.getF R.TLY.STEP.STEP 0 = (s.extStep + 1) % 2 ^ 32 ∧
    s.nextWindow.getF R.TLY.WRAP.WRAP 0 = (s.extStep + 1) / 2 ^ 32 % 2 ^ 16 := by
  obtain ⟨f, v, h⟩ := s.nextWindow_eq
  have htally (u : State) (g : Fld) : (u.modTally f).getF g 0 = u.getF g 0 := rfl
  generalize (s.extStep + 1) / 2 ^ 32 = w at h ⊢
  generalize s.extStep + 1 = e at h ⊢
  rw [h]
  refine ⟨?_, ?_, ?_⟩
  · rw [State.getF_setF_ne _ _ _ _ _ _ (by decide), htally, State.getF_setF_ne _ _ _ _ _ _ (by decide), State.getF_setF_ne _ _ _ _ _ _ (by decide)]
  · rw [State.getF_setF_ne _ _ _ _ _ _ (by decide), htally, State.getF_setF_ne _ _ _ _ _ _ (by decide), State.getF_setF_same]
    rfl
  · rw [State.getF_setF_ne _ _ _ _ _ _ (by decide), htally, State.getF_setF_same]
    rfl

theorem State.nextWindow_tallyWindow (s : State) : s.nextWindow.tallyWindow = (([], [], s.amaxLatched),
    (s.getF R.TLY.TW_FIRED.FIRED 0, (s.extStep + 1) % 2 ^ 32, (s.extStep + 1) / 2 ^ 32 % 2 ^ 16), s.mem) := by
  obtain ⟨armed, htally⟩ := s.nextWindow_tally
  obtain ⟨hfired, hstep, hwrap⟩ := s.nextWindow_getF
  have hmem : s.nextWindow.mem = s.mem := rfl
  unfold State.tallyWindow
  rw [hfired, hstep, hwrap, htally, hmem]

theorem State.recorded_amaxLatched (u : State) : u.recorded.amaxLatched = u.amaxLatched := by
  unfold State.amaxLatched
  rw [u.recorded_tally]

theorem State.latched_eq (u : State) : u.latched = (u.recorded.nextWindow.modTally fun t => { t with taken := none }).setF R.TLY.MARK_CMD.BUSY 0 0 :=
  rfl

theorem State.latched_tallyWindow (u : State) : u.latched.tallyWindow = (([], [], u.amaxLatched),
    (u.getF R.TLY.TW_FIRED.FIRED 0, (u.extStep + 1) % 2 ^ 32, (u.extStep + 1) / 2 ^ 32 % 2 ^ 16), u.recorded.mem) := by
  have htaken (s : State) (k : Option Mark) : (s.modTally fun t => { t with taken := k }).tallyWindow = s.tallyWindow := rfl
  rw [u.latched_eq, markKeeps_tallyWindow.busy, htaken, State.nextWindow_tallyWindow, u.recorded_amaxLatched, u.recorded_getF, u.recorded_extStep]

/-! ### What a step is latched from -/

theorem State.Tripped.withSets {s t : State} (h : s.Tripped t) (x : Tab Nat) :
    (s.modTally fun y => { y with sets := x }).Tripped (t.modTally fun y => { y with sets := x }) where
  frame := congrArg (fun z : State => z.modTally fun y => { y with sets := x }) h.frame
  regs := h.regs
  fired := h.fired

theorem each_cons {α : Type} (a : α) (l : List α) (s : State) (f : State → α → State) : each (a :: l) s f = each l (f s a) f := rfl

/-- Contributions change the counts, and tripwires may fire (R187, R273). -/
theorem State.tripped_contributions (l : List Contrib) (s : State) :
    ∃ x, (s.modTally fun y => { y with sets := x }).Tripped (each l s fun s c => s.contribute c.sets) := by
  induction l generalizing s with
  | nil => exact ⟨s.tally.sets, .refl s⟩
  | cons c l ih =>
    obtain ⟨x, h⟩ := ih (s.contribute c.sets)
    have hfirst : (s.modTally fun y => { y with sets := x }).Tripped ((s.contribute c.sets).modTally fun y => { y with sets := x }) :=
      (s.tripped_contribute c.sets).withSets x
    rw [each_cons]
    exact ⟨x, hfirst.trans h⟩

theorem State.latchFrom_tripped (s : State) : ∃ x, ({ s with tally :=
    { s.tally with transit := s.tally.transit.filter fun c => decide (s.now < c.at_ + 1000), sets := x } } : State).Tripped s.latchFrom := by
  obtain ⟨x, h⟩ := State.tripped_contributions (s.tally.transit.filter fun c => decide (c.at_ + 1000 ≤ s.now))
    (s.modTally fun t => { t with transit := t.transit.filter fun c => decide (s.now < c.at_ + 1000) })
  exact ⟨x, h.trans (State.tripped_tripAll _)⟩

theorem State.extStep_congr {s u : State} (hstep : u.getF R.TLY.STEP.STEP 0 = s.getF R.TLY.STEP.STEP 0)
    (hwrap : u.getF R.TLY.WRAP.WRAP 0 = s.getF R.TLY.WRAP.WRAP 0) : u.extStep = s.extStep := by
  rw [State.extStep, hstep, hwrap, State.extStep]

/-- The next step number under R272. -/
theorem nextStep_eq {wrap step : Nat} (h : step < 0xFFFFFFFF) :
    (wrap * 2 ^ 32 + step + 1) % 2 ^ 32 = step + 1 ∧ (wrap * 2 ^ 32 + step + 1) / 2 ^ 32 % 2 ^ 16 = wrap % 2 ^ 16 := by omega

theorem nextStep_wraps (wrap : Nat) : (wrap * 2 ^ 32 + 0xFFFFFFFF + 1) % 2 ^ 32 = 0 ∧
    (wrap * 2 ^ 32 + 0xFFFFFFFF + 1) / 2 ^ 32 % 2 ^ 16 = (wrap + 1) % 2 ^ 16 := by omega

/-! ### The obligations -/

theorem latchRestartsCounts_holds {s u : State} {m : Mark} (htaken : s.tally.taken = some m) (hranges : s.tally.rangesLeft = [])
    (htime : s.tally.takenAt + 1000 ≤ s.now) (hu : u = s.latchFrom) :
    ∃ (t : State), exec .tallyLatch s = .next t ∧ (∀ k, Tab.get 0 t.tally.sets k = 0 ∧ Tab.get 0 t.tally.dev k = 0) ∧
      (∀ k, k < 256 → Tab.get 0 t.tally.prevAmax k = Tab.get 0 u.tally.sets (setKey k .amax)) ∧
      t.getF R.TLY.TW_FIRED.FIRED 0 = u.getF R.TLY.TW_FIRED.FIRED 0 ∧
      (∀ n, flag (s.getF R.TLY.TW_FIRED.FIRED 0) n = true → n < 16 → flag (t.getF R.TLY.TW_FIRED.FIRED 0) n = true) ∧
      (s.getF R.TLY.STEP.STEP 0 < 0xFFFFFFFF → t.getF R.TLY.STEP.STEP 0 = s.getF R.TLY.STEP.STEP 0 + 1 ∧
        t.getF R.TLY.WRAP.WRAP 0 = s.getF R.TLY.WRAP.WRAP 0 % 2 ^ 16) ∧
      (s.getF R.TLY.STEP.STEP 0 = 0xFFFFFFFF → t.getF R.TLY.STEP.STEP 0 = 0 ∧
        t.getF R.TLY.WRAP.WRAP 0 = (s.getF R.TLY.WRAP.WRAP 0 + 1) % 2 ^ 16) := by
  obtain ⟨x, h⟩ := s.latchFrom_tripped
  rw [← hu] at h
  have hstep : u.getF R.TLY.STEP.STEP 0 = s.getF R.TLY.STEP.STEP 0 := h.getF (by decide)
  have hwrap : u.getF R.TLY.WRAP.WRAP 0 = s.getF R.TLY.WRAP.WRAP 0 := h.getF (by decide)
  have hfires : ∀ n, n < 16 → flag (s.getF R.TLY.TW_FIRED.FIRED 0) n = true → flag (u.getF R.TLY.TW_FIRED.FIRED 0) n = true := h.fired
  have hwindow := (markKeeps_tallyWindow.latchTo u m).trans u.latched_tallyWindow
  rw [State.extStep_congr hstep hwrap] at hwindow
  simp only [State.tallyWindow, Prod.mk.injEq] at hwindow
  obtain ⟨⟨hsets, hdev, hamax⟩, ⟨hfired, hstep', hwrap'⟩, -⟩ := hwindow
  refine ⟨_, hu ▸ exec_tallyLatch htaken hranges htime, fun k => ?_, fun k hk => ?_, hfired, fun n hn hlt => ?_, fun hlt => ?_, fun heq => ?_⟩
  · rw [hsets, hdev]
    exact ⟨rfl, rfl⟩
  · rw [hamax, State.amaxLatched, Tab.get_foldl_set_range, if_pos hk]
  · rw [hfired]
    exact hfires n hlt hn
  · obtain ⟨h1, h2⟩ := nextStep_eq (wrap := s.getF R.TLY.WRAP.WRAP 0) hlt
    exact ⟨hstep'.trans h1, hwrap'.trans h2⟩
  · obtain ⟨h1, h2⟩ := nextStep_wraps (s.getF R.TLY.WRAP.WRAP 0)
    rw [State.extStep, heq] at hstep' hwrap'
    exact ⟨hstep'.trans h1, hwrap'.trans h2⟩

/-- Settles O36: what follows the opening of the window touches neither the counts nor the step number. -/
theorem latchRestartsCounts : Obligations.LatchRestartsCounts :=
  fun _ _ htaken hranges htime => latchRestartsCounts_holds htaken hranges htime rfl

/-- What the marks and cores are once the window opens: the mark taken is no longer in progress. -/
def State.marksAt (s : State) : Option Mark × Option Mark × Tab CoreSite := (s.tally.taken, s.tally.waiting, s.cores)

theorem holdKeeps_marksAt : HoldKeeps State.marksAt where
  twin _ _ := rfl
  sent _ _ _ := rfl
  fab _ _ := rfl
  errs _ _ := rfl
  module_ _ _ := rfl
  fresh _ _ := rfl
  setF _ _ _ _ := rfl
  gate _ _ := rfl
  hold _ _ _ _ := rfl

theorem State.latched_tally (u : State) : u.latched.tally = { u.recorded.nextWindow.tally with taken := none } := by
  have htaken (v : State) : ((v.modTally fun t => { t with taken := none }).setF R.TLY.MARK_CMD.BUSY 0 0).tally = { v.tally with taken := none } := rfl
  rw [u.latched_eq, htaken]

theorem State.latched_cores (u : State) : u.latched.cores = u.cores := by
  have htaken (v : State) : ((v.modTally fun t => { t with taken := none }).setF R.TLY.MARK_CMD.BUSY 0 0).cores = v.cores := rfl
  have hnext (v : State) : v.nextWindow.cores = v.cores := rfl
  rw [u.latched_eq, htaken, hnext, State.part_of_beside State.cores (fun _ => rfl) u.recorded_beside]

theorem State.latched_span (u : State) : u.latched.tally.gate.span = u.tally.gate.span := by
  obtain ⟨armed, h⟩ := u.recorded.nextWindow_tally
  rw [u.latched_tally, h, u.recorded_tally]

theorem State.latched_marksAt (u : State) : u.latched.marksAt = (none, u.tally.waiting, u.cores) := by
  obtain ⟨armed, h⟩ := u.recorded.nextWindow_tally
  rw [State.marksAt, u.latched_cores, u.latched_tally, h, u.recorded_tally]

theorem State.latchFrom_of_transit {s : State} (h : s.tally.transit = []) : s.latchFrom = s.tripAll := by
  have hkeep : (s.modTally fun t => { t with transit := t.transit.filter fun c => decide (s.now < c.at_ + 1000) }) = s :=
    congrArg (fun y => ({ s with tally := { s.tally with transit := y } } : State))
      (show s.tally.transit.filter (fun c => decide (s.now < c.at_ + 1000)) = s.tally.transit by rw [h]; rfl)
  unfold State.latchFrom
  rw [h, hkeep]
  rfl

theorem State.endMark_held (x : State) (span : Bool) (m : Mark) :
    x.endMark span true m = (x.modTally fun t => { t with heldMark := some m }).holdCore := by
  cases span <;> rfl

theorem State.endMark_gate {x : State} (h : x.tally.gate.active = true) (m : Mark) :
    x.endMark true false m = x.modTally fun t => { t with heldMark := some m } := if_pos h

/-- Without a hold the marking core goes on (R284). -/
theorem State.endMark_goesOn {x : State} {site : Nat} (hwait : x.tally.waiting = none) (hmark : (x.core site).atMark = some tmarkCode) :
    (x.endMark false false ⟨some site⟩).core site = (x.core site).goOn := by
  have hkeep : (x.markDone ⟨some site⟩).tally = x.tally := State.markDone_keeps (fun _ _ _ => rfl) (fun _ _ _ => rfl) (fun _ _ => rfl) x _
  show ((x.markDone ⟨some site⟩).takeWaiting).core site = _
  rw [State.takeWaiting_none (by rw [hkeep, hwait]), State.core_markDone x hmark, if_pos rfl]

/-- A mark that does not complete is kept. -/
theorem State.tally_endMark {x : State} {span held : Bool} (m : Mark) (hspan : span = true → x.tally.gate.active = true)
    (hkept : span = true ∨ held = true) : (x.endMark span held m).tally = { x.tally with heldMark := some m } := by
  cases held with
  | true =>
    rw [x.endMark_held, State.holdCore_keeps (part := State.tally) fun _ _ _ => rfl]
    rfl
  | false =>
    obtain rfl : span = true := by simpa using hkept
    rw [State.endMark_gate (hspan rfl)]
    rfl

/-- No mark is in progress where none waits (R274, R423). -/
theorem State.taken_endMark {x : State} (htaken : x.tally.taken = none) (hwait : x.tally.waiting = none) (span held : Bool) (m : Mark) :
    (x.endMark span held m).tally.taken = none := by
  have hkeep : (x.markDone m).tally = x.tally := State.markDone_keeps (fun _ _ _ => rfl) (fun _ _ _ => rfl) (fun _ _ => rfl) x _
  have hdone : (x.markDone m).takeWaiting.tally.taken = none := by
    rw [State.takeWaiting_none (by rw [hkeep, hwait]), hkeep, htaken]
  have hheld : (x.modTally fun t => { t with heldMark := some m }).holdCore.tally.taken = none :=
    (State.holdCore_keeps (part := fun s => s.tally.taken) (fun _ _ _ => rfl) _).trans htaken
  unfold State.endMark
  split_ifs
  · exact htaken
  · exact hdone
  · exact hheld
  · exact hdone

/-- The step's gate is open once the joins of the mark are made. -/
theorem State.gateAt_gated (s : State) (held : Bool) (step : Nat) (digest : List Byte) (hspan : s.tally.gate.span = true) :
    (s.toGate held step digest).applyJoins.gateAt = (true, step) := by
  unfold State.toGate
  dsimp only
  rw [if_pos hspan, State.applyJoins_keeps (part := State.gateAt) (fun _ _ => rfl) (fun _ _ => rfl) fun _ _ => rfl]
  exact State.openGate_gateAt _ _ _

theorem State.holdAt_shows (s : State) (step : Nat) : (s.holdAt step).getF R.TLY.HOLD.HELD 0 = 1 ∧
    (s.holdAt step).getF R.TLY.HOLD_STEP.STEP 0 = step % 2 ^ 32 ∧ (s.holdAt step).getF R.TLY.HOLD.REQUESTED 0 = 0 := by
  rw [State.holdAt]
  refine ⟨?_, ?_, ?_⟩
  · rw [State.getF_setF_ne _ _ _ _ _ _ (by decide), State.getF_setF_ne _ _ _ _ _ _ (by decide), State.getF_setF_same]
    rfl
  · rw [State.getF_setF_ne _ _ _ _ _ _ (by decide), State.getF_setF_same]
    rfl
  · rw [State.getF_setF_same]
    rfl

/-- A single device holds at the step (R283). -/
theorem State.holds_gated (s : State) (step : Nat) (digest : List Byte) (hspan : s.tally.gate.span = false) :
    let x := (s.toGate true step digest).applyJoins; x.getF R.TLY.HOLD.HELD 0 = 1 ∧ x.getF R.TLY.HOLD_STEP.STEP 0 = step % 2 ^ 32 := by
  have hgate : s.toGate true step digest = s.holdAt step := by
    unfold State.toGate
    rw [hspan]
    rfl
  have hjoin (u : State) (f : Fld) (hf : f.key 0 ≠ R.LCH.FABRIC_ID.JOINED.key 0) : u.applyJoins.getF f 0 = u.getF f 0 :=
    State.applyJoins_keeps (part := fun u => u.getF f 0) (fun _ _ => rfl) (fun _ _ => rfl) (fun _ _ => State.getF_setF_ne _ _ _ _ _ _ hf) u
  dsimp only
  rw [hgate, hjoin _ _ (by decide), hjoin _ _ (by decide)]
  exact ⟨(s.holdAt_shows step).1, (s.holdAt_shows step).2.1⟩

/-- How a latch of one device's mark ends, single or in a plane, once the gate is open or the hold stands (R283 to R285). -/
theorem State.endMark_ends {u x : State} {span held : Bool} {site step : Nat} (htaken : x.tally.taken = none) (hwait : x.tally.waiting = none)
    (hcores : x.cores = u.cores) (hgate : span = true → x.gateAt = (true, step))
    (hholds : span = false → held = true → x.getF R.TLY.HOLD.HELD 0 = 1 ∧ x.getF R.TLY.HOLD_STEP.STEP 0 = step) :
    (x.endMark span held ⟨some site⟩).tally.taken = none ∧
    (span = false → held = false → (u.core site).atMark = some tmarkCode → (x.endMark span held ⟨some site⟩).core site = (u.core site).goOn) ∧
    (span = false → held = true → (u.core site).atMark = some tmarkCode →
      (x.endMark span held ⟨some site⟩).core site = { u.core site with st := .held } ∧
      (x.endMark span held ⟨some site⟩).getF R.TLY.HOLD.HELD 0 = 1 ∧ (x.endMark span held ⟨some site⟩).getF R.TLY.HOLD_STEP.STEP 0 = step ∧
      (x.endMark span held ⟨some site⟩).tally.heldMark = some ⟨some site⟩) ∧
    (span = true → (x.endMark span held ⟨some site⟩).tally.heldMark = some ⟨some site⟩ ∧
      (x.endMark span held ⟨some site⟩).tally.gate.active = true ∧ (x.endMark span held ⟨some site⟩).tally.gate.step = step) := by
  have hcore : x.core site = u.core site := by rw [State.core, hcores, State.core]
  refine ⟨State.taken_endMark htaken hwait _ _ _, fun hspan hheld hmark => ?_, fun hspan hheld hmark => ?_, fun hspan => ?_⟩
  · subst hspan hheld
    rw [State.endMark_goesOn hwait (by rw [hcore, hmark]), hcore]
  · obtain ⟨hheld', hstep⟩ := hholds hspan hheld
    subst hspan hheld
    have hkeep (f : Fld) : ((x.modTally fun t => { t with heldMark := some ⟨some site⟩ }).holdCore).getF f 0 = x.getF f 0 :=
      State.holdCore_keeps (part := fun s => s.getF f 0) (fun _ _ _ => rfl) _
    have hheldCore : ((x.modTally fun t => { t with heldMark := some ⟨some site⟩ }).holdCore).core site = { x.core site with st := .held } :=
      State.core_holdCore rfl (by rw [← hmark, ← hcore]; rfl)
    rw [State.tally_endMark _ (by simp) (.inr rfl), State.endMark_held, hkeep, hkeep, hheldCore, hcore]
    exact ⟨rfl, hheld', hstep, rfl⟩
  · have h := hgate hspan
    simp only [State.gateAt, Prod.mk.injEq] at h
    rw [State.tally_endMark _ (fun _ => h.1) (.inl hspan)]
    exact ⟨rfl, h.1, h.2⟩

/-- What a latch leaves before its mark ends. -/
theorem State.gated_latched (u : State) (held : Bool) (step : Nat) (digest : List Byte) (hstep : step < 2 ^ 32) :
    ∃ x, (u.latched.toGate held step digest).applyJoins = x ∧ x.tally.taken = none ∧ x.tally.waiting = u.tally.waiting ∧ x.cores = u.cores ∧
      (u.tally.gate.span = true → x.gateAt = (true, step)) ∧
      (u.tally.gate.span = false → held = true → x.getF R.TLY.HOLD.HELD 0 = 1 ∧ x.getF R.TLY.HOLD_STEP.STEP 0 = step) := by
  have hmarks := (holdKeeps_marksAt.gated u.latched held step digest).trans u.latched_marksAt
  simp only [State.marksAt, Prod.mk.injEq] at hmarks
  obtain ⟨htaken, hwait, hcores⟩ := hmarks
  rw [← u.latched_span]
  refine ⟨_, rfl, htaken, hwait, hcores, State.gateAt_gated _ _ _ _, fun hspan hheld => ?_⟩
  subst hheld
  obtain ⟨hheld, hstep'⟩ := State.holds_gated u.latched step digest hspan
  exact ⟨hheld, hstep'.trans (Nat.mod_eq_of_lt hstep)⟩

theorem State.latchTo_eq (u : State) (m : Mark) : ∃ digest, u.latchTo m =
    ((u.latched.toGate u.holdAsked (u.getF R.TLY.STEP.STEP 0) digest).applyJoins).endMark u.tally.gate.span u.holdAsked m := by
  rw [← u.latched_span]
  exact ⟨_, rfl⟩

theorem State.latchTo_mem (u : State) (m : Mark) : (u.latchTo m).mem = u.recorded.mem := by
  have h := (markKeeps_tallyWindow.latchTo u m).trans u.latched_tallyWindow
  simp only [State.tallyWindow, Prod.mk.injEq] at h
  exact h.2.2

theorem latchWritesRecord_holds {s u : State} {site : Nat} {held : Bool} (htaken : s.tally.taken = some ⟨some site⟩)
    (hranges : s.tally.rangesLeft = []) (htime : s.tally.takenAt + 1000 ≤ s.now) (htransit : s.tally.transit = [])
    (hwait : s.tally.waiting = none) (hu : u = s.tripAll) (hheld : u.holdAsked = held) (hstep : s.getF R.TLY.STEP.STEP 0 < 2 ^ 32) :
    ∃ (t : State), exec .tallyLatch s = .next t ∧
      (u.tallyRecord held).length = 36864 ∧ leNat ((u.tallyRecord held).take 4) = s.getF R.TLY.STEP.STEP 0 ∧ (u.tallyRecord held)[6]? = some 2 ∧
      ((u.tallyRecord held).drop 0x40).take 64 = sha3_512 (setsArea s.tally.sets) ∧
      t.memRead (recordAddr s.extStep) 36864 = u.tallyRecord held ∧ s.memBut t (recordAddr s.extStep) 36864 ∧
      0x3BDC00000 ≤ recordAddr s.extStep ∧ recordAddr s.extStep + 36864 ≤ 0x3C0000000 ∧ t.tally.taken = none ∧
      (s.tally.gate.span = false → held = false → (s.core site).atMark = some tmarkCode → t.core site = (s.core site).goOn) ∧
      (s.tally.gate.span = false → held = true → (s.core site).atMark = some tmarkCode → t.core site = { s.core site with st := .held } ∧
        t.getF R.TLY.HOLD.HELD 0 = 1 ∧ t.getF R.TLY.HOLD_STEP.STEP 0 = s.getF R.TLY.STEP.STEP 0 ∧ t.tally.heldMark = some ⟨some site⟩) ∧
      (s.tally.gate.span = true → t.tally.heldMark = some ⟨some site⟩ ∧ t.tally.gate.active = true ∧
        t.tally.gate.step = s.getF R.TLY.STEP.STEP 0) := by
  have hexec := exec_tallyLatch htaken hranges htime
  rw [State.latchFrom_of_transit htransit, ← hu] at hexec
  have h : s.Tripped u := hu ▸ s.tripped_tripAll
  have hstepU : u.getF R.TLY.STEP.STEP 0 = s.getF R.TLY.STEP.STEP 0 := h.getF (by decide)
  have hext : u.extStep = s.extStep := State.extStep_congr hstepU (h.getF (by decide))
  have htally : u.tally = { s.tally with fired := u.tally.fired } := congrArg State.tally h.frame
  have hcore : u.cores = s.cores := (congrArg State.cores h.frame :)
  have hmem : u.mem = s.mem := (congrArg State.mem h.frame :)
  have hspan : u.tally.gate.span = s.tally.gate.span := by rw [htally]
  have hsets : u.tally.sets = s.tally.sets := by rw [htally]
  obtain ⟨hread, hbut⟩ := u.recorded_reads (u.latchTo_mem ⟨some site⟩)
  rw [hext, hheld] at hread
  rw [hext] at hbut
  obtain ⟨digest, hto⟩ := u.latchTo_eq ⟨some site⟩
  obtain ⟨x, hx, htakenX, hwaitX, hcoresX, hgateX, hholdsX⟩ := u.gated_latched held (s.getF R.TLY.STEP.STEP 0) digest hstep
  rw [hspan] at hgateX hholdsX
  have hends := State.endMark_ends (site := site) htakenX (hwaitX.trans (by rw [htally]; exact hwait)) (hcoresX.trans hcore) hgateX hholdsX
  rw [hheld, hstepU, hx, hspan] at hto
  rw [← hto] at hends
  obtain ⟨hlow, hhigh⟩ := recordAddr_bounds s.extStep
  refine ⟨_, hexec, u.length_tallyRecord held, (u.step_tallyRecord held (by rwa [hstepU])).trans hstepU, u.state_tallyRecord held, ?_, hread,
    fun b hb => (hbut b hb).trans (by rw [hmem]), hlow, hhigh, hends⟩
  rw [u.digest_tallyRecord, hsets]

/-- Settles O37: the record is written once, and what follows is the gate, a hold or the end of the mark. -/
theorem latchWritesRecord : Obligations.LatchWritesRecord := fun _ =>
  ⟨exec_tallyLatch_early, fun _ htaken hranges htime htransit hwait hstep =>
    latchWritesRecord_holds htaken hranges htime htransit hwait rfl rfl hstep⟩

end Sys2Proof.Machine
end

section
/-! Proofs. The step gate and holds (R283 to R286): STEP_GATE_DECISION, STEP_GATE_INPUT, GATE_INPUT_TIMEOUT, GATE_DECISION_TIMEOUT, HOLD_REQ
and RELEASE. -/

namespace Sys2Proof.Machine

/-! ### The end of a hold (R284) -/

/-- The end of a hold keeps what neither HELD, the mark kept, its core nor the next mark's taking touch. -/
theorem State.releaseHold_keeps {β : Type} {part : State → β} (hheld : ∀ s v, part (State.setF s R.TLY.HOLD.HELD 0 v) = part s)
    (hkept : ∀ s m, part (State.modTally s fun t => { t with heldMark := m }) = part s) (hcore : ∀ s i g, part (State.modCore s i g) = part s)
    (hcluster : ∀ s c g, part (State.modCluster s c g) = part s) (hcount : ∀ s i, part (State.countInstr s i) = part s)
    (htaking : ∀ s w k a r p, part (State.modTally s fun t => { t with waiting := w, taken := k, takenAt := a, rangesLeft := r, poison := p }) = part s)
    (hbusy : ∀ s v, part (State.setF s R.TLY.MARK_CMD.BUSY 0 v) = part s) (s : State) : part s.releaseHold = part s := by
  unfold State.releaseHold
  split
  · rfl
  · dsimp only
    rw [State.takeWaiting_keeps htaking hbusy]
    split
    · rw [State.markDone_keeps hcore hcluster hcount, hkept, hheld]
    · exact hheld s 0

/-- All but the registers, the tally unit, the cores and the clusters. -/
def State.besideMarks (s : State) : State := { s with regs := [], tally := {}, cores := [], clusters := [] }

theorem State.releaseHold_besideMarks (s : State) : s.releaseHold.besideMarks = s.besideMarks :=
  State.releaseHold_keeps (fun _ _ => rfl) (fun _ _ => rfl) (fun _ _ _ => rfl) (fun _ _ _ => rfl) (fun _ _ => rfl) (fun _ _ _ _ _ _ => rfl)
    (fun _ _ => rfl) s

theorem State.eq_of_besideMarks {s t : State} (h : t.besideMarks = s.besideMarks) :
    t = { s with regs := t.regs, tally := t.tally, cores := t.cores, clusters := t.clusters } :=
  (congrArg (fun x : State => ({ x with regs := t.regs, tally := t.tally, cores := t.cores, clusters := t.clusters } : State)) h :)

/-- What the gate and the counts are is not the hold's. -/
theorem State.releaseHold_gate (s : State) : s.releaseHold.tally.gate = s.tally.gate ∧ s.releaseHold.tally.sets = s.tally.sets :=
  ⟨State.releaseHold_keeps (part := fun s => s.tally.gate) (fun _ _ => rfl) (fun _ _ => rfl) (fun _ _ _ => rfl) (fun _ _ _ => rfl)
      (fun _ _ => rfl) (fun _ _ _ _ _ _ => rfl) (fun _ _ => rfl) s,
    State.releaseHold_keeps (part := fun s => s.tally.sets) (fun _ _ => rfl) (fun _ _ => rfl) (fun _ _ _ => rfl) (fun _ _ _ => rfl)
      (fun _ _ => rfl) (fun _ _ _ _ _ _ => rfl) (fun _ _ => rfl) s⟩

theorem State.releaseHold_idle {s : State} (hheld : s.getF R.TLY.HOLD.HELD 0 = 0) (hmark : s.tally.heldMark = none) : s.releaseHold = s :=
  if_pos (by simp [hheld, hmark])

theorem State.releaseHold_unmarked {s : State} (hheld : s.getF R.TLY.HOLD.HELD 0 ≠ 0) (hmark : s.tally.heldMark = none) :
    s.releaseHold = (s.setF R.TLY.HOLD.HELD 0 0).takeWaiting := by
  refine (if_neg (by simp [hheld])).trans ?_
  dsimp only
  rw [show (s.setF R.TLY.HOLD.HELD 0 0).tally.heldMark = none from hmark]

theorem State.releaseHold_marked {s : State} {m : Mark} (hmark : s.tally.heldMark = some m) :
    s.releaseHold = (((s.setF R.TLY.HOLD.HELD 0 0).modTally fun t => { t with heldMark := none }).markDone m).takeWaiting := by
  refine (if_neg (by simp [hmark])).trans ?_
  dsimp only
  rw [show (s.setF R.TLY.HOLD.HELD 0 0).tally.heldMark = some m from hmark]

theorem State.releaseHold_held (s : State) : s.releaseHold.getF R.TLY.HOLD.HELD 0 = 0 := by
  have hafter (u : State) (h : u.getF R.TLY.HOLD.HELD 0 = 0) : u.takeWaiting.getF R.TLY.HOLD.HELD 0 = 0 :=
    (State.takeWaiting_keeps (part := fun s => s.getF R.TLY.HOLD.HELD 0) (fun _ _ _ _ _ _ => rfl)
      (fun _ _ => State.getF_setF_ne _ _ _ _ _ _ (by decide)) u).trans h
  have hset : (s.setF R.TLY.HOLD.HELD 0 0).getF R.TLY.HOLD.HELD 0 = 0 := State.getF_setF_same _ _ _ _
  cases hmark : s.tally.heldMark with
  | none =>
    by_cases hheld : s.getF R.TLY.HOLD.HELD 0 = 0
    · rw [State.releaseHold_idle hheld hmark, hheld]
    · rw [State.releaseHold_unmarked hheld hmark]
      exact hafter _ hset
  | some m =>
    rw [State.releaseHold_marked hmark]
    exact hafter _ ((State.markDone_keeps (part := fun s => s.getF R.TLY.HOLD.HELD 0) (fun _ _ _ => rfl) (fun _ _ _ => rfl)
      (fun _ i => State.getF_addF_ne _ _ _ i _ _ (Fld.key_ne_of_low (by decide) _ _)) _ m).trans hset)

/-- The TMARK that was held goes on, and no other core does. -/
theorem State.core_releaseHold {s : State} {site : Nat} (hwait : s.tally.waiting = none) (hmark : s.tally.heldMark = some ⟨some site⟩)
    (hcore : (s.core site).atMark = some tmarkCode) : s.releaseHold.core site = (s.core site).goOn ∧ s.coresBut s.releaseHold [site] := by
  have hkeep (u : State) : (u.markDone ⟨some site⟩).tally = u.tally := State.markDone_keeps (fun _ _ _ => rfl) (fun _ _ _ => rfl) (fun _ _ => rfl) u _
  have hgoes (i : Nat) : s.releaseHold.core i = if i = site then (s.core site).goOn else s.core i := by
    rw [State.releaseHold_marked hmark, State.takeWaiting_none]
    · exact State.core_markDone ((s.setF R.TLY.HOLD.HELD 0 0).modTally fun t => { t with heldMark := none }) hcore i
    · rw [hkeep]
      exact hwait
  exact ⟨(hgoes site).trans (if_pos rfl), fun i hi => (hgoes i).trans (if_neg (by simpa using hi))⟩

/-! ### The step's record shows the hold (R276) -/

theorem State.holdAt_tally (s : State) (step : Nat) : (s.holdAt step).tally = s.tally := rfl

theorem State.holdAt_cores (s : State) (step : Nat) : (s.holdAt step).cores = s.cores := rfl

/-- The place of FLAGS in the record of the step at the gate. -/
def State.heldFlags (s : State) : Nat := recordAddr (s.extStep + 2 ^ 48 - 1) + 7

theorem State.heldFlags_fits (s : State) (v : Nat) : s.heldFlags + (natLE 1 v).length ≤ spreadSize := by
  have := recordAddr_bounds (s.extStep + 2 ^ 48 - 1)
  rw [length_natLE]
  unfold State.heldFlags spreadSize
  omega

theorem State.markHeld_eq (s : State) : s.markHeld = s.memWrite (servicePort 0) s.heldFlags (natLE 1 (leNat (s.memRead s.heldFlags 1) ||| 2)) := rfl

theorem State.markHeld_beside (s : State) : s.markHeld.beside = s.beside := by
  rw [s.markHeld_eq]
  exact s.memWrite_spread_beside _ (s.heldFlags_fits _)

theorem State.markHeld_reads (s : State) {t : State} (hmem : t.mem = s.markHeld.mem) :
    flag (leNat (t.memRead s.heldFlags 1)) 1 = true ∧ s.memBut t s.heldFlags 1 := by
  have hfits := s.heldFlags_fits (leNat (s.memRead s.heldFlags 1) ||| 2)
  have hread := s.memRead_memWrite_same (servicePort 0) _ _ (s.linksUp_spread hfits) (s.canon_spread_inj hfits)
  have hbut := s.memBut_memWrite_spread (servicePort 0) hfits
  rw [length_natLE] at hread hbut hfits
  rw [s.markHeld_eq] at hmem
  refine ⟨?_, fun k hk => (congrArg (Tab.get 0 · k) hmem).trans (hbut k hk)⟩
  rw [State.memRead_of_mem_spread hmem hfits, hread, leNat_natLE, show 256 ^ 1 = 2 ^ 8 from rfl, flag_mod_two_pow _ 8 1 (by decide), flag_eq_testBit,
    Nat.testBit_or, show Nat.testBit 2 1 = true from rfl, Bool.or_true]

/-! ### The decision (R283 to R285) -/

section
variable {s : State} {go : Bool}

theorem exec_stepGateDecision_root (hactive : s.tally.gate.active = true) (hparent : s.gateParent = none) (hready : s.gateReady = true) :
    exec (.stepGateDecision go) s =
      .next ((s.tellChildren (s.gateGood && (s.getF R.LCH.FABRIC_ID.PAIR 0 == 0 || s.tally.gate.alone || go))).gateDecide
        (s.gateGood && (s.getF R.LCH.FABRIC_ID.PAIR 0 == 0 || s.tally.gate.alone || go))) := by
  show execStepGateDecision go s = _
  unfold execStepGateDecision
  rw [hparent]
  exact (if_pos hactive).trans (if_neg (by simp [hready]))

theorem exec_stepGateDecision_given (hactive : s.tally.gate.active = true) (hparent : s.gateParent.isSome = true)
    (hsent : s.tally.gate.sentAt.isSome = true) : exec (.stepGateDecision go) s = .next ((s.tellChildren go).gateDecide go) := by
  obtain ⟨d, hd⟩ := Option.isSome_iff_exists.1 hparent
  show execStepGateDecision go s = _
  unfold execStepGateDecision
  rw [hd]
  exact (if_pos hactive).trans (congrArg Host.Outcome.next (if_pos hsent))

theorem exec_stepGateDecision_early (hactive : s.tally.gate.active = true)
    (h : s.gateParent = none ∧ s.gateReady = false ∨ s.gateParent.isSome = true ∧ s.tally.gate.sentAt = none) :
    exec (.stepGateDecision go) s = .next s := by
  show execStepGateDecision go s = _
  unfold execStepGateDecision
  obtain ⟨hparent, hready⟩ | ⟨hparent, hsent⟩ := h
  · rw [hparent]
    exact (if_pos hactive).trans (if_pos (by simp [hready]))
  · obtain ⟨d, hd⟩ := Option.isSome_iff_exists.1 hparent
    rw [hd]
    exact (if_pos hactive).trans (congrArg Host.Outcome.next (if_neg (by simp [hsent])))

theorem exec_stepGateDecision_later (hactive : s.tally.gate.active = false) (hdecided : s.tally.gate.decided = true)
    (hgo : s.tally.gate.go = false) (hspan : s.tally.gate.span = true) : exec (.stepGateDecision true) s =
      .next (((s.modGate fun g => { g with go := true }).tellChildren true).releaseHold) :=
  (if_neg (by simp [hactive])).trans (if_pos (by simp [hdecided, hgo, hspan]))

theorem exec_stepGateDecision_over (hactive : s.tally.gate.active = false) : exec (.stepGateDecision false) s = .next s :=
  (if_neg (by simp [hactive])).trans (if_neg (by simp))

theorem State.gateGood_iff (hpair : s.getF R.LCH.FABRIC_ID.PAIR 0 = 0) :
    s.gateGood = true ↔ s.getF R.TLY.HOLD.REQUESTED 0 = 0 ∧ s.tally.gate.missing = [] ∧ ∀ c ∈ s.tally.gate.children, c.2 = true := by
  simp [State.gateGood, State.gateOwn, hpair, and_assoc]

end

/-- The gate once a decision is made. -/
def State.gateClosed (s : State) (go : Bool) : State :=
  s.modGate fun g => { g with active := false, decided := true, go := go, twin := {} }

/-- Where the cause of a hold is another device's, CAUSE_GATE shows it (R283). -/
def State.causeGate (s : State) (own : Bool) : State := if own then s else s.orF R.TLY.HOLD.CAUSE_GATE 0 1

theorem State.gateDecide_go (s : State) : s.gateDecide true = (s.gateClosed true).releaseHold := by
  unfold State.gateDecide
  exact if_pos rfl

theorem State.gateDecide_hold (s : State) : s.gateDecide false =
    (((s.gateClosed false).causeGate (s.getF R.TLY.HOLD.REQUESTED 0 == 1 || s.tally.gate.twin.differs)).markHeld.holdAt s.tally.gate.step).holdCore := by
  unfold State.gateDecide
  exact if_neg Bool.false_ne_true

/-- What a GO leaves: the hold ends (R284). -/
theorem State.gateDecide_go_leaves {s t : State} (ht : t = s.gateDecide true) (hwait : s.tally.waiting = none) :
    t.tally.gate.active = false ∧ t.tally.gate.go = true ∧
    t = { s with regs := t.regs, tally := t.tally, cores := t.cores, clusters := t.clusters } ∧ t.getF R.TLY.HOLD.HELD 0 = 0 ∧
    ∀ site, s.tally.heldMark = some ⟨some site⟩ → (s.core site).atMark = some tmarkCode → t.core site = (s.core site).goOn ∧ s.coresBut t [site] := by
  rw [s.gateDecide_go] at ht
  obtain ⟨hgate, -⟩ := (s.gateClosed true).releaseHold_gate
  have hcores (site : Nat) := State.core_releaseHold (s := s.gateClosed true) (site := site) hwait
  have hbeside := (s.gateClosed true).releaseHold_besideMarks
  have hheld := (s.gateClosed true).releaseHold_held
  rw [← ht] at hgate hcores hbeside hheld
  rw [hgate]
  exact ⟨rfl, rfl, State.eq_of_besideMarks hbeside, hheld, hcores⟩

/-- The state of which a HOLD makes its record. -/
def State.holdCaused (s : State) : State :=
  (s.gateClosed false).causeGate (s.getF R.TLY.HOLD.REQUESTED 0 == 1 || s.tally.gate.twin.differs)

/-- Before the record is written, the gate closes and CAUSE_GATE may show. -/
theorem State.holdCaused_keeps {β : Type} {part : State → β} (hgate : ∀ s g, part (State.modGate s g) = part s)
    (hfresh : ∀ s fr, part ({ s with fresh := fr } : State) = part s) (hcause : ∀ s v, part (State.setF s R.TLY.HOLD.CAUSE_GATE 0 v) = part s)
    (s : State) : part s.holdCaused = part s := by
  unfold State.holdCaused State.causeGate
  split
  · exact hgate s _
  · exact (hfresh ((s.gateClosed false).setF R.TLY.HOLD.CAUSE_GATE 0 _) _).trans ((hcause _ _).trans (hgate s _))

theorem State.holdCaused_gate (s : State) : s.holdCaused.tally = { s.tally with gate := (s.gateClosed false).tally.gate } := by
  unfold State.holdCaused State.causeGate
  split <;> rfl

theorem State.causeGate_holdCaused {s : State} (hreq : s.getF R.TLY.HOLD.REQUESTED 0 ≠ 1) (hdiffers : s.tally.gate.twin.differs = false) :
    s.holdCaused.getF R.TLY.HOLD.CAUSE_GATE 0 = 1 := by
  have hcause (x : Nat) : (x ||| 1) % 2 ^ 1 = 1 := by
    rw [pow_one, Nat.or_mod_two_eq_one]
    exact .inr rfl
  unfold State.holdCaused State.causeGate
  rw [if_neg (by simp [hreq, hdiffers]), State.getF_orF_same]
  exact hcause _

/-- What a HOLD leaves: the device holds at the step, and its record shows it (R276, R284). -/
theorem State.gateDecide_hold_leaves {s t : State} (ht : t = s.gateDecide false) :
    t.tally.gate.active = false ∧ t.tally.gate.go = false ∧ s.memBut t s.heldFlags 1 ∧ flag (leNat (t.memRead s.heldFlags 1)) 1 = true ∧
    t.getF R.TLY.HOLD.HELD 0 = 1 ∧ t.getF R.TLY.HOLD_STEP.STEP 0 = s.tally.gate.step % 2 ^ 32 ∧ t.getF R.TLY.HOLD.REQUESTED 0 = 0 ∧
    (∀ site, s.tally.heldMark = some ⟨some site⟩ → (s.core site).atMark = some tmarkCode → t.core site = { s.core site with st := .held }) ∧
    (s.getF R.TLY.HOLD.REQUESTED 0 ≠ 1 → s.tally.gate.twin.differs = false → t.getF R.TLY.HOLD.CAUSE_GATE 0 % 2 = 1) := by
  rw [s.gateDecide_hold, show (s.gateClosed false).causeGate _ = s.holdCaused from rfl] at ht
  have hcause := @State.causeGate_holdCaused s
  have htally := s.holdCaused_gate
  have hflags : s.holdCaused.heldFlags = s.heldFlags := s.holdCaused_keeps (part := State.heldFlags) (fun _ _ => rfl) (fun _ _ => rfl)
    fun u v => by
      unfold State.heldFlags State.extStep
      rw [State.getF_setF_ne _ _ _ _ _ _ (by decide), State.getF_setF_ne _ _ _ _ _ _ (by decide)]
  have hmem : s.holdCaused.mem = s.mem := s.holdCaused_keeps (fun _ _ => rfl) (fun _ _ => rfl) fun _ _ => rfl
  have hcores : s.holdCaused.cores = s.cores := s.holdCaused_keeps (fun _ _ => rfl) (fun _ _ => rfl) fun _ _ => rfl
  generalize s.holdCaused = x at *
  have hkeep (u : State) (f : Fld) : (u.holdCore).getF f 0 = u.getF f 0 := State.holdCore_keeps (part := fun u => u.getF f 0) (fun _ _ _ => rfl) u
  obtain ⟨hflag, hbut⟩ := x.markHeld_reads (t := t) (by
    rw [ht, State.holdCore_keeps (part := State.mem) fun _ _ _ => rfl, State.holdAt_mem])
  have htallyY : x.markHeld.tally = x.tally := State.part_of_beside State.tally (fun _ => rfl) x.markHeld_beside
  have hcoresY : x.markHeld.cores = x.cores := State.part_of_beside State.cores (fun _ => rfl) x.markHeld_beside
  have hcauseY : x.markHeld.getF R.TLY.HOLD.CAUSE_GATE 0 = x.getF R.TLY.HOLD.CAUSE_GATE 0 :=
    State.part_of_beside (fun u => u.getF R.TLY.HOLD.CAUSE_GATE 0) (fun _ => rfl) x.markHeld_beside
  generalize x.markHeld = y at *
  have htallyT : t.tally = x.tally := by
    rw [ht, State.holdCore_keeps (part := State.tally) fun _ _ _ => rfl, State.holdAt_tally, htallyY]
  obtain ⟨hheld, hstep, hreq⟩ := y.holdAt_shows s.tally.gate.step
  rw [hflags] at hflag hbut
  refine ⟨?_, ?_, fun b hb => (hbut b hb).trans (congrArg (Tab.get 0 · b) hmem), hflag, ?_, ?_, ?_, fun site hmark hcore => ?_, fun hr hd => ?_⟩
  · rw [htallyT, htally]
    rfl
  · rw [htallyT, htally]
    rfl
  · rw [ht, hkeep, hheld]
  · rw [ht, hkeep, hstep]
  · rw [ht, hkeep, hreq]
  · have hmarked : (y.holdAt s.tally.gate.step).tally.heldMark = some ⟨some site⟩ := by
      rw [← hmark, State.holdAt_tally, htallyY, htally]
    have hsite : (y.holdAt s.tally.gate.step).core site = s.core site := by
      rw [State.core, State.holdAt_cores, hcoresY, hcores, State.core]
    rw [ht, State.core_holdCore hmarked (by rw [hsite, hcore]), hsite]
  · have hcaused : (y.holdAt s.tally.gate.step).getF R.TLY.HOLD.CAUSE_GATE 0 = y.getF R.TLY.HOLD.CAUSE_GATE 0 := by
      rw [State.holdAt, State.getF_setF_ne _ _ _ _ _ _ (by decide), State.getF_setF_ne _ _ _ _ _ _ (by decide),
        State.getF_setF_ne _ _ _ _ _ _ (by decide)]
    rw [ht, hkeep, hcaused, hcauseY, hcause hr hd]

/-- What a decision leaves once the children are told. -/
theorem State.decide_leaves {s t : State} {d : Bool} (ht : t = (s.tellChildren d).gateDecide d) (hwait : s.tally.waiting = none) :
    t.tally.gate.active = false ∧ t.tally.gate.go = d ∧
    (d = true → t = { s with regs := t.regs, tally := t.tally, fab := t.fab, cores := t.cores, clusters := t.clusters } ∧
      t.getF R.TLY.HOLD.HELD 0 = 0 ∧
      ∀ site, s.tally.heldMark = some ⟨some site⟩ → (s.core site).atMark = some tmarkCode → t.core site = (s.core site).goOn ∧ s.coresBut t [site]) ∧
    (d = false → s.memBut t s.heldFlags 1 ∧ flag (leNat (t.memRead s.heldFlags 1)) 1 = true ∧ t.getF R.TLY.HOLD.HELD 0 = 1 ∧
      t.getF R.TLY.HOLD_STEP.STEP 0 = s.tally.gate.step % 2 ^ 32 ∧ t.getF R.TLY.HOLD.REQUESTED 0 = 0 ∧
      (∀ site, s.tally.heldMark = some ⟨some site⟩ → (s.core site).atMark = some tmarkCode → t.core site = { s.core site with st := .held }) ∧
      (s.getF R.TLY.HOLD.REQUESTED 0 ≠ 1 → s.tally.gate.twin.differs = false → t.getF R.TLY.HOLD.CAUSE_GATE 0 % 2 = 1)) := by
  obtain ⟨ps, sent, htell⟩ := s.tellChildren_frame d
  rw [htell] at ht
  cases d with
  | true =>
    obtain ⟨hactive, hgo, hframe, hheld, hcores⟩ := State.gateDecide_go_leaves ht hwait
    exact ⟨hactive, hgo, fun _ => ⟨hframe.trans (by rw [hframe]; rfl), hheld, hcores⟩, nofun⟩
  | false =>
    obtain ⟨hactive, hgo, hleaves⟩ := State.gateDecide_hold_leaves ht
    exact ⟨hactive, hgo, nofun, fun _ => hleaves⟩

/-! ### Inputs of the gate (R285, R286) -/

theorem exec_stepGateInput_stranger {s : State} {dev : Fin 4096} {step : BitVec 32} {good : Bool} (h : s.gateChildren.contains dev.val = false) :
    exec (.stepGateInput dev step good) s = .next s := if_pos (by rw [h]; rfl)

theorem exec_stepGateInput_early {s : State} {dev : Fin 4096} {step : BitVec 32} {good : Bool} (h : s.gateChildren.contains dev.val = true)
    (hgate : ¬ (s.tally.gate.active = true ∧ s.tally.gate.step = step.toNat)) (hstep : step.toNat = s.getF R.TLY.STEP.STEP 0) :
    exec (.stepGateInput dev step good) s = .next (s.modGate fun g => { g with early := g.early ++ [(dev.val, step.toNat, good)] }) := by
  refine (if_neg (by rw [h]; exact Bool.false_ne_true)).trans ((if_neg ?_).trans (if_pos hstep))
  simpa using hgate

theorem stepGateInput_holds {s : State} {dev : Fin 4096} {step : BitVec 32} {good : Bool} (h : s.gateChildren.contains dev.val = true)
    (hactive : s.tally.gate.active = true) (hstep : s.tally.gate.step = step.toNat) :
    ∃ (t : State), exec (.stepGateInput dev step good) s = .next t ∧ t = { s with tally := t.tally, fab := t.fab } ∧
      (dev.val, good) ∈ t.tally.gate.children ∧ t.tally.gate.since = some (s.tally.gate.since.getD s.now) := by
  obtain ⟨at_, sent, ps, nsent, hframe⟩ := (s.modGate fun g =>
    { g with children := (g.children.filter fun c => c.1 != dev.val) ++ [(dev.val, good)], since := some (g.since.getD s.now) }).gateProgress_frame
  refine ⟨_, (if_neg (by rw [h]; exact Bool.false_ne_true)).trans (if_pos (by simp [hactive, hstep])), ?_⟩
  rw [hframe]
  exact ⟨rfl, List.mem_append_right _ (List.mem_singleton_self _), rfl⟩

/-- A report that the gate goes on after (R285, R286). -/
theorem State.report_progress (u : State) (r : Report) : ∃ (t : State) (r' : Report), (u.report r).gateProgress = t ∧
    t = { u with tally := t.tally, fab := t.fab, errs := t.errs } ∧ t.tally.gate.missing = u.tally.gate.missing ∧
    t.tally.gate.out = u.tally.gate.out ∧ t.errs.reports = u.errs.reports ++ [r'] ∧ r'.cls = r.cls ∧ r'.code = r.code ∧ r'.dev = r.dev := by
  obtain ⟨at_, good, ps, sent, hframe⟩ := (u.report r).gateProgress_frame
  refine ⟨_, _, hframe, rfl, rfl, rfl, rfl, rfl, rfl, rfl⟩

theorem gateInputTimeout_holds {s : State} {dev : Fin 4096} (hchild : s.gateChildren.contains dev.val = true) (hactive : s.tally.gate.active = true)
    (hsent : (s.tally.gate.children.any fun c => c.1 == dev.val) = false) (hmissing : s.tally.gate.missing.contains dev.val = false)
    (hlate : (∃ u, s.tally.gate.since = some u ∧ u + 1000000 ≤ s.now) ∨ (s.partner dev).st = 2) :
    ∃ (t : State) (r : Report), exec (.gateInputTimeout dev) s = .next t ∧
      t = { s with tally := t.tally, fab := t.fab, errs := t.errs } ∧ t.tally.gate.missing = s.tally.gate.missing ++ [dev.val] ∧
      t.tally.gate.out = s.tally.gate.out ++ [dev.val] ∧ t.errs.reports = s.errs.reports ++ [r] ∧ r.cls = 6 ∧ r.code = 4 ∧ r.dev = dev.val := by
  have hdue : ¬ (!s.tally.gate.active || !s.gateChildren.contains dev.val || (s.tally.gate.children.any fun c => c.1 == dev.val) ||
      s.tally.gate.missing.contains dev.val || !((match s.tally.gate.since with
        | some t => decide (t + 1000000 ≤ s.now)
        | none => false) || (s.partner dev).st == 2)) = true := by
    rw [hactive, hchild, hsent, hmissing]
    obtain ⟨u, hu, htime⟩ | hst := hlate
    · simp [hu, htime]
    · simp [hst]
  obtain ⟨t, r, ht, hframe, hmiss, hout, hreports, hcls, hcode, hdev⟩ :=
    (s.modGate fun g => { g with missing := g.missing ++ [dev.val], out := g.out ++ [dev.val] }).report_progress
      { cls := 6, code := 4, dev := dev, unit := rootUnit, repo := rootUnit, detail := dev, remote := true }
  exact ⟨t, r, (if_neg hdue).trans (congrArg Host.Outcome.next ht), hframe, hmiss, hout, hreports, hcls, hcode, hdev⟩

/-- The gate goes on: only its own record and the packets sent differ, and who is out of the tree stays. -/
theorem State.progress_leaves (u : State) : ∃ t, u.gateProgress = t ∧ t = { u with tally := t.tally, fab := t.fab } ∧
    t.tally.gate.out = u.tally.gate.out := by
  obtain ⟨at_, good, ps, sent, hframe⟩ := u.gateProgress_frame
  exact ⟨_, hframe, rfl, rfl⟩

theorem gateDecisionTimeout_holds {s : State} {u d : Nat} (hsent : s.tally.gate.sentAt = some u) (hparent : s.gateParent = some d)
    (hactive : s.tally.gate.active = true) (htime : u + 1000000 ≤ s.now) : ∃ (t : State), exec .gateDecisionTimeout s = .next t ∧
      t = { s with tally := t.tally, fab := t.fab } ∧ t.tally.gate.out = s.tally.gate.out ++ [d] := by
  have hexec : exec .gateDecisionTimeout s =
      .next (s.rebuildTags (s.modGate fun g => { g with out := g.out ++ [d], sentAt := none })).gateProgress := by
    show execGateDecisionTimeout s = _
    unfold execGateDecisionTimeout
    dsimp only
    rw [hsent, hparent]
    exact if_neg (by simp [hactive, htime])
  obtain ⟨tags, htags⟩ := s.rebuildTags_frame (s.modGate fun g => { g with out := g.out ++ [d], sentAt := none })
  rw [htags] at hexec
  obtain ⟨t, ht, hframe, hout⟩ := State.progress_leaves
    ((s.modGate fun g => { g with out := g.out ++ [d], sentAt := none }).modFab fun f => { f with tags := tags })
  exact ⟨t, hexec.trans (congrArg Host.Outcome.next ht), hframe, hout⟩

/-! ### HOLD_REQ and RELEASE (R283, R284) -/

theorem exec_holdReq {s : State} (hactive : s.active.isSome = true) (hhost : s.hosted 10 0 = true) : exec .holdReq s = .next s.holdWrite := by
  show Host.Outcome.next (s.asActive fun s => if s.hosted 10 0 then s.holdWrite else s) = _
  rw [State.asActive_active hactive, if_pos hhost]

theorem exec_release {s : State} (hactive : s.active.isSome = true) (hhost : s.hosted 10 0 = true) : exec .release s = .next s.releaseWrite := by
  show Host.Outcome.next (s.asActive fun s => if s.hosted 10 0 then s.releaseWrite else s) = _
  rw [State.asActive_active hactive, if_pos hhost]

theorem State.requestHold_control (s : State) : let t := s.requestHold R.TLY.HOLD.CAUSE_CONTROL
    t.getF R.TLY.HOLD.REQUESTED 0 = 1 ∧ t.getF R.TLY.HOLD.CAUSE_CONTROL 0 = 1 ∧
    s.regsBut t [R.TLY.HOLD.REQUESTED.key 0, R.TLY.HOLD.CAUSE_CONTROL.key 0] := by
  have hcause (x : Nat) : (x ||| 1) % 2 ^ 1 = 1 := by
    rw [pow_one, Nat.or_mod_two_eq_one]
    exact .inr rfl
  refine ⟨?_, ?_, State.regsBut_trans (s.regsBut_setF R.TLY.HOLD.REQUESTED 0 1) (State.regsBut_orF _ R.TLY.HOLD.CAUSE_CONTROL 0 1)⟩
  · rw [State.requestHold, State.getF_orF_ne _ _ _ _ _ _ (by decide), State.getF_setF_same]
    rfl
  · rw [State.requestHold, State.getF_orF_same]
    exact hcause _

theorem holdReq_holds {s : State} (hactive : s.active.isSome = true) (hhost : s.hosted 10 0 = true) :
    ∃ (t : State), exec .holdReq s = .next t ∧ t = { s with regs := t.regs, tally := t.tally, fab := t.fab, fresh := t.fresh } ∧
      t.getF R.TLY.HOLD.REQUESTED 0 = 1 ∧ t.getF R.TLY.HOLD.CAUSE_CONTROL 0 = 1 ∧ t.tally = { s.tally with gate := t.tally.gate } ∧
      (s.tally.gate.active = false → t.tally = s.tally ∧ t.fab = s.fab) ∧
      s.regsBut t [R.TLY.HOLD.REQUESTED.key 0, R.TLY.HOLD.CAUSE_CONTROL.key 0] := by
  obtain ⟨hreq, hcause, hbut⟩ := s.requestHold_control
  obtain ⟨at_, good, ps, sent, hframe⟩ := (s.requestHold R.TLY.HOLD.CAUSE_CONTROL).gateProgress_frame
  refine ⟨s.holdWrite, exec_holdReq hactive hhost, ?_, ?_, ?_, ?_, fun hgate => ?_, ?_⟩
  · rw [State.holdWrite, hframe]
    rfl
  · rw [State.holdWrite, hframe]
    exact hreq
  · rw [State.holdWrite, hframe]
    exact hcause
  · rw [State.holdWrite, hframe]
    rfl
  · rw [State.holdWrite, State.gateProgress_inactive (s := s.requestHold R.TLY.HOLD.CAUSE_CONTROL) hgate]
    exact ⟨rfl, rfl⟩
  · rw [State.holdWrite, hframe]
    exact hbut

section
variable {s : State}

theorem State.releaseWrite_single (hspan : s.tally.gate.span = false) :
    s.releaseWrite = (s.modGate fun g => { g with active := false, decided := true, go := true }).releaseHold := if_neg (by simp [hspan])

theorem State.releaseWrite_root (hspan : s.tally.gate.span = true) (hroot : s.isRoot = true) (hgate : s.tally.gate.active = false)
    (hheld : s.getF R.TLY.HOLD.HELD 0 ≠ 0) :
    s.releaseWrite = ((s.modGate fun g => { g with decided := true, go := true }).tellChildren true).releaseHold :=
  (if_pos hspan).trans (if_neg (by simp [hroot, hgate, hheld]))

theorem State.releaseWrite_refused (hspan : s.tally.gate.span = true)
    (h : s.isRoot = false ∨ s.tally.gate.active = true ∨ s.getF R.TLY.HOLD.HELD 0 = 0) : s.releaseWrite = s := by
  refine (if_pos hspan).trans (if_pos ?_)
  obtain h | h | h := h <;> simp [h]

end

/-- Settles O38: each command by its condition, and what a decision leaves by the two ways it can go. -/
theorem gateCommands : Obligations.GateCommands := by
  refine ⟨fun s => ⟨fun go hactive => ⟨exec_stepGateDecision_root hactive, exec_stepGateDecision_given hactive,
      exec_stepGateDecision_early hactive⟩, fun hgate => ⟨exec_stepGateDecision_later hgate, exec_stepGateDecision_over hgate⟩,
      State.gateGood_iff, fun d hwait => State.decide_leaves rfl hwait, fun dev step good hchild => ⟨stepGateInput_holds hchild,
        exec_stepGateInput_early hchild⟩, fun dev step good => exec_stepGateInput_stranger, fun dev => gateInputTimeout_holds,
      fun u d => gateDecisionTimeout_holds⟩, fun s hactive hhost => ⟨holdReq_holds hactive hhost, ?_⟩⟩
  rw [exec_release hactive hhost]
  refine ⟨fun hspan hwait => ?_, fun hspan => ⟨fun hroot hgate hheld => by rw [State.releaseWrite_root hspan hroot hgate hheld],
    fun h => by rw [State.releaseWrite_refused hspan h]⟩⟩
  rw [State.releaseWrite_single hspan]
  refine ⟨fun site hheld hmark hcore => ⟨_, rfl, ?_⟩, fun hheld hmark => ⟨_, congrArg Host.Outcome.next (State.releaseHold_idle hheld hmark)⟩⟩
  obtain ⟨hgoes, hbut⟩ := State.core_releaseHold
    (s := s.modGate fun g => { g with active := false, decided := true, go := true }) hwait hmark hcore
  exact ⟨State.eq_of_besideMarks (State.releaseHold_besideMarks _), State.releaseHold_held _, hgoes, hbut, (State.releaseHold_gate _).2⟩

end Sys2Proof.Machine
end

section
/-! Proofs. Twins (R289 to R291, R320, R321): TWIN_DIGEST_ARRIVAL, TWIN_REPLAY_COMPLETE, TWIN_DIGEST_TIMEOUT and PLANE_REJOIN. -/

namespace Sys2Proof.Machine

/-! ### Parts that the gate's progress and a plane's hold leave alone -/

theorem State.gateProgress_keeps {β : Type} {part : State → β} (hsent : ∀ s a b, part (State.modGate s fun g => { g with sentAt := a, sentGood := b }) = part s)
    (hfab : ∀ s f, part (State.modFab s f) = part s) (s : State) : part s.gateProgress = part s := by
  obtain ⟨at_, good, ps, sent, h⟩ := s.gateProgress_frame
  rw [h, hfab, hsent]

/-- The twins' digests and what came of them, the registers, memory and the reports. -/
def State.twinSide (s : State) : (Twin × Bool) × Tab Nat × Tab Byte × List Report :=
  ((s.tally.gate.twin, s.tally.gate.alone), s.regs, s.mem, s.errs.reports)

theorem State.gateProgress_twinSide (s : State) : s.gateProgress.twinSide = s.twinSide :=
  State.gateProgress_keeps (fun _ _ _ => rfl) (fun _ _ => rfl) s

/-- What is to be shown of the twins' side of a state holds where it is made by the gate's progress. -/
theorem State.twinSide_gateProgress {p : (Twin × Bool) × Tab Nat × Tab Byte × List Report → Prop} {s : State} (h : p s.twinSide) :
    p s.gateProgress.twinSide := s.gateProgress_twinSide ▸ h

/-- The report of a quarantined device (R291, R320). -/
theorem State.holdPlane_report (s : State) (dev : Nat) : ∃ r : Report, r.cls = 8 ∧ r.code = 6 ∧ r.dev = dev ∧
    s.holdPlane dev = if dev = s.devId then
      ((s.modErrs fun e => { e with reports := e.reports ++ [r] }).modModule fun m =>
        { m with quarantined := if m.quarantined.contains rootUnit then m.quarantined else m.quarantined ++ [rootUnit] }).requestHold R.TLY.HOLD.CAUSE_PAIR
    else s.modErrs fun e => { e with reports := e.reports ++ [r] } := ⟨_, rfl, rfl, rfl, rfl⟩

theorem State.holdPlane_other {s : State} {dev : Nat} (h : dev ≠ s.devId) : ∃ r : Report, r.cls = 8 ∧ r.code = 6 ∧ r.dev = dev ∧
    s.holdPlane dev = s.modErrs fun e => { e with reports := e.reports ++ [r] } := by
  obtain ⟨r, hcls, hcode, hdev, hr⟩ := s.holdPlane_report dev
  exact ⟨r, hcls, hcode, hdev, hr.trans (if_neg h)⟩

theorem State.holdPlane_own {s : State} {dev : Nat} (h : dev = s.devId) : ∃ r : Report, r.cls = 8 ∧ r.code = 6 ∧ r.dev = dev ∧ s.holdPlane dev =
    ((s.modErrs fun e => { e with reports := e.reports ++ [r] }).modModule fun m =>
      { m with quarantined := if m.quarantined.contains rootUnit then m.quarantined else m.quarantined ++ [rootUnit] }).requestHold
        R.TLY.HOLD.CAUSE_PAIR := by
  obtain ⟨r, hcls, hcode, hdev, hr⟩ := s.holdPlane_report dev
  exact ⟨r, hcls, hcode, hdev, hr.trans (if_pos h)⟩

theorem State.devId_xor_ne (s : State) : s.devId ^^^ 0x800 ≠ s.devId := by
  intro h
  have := Nat.xor_right_injective (h.trans (Nat.xor_zero _).symm)
  cases this

/-- A quarantined plane keeps what neither the report nor HOLD's bits touch. -/
theorem State.holdPlane_keeps {β : Type} {part : State → β} (herrs : ∀ s f, part (State.modErrs s f) = part s)
    (hmodule : ∀ s f, part (State.modModule s f) = part s) (hfresh : ∀ s fr, part ({ s with fresh := fr } : State) = part s)
    (hreq : ∀ s v, part (State.setF s R.TLY.HOLD.REQUESTED 0 v) = part s) (hcause : ∀ s v, part (State.setF s R.TLY.HOLD.CAUSE_PAIR 0 v) = part s)
    (s : State) (dev : Nat) : part (s.holdPlane dev) = part s := by
  obtain ⟨r, -, -, -, h⟩ := s.holdPlane_report dev
  rw [h]
  split
  · exact (hfresh (State.setF _ _ 0 _) _).trans ((hcause _ _).trans ((hreq _ 1).trans ((hmodule _ _).trans (herrs s _))))
  · exact herrs s _

theorem State.requestHold_pair (s : State) : (s.requestHold R.TLY.HOLD.CAUSE_PAIR).getF R.TLY.HOLD.REQUESTED 0 = 1 := by
  rw [State.requestHold, State.getF_orF_ne _ _ _ _ _ _ (by decide), State.getF_setF_same]
  rfl

/-- A plane that holds keeps its memory, its gate, and every register but HOLD's. -/
theorem gateKeeps_memGate : GateKeeps fun s => (s.mem, s.tally.gate.alone) := by
  exact ⟨fun _ _ => rfl, fun _ _ _ => rfl, fun _ _ => rfl, fun _ _ => rfl, fun _ _ => rfl, fun _ _ => rfl, fun _ _ _ _ => rfl⟩

/-! ### The first digests (R289, R320) -/

theorem notLate {c : Bool × Nat} {now : Nat} (h : c.1 = false ∨ c.2 = now) : decide (c.1 && c.2 + 1000000 ≤ now) = false := by
  refine decide_eq_false ?_
  rw [Bool.and_eq_true, decide_eq_true_eq]
  rintro ⟨hfirst, hlate⟩
  obtain h | h := h
  · rw [h] at hfirst
    cases hfirst
  · omega

section
variable {s : State} {d : List Byte}

theorem exec_twinDigestArrival_ignored (h : s.tally.gate.alone = true ∨ s.tally.gate.twin.other.isSome = true) :
    exec (.twinDigestArrival d) s = .next s := by
  refine if_pos ?_
  obtain h | h := h <;> simp [h]

/-- The digest of the twin is kept, with its time where it is the first. -/
def State.twinCame (s : State) (d : List Byte) : State :=
  s.modGate fun g => { g with twin := { g.twin with other := some d, since := some (g.twin.since.getD (true, s.now)) } }

theorem State.twinCame_now : (s.twinCame d).now = s.now := rfl

theorem State.twinCame_since : (s.twinCame d).tally.gate.twin.since = some (s.tally.gate.twin.since.getD (true, s.now)) := rfl

theorem exec_twinDigestArrival (hpair : s.getF R.LCH.FABRIC_ID.PAIR 0 = 1) (halone : s.tally.gate.alone = false)
    (hother : s.tally.gate.twin.other = none) : exec (.twinDigestArrival d) s = .next (s.twinCame d).compareTwins.gateProgress :=
  if_neg (by simp [hpair, halone, hother])

end

theorem State.compareTwins_none {s : State} (h : s.tally.gate.twin.own = none) : s.compareTwins = s := by
  unfold State.compareTwins
  dsimp only
  rw [h]

/-- The mismatch counts and shows its cause (R283, R289). -/
def State.mismatched (s : State) : State :=
  ((s.modGate fun g => { g with twin := { g.twin with differs := true } }).addF R.TLY.PAIR_STATUS.MISMATCHES 0 1).orF R.TLY.HOLD.CAUSE_PAIR 0 1

/-- The state once the twins' digests are seen to differ, and it is reported (R289). -/
def State.twinsDiffer (s : State) : State :=
  s.mismatched.report
    { cls := 6, code := 6, dev := s.mismatched.devId, unit := rootUnit, repo := rootUnit, detail := s.mismatched.devId ^^^ 0x800 }

section
variable {s : State} {a b : List Byte} (hown : s.tally.gate.twin.own = some a) (hother : s.tally.gate.twin.other = some b)
  (hok : s.tally.gate.twin.ok = false) (hdiffers : s.tally.gate.twin.differs = false) (hlate : s.tally.gate.twin.late = false)
  (hsince : (s.tally.gate.twin.since.any fun c => decide (c.1 && c.2 + 1000000 ≤ s.now)) = false)
include hown hother hok hdiffers hlate hsince

theorem State.compareTwins_both :
    s.compareTwins = if a = b then s.modGate fun g => { g with twin := { g.twin with ok := true } } else s.twinsDiffer := by
  unfold State.compareTwins
  dsimp only
  rw [hown, hother]
  exact (if_neg (by simp [hok, hdiffers, hlate])).trans (if_neg (ne_true_of_eq_false hsince))

end

theorem State.twinsDiffer_leaves {s t : State} {n : Nat} {l : List Report} (ht : t.twinSide = s.twinsDiffer.twinSide)
    (hok : s.tally.gate.twin.ok = false) (hn : s.getF R.TLY.PAIR_STATUS.MISMATCHES 0 = n) (hl : s.errs.reports = l) :
    t.tally.gate.twin.ok = false ∧ t.tally.gate.twin.differs = true ∧ t.getF R.TLY.HOLD.CAUSE_PAIR 0 % 2 = 1 ∧
    t.getF R.TLY.PAIR_STATUS.MISMATCHES 0 = min 65535 (n + 1) ∧
    ∃ r : Report, t.errs.reports = l ++ [r] ∧ r.cls = 6 ∧ r.code = 6 := by
  simp only [State.twinSide, Prod.mk.injEq] at ht
  obtain ⟨⟨htwin, -⟩, hregs, -, hreports⟩ := ht
  have hf (f : Fld) : t.getF f 0 = s.twinsDiffer.getF f 0 := by rw [State.getF, hregs, State.getF]
  have hkept (u : State) (f : Fld) (r : Report) : (u.report r).getF f 0 = u.getF f 0 := rfl
  subst hl
  rw [htwin, hf, hf, State.twinsDiffer, hkept, hkept, State.mismatched]
  refine ⟨hok, rfl, ?_, ?_, _, hreports, rfl, rfl⟩
  · have hcause (x : Nat) : (x ||| 1) % 2 ^ 1 % 2 = 1 := by
      rw [pow_one, Nat.or_mod_two_eq_one.2 (.inr rfl)]
    rw [State.getF_orF_same]
    exact hcause _
  · rw [State.getF_orF_ne _ _ _ _ _ _ (by decide), State.getF_addF_same, ← hn]
    rfl

theorem State.holdPlane_tally (s : State) (dev : Nat) : (s.holdPlane dev).tally = s.tally := by
  unfold State.holdPlane
  dsimp only
  split <;> rfl

theorem State.compareTwins_other (s : State) : s.compareTwins.tally.gate.twin.other = s.tally.gate.twin.other := by
  unfold State.compareTwins
  dsimp only
  split
  · split_ifs
    · rfl
    · rw [State.holdPlane_tally]
      rfl
    · rfl
    · rfl
  · rfl

theorem gateKeeps_mem : GateKeeps State.mem :=
  ⟨fun _ _ => rfl, fun _ _ _ => rfl, fun _ _ => rfl, fun _ _ => rfl, fun _ _ => rfl, fun _ _ => rfl, fun _ _ _ _ => rfl⟩

theorem twinDigestArrival_holds {s : State} {d : List Byte} (hpair : s.getF R.LCH.FABRIC_ID.PAIR 0 = 1) (hother : s.tally.gate.twin.other = none)
    (halone : s.tally.gate.alone = false) : ∃ (t : State), exec (.twinDigestArrival d) s = .next t ∧ t.tally.gate.twin.other = some d ∧
      t.mem = s.mem ∧ (s.tally.gate.twin.own = none → t.regs = s.regs ∧ t.tally.gate.twin.ok = s.tally.gate.twin.ok) ∧
      ∀ a, s.tally.gate.twin.own = some a → s.tally.gate.twin.ok = false → s.tally.gate.twin.differs = false → s.tally.gate.twin.late = false →
        (∀ c, s.tally.gate.twin.since = some c → c.1 = false) →
        (d = a → t.tally.gate.twin.ok = true ∧ t.regs = s.regs) ∧
        (d ≠ a → t.tally.gate.twin.ok = false ∧ t.tally.gate.twin.differs = true ∧ t.getF R.TLY.HOLD.CAUSE_PAIR 0 % 2 = 1 ∧
          t.getF R.TLY.PAIR_STATUS.MISMATCHES 0 = min 65535 (s.getF R.TLY.PAIR_STATUS.MISMATCHES 0 + 1) ∧
          ∃ r : Report, t.errs.reports = s.errs.reports ++ [r] ∧ r.cls = 6 ∧ r.code = 6) := by
  have hside := (s.twinCame d).compareTwins.gateProgress_twinSide
  have hmem : (s.twinCame d).compareTwins.gateProgress.mem = s.mem :=
    (gateKeeps_mem.gateProgress _).trans (gateKeeps_mem.compareTwins (s.twinCame d))
  have hkept : (s.twinCame d).compareTwins.gateProgress.tally.gate.twin.other = some d :=
    (State.gateProgress_keeps (part := fun u => u.tally.gate.twin.other) (fun _ _ _ => rfl) (fun _ _ => rfl) _).trans
      (s.twinCame d).compareTwins_other
  refine ⟨_, exec_twinDigestArrival hpair halone hother, hkept, hmem, fun hown => ?_, fun a hown hok hdiffers hlate hsince => ?_⟩
  · rw [State.compareTwins_none (s := s.twinCame d) hown] at hside ⊢
    simp only [State.twinSide, Prod.mk.injEq] at hside
    obtain ⟨⟨htwin, -⟩, hregs, -⟩ := hside
    exact ⟨hregs, (congrArg Twin.ok htwin :)⟩
  · have hyoung : ((s.twinCame d).tally.gate.twin.since.any fun c => decide (c.1 && c.2 + 1000000 ≤ (s.twinCame d).now)) = false := by
      rw [State.twinCame_since, State.twinCame_now, Option.any_some]
      refine notLate ?_
      cases hs : s.tally.gate.twin.since with
      | none => exact .inr rfl
      | some c => exact .inl (hsince c hs)
    have hboth := State.compareTwins_both (s := s.twinCame d) hown rfl hok hdiffers hlate hyoung
    rw [hboth] at hside ⊢
    refine ⟨fun heq => ?_, fun hne => ?_⟩
    · rw [if_pos heq.symm] at hside ⊢
      simp only [State.twinSide, Prod.mk.injEq] at hside
      obtain ⟨⟨htwin, -⟩, hregs, -⟩ := hside
      exact ⟨(congrArg Twin.ok htwin :), hregs⟩
    · rw [if_neg (Ne.symm hne)] at hside ⊢
      exact State.twinsDiffer_leaves (s := s.twinCame d) hside hok rfl rfl

/-! ### The replay (R290, R291, R320) -/

theorem majority_twin {a b : List Byte} (h : a ≠ b) : majority [some a, some b, some b, some b] = some b := by
  simp [majority, List.findSome?, h, h.symm]

theorem majority_own {a b : List Byte} (h : a ≠ b) : majority [some a, some b, some a, some a] = some a := by
  simp [majority, List.findSome?, h.symm]

theorem majority_none {a b : List Byte} {own twin : Option (List Byte)} (h : a ≠ b) (ha : ¬ (own = some a ∧ twin = some a))
    (hb : ¬ (own = some b ∧ twin = some b)) : majority [some a, some b, own, twin] = none := by
  refine List.findSome?_eq_none_iff.2 fun x _ => ?_
  cases x with
  | none => rfl
  | some d =>
    refine if_neg ?_
    simp only [List.countP_cons, List.countP_nil, beq_iff_eq, Option.some.injEq]
    by_cases had : a = d
    · subst had
      rw [if_pos rfl, if_neg h.symm]
      grind
    · rw [if_neg had]
      by_cases hbd : b = d
      · subst hbd
        rw [if_pos rfl]
        grind
      · rw [if_neg hbd]
        split_ifs <;> omega

/-- The comparison is settled (R291). -/
def State.twinsSettled (s : State) : State := s.modGate fun g => { g with twin := { g.twin with ok := true } }

/-- The memory that a replay formed is taken, range by range (R290, R291). -/
def State.adoptMemory (s : State) (state : List (Nat × List Byte)) : State :=
  each state s fun s p => if s.memRange p.1 p.2.length then s.memWrite (servicePort 0) p.1 p.2 else s

/-- The transient of this device counts, with its time (R291). -/
def State.countTransient (s : State) : State :=
  (s.addF R.TLY.PAIR_STATUS.TRANSIENTS 0 1).modGate fun g => { g with transients := g.transients ++ [(s.addF R.TLY.PAIR_STATUS.TRANSIENTS 0 1).now] }

/-- A device with three transients in a day is quarantined (R320). -/
def State.judgeTransients (s : State) : State :=
  if 3 ≤ s.tally.gate.transients.countP fun t => decide (s.now < t + 86400000000000) then (s.holdPlane s.devId).gateProgress else s.gateProgress

section
variable {s : State} {a b : List Byte} (hown : s.tally.gate.twin.own = some a) (hother : s.tally.gate.twin.other = some b)
  (hdiffers : s.tally.gate.twin.differs = true) (hok : s.tally.gate.twin.ok = false) (hne : a ≠ b)
include hown hother hdiffers hok hne

theorem exec_twinReplayComplete_adopts (state : List (Nat × List Byte)) : exec (.twinReplayComplete (some b) (some b) state) s =
    .next ((s.twinsSettled.adoptMemory state).countTransient).judgeTransients := by
  show execTwinReplayComplete (some b) (some b) s state = _
  unfold execTwinReplayComplete
  dsimp only
  rw [hown, hother]
  refine (if_neg (by simp [hdiffers, hok])).trans ?_
  rw [majority_twin hne]
  refine (if_neg (by simp)).trans ?_
  rw [if_neg (show ¬ some b ≠ some b by simp), if_neg hne]
  rfl

theorem exec_twinReplayComplete_stays (state : List (Nat × List Byte)) : exec (.twinReplayComplete (some a) (some a) state) s =
    .next s.twinsSettled.gateProgress := by
  show execTwinReplayComplete (some a) (some a) s state = _
  unfold execTwinReplayComplete
  dsimp only
  rw [hown, hother]
  refine (if_neg (by simp [hdiffers, hok])).trans ?_
  rw [majority_own hne]
  refine (if_neg (by simp)).trans ?_
  rw [if_neg (show ¬ some a ≠ some a by simp)]
  exact if_pos rfl

theorem exec_twinReplayComplete_unresolved {own twin : Option (List Byte)} (state : List (Nat × List Byte))
    (ha : ¬ (own = some a ∧ twin = some a)) (hb : ¬ (own = some b ∧ twin = some b)) : exec (.twinReplayComplete own twin state) s =
      .next ((s.addF R.TLY.PAIR_STATUS.UNRESOLVED 0 1).requestHold R.TLY.HOLD.CAUSE_PAIR).gateProgress := by
  show execTwinReplayComplete own twin s state = _
  unfold execTwinReplayComplete
  dsimp only
  rw [hown, hother]
  refine (if_neg (by simp [hdiffers, hok])).trans ?_
  rw [majority_none hne ha hb]

end

/-- What the adoption of a replay settles: the comparison, this device's part in the pair, the transients and memory. -/
def State.settledSide (s : State) : Bool × Bool × Nat × Tab Byte :=
  (s.tally.gate.twin.ok, s.tally.gate.alone, s.getF R.TLY.PAIR_STATUS.TRANSIENTS 0, s.mem)

theorem State.settledSide_setF (s : State) (f : Fld) (v : Nat) (h : R.TLY.PAIR_STATUS.TRANSIENTS.key 0 ≠ f.key 0) :
    (s.setF f 0 v).settledSide = s.settledSide := by
  unfold State.settledSide
  rw [State.getF_setF_ne _ _ _ _ _ _ h]
  rfl

theorem State.judgeTransients_settledSide (s : State) : s.judgeTransients.settledSide = s.settledSide := by
  have hprogress (u : State) : u.gateProgress.settledSide = u.settledSide := State.gateProgress_keeps (fun _ _ _ => rfl) (fun _ _ => rfl) u
  unfold State.judgeTransients
  split
  · exact (hprogress _).trans (State.holdPlane_keeps (fun _ _ => rfl) (fun _ _ => rfl) (fun _ _ => rfl)
      (fun u v => u.settledSide_setF _ v (by decide)) (fun u v => u.settledSide_setF _ v (by decide)) s s.devId)
  · exact hprogress s

theorem State.countTransient_settledSide (s : State) : s.countTransient.settledSide =
    (s.tally.gate.twin.ok, s.tally.gate.alone, min 255 (s.getF R.TLY.PAIR_STATUS.TRANSIENTS 0 + 1), s.mem) := by
  have hcount : s.countTransient.getF R.TLY.PAIR_STATUS.TRANSIENTS 0 = min 255 (s.getF R.TLY.PAIR_STATUS.TRANSIENTS 0 + 1) :=
    State.getF_addF_same s R.TLY.PAIR_STATUS.TRANSIENTS 0 1
  unfold State.settledSide
  rw [hcount]
  rfl

theorem State.adoptMemory_keeps (s : State) (state : List (Nat × List Byte)) : let t := s.adoptMemory state
    t.tally = s.tally ∧ t.getF R.TLY.PAIR_STATUS.TRANSIENTS 0 = s.getF R.TLY.PAIR_STATUS.TRANSIENTS 0 := by
  have hwrite {β : Type} (part : State → β) (hb : ∀ s : State, part s.beside = part s)
      (hd : ∀ s : State, part (s.addF R.PCH.T2_EVENTS.LINK_DOWN_DROPS 0 1) = part s) (u : State) (p : Nat × List Byte) :
      part (if u.memRange p.1 p.2.length then u.memWrite (servicePort 0) p.1 p.2 else u) = part u := by
    split
    · exact State.memWrite_part hb hd u _ _ _
    · rfl
  exact ⟨each_frame State.tally _ s _ (hwrite State.tally (fun _ => rfl) fun _ => rfl),
    each_frame (fun u => u.getF R.TLY.PAIR_STATUS.TRANSIENTS 0) _ s _ 
      (hwrite (fun u => u.getF R.TLY.PAIR_STATUS.TRANSIENTS 0) (fun _ => rfl) fun _ => State.getF_addF_ne _ _ _ _ _ _ (by decide))⟩

/-- One range taken is written where it stands. -/
theorem State.adoptMemory_one {s : State} {x : Nat} {bs : List Byte} (hrange : s.memRange x bs.length = true) (hfits : x + bs.length ≤ spreadSize)
    {t : State} (ht : t.mem = (s.adoptMemory [(x, bs)]).mem) : t.memRead x bs.length = bs ∧ s.memBut t x bs.length := by
  have hone : s.adoptMemory [(x, bs)] = s.memWrite (servicePort 0) x bs := if_pos hrange
  rw [hone] at ht
  exact ⟨(State.memRead_of_mem_spread ht hfits).trans (s.memRead_memWrite_same _ x bs (s.linksUp_spread hfits) (s.canon_spread_inj hfits)),
    fun k hk => (congrArg (Tab.get 0 · k) ht).trans (s.memBut_memWrite_spread _ hfits k hk)⟩

theorem twinReplayComplete_adopts {s : State} {a b : List Byte} (hown : s.tally.gate.twin.own = some a) (hother : s.tally.gate.twin.other = some b)
    (hdiffers : s.tally.gate.twin.differs = true) (hok : s.tally.gate.twin.ok = false) (hne : a ≠ b) (state : List (Nat × List Byte)) :
    ∃ (t : State), exec (.twinReplayComplete (some b) (some b) state) s = .next t ∧ t.tally.gate.twin.ok = true ∧
      t.tally.gate.alone = s.tally.gate.alone ∧ t.getF R.TLY.PAIR_STATUS.TRANSIENTS 0 = min 255 (s.getF R.TLY.PAIR_STATUS.TRANSIENTS 0 + 1) ∧
      ∀ x bs, state = [(x, bs)] → s.memRange x bs.length = true → x + bs.length ≤ spreadSize → t.memRead x bs.length = bs ∧ s.memBut t x bs.length := by
  obtain ⟨htally, htrans⟩ := s.twinsSettled.adoptMemory_keeps state
  have hside := (State.judgeTransients_settledSide _).trans (s.twinsSettled.adoptMemory state).countTransient_settledSide
  rw [htally, htrans] at hside
  simp only [State.settledSide, Prod.mk.injEq] at hside
  obtain ⟨hok', halone, htrans', hmem⟩ := hside
  refine ⟨_, exec_twinReplayComplete_adopts hown hother hdiffers hok hne state, hok', halone, htrans', fun x bs hstate hrange hfits => ?_⟩
  subst hstate
  exact State.adoptMemory_one (s := s.twinsSettled) hrange hfits hmem

theorem twinReplayComplete_stays {s : State} {a b : List Byte} (hown : s.tally.gate.twin.own = some a) (hother : s.tally.gate.twin.other = some b)
    (hdiffers : s.tally.gate.twin.differs = true) (hok : s.tally.gate.twin.ok = false) (hne : a ≠ b) (state : List (Nat × List Byte)) :
    ∃ (t : State), exec (.twinReplayComplete (some a) (some a) state) s = .next t ∧ t.tally.gate.twin.ok = true ∧ t.regs = s.regs ∧
      t.mem = s.mem ∧ t.tally.gate.alone = s.tally.gate.alone := by
  have hside := s.twinsSettled.gateProgress_twinSide
  simp only [State.twinSide, Prod.mk.injEq] at hside
  obtain ⟨⟨htwin, halone⟩, hregs, hmem, -⟩ := hside
  exact ⟨_, exec_twinReplayComplete_stays hown hother hdiffers hok hne state, (congrArg Twin.ok htwin :), hregs, hmem, halone⟩

theorem twinReplayComplete_unresolved {s : State} {a b : List Byte} {own twin : Option (List Byte)} (hown : s.tally.gate.twin.own = some a)
    (hother : s.tally.gate.twin.other = some b) (hdiffers : s.tally.gate.twin.differs = true) (hok : s.tally.gate.twin.ok = false) (hne : a ≠ b)
    (state : List (Nat × List Byte)) (ha : ¬ (own = some a ∧ twin = some a)) (hb : ¬ (own = some b ∧ twin = some b)) :
    ∃ (t : State), exec (.twinReplayComplete own twin state) s = .next t ∧ t.tally.gate.twin.ok = false ∧ t.mem = s.mem ∧
      t.getF R.TLY.PAIR_STATUS.UNRESOLVED 0 = min 255 (s.getF R.TLY.PAIR_STATUS.UNRESOLVED 0 + 1) ∧ t.getF R.TLY.HOLD.REQUESTED 0 = 1 := by
  have hside := ((s.addF R.TLY.PAIR_STATUS.UNRESOLVED 0 1).requestHold R.TLY.HOLD.CAUSE_PAIR).gateProgress_twinSide
  simp only [State.twinSide, Prod.mk.injEq] at hside
  obtain ⟨⟨htwin, -⟩, hregs, hmem, -⟩ := hside
  refine ⟨_, exec_twinReplayComplete_unresolved hown hother hdiffers hok hne state ha hb, (congrArg Twin.ok htwin).trans hok, hmem, ?_, ?_⟩
  · rw [State.getF, hregs, ← State.getF, State.requestHold, State.getF_orF_ne _ _ _ _ _ _ (by decide),
      State.getF_setF_ne _ _ _ _ _ _ (by decide), State.getF_addF_same]
    rfl
  · rw [State.getF, hregs, ← State.getF, State.requestHold_pair]

/-! ### A digest that is missing (R316, R320, R321) -/

section
variable {s : State} {c : Bool × Nat} (hpair : s.getF R.LCH.FABRIC_ID.PAIR 0 = 1) (hsince : s.tally.gate.twin.since = some c)
  (halone : s.tally.gate.alone = false) (hlate : s.tally.gate.twin.late = false)
include hpair hsince halone hlate

omit hpair halone hlate in
theorem exec_twinDigestTimeout_young (hyoung : s.now < c.2 + 1000000) : exec .twinDigestTimeout s = .next s := by
  refine if_pos ?_
  rw [hsince, Option.any_some, decide_eq_false (Nat.not_le.2 hyoung), Bool.not_false, Bool.or_true]

/-- The twin is quarantined, and the device goes on alone (R320). -/
theorem twinDigestTimeout_other (hold : c.2 + 1000000 ≤ s.now) {a : List Byte} (hown : s.tally.gate.twin.own = some a)
    (hother : s.tally.gate.twin.other = none) : ∃ (t : State) (r : Report), exec .twinDigestTimeout s = .next t ∧
      t.tally.gate.alone = true ∧ t.tally.gate.twin.ok = true ∧ t.errs.reports = s.errs.reports ++ [r] ∧ r.cls = 8 ∧ r.code = 6 ∧
      r.dev = s.devId ^^^ 0x800 := by
  have hexec : exec .twinDigestTimeout s =
      .next ((s.holdPlane (s.devId ^^^ 0x800)).modGate fun g => { g with alone := true, twin := { g.twin with ok := true } }).gateProgress := by
    show execTwinDigestTimeout s = _
    unfold execTwinDigestTimeout
    dsimp only
    rw [hown, hother]
    refine if_neg ?_
    rw [hpair, halone, hlate, hsince, Option.any_some, decide_eq_true hold]
    exact Bool.false_ne_true
  obtain ⟨r, hcls, hcode, hdev, hhold⟩ := State.holdPlane_other s.devId_xor_ne
  rw [hhold] at hexec
  have hside := State.gateProgress_twinSide ((s.modErrs fun e => { e with reports := e.reports ++ [r] }).modGate fun g =>
    { g with alone := true, twin := { g.twin with ok := true } })
  simp only [State.twinSide, Prod.mk.injEq] at hside
  obtain ⟨⟨htwin, halone'⟩, -, -, hreports⟩ := hside
  exact ⟨_, r, hexec, halone', (congrArg Twin.ok htwin :), hreports, hcls, hcode, hdev⟩

/-- This device is quarantined, and its plane holds (R321). -/
theorem twinDigestTimeout_own (hold : c.2 + 1000000 ≤ s.now) (hown : s.tally.gate.twin.own = none) :
    ∃ (t : State) (r : Report), exec .twinDigestTimeout s = .next t ∧ t.tally.gate.twin.late = true ∧ t.getF R.TLY.HOLD.REQUESTED 0 = 1 ∧
      t.errs.reports = s.errs.reports ++ [r] ∧ r.cls = 8 ∧ r.code = 6 ∧ r.dev = s.devId := by
  have hexec : exec .twinDigestTimeout s =
      .next ((s.modGate fun g => { g with twin := { g.twin with late := true } }).holdPlane s.devId).gateProgress := by
    show execTwinDigestTimeout s = _
    unfold execTwinDigestTimeout
    dsimp only
    rw [hown]
    refine if_neg ?_
    rw [hpair, halone, hlate, hsince, Option.any_some, decide_eq_true hold]
    exact Bool.false_ne_true
  obtain ⟨r, hcls, hcode, hdev, hhold⟩ :=
    State.holdPlane_own (show s.devId = (s.modGate fun g => { g with twin := { g.twin with late := true } }).devId from rfl)
  rw [hhold] at hexec
  refine ⟨_, r, hexec, ?_, ?_, ?_, hcls, hcode, hdev⟩
  · rw [State.gateProgress_keeps (part := fun u => u.tally.gate.twin.late) (fun _ _ _ => rfl) fun _ _ => rfl]
    rfl
  · rw [State.gateProgress_keeps (part := fun u => u.getF R.TLY.HOLD.REQUESTED 0) (fun _ _ _ => rfl) fun _ _ => rfl, State.requestHold_pair]
  · rw [State.gateProgress_keeps (part := fun u => u.errs.reports) (fun _ _ _ => rfl) fun _ _ => rfl]
    rfl

end

/-! ### PLANE_REJOIN (R321) -/

theorem planeRejoin_refused {s : State} {d : List Byte} (h : d ≠ s.lastDigest) : exec (.planeRejoin d) s = .next s :=
  if_pos (by simp [h])

theorem planeRejoin_holds {s : State} {d : List Byte} (hout : s.tally.gate.alone = true ∨ s.module_.quarantined.contains rootUnit = true)
    (hheld : s.getF R.TLY.HOLD.HELD 0 ≠ 0) (hd : d = s.lastDigest) : ∃ (t : State), exec (.planeRejoin d) s = .next t ∧
      t.tally.gate.alone = false ∧ t.getF R.TLY.HOLD.HELD 0 = 0 ∧ t.module_.quarantined.contains rootUnit = false ∧ t.mem = s.mem := by
  have hcond : ¬ (!(s.tally.gate.alone || s.module_.quarantined.contains rootUnit) || s.getF R.TLY.HOLD.HELD 0 = 0 || d ≠ s.lastDigest) = true := by
    have hor : (s.tally.gate.alone || s.module_.quarantined.contains rootUnit) = true := Bool.or_eq_true_iff.2 hout
    rw [hor]
    simp [hheld, hd]
  refine ⟨_, if_neg hcond, ?_, State.releaseHold_held _, ?_, ?_⟩
  · rw [(State.releaseHold_gate _).1]
    rfl
  · have hkept (u : State) : u.releaseHold.module_ = u.module_ := (congrArg State.module_ u.releaseHold_besideMarks :)
    rw [hkept]
    show (s.module_.quarantined.filter (· != rootUnit)).contains rootUnit = false
    simp
  · have hkept (u : State) : u.releaseHold.mem = u.mem := (congrArg State.mem u.releaseHold_besideMarks :)
    rw [hkept]
    rfl

/-- Settles O39: the digests by the branch of the comparison, the replay by the majority of the four digests. -/
theorem twinCommands : Obligations.TwinCommands := by
  intro s hpair
  refine ⟨fun d => exec_twinDigestArrival_ignored, fun d hother halone => twinDigestArrival_holds hpair hother halone,
    fun a b own twin state hown hother hdiffers hok hne => ⟨fun h h' => ?_, fun h h' => ?_,
      twinReplayComplete_unresolved hown hother hdiffers hok hne state⟩,
    fun c hsince halone hlate => ⟨exec_twinDigestTimeout_young hsince, fun hold a => twinDigestTimeout_other hpair hsince halone hlate hold,
      twinDigestTimeout_own hpair hsince halone hlate⟩,
    fun d hout hheld => ⟨planeRejoin_refused, planeRejoin_holds hout hheld⟩⟩
  · subst h h'
    exact twinReplayComplete_adopts hown hother hdiffers hok hne state
  · subst h h'
    exact twinReplayComplete_stays hown hother hdiffers hok hne state

end Sys2Proof.Machine
end

section
/-! Proofs. CLUSTER_COMMIT (R273, R299, R303) and RESIDUE_REPLAY_COMPLETE (R306): a commit cluster by cluster, then core by core; a
rotated replay that fails again, and one that confirms. -/

namespace Sys2Proof.Machine

/-! ### A change made in each place of a list -/

/-- Where a step changes its own place by `g`, and no other place, each place of the list changes once. -/
theorem each_at {β : Type} (view : State → Nat → β) (P : State → Prop) (g : Nat → β → β) (f : State → Nat → State) {l : List Nat}
    (hP : ∀ s, ∀ a ∈ l, P s → P (f s a)) (hself : ∀ s, ∀ a ∈ l, P s → view (f s a) a = g a (view s a))
    (hother : ∀ s, ∀ a ∈ l, P s → ∀ b, b ≠ a → view (f s a) b = view s b) (hl : l.Nodup) {s : State} (hs : P s) (i : Nat) :
    view (each l s f) i = if i ∈ l then g i (view s i) else view s i := by
  induction l generalizing s with
  | nil => rfl
  | cons a l ih =>
    obtain ⟨ha, hl⟩ := List.nodup_cons.1 hl
    rw [each_cons, ih (fun s b hb => hP s b (List.mem_cons_of_mem a hb)) (fun s b hb => hself s b (List.mem_cons_of_mem a hb))
      (fun s b hb => hother s b (List.mem_cons_of_mem a hb)) hl (hP s a List.mem_cons_self hs)]
    obtain rfl | hne := eq_or_ne i a
    · rw [if_neg ha, if_pos List.mem_cons_self, hself s i List.mem_cons_self hs]
    · simp only [List.mem_cons, hne, false_or, hother s a List.mem_cons_self hs i hne]

/-- What no step changes under an invariant, none of the steps changes. -/
theorem each_under {β : Type} (part : State → β) (P : State → Prop) (f : State → Nat → State) {l : List Nat} (hP : ∀ s, ∀ a ∈ l, P s → P (f s a))
    (hpart : ∀ s, ∀ a ∈ l, P s → part (f s a) = part s) {s : State} (hs : P s) : part (each l s f) = part s := by
  induction l generalizing s with
  | nil => rfl
  | cons a l ih =>
    rw [each_cons, ih (fun s b hb => hP s b (List.mem_cons_of_mem a hb)) (fun s b hb => hpart s b (List.mem_cons_of_mem a hb))
      (hP s a List.mem_cons_self hs), hpart s a List.mem_cons_self hs]

theorem nodup_sitesOf (c : Nat) : (sitesOf c).Nodup := List.nodup_range.map fun a b (h : 28 * c + a = 28 * c + b) => Nat.add_left_cancel h

theorem nodup_liveSites (s : State) {g : List Nat} (hg : g.Nodup) : (s.liveSites g).Nodup := by
  refine List.Nodup.filter _ (List.nodup_flatMap.2 ⟨fun c _ => nodup_sitesOf c, hg.imp fun {c d} hne => ?_⟩)
  intro i hc hd
  exact hne ((mem_sitesOf.1 hc).symm.trans (mem_sitesOf.1 hd))

theorem mem_liveSites {s : State} {g : List Nat} {i : Nat} : i ∈ s.liveSites g ↔ clusterOf i ∈ g ∧ (s.run i).isSome = true := by
  simp only [State.liveSites, List.mem_filter, List.mem_flatMap, mem_sitesOf, exists_eq_right']

/-! ### The commit of a cluster (R273, R299, R303) -/

/-- A cluster once it has committed at a mark, with the snapshot `k` of its token counts. -/
def Cluster.committed (x : Cluster) (k : Tab Nat) (id : Nat) : Cluster :=
  { x with pend := [], snap := k, ext := [], ledger := [], markBank := id % 2, marked := true, recov := none }

/-- The contributions of a cluster go to the tally unit (R273). -/
def State.contributes (s : State) (c : Nat) : State :=
  if (s.cluster c).pend.isEmpty then s else s.modTally fun t => { t with transit := t.transit ++ [{ sets := (s.cluster c).pend, at_ := s.now }] }

/-- Its snapshot is taken, and MARK_ID shows the mark (R299, R303). -/
def State.snapshot (s : State) (id c : Nat) (k : Tab Nat) : State :=
  (s.modCluster c fun x => { x with pend := [], snap := k, ext := [], ledger := [], markBank := id % 2, marked := true }).setF
    R.CL.REPLAY_STATUS.MARK_ID c id

/-- The contributions of a group as they go to the tally unit: those of the clusters that have any. -/
def State.pendingOf (s : State) (g : List Nat) : List Contrib :=
  (g.filter fun d => !(s.cluster d).pend.isEmpty).map fun d => ⟨(s.cluster d).pend, s.now⟩

theorem State.pendingOf_cons (s : State) (c : Nat) (g : List Nat) : s.pendingOf (c :: g) = s.pendingOf [c] ++ s.pendingOf g := by
  unfold State.pendingOf
  rw [← List.map_append, ← List.filter_append]
  rfl

theorem State.pendingOf_congr {s t : State} {g : List Nat} (h : ∀ d ∈ g, t.cluster d = s.cluster d) (hnow : t.now = s.now) :
    t.pendingOf g = s.pendingOf g := by
  unfold State.pendingOf
  rw [List.filter_congr fun d hd => congrArg (fun x : Cluster => !x.pend.isEmpty) (h d hd), hnow]
  exact List.map_congr_left fun d hd => congrArg (fun x : Cluster => (⟨x.pend, s.now⟩ : Contrib)) (h d (List.mem_of_mem_filter hd))

theorem State.finishRecovery_none {s : State} {c : Nat} (h : (s.cluster c).recov = none) : s.finishRecovery c = s := by
  rw [State.finishRecovery, h]

theorem State.contributes_keeps (s : State) (c : Nat) : (s.contributes c).clusters = s.clusters ∧ (s.contributes c).cores = s.cores ∧
    (s.contributes c).regs = s.regs ∧ (s.contributes c).running = s.running ∧ (s.contributes c).now = s.now := by
  unfold State.contributes
  split <;> exact ⟨rfl, rfl, rfl, rfl, rfl⟩

theorem State.contributes_cluster (s : State) (c d : Nat) : (s.contributes c).cluster d = s.cluster d := by
  rw [State.cluster, (s.contributes_keeps c).1, State.cluster]

theorem State.tokenKeys_congr {s t : State} {c : Nat} (hcores : t.cores = s.cores) (h : (t.cluster c).excess = (s.cluster c).excess) :
    t.tokenKeys c = s.tokenKeys c := by
  unfold State.tokenKeys State.core
  rw [hcores, h]

theorem State.cluster_snapshot (s : State) (id c d : Nat) (k : Tab Nat) : (s.snapshot id c k).cluster d = if d = c then
    { s.cluster c with pend := [], snap := k, ext := [], ledger := [], markBank := id % 2, marked := true } else s.cluster d :=
  State.cluster_modCluster s c d fun x => { x with pend := [], snap := k, ext := [], ledger := [], markBank := id % 2, marked := true }

theorem State.commitCluster_eq {s : State} {id c : Nat} (h : (s.cluster c).recov = none) :
    s.commitCluster id c = ((s.contributes c).snapshot id c (s.tokenKeys c)).modCluster c fun x => { x with recov := none } := by
  have hkeys : (s.contributes c).tokenKeys c = s.tokenKeys c :=
    State.tokenKeys_congr (s.contributes_keeps c).2.1 (congrArg Cluster.excess (s.contributes_cluster c c))
  have hrecov (k : Tab Nat) : (((s.contributes c).snapshot id c k).cluster c).recov = none := by
    rw [State.cluster_snapshot, if_pos rfl, s.contributes_cluster, h]
  have hfinish := State.finishRecovery_none (hrecov ((s.contributes c).tokenKeys c))
  rw [← hkeys]
  exact congrArg (fun x : State => x.modCluster c fun x => { x with recov := none }) hfinish

section
variable {s : State} {id c : Nat} (h : (s.cluster c).recov = none)
include h

theorem State.cluster_commitCluster (d : Nat) :
    (s.commitCluster id c).cluster d = if d = c then (s.cluster c).committed (s.tokenKeys c) id else s.cluster d := by
  rw [State.commitCluster_eq h, State.cluster_modCluster, State.cluster_snapshot, State.cluster_snapshot, if_pos rfl, s.contributes_cluster,
    s.contributes_cluster]
  split <;> rfl

theorem State.markId_commitCluster (d : Nat) : (s.commitCluster id c).getF R.CL.REPLAY_STATUS.MARK_ID d =
    if d = c then id % 2 ^ 16 else s.getF R.CL.REPLAY_STATUS.MARK_ID d := by
  have hset : (s.commitCluster id c).getF R.CL.REPLAY_STATUS.MARK_ID d =
      ((s.contributes c).setF R.CL.REPLAY_STATUS.MARK_ID c id).getF R.CL.REPLAY_STATUS.MARK_ID d := by
    rw [State.commitCluster_eq h]
    rfl
  rw [hset]
  split
  · next hd =>
    rw [hd, State.getF_setF_same]
    rfl
  · next hd =>
    rw [State.getF_setF_ne _ _ _ _ _ _ (Fld.key_ne_of_inst _ hd), State.getF, (s.contributes_keeps c).2.2.1, State.getF]

theorem State.getF_commitCluster {f : Fld} (hf : (64 * f.off + f.lo) % 262144 ≠ (64 * R.CL.REPLAY_STATUS.MARK_ID.off + R.CL.REPLAY_STATUS.MARK_ID.lo) % 262144)
    (i : Nat) : (s.commitCluster id c).getF f i = s.getF f i := by
  have hset : (s.commitCluster id c).getF f i = ((s.contributes c).setF R.CL.REPLAY_STATUS.MARK_ID c id).getF f i := by
    rw [State.commitCluster_eq h]
    rfl
  rw [hset, State.getF_setF_ne _ _ _ _ _ _ (Fld.key_ne_of_low hf i c), State.getF, (s.contributes_keeps c).2.2.1, State.getF]

/-- The commit of a cluster leaves the cores, what runs on them, and the time. -/
theorem State.commitCluster_keeps : (s.commitCluster id c).cores = s.cores ∧ (s.commitCluster id c).running = s.running ∧
    (s.commitCluster id c).now = s.now := by
  obtain ⟨-, hcores, -, hrunning, hnow⟩ := s.contributes_keeps c
  rw [State.commitCluster_eq h]
  exact ⟨hcores, hrunning, hnow⟩

theorem State.tally_commitCluster : (s.commitCluster id c).tally =
    { s.tally with transit := s.tally.transit ++ s.pendingOf [c] } := by
  have htally : (s.commitCluster id c).tally = (s.contributes c).tally := by
    rw [State.commitCluster_eq h]
    rfl
  rw [htally, State.contributes]
  cases hp : (s.cluster c).pend.isEmpty with
  | true => simp [State.pendingOf, hp]
  | false => simp [State.pendingOf, hp, State.modTally]

end

/-! ### The clusters of a group commit -/

/-- The clusters of a group without a recovery, their token counts as they were. -/
def State.commits (s : State) (g : List Nat) (k : Nat → Tab Nat) : Prop := ∀ d ∈ g, (s.cluster d).recov = none ∧ s.tokenKeys d = k d

theorem State.commits.commitCluster {s : State} {g : List Nat} {k : Nat → Tab Nat} (hs : s.commits g k) (id : Nat) {c : Nat} (hc : c ∈ g) :
    (s.commitCluster id c).commits g k := by
  intro d hd
  obtain ⟨hrecov, hkeys⟩ := hs d hd
  have hcluster := State.cluster_commitCluster (id := id) (hs c hc).1 d
  have hcores := (State.commitCluster_keeps (id := id) (hs c hc).1).1
  obtain rfl | hne := eq_or_ne d c
  · rw [if_pos rfl] at hcluster
    refine ⟨by rw [hcluster]; rfl, (State.tokenKeys_congr hcores ?_).trans hkeys⟩
    rw [hcluster]
    rfl
  · rw [if_neg hne] at hcluster
    exact ⟨(congrArg Cluster.recov hcluster).trans hrecov, (State.tokenKeys_congr hcores (congrArg Cluster.excess hcluster)).trans hkeys⟩

section
variable {s : State} {g : List Nat} (hrecov : ∀ d ∈ g, (s.cluster d).recov = none) (id : Nat)
include hrecov

omit id in
theorem State.commits_of_recov : s.commits g s.tokenKeys := fun d hd => ⟨hrecov d hd, rfl⟩

/-- What the commit of one cluster keeps, that of the group keeps. -/
theorem State.commitClusters_keeps {β : Type} {part : State → β}
    (hpart : ∀ s c, (s.cluster c).recov = none → part (State.commitCluster s id c) = part s) :
    part (each g s (State.commitCluster · id ·)) = part s :=
  each_under part (fun u => u.commits g s.tokenKeys) _ (fun _ _ ha hu => hu.commitCluster id ha) (fun u a ha hu => hpart u a (hu a ha).1)
    (State.commits_of_recov hrecov)

variable (hg : g.Nodup)
include hg

theorem State.cluster_commitClusters (d : Nat) : (each g s (State.commitCluster · id ·)).cluster d =
    if d ∈ g then (s.cluster d).committed (s.tokenKeys d) id else s.cluster d :=
  each_at State.cluster (fun u => u.commits g s.tokenKeys) (fun d x => x.committed (s.tokenKeys d) id) _ (fun _ _ ha hu => hu.commitCluster id ha)
    (fun u a ha hu => by rw [State.cluster_commitCluster (hu a ha).1, if_pos rfl, (hu a ha).2])
    (fun u a ha hu b hb => by rw [State.cluster_commitCluster (hu a ha).1, if_neg hb]) hg (State.commits_of_recov hrecov) d

theorem State.markId_commitClusters (d : Nat) : (each g s (State.commitCluster · id ·)).getF R.CL.REPLAY_STATUS.MARK_ID d =
    if d ∈ g then id % 2 ^ 16 else s.getF R.CL.REPLAY_STATUS.MARK_ID d :=
  each_at (fun s d => s.getF R.CL.REPLAY_STATUS.MARK_ID d) (fun u => u.commits g s.tokenKeys) (fun _ _ => id % 2 ^ 16) _
    (fun _ _ ha hu => hu.commitCluster id ha) (fun u a ha hu => by rw [State.markId_commitCluster (hu a ha).1, if_pos rfl])
    (fun u a ha hu b hb => by rw [State.markId_commitCluster (hu a ha).1, if_neg hb]) hg (State.commits_of_recov hrecov) d

theorem State.tally_commitClusters : (each g s (State.commitCluster · id ·)).tally =
    { s.tally with transit := s.tally.transit ++ s.pendingOf g } := by
  induction g generalizing s with
  | nil => simp [each, State.pendingOf]
  | cons c g ih =>
    obtain ⟨hc, hg⟩ := List.nodup_cons.1 hg
    have hnone := hrecov c List.mem_cons_self
    have hsame : ∀ d ∈ g, (s.commitCluster id c).cluster d = s.cluster d := fun d hd =>
      (State.cluster_commitCluster hnone d).trans (if_neg (ne_of_mem_of_not_mem hd hc))
    have hrest := ih (s := s.commitCluster id c)
      (fun d hd => (congrArg Cluster.recov (hsame d hd)).trans (hrecov d (List.mem_cons_of_mem c hd))) hg
    rw [each_cons, hrest, State.tally_commitCluster hnone, State.pendingOf_congr hsame (State.commitCluster_keeps hnone).2.2,
      s.pendingOf_cons c g, List.append_assoc]

end

/-! ### The cores of a group go on (R299) -/

/-- A core that goes on after a commit, its count of instructions then `n`. -/
def CoreSite.goesOn (x : CoreSite) (n : Nat) : CoreSite := { x.goOn with nSend := 0, nTsig := 0, passes := 0, mark0 := n }

/-- The step of a commit at a core. -/
def State.commitCore (s : State) (i : Nat) : State :=
  let s := (s.modCore i fun c => { c.goOn with nSend := 0, nTsig := 0, passes := 0 }).countInstr i
  s.modCore i fun c => { c with mark0 := s.getF R.CORE.INSTR_CNT.COUNT i }

/-- A core with its count of instructions. -/
def State.counted (s : State) (i : Nat) : CoreSite × Nat := (s.core i, s.getF R.CORE.INSTR_CNT.COUNT i)

theorem State.counted_commitCore (s : State) (i j : Nat) : (s.commitCore i).counted j =
    if j = i then ((s.core i).goesOn (min (2 ^ 64 - 1) (s.getF R.CORE.INSTR_CNT.COUNT i + 1)), min (2 ^ 64 - 1) (s.getF R.CORE.INSTR_CNT.COUNT i + 1))
    else s.counted j := by
  obtain ⟨u, hu⟩ : ∃ u, (s.modCore i fun c => { c.goOn with nSend := 0, nTsig := 0, passes := 0 }).countInstr i = u := ⟨_, rfl⟩
  have hcore (k : Nat) : u.core k = if k = i then { (s.core i).goOn with nSend := 0, nTsig := 0, passes := 0 } else s.core k := by
    rw [← hu]
    exact State.core_modCore s i k fun c => { c.goOn with nSend := 0, nTsig := 0, passes := 0 }
  have hcount (k : Nat) : u.getF R.CORE.INSTR_CNT.COUNT k = if k = i then min (2 ^ 64 - 1) (s.getF R.CORE.INSTR_CNT.COUNT i + 1)
      else s.getF R.CORE.INSTR_CNT.COUNT k := by
    rw [← hu, State.countInstr]
    split
    · next h =>
      rw [h, State.getF_addF_same]
      rfl
    · next h => rw [State.getF_addF_ne _ _ _ _ _ _ (Fld.key_ne_of_inst _ h), State.modCore_getF]
  have hstep : s.commitCore i = u.modCore i fun c => { c with mark0 := u.getF R.CORE.INSTR_CNT.COUNT i } := by rw [← hu]; rfl
  rw [hstep, State.counted, State.core_modCore, State.modCore_getF, hcore i, hcount i, hcount j, hcore j, if_pos rfl, if_pos rfl]
  split <;> rfl

/-- The cores of a commit go on, each once. -/
theorem State.counted_commitCores (s : State) {l : List Nat} (hl : l.Nodup) (i : Nat) : ((each l s State.commitCore).counted i).1 =
    if i ∈ l then (s.core i).goesOn (min (2 ^ 64 - 1) (s.getF R.CORE.INSTR_CNT.COUNT i + 1)) else s.core i := by
  have h := each_at State.counted (fun _ => True) (fun _ x => (x.1.goesOn (min (2 ^ 64 - 1) (x.2 + 1)), min (2 ^ 64 - 1) (x.2 + 1))) State.commitCore
    (fun _ _ _ _ => trivial) (fun u a _ _ => (u.counted_commitCore a a).trans (if_pos rfl))
    (fun u a _ _ b hb => (u.counted_commitCore a b).trans (if_neg hb)) hl (s := s) trivial i
  rw [h]
  split <;> rfl

theorem State.confirmReplay_none {s : State} {g : List Nat} (h : ∀ d ∈ g, (s.cluster d).recov = none) : s.confirmReplay g = s := by
  have hnone : (g.findSome? fun c => (s.cluster c).recov.bind fun r => if r.rotated && !r.again then r.site else none) = none :=
    List.findSome?_eq_none_iff.2 fun d hd => by rw [h d hd]; rfl
  unfold State.confirmReplay
  rw [hnone]

/-! ### CLUSTER_COMMIT (R273, R299, R320) -/

theorem State.groupMark_lt {s : State} {g : List Nat} {id : Nat} (h : s.groupMark g = some id) : id < 65536 := by
  unfold State.groupMark at h
  dsimp only at h
  split at h
  · next k _ =>
    split at h
    · next hcond =>
      rw [← Option.some.inj h]
      exact of_decide_eq_true (Bool.and_eq_true_iff.1 hcond).1
    · cases h
  · cases h

section
variable {s : State} {c : Fin 24}

theorem exec_clusterCommit_unmarked (h : s.groupMark (s.groupOf c) = none) : exec (.clusterCommit c) s = .next s := by
  show execClusterCommit c s = _
  unfold execClusterCommit
  dsimp only
  rw [h]

theorem exec_clusterCommit {id : Nat} (h : s.groupMark (s.groupOf c) = some id) : exec (.clusterCommit c) s =
    .next (if !s.mayCommit (s.groupOf c) then s else if s.quarantinedIn (s.groupOf c) then s.commitHeld (s.groupOf c) c id
      else s.commit (s.groupOf c) id) := by
  show execClusterCommit c s = _
  unfold execClusterCommit
  dsimp only
  rw [h]

end

section
variable {s : State} {g : List Nat} (hrecov : ∀ d ∈ g, (s.cluster d).recov = none) (id : Nat)
include hrecov

theorem State.commit_eq : s.commit g id = each (s.liveSites g) (each g s (State.commitCluster · id ·)) State.commitCore := by
  have hlive : (each g s (State.commitCluster · id ·)).liveSites g = s.liveSites g := by
    have hrunning : (each g s (State.commitCluster · id ·)).running = s.running :=
      State.commitClusters_keeps hrecov id fun _ _ h => (State.commitCluster_keeps h).2.1
    unfold State.liveSites State.run
    rw [hrunning]
  unfold State.commit
  rw [State.confirmReplay_none hrecov]
  dsimp only
  rw [hlive]
  rfl

/-- What the cores' going on leaves alone is as the clusters' commits leave it. -/
theorem State.commit_part {β : Type} {part : State → β} (hcore : ∀ s i, part (State.commitCore s i) = part s) :
    part (s.commit g id) = part (each g s (State.commitCluster · id ·)) := by
  rw [State.commit_eq hrecov]
  exact each_frame part _ _ _ hcore

/-- What a commit leaves, with no recovery under way. -/
theorem State.commit_leaves (hg : g.Nodup) (hid : id < 65536) : (s.commit g id).mem = s.mem ∧
    (s.commit g id).tally = { s.tally with transit := s.tally.transit ++ s.pendingOf g } ∧
    (∀ d ∈ g, (s.commit g id).cluster d = { s.cluster d with pend := [], snap := s.tokenKeys d, ext := [], ledger := [], markBank := id % 2, marked := true } ∧
      (s.commit g id).getF R.CL.REPLAY_STATUS.MARK_ID d = id) ∧
    ∀ i, (s.commit g id).core i = if i ∈ s.liveSites g then
      { (s.core i).goOn with nSend := 0, nTsig := 0, passes := 0, mark0 := min (2 ^ 64 - 1) (s.getF R.CORE.INSTR_CNT.COUNT i + 1) } else s.core i := by
  have hclusters := State.commit_part hrecov id (part := State.clusters) fun _ _ => rfl
  refine ⟨?_, ?_, fun d hd => ⟨?_, ?_⟩, fun i => ?_⟩
  · exact (State.commit_part hrecov id (part := State.mem) fun _ _ => rfl).trans (State.commitClusters_keeps hrecov id fun u d _ => u.commitCluster_mem id d)
  · exact (State.commit_part hrecov id (part := State.tally) fun _ _ => rfl).trans (State.tally_commitClusters hrecov id hg)
  · rw [State.cluster, hclusters, ← State.cluster, State.cluster_commitClusters hrecov id hg, if_pos hd]
    exact congrArg (fun r => ({ s.cluster d with
      pend := [], snap := s.tokenKeys d, ext := [], ledger := [], markBank := id % 2, marked := true, recov := r } : Cluster)) (hrecov d hd).symm
  · have hcount (u : State) (i : Nat) : (u.commitCore i).getF R.CL.REPLAY_STATUS.MARK_ID d = u.getF R.CL.REPLAY_STATUS.MARK_ID d :=
      State.getF_addF_ne _ R.CORE.INSTR_CNT.COUNT _ i d 1 (Fld.key_ne_of_low (by decide) _ _)
    rw [State.commit_part hrecov id (part := fun u => u.getF R.CL.REPLAY_STATUS.MARK_ID d) hcount, State.markId_commitClusters hrecov id hg, if_pos hd]
    exact Nat.mod_eq_of_lt hid
  · have hcores : (each g s (State.commitCluster · id ·)).core i = s.core i := by
      rw [State.core, State.commitClusters_keeps hrecov id fun _ _ h => (State.commitCluster_keeps h).1, State.core]
    have hcount : (each g s (State.commitCluster · id ·)).getF R.CORE.INSTR_CNT.COUNT i = s.getF R.CORE.INSTR_CNT.COUNT i :=
      State.commitClusters_keeps (part := fun u => u.getF R.CORE.INSTR_CNT.COUNT i) hrecov id fun _ _ h => State.getF_commitCluster h (by decide) i
    have h := (each g s (State.commitCluster · id ·)).counted_commitCores (nodup_liveSites s hg) i
    rw [hcores, hcount] at h
    rw [State.commit_eq hrecov]
    exact h

end

/-! ### RESIDUE_REPLAY_COMPLETE (R306) -/

section
variable {s : State} {site : Fin 672}

theorem exec_residueReplayComplete_idle (h : (s.cluster (clusterOf site)).recov = none) : exec (.residueReplayComplete site) s = .next s := by
  show execResidueReplayComplete site s = _
  unfold execResidueReplayComplete
  dsimp only
  rw [h]

variable {r : Recovery} (h : (s.cluster (clusterOf site)).recov = some r)
include h

theorem exec_residueReplayComplete : exec (.residueReplayComplete site) s =
    if !r.rotated || r.site != some site.val then .next s
    else if r.again then .next ((s.reportSite site 2 3 r.sub 0 r.row r.col r.detail).siteDies site s.now)
    else if (s.groupMark (s.groupOf (clusterOf site))).isSome && s.mayCommit (s.groupOf (clusterOf site)) then
      .next (s.confirmReplay (s.groupOf (clusterOf site)))
    else .next s := by
  show execResidueReplayComplete site s = _
  unfold execResidueReplayComplete
  dsimp only
  rw [h]
  rfl

end

/-- Where reports only come after two, they head the new ones. -/
theorem State.newReports_of_keys {s t : State} {l : List (Nat × Nat × Nat)} (h : t.reportKeys = s.reportKeys ++ l) : s.newReports t = l := by
  have hlen : s.errs.reports.length = s.reportKeys.length := (List.length_map _).symm
  unfold State.newReports
  rw [List.map_drop, hlen]
  show (t.reportKeys).drop _ = _
  rw [h, List.drop_left]

/-- After the report of a death, reports only come. -/
theorem State.siteDies_grow {s : State} {site : Nat} (since : Nat) (h : (s.core site).dead = false) :
    (s.markDead site).reportsGrow (s.siteDies site since) := by
  rw [State.siteDies_eq since h]
  dsimp only
  split
  · exact (State.takeOut_recorded _ site).grow.trans (State.reportsGrow_of_keys (State.reportKeys_of_errs (State.wantReplay_recorded _ _ _).2.1))
  · exact (State.takeOut_recorded _ site).grow

/-- The mismatch came again: it is reported, and the site dies (R306, R312). -/
theorem residueReplay_again (s : State) (site : Fin 672) (r : Recovery) (h : (s.core site).dead = false) : ∃ l,
    s.newReports ((s.reportSite site 2 3 r.sub 0 r.row r.col r.detail).siteDies site s.now) =
      (2, 3, unitCode 2 site r.sub) :: (8, 1, wholeUnit 2 site) :: l ∧
    (((s.reportSite site 2 3 r.sub 0 r.row r.col r.detail).siteDies site s.now).core site).dead = true ∧
    s.ringBut ((s.reportSite site 2 3 r.sub 0 r.row r.col r.detail).siteDies site s.now) := by
  have hkeys : (s.reportSite site 2 3 r.sub 0 r.row r.col r.detail).reportKeys = s.reportKeys ++ [(2, 3, unitCode 2 site r.sub)] := s.report_keys _
  have hring (u : State) : (s.reportSite site 2 3 r.sub 0 r.row r.col r.detail).ringBut u → s.ringBut u := fun h => h
  have halive : ((s.reportSite site 2 3 r.sub 0 r.row r.col r.detail).core site).dead = false := h
  generalize s.reportSite site 2 3 r.sub 0 r.row r.col r.detail = u at *
  obtain ⟨l, hl⟩ := State.siteDies_grow s.now halive
  have hdies := State.siteDies_dies s.now halive
  refine ⟨l, State.newReports_of_keys ?_, hdies.dead, hring _ hdies.ring⟩
  rw [hl, u.markDead_keys, hkeys]
  simp

/-! ### A mismatch that is confirmed (R306) -/

theorem State.noteRecords_eq (s : State) (p : ErrRec → Bool) (f : ErrRec → ErrRec) : ∃ (note : Errors → Errors) (l : List ErrRec),
    (∀ e, (note e).confirmed = e.confirmed) ∧ s.noteRecords p f = each l (s.modErrs note) fun s e => s.ringWrite (f e) := by
  unfold State.noteRecords
  refine ⟨_, _, ?_, rfl⟩
  exact fun _ => rfl

theorem State.noteRecords_confirmed (s : State) (p : ErrRec → Bool) (f : ErrRec → ErrRec) : (s.noteRecords p f).errs.confirmed = s.errs.confirmed := by
  obtain ⟨note, l, hnote, h⟩ := s.noteRecords_eq p f
  have hring : (each l (s.modErrs note) fun s e => s.ringWrite (f e)).errs.confirmed = (s.modErrs note).errs.confirmed :=
    (congrArg Errors.confirmed (State.errs_of_beside (each_ringWrite_spec f l (s := s.modErrs note) rfl).1) :)
  rw [h, hring]
  exact hnote _

theorem State.flagRecords_confirmed (s : State) (p : Report → Bool) (bits : Nat) : (s.flagRecords p bits).errs.confirmed = s.errs.confirmed := by
  have hlast (v : State) (f : List Report → List Report) : (v.modErrs fun e => { e with reports := f e.reports }).errs.confirmed = v.errs.confirmed := rfl
  unfold State.flagRecords
  dsimp only
  rw [hlast _ (List.map _), State.noteRecords_confirmed]

theorem State.quarTrigger_confirmed (s : State) (site : Nat) : (s.quarTrigger site).errs.confirmed = s.errs.confirmed := by
  unfold State.quarTrigger State.quarantineSite
  split_ifs
  · rfl
  · exact State.flagRecords_confirmed _ _ _
  · rfl

/-- A confirmed mismatch is kept with its time; its records, and a quarantine that it brings, leave the machine as it is. -/
theorem State.confirmMismatch_leaves (s : State) (site : Nat) : s.Recorded (s.confirmMismatch site) ∧
    (s.confirmMismatch site).errs.confirmed = s.errs.confirmed ++ [(site, s.now)] := by
  unfold State.confirmMismatch
  dsimp only
  have hflag := State.flagRecords_confirmed (s.modErrs fun e => { e with confirmed := e.confirmed ++ [(site, s.now)] })
    (fun r => r.cls == 2 && (s.modErrs fun e => { e with confirmed := e.confirmed ++ [(site, s.now)] }).ofSite site r) 4
  have hrec := (s.recorded_modErrs (f := fun e => { e with confirmed := e.confirmed ++ [(site, s.now)] }) rfl).trans
    (State.recorded_flagRecords _ (fun r => r.cls == 2 && (s.modErrs fun e => { e with confirmed := e.confirmed ++ [(site, s.now)] }).ofSite site r) 4)
  generalize State.flagRecords _ _ _ = u at *
  split
  · exact ⟨hrec.trans (u.recorded_quarTrigger site), (u.quarTrigger_confirmed site).trans hflag⟩
  · exact ⟨hrec, hflag⟩

/-- The rotation of a cluster's recovery is over. -/
def State.unrotate (s : State) (c : Nat) : State :=
  s.modCluster c fun x => { x with recov := x.recov.map fun r => { r with rotated := false } }

theorem State.cluster_unrotate (s : State) (c d : Nat) : (s.unrotate c).cluster d =
    if d = c then { s.cluster c with recov := (s.cluster c).recov.map fun r => { r with rotated := false } } else s.cluster d :=
  State.cluster_modCluster s c d _

theorem State.each_unrotate {g : List Nat} {s : State} {d : Nat} {x : Cluster} {r : Recovery}
    (h : s.cluster d = { x with recov := some r } ∧ d ∈ g ∨ s.cluster d = { x with recov := some { r with rotated := false } }) :
    (each g s State.unrotate).cluster d = { x with recov := some { r with rotated := false } } := by
  induction g generalizing s with
  | nil => exact h.resolve_left fun h => List.not_mem_nil h.2
  | cons c g ih =>
    rw [each_cons]
    refine ih ?_
    rw [State.cluster_unrotate]
    obtain rfl | hne := eq_or_ne d c
    · rw [if_pos rfl]
      obtain ⟨h, -⟩ | h := h <;> exact .inr (by rw [h]; rfl)
    · rw [if_neg hne]
      exact h.imp (fun h => ⟨h.1, (List.mem_cons.1 h.2).resolve_left hne⟩) id

section
variable {s : State} {g : List Nat} {site c : Nat} {r : Recovery} (hc : c ∈ g) (hrecov : ∀ d ∈ g, (s.cluster d).recov = some r)
  (hrotated : r.rotated = true) (hagain : r.again = false) (hsite : r.site = some site)
include hc hrecov hrotated hagain hsite

theorem State.confirmReplay_eq :
    s.confirmReplay g = ((each g s State.unrotate).modCore site fun c => { c with rot := false }).confirmMismatch site := by
  have hfind : (g.findSome? fun c => (s.cluster c).recov.bind fun r => if r.rotated && !r.again then r.site else none) = some site := by
    cases g with
    | nil => exact absurd hc List.not_mem_nil
    | cons d g =>
      rw [List.findSome?_cons, hrecov d List.mem_cons_self]
      simp [hrotated, hagain, hsite]
  unfold State.confirmReplay
  rw [hfind]
  rfl

/-- The group's mismatch is confirmed against the site, and its arrays are no longer rotated. -/
theorem State.confirmReplay_leaves : (s.confirmReplay g).errs.confirmed = s.errs.confirmed ++ [(site, s.now)] ∧ s.ringBut (s.confirmReplay g) ∧
    (s.confirmReplay g).core site = { s.core site with rot := false } ∧ s.coresBut (s.confirmReplay g) [site] ∧
    ∀ d ∈ g, (s.confirmReplay g).cluster d = { s.cluster d with recov := some { r with rotated := false } } := by
  obtain ⟨u, hu⟩ : ∃ u, each g s State.unrotate = u := ⟨_, rfl⟩
  have hcluster : ∀ d ∈ g, u.cluster d = { s.cluster d with recov := some { r with rotated := false } } := fun d hd => by
    rw [← hu]
    exact State.each_unrotate (.inl ⟨congrArg (fun x => ({ s.cluster d with recov := x } : Cluster)) (hrecov d hd), hd⟩)
  have hbeside : ({ u with clusters := [] } : State) = { s with clusters := [] } := by
    rw [← hu]
    exact each_frame (fun x : State => ({ x with clusters := [] } : State)) g s State.unrotate fun _ _ => rfl
  have hcore (i : Nat) : u.core i = s.core i := (congrArg (fun x : State => x.core i) hbeside :)
  have herrs : u.errs = s.errs := (congrArg State.errs hbeside :)
  have hnow : u.now = s.now := (congrArg State.now hbeside :)
  have hring (t : State) : u.ringBut t → s.ringBut t :=
    State.ringBut.of_same (congrArg State.mem hbeside :) (congrArg (fun x : State => x.getF R.ERR.RING_BASE.BASE 24) hbeside :) (congrArg State.hbm hbeside :)
  obtain ⟨hrec, hconfirmed⟩ := (u.modCore site fun c => { c with rot := false }).confirmMismatch_leaves site
  rw [State.confirmReplay_eq hc hrecov hrotated hagain hsite, hu]
  have hcores (i : Nat) : ((u.modCore site fun c => { c with rot := false }).confirmMismatch site).core i =
      if i = site then { u.core site with rot := false } else u.core i := by
    have hb : ((u.modCore site fun c => { c with rot := false }).confirmMismatch site).core i = (u.modCore site fun c => { c with rot := false }).core i :=
      (congrArg (fun x : State => x.core i) hrec.beside :)
    rw [hb, State.core_modCore]
  refine ⟨?_, hring _ hrec.ring, ?_, fun i hi => ?_, fun d hd => ?_⟩
  · rw [hconfirmed, ← herrs, ← hnow]
    rfl
  · rw [hcores, if_pos rfl, hcore]
  · rw [hcores, if_neg (by simpa using hi), hcore]
  · have hb : ((u.modCore site fun c => { c with rot := false }).confirmMismatch site).cluster d = u.cluster d :=
      (congrArg (fun x : State => x.cluster d) hrec.beside :)
    rw [hb, hcluster d hd]

end

end Sys2Proof.Machine
end

section
/-! Proofs. GROUP_REPLAY (R304, R305, R312, R314, R320): what each stage of a replay leaves alone, and what the relaunch gives each core. -/

namespace Sys2Proof.Machine

/-! ### A core receives the state of a launch (R232, R303) -/

theorem Tab.get_of_not_mem {α : Type} (d : α) {t : Tab α} {k : Nat} (h : k ∉ t.map (·.1)) : Tab.get d t k = d := by
  induction t with
  | nil => rfl
  | cons e t ih =>
    obtain ⟨j, v⟩ := e
    rw [List.map_cons, List.mem_cons, not_or] at h
    rw [Tab.get, if_neg fun hj => h.1 hj.symm, ih h.2]

/-- All but the cores and the registers. -/
def State.besideCore (s : State) : State := { s with cores := [], regs := [] }

theorem State.loadCore_besideCore (s : State) (i la : Nat) (r : LaunchRec) : (s.loadCore i la r).besideCore = s.besideCore := by
  have hset (x : State) (f : Fld) (v : Nat) : (x.setF f i v).besideCore = x.besideCore := rfl
  have hcore (x : State) (f : CoreSite → CoreSite) : (x.modCore i f).besideCore = x.besideCore := rfl
  unfold State.loadCore State.faultAt
  dsimp only
  rw [hset, hset, hset, hset, hcore]

theorem State.views_of_besideCore {s t : State} (h : t.besideCore = s.besideCore) : (∀ i, t.run i = s.run i) ∧ (∀ i, t.launchOf i = s.launchOf i) ∧
    (∀ d, t.cluster d = s.cluster d) ∧ t.now = s.now :=
  ⟨fun i => (congrArg (fun x : State => x.run i) h :), fun i => (congrArg (fun x : State => x.launchOf i) h :),
    fun d => (congrArg (fun x : State => x.cluster d) h :), (congrArg State.now h :)⟩

theorem State.core_loadCore (s : State) (i la j : Nat) (r : LaunchRec) : (s.loadCore i la r).core j =
    if j = i then (s.core i).fresh r (s.getF R.CORE.INSTR_CNT.COUNT i) else s.core j := by
  unfold State.loadCore State.faultAt
  dsimp only
  rw [State.setF_core, State.setF_core, State.setF_core, State.setF_core, State.core_modCore]
  rfl

theorem State.getF_loadCore (s : State) (i la : Nat) (r : LaunchRec) {f : Fld}
    (h : ∀ g ∈ freshRegs, (64 * f.off + f.lo) % 262144 ≠ (64 * g.off + g.lo) % 262144) (k : Nat) :
    (s.loadCore i la r).getF f k = s.getF f k := by
  have hset (x : State) (g : Fld) (hg : g ∈ freshRegs) (v : Nat) : (x.setF g i v).getF f k = x.getF f k :=
    State.getF_setF_ne _ _ _ _ _ _ (Fld.key_ne_of_low (h g hg) k i)
  unfold State.loadCore State.faultAt
  dsimp only
  rw [hset _ _ (by decide), hset _ _ (by decide), hset _ _ (by decide), hset _ _ (by decide), State.modCore_getF]

/-- The token counts that a core's snapshot and log name (R303). -/
def Cluster.tokensOf (x : Cluster) (site : Nat) : List Nat := (((x.snap ++ x.ext).map (·.1)).dedup).filter fun k => k / 256 == site % 28

/-- A token count once restored. -/
def Cluster.restored (x : Cluster) (k : Nat) : Nat := min (Tab.get 0 x.snap k + Tab.get 0 x.ext k) 65535

/-- One token count is restored; what exceeds it is held by the router. -/
def State.restoreToken (x : Cluster) (site : Nat) (s : State) (k : Nat) : State :=
  (s.modCore site fun y => y.setToken (k % 256) (x.restored k)).modCluster (clusterOf site) fun y =>
    { y with excess := Tab.set 0 y.excess k (Tab.get 0 x.snap k + Tab.get 0 x.ext k - 65535) }

theorem State.restoreTokens_eq (s : State) (site : Nat) : s.restoreTokens site =
    each ((s.cluster (clusterOf site)).tokensOf site) s (State.restoreToken (s.cluster (clusterOf site)) site) := rfl

/-- What neither a core's tokens nor a cluster's excess is, restoring keeps. -/
theorem State.restoreTokens_part {β : Type} {part : State → β} {site : Nat} (hcore : ∀ s k v, part (State.modCore s site fun y => y.setToken k v) = part s)
    (hcluster : ∀ s (e : Tab Nat → Tab Nat), part (State.modCluster s (clusterOf site) fun y => { y with excess := e y.excess }) = part s) (s : State) :
    part (s.restoreTokens site) = part s := by
  rw [s.restoreTokens_eq]
  exact each_frame part _ _ _ fun u k => (hcluster _ fun e => Tab.set 0 e k _).trans (hcore u _ _)

/-- The tokens of a core, set from a list of keys of that core. -/
theorem get_foldl_setToken (v : Nat → Nat) (m a : Nat) (l : List Nat) (hl : ∀ k ∈ l, k / 256 = m) (t : Tab Nat) :
    Tab.get 0 (l.foldl (fun t k => Tab.set 0 t (k % 256) (v k)) t) a = if 256 * m + a ∈ l then v (256 * m + a) else Tab.get 0 t a := by
  induction l generalizing t with
  | nil => rfl
  | cons k l ih =>
    have hk := hl k List.mem_cons_self
    rw [List.foldl_cons, ih fun j hj => hl j (List.mem_cons_of_mem k hj)]
    by_cases hmem : 256 * m + a ∈ l
    · rw [if_pos hmem, if_pos (List.mem_cons_of_mem k hmem)]
    · rw [if_neg hmem, Tab.get_set]
      by_cases hak : a = k % 256
      · obtain rfl : k = 256 * m + a := by omega
        rw [if_pos hak, if_pos List.mem_cons_self]
      · rw [if_neg hak, if_neg]
        rw [List.mem_cons, not_or]
        exact ⟨by omega, hmem⟩

theorem State.core_restoreToken (x : Cluster) (site : Nat) (s : State) (k j : Nat) : (s.restoreToken x site k).core j =
    if j = site then (s.core site).setToken (k % 256) (x.restored k) else s.core j := by
  unfold State.restoreToken
  rw [State.modCluster_core, State.core_modCore]

theorem State.core_each_restoreToken (x : Cluster) (site : Nat) (l : List Nat) (s : State) : (each l s (State.restoreToken x site)).core site =
    { s.core site with tok := l.foldl (fun t k => Tab.set 0 t (k % 256) (x.restored k)) (s.core site).tok } := by
  induction l generalizing s with
  | nil => rfl
  | cons k l ih =>
    rw [each_cons, ih, State.core_restoreToken, if_pos rfl]
    rfl

/-- A core whose tokens were zero has those of its snapshot and its log (R303). -/
theorem State.token_restoreTokens {s : State} {site : Nat} (h : (s.core site).tok = []) (k : Nat) (hk : k < 256) :
    ((s.restoreTokens site).core site).token k = min 65535
      (Tab.get 0 (s.cluster (clusterOf site)).snap (tokKey site k) + Tab.get 0 (s.cluster (clusterOf site)).ext (tokKey site k)) := by
  rw [s.restoreTokens_eq, State.core_each_restoreToken]
  generalize s.cluster (clusterOf site) = x
  have hmine : ∀ j ∈ x.tokensOf site, j / 256 = site % 28 := fun j hj => eq_of_beq (List.mem_filter.1 hj).2
  show Tab.get 0 (List.foldl _ (s.core site).tok _) k = _
  rw [h, get_foldl_setToken x.restored (site % 28) k _ hmine, show 256 * (site % 28) + k = tokKey site k from rfl, Nat.min_comm]
  split
  · rfl
  · next hnot =>
    have hkeys : tokKey site k ∉ (x.snap ++ x.ext).map (·.1) := fun hin => hnot (List.mem_filter.2 ⟨List.mem_dedup.2 hin, by
      rw [beq_iff_eq]
      unfold tokKey
      omega⟩)
    rw [List.map_append, List.mem_append, not_or] at hkeys
    rw [Tab.get_of_not_mem 0 hkeys.1, Tab.get_of_not_mem 0 hkeys.2]
    rfl

theorem State.core_restoreTokens_ne (s : State) {site i : Nat} (h : i ≠ site) : (s.restoreTokens site).core i = s.core i :=
  State.restoreTokens_part (part := fun u => u.core i) (fun u _ _ => (State.core_modCore u site i _).trans (if_neg h)) (fun _ _ => rfl) s

/-! ### The stages of a replay -/

/-- A part of the state that a relaunch, its kernels' images and its routes leave alone. -/
structure LoadKeeps {β : Type} (part : State → β) : Prop where
  load : ∀ s i la r, part (State.loadCore s i la r) = part s
  restore : ∀ s i, part (State.restoreTokens s i) = part s
  routes : ∀ s f, part (State.modMesh s f) = part s
  image : ∀ s i a b, part (State.modCore s i fun c => (c.wrLm 0 a).wrLm 0x3FC00 b) = part s

section
variable {β : Type} {part : State → β} (k : LoadKeeps part)
include k

theorem LoadKeeps.reload (s : State) (i : Nat) (r : LaunchRec) : part ((s.loadCore i r.cmdLa r).restoreTokens i) = part s :=
  (k.restore _ i).trans (k.load s i _ r)

theorem LoadKeeps.reloadGroup (s : State) (g : List Nat) : part (s.reloadGroup g) = part s := by
  refine each_frame part _ s _ fun u i => ?_
  split
  · split
    · exact k.reload u i _
    · rfl
  · rfl

theorem LoadKeeps.placeKernels (s : State) (j : Job) (l : List KImage) : part (each l s fun s k => s.placeKernel j k) = part s := by
  refine each_frame part _ s _ fun u x => ?_
  unfold State.placeKernel
  split
  · exact k.image u _ _ _
  · rfl

end

/-- A cluster comes to replay. -/
def State.markReplay (r : Recovery) (s : State) (c : Nat) : State :=
  ((s.modCluster c fun x => { x with pend := [], want := none, recov := some r }).setF R.CL.REPLAY_STATUS.STATE c 2).addF R.CL.REPLAY_COUNT.REPLAYS c 1

/-- A core is relaunched. -/
def State.relaunch (j : Job) (w : Recovery) (spin : Bool) (s : State) (i : Nat) : State :=
  match s.run i with
  | none => s
  | some r =>
    let q := s.resumeRec j i r
    let s := (s.loadCore i q.cmdLa q).restoreTokens i
    let s := (s.setRun i (some q)).setWaiting i (q :: (s.waitingAt i).filter fun r => !r.resume)
    s.modCore i fun c => { c with rot := spin && w.site == some i }

/-- The state of a group that has stopped for its replay. -/
def State.stopped (s : State) (g : List Nat) : State := ((each (s.liveSites g) s State.stopForReplay).reloadGroup g).clearRoutes g

/-- Whether the replay rotates the arrays of its site (R306). -/
def State.spins (s : State) (g : List Nat) (w : Recovery) : Bool := w.spin && w.site.any (s.liveSites g).contains

/-- The state before the cores are relaunched. -/
def State.readied (s : State) (j : Job) (g : List Nat) (w : Recovery) : State :=
  each (j.prog.kernels.filter fun k => (j.siteOf k.lcore).any (s.liveSites g).contains)
    (each g (s.stopped g) (State.markReplay { w with rotated := s.spins g w })) fun s k => s.placeKernel j k

theorem State.replay_eq (s : State) (j : Job) (g : List Nat) (w : Recovery) :
    s.replay j g w = each (s.liveSites g) (s.readied j g w) (State.relaunch j w (s.spins g w)) := rfl

theorem State.stopForReplay_besideCore (s : State) (i : Nat) : (s.stopForReplay i).besideCore = s.besideCore := by
  have hcore (x : State) (f : CoreSite → CoreSite) : (x.modCore i f).besideCore = x.besideCore := rfl
  unfold State.stopForReplay
  rw [hcore]
  unfold State.yieldSlice
  split <;> rfl

theorem State.core_stopForReplay_ne (s : State) {i k : Nat} (h : k ≠ i) : (s.stopForReplay i).core k = s.core k :=
  ((State.core_modCore _ _ _ _).trans (if_neg h)).trans (s.core_yieldSlice_ne h)

theorem State.core_stopForReplay (s : State) (i : Nat) : ((s.stopForReplay i).core i).st = .idle ∧ ((s.stopForReplay i).core i).fly = [] := by
  have h : (s.stopForReplay i).core i = { ((s.yieldSlice i).core i).afterReset s.now with st := .idle } :=
    (State.core_modCore _ _ _ _).trans (if_pos rfl)
  rw [h]
  exact ⟨rfl, rfl⟩

theorem State.getF_stopForReplay (s : State) (i : Nat) {f : Fld} (h : ∀ i j, f.key i ≠ R.CL.LULL_STATUS.ACTIVE.key j) (k : Nat) :
    (s.stopForReplay i).getF f k = s.getF f k := s.getF_yieldSlice i h k

theorem LoadKeeps.stopped {β : Type} {part : State → β} (k : LoadKeeps part) (s : State) (g : List Nat) :
    part (s.stopped g) = part (each (s.liveSites g) s State.stopForReplay) := by
  have hroutes (u : State) : part (u.clearRoutes g) = part u := by
    unfold State.clearRoutes
    exact k.routes u _
  exact (hroutes _).trans (k.reloadGroup _ g)

theorem LoadKeeps.readied {β : Type} {part : State → β} (k : LoadKeeps part) (s : State) (j : Job) (g : List Nat) (w : Recovery) :
    part (s.readied j g w) = part (each g (s.stopped g) (State.markReplay { w with rotated := s.spins g w })) := k.placeKernels _ j _

/-- What each stage up to the relaunch leaves alone, is as it was. -/
theorem State.readied_part {β : Type} {part : State → β} (k : LoadKeeps part) (hstop : ∀ s i, part (State.stopForReplay s i) = part s)
    (hmark : ∀ r s c, part (State.markReplay r s c) = part s) (s : State) (j : Job) (g : List Nat) (w : Recovery) : part (s.readied j g w) = part s :=
  (k.readied s j g w).trans ((each_frame part _ _ _ (hmark _)).trans ((k.stopped s g).trans (each_frame part _ _ _ hstop)))

/-- What runs, and the time. -/
def State.runs (s : State) : Tab (Option LaunchRec) × Nat := (s.running, s.now)

theorem State.runs_of_besideCore {s t : State} (h : t.besideCore = s.besideCore) : t.runs = s.runs := (congrArg State.runs h :)

theorem loadKeeps_runs : LoadKeeps State.runs where
  load s i la r := State.runs_of_besideCore (s.loadCore_besideCore i la r)
  restore s _ := State.restoreTokens_part (fun _ _ _ => rfl) (fun _ _ => rfl) s
  routes _ _ := rfl
  image _ _ _ _ := rfl

/-- A cluster without what its router holds in excess. -/
def State.clusterLess (s : State) (d : Nat) : Cluster := { s.cluster d with excess := [] }

theorem State.clusterLess_modCluster (s : State) (c d : Nat) (f : Cluster → Cluster) : (s.modCluster c f).clusterLess d =
    if d = c then { f (s.cluster c) with excess := [] } else s.clusterLess d := by
  unfold State.clusterLess
  rw [State.cluster_modCluster]
  split <;> rfl

theorem State.clusterLess_of_besideCore {s t : State} (h : t.besideCore = s.besideCore) (d : Nat) : t.clusterLess d = s.clusterLess d :=
  (congrArg (fun x : State => x.clusterLess d) h :)

theorem State.clusterLess_restoreTokens (s : State) (i d : Nat) : (s.restoreTokens i).clusterLess d = s.clusterLess d := by
  have hexcess (u : State) (e : Tab Nat → Tab Nat) :
      (u.modCluster (clusterOf i) fun y => { y with excess := e y.excess }).clusterLess d = u.clusterLess d := by
    rw [State.clusterLess_modCluster]
    split
    · next h =>
      rw [h]
      rfl
    · rfl
  exact State.restoreTokens_part (part := fun s => s.clusterLess d) (fun _ _ _ => rfl) hexcess s

theorem loadKeeps_clusterLess (d : Nat) : LoadKeeps fun s => s.clusterLess d where
  load s i la r := State.clusterLess_of_besideCore (s.loadCore_besideCore i la r) d
  restore s i := s.clusterLess_restoreTokens i d
  routes _ _ := rfl
  image _ _ _ _ := rfl

theorem loadKeeps_getF {f : Fld} (h : ∀ g ∈ freshRegs, (64 * f.off + f.lo) % 262144 ≠ (64 * g.off + g.lo) % 262144) (d : Nat) :
    LoadKeeps fun s => s.getF f d where
  load s i la r := s.getF_loadCore i la r h d
  restore s _ := State.restoreTokens_part (part := fun s => s.getF f d) (fun _ _ _ => rfl) (fun _ _ => rfl) s
  routes _ _ := rfl
  image _ _ _ _ := rfl

/-- Whether a core runs, and what its units do. -/
def State.coreRuns (s : State) (i : Nat) : SeqState × List Fly := ((s.core i).st, (s.core i).fly)

theorem State.coreRuns_modCore (s : State) (k i : Nat) {f : CoreSite → CoreSite} (h : ∀ x, (f x).st = x.st ∧ (f x).fly = x.fly) :
    (s.modCore k f).coreRuns i = s.coreRuns i := by
  unfold State.coreRuns
  rw [State.core_modCore]
  split
  · next hi => rw [hi, (h _).1, (h _).2]
  · rfl

theorem loadKeeps_coreRuns (i : Nat) : LoadKeeps fun s => s.coreRuns i where
  load s k la r := by
    unfold State.coreRuns
    rw [State.core_loadCore]
    split
    · next h => rw [h]; rfl
    · rfl
  restore s k := State.restoreTokens_part (part := fun s => s.coreRuns i) (fun u t v => u.coreRuns_modCore k i fun _ => ⟨rfl, rfl⟩) (fun _ _ => rfl) s
  routes _ _ := rfl
  image s k a b := s.coreRuns_modCore k i fun _ => ⟨rfl, rfl⟩

/-- What a relaunch leaves alone. -/
theorem State.relaunch_part {β : Type} {part : State → β} (k : LoadKeeps part) (hrun : ∀ s i r, part (State.setRun s i r) = part s)
    (hwait : ∀ s i l, part (State.setWaiting s i l) = part s) (hrot : ∀ s i b, part (State.modCore s i fun c => { c with rot := b }) = part s)
    (j : Job) (w : Recovery) (spin : Bool) (s : State) (i : Nat) : part (s.relaunch j w spin i) = part s := by
  unfold State.relaunch
  split
  · rfl
  · rw [hrot, hwait, hrun]
    exact k.reload s i (s.resumeRec j i _)

/-! ### What a replay leaves (R304, R305) -/

theorem State.clusterLess_markReplay (r : Recovery) (s : State) (a b : Nat) : (s.markReplay r a).clusterLess b =
    if b = a then { s.clusterLess a with pend := [], want := none, recov := some r } else s.clusterLess b := by
  have h : (s.markReplay r a).clusterLess b =
      (s.modCluster a fun x => { x with pend := [], want := none, recov := some r }).clusterLess b := rfl
  rw [h, State.clusterLess_modCluster]
  rfl

section
variable (s : State) (j : Job) (g : List Nat) (w : Recovery)

theorem State.readied_runs : (s.readied j g w).runs = s.runs :=
  State.readied_part loadKeeps_runs (fun u i => State.runs_of_besideCore (u.stopForReplay_besideCore i)) (fun _ _ _ => rfl) s j g w

/-- A core of the group is stopped. -/
theorem State.coreRuns_replay {i : Nat} (hi : i ∈ s.liveSites g) : (s.replay j g w).coreRuns i = (.idle, []) := by
  have hstopped (l : List Nat) (u : State) (h : i ∈ l ∨ u.coreRuns i = (.idle, [])) : (each l u State.stopForReplay).coreRuns i = (.idle, []) := by
    induction l generalizing u with
    | nil => exact h.resolve_left List.not_mem_nil
    | cons k l ih =>
      rw [each_cons]
      refine ih _ ?_
      obtain rfl | hne := eq_or_ne i k
      · exact .inr (Prod.ext (u.core_stopForReplay i).1 (u.core_stopForReplay i).2)
      · refine h.imp (fun h => (List.mem_cons.1 h).resolve_left hne) fun h => ?_
        unfold State.coreRuns
        rw [u.core_stopForReplay_ne hne]
        exact h
  have k := loadKeeps_coreRuns i
  rw [State.replay_eq, each_frame (fun u => u.coreRuns i) _ _ _ (State.relaunch_part k (fun _ _ _ => rfl) (fun _ _ _ => rfl)
    (fun u m b => u.coreRuns_modCore m i fun _ => ⟨rfl, rfl⟩) j w _)]
  exact (k.readied s j g w).trans ((each_frame (fun u => u.coreRuns i) g _ (State.markReplay _) fun _ _ => rfl).trans
    ((k.stopped s g).trans (hstopped _ s (.inl hi))))

/-- What a core's relaunch leaves alone, is as the clusters' marks leave it. -/
theorem State.replay_part {β : Type} {part : State → β} (k : LoadKeeps part) (hrun : ∀ s i r, part (State.setRun s i r) = part s)
    (hwait : ∀ s i l, part (State.setWaiting s i l) = part s) (hrot : ∀ s i b, part (State.modCore s i fun c => { c with rot := b }) = part s) :
    part (s.replay j g w) = part (each g (s.stopped g) (State.markReplay { w with rotated := s.spins g w })) := by
  rw [State.replay_eq, each_frame part _ _ _ (State.relaunch_part k hrun hwait hrot j w _)]
  exact k.readied s j g w

variable {g} (hg : g.Nodup) {d : Nat} (hd : d ∈ g)
include hg hd

theorem State.clusterLess_replay : (s.replay j g w).clusterLess d =
    { s.clusterLess d with pend := [], want := none, recov := some { w with rotated := s.spins g w } } := by
  have hmarked := each_at State.clusterLess (fun _ => True) (fun _ x => { x with pend := [], want := none, recov := some { w with rotated := s.spins g w } })
    (State.markReplay { w with rotated := s.spins g w }) (fun _ _ _ _ => trivial)
    (fun u a _ _ => (State.clusterLess_markReplay _ u a a).trans (if_pos rfl))
    (fun u a _ _ b hb => (State.clusterLess_markReplay _ u a b).trans (if_neg hb))
    hg (s := s.stopped g) trivial d
  have hstopped : (s.stopped g).clusterLess d = s.clusterLess d := ((loadKeeps_clusterLess d).stopped s g).trans
    (each_frame (fun u => u.clusterLess d) _ _ _ fun u i => State.clusterLess_of_besideCore (u.stopForReplay_besideCore i) d)
  rw [State.replay_part s j g w (loadKeeps_clusterLess d) (fun _ _ _ => rfl) (fun _ _ _ => rfl) fun _ _ _ => rfl, hmarked, if_pos hd, hstopped]

/-- STATE shows the replay, and REPLAYS counts it (R305, R325). -/
theorem State.getF_replay : (s.replay j g w).getF R.CL.REPLAY_STATUS.STATE d = 2 ∧
    (s.replay j g w).getF R.CL.REPLAY_COUNT.REPLAYS d = min 65535 (s.getF R.CL.REPLAY_COUNT.REPLAYS d + 1) := by
  have hstate := each_at (fun u d => u.getF R.CL.REPLAY_STATUS.STATE d) (fun _ => True) (fun _ _ => 2) (State.markReplay { w with rotated := s.spins g w })
    (fun _ _ _ _ => trivial)
    (fun u a _ _ => (State.getF_addF_ne _ _ _ _ _ _ (Fld.key_ne_of_low (by decide) _ _)).trans (State.getF_setF_same _ _ _ _))
    (fun u a _ _ b hb => (State.getF_addF_ne _ _ _ _ _ _ (Fld.key_ne_of_low (by decide) _ _)).trans
      (State.getF_setF_ne _ _ _ _ _ _ (Fld.key_ne_of_inst _ hb))) hg (s := s.stopped g) trivial d
  have hcount := each_at (fun u d => u.getF R.CL.REPLAY_COUNT.REPLAYS d) (fun _ => True) (fun _ n => min 65535 (n + 1))
    (State.markReplay { w with rotated := s.spins g w }) (fun _ _ _ _ => trivial)
    (fun u a _ _ => (State.getF_addF_same _ R.CL.REPLAY_COUNT.REPLAYS a 1).trans (congrArg (fun n => min 65535 (n + 1))
      (State.getF_setF_ne _ R.CL.REPLAY_STATUS.STATE _ a a 2 (Fld.key_ne_of_low (by decide) _ _))))
    (fun u a _ _ b hb => (State.getF_addF_ne _ _ _ _ _ _ (Fld.key_ne_of_inst _ hb)).trans
      (State.getF_setF_ne _ _ _ _ _ _ (Fld.key_ne_of_low (by decide) _ _))) hg (s := s.stopped g) trivial d
  have k (f : Fld) (hf : ∀ h ∈ freshRegs, (64 * f.off + f.lo) % 262144 ≠ (64 * h.off + h.lo) % 262144) := loadKeeps_getF hf d
  have hstopped : (s.stopped g).getF R.CL.REPLAY_COUNT.REPLAYS d = s.getF R.CL.REPLAY_COUNT.REPLAYS d :=
    ((k _ (by decide)).stopped s g).trans (each_frame (fun u => u.getF R.CL.REPLAY_COUNT.REPLAYS d) _ _ _ fun u i =>
      u.getF_stopForReplay i (fun _ _ => Fld.key_ne_of_low (by decide) _ _) d)
  rw [if_pos hd] at hstate hcount
  rw [hstopped] at hcount
  exact ⟨(State.replay_part s j g w (k _ (by decide)) (fun _ _ _ => rfl) (fun _ _ _ => rfl) fun _ _ _ => rfl).trans hstate,
    (State.replay_part s j g w (k _ (by decide)) (fun _ _ _ => rfl) (fun _ _ _ => rfl) fun _ _ _ => rfl).trans hcount⟩

end

/-- Where each step brings its own place from one condition to another, and leaves the other places' alone, each place of the list gets there. -/
theorem each_post (P : State → Prop) (pre post : State → Nat → Prop) (f : State → Nat → State) {l : List Nat} (hP : ∀ s a, P s → P (f s a))
    (hself : ∀ s a, P s → pre s a → post (f s a) a) (hother : ∀ s a b, b ≠ a → (pre s b → pre (f s a) b) ∧ (post s b → post (f s a) b))
    (hl : l.Nodup) {s : State} (hs : P s) {i : Nat} (h : i ∈ l ∧ pre s i ∨ i ∉ l ∧ post s i) : post (each l s f) i := by
  induction l generalizing s with
  | nil => exact (h.resolve_left fun h => List.not_mem_nil h.1).2
  | cons a l ih =>
    obtain ⟨ha, hl⟩ := List.nodup_cons.1 hl
    rw [each_cons]
    refine ih hl (hP s a hs) ?_
    obtain rfl | hne := eq_or_ne i a
    · exact .inr ⟨ha, hself s i hs (h.resolve_right fun h => h.1 List.mem_cons_self).2⟩
    · refine h.imp (fun h => ⟨(List.mem_cons.1 h.1).resolve_left hne, (hother s a i hne).1 h.2⟩) fun h => ?_
      exact ⟨fun hi => h.1 (List.mem_cons_of_mem a hi), (hother s a i hne).2 h.2⟩

/-- A site whose core is relaunched at `tl`, with the tokens `n`. -/
def State.relaunched (s : State) (tl : Nat) (n : Nat → Nat) (i : Nat) : Prop :=
  (∃ q, s.launchOf i = some q ∧ s.run i = some q ∧ q.resume = true ∧ q.tl = tl) ∧ ∀ k, k < 256 → (s.core i).token k = n k

section
variable (j : Job) (w : Recovery) (spin : Bool) (s : State)

theorem State.relaunch_eq {i : Nat} {r : LaunchRec} (h : s.run i = some r) : ∃ l, s.relaunch j w spin i =
    (((((s.loadCore i (s.resumeRec j i r).cmdLa (s.resumeRec j i r)).restoreTokens i).setRun i (some (s.resumeRec j i r))).setWaiting i
      (s.resumeRec j i r :: l)).modCore i fun c => { c with rot := spin && w.site == some i }) := by
  unfold State.relaunch
  rw [h]
  exact ⟨_, rfl⟩

theorem State.resumeRec_tl (i : Nat) (r : LaunchRec) : (s.resumeRec j i r).resume = true ∧ (s.resumeRec j i r).tl = s.now + 20000 := by
  unfold State.resumeRec
  dsimp only
  split <;> exact ⟨rfl, rfl⟩

omit j w spin s in
/-- What a site shows once its launch is put there. -/
theorem State.launched_views (u : State) (i b : Nat) (q : LaunchRec) (l : List LaunchRec) (rot : Bool) :
    (((u.setRun i (some q)).setWaiting i (q :: l)).modCore i fun c => { c with rot := rot }).run b = (if b = i then some q else u.run b) ∧
    (((u.setRun i (some q)).setWaiting i (q :: l)).modCore i fun c => { c with rot := rot }).launchOf b = (if b = i then some q else u.launchOf b) ∧
    (((u.setRun i (some q)).setWaiting i (q :: l)).modCore i fun c => { c with rot := rot }).core b =
      if b = i then { u.core i with rot := rot } else u.core b := by
  refine ⟨u.run_setRun i b _, (u.setRun i (some q)).launchOf_setWaiting i b _, ?_⟩
  rw [State.core_modCore]
  rfl

omit j w spin s in
theorem State.runs_restoreTokens (u : State) (i b : Nat) : (u.restoreTokens i).run b = u.run b ∧ (u.restoreTokens i).launchOf b = u.launchOf b :=
  ⟨State.restoreTokens_part (site := i) (part := fun x => x.run b) (fun _ _ _ => rfl) (fun _ _ => rfl) u,
    State.restoreTokens_part (site := i) (part := fun x => x.launchOf b) (fun _ _ _ => rfl) (fun _ _ => rfl) u⟩

/-- The core of a site that is relaunched. -/
theorem State.relaunch_self {i : Nat} (h : (s.run i).isSome = true) : (s.relaunch j w spin i).relaunched (s.now + 20000)
    (fun k => min 65535 (Tab.get 0 (s.cluster (clusterOf i)).snap (tokKey i k) + Tab.get 0 (s.cluster (clusterOf i)).ext (tokKey i k))) i := by
  obtain ⟨r, hr⟩ := Option.isSome_iff_exists.1 h
  obtain ⟨l, hl⟩ := s.relaunch_eq j w spin hr
  obtain ⟨hres, htl⟩ := s.resumeRec_tl j i r
  generalize s.resumeRec j i r = q at *
  obtain ⟨-, -, hcluster, -⟩ := State.views_of_besideCore (s.loadCore_besideCore i q.cmdLa q)
  have htok : ((s.loadCore i q.cmdLa q).core i).tok = [] := by
    rw [State.core_loadCore, if_pos rfl]
    rfl
  have htokens (k : Nat) (hk : k < 256) := State.token_restoreTokens htok k hk
  rw [hcluster] at htokens
  generalize (s.loadCore i q.cmdLa q).restoreTokens i = u at *
  obtain ⟨hrun, hlaunch, hcore⟩ := u.launched_views i i q l (spin && w.site == some i)
  rw [if_pos rfl] at hrun hlaunch hcore
  rw [hl]
  refine ⟨⟨q, hlaunch, hrun, hres, htl⟩, fun k hk => ?_⟩
  rw [hcore]
  exact htokens k hk

/-- A relaunch is of its own site alone. -/
theorem State.relaunch_other {i b : Nat} (h : b ≠ i) : (s.relaunch j w spin i).run b = s.run b ∧ (s.relaunch j w spin i).launchOf b = s.launchOf b ∧
    (s.relaunch j w spin i).core b = s.core b := by
  cases hr : s.run i with
  | none =>
    unfold State.relaunch
    rw [hr]
    exact ⟨rfl, rfl, rfl⟩
  | some r =>
    obtain ⟨l, hl⟩ := s.relaunch_eq j w spin hr
    rw [hl]
    generalize s.resumeRec j i r = q
    obtain ⟨hrun, hlaunch, -, -⟩ := State.views_of_besideCore (s.loadCore_besideCore i q.cmdLa q)
    have hcoreLoad := (s.core_loadCore i q.cmdLa b q).trans (if_neg h)
    generalize s.loadCore i q.cmdLa q = u at *
    obtain ⟨hrunU, hlaunchU⟩ := u.runs_restoreTokens i b
    have hcoreU := u.core_restoreTokens_ne h
    generalize u.restoreTokens i = v at *
    obtain ⟨hrunV, hlaunchV, hcoreV⟩ := v.launched_views i b q l (spin && w.site == some i)
    rw [if_neg h] at hrunV hlaunchV hcoreV
    exact ⟨(hrunV.trans hrunU).trans (hrun b), (hlaunchV.trans hlaunchU).trans (hlaunch b), (hcoreV.trans hcoreU).trans hcoreLoad⟩

theorem State.relaunch_clusterLess (i d : Nat) : (s.relaunch j w spin i).clusterLess d = s.clusterLess d :=
  State.relaunch_part (part := fun u => u.clusterLess d) (loadKeeps_clusterLess d) (fun _ _ _ => rfl) (fun _ _ _ => rfl) (fun _ _ _ => rfl) j w spin s i

theorem loadKeeps_now : LoadKeeps State.now where
  load s i la r := (State.views_of_besideCore (s.loadCore_besideCore i la r)).2.2.2
  restore s i := State.restoreTokens_part (site := i) (part := State.now) (fun _ _ _ => rfl) (fun _ _ => rfl) s
  routes _ _ := rfl
  image _ _ _ _ := rfl

theorem State.relaunch_now (i : Nat) : (s.relaunch j w spin i).now = s.now :=
  State.relaunch_part (part := State.now) loadKeeps_now (fun _ _ _ => rfl) (fun _ _ _ => rfl) (fun _ _ _ => rfl) j w spin s i

end

/-- The snapshot and the log of a cluster's tokens, and the time, as a replay finds them. -/
def State.sameTokens (s t : State) : Prop := t.now = s.now ∧ ∀ d, (t.cluster d).snap = (s.cluster d).snap ∧ (t.cluster d).ext = (s.cluster d).ext

theorem State.sameTokens_readied (s : State) (j : Job) (g : List Nat) (w : Recovery) : s.sameTokens (s.readied j g w) := by
  refine ⟨congrArg Prod.snd (s.readied_runs j g w), fun d => ?_⟩
  have hstopped : (s.stopped g).clusterLess d = s.clusterLess d := ((loadKeeps_clusterLess d).stopped s g).trans
    (each_frame (fun u => u.clusterLess d) _ _ _ fun u i => State.clusterLess_of_besideCore (u.stopForReplay_besideCore i) d)
  have hmarked (r : Recovery) (u : State) : (((each g u (State.markReplay r)).clusterLess d).snap, ((each g u (State.markReplay r)).clusterLess d).ext) =
      ((u.clusterLess d).snap, (u.clusterLess d).ext) :=
    each_frame (fun u => ((u.clusterLess d).snap, (u.clusterLess d).ext)) g u (State.markReplay r) fun v c => by
      rw [State.clusterLess_markReplay]
      split
      · next h => rw [h]
      · rfl
  have h := hmarked { w with rotated := s.spins g w } (s.stopped g)
  rw [← (loadKeeps_clusterLess d).readied s j g w, hstopped] at h
  exact ⟨(congrArg Prod.fst h :), (congrArg Prod.snd h :)⟩

theorem State.sameTokens.relaunch {s t : State} (h : s.sameTokens t) (j : Job) (w : Recovery) (spin : Bool) (i : Nat) :
    s.sameTokens (t.relaunch j w spin i) := by
  refine ⟨(t.relaunch_now j w spin i).trans h.1, fun d => ?_⟩
  have hless := t.relaunch_clusterLess j w spin i d
  have hsnap : ((t.relaunch j w spin i).cluster d).snap = (t.cluster d).snap := (congrArg Cluster.snap hless :)
  have hext : ((t.relaunch j w spin i).cluster d).ext = (t.cluster d).ext := (congrArg Cluster.ext hless :)
  exact ⟨hsnap.trans (h.2 d).1, hext.trans (h.2 d).2⟩

/-- Each core of the group is relaunched 20 µs on, with its snapshot's tokens and those logged since (R303, R305). -/
theorem State.relaunched_replay (s : State) (j : Job) {g : List Nat} (hg : g.Nodup) (w : Recovery) {i : Nat} (hi : i ∈ s.liveSites g) :
    (s.replay j g w).relaunched (s.now + 20000)
      (fun k => min 65535 (Tab.get 0 (s.cluster (clusterOf i)).snap (tokKey i k) + Tab.get 0 (s.cluster (clusterOf i)).ext (tokKey i k))) i := by
  have hruns : (s.readied j g w).running = s.running := congrArg Prod.fst (s.readied_runs j g w)
  rw [State.replay_eq]
  refine each_post s.sameTokens (fun u i => (u.run i).isSome = true) (fun u i => u.relaunched (s.now + 20000)
    (fun k => min 65535 (Tab.get 0 (s.cluster (clusterOf i)).snap (tokKey i k) + Tab.get 0 (s.cluster (clusterOf i)).ext (tokKey i k))) i)
    _ (fun u a hu => hu.relaunch j w _ a) (fun u a hu hrun => ?_) (fun u a b hb => ?_) (nodup_liveSites s hg) (s.sameTokens_readied j g w)
    (.inl ⟨hi, ?_⟩)
  · have h := u.relaunch_self j w (s.spins g w) hrun
    rw [hu.1, (hu.2 _).1, (hu.2 _).2] at h
    exact h
  · obtain ⟨hrun, hlaunch, hcore⟩ := u.relaunch_other j w (s.spins g w) hb
    unfold State.relaunched
    rw [hrun, hlaunch, hcore]
    exact ⟨id, id⟩
  · rw [State.run, hruns]
    exact (mem_liveSites.1 hi).2

/-! ### GROUP_REPLAY -/

theorem State.replay_leaves (s : State) (j : Job) {g : List Nat} (hg : g.Nodup) (w : Recovery) : (s.replay j g w).mem = s.mem ∧
    (∀ d ∈ g, ((s.replay j g w).cluster d).pend = [] ∧ ((s.replay j g w).cluster d).want = none ∧
      ((s.replay j g w).cluster d).recov = some { w with rotated := w.spin && w.site.any (s.liveSites g).contains } ∧
      (s.replay j g w).getF R.CL.REPLAY_STATUS.STATE d = 2 ∧
      (s.replay j g w).getF R.CL.REPLAY_COUNT.REPLAYS d = min 65535 (s.getF R.CL.REPLAY_COUNT.REPLAYS d + 1)) ∧
    ∀ i ∈ s.liveSites g, ((s.replay j g w).core i).st = .idle ∧ ((s.replay j g w).core i).fly = [] ∧
      (∃ q, (s.replay j g w).launchOf i = some q ∧ (s.replay j g w).run i = some q ∧ q.resume = true ∧ q.tl = s.now + 20000) ∧
      ∀ k, k < 256 → ((s.replay j g w).core i).token k = min 65535
        (Tab.get 0 (s.cluster (clusterOf i)).snap (tokKey i k) + Tab.get 0 (s.cluster (clusterOf i)).ext (tokKey i k)) := by
  refine ⟨s.replay_mem j g w, fun d hd => ?_, fun i hi => ?_⟩
  · have hless := s.clusterLess_replay j w hg hd
    exact ⟨(congrArg Cluster.pend hless :), (congrArg Cluster.want hless :), (congrArg Cluster.recov hless :), s.getF_replay j w hg hd⟩
  · have hruns := s.coreRuns_replay j g w hi
    obtain ⟨hlaunch, htokens⟩ := s.relaunched_replay j hg w hi
    exact ⟨(congrArg Prod.fst hruns :), (congrArg Prod.snd hruns :), hlaunch, htokens⟩

section
variable {s : State} {c : Fin 24}

theorem exec_groupReplay_free (h : s.jobOf c = none) :
    exec (.groupReplay c) s = .next (if (s.cluster c).want.isSome then s.dropWant (s.groupOf c) else s) := by
  show execGroupReplay c s = _
  unfold execGroupReplay
  rw [h]
  rfl

variable {id : Nat} {j : Job} (hid : s.jobOf c = some id) (hj : s.job id = some j)
include hid hj

theorem exec_groupReplay_idle (h : s.replayOf c j = none) : exec (.groupReplay c) s = .next s := by
  show execGroupReplay c s = _
  unfold execGroupReplay
  rw [hid, Option.bind_some, hj, Option.map_some]
  dsimp only
  rw [h]

theorem exec_groupReplay {w : Recovery} (h : s.replayOf c j = some w) : exec (.groupReplay c) s =
    if !j.prog.replay then .next (s.resetJob id)
    else if (s.groupOf c).any (fun d => (s.cluster d).march.isSome) ||
        (s.liveSites (s.groupOf c)).any fun i => (s.core i).dead || w.held && s.siteState i == 3 then .next s
    else if (s.liveSites (s.groupOf c)).isEmpty then .next ((s.dropWant (s.groupOf c)).reloadGroup (s.groupOf c))
    else .next (s.replay j (s.groupOf c) w) := by
  show execGroupReplay c s = _
  unfold execGroupReplay
  rw [hid, Option.bind_some, hj, Option.map_some]
  dsimp only
  rw [h]

end

/-- What holds a replay up: a march, a dead core, or a core still to be replaced where the group stands committed (R312, R314, R320). -/
theorem State.blocked_iff (s : State) (g : List Nat) (w : Recovery) :
    (g.any (fun d => (s.cluster d).march.isSome) || (s.liveSites g).any fun i => (s.core i).dead || w.held && s.siteState i == 3) = true ↔
      (∃ d ∈ g, (s.cluster d).march ≠ none) ∨ ∃ i ∈ s.liveSites g, (s.core i).dead = true ∨ w.held = true ∧ s.siteState i = 3 := by
  simp only [Bool.or_eq_true, List.any_eq_true, Bool.and_eq_true, beq_iff_eq, Option.isSome_iff_ne_none]

theorem groupReplay_holds {s : State} {c : Fin 24} {id : Nat} {j : Job} {w : Recovery} (hid : s.jobOf c = some id)
    (hj : s.job id = some j) (hw : s.replayOf c j = some w) :
    let g := s.groupOf c
    let blocked := (∃ d ∈ g, (s.cluster d).march ≠ none) ∨ ∃ i ∈ s.liveSites g, (s.core i).dead = true ∨ w.held = true ∧ s.siteState i = 3
    (j.prog.replay = false → exec (.groupReplay c) s = .next (s.resetJob id)) ∧
    (j.prog.replay = true → blocked → exec (.groupReplay c) s = .next s) ∧
    (j.prog.replay = true → ¬ blocked → s.liveSites g = [] → exec (.groupReplay c) s = .next ((s.dropWant g).reloadGroup g)) ∧
    (j.prog.replay = true → ¬ blocked → s.liveSites g ≠ [] → exec (.groupReplay c) s = .next (s.replay j g w)) := by
  intro g blocked
  have hexec := exec_groupReplay hid hj hw
  have hblocked : _ ↔ blocked := s.blocked_iff g w
  refine ⟨fun hr => ?_, fun hr hb => ?_, fun hr hb hl => ?_, fun hr hb hl => ?_⟩
  · exact hexec.trans (if_pos (by rw [hr]; rfl))
  · exact hexec.trans ((if_neg (by rw [hr]; exact Bool.false_ne_true)).trans (if_pos (hblocked.2 hb)))
  · exact hexec.trans ((if_neg (by rw [hr]; exact Bool.false_ne_true)).trans ((if_neg fun h => hb (hblocked.1 h)).trans
      (if_pos (List.isEmpty_iff.2 hl))))
  · exact hexec.trans ((if_neg (by rw [hr]; exact Bool.false_ne_true)).trans ((if_neg fun h => hb (hblocked.1 h)).trans
      (if_neg fun h => hl (List.isEmpty_iff.1 h))))

/-! ### The obligation -/

theorem clusterCommit_holds {s : State} {c : Fin 24} (hg : (s.groupOf c).Nodup) {id : Nat} (hid : s.groupMark (s.groupOf c) = some id)
    (hmay : s.mayCommit (s.groupOf c) = true) (hquar : s.quarantinedIn (s.groupOf c) = false) (hrecov : ∀ d ∈ s.groupOf c, (s.cluster d).recov = none) :
    ∃ (t : State), exec (.clusterCommit c) s = .next t ∧ t.mem = s.mem ∧
      t.tally = { s.tally with transit := s.tally.transit ++ s.pendingOf (s.groupOf c) } ∧
      (∀ d ∈ s.groupOf c, t.cluster d = { s.cluster d with pend := [], snap := s.tokenKeys d, ext := [], ledger := [], markBank := id % 2, marked := true } ∧
        t.getF R.CL.REPLAY_STATUS.MARK_ID d = id) ∧
      ∀ i, t.core i = if i ∈ s.liveSites (s.groupOf c) then
        { (s.core i).goOn with nSend := 0, nTsig := 0, passes := 0, mark0 := min (2 ^ 64 - 1) (s.getF R.CORE.INSTR_CNT.COUNT i + 1) } else s.core i :=
  ⟨_, (exec_clusterCommit hid).trans (by simp only [hmay, hquar, Bool.not_true, Bool.false_eq_true, if_false]),
    State.commit_leaves hrecov id hg (State.groupMark_lt hid)⟩

theorem residueReplayComplete_holds {s : State} {site : Fin 672} {r : Recovery} (hr : (s.cluster (clusterOf site)).recov = some r) :
    let g := s.groupOf (clusterOf site); let run := exec (.residueReplayComplete site) s
    (r.rotated = false ∨ r.site ≠ some site.val → run = .next s) ∧
    (r.rotated = true → r.site = some site.val →
      (r.again = true → (s.core site).dead = false → ∃ t l, run = .next t ∧
        s.newReports t = (2, 3, unitCode 2 site r.sub) :: (8, 1, wholeUnit 2 site) :: l ∧ (t.core site).dead = true ∧ s.ringBut t) ∧
      (r.again = false → s.groupMark g = none ∨ s.mayCommit g = false → run = .next s) ∧
      (r.again = false → (s.groupMark g).isSome = true → s.mayCommit g = true → (∀ d ∈ g, (s.cluster d).recov = some r) →
        ∃ t, run = .next t ∧ t.errs.confirmed = s.errs.confirmed ++ [(site.val, s.now)] ∧ s.ringBut t ∧
          t.core site = { s.core site with rot := false } ∧ s.coresBut t [site.val] ∧
          ∀ d ∈ g, t.cluster d = { s.cluster d with recov := some { r with rotated := false } })) := by
  intro g run
  have hexec : run = _ := exec_residueReplayComplete hr
  refine ⟨fun h => hexec.trans (if_pos ?_), fun hrotated hsite => ?_⟩
  · rw [Bool.or_eq_true, bne_iff_ne]
    exact h.imp (fun h => by rw [h]; rfl) id
  · have hmine : ¬ (!r.rotated || r.site != some site.val) = true := by rw [hrotated, hsite]; simp
    refine ⟨fun hagain halive => ?_, fun hagain h => ?_, fun hagain hmark hmay hrecov => ?_⟩
    · obtain ⟨l, hnew, hdead, hring⟩ := residueReplay_again s site r halive
      exact ⟨_, l, hexec.trans ((if_neg hmine).trans (if_pos hagain)), hnew, hdead, hring⟩
    · refine hexec.trans ((if_neg hmine).trans ((if_neg (by rw [hagain]; exact Bool.false_ne_true)).trans (if_neg ?_)))
      rw [Bool.and_eq_true, not_and_or]
      exact h.imp (fun h => by rw [h]; exact Bool.false_ne_true) fun h => by rw [h]; exact Bool.false_ne_true
    · exact ⟨_, hexec.trans ((if_neg hmine).trans ((if_neg (by rw [hagain]; exact Bool.false_ne_true)).trans
        (if_pos (Bool.and_eq_true_iff.2 ⟨hmark, hmay⟩)))),
        State.confirmReplay_leaves (s.mem_groupOf (clusterOf site)) hrecov hrotated hagain hsite⟩

/-- Settles O40: a commit and a replay stage by stage, each stage over the clusters and cores of the group. -/
theorem commitAndReplay : Obligations.CommitAndReplay := by
  refine ⟨fun s c => ?_, fun s site => ⟨exec_residueReplayComplete_idle, fun r => residueReplayComplete_holds⟩⟩
  intro g hg hlt
  refine ⟨exec_clusterCommit_unmarked, fun id hid => ⟨fun hmay => ?_, fun hmay hquar => ?_, clusterCommit_holds hg hid⟩, exec_groupReplay_free,
    fun id j hid hj => ⟨exec_groupReplay_idle hid hj, fun w hw => ?_⟩⟩
  · exact (exec_clusterCommit hid).trans (congrArg Host.Outcome.next (if_pos (by rw [hmay]; rfl)))
  · exact (exec_clusterCommit hid).trans (congrArg Host.Outcome.next ((if_neg (by rw [hmay]; exact Bool.false_ne_true)).trans (if_pos hquar)))
  · obtain ⟨hreset, hblocked, hempty, hreplay⟩ := groupReplay_holds hid hj hw
    exact ⟨hreset, hblocked, hempty, fun hr hb hl => ⟨_, hreplay hr hb hl, s.replay_leaves j hg w⟩⟩

end Sys2Proof.Machine
end

section
/-! Proofs. CRUISE (R381 to R383): what loading the stored map leaves alone, what cruise makes of the sites and the roles, and what the
steps after it keep. -/

namespace Sys2Proof.Machine

/-! ### The stored map comes into force (R381, R394) -/

/-- An object that is verified or not changes only the count of failures. -/
theorem State.check_keeps {β : Type} (part : State → β) (h : ∀ s : State, part (s.addF R.SEC.VERIFY_FAILS.COUNT 0 1) = part s) (s : State)
    (cc type : Nat) (b : List Byte) : part (s.check cc type b).1 = part s := by
  unfold State.check
  dsimp only
  split
  · rfl
  · exact h s

theorem State.fromFlash_keeps {β : Type} (part : State → β) (h : ∀ s : State, part (s.addF R.SEC.VERIFY_FAILS.COUNT 0 1) = part s) (s : State)
    (cc type : Nat) (f : FlashBank → List Byte) : part (s.fromFlash cc type f).1 = part s := by
  unfold State.fromFlash
  dsimp only
  have hfirst := State.check_keeps part h s cc type (f ((s.flash cc).bank s.prefBank))
  split
  · next t heq => rwa [heq] at hfirst
  · next t c hc heq =>
    rw [heq] at hfirst
    have hsecond := State.check_keeps part h t cc type (f ((s.flash cc).bank (1 - s.prefBank)))
    split
    · next u hu => exact (by rwa [hu] at hsecond : part u = part t).trans hfirst
    · next u d hd hu => exact (by rwa [hu] at hsecond : part u = part t).trans hfirst

/-- DEV_TIME, and whether it is synchronised. -/
def State.clock (s : State) : Nat × Bool := (s.time, s.synced)

theorem State.clock_setF (s : State) {f : Fld}
    (h : (64 * R.SEC.BOOT_STATUS.SYNCED.off + R.SEC.BOOT_STATUS.SYNCED.lo) % 262144 ≠ (64 * f.off + f.lo) % 262144) (i v : Nat) :
    (s.setF f i v).clock = s.clock :=
  congrArg (fun n => (s.time, n == 1)) (s.getF_setF_ne f R.SEC.BOOT_STATUS.SYNCED i 0 v (Fld.key_ne_of_low h 0 i))

theorem State.clock_redirect (s : State) (stack frame : Nat) : (s.redirect stack frame).1.clock = s.clock := by
  unfold State.redirect
  split
  · exact s.clock_setF (by decide) stack 1
  · dsimp only
    split
    · exact (State.clock_setF _ (by decide) _ _).trans (State.clock_setF _ (by decide) _ _)
    · exact State.clock_setF _ (by decide) _ _

theorem State.clock_showBank (s : State) (r : Nat) : (s.showBank r).clock = s.clock := by
  unfold State.showBank
  rw [State.clock_setF _ (by decide), State.clock_setF _ (by decide), State.clock_setF _ (by decide), State.clock_setF _ (by decide)]

theorem State.clock_applyEntry (s : State) (e : Nat × Nat × Nat × Nat) : (s.applyEntry e).clock = s.clock := by
  unfold State.applyEntry
  dsimp only
  split
  · split
    · rfl
    · exact State.clock_setF _ (by decide) _ _
  · split
    · rfl
    · exact State.clock_showBank _ _
  · split <;> rfl
  · split
    · rfl
    · exact State.clock_redirect _ _ _
  · rfl

theorem State.clock_loadBlaze (s : State) : s.loadBlaze.1.clock = s.clock := by
  have hflash := State.fromFlash_keeps State.clock (fun t => t.clock_setF (by decide) 0 _) s s.activeCc 8 (·.blaze)
  unfold State.loadBlaze
  dsimp only
  split
  · next t b o c heq =>
    rw [heq] at hflash
    exact (each_frame State.clock _ _ _ State.clock_applyEntry).trans ((State.clock_setF _ (by decide) 0 _).trans hflash)
  · next t c heq =>
    rw [heq] at hflash
    exact (State.clock_setF _ (by decide) 0 _).trans ((State.clock_setF _ (by decide) 0 8).trans hflash)

/-! ### The stages of a cruise -/

/-- A quick boot: the map verified, DEV_TIME is synchronised and the last full cruise is recent (R381). -/
def State.quickBoot (s : State) (verified forced : Bool) : Bool :=
  verified && s.synced && decide (s.sec.blaze.cruise ≤ s.now) &&
    decide (s.now ≤ s.sec.blaze.cruise + s.getF R.SEC.BOOT_CTL.QUICK_DAYS 0 * 86400000000000) && !forced

/-- The states of every site after cruise. -/
def State.surveyStates (s : State) (q : CruiseResult) (quick : Bool) : List (Nat × Nat) :=
  (List.range 24).flatMap fun c => (List.range 4).flatMap fun r =>
    rowStates (fun i => q.badSites.contains i || s.siteState i == 2) (fun i => quick && s.siteState i == 3) c r

/-- The entries of the map that a cruise keeps. -/
def keptEntries (quick : Bool) (l : List (Nat × Nat × Nat × Nat)) : List (Nat × Nat × Nat × Nat) :=
  l.filterMap fun e => if quick then some e else if e.2.1 = 4 then some (e.1, 3, e.2.2.1, e.2.2.2) else if e.2.1 = 2 then none else some e

/-- The entries that a cruise adds for what failed. -/
def CruiseResult.newEntries (q : CruiseResult) : List (Nat × Nat × Nat × Nat) :=
  (q.badSites.map (wholeUnit 2) ++ q.badClusters.map (wholeUnit 1) ++ q.badUnits).map fun u => (u, 1, 1, 0)

/-- The map with what the tests found. -/
def State.surveyed (s : State) (q : CruiseResult) (quick : Bool) : State :=
  (s.setF R.SEC.BOOT_STATUS.QUICK 0 (if quick then 1 else 0)).modSec fun x => { x with blaze := { x.blaze with
    sites := (s.surveyStates q quick).foldl (fun t p => Tab.set 1 t p.1 p.2) []
    entries := keptEntries quick s.sec.blaze.entries ++ q.newEntries ++ (if quick then [] else q.badRows.map fun p => (wholeUnit 4 p.1, 3, 1, p.2))
    cruise := if quick then x.blaze.cruise else s.now
    inForce := true
    dirty := true } }

/-- A cluster that cruise may rank or keep as a standby. -/
def State.mayRank (s : State) (quick : Bool) (c : Nat) : Bool :=
  s.qualifies c && s.regionOn c && !(s.sec.blaze.entries.any fun e => e.1 == wholeUnit 1 c && e.2.1 == 1) &&
    !(quick && s.module_.quarantined.contains (wholeUnit 1 c))

/-- The roles are given, and a full cruise lifts the quarantine. -/
def State.staffed (s : State) (quick : Bool) : State :=
  (s.setRoles (s.mayRank quick)).modModule fun m => { m with quarantined := if quick then m.quarantined else [], idle := false }

def State.reviveSite (s : State) (i : Nat) : State := if s.siteState i < 2 then s.modCore i fun c => { c with dead := false } else s

def State.trainPort (s : State) (p : Nat × Nat) : State := if p.1 < 40 then (s.modPort p.1 fun _ => { good := p.2 }).setTrain p.1 p.2 else s

/-- Sites and ports as tested. -/
def State.tested (s : State) (q : CruiseResult) : State := each q.ports (each (List.range 672) s State.reviveSite) State.trainPort

/-- The regions leave the tree clock. -/
def State.locked (s : State) : State := each (s.onRegions ++ (List.range 6).map (30 + ·)) s State.lockRegion

/-- The units that the map names as defective. -/
def Blaze.defects (b : Blaze) : List Nat := b.entries.filterMap fun e => if e.2.1 = 1 then some e.1 else none

/-- A defect keeps the device from becoming ready (R383). -/
def Blaze.unfit (b : Blaze) : Bool :=
  b.defects.any fatalUnit || (b.defects.contains (wholeUnit 7 0) && b.defects.contains (wholeUnit 7 1)) ||
    (List.range 40).all fun p => b.defects.contains (wholeUnit 6 p)

/-- The device's stage after cruise. -/
def State.cruiseEnd (s : State) : State :=
  if s.sec.blaze.unfit then ((s.setF R.SEC.BOOT_STATUS.STAGE 0 7).modModule fun m => { m with faultN := true }).alert 5
  else s.setF R.SEC.BOOT_STATUS.STAGE 0 5

def State.cruised (s : State) (q : CruiseResult) (quick : Bool) : State :=
  ((((s.surveyed q quick).staffed quick).tested q).clearRecorder).locked.cruiseEnd

theorem exec_cruise {q : CruiseResult} {s : State} (h36 : s.module_.v36 = true) (hst : s.getF R.SEC.BOOT_STATUS.STAGE 0 = 4) :
    exec (.cruise q) s = .next (s.loadBlaze.1.cruised q (s.loadBlaze.1.quickBoot s.loadBlaze.2 (s.flash0.force || s.flash1.force))) := by
  have hgo : (!s.module_.v36 || s.getF R.SEC.BOOT_STATUS.STAGE 0 != 4) = false := by
    rw [h36, hst]
    rfl
  show execCruise q s = _
  unfold execCruise
  rw [if_neg (by rw [hgo]; exact Bool.false_ne_true)]
  unfold State.cruised State.cruiseEnd
  rw [apply_ite Host.Outcome.next]
  rfl

theorem exec_cruise_otherStage {q : CruiseResult} {s : State} (hst : s.getF R.SEC.BOOT_STATUS.STAGE 0 ≠ 4) : exec (.cruise q) s = .next s := by
  have hgo : (!s.module_.v36 || s.getF R.SEC.BOOT_STATUS.STAGE 0 != 4) = true := by
    rw [bne_iff_ne.2 hst, Bool.or_true]
  exact if_pos hgo

/-! ### What the stages after the survey keep -/

/-- What the map, the module and the regions' power are, and whether the boot was quick. -/
def State.outcome (s : State) : Nat × Security × Module × (Nat → Nat) × Nat :=
  (s.time, s.sec, s.module_, fun r => s.getF R.RGN.POWER_CTL.STATE r, s.getF R.SEC.BOOT_STATUS.QUICK 0)

theorem State.outcome_setF (s : State) {f : Fld}
    (hp : (64 * R.RGN.POWER_CTL.STATE.off + R.RGN.POWER_CTL.STATE.lo) % 262144 ≠ (64 * f.off + f.lo) % 262144)
    (hq : (64 * R.SEC.BOOT_STATUS.QUICK.off + R.SEC.BOOT_STATUS.QUICK.lo) % 262144 ≠ (64 * f.off + f.lo) % 262144) (i v : Nat) :
    (s.setF f i v).outcome = s.outcome :=
  Prod.ext rfl (Prod.ext rfl (Prod.ext rfl (Prod.ext
    (funext fun r => s.getF_setF_ne f R.RGN.POWER_CTL.STATE i r v (Fld.key_ne_of_low hp r i))
    (s.getF_setF_ne f R.SEC.BOOT_STATUS.QUICK i 0 v (Fld.key_ne_of_low hq 0 i)))))

theorem State.outcome_reviveSite (s : State) (i : Nat) : (s.reviveSite i).outcome = s.outcome := by
  unfold State.reviveSite
  split <;> rfl

theorem State.outcome_trainPort (s : State) (p : Nat × Nat) : (s.trainPort p).outcome = s.outcome := by
  have hreport (x : State) (a b c d : Nat) : (x.reportUnit a b c d).outcome = x.outcome := rfl
  have hport (x : State) (i : Nat) (g : Port → Port) : (x.modPort i g).outcome = x.outcome := rfl
  have hshow (x : State) (i u v w : Nat) : (((x.setF R.LPT.TRAIN_STATUS.WIDTH i u).setF R.LPT.TRAIN_STATUS.LANES i v).setF
      R.LPT.TRAIN_STATUS.SPARE_USED i w).outcome = x.outcome := by
    rw [State.outcome_setF _ (by decide) (by decide), State.outcome_setF _ (by decide) (by decide), State.outcome_setF _ (by decide) (by decide)]
  unfold State.trainPort
  split
  · unfold State.setTrain
    dsimp only
    split
    · rw [hshow, hport]
    · rw [hreport, hshow, hport]
  · rfl

theorem State.outcome_lockRegion (s : State) (r : Nat) : (s.lockRegion r).outcome = s.outcome := by
  unfold State.lockRegion
  split
  · rw [State.outcome_setF _ (by decide) (by decide), State.outcome_setF _ (by decide) (by decide), State.outcome_setF _ (by decide) (by decide)]
  · rw [State.outcome_setF _ (by decide) (by decide), State.outcome_setF _ (by decide) (by decide)]

theorem State.outcome_tested (s : State) (q : CruiseResult) : (s.tested q).outcome = s.outcome :=
  (each_frame State.outcome _ _ _ State.outcome_trainPort).trans (each_frame State.outcome _ _ _ State.outcome_reviveSite)

theorem State.outcome_locked (s : State) (q : CruiseResult) : ((s.tested q).clearRecorder).locked.outcome = s.outcome :=
  (each_frame State.outcome _ _ _ State.outcome_lockRegion).trans (s.outcome_tested q)

theorem State.mem_tested (s : State) (q : CruiseResult) : (s.tested q).mem = s.mem := by
  refine (each_mem _ _ _ fun t p => ?_).trans (each_mem _ _ _ fun t i => ?_)
  · unfold State.trainPort
    split
    · exact State.setTrain_mem _ _ _
    · rfl
  · unfold State.reviveSite
    split <;> rfl

theorem State.get_clearRecorder (s : State) (k : Nat) : Tab.get 0 s.clearRecorder.mem k = if inRecorder k then 0 else Tab.get 0 s.mem k := by
  have hfilter : s.clearRecorder.mem = s.mem.filter fun e => !inRecorder e.1 := rfl
  rw [hfilter]
  split
  · next h => exact Tab.get_filter_not 0 s.mem (fun a => !inRecorder a) k (by rw [h]; rfl)
  · next h => exact Tab.get_filter_of 0 s.mem (fun a => !inRecorder a) k (by rw [eq_false_of_ne_true h]; rfl)

theorem State.get_locked (s : State) (q : CruiseResult) (k : Nat) :
    Tab.get 0 ((s.tested q).clearRecorder).locked.mem k = if inRecorder k then 0 else Tab.get 0 s.mem k := by
  have hlock : ((s.tested q).clearRecorder).locked.mem = (s.tested q).clearRecorder.mem := each_mem _ _ _ fun t r => t.lockRegion_mem r
  rw [hlock, State.get_clearRecorder, s.mem_tested]

/-! ### The stage after cruise (R383) -/

/-- STAGE 7 of a device that a defect keeps out: its alert and FAULT_N with it. -/
def State.outOfService (s : State) : Prop :=
  s.getF R.SEC.BOOT_STATUS.STAGE 0 = 7 ∧ flag s.module_.alerts 5 = true ∧ s.module_.faultN = true

theorem State.cruiseEnd_unfit {s : State} (h : s.sec.blaze.unfit = true) : s.cruiseEnd.outOfService := by
  have hend : s.cruiseEnd = ((s.setF R.SEC.BOOT_STATUS.STAGE 0 7).modModule fun m => { m with faultN := true }).alert 5 := if_pos h
  rw [hend]
  refine ⟨s.getF_setF_same R.SEC.BOOT_STATUS.STAGE 0 7, ?_, rfl⟩
  have halerts : (((s.setF R.SEC.BOOT_STATUS.STAGE 0 7).modModule fun m => { m with faultN := true }).alert 5).module_.alerts =
      s.module_.alerts ||| 2 ^ 5 := rfl
  rw [halerts, flag_eq_testBit, Nat.testBit_or, Nat.testBit_two_pow_self, Bool.or_true]

theorem State.cruiseEnd_fit {s : State} (h : s.sec.blaze.unfit = false) : s.cruiseEnd.getF R.SEC.BOOT_STATUS.STAGE 0 = 5 := by
  have hend : s.cruiseEnd = s.setF R.SEC.BOOT_STATUS.STAGE 0 5 := if_neg (by rw [h]; exact Bool.false_ne_true)
  rw [hend]
  exact s.getF_setF_same R.SEC.BOOT_STATUS.STAGE 0 5

theorem State.cruiseEnd_keeps {β : Type} (part : State → β) (hstage : ∀ (s : State) (v : Nat), part (s.setF R.SEC.BOOT_STATUS.STAGE 0 v) = part s)
    (hfault : ∀ s : State, part (s.modModule fun m => { m with faultN := true }) = part s) (halert : ∀ s : State, part (s.alert 5) = part s)
    (s : State) : part s.cruiseEnd = part s := by
  unfold State.cruiseEnd
  split
  · rw [halert, hfault, hstage]
  · exact hstage s 5

theorem Blaze.unfit_of_fatal {b : Blaze} {u : Nat} (hu : u ∈ b.defects) (hfatal : fatalUnit u = true) : b.unfit = true := by
  unfold Blaze.unfit
  rw [List.any_eq_true.2 ⟨u, hu, hfatal⟩, Bool.true_or, Bool.true_or]

/-! ### The states of the sites (R382) -/

/-- A table written in turn: where every write of a place gives one value, and one does, the place reads as that. -/
theorem Tab.get_foldl_set_all {α : Type} [DecidableEq α] (d : α) {l : List (Nat × α)} {k : Nat} {v : α} (hall : ∀ p ∈ l, p.1 = k → p.2 = v)
    (t : Tab α) (ht : Tab.get d t k = v ∨ ∃ p ∈ l, p.1 = k) : Tab.get d (l.foldl (fun t p => Tab.set d t p.1 p.2) t) k = v := by
  induction l generalizing t with
  | nil => exact ht.resolve_right fun ⟨p, hp, _⟩ => absurd hp List.not_mem_nil
  | cons a l ih =>
    refine ih (fun p hp => hall p (List.mem_cons_of_mem a hp)) _ ?_
    rw [Tab.get_set]
    by_cases hk : a.1 = k
    · exact Or.inl (by rw [if_pos hk.symm, hall a List.mem_cons_self hk])
    · rw [if_neg fun h => hk h.symm]
      exact ht.imp_right fun ⟨p, hp, hpk⟩ => ⟨p, (List.mem_cons.1 hp).resolve_left fun h => hk (h ▸ hpk), hpk⟩

theorem mem_rowStates_bad {bad quar : Nat → Bool} {c r : Nat} {p : Nat × Nat} (hp : p ∈ rowStates bad quar c r) (hbad : bad p.1 = true) : p.2 = 2 := by
  obtain ⟨k, -, rfl⟩ := List.mem_map.1 hp
  exact if_pos hbad

theorem mem_rowStates_place (bad quar : Nat → Bool) (c r : Nat) {k : Nat} (hk : k < 7) : ∃ p ∈ rowStates bad quar c r, p.1 = 28 * c + 7 * r + k :=
  ⟨_, List.mem_map.2 ⟨k, List.mem_range.2 hk, rfl⟩, rfl⟩

section
variable (s : State) (q : CruiseResult) (quick : Bool)

theorem State.mem_surveyStates {i : Nat} (hi : i < 672) : ∃ p ∈ s.surveyStates q quick, p.1 = i := by
  obtain ⟨p, hp, hpi⟩ := mem_rowStates_place (fun i => q.badSites.contains i || s.siteState i == 2) (fun i => quick && s.siteState i == 3)
    (i / 28) (i % 28 / 7) (Nat.mod_lt (i % 28) (by decide : 0 < 7))
  refine ⟨p, List.mem_flatMap.2 ⟨i / 28, List.mem_range.2 (by omega), List.mem_flatMap.2 ⟨i % 28 / 7, List.mem_range.2 (by omega), hp⟩⟩, ?_⟩
  omega

/-- A site that failed is defective. -/
theorem State.siteState_surveyed {i : Nat} (hbad : i ∈ q.badSites) (hi : i < 672) : (s.surveyed q quick).siteState i = 2 := by
  unfold State.siteState State.surveyed
  dsimp only [State.modSec]
  refine Tab.get_foldl_set_all 1 (fun p hp hpi => ?_) [] (Or.inr (s.mem_surveyStates q quick hi))
  obtain ⟨c, -, hp⟩ := List.mem_flatMap.1 hp
  obtain ⟨r, -, hp⟩ := List.mem_flatMap.1 hp
  refine mem_rowStates_bad hp ?_
  rw [hpi, List.contains_iff_mem.2 hbad, Bool.true_or]

/-- A unit that failed is named by the map. -/
theorem State.defects_surveyed {u : Nat} (hu : u ∈ q.badUnits) : u ∈ (s.surveyed q quick).sec.blaze.defects := by
  have hnew : (u, 1, 1, 0) ∈ q.newEntries := List.mem_map.2 ⟨u, List.mem_append_right _ hu, rfl⟩
  exact List.mem_filterMap.2 ⟨(u, 1, 1, 0), List.mem_append_left _ (List.mem_append_right _ hnew), rfl⟩

end

/-! ### The roles of the clusters (R382) -/

theorem assignRoles_spec (old : Nat → Nat) (ok : Nat → Bool) : (assignRoles old ok).1.length ≤ 22 ∧ (assignRoles old ok).2.length ≤ 2 ∧
    (∀ c ∈ (assignRoles old ok).1, ok c = true) ∧ ∀ c ∈ (assignRoles old ok).2, ok c = true := by
  have hall {p : Nat → Bool} {c : Nat} (h : c ∈ ((List.range 24).filter ok).filter p) : ok c = true := (List.mem_filter.1 (List.mem_filter.1 h).1).2
  unfold assignRoles
  dsimp only
  refine ⟨List.length_take_le _ _, List.length_take_le _ _, fun c hc => ?_, fun c hc => ?_⟩
  · rcases List.mem_append.1 (List.mem_of_mem_take hc) with h | h
    · rcases List.mem_append.1 h with h | h
      · exact hall (List.mem_of_mem_take h)
      · exact hall h
    · exact hall h
  · rcases List.mem_append.1 (List.mem_filter.1 (List.mem_of_mem_take hc)).1 with h | h
    · exact hall h
    · exact hall h

section
variable (s : State) (ok : Nat → Bool)

theorem State.role_setRoles {c : Nat} (hc : c < 24) : (s.setRoles ok).role c =
    if (assignRoles s.role ok).1.contains c then 0 else if (assignRoles s.role ok).2.contains c then 1 else 2 := by
  unfold State.role State.setRoles
  dsimp only [State.modSec]
  rw [Tab.get_foldl_set_range, if_pos hc]
  rfl

/-- A cluster with a place is one that may have it. -/
theorem State.ok_of_role_setRoles {c : Nat} (hc : c < 24) (h : (s.setRoles ok).role c < 2) : ok c = true := by
  obtain ⟨-, -, hranked, hstandby⟩ := assignRoles_spec s.role ok
  rw [s.role_setRoles ok hc] at h
  split at h
  · next hr => exact hranked c (List.contains_iff_mem.1 hr)
  · split at h
    · next hs => exact hstandby c (List.contains_iff_mem.1 hs)
    · exact absurd h (by decide)

theorem State.role_setRoles_out {c : Nat} (hc : c < 24) (h : ok c = false) : (s.setRoles ok).role c = 2 := by
  obtain ⟨-, -, hranked, hstandby⟩ := assignRoles_spec s.role ok
  have hno : ok c ≠ true := by rw [h]; exact Bool.false_ne_true
  rw [s.role_setRoles ok hc, if_neg fun hr => hno (hranked c (List.contains_iff_mem.1 hr)),
    if_neg fun hs => hno (hstandby c (List.contains_iff_mem.1 hs))]

end

theorem State.qualifies_iff (s : State) (c : Nat) : s.qualifies c = true ↔ ∀ w, w < 4 → (s.rowSites c w).length = 6 := by
  simp only [State.qualifies, List.all_eq_true, List.mem_range, beq_iff_eq]

section
variable (s : State) (quick : Bool)

theorem State.blaze_staffed : (s.staffed quick).sec.blaze.sites = s.sec.blaze.sites ∧ (s.staffed quick).sec.blaze.entries = s.sec.blaze.entries ∧
    (s.staffed quick).sec.blaze.cruise = s.sec.blaze.cruise := by
  unfold State.staffed State.setRoles
  exact ⟨rfl, rfl, rfl⟩

theorem State.getF_staffed (f : Fld) (i : Nat) : (s.staffed quick).getF f i = s.getF f i := by
  unfold State.staffed State.setRoles
  rfl

theorem State.module_staffed : (s.staffed quick).module_.quarantined = (if quick then s.module_.quarantined else []) ∧
    (s.staffed quick).module_.v36 = s.module_.v36 := by
  unfold State.staffed State.setRoles
  exact ⟨rfl, rfl⟩

theorem State.places_staffed : (s.staffed quick).sec.blaze.ranked = (assignRoles s.role (s.mayRank quick)).1.length ∧
    (s.staffed quick).sec.blaze.standby = (assignRoles s.role (s.mayRank quick)).2.length := by
  unfold State.staffed State.setRoles
  exact ⟨rfl, rfl⟩

theorem State.siteState_staffed (i : Nat) : (s.staffed quick).siteState i = s.siteState i := by
  obtain ⟨hsites, -, -⟩ := s.blaze_staffed quick
  rw [State.siteState, hsites, State.siteState]

theorem State.rowSites_staffed (c w : Nat) : (s.staffed quick).rowSites c w = s.rowSites c w := by
  simp only [State.rowSites, State.siteState_staffed]

theorem State.regionOn_staffed (r : Nat) : (s.staffed quick).regionOn r = s.regionOn r := by
  obtain ⟨-, h36⟩ := s.module_staffed quick
  rw [State.regionOn, State.getF_staffed, h36, State.regionOn]

/-- A cluster that has a place after cruise has 6 sites in service in every row, and its region is on. -/
theorem State.staffed_serves {c : Nat} (hc : c < 24) (h : (s.staffed quick).role c < 2) :
    (s.staffed quick).regionOn c = true ∧ ∀ w, w < 4 → ((s.staffed quick).rowSites c w).length = 6 := by
  have hok : s.mayRank quick c = true := s.ok_of_role_setRoles (s.mayRank quick) hc h
  simp only [State.mayRank, Bool.and_eq_true] at hok
  obtain ⟨⟨⟨hqual, hon⟩, -⟩, -⟩ := hok
  refine ⟨(s.regionOn_staffed quick c).trans hon, fun w hw => ?_⟩
  rw [State.rowSites_staffed, (s.qualifies_iff c).1 hqual w hw]

end

/-! ### A cruise, all in all -/

section
variable {s t : State} (h : t.outcome = s.outcome)
include h

theorem State.sec_of_outcome : t.sec = s.sec := congrArg (fun p => p.2.1) h

theorem State.module_of_outcome : t.module_ = s.module_ := congrArg (fun p => p.2.2.1) h

theorem State.quick_of_outcome : t.getF R.SEC.BOOT_STATUS.QUICK 0 = s.getF R.SEC.BOOT_STATUS.QUICK 0 := congrArg (fun p => p.2.2.2.2) h

theorem State.regionOn_of_outcome (r : Nat) : t.regionOn r = s.regionOn r := by
  have hpower : t.getF R.RGN.POWER_CTL.STATE r = s.getF R.RGN.POWER_CTL.STATE r := congrFun (congrArg (fun p => p.2.2.2.1) h) r
  unfold State.regionOn
  rw [State.module_of_outcome h, hpower]

end

theorem State.serves_of_sec {s t : State} (h : t.sec = s.sec) : t.siteState = s.siteState ∧ t.role = s.role ∧ t.rowSites = s.rowSites := by
  unfold State.rowSites State.role State.siteState
  rw [h]
  exact ⟨rfl, rfl, rfl⟩

theorem State.sec_cruiseEnd (s : State) : s.cruiseEnd.sec = s.sec :=
  State.cruiseEnd_keeps State.sec (fun _ _ => rfl) (fun _ => rfl) (fun _ => rfl) s

theorem State.regionOn_cruiseEnd (s : State) (r : Nat) : s.cruiseEnd.regionOn r = s.regionOn r :=
  State.cruiseEnd_keeps (fun t => t.regionOn r)
    (fun t v => congrArg (fun n => t.module_.v36 && (n == 4 || n == 5))
      (t.getF_setF_ne R.SEC.BOOT_STATUS.STAGE R.RGN.POWER_CTL.STATE 0 r v (Fld.key_ne_of_low (by decide) r 0)))
    (fun _ => rfl) (fun _ => rfl) s

section
variable (s : State) (q : CruiseResult) (quick : Bool)

theorem State.time_cruised : (s.cruised q quick).time = s.time :=
  (State.cruiseEnd_keeps State.time (fun _ _ => rfl) (fun _ => rfl) (fun _ => rfl) _).trans
    (congrArg Prod.fst (((s.surveyed q quick).staffed quick).outcome_locked q))

theorem State.get_cruised (k : Nat) : Tab.get 0 (s.cruised q quick).mem k = if inRecorder k then 0 else Tab.get 0 s.mem k := by
  have hmem : (s.cruised q quick).mem = (((s.surveyed q quick).staffed quick).tested q).clearRecorder.locked.mem :=
    State.cruiseEnd_keeps State.mem (fun _ _ => rfl) (fun _ => rfl) (fun _ => rfl) _
  rw [hmem, State.get_locked]
  rfl

theorem State.sec_cruised : (s.cruised q quick).sec = ((s.surveyed q quick).staffed quick).sec :=
  (State.sec_cruiseEnd _).trans (State.sec_of_outcome (State.outcome_locked _ q))

theorem State.stage_cruised : (s.cruised q quick).getF R.SEC.BOOT_STATUS.STAGE 0 = 5 ∨ (s.cruised q quick).outOfService := by
  unfold State.cruised
  generalize (((s.surveyed q quick).staffed quick).tested q).clearRecorder.locked = u
  cases hfit : u.sec.blaze.unfit with
  | false => exact Or.inl (State.cruiseEnd_fit hfit)
  | true => exact Or.inr (State.cruiseEnd_unfit hfit)

theorem State.stage_cruised_fatal {u : Nat} (hu : u ∈ q.badUnits) (hfatal : fatalUnit u = true) :
    (s.cruised q quick).getF R.SEC.BOOT_STATUS.STAGE 0 = 7 := by
  have hsec := State.sec_of_outcome (((s.surveyed q quick).staffed quick).outcome_locked q)
  refine (State.cruiseEnd_unfit ?_).1
  obtain ⟨-, hentries, -⟩ := (s.surveyed q quick).blaze_staffed quick
  rw [hsec]
  refine Blaze.unfit_of_fatal ?_ hfatal
  rw [Blaze.defects, hentries]
  exact s.defects_surveyed q quick hu

theorem State.siteState_cruised {i : Nat} (hbad : i ∈ q.badSites) (hi : i < 672) : (s.cruised q quick).siteState i = 2 := by
  obtain ⟨hsites, -, -⟩ := State.serves_of_sec (s.sec_cruised q quick)
  rw [hsites, State.siteState_staffed]
  exact s.siteState_surveyed q quick hbad hi

theorem State.places_cruised : (s.cruised q quick).sec.blaze.ranked ≤ 22 ∧ (s.cruised q quick).sec.blaze.standby ≤ 2 := by
  obtain ⟨hranked, hstandby, -, -⟩ := assignRoles_spec (s.surveyed q quick).role ((s.surveyed q quick).mayRank quick)
  obtain ⟨hr, hs⟩ := (s.surveyed q quick).places_staffed quick
  rw [s.sec_cruised q quick, hr, hs]
  exact ⟨hranked, hstandby⟩

theorem State.serves_cruised {c : Nat} (hc : c < 24) (h : (s.cruised q quick).role c < 2) :
    (s.cruised q quick).regionOn c = true ∧ ∀ w, w < 4 → ((s.cruised q quick).rowSites c w).length = 6 := by
  obtain ⟨-, hrole, hrows⟩ := State.serves_of_sec (s.sec_cruised q quick)
  rw [hrole] at h
  have hregion : (s.cruised q quick).regionOn c = ((s.surveyed q quick).staffed quick).regionOn c :=
    (State.regionOn_cruiseEnd _ c).trans (State.regionOn_of_outcome (State.outcome_locked _ q) c)
  rw [hregion, hrows]
  exact (s.surveyed q quick).staffed_serves quick hc h

theorem State.quick_surveyed : (s.surveyed q quick).getF R.SEC.BOOT_STATUS.QUICK 0 = (if quick then 1 else 0) % 2 := by
  unfold State.surveyed
  exact s.getF_setF_same R.SEC.BOOT_STATUS.QUICK 0 _

theorem State.cruise_surveyed : (s.surveyed q quick).sec.blaze.cruise = if quick then s.sec.blaze.cruise else s.now := by
  unfold State.surveyed
  rfl

/-- A full cruise. -/
theorem State.cruised_full : (s.cruised q false).getF R.SEC.BOOT_STATUS.QUICK 0 = 0 ∧ (s.cruised q false).module_.quarantined = [] ∧
    (s.cruised q false).sec.blaze.cruise = s.now := by
  have hlocked := ((s.surveyed q false).staffed false).outcome_locked q
  refine ⟨?_, ?_, ?_⟩
  · have hend : (s.cruised q false).getF R.SEC.BOOT_STATUS.QUICK 0 = _ :=
      State.cruiseEnd_keeps (fun t => t.getF R.SEC.BOOT_STATUS.QUICK 0) (fun t v => t.getF_setF_ne _ _ 0 0 v (by decide)) (fun _ => rfl) (fun _ => rfl) _
    rw [hend, State.quick_of_outcome hlocked, State.getF_staffed, State.quick_surveyed]
    rfl
  · have hend : (s.cruised q false).module_.quarantined = _ :=
      State.cruiseEnd_keeps (fun t => t.module_.quarantined) (fun _ _ => rfl) (fun _ => rfl) (fun _ => rfl) _
    rw [hend, State.module_of_outcome hlocked, ((s.surveyed q false).module_staffed false).1]
    rfl
  · obtain ⟨-, -, hcruise⟩ := (s.surveyed q false).blaze_staffed false
    rw [s.sec_cruised q false, hcruise, State.cruise_surveyed]
    rfl

end

theorem State.quickBoot_unsynced {s : State} (h : s.synced = false) (verified forced : Bool) : s.quickBoot verified forced = false := by
  unfold State.quickBoot
  rw [h, Bool.and_false, Bool.false_and, Bool.false_and, Bool.false_and]

/-- CRUISE at STAGE 4. -/
theorem exec_cruise_spec (q : CruiseResult) {s : State} (h36 : s.module_.v36 = true) (hst : s.getF R.SEC.BOOT_STATUS.STAGE 0 = 4) :
    ∃ t : State, exec (.cruise q) s = .next t ∧ t.time = s.time ∧
      (∀ k, Tab.get 0 t.mem k = if inRecorder k then 0 else Tab.get 0 s.mem k) ∧
      (t.getF R.SEC.BOOT_STATUS.STAGE 0 = 5 ∨ t.outOfService) ∧
      ((∃ u ∈ q.badUnits, fatalUnit u = true) → t.getF R.SEC.BOOT_STATUS.STAGE 0 = 7) ∧
      (∀ i ∈ q.badSites, i < 672 → t.siteState i = 2) ∧ t.sec.blaze.ranked ≤ 22 ∧ t.sec.blaze.standby ≤ 2 ∧
      (∀ c, c < 24 → t.role c < 2 → t.regionOn c = true ∧ ∀ w, w < 4 → (t.rowSites c w).length = 6) ∧
      (s.synced = false → t.getF R.SEC.BOOT_STATUS.QUICK 0 = 0 ∧ t.module_.quarantined = [] ∧ t.sec.blaze.cruise = s.now) := by
  have hclock := s.clock_loadBlaze
  have htime : s.loadBlaze.1.time = s.time := congrArg Prod.fst hclock
  have hsynced : s.loadBlaze.1.synced = s.synced := congrArg Prod.snd hclock
  have hmem := s.loadBlaze_mem
  refine ⟨_, exec_cruise h36 hst, ?_⟩
  generalize s.loadBlaze.1 = u at htime hsynced hmem
  generalize hquick : u.quickBoot s.loadBlaze.2 (s.flash0.force || s.flash1.force) = quick
  obtain ⟨hranked, hstandby⟩ := u.places_cruised q quick
  refine ⟨(u.time_cruised q quick).trans htime, fun k => ?_, u.stage_cruised q quick, fun ⟨v, hv, hfatal⟩ => u.stage_cruised_fatal q quick hv hfatal,
    fun i hbad hi => u.siteState_cruised q quick hbad hi, hranked, hstandby, fun c hc hr => u.serves_cruised q quick hc hr, fun hs => ?_⟩
  · rw [u.get_cruised q quick k, hmem]
  · rw [State.quickBoot_unsynced (hsynced.trans hs)] at hquick
    subst hquick
    obtain ⟨hzero, hlifted, hcruise⟩ := u.cruised_full q
    exact ⟨hzero, hlifted, hcruise.trans (State.now_of_time htime)⟩


end Sys2Proof.Machine
end

section
/-! Proofs. BLAZE_MAP_REVISION (R384, R385) and FIRMWARE_BROADCAST (R387, R391, R394). -/

namespace Sys2Proof.Machine

/-! ### A revision of the map (R384, R385) -/

theorem exec_blazeMapRevision {s : State} (h36 : s.module_.v36 = true) (hrun : (s.cc s.activeCc).running = true) (hdirty : s.sec.blaze.dirty = true) :
    exec .blazeMapRevision s = .next s.reviseBlaze := by
  show execBlazeMapRevision s = _
  unfold execBlazeMapRevision
  rw [h36, hrun, hdirty]
  rfl

theorem exec_blazeMapRevision_idle {s : State} (h : (s.cc s.activeCc).running = false ∨ s.sec.blaze.dirty = false) :
    exec .blazeMapRevision s = .next s := by
  have hno : (s.module_.v36 && (s.cc s.activeCc).running && s.sec.blaze.dirty) = false := by
    rcases h with h | h
    · rw [h, Bool.and_false, Bool.false_and]
    · rw [h, Bool.and_false]
  show execBlazeMapRevision s = _
  unfold execBlazeMapRevision
  rw [hno]
  rfl

/-- The map with its next version is stored in every bank, shown and measured, and nothing else changes. -/
theorem State.reviseBlaze_spec (s : State) :
    s.reviseBlaze = { s with regs := s.reviseBlaze.regs, ctl := { s.ctl with chips := s.reviseBlaze.ctl.chips }, sec := { s.sec with blaze := s.reviseBlaze.sec.blaze }, flash0 := s.reviseBlaze.flash0, flash1 := s.reviseBlaze.flash1, free := s.free + 1 } ∧
    s.reviseBlaze.sec.blaze = { s.sec.blaze with version := s.sec.blaze.version + 1, dirty := false, digest := s.reviseBlaze.sec.blaze.digest } ∧
    s.reviseBlaze.getF R.SEC.BLAZE_VERSION.VERSION 0 = (s.sec.blaze.version + 1) % 2 ^ 64 ∧
    s.reviseBlaze.flash0.bank0.blaze = s.reviseBlaze.flash0.bank1.blaze ∧ s.reviseBlaze.flash1.bank0.blaze = s.reviseBlaze.flash0.bank0.blaze ∧
    s.reviseBlaze.flash1.bank1.blaze = s.reviseBlaze.flash0.bank0.blaze ∧
    s.reviseBlaze.measOf s.activeCc 4 = sha3_512 (s.measOf s.activeCc 4 ++ padTo 64 s.reviseBlaze.sec.blaze.digest) := by
  unfold State.reviseBlaze
  dsimp only
  generalize sha3_512 (_ ++ _) = m
  generalize _ ++ padTo 4627 _ = o
  refine ⟨rfl, rfl, ?_, rfl, rfl, rfl, ?_⟩
  · refine (State.getF_setF_same _ R.SEC.BLAZE_VERSION.VERSION 0 _).trans ?_
    exact Nat.mod_mod _ _
  · exact State.measOf_extend _ _ _ _

/-! ### Firmware that does not verify (R391) -/

theorem State.verify_le (s : State) (cc type : Nat) (b : List Byte) : s.verify cc type b ≤ 8 := by
  unfold State.verify
  dsimp only
  split
  · decide
  · split
    · decide
    · repeat' split
      all_goals decide

theorem exec_firmwareBroadcast_otherStage {s : State} (hst : s.getF R.SEC.BOOT_STATUS.STAGE 0 ≠ 5) (obj : List Byte) (bad : List Nat) :
    exec (.firmwareBroadcast obj bad) s = .next s := by
  have hgo : (!s.module_.v36 || s.getF R.SEC.BOOT_STATUS.STAGE 0 != 5) = true := by
    rw [bne_iff_ne.2 hst, Bool.or_true]
  exact if_pos hgo

section
variable {s : State} (h36 : s.module_.v36 = true) (hst : s.getF R.SEC.BOOT_STATUS.STAGE 0 = 5) (obj : List Byte) (bad : List Nat)

include h36 hst in
theorem firmwareBroadcast_goes : ¬(!s.module_.v36 || s.getF R.SEC.BOOT_STATUS.STAGE 0 != 5) = true := by
  rw [h36, hst]
  decide

include h36 hst in
theorem exec_firmwareBroadcast_bad (hcode : s.verify s.activeCc 4 obj ≠ 0) : ∃ t : State, exec (.firmwareBroadcast obj bad) s = .next t ∧
    t = { s with regs := t.regs } ∧ t.getF R.SEC.BOOT_STATUS.FAIL_OBJ 0 = 4 ∧
    t.getF R.SEC.BOOT_STATUS.FAIL_CODE 0 = s.verify s.activeCc 4 obj ∧ t.getF R.SEC.BOOT_STATUS.STAGE 0 = 5 := by
  have hle := s.verify_le s.activeCc 4 obj
  refine ⟨(s.addF R.SEC.VERIFY_FAILS.COUNT 0 1).bootFail 4 (s.verify s.activeCc 4 obj), ?_, ?_⟩
  · refine (if_neg (firmwareBroadcast_goes h36 hst)).trans ?_
    simp only [State.check_bad hcode]
  · generalize s.verify s.activeCc 4 obj = code at hle
    unfold State.bootFail
    refine ⟨rfl, ?_, ?_, ?_⟩
    · rw [State.getF_setF_ne _ _ _ _ _ _ (by decide), State.getF_setF_same]
      rfl
    · rw [State.getF_setF_same]
      exact Nat.mod_eq_of_lt (Nat.lt_of_le_of_lt hle (by decide))
    · rw [State.getF_setF_ne _ _ _ _ _ _ (by decide), State.getF_setF_ne _ _ _ _ _ _ (by decide), State.getF_addF_ne _ _ _ _ _ _ (by decide), hst]

end

/-! ### Firmware that verifies (R387, R394) -/

/-- The body is loaded into a cluster that is on and did not fail. -/
def State.loadCluster (obj : List Byte) (bad : List Nat) (s : State) (c : Nat) : State :=
  if bad.contains c || !s.regionOn c then s else s.modCluster c fun x => { x with firmware := objBody obj }

/-- The body is loaded into the clusters. -/
def State.loadClusters (s : State) (obj : List Byte) (bad : List Nat) : State := each (List.range 24) s (State.loadCluster obj bad)

/-- The firmware is measured. -/
def State.clusterImage (s : State) (cc : Nat) (obj : List Byte) : State :=
  (s.extend cc 2 (objDigest obj)).modSec fun x =>
    { x with image := Tab.set 0 x.image 4 (objSvn obj), fwSeen := x.fwSeen ++ [objDigest obj] }

/-- The clusters that failed lose their places. -/
def State.dropClusters (s : State) (bad : List Nat) : State :=
  if bad.isEmpty then s else s.setRoles fun c => !bad.contains c && s.qualifies c && s.role c != 2

/-- The device is ready. -/
def State.serviceable (s : State) : State := (s.setF R.SEC.BOOT_STATUS.STAGE 0 6).modModule fun m => { m with faultN := false, thermN := false }

theorem exec_firmwareBroadcast_good {s : State} (h36 : s.module_.v36 = true) (hst : s.getF R.SEC.BOOT_STATUS.STAGE 0 = 5) {obj : List Byte}
    (bad : List Nat) (hcode : s.verify s.activeCc 4 obj = 0) : exec (.firmwareBroadcast obj bad) s =
    .next (((((s.memWrite (servicePort 0) stagingArea (objBody obj)).loadClusters obj bad).clusterImage s.activeCc obj).dropClusters bad).serviceable) := by
  refine (if_neg (firmwareBroadcast_goes h36 hst)).trans ?_
  simp only [State.check_good hcode]
  rfl

section
variable (s : State) (obj : List Byte) (bad : List Nat)

/-- All but the clusters. -/
def State.besideClusters (s : State) : State := { s with clusters := [] }

theorem State.loadCluster_beside (c : Nat) : (State.loadCluster obj bad s c).besideClusters = s.besideClusters := by
  unfold State.loadCluster
  split <;> rfl

theorem State.loadClusters_beside : (s.loadClusters obj bad).besideClusters = s.besideClusters :=
  each_frame State.besideClusters _ _ _ fun s c => s.loadCluster_beside obj bad c

theorem State.cluster_loadCluster (c d : Nat) : (State.loadCluster obj bad s c).cluster d =
    if d = c ∧ c ∉ bad ∧ s.regionOn c = true then { s.cluster c with firmware := objBody obj } else s.cluster d := by
  unfold State.loadCluster
  by_cases hload : c ∉ bad ∧ s.regionOn c = true
  · rw [if_neg (by simpa using hload), State.cluster_modCluster]
    simp only [hload, not_false_eq_true, and_self, and_true]
  · rw [if_pos (by simpa [or_iff_not_imp_left] using hload), if_neg fun h => hload h.2]

theorem State.cluster_loadClusters {c : Nat} (hc : c < 24) (hon : s.regionOn c = true) (hbad : c ∉ bad) :
    (s.loadClusters obj bad).cluster c = { s.cluster c with firmware := objBody obj } := by
  have hat := each_at State.cluster (fun u => u.regionOn = s.regionOn)
    (fun a x => if a ∉ bad ∧ s.regionOn a = true then { x with firmware := objBody obj } else x) (State.loadCluster obj bad)
    (l := List.range 24) (fun u a _ hu => (congrArg State.regionOn (u.loadCluster_beside obj bad a) :).trans hu)
    (fun u a _ hu => by rw [u.cluster_loadCluster, hu]; simp only [true_and])
    (fun u a _ _ b hb => by rw [u.cluster_loadCluster, if_neg fun h => hb h.1]) List.nodup_range rfl c
  refine hat.trans ?_
  rw [if_pos (List.mem_range.2 hc), if_pos ⟨hbad, hon⟩]

theorem State.dropClusters_keeps (u : State) : (u.dropClusters bad).mem = u.mem ∧ (u.dropClusters bad).ctl = u.ctl ∧
    (u.dropClusters bad).clusters = u.clusters := by
  unfold State.dropClusters State.setRoles
  split <;> exact ⟨rfl, rfl, rfl⟩

theorem State.role_dropClusters (u : State) {c : Nat} (hc : c < 24) (hbad : c ∈ bad) : (u.dropClusters bad).role c = 2 := by
  have hsome : bad.isEmpty ≠ true := fun h => List.ne_nil_of_mem hbad (List.isEmpty_iff.1 h)
  unfold State.dropClusters
  rw [if_neg hsome]
  refine u.role_setRoles_out _ hc ?_
  rw [List.contains_iff_mem.2 hbad, Bool.not_true, Bool.false_and, Bool.false_and]

theorem State.blaze_dropClusters_nil (u : State) : (u.dropClusters []).sec.blaze = u.sec.blaze := rfl

end

/-- FIRMWARE_BROADCAST of firmware that verifies. -/
theorem exec_firmwareBroadcast_spec {s : State} (h36 : s.module_.v36 = true) (hst : s.getF R.SEC.BOOT_STATUS.STAGE 0 = 5) {obj : List Byte}
    (bad : List Nat) (hcode : s.verify s.activeCc 4 obj = 0) : ∃ t : State, exec (.firmwareBroadcast obj bad) s = .next t ∧
    t.getF R.SEC.BOOT_STATUS.STAGE 0 = 6 ∧ t.memRead stagingArea (objBody obj).length = objBody obj ∧
    s.memBut t stagingArea (objBody obj).length ∧ t.measOf s.activeCc 2 = sha3_512 (s.measOf s.activeCc 2 ++ padTo 64 (objDigest obj)) ∧
    (∀ c, c < 24 → s.regionOn c = true → c ∉ bad → t.cluster c = { s.cluster c with firmware := objBody obj }) ∧
    (bad = [] → t.sec.blaze = s.sec.blaze) ∧ ∀ c ∈ bad, c < 24 → t.role c = 2 := by
  have hfit := length_body_of_verify hcode
  have hbeside := s.memWrite_spread_beside (servicePort 0) hfit
  have hread := s.memRead_memWrite_same (servicePort 0) stagingArea (objBody obj) (s.linksUp_spread hfit) (s.canon_spread_inj hfit)
  have hbut := s.memBut_memWrite_spread (servicePort 0) hfit
  refine ⟨_, exec_firmwareBroadcast_good h36 hst bad hcode, ?_⟩
  generalize s.memWrite (servicePort 0) stagingArea (objBody obj) = w at hbeside hread hbut
  have hclusters {c : Nat} := w.cluster_loadClusters obj bad (c := c)
  have hload := w.loadClusters_beside obj bad
  generalize w.loadClusters obj bad = u at hclusters hload
  have humem : u.mem = w.mem := (congrArg State.mem hload :)
  have hwctl : w.ctl = s.ctl := State.part_of_beside State.ctl (fun _ => rfl) hbeside
  have huctl : u.ctl = w.ctl := (congrArg State.ctl hload :)
  have hwsec : w.sec = s.sec := State.part_of_beside State.sec (fun _ => rfl) hbeside
  have husec : u.sec = w.sec := (congrArg State.sec hload :)
  have himage : (u.clusterImage s.activeCc obj).mem = u.mem ∧ (u.clusterImage s.activeCc obj).clusters = u.clusters ∧
      (u.clusterImage s.activeCc obj).sec.blaze = u.sec.blaze := ⟨rfl, rfl, rfl⟩
  have hmeas : (u.clusterImage s.activeCc obj).measOf s.activeCc 2 = sha3_512 (s.measOf s.activeCc 2 ++ padTo 64 (objDigest obj)) :=
    (u.measOf_extend s.activeCc 2 (objDigest obj)).trans (congrArg (fun m => sha3_512 (m ++ padTo 64 (objDigest obj)))
      (State.measOf_of_chips (congrArg Control.chips (huctl.trans hwctl)) s.activeCc 2))
  generalize u.clusterImage s.activeCc obj = v at himage hmeas
  obtain ⟨hvmem, hvclusters, hvblaze⟩ := himage
  obtain ⟨hdmem, hdctl, hdclusters⟩ := State.dropClusters_keeps bad v
  have hready (x : State) : x.serviceable.mem = x.mem ∧ x.serviceable.ctl = x.ctl ∧ x.serviceable.clusters = x.clusters ∧
      x.serviceable.sec = x.sec := ⟨rfl, rfl, rfl, rfl⟩
  obtain ⟨hrmem, hrctl, hrclusters, hrsec⟩ := hready (v.dropClusters bad)
  have hmem : (v.dropClusters bad).serviceable.mem = w.mem := by rw [hrmem, hdmem, hvmem, humem]
  refine ⟨State.getF_setF_same _ R.SEC.BOOT_STATUS.STAGE 0 6, ?_, ?_, ?_, fun c hc hon hbad => ?_, fun hnil => ?_, fun c hbad hc => ?_⟩
  · rw [State.memRead_of_mem_spread hmem hfit, hread]
  · unfold State.memBut
    rw [hmem]
    exact hbut
  · rw [State.measOf_of_chips (congrArg Control.chips (hrctl.trans hdctl)), hmeas]
  · have hcluster : (v.dropClusters bad).serviceable.cluster c = u.cluster c := by
      rw [State.cluster, hrclusters, hdclusters, hvclusters, State.cluster]
    rw [hcluster, hclusters hc ((State.part_of_beside (fun x : State => x.regionOn c) (fun _ => rfl) hbeside).trans hon) hbad,
      State.part_of_beside (fun x : State => x.cluster c) (fun _ => rfl) hbeside]
  · subst hnil
    rw [hrsec, State.blaze_dropClusters_nil, hvblaze, husec, hwsec]
  · rw [State.role, hrsec]
    exact State.role_dropClusters bad v hc hbad

/-! ### The obligation -/

/-- Settles O53: cruise stage by stage, the revision of the map field by field, the broadcast by the object's code. -/
theorem cruiseAndFirmware : Obligations.CruiseAndFirmware := by
  unfold Obligations.CruiseAndFirmware
  intro s h36
  refine ⟨fun q => ⟨exec_cruise_otherStage, exec_cruise_spec q h36⟩, ⟨exec_blazeMapRevision_idle, fun hrun hdirty => ?_⟩, fun obj bad => ?_⟩
  · exact ⟨_, exec_blazeMapRevision h36 hrun hdirty, s.reviseBlaze_spec⟩
  · exact ⟨fun hst => exec_firmwareBroadcast_otherStage hst obj bad, fun hst =>
      ⟨exec_firmwareBroadcast_bad h36 hst obj bad, exec_firmwareBroadcast_spec h36 hst bad⟩⟩

end Sys2Proof.Machine
end
